-- ==== Sys2Proof/Word.lean ====
section
/-! DEFINITION. Word types of the Uluet and their plainest names (R5: every structure is little-endian,
bit 0 is the least significant bit). -/

namespace Sys2Proof

/-- One byte. -/
abbrev Byte := BitVec 8
/-- A 16-bit word. -/
abbrev Word16 := BitVec 16
/-- A 32-bit word. -/
abbrev Word32 := BitVec 32
/-- A 64-bit word. -/
abbrev Word64 := BitVec 64

/-- A channel ID (R32). -/
abbrev ChanId := Fin 65536
/-- An engine E00 to E95 (R12). -/
abbrev EngineId := Fin 96
/-- An Ethernet port ETH0 to ETH3 (R54). -/
abbrev PortId := Fin 4
/-- A time base TB0 to TB3 (R365). -/
abbrev TbId := Fin 4
/-- A warden W0 to W5 (R15). -/
abbrev WardenId := Fin 6
/-- A cluster C00 to C11 (R12). -/
abbrev ClusterId := Fin 12
/-- A memory channel MC0 to MC7 (R332). -/
abbrev McId := Fin 8
/-- A command queue (R405). -/
abbrev QueueId := Fin 64
/-- A ring port: 0 east, 1 west (R450). -/
abbrev RingPort := Fin 2
/-- A power domain: 0 to 23 are PD-E00 to PD-E23, then PD-AON, PD-SUP, PD-HOST, PD-LINK, PD-MEM and PD-ACC (R531). -/
abbrev DomainId := Fin 30

end Sys2Proof
end

