-- ==== Sys2Proof/Syntax.lean ====
section
/-! DEFINITION. The commands of the block: one constructor of `Instr` for each row of spec/opcode_table.json, with
the operands the row's rule gives it. An operand that stands for something measured outside the model (a signal, a
self-test verdict, the words a host wrote) is named so. -/

namespace Sys2Proof

/-- A supervisor command as Bister takes it (R406, R416): the queue it came from, word 0's CMD_TAG and reserved bits
[31:16], words 1 to 7, and the parameter block's words as they stood when the command was taken (R417). -/
structure HostCmd where
  qid  : QueueId
  tag  : Word32
  rsvd : Word16 := 0
  w1   : Word64 := 0
  w2   : Word64 := 0
  w3   : Word64 := 0
  w4   : Word64 := 0
  w5   : Word64 := 0
  w6   : Word64 := 0
  w7   : Word64 := 0
  blk  : List Word64 := []
  deriving DecidableEq, Repr

/-- What a host writes to a register, and the bits of W1C fields of the access that hardware sets in the cycle of the write (R8). -/
structure HostWrite where
  value : Word64
  sets  : Word64 := 0
  deriving DecidableEq, Repr

/-- One pattern filter as a frame reads it at its first byte (R68, R70). -/
structure FilterCfg where
  mask   : BitVec 128
  crc    : Word16
  action : Nat
  steerQ : Nat
  deriving DecidableEq, Repr

/-- A frame whose last bit reaches a MAC: destination address to FCS (R62), whether the PCS flagged it,
the codewords counted with it (R56; without data: codewords that carried no frame), the filters as they stood at its first byte where the host has written them since
(R70; `none`: unchanged), and what packet memory's SECDED finds of its words (R493): how many it corrects, and whether one
cannot be. -/
structure RxFrame where
  data       : List Byte
  codeErr    : Bool := false
  fecCorr    : Nat := 0
  fecUncorr  : Nat := 0
  oldFilters : Option (List FilterCfg) := none
  packetCe   : Nat := 0
  packetUe   : Bool := false
  deriving DecidableEq, Repr

/-- Who posted a transmit descriptor (R73, R381). -/
inductive TxOwner where
  | host
  | bister
  | egress (ch : ChanId)
  deriving DecidableEq, Repr

/-- A one-step timestamp insertion (R382): time base, byte OFFSET after tag insertion, transport (0 IEEE 802.3,
1 UDP/IPv4, 2 UDP/IPv6), and the offset of the two-byte trailer for UDP/IPv6. -/
structure OneStep where
  tb        : TbId
  offset    : Nat
  transport : Nat
  trailer   : Nat
  deriving DecidableEq, Repr

/-- A transmit descriptor (R73, R74, R76, R381-R383): the frame image before insertions, the queue, and what to
insert; `buffers`: packet buffers it holds; `rtpOctets`: RTP payload octets, where a channel counts it as a media packet. -/
structure TxDesc where
  queue    : Fin 8
  data     : List Byte
  owner    : TxOwner := .host
  launch   : Option (TbId × Word64) := none
  tag      : Option Word32 := none
  ipCsum   : Bool := false
  udpCsum  : Bool := false
  ipOff    : Nat := 14
  udpOff   : Nat := 34
  seg      : Nat := 0
  twoStep  : Option (TbId × Word16) := none
  oneStep  : Option OneStep := none
  buffers  : Nat := 0
  rtpOctets : Option Nat := none
  deriving DecidableEq, Repr

/-- The management specification and revision a module states (R59). -/
inductive ModuleSpec where
  | cmis40
  | cmis50
  | cmis51
  | cmis52
  | sff8636
  | unsupported
  deriving DecidableEq, Repr

/-- What Bister reads of a module (R59, R60): its specification, its applications (application code, the ETH_CFG.MODE it serves), its
CMIS power class, its identity bytes and its thresholds. -/
structure ModuleInfo where
  spec       : ModuleSpec := .cmis52
  apps       : List (Byte × Nat)
  powerClass : Nat
  identity   : List Byte := []
  thresholds : List Byte := []
  deriving DecidableEq, Repr

/-- What a poll reads of a module (R61): its monitor values and its flags. -/
structure ModuleMonitor where
  values : List Word16 := []
  flags  : Byte := 0
  deriving DecidableEq, Repr

/-- The stages of a link's bring-up (R55, R532), and the link up. -/
inductive LinkStage where
  | autoNeg
  | training
  | blockLock
  | fecAlign
  | up
  deriving DecidableEq, Repr

/-- An ability of Clause 73 (R55): a port mode, its FEC as RS(n, k), and whether PAUSE transmission is advertised. -/
structure Ability where
  mode  : Nat
  fec   : Nat × Nat
  pause : Bool := false
  deriving DecidableEq, Repr

/-- A bring-up stage that fails (R532), with the abilities the link partner offers where it is auto-negotiation (R55). -/
structure StageFail where
  stage   : LinkStage
  offered : List Ability := []
  deriving DecidableEq, Repr

/-- The book a snapshot row is about (Table 1.9). -/
inductive Book where
  | packetBuffers
  | taskSlots
  | cxlCredits
  | dramCredits
  | ringCredits
  deriving DecidableEq, Repr

/-- A repair packet of a FECFRAME repair flow as it reaches the block store (R146): SBN, ESI, source block length, number of encoding
symbols, and symbol bytes. -/
structure RepairPacket where
  sbn    : Word16
  esi    : Nat
  k      : Nat
  n      : Nat
  symbol : List Byte
  deriving DecidableEq, Repr

/-- A signal as the detectors of a job see it at the end of one 5 ms block (R225, R226, R229, R232): its code, deviation
from nominal frequency (0.1 percent for DTMF, MF R1, call progress, V.21 and V.8; Hz otherwise), level of the weaker
component in 0.1 dBm0, twist in 0.1 dB (positive: high group above low), measured duration in ms, length of the
interruption under way in ms, length in ms of the concealment or gap that ends the block, onset in ns from the start of the
job's frame, ns from the onset to the end of the last whole block it filled, total power (R236), and for a cadence the
segments since its onset in ms; `block`: the number of the block in the frame. -/
structure ToneObs where
  code     : Nat
  block    : Nat := 0
  freqDev  : Nat := 0
  level    : Int := 0
  twist    : Int := 0
  durMs    : Nat := 0
  gapMs    : Nat := 0
  hiddenMs : Nat := 0
  onset    : Int := 0
  whole    : Nat := 0
  volume   : Nat := 0
  segs     : List Nat := []
  deriving DecidableEq, Repr

/-- One 5 ms block of a job as the 2100 Hz detector of the tone disabler measures it, on Sin or on Rin (R177, R225): frequency in 0.1 Hz,
level in 0.1 dBm0, and the change of the tone's phase since the block before in 0.1 degree. -/
structure AnsBlock where
  rin   : Bool := false
  freq  : Nat := 0
  level : Int := -999
  phase : Int := 0
  deriving DecidableEq, Repr

/-- What a T.38 packet says (R259-R263): indicators, and the /ANS that answers the one for ANSam; HDLC data, the frame from its address field on, without FCS, and whether that was good;
image data; receiver and signalling rate as VbdObs has them; `last`: with its sig-end; and what the relay does not support. -/
inductive Ifp where
  | noSignal
  | cng
  | ced
  | ansam
  | slashAns
  | preamble
  | training (receiver rate : Nat) (long : Bool)
  | hdlc (receiver rate : Nat) (frame : List (BitVec 8)) (good last : Bool)
  | image (receiver rate : Nat) (octets : List (BitVec 8)) (last : Bool)
  | other
  deriving DecidableEq, Repr, Inhabited

/-- What Saffron's receivers find in one 5 ms job (R251-R266): energy in 0.1 dBm0, sync word seen, qualifier met by this receiver (1
V.21, 2 V.27ter, 3 V.29, 4 V.17, 5 Baudot, 6 V.21 text), long training; AFC in 0.1 Hz and AGC in 0.1 dB; the HDLC frames that end in it,
and whether their FCS is good; image data; the code of a character it has read, and whether at 50 baud; on the transmit side, how many
queued IFPs or characters the modulator has finished and whether it inserted idle. -/
structure VbdObs where
  energy    : Int := -999
  sync      : Bool := false
  qualified : Bool := false
  receiver  : Nat := 0
  long      : Bool := false
  afc       : Int := 0
  agc       : Int := 0
  frames    : List (List (BitVec 8) × Bool) := []
  image     : List (BitVec 8) := []
  char      : Option Nat := none
  fast      : Bool := false
  taken     : Nat := 0
  underflow : Bool := false
  deriving DecidableEq, Repr

/-- What the codecs and detectors of one lane deliver in the job that its OUTEND ends (R187; they are the standards' own and Folnen's):
`sin`, the decoder's, concealment's or comfort-noise generator's output at the canceller rate (on a relay leg: the modulator's, at 0 dBm0),
and `high`, the band of it above 8 kHz, by sample of the canceller rate; whether the codec's VAD flags it inactive; `mode`, what the decoder finds where no field of the frame says it; `voice`,
the verdict of the encoder's VAD by frame sent, and whether Annex B asks for a SID; tones, the 2100 Hz detector and voiceband
measurements; and whether the job makes its channel's RTCP report (R137). -/
structure JobReport where
  lane     : Fin 16
  sin      : List Word16 := []
  high     : List Word16 := []
  inactive : Bool := false
  mode     : Nat := 0
  voice    : List Bool := []
  sidDue   : Bool := false
  tones    : List ToneObs := []
  ans      : List AnsBlock := []
  vbd      : List VbdObs := []
  rtcp     : Bool := false
  deriving DecidableEq, Repr

/-- What a DRAM access returns (R342, R343). -/
inductive EccResult where
  | clean
  | corrected
  | uncorrectable
  deriving DecidableEq, Repr

/-- What the SECDED of an engine's own memories finds as a bundle issues (R270, R303, R493): nothing, an error that is corrected, one
in XMEM or YMEM that is not, one in PMEM or the loop buffer that is not. -/
inductive EngineEcc where
  | clean
  | corrected
  | data
  | program
  deriving DecidableEq, Repr

/-- A request entering a memory controller (R347, R350): requester port, source identity (0 to 11 a cluster's context cache, 12
to 107 an engine's streamer, 108 Steep, 109 and 110 the Weld units, 111 the publisher, 112 the CXL controller, 113 and 114 the
ring ports, 115 and 116 the Lake units, 117 the capture engine, 118 Bister), the number of its line in the channel, the bank and
row the hash of R336 gives it, write or read, what the DIMM returns and after how many ns, the channel whose context a
context cache fetches, and what the checks on the way find (R493): a parity error on the fabric, and what the SECDED of the SRAM
that holds the line finds. -/
structure MemReq where
  port   : Fin 8
  source : Nat
  line   : Nat
  bank   : Nat
  row    : Nat
  write  : Bool
  ecc    : EccResult := .clean
  latencyNs : Nat := 0
  ctxChan : Option ChanId := none
  parity  : Bool := false
  sram    : EccResult := .clean
  deriving DecidableEq, Repr

/-- A DIMM as the boot ROM finds it over its SPD hub (Table 14.1): module part number, DDR5 RDIMM with ECC, SPD5 hub and
thermal sensor, DRAM width, die density in Gb, ranks, planar (1) or 3DS stack height, capacity in GB, speed grade, and SPD bytes 0 to 1,023 (R335). -/
structure Dimm where
  part    : Nat
  rdimm   : Bool
  width   : Nat
  density : Nat
  ranks   : Nat
  stack   : Nat
  gb      : Nat
  grade   : Nat
  spd     : List Byte := []
  deriving DecidableEq, Repr

/-- What boot training finds on a memory channel (R333, R334, R354): its two slots, the narrowest eye of its lanes in percent of the
unit interval, and the centre of each lane. -/
structure ChannelFit where
  slot0   : Option Dimm
  slot1   : Option Dimm := none
  eye     : Nat := 0
  centres : List (Nat × Nat) := []
  deriving DecidableEq, Repr

/-- Header fields of a received ring frame (Table 19.2) and whether its CRC held. -/
structure RingFrame where
  type   : Nat
  srcPos : Nat
  dstPos : Nat
  hops   : Nat
  nak    : Bool
  crData : BitVec 12
  seq    : Word16
  ack    : Word16
  length : Nat
  last   : Bool
  crCtl  : Byte
  crcOk  : Bool := true
  deriving DecidableEq, Repr

/-- The payload of a HEARTBEAT (R458). -/
structure HeartbeatMsg where
  srcPos     : Nat
  hops       : Nat
  count      : Word32
  restarting : Bool
  hold       : Bool
  paired     : Bool
  upPos      : Nat
  downPos    : Nat
  deriving DecidableEq, Repr

/-- An IDENTITY message (Table 19.3). -/
structure IdentityMsg where
  pos     : Nat
  serial  : Word64
  stepping : Nat
  release : Nat
  epoch   : Nat
  slot    : Nat
  deriving DecidableEq, Repr

/-- A SETTINGS body (R463): the head and the groups of Table 17.1 as block words, group 12 in its wrapped form. -/
structure SettingsBody where
  ch      : ChanId
  state   : Nat
  peer    : ChanId
  hostTag : Word16
  cmdTag  : Word16
  groups  : List Word64
  deriving DecidableEq, Repr

/-- A DELTA or SYNC body (R465): head and sections (KIND, data words). -/
structure DeltaBody where
  ch       : ChanId
  epoch    : BitVec 40
  gen      : Word16
  tickTime : Word64
  kernel   : Word16
  sections : List (Nat × List Word64)
  deriving DecidableEq, Repr

/-- The data of an Announce message (R370): the fields the default BMCA compares, in its order. -/
structure AnnounceMsg where
  domain       : Nat
  priority1    : Nat
  clockClass   : Nat
  accuracy     : Nat
  variance     : Nat
  priority2    : Nat
  identity     : Word64
  stepsRemoved : Nat
  deriving DecidableEq, Repr

/-- A host CXL.mem access to one 64-byte line or part of it (R393, R394): read, or write of these bytes. -/
inductive MemAccess where
  | read
  | write (bytes : List Byte)
  deriving DecidableEq, Repr

/-- Requests over DOE: SPDM 1.2 and IDE_KM but GET_MEASUREMENTS (R501, R397), and a read of a CDAT entry (R398). -/
inductive SpdmRequest where
  | getVersion
  | getCapabilities
  | negotiateAlgorithms
  | getDigests
  | getCertificate (slot offset len : Nat)
  | challenge (nonce : BitVec 256)
  | keyExchange (pub : List Byte)
  | finish
  | endSession
  | ideKeyProg (stream : Nat) (key : BitVec 256)
  | ideKeySetGo (stream : Nat)
  | ideKeySetStop (stream : Nat)
  | readCdat (entry : Nat)
  deriving DecidableEq, Repr

/-- A STATUS of a fence answer (Table 19.3). -/
inductive FenceStatus where
  | alive
  | released
  | refused
  deriving DecidableEq, Repr

/-- A reference input (R520). -/
inductive RefClock where
  | sys
  | eth
  | cxl
  deriving DecidableEq, Repr

/-- The commands of the block, in the order of spec/opcode_table.json. -/
inductive Instr where
  | registerWrite (addr width : Nat) (value : HostWrite)
  | rcRegisterRead (addr width : Nat) (event : Option Nat)
  | wardenWatchdogPoll (w : WardenId) (answered : Bool)
  | wardenResetDone (w : WardenId) (restored : Bool)
  | counterCollection (w : WardenId)
  | lockstepMismatch (lowPasses highPasses : Bool)
  | tickBoundary (tb : TbId)
  | tickEntryTaken (tb : TbId)
  | chanOpen (c : HostCmd)
  | chanModify (c : HostCmd)
  | chanClose (c : HostCmd)
  | callBind (c : HostCmd)
  | callUnbind (c : HostCmd)
  | housekeepingPublication (ch : ChanId)
  | deferredPublication (ch : ChanId)
  | stateWindowWrite (offset : Nat)
  | snapshot (c : HostCmd)
  | statsRead (c : HostCmd)
  | ethCfgWrite (p : PortId) (width : Nat) (value : Word64)
  | linkUp (p : PortId)
  | linkStageTimeout (p : PortId) (f : StageFail)
  | linkDown (p : PortId)
  | modPrsFall (p : PortId) (info : Option ModuleInfo)
  | moduleRemoval (p : PortId)
  | modIntFall (p : PortId) (flags : Byte)
  | moduleMonitorPoll (p : PortId) (m : ModuleMonitor)
  | frameReceive (p : PortId) (f : RxFrame)
  | pauseExpiry (p : PortId)
  | transmitDescriptor (p : PortId) (d : TxDesc)
  | frameTransmitStart (p : PortId)
  | frameTransmitEnd (p : PortId)
  | txUnderrun (p : PortId) (hostWrite : Option (BitVec 14))
  | gateIntervalEnd (p : PortId)
  | ethGateCtlWrite (p : PortId) (width : Nat) (value : Word64)
  | gateSwap (p : PortId)
  | flowLookup (p : PortId) (eccBad : List Nat)
  | previousKeyDiscard (ch : ChanId)
  | excRateWindow
  | arpRequest (p : PortId) (target : BitVec 128) (solicitation : Bool) (frame : List Byte)
  | flowSlotRewrite (slot : Nat)
  | flwBookSnap
  | bookLatch (b : Book)
  | bookSnapSkipped (b : Book)
  | egressPacketBuild (ch : ChanId)
  | steepRingWrite
  | transitWindowAge (ch : ChanId)
  | playoutTick (ch : ChanId)
  | forceAfterExpiry (ch : ChanId)
  | ringMove (ch : ChanId)
  | weldOffer (ch : ChanId)
  | weldAnswerTimeout (ch : ChanId)
  | repairSymbolReceive (ch : ChanId) (r : RepairPacket)
  | decodeJobStart (u : Fin 2)
  | decodeJobEnd (u : Fin 2)
  | ffBlockTimeout (ch : ChanId)
  | fecSet (c : HostCmd)
  | ecSet (c : HostCmd)
  | woadSearch (ch : ChanId) (q : Fin 4)
  | nlpHoldEnd (ch : ChanId)
  | doubleTalkEnd (ch : ChanId)
  | nlpHangEnd (ch : ChanId)
  | disablerRelease (ch : ChanId)
  | glazeDescriptorStart (k : ClusterId)
  | glazeDescriptorComplete (k : ClusterId)
  | glzBankSwap (width : Nat) (value : Word64)
  | fadingEnd
  | toneSet (c : HostCmd)
  | toneGen (c : HostCmd)
  | eventTimeout (ch : ChanId)
  | faxMode (c : HostCmd)
  | vbdReturnIdle (ch : ChanId)
  | qualificationTimeout (ch : ChanId)
  | udptlReorderTimeout (ch : ChanId)
  | txSigEndTimeout (ch : ChanId)
  | saffronSilenceEnd (ch : ChanId)
  | textBlockTimeout (ch : ChanId)
  | baudotMarkHoldEnd (ch : ChanId)
  | skeinDispatch (e : EngineId)
  | bundleIssue (e : EngineId) (reports : List JobReport) (ecc : EngineEcc)
  | streamEntryArrival (e : EngineId)
  | loopCountEnd (e : EngineId) (loop : Fin 2)
  | interruptEntry (e : EngineId) (ward : Bool)
  | budgetReached (e : EngineId)
  | pmemReload (e : EngineId)
  | taskOffer (cancelledNow : Bool)
  | immediateTaskAccept
  | immediateHoldReoffer
  | skeinWindowClose (e : EngineId) (index : Nat)
  | stealNear (e : EngineId)
  | stealFar (e : EngineId)
  | taskTransitEnd
  | jobAbort (e : EngineId) (lane : Fin 16)
  | engineDomainFailure (d : Fin 24)
  | evacuationWindowClose
  | morBookSnap
  | loadSecond
  | memoryRequest (m : McId) (r : MemReq)
  | urgencyRise (m : McId) (index : Nat)
  | writeQueueDrain (m : McId)
  | rowIdleClose (m : McId) (bank : Nat)
  | activateTableClear (m : McId)
  | patrolScrub (m : McId) (line : Nat) (ecc : EccResult)
  | alertN (m : McId)
  | writeCrcError (m : McId)
  | dimmThermalPoll (temps : List (Nat × Int))
  | periodicRetrain (m : McId) (failed : Bool) (moved : List (Nat × Nat))
  | migrationPageCopy (m : McId) (lostLine : Bool)
  | fenceEnd (m : McId)
  | memChCtlReset (m : McId) (width : Nat) (value : Word64)
  | memchTrainingDone (m : McId) (sweep : Option (List (Nat × Nat)))
  | memBookSnap
  | hsSizeWrite (width : Nat) (value : Word64)
  | memTrainingDone (fits : List ChannelFit)
  | selfRefreshEntry (m : McId)
  | selfRefreshExit
  | timLatch
  | ref10mLock
  | ref10mLoss
  | ptpSync (tb : TbId) (t1 t2 correction : Int)
  | ptpDelayResp (tb : TbId) (t1 t2 t3 t4 correction : Int)
  | servoHoldover (tb : TbId)
  | ppsInEdge
  | ppsOutEdge
  | timestampPop (p : PortId)
  | timebaseConfigure (c : HostCmd)
  | timebaseFreq (c : HostCmd)
  | timebaseLoad (c : HostCmd)
  | timebaseHostSample (c : HostCmd)
  | timebaseStepAccept (c : HostCmd)
  | cxlLinkDown
  | flr
  | perst
  | hdmDecoderCommit (size : Nat)
  | cxlMemAccess (offset : Nat) (a : MemAccess)
  | bisnpResponse (line : Nat)
  | h2dSnoop (line : Nat)
  | cxlCacheCompletion (ok : Bool)
  | getEventRecords (log : Fin 4)
  | clearEventRecords (log : Fin 4) (handles : List Nat) (all : Bool)
  | getTimestamp
  | setTimestamp (t : Word64)
  | getSupportedLogs
  | getLog (which : Fin 2) (offset length : Nat)
  | identifyMemoryDevice
  | getHealthInfo
  | getPoisonList
  | fnBootInfo
  | fnImageLoad (offset : Nat) (data : List Byte)
  | fnImageStart (length : Nat)
  | fnImageVerified
  | fnCapacity
  | romSelfTestDone (passed : Bool)
  | supStartDone (started : Bool) (eeprom : List Byte)
  | qCtlEnable (q : QueueId) (width : Nat) (value : Word64)
  | qCtlDisable (q : QueueId) (width : Nat) (value : Word64)
  | sqTail (q : QueueId) (width : Nat) (value : Word64)
  | commandFetch
  | cqHead (q : QueueId) (width : Nat) (value : Word64)
  | cqCoalesceTimeout (q : QueueId)
  | xqHead (x : Fin 8) (width : Nat) (value : Word64)
  | nqHead (width : Nat) (value : Word64)
  | mbxHostBookSnap
  | replayStart (c : HostCmd)
  | portCaptureStart (c : HostCmd)
  | replayStop (c : HostCmd)
  | portCaptureStop (c : HostCmd)
  | captureExport (c : HostCmd)
  | lakeJobStart (u : Fin 2)
  | lakeJobEnd (u : Fin 2)
  | exportFreezeExpiry (source : Nat)
  | lakeStateSave (width : Nat) (value : Word64)
  | lakeStateRestore (width : Nat) (value : Word64) (image : List Byte)
  | mirrorPair (c : HostCmd)
  | failoverTake (c : HostCmd)
  | engineRetire (c : HostCmd)
  | engineRestore (c : HostCmd)
  | engineSelfTestDone (e : EngineId) (passed : Bool)
  | imageStageSup (c : HostCmd) (image : List Byte)
  | imageStagePack (c : HostCmd) (image : List Byte)
  | imageActivateSup (c : HostCmd)
  | imageActivatePack (c : HostCmd)
  | rolloutDomainTurn
  | serviceUnlockChallenge (c : HostCmd)
  | serviceUnlockResponse (c : HostCmd)
  | erasureGraceEnd
  | rngInsert (width : Nat) (value : Word64)
  | ringInsertTimeout
  | ringLinkTrained (x : RingPort)
  | linkFrame (x : RingPort) (f : RingFrame)
  | ringRetrain (x : RingPort)
  | heartbeatSend
  | heartbeat (x : RingPort) (h : HeartbeatMsg)
  | identity (x : RingPort) (i : IdentityMsg)
  | pairOffer (first count : Nat) (token : Word32) (pub : List Byte)
  | pairConfirm (status : Nat) (token : Word32) (pub : List Byte)
  | pairOfferTimeout
  | settings (b : SettingsBody)
  | settingsAckTimeout (ch : ChanId)
  | delta (b : DeltaBody)
  | deltaSend (ch : ChanId)
  | sync (b : DeltaBody)
  | syncSend (ch : ChanId)
  | mirrorLagCheck
  | ctxRequest (ch : ChanId) (token : Word32)
  | fenceQuery (src : Nat) (token : Word32)
  | fenceAnswer (status : FenceStatus) (token : Word32)
  | fenceDemand (src : Nat) (token : Word32)
  | fenceDemandTimeout
  | hold (src : Nat) (maxS : Nat)
  | holdExpiry
  | resumeQuery (src : Nat) (token : Word32)
  | resumeAnswer (adopted : Bool)
  | livenessRefresh
  | livenessFailure
  | upstreamSilence
  | adoption
  | announcementRepeat
  | rngBookSnap
  | warmReset (width : Nat) (value : Word64)
  | supReset (width : Nat) (value : Word64)
  | portReset (width : Nat) (value : Word64)
  | coldReset (width : Nat) (value : Word64)
  | supReturn
  | supFallback
  | secSvnCommit (width : Nat) (value : Word64)
  | eventCoalesceFlush (code unit inst chan : Nat)
  | getMeasurements (index : Nat)
  | spdmMessage (m : SpdmRequest)
  | powerOn
  | coldRstL (lowNs : Nat)
  | supplyFault (rail : Fin 7)
  | brownOut (rail : Fin 7)
  | engineDomainGate (width : Nat) (value : Word64)
  | engineDomainUngate (width : Nat) (value : Word64) (passed : Bool)
  | overcurrentTrip (d : DomainId)
  | sensorRead (temps : List Word16)
  | tripComparator (temps : List Word16)
  | referenceClockLoss (r : RefClock)
  | srtpKeySet (c : HostCmd)
  | dramRefresh (m : McId) (rank : Nat)
  | cxlLinkTrained (width rate : Nat)
  | ringLinkDown (x : RingPort)
  | tapBlockLock
  | brownOutRelease
  | ptpAnnounce (tb : TbId) (a : AnnounceMsg)
  deriving DecidableEq, Repr

end Sys2Proof
end

