-- ==== Sys2Proof/WellFormed.lean ====
section
/-! DEFINITION. Which commands can reach the block at all: operands that the widths of the interface rule out are
ill-formed. A refusal by a rule of the spec (a completion, a counter) is no ill-formedness. -/

namespace Sys2Proof

/-- An access to BAR0 (R391, R392): 64 MiB, and 8, 16, 32 or 64 bits wide. -/
def accessOk (addr width : Nat) : Bool :=
  decide (addr < 0x4000000) && (width = 8 || width = 16 || width = 32 || width = 64)

/-- The width alone, where the command names its register. -/
def widthOk (width : Nat) : Bool := width = 8 || width = 16 || width = 32 || width = 64

/-- A parameter block has at most 4,096 words (R416). -/
def HostCmd.ok (c : HostCmd) : Bool := decide (c.blk.length ≤ 4096)

/-- A transmit descriptor: one-step transport 0 to 2 (R382), offsets inside the image. -/
def TxDesc.ok (d : TxDesc) : Bool :=
  d.oneStep.all (fun o => decide (o.transport ≤ 2)) && decide (d.seg ≤ 16383)

/-- Header fields of a ring frame fit their bits (Table 19.2). -/
def RingFrame.ok (f : RingFrame) : Bool :=
  decide (f.type < 256) && decide (f.srcPos < 8) && decide (f.dstPos < 8) && decide (f.hops < 16) && decide (f.length < 65536)

/-- A memory request lies in a channel of at most 512 GB (R332). -/
def MemReq.ok (r : MemReq) : Bool := decide (r.line < 2 ^ 33)

/-- Filters of a port: 32 (R68). -/
def RxFrame.ok (f : RxFrame) : Bool := f.oldFilters.all (fun l => decide (l.length = 32))

/-- The command is well formed. -/
def Instr.wf : Instr → Bool
  | .registerWrite a w _ => accessOk a w
  | .rcRegisterRead a w _ => accessOk a w
  | .ethCfgWrite _ w _ | .ethGateCtlWrite _ w _ | .glzBankSwap w _ | .memChCtlReset _ w _ | .hsSizeWrite w _
  | .qCtlEnable _ w _ | .qCtlDisable _ w _ | .sqTail _ w _ | .cqHead _ w _ | .xqHead _ w _ | .nqHead w _
  | .lakeStateSave w _ | .lakeStateRestore w _ _ | .rngInsert w _ | .warmReset w _ | .supReset w _ | .portReset w _
  | .coldReset w _ | .secSvnCommit w _ | .engineDomainGate w _ | .engineDomainUngate w _ _ => widthOk w
  | .chanOpen c | .chanModify c | .chanClose c | .callBind c | .callUnbind c | .snapshot c | .statsRead c | .fecSet c
  | .ecSet c | .toneSet c | .toneGen c | .faxMode c | .timebaseConfigure c | .timebaseFreq c | .timebaseLoad c
  | .timebaseHostSample c | .timebaseStepAccept c | .replayStart c | .portCaptureStart c | .replayStop c
  | .portCaptureStop c | .captureExport c | .mirrorPair c | .failoverTake c | .engineRetire c | .engineRestore c
  | .imageStageSup c _ | .imageStagePack c _ | .imageActivateSup c | .imageActivatePack c | .serviceUnlockChallenge c
  | .serviceUnlockResponse c | .srtpKeySet c => c.ok
  | .stateWindowWrite o => decide (o < 0x8000000)
  | .frameReceive _ f => f.ok
  | .transmitDescriptor _ d => d.ok
  | .memoryRequest _ r => r.ok
  | .linkFrame _ f => f.ok
  | _ => true

end Sys2Proof
end

