-- ==== Sys2Proof/Config.lean ====
section
/-! DEFINITION. What the spec leaves to standards, to Folnen's own data or open: uninterpreted constants without a
body. Nothing in the model knows a value of any of them. -/

namespace Sys2Proof

/-- A free value: `freeNat k` is the value drawn at free index `k` (log 2). -/
opaque Config.freeNat : Nat → Nat

/-- The PCI vendor and device IDs that Folnen assigned (R388). -/
opaque Config.vendorId : Nat
opaque Config.deviceId : Nat

/-! ### Cryptography (R102, R104, R105, R497-R503): the standards' own functions -/

/-- A received SRTP or SRTCP packet passes authentication under suite, key, salt, MKI length, and rollover counter or
SRTCP index. -/
opaque Config.srtpPasses (suite key salt mkiLen : Nat) (rtcp : Bool) (roc : Nat) (packet : List Byte) : Bool

/-- The plain packet of an authenticated one. -/
opaque Config.srtpOpen (suite key salt mkiLen : Nat) (rtcp : Bool) (roc : Nat) (packet : List Byte) : List Byte

/-- The protected form of a packet to be sent, MKI and tag in place. -/
opaque Config.srtpProtect (suite key salt mkiLen mki : Nat) (index : Nat) (packet : List Byte) : List Byte

/-! ### Keys of the ring (R461, R463): ECDH on secp384r1 with HKDF-SHA-384, AES-256-GCM -/

/-- The public key of an ephemeral private key, and the pairing key it gives with the peer's public key. -/
opaque Config.publicKey : Nat → List (BitVec 8)
opaque Config.pairingSecret : Nat → List (BitVec 8) → Nat

/-- Ciphertext and two tag words of six words under a pairing key with counter `ctr`, and the words back where the tag holds. -/
opaque Config.gcmSeal (key ctr : Nat) (ws : List (BitVec 64)) : List (BitVec 64)
opaque Config.gcmOpen (key ctr : Nat) (ws : List (BitVec 64)) : Option (List (BitVec 64))

/-! ### FECFRAME (R144-R152): the formats and matrix of RFC 6816 -/

/-- The Explicit Source FEC Payload ID of a source packet. -/
opaque Config.fecSourceId (sbn esi : Nat) : List Byte

/-- SBN, ESI and source packet of a received packet with its payload ID. -/
opaque Config.fecSourceParse (packet : List Byte) : Option (Nat × Nat × List Byte)

/-- The encoding symbols of repair equation `row` of a block of k source and r repair symbols. -/
opaque Config.fecEquation (k r n1 seed row : Nat) : List Nat

/-! ### Glaze (R211): Folnen's factory sets -/

/-- Coefficient k, in Q15, of the factory set from rate code `fin` to rate code `fout`, and its SHIFT. -/
opaque Config.factoryCoef (fin fout k : Nat) : BitVec 16
opaque Config.factoryShift (fin fout : Nat) : Nat

/-! ### T.38 over UDPTL (R259-R263): the formats of ITU-T T.38 -/

/-- Sequence number and primary IFP of a UDPTL packet; none: not one. -/
opaque Config.udptlParse (packet : List Byte) : Option (Nat × List Byte)

/-- The IFP of packet `seq` that the secondary IFPs or parity entries of a packet yield, given the IFPs known. -/
opaque Config.udptlFill (packet : List Byte) (known : List (Nat × List Byte)) (seq : Nat) : Option (List Byte)

/-- A UDPTL packet: sequence number, primary IFP, secondary IFPs (newest first). -/
opaque Config.udptlRed (seq : Nat) (primary : List Byte) (secondary : List (List Byte)) : List Byte

/-- A UDPTL packet with parity entries, each over `span` previous IFPs. -/
opaque Config.udptlFec (seq : Nat) (primary : List Byte) (span entries : Nat) (previous : List (List Byte)) : List Byte

/-- An IFP cut at field boundaries into parts that fit a datagram. -/
opaque Config.ifpSplit (room : Nat) (ifp : List Byte) : List (List Byte)

/-- An IFP of a version, and what it says: `other` where it is of a kind that is not relayed. -/
opaque Config.ifpBytes (version : Nat) (content : Ifp) : List Byte
opaque Config.ifpRead (version : Nat) (ifp : List Byte) : Ifp

/-! ### Saffron's audio and text (R257, R265, R266) -/

/-- Gain of a raised-cosine rise at sample `k` of `n`, in 1/32,768. -/
opaque Config.raisedCosine (k n : Nat) : Nat

/-- UTF-8 of an ITA2 code in the letters or the figures case, and of a T.50 code; the case and code of a character, where it has one. -/
opaque Config.ita2 (figures : Bool) (code : Nat) : List Byte
opaque Config.t50 (code : Nat) : List Byte
opaque Config.toIta2 (char : List Byte) : Option (Bool × Nat)

/-! ### The canceller (R160, R168, R176): Folnen's signal processing -/

/-- Coefficients after an update by improved proportionate normalised LMS: from those before, the reference under them (newest first) and
the residual. -/
opaque Config.ipnlms : List Int → List Int → Int → List Int

/-- The estimate of the background noise, as power by band, from the estimate before and a block of Sin at a rate code. -/
opaque Config.background (fs : Nat) (old : List Nat) (block : List Int) : List Nat

/-- Sample `k` of comfort noise with these band powers, within 2 dB, at a rate code. -/
opaque Config.comfortNoise (fs : Nat) (bands : List Nat) (k : Nat) : Int

/-- Impulse response of Woad's low-pass filter at a rate code. -/
opaque Config.woadFilter : Nat → List Int

/-- Sample of a burst of a signal (R242): rate code, code, level per component in 0.1 dBm0, its number in the burst, and how many follow. -/
opaque Config.toneWave (fs code : Nat) (level : Int) (k left : Nat) : Int

/-- Samples of one canceller rate at the other. -/
opaque Config.otherRate (fin : Nat) (l : List Int) : List Int

/-- The descriptor of a Folnen kernel, in the order of Table 12.11: epoch, entry, MODE, IEN, context bytes, slot bytes,
PERIODS, COST_BEFORE, COST_AFTER. -/
opaque Config.folnenKernel : Nat → List Nat

/-- The queue of its port that a channel's packets use; no rule names it. -/
opaque Config.mediaQueue : Nat → Nat

/-! ### Lake (R444, R445): Folnen's encoder -/

/-- DEFLATE of content at a level, with a dictionary and match-finder table that prime it; the match-finder table after it. -/
opaque Config.deflate (level : Nat) (dict table content : List Byte) : List Byte
opaque Config.lakeTable (level : Nat) (dict table content : List Byte) : List Byte

/-- FLEVEL of a zlib stream, and MTIME, XFL and OS of a gzip stream, at a level: no rule gives them. -/
opaque Config.zlibLevel (level : Nat) : BitVec 2
opaque Config.gzipRest (level : Nat) : BitVec 48

/-! ### Images, identity and logs (R399, R403, R483, R498-R503): Folnen's keys and data, and the standards' functions -/

/-- The signature of an image verifies under the key of a slot; the SHA-384 that the fuses of a slot hold, 0 where they are blank. -/
opaque Config.imageSigned (keyId : Nat) (image : List Byte) : Bool
opaque Config.ownerHash (keyId : Nat) : Nat

/-- The descriptors of Table 12.11 that a kernel pack carries: KERNEL_ID, and the fields in the order of `folnenKernel`. -/
opaque Config.packDescriptors : List Byte → List (Nat × List Nat)

/-- The response to a service challenge verifies under the Folnen service key. -/
opaque Config.serviceSigned (challenge serial : Nat) (response : List Nat) : Bool

/-- A SHA-384 digest. -/
opaque Config.digest : List Byte → Nat

/-- The certificate chain of slot 0, and what answers an SPDM request that the spec leaves to SPDM 1.2. -/
opaque Config.certificates : List Byte
opaque Config.spdmAnswer : SpdmRequest → Nat → List Byte

/-- Version of the boot ROM, its measurement, the Command Effects Log, the boot log and its
identifier. -/
opaque Config.romVersion : Nat
opaque Config.romDigest : Nat
opaque Config.effectsLog : List Byte
opaque Config.bootLog : List Byte
opaque Config.bootLogId : Nat

end Sys2Proof
end

