-- ==== Sys2Proof/Machine/State.lean ====
section
/-! DEFINITION. The state of the block: every register, queue, table and status the spec gives it, as plain data, and
the queue of commands that wait. A `Tbl` is a sparse table in canonical form (keys strictly rising, no entry equal to
the value an unlisted key reads as). Register fields of BAR0 stand in `State.regs` under the keys of
Sys2Proof/Machine/RegFile.lean. -/

namespace Sys2Proof.Machine

/-- A sparse table by key, in canonical form. -/
abbrev Tbl (α : Type) := List (Nat × α)

/-! ### Supervisor -/

/-- What Bister keeps of a warden (R17): unanswered polls in a row, standing in, its one reset under way, given up. -/
structure Warden where
  missed    : Nat := 0
  standIn   : Bool := false
  resetting : Bool := false
  givenUp   : Bool := false
  collectAt : Nat := 0
  deriving DecidableEq, Repr

/-- The supervisor cores (R18): the lockstep pair and the spare; `second = none` is DEGRADED. -/
structure Lockstep where
  lead   : Nat := 0
  second : Option Nat := some 1
  spare  : Option Nat := some 2
  deriving DecidableEq, Repr

/-- One CXL event record (R400, R495, Table 21.3). `kind`: 0 Folnen vendor, 1 General Media, 2 DRAM. -/
structure EventRec where
  kind     : Nat := 0
  code     : Nat
  unit     : Nat := 0
  inst     : Nat := 0
  chan     : Nat := 0xFFFF
  late     : Bool := false
  rep      : Bool := false
  address  : Nat := 0
  detail0  : Nat := 0
  detail1  : Nat := 0
  tb0      : Nat := 0
  count    : Nat := 1
  handle   : Nat := 0
  deriving DecidableEq, Repr

/-- One of the four event logs (R400): at most 512 records, the overflow count and its first and last time. -/
structure EventLog where
  records  : List EventRec := []
  overflow : Nat := 0
  firstOvf : Nat := 0
  lastOvf  : Nat := 0
  deriving DecidableEq, Repr

/-- An event within its coalescing second (R496). -/
structure Coalesce where
  ev    : EventRec
  sev   : Nat
  since : Nat
  count : Nat := 0
  deriving DecidableEq, Repr

/-- A command that Bister has taken and recorded (R429, R431): its channel set, whether its effect has been made and
its completion is still to come, and whether an FLR has discarded that completion (R413). -/
structure Taken where
  qid     : Nat
  tag     : Nat
  opcode  : Nat
  chans   : List Nat := []
  applied : Bool := false
  discard : Bool := false
  deriving DecidableEq, Repr

/-- A completion that waits for the first publication of each channel the command changed (R37, R421) and for the acknowledgement of
the SETTINGS bodies of `acks` (R463). -/
structure WaitPub where
  qid    : Nat
  tag    : Nat
  opcode : Nat
  chans  : List Nat
  ready  : List (Nat × Nat) := []
  order  : List Nat
  acks   : List Nat := []
  deriving DecidableEq, Repr

/-- A completion that falls while Bister restarts (R431, R481): it is written when Bister returns. `final`: a final completion
(R427). -/
structure Deferred where
  qid    : Nat
  tag    : Nat
  opcode : Nat
  status : Nat
  detail : Nat
  res2   : Nat
  res3   : Nat
  final  : Bool
  deriving DecidableEq, Repr

/-- The key vault (Table 21.6, R500): generations of the random keys, the pairing keys
with the downstream and the upstream member, the installed IDE keys, whether
the identity key may be derived, the service challenge and when it was drawn (R503). -/
structure Vault where
  partitionGen  : Nat := 0
  pairingKey    : Option Nat := none
  upKey         : Option Nat := none
  ephemeral     : Option Nat := none
  ideKeys       : Tbl (BitVec 256) := []
  ideGo         : List Nat := []
  identity      : Bool := true
  zeroised      : Bool := false
  challenge     : Option (BitVec 128) := none
  challengeAt   : Nat := 0
  wrapCounter   : Nat := 0
  deriving DecidableEq, Repr

/-- One entry of the surroundings inventory (Table 16.5). -/
structure InvEntry where
  type     : Nat
  inst     : Nat
  status   : Nat
  data     : List Byte := []
  deriving DecidableEq, Repr

/-- Supervisor state: wardens, cores, logs, poison list, taken commands, vault, inventory, board identity, and by book (in the order of
Table 1.9) when its snapshot was last requested. -/
structure Sup where
  wardens     : Tbl Warden := []
  cores       : Lockstep := {}
  logs        : Tbl EventLog := []
  coalesce    : List Coalesce := []
  nextHandle  : Nat := 1
  tsOffset    : Word64 := 0
  poison      : List Nat := []
  poisonOvf   : Bool := false
  poisonOvfAt : Nat := 0
  taken       : List Taken := []
  waiting     : List WaitPub := []
  finals      : Nat := 0
  lastServed  : Nat := 63
  vault       : Vault := {}
  invGen      : Nat := 0
  inventory   : List InvEntry := []
  eepromOk    : Bool := false
  eeprom      : List Byte := []
  modPower    : List Nat := [0, 0, 0, 0]
  restarting  : Bool := false
  restartAt   : Nat := 0
  lateEvents  : List (Nat × EventRec) := []
  deferred    : List Deferred := []
  lateNotices : List (Nat × Nat × Nat × Nat) := []
  snapAt      : Tbl Nat := []
  deriving DecidableEq, Repr

/-! ### Time bases -/

/-- One time base (R365, R371, R376): value and fraction, signed FREQ, the last samples (newest first), samples in a
row with |J| at most 100 ns, the time of the last usable sample, the last tick boundary emitted (in units of 250,000
ns), its tick queue to Steep (oldest first), host samples accepted in the current second, and the PTP slave's mean path
delay and master, and when its last Announce came. -/
structure TimeBase where
  value     : Word64 := 0
  frac      : Word32 := 0
  freq      : Int := 0
  tracked   : Int := 0
  samples   : List Int := []
  lockRun   : Nat := 0
  sampleAt  : Nat := 0
  lastTick  : Nat := 0
  tickQ     : List Nat := []
  hostSec   : Nat := 0
  hostCount : Nat := 0
  pathDelay : Int := 0
  master    : Option AnnounceMsg := none
  masterAt  : Nat := 0
  deriving DecidableEq, Repr

/-- State of the time unit: the four time bases, the last accepted PPS_IN edge, the second of the last PPS_OUT edge, when PPS_OUT falls and
the TB and OFFSET it goes by (R385), and whether TIME_10M_IN is locked. -/
structure TimeSt where
  tb        : Tbl TimeBase := []
  ppsInAt   : Option Nat := none
  ppsOutLast : Int := -1
  ppsOutFall : Nat := 0
  ppsTb     : Nat := 0
  ppsOffset : Int := 0
  ref10m    : Bool := false
  deriving DecidableEq, Repr

/-! ### Ethernet ports -/

/-- A frame that a port has accepted, on its way to the classifier (R64, R66, R69, R380). -/
structure RxMeta where
  data   : List Byte
  size   : Nat
  vid    : Nat
  pcp    : Nat
  tagged : Bool
  mark   : Option Nat := none
  stamps : List Nat
  arrivals : List Nat := []
  deriving DecidableEq, Repr

/-- How a transmit descriptor ended (R73, R75, R78, R80, R82, R381, R383). -/
inductive TxFate where
  | sent
  | overlength
  | launchFar
  | gateNever
  | linkDown
  | underrun
  deriving DecidableEq, Repr

/-- A transmit completion. -/
structure TxDone where
  owner  : TxOwner
  fate   : TxFate
  tsLost : Bool := false
  deriving DecidableEq, Repr

/-- The frame on the wire: its descriptor, the bytes with every insertion, and what its completion has gathered. -/
structure Wire where
  desc   : TxDesc
  bytes  : List Byte
  segsLeft : List (List Byte) := []
  late   : Bool := false
  tsLost : Bool := false
  fate   : TxFate := .sent
  startedAt : Nat := 0
  deriving DecidableEq, Repr

/-- One entry of a transmit timestamp queue (R381). -/
structure TxStamp where
  host : Bool
  tb   : Nat
  tag  : Nat
  time : Nat
  deriving DecidableEq, Repr

/-- One Ethernet port. `rxQ`: accepted frames held in the 16 KiB receive buffer, oldest first. `queues`: key 0 to 7.
`gates`: bit q is 1 while queue q's gate is open. `swapAt`: when a requested bank swap is due, on the gates' time base.
`lastSent`: the last frame on the wire as its bytes left. `stage`: the bring-up stage, none while the link may not come up; `lanes`:
SerDes lanes whose transmitters are on. `parts`: by queue, a descriptor some of whose segments have been sent. `waiting`: descriptors
whose packet buffers are not yet admitted. `modUnread`: a module came while Bister was away; `modApp` the application code selected,
`modFlags` and `monitors` as last read, `monitorAt` when the next poll is due. -/
structure Port where
  stage     : Option LinkStage := none
  lanes     : List Nat := []
  queues    : Tbl (List TxDesc) := []
  parts     : Tbl Wire := []
  waiting   : List TxDesc := []
  wire      : Option Wire := none
  pauseEnd  : Nat := 0
  rxQ       : List RxMeta := []
  gates     : Byte := 0xFF
  swapAt    : Nat := 0
  modInfo   : Option ModuleInfo := none
  modReady  : Bool := false
  modUnread : Bool := false
  modApp    : Option Byte := none
  modFlags  : Byte := 0
  monitors  : List Word16 := []
  monitorAt : Nat := 0
  lowPower  : Bool := true
  done      : List TxDone := []
  txStamps  : List TxStamp := []
  lastSent  : List Byte := []
  deriving DecidableEq, Repr

/-! ### Ingress -/

/-- A local address table entry (R86, R87): the address, ACTIVE, and how many flows use it. -/
structure LatEntry where
  addr   : BitVec 128
  active : Bool
  users  : Nat
  deriving DecidableEq, Repr

/-- A flow entry (Table 4.1). -/
structure FlowEntry where
  remoteAddr : BitVec 128
  remotePort : Nat
  localPort  : Nat
  latIndex   : Nat
  ethPort    : Nat
  vid        : Nat
  keyType    : Nat
  ch         : Nat
  kind       : Nat
  immediate  : Bool
  rtcpMux    : Bool
  srtp       : Bool
  eventEn    : Bool
  eventPt    : Nat
  quota      : Nat
  deriving DecidableEq, Repr

/-- A media packet on its way to Steep (R118): RTP fields, payload, arrival on the channel's time base, the UDP payload
as received (for a source symbol, R145), its buffers, and whether it starts a new stream (R103). `notice`: no packet, word alone that the
stream has restarted. -/
structure MediaPkt where
  ch       : Nat
  seq      : Nat
  ts       : Nat
  ssrc     : Nat
  marker   : Bool
  pt       : Nat
  payload  : List Byte
  udp      : List Byte
  arrival  : Nat
  buffers  : Nat
  restart  : Bool := false
  notice   : Bool := false
  deriving DecidableEq, Repr

/-- A packet of a repair flow on its way to Weld (R92, R144). -/
structure RepairIn where
  ch      : Nat
  payload : List Byte
  buffers : Nat
  deriving DecidableEq, Repr

/-- An immediate task handed to Mordant (R92, R100). -/
structure ImmTask where
  ch       : Nat
  flowKind : Nat
  pt       : Nat
  marker   : Bool
  ts       : Nat
  payload  : List Byte
  buffers  : Nat
  deriving DecidableEq, Repr

/-- Ingress state: tables, the packet-buffer book (R110: classes 0 MEDIA, 1 IMM, 2 EXC, 3 EGR), frames admitted to each exception queue
in the 1 ms window of TB0 and the number of that window, and the queues to Steep and to Mordant. -/
structure Ingress where
  lat       : Tbl LatEntry := []
  flows     : Tbl FlowEntry := []
  stash     : Tbl FlowEntry := []
  eccSlots  : List Nat := []
  held      : Tbl Nat := []
  excCount  : Tbl Nat := []
  excWindow : Nat := 0
  steepIn   : List MediaPkt := []
  weldIn    : List RepairIn := []
  immIn     : List ImmTask := []
  immHold   : List ImmTask := []
  deriving DecidableEq, Repr

/-! ### Channels -/

/-- The states of a channel (R32). -/
inductive ChanState where
  | free
  | open
  | bound
  | closing
  deriving DecidableEq, Repr

/-- Group 2, RX_CODEC (Table 17.1). -/
structure RxCodec where
  codec  : Nat := 0
  period : Nat := 2
  pt     : Nat := 0
  cnPt   : Nat := 13
  format : Bool := false
  alts   : List Nat := []
  deriving DecidableEq, Repr

/-- Group 3, TX_CODEC (Table 17.1). -/
structure TxCodec where
  codec     : Nat := 0
  period    : Nat := 2
  pt        : Nat := 0
  dtx       : Bool := false
  cmrFollow : Bool := true
  format    : Bool := false
  mcp2      : Bool := false
  mcn       : Bool := false
  txMode    : Nat := 0
  evsBw     : Nat := 0
  sidMax    : Nat := 0
  opusRate  : Nat := 6
  opusBw    : Nat := 0
  modeSet   : Word32 := 0xFFFFFFFF
  deriving DecidableEq, Repr

/-- Group 4, FLOWS (Table 17.1). -/
structure FlowSet where
  ethPort    : Nat := 0
  vid        : Nat := 0
  keyType    : Nat := 0
  rtcp       : Nat := 0
  eventEn    : Bool := false
  eventPt    : Nat := 0
  quota      : Nat := 16
  localPort  : Nat := 0
  remotePort : Nat := 0
  localAddr  : BitVec 128 := 0
  remoteAddr : BitVec 128 := 0
  deriving DecidableEq, Repr

/-- Group 5 or 11, a template (R107). -/
structure Template where
  length  : Nat := 14
  ipOff   : Nat := 14
  udpOff  : Nat := 34
  rtpOff  : Nat := 42
  egress  : Nat := 0
  bytes   : List Byte := []
  deriving DecidableEq, Repr

/-- Group 6, JITTER, with the defaults of Table 5.3 (0.1 ms, s, 0.25 ms). -/
structure JitterSet where
  depth      : Nat := 400
  adaptStart : Nat := 600
  adaptMin   : Nat := 200
  adaptMax   : Nat := 2000
  margin     : Nat := 100
  window     : Nat := 4
  phaseSpan  : Nat := 20
  forceAfter : Nat := 10
  adaptive   : Bool := true
  deriving DecidableEq, Repr

/-- Group 7, ECHO, with the defaults of Table 7.2 (0.5 ms, -dBm0, 0.5 dB). -/
structure EchoSet where
  ecOn      : Bool := true
  fixed     : Bool := false
  freeze    : Bool := false
  nlpMode   : Nat := 1
  disabler  : Nat := 1
  ecVbd     : Bool := false
  tailMax   : Nat := 512
  initDelay : Nat := 0
  lead      : Nat := 8
  win0Fix   : Nat := 0
  win1Fix   : Nat := 0
  win1Off   : Bool := true
  cngMax    : Nat := 40
  dtMargin  : Nat := 6
  deriving DecidableEq, Repr

/-- Group 8, TONE, with the defaults of Table 10.4. -/
structure ToneSet where
  detMask   : Byte := 0x61
  notify    : Byte := 0
  dtmfMin   : Nat := 36
  twistFwd  : Nat := 8
  twistRev  : Nat := 16
  ctFreq    : Bool := false
  clamp     : Bool := true
  evtTxPt   : Nat := 0
  evtTxMask : Nat := 1
  evtRxAct  : Nat := 1
  cpMask    : Word32 := 0
  deriving DecidableEq, Repr

/-- Group 9, GLAZE, with the defaults of Table 9.2. -/
structure GlazeSet where
  setEc      : Nat := 0xFF
  setTx      : Nat := 0xFF
  rank       : Nat := 0
  rankThresh : Nat := 0
  deriving DecidableEq, Repr

/-- Group 10, FEC, with the defaults of Table 6.2 (FF_E in bytes). -/
structure FecSet where
  rxFec      : Nat := 0
  txFec      : Nat := 0
  redGens    : Nat := 1
  redPt      : Nat := 99
  ffK        : Nat := 8
  ffR        : Nat := 2
  ffE        : Nat := 256
  ffN1       : Nat := 3
  maxPasses  : Nat := 64
  timeout    : Nat := 200
  seed       : Nat := 1
  repairPort : Nat := 0
  deriving DecidableEq, Repr

/-- Group 13, FAX, with the defaults of Table 11.2. -/
structure FaxSet where
  mode       : Nat := 0
  autoPt     : Bool := false
  returnIdle : Nat := 10
  detLevel   : Nat := 43
  captureDb  : Nat := 12
  txLevel    : Nat := 20
  version    : Nat := 0
  rateMgmt   : Bool := false
  errRec     : Bool := false
  maxRate    : Nat := 5
  redCtl     : Nat := 4
  redImg     : Nat := 1
  fecSpan    : Nat := 3
  fecEntries : Nat := 1
  dataPeriod : Nat := 1
  reorder    : Nat := 20
  textTx     : Nat := 0
  textRed    : Nat := 2
  port       : Nat := 0
  maxDgram   : Nat := 400
  textPt     : Nat := 100
  deriving DecidableEq, Repr

/-- One master key of a channel (group 12, Table 4.3): suite, MKI length and value, key, salt. -/
structure SrtpKey where
  suite  : Nat
  mkiLen : Nat
  mki    : Nat
  key    : BitVec 256
  salt   : BitVec 112
  deriving DecidableEq, Repr

/-- A replay window (R102): highest authenticated index and the bits of the 128 indices up to it (bit 0 the
highest). -/
structure ReplayWin where
  top  : Nat := 0
  bits : BitVec 128 := 0
  used : Bool := false
  deriving DecidableEq, Repr

/-- Receive SRTP of a channel (R101-R104); `ssrc`: that of the stream whose window it holds. -/
structure SrtpRx where
  ssrc      : Option Word32 := none
  current   : Option SrtpKey := none
  pendingKey : Option SrtpKey := none
  previous  : Option SrtpKey := none
  discardAt : Nat := 0
  switchIdx : Nat := 0
  keyGen    : Byte := 0
  rekey     : Bool := false
  roc       : Nat := 0
  win       : ReplayWin := {}
  rtcpWin   : ReplayWin := {}
  deriving DecidableEq, Repr

/-- Transmit SRTP of a channel (R105). -/
structure SrtpTx where
  current   : Option SrtpKey := none
  pendingKey : Option SrtpKey := none
  atSeq     : Option Nat := none
  keyGen    : Byte := 0
  rekey     : Bool := false
  roc       : Nat := 0
  deriving DecidableEq, Repr

/-- A stored packet of a jitter ring slot (R116); `red`: it was read as RFC 2198 when it was stored (R141, R153). -/
structure RingSlot where
  seq     : Nat
  ts      : Nat
  marker  : Bool
  pt      : Nat
  payload : List Byte
  arrival : Nat
  red     : Bool := false
  deriving DecidableEq, Repr

/-- What the last released task of a channel was (Table 5.2). -/
inductive TaskKind where
  | frame
  | gap
  | conceal
  | recovered
  | immediate
  deriving DecidableEq, Repr

/-- Steep state of a channel (R116-R136). Times are ns on the channel's time base; `playSeq` is the extended
sequence number; `recvBits` and `dupBits` bit k stands for PLAY_SEQ - 1 - k; `transits` are (arrival, transit) of the window's packets,
`driftHist` (arrival, tmin) about once a second over the last 60 s (R132).
`tickCount` numbers the released ticks. RTP timestamps are extended: `lastTs` is the last packet's (0: to be unwrapped afresh), `playTs` PLAY_TS. `period` is the
PERIOD code of the tick grid in force. -/
structure Steep where
  slotSize   : Nat := 128
  ring       : Tbl RingSlot := []
  anchored   : Bool := false
  everAnchored : Bool := false
  playSeq    : Nat := 0
  extTop     : Nat := 0
  playTs     : Nat := 0
  recvBits   : BitVec 512 := 0
  dupBits    : BitVec 512 := 0
  jumpPkt    : Option MediaPkt := none
  phase      : Nat := 0
  nextTick   : Nat := 0
  tickCount  : Nat := 0
  offsetP    : Int := 0
  target     : Nat := 0
  transits   : List (Nat × Int) := []
  firstSeenAt : Option Nat := none
  jitterEst  : Nat := 0
  lastTransit : Option Int := none
  lastTask   : TaskKind := .gap
  lastSid    : Bool := false
  inactive   : Bool := false
  outSince   : Option Nat := none
  rephase    : Bool := false
  offered    : Option (Nat × Nat × Nat) := none
  moving     : Option Nat := none
  driftAt    : Option Nat := none
  driftHist  : List (Nat × Int) := []
  lastTs     : Nat := 0
  period     : Nat := 2
  forceDue   : Bool := false
  sharePoint : Nat := 0
  shares     : List Byte := []
  deriving DecidableEq, Repr

/-- One open block of a block store (R146, R153): the settings in force when it opened, its number of source packets, symbols received or solved by ESI, the first
ESI's sequence number where a source symbol has shown it, the solved ones, and whether a job has run. -/
structure FecBlock where
  sbn     : Nat
  par     : FecSet := {}
  k       : Nat
  symbols : Tbl (List Byte) := []
  firstSeq : Option Nat := none
  solved  : List Nat := []
  jobs    : Nat := 0
  deriving DecidableEq, Repr

/-- Weld state of a channel (R146-R153): open blocks (newest first), the recovery store by sequence number, the parameters in force and
those that wait for a new SBN or block, the repair template in force, bytes of block store reserved, and the transmit block with the
launch time of its last packet. -/
structure Weld where
  blocks    : List FecBlock := []
  store     : Tbl (List Byte × Nat) := []
  rxNext    : Option FecSet := none
  txNext    : Option FecSet := none
  rxFf      : FecSet := {}
  txFf      : FecSet := {}
  txRepair  : Option Template := none
  reserved  : Nat := 0
  txLaunch  : Option (TbId × Word64) := none
  txSbn     : Word16 := 0
  txBlock   : List (List Byte) := []
  txFirstAt : Nat := 0
  lastFrames : List (Nat × Nat × List Byte) := []
  deriving DecidableEq, Repr

/-- A run of samples, oldest first, and the time at which the newest ends (on its producer's time base). -/
structure Track where
  samples : List Word16 := []
  ending  : Option Nat := none
  deriving DecidableEq, Repr

/-- What the detector of the tone disabler follows on one signal (R177): the onset of the 2100 Hz tone, its last phase reversal, and ms of
an interruption. -/
structure AnsTrack where
  since   : Option Nat := none
  lastRev : Option Nat := none
  gap     : Nat := 0
  deriving DecidableEq, Repr

/-- Echo-canceller state of a channel (R156-R179). Window starts in units of 0.5 ms; coefficients by window, nearest tap first (none
listed: zero). Times are on the channel's time base. `rin`: the reference, on the time base of the peer's jobs, and `rinDiff` what that
time base lacks of the channel's; `sin`: the received signal for the searcher, which has both since `woadFrom`. `blocks`: energy of Sin,
residual and Rin, and samples, of the last 100 ms of blocks that count for ERLE, newest first; `erleHigh`, `erleLow`: samples in a row at
which ERLE stood at 20 dB or more, or below 10 dB. `soutBlocks`: energy and samples of the last 100 ms of Sout. `fade`: samples of the
NLP's cross-fade; `background`: power by band. `sets`: settings with RESET that wait for the end of the running job; `ecNew`: settings
have come since the last job started. -/
structure Echo where
  coef0      : List Word32 := []
  coef1      : List Word32 := []
  rin        : Track := {}
  rinDiff    : Option Int := none
  sin        : Track := {}
  woadFrom   : Nat := 0
  blocks     : List (Nat × Nat × Nat × Nat) := []
  erleHigh   : Nat := 0
  erleLow    : Nat := 0
  soutBlocks : List (Nat × Nat) := []
  fade       : Nat := 0
  background : List Nat := []
  ansSin     : AnsTrack := {}
  ansRin     : AnsTrack := {}
  sets       : List (EchoSet × Bool) := []
  ecNew      : Bool := false
  win0       : Nat := 0
  win0Active : Bool := true
  win1       : Nat := 0
  win1Active : Bool := false
  lastP1     : Option Nat := none
  lastP2     : Option Nat := none
  p1Corr     : Nat := 0
  p2Corr     : Nat := 0
  confirmed  : Option (Nat × Option Nat × Nat) := none
  placeGen   : Nat := 0
  placed     : Bool := false
  converged  : Bool := false
  erle       : Nat := 0
  erl        : Option Int := none
  rinLevel   : Int := -999
  soutLevel  : Int := -999
  holdUntil  : Option Nat := none
  doubleTalk : Bool := false
  dtUntil    : Nat := 0
  nlp        : Bool := false
  nlpUntil   : Nat := 0
  rinActive  : Bool := false
  disabled   : Bool := false
  quietSince : Option Nat := none
  nextSearch : Nat := 0
  quadrant   : Option Nat := none
  deriving DecidableEq, Repr

/-- One TONE_GEN entry (Table 10.5). -/
structure ToneEntry where
  code     : Nat
  level    : Nat
  on       : Nat
  off      : Nat
  repeats  : Nat
  mix      : Bool
  stopCode : Nat
  stopEdge : Bool
  append   : Bool
  deriving DecidableEq, Repr

/-- An RFC 4733 event received on a channel (R239): duration in RTP units, whether it has ended, when its
regeneration or relay began and the ms of it regenerated (R240). -/
structure RxEvent where
  code     : Nat
  ts       : Nat
  duration : Nat
  volume   : Nat
  lastAt   : Nat
  onset    : Nat := 0
  ended    : Bool := false
  startedAt : Option Nat := none
  played   : Nat := 0
  deriving DecidableEq, Repr

/-- An event sent on a channel (R236): the timestamp of its present segment, duration, how often the end packet is still
to be sent, and whether its start packet has gone. -/
structure TxEvent where
  code     : Nat
  ts       : Nat
  duration : Nat
  volume   : Nat
  endsLeft : Nat := 0
  started  : Bool := false
  deriving DecidableEq, Repr

/-- A signal declared in a channel's received audio: onset on the channel's time base, measured duration in ms, ns to the
end of its last whole block, volume; the end of the block it was last looked at in. -/
structure DeclSig where
  code   : Nat
  onset  : Int
  durMs  : Nat
  whole  : Nat
  volume : Nat
  seen   : Int := 0
  deriving DecidableEq, Repr

/-- A generated entry that is ended before its cadence is (R241, R243): its direction, the ms of it generated, and the end of the block in
which it stops, where that lies in the job that ends it; else it ends with its off ramp as the next job starts. -/
structure ToneCut where
  dir   : Nat
  entry : ToneEntry
  pos   : Nat
  till  : Option Int
  deriving DecidableEq, Repr

/-- Tone state of a channel (R225-R245): the TONE word, declared signals, the event received and those waiting to be played
(oldest first, the first perhaps running), the event sent and those whose end packet is repeated, the generation queues of
direction 0 and 1 with the ms generated of the first entry, and the signals of its own generation to be ignored (code,
level, until), and the spans in which R238 replaces the audio (code, from, until once the signal has ended; ns on the channel's time
base). -/
structure Tone where
  lastEvent   : Nat := 0
  lastIsRx    : Bool := false
  eventActive : Bool := false
  eventCount  : Word16 := 0
  eventEpoch  : Word32 := 0
  eventFresh  : Bool := false
  declared    : List DeclSig := []
  rxEvent     : Option RxEvent := none
  lastEndedTs : Option Nat := none
  regenQ      : List RxEvent := []
  regenPause  : Nat := 0
  txEvent     : Option TxEvent := none
  txEnding    : List TxEvent := []
  gen0        : List ToneEntry := []
  gen1        : List ToneEntry := []
  pos0        : Nat := 0
  pos1        : Nat := 0
  echoed      : List (Nat × Int × Nat) := []
  clamps      : List (Nat × Int × Option Int) := []
  cuts        : List ToneCut := []
  deriving DecidableEq, Repr

/-- A reception of Saffron (R252): phase 1 detection counting, 2 preamble, 3 synced, 4 qualified; detecting blocks counted,
when it was detected, the reference level, rising blocks in a row, whether the rise under way is counted, its receiver, low
blocks in a row. -/
structure Reception where
  phase     : Nat := 1
  count     : Nat := 0
  detected  : Nat := 0
  reference : Int := 0
  rises     : Nat := 0
  rising    : Bool := false
  receiver  : Nat := 0
  lows      : Nat := 0
  deriving DecidableEq, Repr

/-- Voiceband data state of a channel (R247-R266). `relay`: it is the relay leg; `saved`: its settings before mode 2 or 3.
The receive side of Saffron stands in the audio leg, the transmit side, UDPTL and text in the relay leg. `ifpQ` and
`ifpSeen` are keyed by extended sequence number. `armed`, `txArmed` with their rates: the high-speed modulation that a DCS has selected
for reception and for transmission; `tcfRx`, `tcfTx`: TCF is to follow it (R262); `imageOut`, `imageMs`: image data not sent yet and the ms
since the last was (R260); `pageAsk`: a command that ends a page went to the network (1) or to the fax (2) and has no MCF yet (R264);
`rising`, `falling`: the next job begins with the rise, or the fall, of a transmission (R257); `figures`, `txFigures`: Baudot is in its
figures case; `fast`: at 50 baud; `txCodes`: the codes that the last job's modulator sent (R266). -/
structure Vbd where
  state      : Nat := 0
  relay      : Bool := false
  modulation : Nat := 0
  pages      : Nat := 0
  lastDecl   : Nat := 0
  rx         : Reception := {}
  armed      : Nat := 0
  armedRate  : Nat := 0
  txArmed    : Nat := 0
  txRate     : Nat := 0
  tcfRx      : Bool := false
  tcfTx      : Bool := false
  imageOut   : List Byte := []
  imageMs    : Nat := 0
  pageAsk    : Nat := 0
  rising     : Bool := false
  falling    : Bool := false
  lastLevel  : Int := 0
  lastAfc    : Int := 0
  lastAgc    : Int := 0
  saved      : Option (RxCodec × TxCodec × FlowSet × JitterSet) := none
  nextRx     : Nat := 0
  gapSince   : Option Nat := none
  ifpQ       : Tbl (List Byte) := []
  ifpSeen    : Tbl (List Byte) := []
  toModem    : List Ifp := []
  txSeq      : Word16 := 0
  sentIfps   : List (List Byte) := []
  transmitting : Bool := false
  txLastData : Nat := 0
  silentUntil : Nat := 0
  txWaiting  : Bool := false
  textOut    : List Byte := []
  textFirst  : Option Nat := none
  textBlocks : List (Nat × List Byte) := []
  textIn     : List (List Byte) := []
  textSeq    : Option Nat := none
  textMod    : Nat := 5
  fast       : Bool := false
  figures    : Bool := false
  txFigures  : Bool := false
  txCodes    : List Nat := []
  markUntil  : Option Nat := none
  deriving DecidableEq, Repr

/-- Glaze lane state of one conversion of a channel (R215): what its 288 bytes hold. -/
structure LaneState where
  hist      : List Word16 := []
  rankHist  : List Word16 := []
  nextIndex : Word32 := 0
  rates     : Nat := 0
  fadePos   : Nat := 0
  swapSeen  : Nat := 0
  unsettledLeft : Nat := 0
  valid     : Bool := false
  deriving DecidableEq, Repr

/-- A frame that a job released at OUTEND for a channel's egress (R187, R189, R236, R275): its bytes, payload type and
the ns of audio it stands for; `sent = false` for a frame that is not sent (R192); `launch` on the time base of the job,
where it follows another packet of its job; `codec` and `need`, the codec and the ns of a packet, as the job's settings had them
(R37); `pcm`: the audio it encodes, at the canceller rate of its job, and `high` the
band above 8 kHz beside it (R157); `sid`: a SID or comfort-noise packet; `eventTs` and `mark` for an event or text packet; `raw`: a UDP payload that is no RTP packet (R260). -/
structure OutFrame where
  payload : List Byte
  pcm     : List Word16 := []
  high    : List Word16 := []
  sid     : Bool := false
  pt      : Nat
  span    : Nat
  sent    : Bool := true
  tb      : Nat := 0
  codec   : Nat := 1
  need    : Nat := 0
  launch  : Option Nat := none
  eventTs : Option Nat := none
  mark    : Bool := false
  raw     : Bool := false
  deriving DecidableEq, Repr

/-- Silence suppression of the encoder toward a channel (R192): silence has begun; ms of hangover left; codec frames and ms since the last
SID or comfort-noise packet; the level in it; the last 100 ms of the encoder's input. -/
structure Dtx where
  silent : Bool := false
  hang   : Nat := 0
  frames : Nat := 0
  since  : Nat := 0
  level  : Int := 0
  input  : List Word16 := []
  deriving DecidableEq, Repr

/-- Egress state of a channel (R108, R151, R152, R192): what its template's packets carry next. `rtpTs` is the timestamp of the last packet, and
`elapsed` the ns of audio since then (R200). -/
structure Egress where
  dtx      : Dtx := {}
  elapsed  : Nat := 0
  outQ     : List OutFrame := []
  nextSeq  : Word16 := 0
  rtpTs    : Word32 := 0
  ssrc     : Word32 := 0
  ipId     : Word16 := 0
  markNext : Bool := true
  deriving DecidableEq, Repr

/-- The twelve counters of Table 2.4. -/
structure Counters where
  rxPackets    : Nat := 0
  rxOctets     : Nat := 0
  txPackets    : Nat := 0
  txOctets     : Nat := 0
  played       : Nat := 0
  missing      : Nat := 0
  recovered    : Nat := 0
  concealed    : Nat := 0
  late         : Nat := 0
  duplicates   : Nat := 0
  srtpFailures : Nat := 0
  skipped      : Nat := 0
  deriving DecidableEq, Repr

/-- Figures of STATS_READ that no other field holds (Table 17.6). -/
structure Stats where
  ptRejected : Nat := 0
  rtpInvalid : Nat := 0
  drift      : Int := 0
  redRecovered : Nat := 0
  ffRecovered : Nat := 0
  ffLate     : Nat := 0
  blkDirect  : Nat := 0
  blkFull    : Nat := 0
  blkPart    : Nat := 0
  blkNone    : Nat := 0
  maxPasses  : Nat := 0
  searches   : Nat := 0
  confirms   : Nat := 0
  slides     : Nat := 0
  resets     : Nat := 0
  dtMs       : Nat := 0
  nlpMs      : Nat := 0
  disabledMs : Nat := 0
  trips      : Nat := 0
  rinSlips   : Nat := 0
  evtUnsupported : Nat := 0
  glzUnsettled : Nat := 0
  deriving DecidableEq, Repr

/-- Figures of the RFC 3611 blocks over an interval (R137): transit variation in RTP units (least, greatest, sum, sum of squares, packets),
frames absent at their ticks, late, dropped under R126 and R130, played, duplicates; the run of good frames and the losses of the burst
under way, the transition counts of RFC 3611 (11, 13, 14, 22, 23, 33), and the greatest CURRENT. -/
structure Xr where
  tvMin   : Nat := 0
  tvMax   : Nat := 0
  tvSum   : Nat := 0
  tvSq    : Nat := 0
  tvCount : Nat := 0
  absent  : Nat := 0
  late    : Nat := 0
  dropped : Nat := 0
  played  : Nat := 0
  dups    : Nat := 0
  good    : Nat := 0
  lost    : Nat := 0
  c11     : Nat := 0
  c13     : Nat := 0
  c14     : Nat := 0
  c22     : Nat := 0
  c23     : Nat := 0
  c33     : Nat := 0
  jbMax   : Nat := 0
  deriving DecidableEq, Repr

/-- The figures of STATS_READ as a publication fixed them (R432): words of the block by the number of their first, and whether word 48 holds
a P1. -/
structure Figures where
  words : List (Nat × List Nat) := []
  p1    : Bool := false
  deriving DecidableEq, Repr

/-- Publication state of a channel (R37, R42-R44): key, when the last publication ended, whether one is held back, the
job it will carry, the last CMD_TAG applied, whether it becomes FREE at its next publication (R36), and whether a command has
been applied since the running job was dispatched (`newer`), and the figures of its newest record. -/
structure Pub where
  gen       : Word16 := 0
  epoch     : BitVec 40 := 0
  lastEnd   : Option Nat := none
  due       : Bool := false
  jobTick   : Option Nat := none
  placement : Word64 := 0x00000000000000FF
  applied   : Word32 := 0
  adopted   : Bool := false
  closing   : Bool := false
  newer     : Bool := false
  lastState : Nat := 0
  lastPeer  : Nat := 0
  figures   : Figures := {}
  deriving DecidableEq, Repr

/-- Context of a channel's running kernel state: committed words by offset, words STS has written since the last commit
live in the engine; the Glaze lane states by their stream address (R215, R221); the modes last decoded and encoded; comfort noise; ms of concealment in a row (R195); the request carried to the peer (R199); slip
accumulators (R378). -/
structure Ctx where
  words     : Tbl Word32 := []
  rxMode    : Nat := 0
  rxBitrate : Nat := 0
  txMode    : Nat := 0
  txBitrate : Nat := 0
  inCng     : Bool := false
  rxDtx     : Bool := false
  txInCng   : Bool := false
  encMode   : Nat := 0
  encBw     : Nat := 0
  cmrWait   : Option (Nat × Nat) := none
  cmrFresh  : Option (Nat × Nat) := none
  cmrDone   : Bool := false
  hiddenMs  : Nat := 0
  lanes     : Tbl LaneState := []
  lost      : Bool := false
  slipAcc   : Int := 0
  lastDiff  : Option Int := none
  jobs      : Nat := 0
  deriving DecidableEq, Repr

/-- The settings a job was dispatched with (R37): those of its channel, and the codecs of the channel it sends on; and, once a command has
changed them while it runs, its DTX flag, its SRTP word and the voiceband states of both legs as they stood before. -/
structure JobSet where
  st       : ChanState
  peer     : Nat
  hostTag  : Word16
  rx       : RxCodec
  tx       : TxCodec
  adaptive : Bool
  ecs      : EchoSet
  tns      : ToneSet
  gls      : GlazeSet
  fec      : FecSet
  fax      : FaxSet
  applied  : Word32
  peerRx   : RxCodec
  peerTx   : TxCodec
  ssrc     : Word32 := 0
  encMode  : Nat := 0
  cpt      : Tbl Nat := []
  rxDtx    : Option Bool := none
  srtp     : Option Word64 := none
  vbd      : Option (Vbd × Vbd) := none
  deriving DecidableEq, Repr

/-- A channel: its state, settings by group, and everything its context holds; `job` from a job's dispatch to its OUTEND; `xr` the XR
figures of the interval under way, `xrLast` those of the last one and `xrBlocks` the blocks its report carried. -/
structure Chan where
  st       : ChanState := .free
  peer     : Nat := 0
  hostTag  : Word16 := 0
  tb       : Nat := 0
  xrEn     : Bool := false
  ext      : Nat := 0
  origin   : Nat := 0
  rx       : RxCodec := {}
  tx       : TxCodec := {}
  flows    : FlowSet := {}
  tmpl     : Template := {}
  repair   : Option Template := none
  jit      : JitterSet := {}
  ecs      : EchoSet := {}
  tns      : ToneSet := {}
  gls      : GlazeSet := {}
  fec      : FecSet := {}
  fax      : FaxSet := {}
  srx      : SrtpRx := {}
  stx      : SrtpTx := {}
  steep    : Steep := {}
  weld     : Weld := {}
  echo     : Echo := {}
  tone     : Tone := {}
  vbd      : Vbd := {}
  egr      : Egress := {}
  ctr      : Counters := {}
  stats    : Stats := {}
  xr       : Xr := {}
  xrLast   : Xr := {}
  xrBlocks : List Byte := []
  pub      : Pub := {}
  ctx      : Ctx := {}
  home     : Option Nat := none
  ingressHeld : Nat := 0
  rtcpLost : Word32 := 0
  rtt      : Word16 := 0xFFFF
  rxSsrc   : Word32 := 0
  jobsRunning : Nat := 0
  job      : Option JobSet := none
  deriving DecidableEq, Repr

/-- A published call record (Table 2.2), word by word; the trailer copies the key. -/
structure CallRec where
  hdr        : Word64 := 0
  ident      : Word64 := 0
  tickTime   : Word64 := 0
  placement  : Word64 := 0
  rxCodec    : Word64 := 0
  txCodec    : Word64 := 0
  jitter     : Word64 := 0
  rxStream   : Word64 := 0
  txStream   : Word64 := 0
  counters   : List Word64 := []
  echoState  : Word64 := 0
  echoLevels : Word64 := 0
  tone       : Word64 := 0
  vbd        : Word64 := 0
  srtp       : Word64 := 0
  fec        : Word64 := 0
  rtcpPeer   : Word64 := 0
  applied    : Word64 := 0
  trailer    : Word64 := 0
  deriving DecidableEq, Repr

/-! ### Units of media processing -/

/-- A task (R309, R313). `cls`: 0 immediate, 1 Saffron, 2 media, 3 extension. `deadline`, `acceptedAt` in device
time; `tick` on the channel's time base: the playout tick, or the moment of acceptance of an immediate task; `refused`:
Mordant has refused it in this round of offers. -/
structure Task where
  ch         : Nat
  kind       : TaskKind
  cls        : Nat
  deadline   : Nat
  acceptedAt : Nat
  tick       : Nat
  tickNo     : Nat := 0
  payload    : List Byte := []
  pt         : Nat := 0
  marker     : Bool := false
  flowKind   : Nat := 0
  ts         : Nat := 0
  buffers    : Nat := 0
  refused    : Bool := false
  deriving DecidableEq, Repr

/-- A skein key (R188): KERNEL_ID, encoder MODE, receive PERIOD, time base. -/
structure SkeinKey where
  kernel : Nat
  mode   : Nat
  period : Nat
  tb     : Nat
  deriving DecidableEq, Repr

/-- A skein (R316): number, key, class, tasks by lane, when opened and closed. From the dispatch queue on, `mask` names the
lanes whose job has neither ended nor been cancelled, `cancels` the cancels recorded while it runs (R298), `fill` the lanes
it was dispatched with. -/
structure Skein where
  num      : Nat
  key      : SkeinKey
  cls      : Nat
  tasks    : List Task
  openedAt : Nat
  closedAt : Nat := 0
  mask     : Word16 := 0
  cancels  : Word16 := 0
  fill     : Nat := 0
  deriving DecidableEq, Repr

/-- Mordant's state of one engine (R313-R319): ready list, dispatch queue, what runs, tasks that wait for the END of
their channel's job, idleness, retirement. `service`: 0 in service, 1 retiring, 2 retired, 3 self-test, 4 down; `rehomed`:
channels that its retirement rehomed; `warmTest`: its self-test is that of a WARM reset (R479). -/
structure MorEngine where
  forming   : List Skein := []
  due       : List Skein := []
  dq        : List Skein := []
  running   : Option Skein := none
  suspended : Option Skein := none
  waiting   : List Task := []
  idleSince : Option Nat := some 0
  service   : Nat := 0
  faultTimes : List Nat := []
  selfTestAt : Nat := 0
  byRollout : Bool := false
  retireQ   : Option (Nat × Nat) := none
  restoreQ  : Option (Nat × Nat) := none
  rehomed   : Nat := 0
  warmTest  : Bool := false
  deriving DecidableEq, Repr

/-- What is in transit between two ready lists (R313): `kind` 0 tasks of a forming skein, 1 a due skein, 2 tasks that wait
for an END; the engine that sent it, whose slots it leaves when it arrives. -/
structure Transit where
  src   : Nat := 0
  dest  : Nat
  kind  : Nat
  skein : Skein
  deriving DecidableEq, Repr

/-- Mordant: engines, the collecting engine of each group (key, phase position, engine; R311), what is in transit,
evacuation windows (close times), the next skein number, decisions counted for the trace and traced, MOR_BUSY at the last
second, and the tasks of Steep's release queue (R133). -/
structure Mordant where
  engines  : Tbl MorEngine := []
  groups   : List (SkeinKey × Nat × Nat) := []
  transit  : List Transit := []
  evacEnd  : List Nat := []
  nextNum  : Nat := 0
  decisions : Nat := 0
  traced   : Nat := 0
  busyMark : Nat := 0
  relQ     : List Task := []
  deriving DecidableEq, Repr

/-- A Weld decode job (R147, R148): its block, and once it runs the source symbols it solves and its passes. -/
structure DecodeJob where
  ch     : Nat
  sbn    : Nat
  solved : List (Nat × List Byte) := []
  all    : List (Nat × List Byte) := []
  passes : Nat := 0
  deriving DecidableEq, Repr

/-- The device's Weld units (R28): waiting jobs and what each unit runs. -/
structure WeldUnits where
  queue   : List DecodeJob := []
  running : Tbl DecodeJob := []
  deriving DecidableEq, Repr

/-- A coefficient set (R218): N, L, M, SHIFT and the coefficients as 16-bit words. -/
structure CoefSet where
  n     : Nat := 0
  l     : Nat := 0
  m     : Nat := 0
  shift : Nat := 0
  coef  : List Word16 := []
  deriving DecidableEq, Repr

/-- A descriptor queued or running in a Glaze unit (R209, Table 9.3), with the number of its skein; from its start, the state of each lane (R215), the bank in force, the number of swap
points so far, and the fade length while FADING (R219). -/
structure GlzJob where
  engine  : Nat
  skein   : Nat
  addr    : Nat
  started : Bool := false
  lanes   : Tbl LaneState := []
  bank    : Nat := 0
  swaps   : Nat := 0
  fade    : Option Nat := none
  deriving DecidableEq, Repr

/-- Glaze: the two banks (key: bank x 64 + set), per-cluster queues, when FADING clears, the held request
(TARGET, XFADE), the fade in force, and the swap points so far. -/
structure Glaze where
  sets     : Tbl CoefSet := []
  queues   : Tbl (List GlzJob) := []
  fadeEnd  : Option Nat := none
  heldReq  : Option (Nat × Nat) := none
  xfade    : Nat := 0
  swaps    : Nat := 0
  deriving DecidableEq, Repr

/-! ### Engines -/

/-- Where a result of an operation goes when its latency ends (R280). -/
inductive Dest where
  | v (lane reg : Nat)
  | a (lane reg : Nat)
  | p (lane reg : Nat)
  | m (lane reg : Nat)
  | k (lane reg : Nat)
  | s (reg : Nat)
  | ml (reg : Nat)
  | ctl (index : Nat)
  deriving DecidableEq, Repr

/-- A pending write: it is delivered to bundles issued `due` or later; `slot` settles writes of the same cycle (R282); `mac`:
a result that a MAC on the same accumulator receives one bundle later (Table 12.5). -/
structure PendWrite where
  due   : Nat
  slot  : Nat
  dest  : Dest
  value : Nat
  mac   : Bool := false
  deriving DecidableEq, Repr

/-- What an engine counts for its warden to collect (R308): bundles, stalled cycles, skeins ended, lanes with GOV set, faults,
jobs ended at BUDGET, errors corrected. -/
structure EngCount where
  bundles : Nat := 0
  stalls  : Nat := 0
  skeins  : Nat := 0
  gov     : Nat := 0
  faults  : Nat := 0
  budget  : Nat := 0
  ecc     : Nat := 0
  deriving DecidableEq, Repr

/-- A stream (R273): open on the task region (`ctx = false`) or on the lanes' contexts; byte offset, length, entries
popped, entries fetched, write cursor. -/
structure Stream where
  ctx     : Bool := false
  opened  : Bool := false
  off     : Nat := 0
  len     : Nat := 0
  popped  : Nat := 0
  fetched : Nat := 0
  cursor  : Nat := 0
  deriving DecidableEq, Repr

/-- One engine (Tables 12.1, 12.2, 12.7). Per-lane registers are keyed lane x 64 + register (V), lane x 4 (A),
lane x 16 (P, M); K1 to K7 and IK1 to IK7 are lane masks by number; XMEM and YMEM are words by word index. `issued` counts
bundles; `delay` delay slots still to come and `target` where they lead; `macHold`: the vector slots of the next bundle must
leave the MAC units alone (R289); `sts` words not committed (lane, offset, word); `glzLanes` lane states not committed, by lane, and unsettled samples by lane; `outW` words of the open frame by lane,
`outUsed` bytes of the slot used, `frames` closed ones; `stalled`: an LDS waits for its entry; `captured`: the body in the loop
buffer; `pmemBad`: PMEM or the loop buffer held an error that SECDED could not correct, and a reload is due (R303). -/
structure Engine where
  v       : Tbl Word32 := []
  a       : Tbl (BitVec 40) := []
  p       : Tbl Word32 := []
  m       : Tbl Word32 := []
  ml      : Tbl (BitVec 18) := []
  k       : Tbl Word16 := []
  s       : Tbl Word32 := []
  pc      : BitVec 13 := 0
  live    : Word16 := 0
  gov     : Word16 := 0
  outDone : Bool := false
  frac    : Bool := false
  ovf     : Bool := false
  lc0     : Word16 := 0
  ls0     : BitVec 13 := 0
  le0     : BitVec 13 := 0
  rot0    : Bool := false
  lc1     : Word16 := 0
  ls1     : BitVec 13 := 0
  le1     : BitVec 13 := 0
  rot1    : Bool := false
  rb      : BitVec 5 := 0
  ipc     : BitVec 13 := 0
  gie     : Bool := true
  ien     : BitVec 3 := 0
  cause   : Nat := 0
  fault   : Nat := 0
  cyc     : Nat := 0
  budget  : Nat := 0
  ik      : Tbl Word16 := []
  pmem    : Tbl (BitVec 128) := []
  pmemBad : Bool := false
  xmem    : Tbl Word32 := []
  ymem    : Tbl Word32 := []
  issued  : Nat := 0
  writes  : List PendWrite := []
  delay   : Nat := 0
  target  : Option (BitVec 13) := none
  reti    : Bool := false
  macHold : Bool := false
  stream  : Stream := {}
  fifo    : List (List Word32) := []
  sts     : List (Nat × Nat × Word32) := []
  outW    : Tbl (List Word32) := []
  outUsed : Tbl Nat := []
  frames  : Tbl (List (List Byte)) := []
  glzBusy : Bool := false
  glzLanes : Tbl (Tbl LaneState) := []
  glzUnsettled : Tbl Nat := []
  afterYield : Bool := false
  irqFault : Bool := false
  irqSwitch : Bool := false
  irqGlz  : Bool := false
  stalled : Bool := false
  captured : Option (BitVec 13 × BitVec 13) := none
  count   : EngCount := {}
  deriving DecidableEq, Repr

/-! ### Memory -/

/-- A request waiting in a controller (R348). -/
structure QueuedReq where
  req     : MemReq
  urgency : Nat := 0
  entered : Nat := 0
  deriving DecidableEq, Repr

/-- A bank (R351, R352): the open row, the last four accesses, the activate-count table (row, count) and the activates of this window. -/
structure Bank where
  openRow  : Option Nat := none
  hist     : BitVec 4 := 0
  idleAt   : Nat := 0
  counts   : List (Nat × Nat) := []
  total    : Nat := 0
  deriving DecidableEq, Repr

/-- The migration of a fence (R357, R358): private frames still to copy, the page within the first, when its copy began, the
frame it goes to (memory channel, frame), and the writes held. -/
structure Migration where
  frames : List Nat := []
  page   : Nat := 0
  pageAt : Nat := 0
  target : Option (Nat × Nat) := none
  held   : List MemReq := []
  deriving DecidableEq, Repr

/-- One memory controller and its channel (R332-R363): capacity in GB, the SPD bytes of the DIMM in each slot, requests that hold a credit, the write queue, banks by
number (64 of each rank), the last 64 commands issued, error times, DIMM slots with halved refresh interval, when each rank was
refreshed last, lane settings and new centres that wait for a refresh (lane 16 x rank + byte lane), the last retraining pass and
the last clear of the activate counts. `hold`: 0 running, 1 entering self-refresh, 2 in self-refresh. -/
structure Mc where
  gb        : Nat := 0
  spd       : List (Option (List Byte)) := []
  reads     : List QueuedReq := []
  writes    : List QueuedReq := []
  banks     : Tbl Bank := []
  retry     : List MemReq := []
  ceTimes   : List Nat := []
  ueTimes   : List Nat := []
  caTimes   : List Nat := []
  refresh2  : List Nat := []
  refreshAt : Tbl Nat := []
  centres   : Tbl Nat := []
  newCentres : List (Nat × Nat) := []
  passAt    : Nat := 0
  clearAt   : Nat := 0
  migration : Option Migration := none
  training  : Bool := false
  hold      : Nat := 0
  lastReqAt : Nat := 0
  deriving DecidableEq, Repr

/-- A private frame (R339): its memory channel and frame there, what it holds (0 channel contexts, 2 a replay buffer or capture
ring) and of which source (a channel, or 65,536 + port). -/
structure PFrame where
  mc    : Nat
  frame : Nat
  kind  : Nat := 0
  owner : Nat := 0
  deriving DecidableEq, Repr

/-- Memory: controllers, the lower channels of the mirror pairs (R338), the frame map by private frame (R339), the channel whose
turn it is, the host-shared partition's bytes, and by cluster the 64-byte lines of channel contexts that its context cache holds,
oldest first (R13; a line is channel x 1,024 + its number in the 64 KiB context). -/
structure MemSt where
  mcs      : Tbl Mc := []
  pairs    : List Nat := []
  frameMap : Tbl (Option PFrame) := []
  nextAlloc : Nat := 0
  hostShared : List Host.Cell := []
  caches     : Tbl (List Nat) := []
  poisoned   : List Nat := []
  deriving DecidableEq, Repr

/-! ### Host interface -/

/-- Device state of a command queue (R405-R410) beside its registers: doorbell values, PHASE of the next completion,
entries reserved in the CQ, commands taken and not yet completed, completions not yet signalled. -/
structure HostQ where
  tail     : Nat := 0
  head     : Nat := 0
  phase    : Bool := true
  reserved : Nat := 0
  outstanding : Nat := 0
  unsignalled : Nat := 0
  oldestAt : Nat := 0
  deriving DecidableEq, Repr

/-- Device state of an exception queue or of the notification queue (R411, R412). -/
structure RingQ where
  head  : Nat := 0
  tail  : Nat := 0
  phase : Bool := true
  seq   : Nat := 0
  deriving DecidableEq, Repr

/-- A CXL.cache request of a unit (R395, R396): what it serves (0 SNAPSHOT, 1 export, 2 STATS_READ, 3 image read,
4 Lake state), the command's queue and tag, host address, bytes written, and whether it is the last
of its command, with the command's RESULT words. -/
structure CacheReq where
  serves : Nat
  qid    : Nat
  tag    : Nat
  addr   : Nat
  write  : Bool
  last   : Bool
  res2   : Nat := 0
  res3   : Nat := 0
  data   : List Byte := []
  deriving DecidableEq, Repr

/-- A CXL credit pool (R414): its total as advertised, and where its credits stand. -/
structure CreditPool where
  free    : Nat := 0
  held    : Nat := 0
  transit : Nat := 0
  total   : Nat := 0
  deriving DecidableEq, Repr

/-- The mailbox's last answer: return code, FSTATUS, output. -/
structure MbxReply where
  code    : Nat := 0
  fstatus : Nat := 0
  output  : List Byte := []
  deriving DecidableEq, Repr

/-- The CXL host interface (R388-R415): link, decoder, snoop filter (oldest first), back-invalidates awaited, CXL.cache
requests outstanding and waiting, queues, credit pools, MSI-X vectors raised and those pending behind their mask, the mailbox
reply, the last read answer. -/
structure HostIf where
  linkUp     : Bool := false
  linkWidth  : Nat := 0
  linkRate   : Nat := 0
  hdmSize    : Nat := 0
  hdmCommitted : Bool := false
  hdmError   : Bool := false
  memActive  : Bool := false
  snoop      : List Nat := []
  bisnp      : List Nat := []
  cacheOut   : List CacheReq := []
  cacheWait  : List CacheReq := []
  snoopAnswer : Bool := false
  queues     : Tbl HostQ := []
  xq         : Tbl RingQ := []
  nq         : RingQ := {}
  pools      : Tbl CreditPool := []
  msix       : List Nat := []
  msixPend   : List Nat := []
  reply      : MbxReply := {}
  readData   : Nat := 0
  readPoison : Bool := false
  spdmSession : Bool := false
  spdmReply  : List Byte := []
  bgStatus   : Nat := 0
  deriving DecidableEq, Repr

/-! ### Capture -/

/-- One captured item: time, direction, task kind or original length, rate, kept bytes. -/
structure CapRec where
  seq  : Nat := 0
  time : Nat
  dir  : Nat
  kind : Nat
  rate : Nat
  orig : Nat
  data : List Byte
  deriving DecidableEq, Repr

/-- A capture filter (Table 18.1). -/
structure CapFilter where
  dir    : Nat
  side   : Bool
  prefixLen : Nat
  portLo : Nat
  portHi : Nat
  vid    : Nat
  vidEn  : Bool
  addr   : BitVec 128
  deriving DecidableEq, Repr

/-- The stream state of a capture (R445, R447). -/
structure LakeState where
  window   : List Byte := []
  table    : List Byte := []
  lastTime : Nat := 0
  exported : Nat := 0
  deriving DecidableEq, Repr

/-- A running capture: capacity in bytes, records oldest first, SNAPLEN and filters (a port) or REPLAY_S (a channel),
its stream state, whether an export of it has succeeded, the frozen span (record numbers from and to), the failed export that may be
retried, whether it ends with the export under way, whether one is queued or runs, and the record after the last one exported. -/
structure Capture where
  capacity : Nat
  snaplen  : Nat := 0
  filters  : List CapFilter := []
  records  : List CapRec := []
  nextSeq  : Nat := 0
  lake     : LakeState := {}
  chained  : Bool := false
  frozen   : Option (Nat × Nat) := none
  retryUntil : Nat := 0
  retrySpan : Option (Nat × Nat) := none
  stopping : Bool := false
  exporting : Bool := false
  contAt   : Nat := 0
  deriving DecidableEq, Repr

/-- An export job (R441, R443). `source`: channel, or 65,536 + port. -/
structure LakeJob where
  source : Nat
  qid    : Nat
  tag    : Nat
  level  : Nat
  wrap   : Nat
  cont   : Bool
  addr   : Nat
  length : Nat
  spanLo : Nat
  spanHi : Nat
  deriving DecidableEq, Repr

/-- Capture and Lake: running captures by source, the job queue, what each unit runs, and the port rate budget. -/
structure CapSt where
  caps    : Tbl Capture := []
  queue   : List LakeJob := []
  running : Tbl LakeJob := []
  rateUs  : Nat := 0
  rateBytes : Nat := 0
  deriving DecidableEq, Repr

/-! ### Ring -/

/-- What a member sends on the ring (Table 19.3, R463-R465): a CONTROL operation, a mirrored body with the time it was made, or a CONTROL
frame it relays. -/
inductive RingMsg where
  | identity (i : IdentityMsg)
  | pairOffer (first count : Nat) (token : Word32) (pub : List Byte)
  | pairConfirm (status : Nat) (token : Word32) (pub : List Byte)
  | fenceQuery (token : Word32)
  | fenceAnswer (status : Nat) (token : Word32)
  | fenceDemand (token : Word32)
  | hold (maxS : Nat)
  | resumeQuery (token : Word32)
  | resumeAnswer (adopted : Bool) (token : Word32)
  | ctxRequest (ch : Nat) (token : Word32)
  | settings (b : SettingsBody)
  | delta (b : DeltaBody) (madeAt : Nat)
  | sync (b : DeltaBody) (madeAt : Nat)
  | relay (src hops len : Nat)
  deriving DecidableEq, Repr

/-- A sequenced frame in a replay buffer (R456): SEQ, credit units, DATA or CTL, DST_POS, and on the last fragment of a body what
it carries. -/
structure RingTx where
  seq   : Word16
  units : Nat
  data  : Bool
  dst   : Nat
  msg   : Option RingMsg := none
  deriving DecidableEq, Repr

/-- Link-layer state of a ring port (R456, R457): last SEQ accepted in order, last SEQ sent, the replay buffer, when its
oldest frame was replayed, credits available, units freed in all (as returned in headers) and those freed but not yet returned,
the peer's freed counts as last seen, CONTROL messages that wait for credits, the body being sent (its destination, message and bytes
left), a NAK to be sent, retraining, block lock held for 100 ms, the neighbour's identity, and the last HEARTBEAT sent. -/
structure RingLink where
  rxAck     : Word16 := 0
  txSeq     : Word16 := 0
  unacked   : List RingTx := []
  replays   : List Nat := []
  dataAvail : Nat := 512
  ctlAvail  : Nat := 16
  dataFreed : BitVec 12 := 0
  ctlFreed  : Byte := 0
  dataDue   : Nat := 0
  ctlDue    : Nat := 0
  peerData  : BitVec 12 := 0
  peerCtl   : Byte := 0
  waiting   : List (Nat × RingMsg) := []
  sending   : Option (Nat × RingMsg × Nat) := none
  sendNak   : Bool := false
  retraining : Bool := false
  tapLock   : Bool := false
  ident     : Option IdentityMsg := none
  heartbeat : Option HeartbeatMsg := none
  deriving DecidableEq, Repr

/-- A channel's entry of the mirror store (R461-R466): its SETTINGS and its sections, and whether its flows could be installed. -/
structure Mirror where
  settings   : Option SettingsBody := none
  delta      : Option DeltaBody := none
  adoptable  : Bool := true
  deriving DecidableEq, Repr

/-- A home channel's mirror progress (R462, R463, R466): queued DELTA and when it was made, SYNC wanted, SYNC acknowledged, when the
newest acknowledged DELTA was made, settings that wait for their acknowledgement since. -/
structure HomeMirror where
  queued   : Option DeltaBody := none
  queuedAt : Nat := 0
  syncWant : Bool := false
  synced   : Bool := false
  ackedAt  : Option Nat := none
  settingsAt : Option Nat := none
  deriving DecidableEq, Repr

/-- The ring (R450-R472): ports, heartbeats, when the upstream member was last heard, what a FENCE_DEMAND waits for (since when, its
token, the command), the token of the last FENCE_QUERY, HOLD, the pairing offer made (since when, token, command, ranges before it) and the one held (range, token,
public key, since when), mirrors, home progress, when the next SYNC may start,
when stale channels were last counted, liveness and its last refresh, self-fence, a RESUME_QUERY unanswered, announcements to
repeat, and when insertion began. -/
structure RingSt where
  links     : Tbl RingLink := []
  token     : Word32 := 0
  hbCount   : Word32 := 0
  hbNextAt  : Nat := 0
  upSeenAt  : Nat := 0
  demandAt  : Option Nat := none
  demandTok : Word32 := 0
  demandCmd : Option (Nat × Nat) := none
  queryTok  : Word32 := 0
  holdUntil : Option Nat := none
  holdSent  : Bool := false
  offerAt   : Option Nat := none
  offerTok  : Word32 := 0
  offerCmd  : Option (Nat × Nat) := none
  offerOld  : Nat × Nat × Nat × Nat := (0, 0, 0, 0)
  heldOffer : Option (Nat × Nat × Word32 × List Byte × Nat) := none
  mirror    : Tbl Mirror := []
  home      : Tbl HomeMirror := []
  syncNextAt : Nat := 0
  lagAt     : Nat := 0
  live      : Bool := false
  liveAt    : Nat := 0
  fenced    : Bool := false
  resumeWait : Bool := false
  adoptedCount : Nat := 0
  announceAt : List Nat := []
  insertAt  : Option Nat := none
  deriving DecidableEq, Repr

/-! ### Images -/

/-- A checked image (Tables 20.4, 20.5): what the checks read of it. Kernels are (KERNEL_ID, EPOCH, REGION); accepts
are (KID_LO, KID_HI, EPOCH_MIN, EPOCH_MAX). -/
structure Image where
  kind    : Nat
  release : Nat
  svn     : Nat
  length  : Nat
  keyId   : Nat
  stepMin : Nat
  stepMax : Nat
  ifLo    : Nat
  ifHi    : Nat
  accepts : List (Nat × Nat × Nat × Nat) := []
  kernels : List (Nat × Nat × Nat) := []
  descs   : List (Nat × List Nat) := []
  raw     : List Byte := []
  signed  : List Byte := []
  extSigned : List Byte := []
  body    : List Byte := []
  deriving DecidableEq, Repr

/-- Boot, image and update state (R401-R403, R483-R489). -/
structure ImgSt where
  loadBuf    : Tbl Byte := []
  verifyLen  : Nat := 0
  running    : Option Image := none
  previous   : Option Image := none
  target     : Option Image := none
  pack       : Option Image := none
  basePack   : Option Image := none
  stagedSup  : Option Image := none
  stagedPack : Option Image := none
  activSup   : Option (Nat × Nat) := none
  activPack  : Option (Nat × Nat) := none
  rolloutNext : Nat := 0
  rolloutEng : List Nat := []
  supRestartAt : Nat := 0
  fellBack   : Bool := false
  warmHold   : Bool := false
  memNoFit   : Bool := false
  eraseAt    : Option Nat := none
  deriving DecidableEq, Repr

/-! ### Power -/

/-- Power and pins (R509-R520, R530): the hold of a brown-out, whether THERMTRIP_L and SYS_ALERT_L are low, by sensor when
THERMAL_WARN may be raised again, domains other than engine domains that are off, the lost REFCLK_SYS and REFCLK_ETH, the milliseconds of each
temperature band short of a minute, whether the test access port answers, and when each domain was last switched off. -/
structure PwrSt where
  brownHold : Bool := false
  thermtrip : Bool := false
  sysAlert  : Bool := false
  warnAt    : Tbl Nat := []
  domainsOff : List Nat := []
  sysLost   : Bool := false
  ethLost   : Bool := false
  bandMs    : Tbl Nat := []
  testPort  : Bool := false
  offAt     : Tbl (Option Nat) := []
  deriving DecidableEq, Repr

/-! ### Outcomes -/

/-- Why a step may stop with a fault. No command of this block stops the machine with a fault: errors are status, counters, completions and events. -/
inductive Fault where
  /-- Raised by nobody; safe. -/
  | none
  deriving DecidableEq, Repr

/-- Why a step may be refused. -/
inductive Refusal where
  /-- Raised by an arm of `exec` whose command has no meaning in the model; safe. -/
  | notModelled (mnemonic : String)
  deriving DecidableEq, Repr

/-! ### The state -/

/-- The machine. `pending`: commands that wait, first in, first out. `now`: TCLK cycles (1 ns) since the model's
reset. `freeCtr`: the model's own counter of free values. `saved`: the registers of an engine's suspended skein (R302). `regs`: register fields of BAR0 that do not hold their reset
value. -/
structure State where
  pending  : List Instr := []
  now      : Nat := 0
  freeCtr  : Nat := 0
  regs     : Tbl Nat := []
  sup      : Sup := {}
  time     : TimeSt := {}
  ports    : Tbl Port := []
  ing      : Ingress := {}
  chans    : Tbl Chan := []
  slots    : Tbl CallRec := []
  mor      : Mordant := {}
  engines  : Tbl Engine := []
  saved    : Tbl Engine := []
  weldU    : WeldUnits := {}
  glaze    : Glaze := {}
  mem      : MemSt := {}
  host     : HostIf := {}
  cap      : CapSt := {}
  ring     : RingSt := {}
  img      : ImgSt := {}
  pwr      : PwrSt := {}
  deriving DecidableEq, Repr

/-- The machine right after reset: every register field at its reset value, every store empty, channels FREE, ring
bypassed, boot state ROM_INIT, no command waiting. -/
def State.reset : State := {}

end Sys2Proof.Machine
end

