-- ==== Sys2Proof/Machine/Table.lean ====
section
/-! DEFINITION. Sparse tables in canonical form: keys strictly rising, and no entry that equals what an unlisted key
reads as. Every store of the state that is keyed by a number is one of these. -/

namespace Sys2Proof.Machine

/-- The value at key `k`, `d` where the table lists none. -/
def tget {α : Type} : Tbl α → Nat → α → α
  | [], _, d => d
  | (k', v) :: r, k, d => if k' = k then v else tget r k d

/-- The table without key `k`. -/
def terase {α : Type} : Tbl α → Nat → Tbl α
  | [], _ => []
  | (k', v) :: r, k => if k' = k then terase r k else (k', v) :: terase r k

/-- The table with `v` listed at key `k`. -/
def tins {α : Type} : Tbl α → Nat → α → Tbl α
  | [], k, v => [(k, v)]
  | (k', v') :: r, k, v =>
    if k < k' then (k, v) :: (k', v') :: r
    else if k' = k then (k, v) :: r
    else (k', v') :: tins r k v

/-- Write `v` at key `k` of a table whose unlisted keys read as `d`. -/
def tset {α : Type} [DecidableEq α] (t : Tbl α) (k : Nat) (v d : α) : Tbl α :=
  if v = d then terase t k else tins t k v

/-- Apply `f` to the value at key `k`. -/
def tmod {α : Type} [DecidableEq α] (t : Tbl α) (k : Nat) (d : α) (f : α → α) : Tbl α :=
  tset t k (f (tget t k d)) d

/-- Every key of the table is at least `lo` and below all later keys. -/
def sortedFrom {α : Type} : Nat → Tbl α → Bool
  | _, [] => true
  | lo, (k, _) :: r => decide (lo ≤ k) && sortedFrom (k + 1) r

/-- The keys rise strictly. -/
def sorted {α : Type} (t : Tbl α) : Bool := sortedFrom 0 t

/-- The entries whose key passes. -/
def tkeep {α : Type} (t : Tbl α) (p : Nat → Bool) : Tbl α := t.filter (fun e => p e.1)

/-! ### Bytes of the host-shared partition -/

/-- What a byte of memory that nothing has written reads as. DESIGN CHOICE (log 3): 0. -/
def unwrittenByte : Byte := 0

/-- The byte at address `a`. -/
def mget (m : List Host.Cell) (a : Nat) : Byte := tget m a unwrittenByte

/-- Write one byte. -/
def mset (m : List Host.Cell) (a : Nat) (v : Byte) : List Host.Cell := tset m a v unwrittenByte

/-- Write bytes from address `a` upwards. -/
def msetList : List Host.Cell → Nat → List Byte → List Host.Cell
  | m, _, [] => m
  | m, a, b :: r => msetList (mset m a b) (a + 1) r

/-- Read `n` bytes from address `a` upwards. -/
def mgetList (m : List Host.Cell) (a n : Nat) : List Byte := (List.range n).map (fun i => mget m (a + i))

/-- No byte is listed that an unlisted address reads as, and addresses rise strictly. -/
def memWf (m : List Host.Cell) : Bool := sorted m && m.all (fun c => c.2 != unwrittenByte)

/-! ### Numbers and bytes -/

/-- Bits `hi` to `lo` of a number. -/
def bits (w lo n : Nat) : Nat := w / 2 ^ lo % 2 ^ n

/-- One bit of a number. -/
def bit (w i : Nat) : Bool := w / 2 ^ i % 2 == 1

/-- A Bool as a number. -/
def b2n (b : Bool) : Nat := if b then 1 else 0

/-- A word built of (value, least bit, width) parts. -/
def packWord (l : List (Nat × Nat × Nat)) : Word64 :=
  BitVec.ofNat 64 (l.foldl (fun a e => a + (e.1 % 2 ^ e.2.2) * 2 ^ e.2.1) 0)

/-- `n` bytes of a number, least significant first (R5). -/
def leBytes : Nat → Nat → List Byte
  | 0, _ => []
  | n + 1, v => BitVec.ofNat 8 v :: leBytes n (v / 256)

/-- The number of a list of bytes, least significant first (R5). -/
def leNat : List Byte → Nat
  | [] => 0
  | b :: r => b.toNat + 256 * leNat r

/-- The number of a list of bytes in network order. -/
def beNat (l : List Byte) : Nat := l.foldl (fun a b => a * 256 + b.toNat) 0

/-- `n` bytes of a number in network order. -/
def beBytes (n v : Nat) : List Byte := (leBytes n v).reverse

/-- A two's complement number of `n` bits. -/
def signed (n v : Nat) : Int := if v % 2 ^ n ≥ 2 ^ (n - 1) then (v % 2 ^ n : Nat) - (2 ^ n : Nat) else (v % 2 ^ n : Nat)

/-- An integer as an unsigned number of `n` bits, wrapping. -/
def wrapInt (n : Nat) (v : Int) : Nat := (v % (2 ^ n : Nat)).toNat

/-- `v` held between `lo` and `hi`. -/
def clampInt (lo hi v : Int) : Int := max lo (min hi v)

end Sys2Proof.Machine
end

