-- ==== Sys2Proof/Machine/RegFile.lean ====
section
/-! DEFINITION. The register file of BAR0: what a register table says of a field (R7, R11), the key under which
`State.regs` holds it, and the operations that read and write one field. -/

namespace Sys2Proof.Machine

/-- Access types (R7, Table 0.4). -/
inductive Acc where
  | ro
  | rw
  | w1c
  | w1s
  | rc
  | wo
  deriving DecidableEq, Repr

/-- Reset kinds (R11). -/
inductive ResetKind where
  | cold
  | warm
  | flr
  | sup
  | engine
  | port
  | memch
  deriving DecidableEq, Repr

/-- The entries of the Kept over column. `none`: "-"; `all`: every kind except COLD; `c`: FLR, SUP, ENGINE, PORT,
MEMCH; `t`: `c` without PORT; `b`: FLR, ENGINE, PORT, MEMCH; `q`: SUP, ENGINE, PORT, MEMCH; `m`: WARM, FLR, SUP,
ENGINE, PORT. -/
inductive Kept where
  | none
  | all
  | c
  | t
  | b
  | q
  | m
  deriving DecidableEq, Repr

/-- The field keeps its value across the reset kind (R11). -/
def keeps : Kept → ResetKind → Bool
  | _, .cold => false
  | .none, _ => false
  | .all, _ => true
  | .c, k => k != .warm
  | .t, k => k != .warm && k != .port
  | .b, k => k != .warm && k != .sup
  | .q, k => k != .warm && k != .flr
  | .m, k => k != .memch

/-- A field of a register table: byte address in BAR0 of its 64-bit register, least bit, width, up to two array
dimensions (count and address step), access type, reset value (and its step along the first dimension), what keeps it,
and the range of values it accepts. -/
structure RegDesc where
  addr : Nat
  lo : Nat
  width : Nat
  n1 : Nat := 1
  s1 : Nat := 0
  n2 : Nat := 1
  s2 : Nat := 0
  acc : Acc
  rst : Nat := 0
  step : Nat := 0
  kept : Kept
  min : Nat := 0
  max : Nat := 0xFFFF_FFFF_FFFF_FFFF
  deriving DecidableEq, Repr

/-- The key of element (i, j) of a field. -/
def RegDesc.key (d : RegDesc) (i j : Nat) : Nat := (d.addr + i * d.s1 + j * d.s2) * 64 + d.lo

/-- The reset value of element i. -/
def RegDesc.reset (d : RegDesc) (i : Nat) : Nat := d.rst + d.step * i

/-- The stored value of a field. -/
def State.rd (s : State) (d : RegDesc) (i : Nat := 0) (j : Nat := 0) : Nat := tget s.regs (d.key i j) (d.reset i)

/-- The state with a field at `v`, cut to the field's width. -/
def State.wr (s : State) (d : RegDesc) (v : Nat) (i : Nat := 0) (j : Nat := 0) : State :=
  { s with regs := tset s.regs (d.key i j) (v % 2 ^ d.width) (d.reset i) }

/-- A one-bit field as a Bool. -/
def State.flag (s : State) (d : RegDesc) (i : Nat := 0) (j : Nat := 0) : Bool := s.rd d i j != 0

/-- Add `n` to a counter, wrapping at its width. -/
def State.bumpBy (s : State) (d : RegDesc) (n : Nat) (i : Nat := 0) (j : Nat := 0) : State :=
  s.wr d (s.rd d i j + n) i j

/-- Count one event. -/
def State.bump (s : State) (d : RegDesc) (i : Nat := 0) (j : Nat := 0) : State := s.bumpBy d 1 i j

/-- Raise a high-water mark to `v`. -/
def State.highWater (s : State) (d : RegDesc) (v : Nat) (i : Nat := 0) (j : Nat := 0) : State :=
  s.wr d (max v (s.rd d i j)) i j

end Sys2Proof.Machine
end

