-- ==== Sys2Proof/Machine/RegMap.lean ====
section
/-! DEFINITION. The register tables of the chapters, one definition per field, with the address of the field in BAR0
(block base of Table 16.2 plus the offset the chapter's table gives), its bits, arrays, access type, reset value, Kept
over entry and range. -/

namespace Sys2Proof.Machine

/-! ### ETH_ (03_network_ports.md, R84) -/

def ethMode : RegDesc := { addr := 0x30000, lo := 0, width := 3, n1 := 4, s1 := 0x2000, acc := .rw, kept := .c, min := 0, max := 5 }
def ethPauseRxEn : RegDesc := { addr := 0x30000, lo := 4, width := 1, n1 := 4, s1 := 0x2000, acc := .rw, rst := 1, kept := .c }
def ethGu12Compat : RegDesc := { addr := 0x30000, lo := 5, width := 1, n1 := 4, s1 := 0x2000, acc := .rw, kept := .c }
def ethTxEn : RegDesc := { addr := 0x30000, lo := 6, width := 1, n1 := 4, s1 := 0x2000, acc := .rw, kept := .c }
def ethRxEn : RegDesc := { addr := 0x30000, lo := 7, width := 1, n1 := 4, s1 := 0x2000, acc := .rw, kept := .c }
def ethMcastAccept : RegDesc := { addr := 0x30000, lo := 8, width := 1, n1 := 4, s1 := 0x2000, acc := .rw, rst := 1, kept := .c }
def ethRxPol : RegDesc := { addr := 0x30000, lo := 16, width := 4, n1 := 4, s1 := 0x2000, acc := .rw, kept := .c }
def ethTxPol : RegDesc := { addr := 0x30000, lo := 20, width := 4, n1 := 4, s1 := 0x2000, acc := .rw, kept := .c }
def ethMaxFrame : RegDesc := { addr := 0x30008, lo := 0, width := 14, n1 := 4, s1 := 0x2000, acc := .rw, rst := 1522, kept := .c, min := 1518, max := 9600 }
def ethMacAddr : RegDesc := { addr := 0x30010, lo := 0, width := 48, n1 := 4, s1 := 0x2000, acc := .rw, kept := .c }
def ethTxThreshold : RegDesc := { addr := 0x30018, lo := 0, width := 14, n1 := 4, s1 := 0x2000, acc := .rw, rst := 256, kept := .t }
def ethLinkUp : RegDesc := { addr := 0x30020, lo := 0, width := 1, n1 := 4, s1 := 0x2000, acc := .ro, kept := .none }
def ethFecLock : RegDesc := { addr := 0x30020, lo := 1, width := 1, n1 := 4, s1 := 0x2000, acc := .ro, kept := .none }
def ethAnFail : RegDesc := { addr := 0x30020, lo := 2, width := 1, n1 := 4, s1 := 0x2000, acc := .ro, kept := .none }
def ethPaused : RegDesc := { addr := 0x30020, lo := 3, width := 1, n1 := 4, s1 := 0x2000, acc := .ro, kept := .none }
def ethModPresent : RegDesc := { addr := 0x30020, lo := 4, width := 1, n1 := 4, s1 := 0x2000, acc := .ro, kept := .none }
def ethCfgErr : RegDesc := { addr := 0x30020, lo := 8, width := 1, n1 := 4, s1 := 0x2000, acc := .w1c, kept := .none }
def ethGateTb : RegDesc := { addr := 0x30028, lo := 0, width := 2, n1 := 4, s1 := 0x2000, acc := .rw, kept := .c }
def ethGateEn : RegDesc := { addr := 0x30028, lo := 2, width := 1, n1 := 4, s1 := 0x2000, acc := .rw, kept := .c }
def ethGateSwap : RegDesc := { addr := 0x30028, lo := 3, width := 1, n1 := 4, s1 := 0x2000, acc := .w1s, kept := .none }
def ethGateActiveBank : RegDesc := { addr := 0x30028, lo := 4, width := 1, n1 := 4, s1 := 0x2000, acc := .ro, kept := .c }
def ethGateBase : RegDesc := { addr := 0x30030, lo := 0, width := 64, n1 := 4, s1 := 0x2000, acc := .rw, kept := .c }
def ethGateCycle : RegDesc := { addr := 0x30038, lo := 0, width := 30, n1 := 4, s1 := 0x2000, n2 := 2, s2 := 0x10, acc := .rw, rst := 1000000, kept := .c, min := 1000, max := 1000000000 }
def ethGateLen : RegDesc := { addr := 0x30040, lo := 0, width := 9, n1 := 4, s1 := 0x2000, n2 := 2, s2 := 0x10, acc := .rw, rst := 1, kept := .c, min := 1, max := 256 }
def filtMaskLo : RegDesc := { addr := 0x30400, lo := 0, width := 64, n1 := 4, s1 := 0x2000, n2 := 32, s2 := 0x20, acc := .rw, kept := .c }
def filtMaskHi : RegDesc := { addr := 0x30408, lo := 0, width := 64, n1 := 4, s1 := 0x2000, n2 := 32, s2 := 0x20, acc := .rw, kept := .c }
def filtCrc : RegDesc := { addr := 0x30410, lo := 0, width := 16, n1 := 4, s1 := 0x2000, n2 := 32, s2 := 0x20, acc := .rw, kept := .c }
def filtAction : RegDesc := { addr := 0x30410, lo := 16, width := 2, n1 := 4, s1 := 0x2000, n2 := 32, s2 := 0x20, acc := .rw, kept := .c }
def filtSteerQ : RegDesc := { addr := 0x30410, lo := 24, width := 3, n1 := 4, s1 := 0x2000, n2 := 32, s2 := 0x20, acc := .rw, kept := .c }
def filtHits : RegDesc := { addr := 0x30418, lo := 0, width := 64, n1 := 4, s1 := 0x2000, n2 := 32, s2 := 0x20, acc := .ro, kept := .t }
def gclEntry0 : RegDesc := { addr := 0x31000, lo := 0, width := 40, n1 := 4, s1 := 0x2000, n2 := 256, s2 := 0x8, acc := .rw, kept := .c }
def gclEntry1 : RegDesc := { addr := 0x31800, lo := 0, width := 40, n1 := 4, s1 := 0x2000, n2 := 256, s2 := 0x8, acc := .rw, kept := .c }

/-- The fields of R84. -/
def mapEthR84 : List RegDesc :=
  [ethMode, ethPauseRxEn, ethGu12Compat, ethTxEn, ethRxEn, ethMcastAccept, ethRxPol, ethTxPol, ethMaxFrame, ethMacAddr, ethTxThreshold, ethLinkUp, ethFecLock, ethAnFail, ethPaused, ethModPresent, ethCfgErr, ethGateTb, ethGateEn, ethGateSwap] ++
  [ethGateActiveBank, ethGateBase, ethGateCycle, ethGateLen, filtMaskLo, filtMaskHi, filtCrc, filtAction, filtSteerQ, filtHits, gclEntry0, gclEntry1]

/-! ### ETH_ (03_network_ports.md, R85) -/

def rxFramesOk : RegDesc := { addr := 0x30100, lo := 0, width := 64, n1 := 4, s1 := 0x2000, acc := .ro, kept := .t }
def rxOctetsOk : RegDesc := { addr := 0x30108, lo := 0, width := 64, n1 := 4, s1 := 0x2000, acc := .ro, kept := .t }
def rxCodeErr : RegDesc := { addr := 0x30110, lo := 0, width := 64, n1 := 4, s1 := 0x2000, acc := .ro, kept := .t }
def rxRunt : RegDesc := { addr := 0x30118, lo := 0, width := 64, n1 := 4, s1 := 0x2000, acc := .ro, kept := .t }
def rxOversize : RegDesc := { addr := 0x30120, lo := 0, width := 64, n1 := 4, s1 := 0x2000, acc := .ro, kept := .t }
def rxFcsErr : RegDesc := { addr := 0x30128, lo := 0, width := 64, n1 := 4, s1 := 0x2000, acc := .ro, kept := .t }
def rxOverflow : RegDesc := { addr := 0x30130, lo := 0, width := 64, n1 := 4, s1 := 0x2000, acc := .ro, kept := .t }
def rxDaMiss : RegDesc := { addr := 0x30138, lo := 0, width := 64, n1 := 4, s1 := 0x2000, acc := .ro, kept := .t }
def rxVlanErr : RegDesc := { addr := 0x30140, lo := 0, width := 64, n1 := 4, s1 := 0x2000, acc := .ro, kept := .t }
def rxPause : RegDesc := { addr := 0x30148, lo := 0, width := 64, n1 := 4, s1 := 0x2000, acc := .ro, kept := .t }
def rxMacctlUnsup : RegDesc := { addr := 0x30150, lo := 0, width := 64, n1 := 4, s1 := 0x2000, acc := .ro, kept := .t }
def rxIp4Csum : RegDesc := { addr := 0x30158, lo := 0, width := 64, n1 := 4, s1 := 0x2000, acc := .ro, kept := .t }
def rxFrag : RegDesc := { addr := 0x30160, lo := 0, width := 64, n1 := 4, s1 := 0x2000, acc := .ro, kept := .t }
def rxUdpCsum : RegDesc := { addr := 0x30168, lo := 0, width := 64, n1 := 4, s1 := 0x2000, acc := .ro, kept := .t }
def rxUdp6Zero : RegDesc := { addr := 0x30170, lo := 0, width := 64, n1 := 4, s1 := 0x2000, acc := .ro, kept := .t }
def rxFilterDrop : RegDesc := { addr := 0x30178, lo := 0, width := 64, n1 := 4, s1 := 0x2000, acc := .ro, kept := .t }
def txFramesOk : RegDesc := { addr := 0x30180, lo := 0, width := 64, n1 := 4, s1 := 0x2000, acc := .ro, kept := .t }
def txOctetsOk : RegDesc := { addr := 0x30188, lo := 0, width := 64, n1 := 4, s1 := 0x2000, acc := .ro, kept := .t }
def txUnderrunCnt : RegDesc := { addr := 0x30190, lo := 0, width := 64, n1 := 4, s1 := 0x2000, acc := .ro, kept := .t }
def txOverlength : RegDesc := { addr := 0x30198, lo := 0, width := 64, n1 := 4, s1 := 0x2000, acc := .ro, kept := .t }
def txLate : RegDesc := { addr := 0x301A0, lo := 0, width := 64, n1 := 4, s1 := 0x2000, acc := .ro, kept := .t }
def txGateNever : RegDesc := { addr := 0x301A8, lo := 0, width := 64, n1 := 4, s1 := 0x2000, acc := .ro, kept := .t }
def txLinkDown : RegDesc := { addr := 0x301B0, lo := 0, width := 64, n1 := 4, s1 := 0x2000, acc := .ro, kept := .t }
def txTsLost : RegDesc := { addr := 0x301B8, lo := 0, width := 64, n1 := 4, s1 := 0x2000, acc := .ro, kept := .t }
def fecCorrected : RegDesc := { addr := 0x301C0, lo := 0, width := 64, n1 := 4, s1 := 0x2000, acc := .ro, kept := .t }
def fecUncorrectable : RegDesc := { addr := 0x301C8, lo := 0, width := 64, n1 := 4, s1 := 0x2000, acc := .ro, kept := .t }

/-- The fields of R85. -/
def mapEthR85 : List RegDesc :=
  [rxFramesOk, rxOctetsOk, rxCodeErr, rxRunt, rxOversize, rxFcsErr, rxOverflow, rxDaMiss, rxVlanErr, rxPause, rxMacctlUnsup, rxIp4Csum, rxFrag, rxUdpCsum, rxUdp6Zero, rxFilterDrop, txFramesOk, txOctetsOk, txUnderrunCnt, txOverlength] ++
  [txLate, txGateNever, txLinkDown, txTsLost, fecCorrected, fecUncorrectable]

/-! ### FLW_ (04_ingress_flows_srtp.md, R115) -/

def flwMarkQ : RegDesc := { addr := 0x40000, lo := 0, width := 3, acc := .rw, kept := .c }
def flwCfgErr : RegDesc := { addr := 0x40008, lo := 0, width := 1, acc := .w1c, kept := .none }
def flwSeed : RegDesc := { addr := 0x40010, lo := 0, width := 32, n1 := 4, s1 := 0x8, acc := .ro, kept := .all }
def flwOccTable : RegDesc := { addr := 0x40030, lo := 0, width := 18, acc := .ro, kept := .all }
def flwOccStash : RegDesc := { addr := 0x40030, lo := 32, width := 7, acc := .ro, kept := .all }
def flwLatOcc : RegDesc := { addr := 0x40038, lo := 0, width := 13, acc := .ro, kept := .all }
def flwPoolReserve0 : RegDesc := { addr := 0x40040, lo := 0, width := 18, acc := .rw, rst := 32768, kept := .c, min := 0, max := 131072 }
def flwPoolReserve1 : RegDesc := { addr := 0x40048, lo := 0, width := 18, acc := .rw, rst := 8192, kept := .c, min := 0, max := 131072 }
def flwPoolReserve2 : RegDesc := { addr := 0x40050, lo := 0, width := 18, acc := .rw, rst := 2048, kept := .c, min := 0, max := 131072 }
def flwPoolReserve3 : RegDesc := { addr := 0x40058, lo := 0, width := 18, acc := .rw, rst := 32768, kept := .c, min := 0, max := 131072 }
def flwPoolLimit0 : RegDesc := { addr := 0x40040, lo := 32, width := 18, acc := .rw, rst := 98304, kept := .c, min := 0, max := 131072 }
def flwPoolLimit1 : RegDesc := { addr := 0x40048, lo := 32, width := 18, acc := .rw, rst := 16384, kept := .c, min := 0, max := 131072 }
def flwPoolLimit2 : RegDesc := { addr := 0x40050, lo := 32, width := 18, acc := .rw, rst := 8192, kept := .c, min := 0, max := 131072 }
def flwPoolLimit3 : RegDesc := { addr := 0x40058, lo := 32, width := 18, acc := .rw, rst := 65536, kept := .c, min := 0, max := 131072 }
def flwPoolFree : RegDesc := { addr := 0x40060, lo := 0, width := 18, acc := .ro, rst := 131072, kept := .none }
def flwSnapReq : RegDesc := { addr := 0x40068, lo := 0, width := 1, acc := .w1s, kept := .none }
def flwSnapDone : RegDesc := { addr := 0x40068, lo := 1, width := 1, acc := .w1c, kept := .none }
def flwSnapSkipped : RegDesc := { addr := 0x40068, lo := 2, width := 1, acc := .w1c, kept := .none }
def flwSnapFree : RegDesc := { addr := 0x40070, lo := 0, width := 64, acc := .ro, kept := .none }
def flwSnapHeld : RegDesc := { addr := 0x40078, lo := 0, width := 64, n1 := 4, s1 := 0x8, acc := .ro, kept := .none }
def flwSnapTransit : RegDesc := { addr := 0x40098, lo := 0, width := 64, acc := .ro, kept := .none }
def flwSnapClassified : RegDesc := { addr := 0x400A0, lo := 0, width := 64, acc := .ro, kept := .none }
def flwExcAction0 : RegDesc := { addr := 0x400C0, lo := 0, width := 1, acc := .rw, kept := .c }
def flwExcAction1 : RegDesc := { addr := 0x400C8, lo := 0, width := 1, acc := .rw, kept := .c }
def flwExcAction2 : RegDesc := { addr := 0x400D0, lo := 0, width := 1, acc := .rw, rst := 1, kept := .c }
def flwExcAction3 : RegDesc := { addr := 0x400D8, lo := 0, width := 1, acc := .rw, kept := .c }
def flwExcQueue : RegDesc := { addr := 0x400C0, lo := 1, width := 3, n1 := 4, s1 := 0x8, acc := .rw, kept := .c }
def flwExcRate : RegDesc := { addr := 0x400E0, lo := 0, width := 20, n1 := 8, s1 := 0x8, acc := .rw, rst := 10000, kept := .c, min := 1, max := 1000000 }
def flwClassified : RegDesc := { addr := 0x40200, lo := 0, width := 64, acc := .ro, kept := .c }
def flwNoaddr : RegDesc := { addr := 0x40208, lo := 0, width := 64, acc := .ro, kept := .c }
def flwNoflow : RegDesc := { addr := 0x40210, lo := 0, width := 64, acc := .ro, kept := .c }
def flwNonudp : RegDesc := { addr := 0x40218, lo := 0, width := 64, acc := .ro, kept := .c }
def flwExcRateDrop : RegDesc := { addr := 0x40220, lo := 0, width := 64, acc := .ro, kept := .c }
def flwNobuf : RegDesc := { addr := 0x40228, lo := 0, width := 64, n1 := 3, s1 := 0x8, acc := .ro, kept := .c }
def flwQuotaDrop : RegDesc := { addr := 0x40240, lo := 0, width := 64, acc := .ro, kept := .c }
def flwEccMiss : RegDesc := { addr := 0x40248, lo := 0, width := 64, acc := .ro, kept := .c }
def flwSrtpAuthFail : RegDesc := { addr := 0x40250, lo := 0, width := 64, acc := .ro, kept := .c }
def flwSrtpReplay : RegDesc := { addr := 0x40258, lo := 0, width := 64, acc := .ro, kept := .c }
def flwStashInserts : RegDesc := { addr := 0x40260, lo := 0, width := 64, acc := .ro, kept := .c }
def flwInsertFail : RegDesc := { addr := 0x40268, lo := 0, width := 64, acc := .ro, kept := .c }
def flwRtpInvalid : RegDesc := { addr := 0x40270, lo := 0, width := 64, acc := .ro, kept := .c }

/-- The fields of R115. -/
def mapFlwR115 : List RegDesc :=
  [flwMarkQ, flwCfgErr, flwSeed, flwOccTable, flwOccStash, flwLatOcc, flwPoolReserve0, flwPoolReserve1, flwPoolReserve2, flwPoolReserve3, flwPoolLimit0, flwPoolLimit1, flwPoolLimit2, flwPoolLimit3, flwPoolFree, flwSnapReq, flwSnapDone, flwSnapSkipped, flwSnapFree, flwSnapHeld] ++
  [flwSnapTransit, flwSnapClassified, flwExcAction0, flwExcAction1, flwExcAction2, flwExcAction3, flwExcQueue, flwExcRate, flwClassified, flwNoaddr, flwNoflow, flwNonudp, flwExcRateDrop, flwNobuf, flwQuotaDrop, flwEccMiss, flwSrtpAuthFail, flwSrtpReplay, flwStashInserts, flwInsertFail] ++
  [flwRtpInvalid]

/-! ### STP_ (05_jitter_buffer.md, R138) -/

def stpXrGmin : RegDesc := { addr := 0x50000, lo := 0, width := 8, acc := .rw, rst := 16, kept := .c, min := 1, max := 255 }
def stpDriftLimit : RegDesc := { addr := 0x50000, lo := 16, width := 10, acc := .rw, rst := 500, kept := .c, min := 1, max := 1000 }
def stpCfgErr : RegDesc := { addr := 0x50008, lo := 0, width := 1, acc := .w1c, kept := .none }
def stpRelqDepth : RegDesc := { addr := 0x50010, lo := 0, width := 14, acc := .ro, kept := .none }
def stpRelqHwm : RegDesc := { addr := 0x50018, lo := 0, width := 14, acc := .rc, kept := .none }
def stpRingWrites : RegDesc := { addr := 0x50100, lo := 0, width := 64, acc := .ro, kept := .c }
def stpLate : RegDesc := { addr := 0x50108, lo := 0, width := 64, acc := .ro, kept := .c }
def stpJump : RegDesc := { addr := 0x50110, lo := 0, width := 64, acc := .ro, kept := .c }
def stpResync : RegDesc := { addr := 0x50118, lo := 0, width := 64, acc := .ro, kept := .c }
def stpMisaligned : RegDesc := { addr := 0x50120, lo := 0, width := 64, acc := .ro, kept := .c }
def stpOversize : RegDesc := { addr := 0x50128, lo := 0, width := 64, acc := .ro, kept := .c }
def stpGrow : RegDesc := { addr := 0x50130, lo := 0, width := 64, acc := .ro, kept := .c }
def stpShrink : RegDesc := { addr := 0x50138, lo := 0, width := 64, acc := .ro, kept := .c }
def stpForced : RegDesc := { addr := 0x50140, lo := 0, width := 64, acc := .ro, kept := .c }
def stpWeldOffered : RegDesc := { addr := 0x50148, lo := 0, width := 64, acc := .ro, kept := .c }
def stpAbandoned : RegDesc := { addr := 0x50150, lo := 0, width := 64, acc := .ro, kept := .c }
def stpMissedTick : RegDesc := { addr := 0x50158, lo := 0, width := 64, n1 := 4, s1 := 0x8, acc := .ro, kept := .c }

/-- The fields of R138. -/
def mapStpR138 : List RegDesc :=
  [stpXrGmin, stpDriftLimit, stpCfgErr, stpRelqDepth, stpRelqHwm, stpRingWrites, stpLate, stpJump, stpResync, stpMisaligned, stpOversize, stpGrow, stpShrink, stpForced, stpWeldOffered, stpAbandoned, stpMissedTick]

/-! ### WLD_ (06_packet_fec.md, R155) -/

def wldDecqDepth : RegDesc := { addr := 0x60010, lo := 0, width := 13, acc := .ro, kept := .none }
def wldDecqHwm : RegDesc := { addr := 0x60018, lo := 0, width := 13, acc := .rc, kept := .none }
def wldOffers : RegDesc := { addr := 0x60100, lo := 0, width := 64, acc := .ro, kept := .c }
def wldRedRecovered : RegDesc := { addr := 0x60108, lo := 0, width := 64, acc := .ro, kept := .c }
def wldFfRecovered : RegDesc := { addr := 0x60110, lo := 0, width := 64, acc := .ro, kept := .c }
def wldFfLate : RegDesc := { addr := 0x60118, lo := 0, width := 64, acc := .ro, kept := .c }
def wldRedMalformed : RegDesc := { addr := 0x60120, lo := 0, width := 64, acc := .ro, kept := .c }
def wldRedExcess : RegDesc := { addr := 0x60128, lo := 0, width := 64, acc := .ro, kept := .c }
def wldRedPtSkip : RegDesc := { addr := 0x60130, lo := 0, width := 64, acc := .ro, kept := .c }
def wldFfOversize : RegDesc := { addr := 0x60138, lo := 0, width := 64, acc := .ro, kept := .c }
def wldRepairStale : RegDesc := { addr := 0x60140, lo := 0, width := 64, acc := .ro, kept := .c }
def wldDecodeJobs : RegDesc := { addr := 0x60148, lo := 0, width := 64, acc := .ro, kept := .c }
def wldDecodeDrop : RegDesc := { addr := 0x60150, lo := 0, width := 64, acc := .ro, kept := .c }
def wldPasses : RegDesc := { addr := 0x60158, lo := 0, width := 64, acc := .ro, kept := .c }
def wldRepairSent : RegDesc := { addr := 0x60160, lo := 0, width := 64, acc := .ro, kept := .c }

/-- The fields of R155. -/
def mapWldR155 : List RegDesc :=
  [wldDecqDepth, wldDecqHwm, wldOffers, wldRedRecovered, wldFfRecovered, wldFfLate, wldRedMalformed, wldRedExcess, wldRedPtSkip, wldFfOversize, wldRepairStale, wldDecodeJobs, wldDecodeDrop, wldPasses, wldRepairSent]

/-! ### WOD_ (07_echo_cancellation.md, R183) -/

def wodThresh : RegDesc := { addr := 0x70000, lo := 0, width := 8, acc := .rw, rst := 77, kept := .c, min := 26, max := 230 }
def wodConfirmTol : RegDesc := { addr := 0x70000, lo := 8, width := 4, acc := .rw, rst := 2, kept := .c, min := 1, max := 8 }
def wodCfgErr : RegDesc := { addr := 0x70008, lo := 0, width := 1, acc := .w1c, kept := .none }
def wodLoad : RegDesc := { addr := 0x70100, lo := 0, width := 17, n1 := 4, s1 := 0x40, acc := .ro, kept := .none }
def wodSearches : RegDesc := { addr := 0x70108, lo := 0, width := 64, n1 := 4, s1 := 0x40, acc := .ro, kept := .c }
def wodNoEst : RegDesc := { addr := 0x70110, lo := 0, width := 64, n1 := 4, s1 := 0x40, acc := .ro, kept := .c }
def wodConfirmed : RegDesc := { addr := 0x70118, lo := 0, width := 64, n1 := 4, s1 := 0x40, acc := .ro, kept := .c }
def wodResets : RegDesc := { addr := 0x70120, lo := 0, width := 64, n1 := 4, s1 := 0x40, acc := .ro, kept := .c }
def wodStretch : RegDesc := { addr := 0x70128, lo := 0, width := 64, n1 := 4, s1 := 0x40, acc := .ro, kept := .c }
def wodDisablerTrips : RegDesc := { addr := 0x70130, lo := 0, width := 64, n1 := 4, s1 := 0x40, acc := .ro, kept := .c }

/-- The fields of R183. -/
def mapWodR183 : List RegDesc :=
  [wodThresh, wodConfirmTol, wodCfgErr, wodLoad, wodSearches, wodNoEst, wodConfirmed, wodResets, wodStretch, wodDisablerTrips]

/-! ### GLZ_ (09_filter_resampler.md, R224) -/

def glzActiveBank : RegDesc := { addr := 0x80000, lo := 0, width := 1, acc := .ro, kept := .c }
def glzFading : RegDesc := { addr := 0x80000, lo := 1, width := 1, acc := .ro, kept := .none }
def glzPending : RegDesc := { addr := 0x80000, lo := 2, width := 1, acc := .ro, kept := .none }
def glzSwap : RegDesc := { addr := 0x80000, lo := 4, width := 1, acc := .w1s, kept := .none }
def glzTarget : RegDesc := { addr := 0x80000, lo := 5, width := 1, acc := .rw, kept := .c }
def glzXfade : RegDesc := { addr := 0x80000, lo := 16, width := 9, acc := .rw, kept := .c, min := 0, max := 256 }
def glzCfgErr : RegDesc := { addr := 0x80008, lo := 0, width := 1, acc := .w1c, kept := .none }
def glzSwapDone : RegDesc := { addr := 0x80008, lo := 1, width := 1, acc := .w1c, kept := .none }
def glzSwaps : RegDesc := { addr := 0x80010, lo := 0, width := 64, acc := .ro, kept := .c }
def glzQdepth : RegDesc := { addr := 0x80100, lo := 0, width := 4, n1 := 12, s1 := 0x40, acc := .ro, kept := .none }
def glzDescriptors : RegDesc := { addr := 0x80108, lo := 0, width := 64, n1 := 12, s1 := 0x40, acc := .ro, kept := .c }
def glzLanes : RegDesc := { addr := 0x80110, lo := 0, width := 64, n1 := 12, s1 := 0x40, acc := .ro, kept := .c }
def glzResets : RegDesc := { addr := 0x80118, lo := 0, width := 64, n1 := 12, s1 := 0x40, acc := .ro, kept := .c }
def glzSetMismatch : RegDesc := { addr := 0x80120, lo := 0, width := 64, n1 := 12, s1 := 0x40, acc := .ro, kept := .c }
def glzDescErr : RegDesc := { addr := 0x80128, lo := 0, width := 64, n1 := 12, s1 := 0x40, acc := .ro, kept := .c }

/-- The fields of R224. -/
def mapGlzR224 : List RegDesc :=
  [glzActiveBank, glzFading, glzPending, glzSwap, glzTarget, glzXfade, glzCfgErr, glzSwapDone, glzSwaps, glzQdepth, glzDescriptors, glzLanes, glzResets, glzSetMismatch, glzDescErr]

/-! ### MOR_ (13_scheduler.md, R331) -/

def morWinMedia : RegDesc := { addr := 0xA0000, lo := 0, width := 8, acc := .rw, rst := 250, kept := .c, min := 0, max := 250 }
def morWinSaffron : RegDesc := { addr := 0xA0000, lo := 8, width := 8, acc := .rw, rst := 50, kept := .c, min := 0, max := 250 }
def morImmReserve : RegDesc := { addr := 0xA0000, lo := 16, width := 9, acc := .rw, rst := 64, kept := .c, min := 16, max := 256 }
def morAbort : RegDesc := { addr := 0xA0000, lo := 32, width := 5, acc := .rw, kept := .c, min := 0, max := 20 }
def morPromote : RegDesc := { addr := 0xA0000, lo := 40, width := 8, acc := .rw, rst := 50, kept := .c, min := 0, max := 140 }
def morStealNear : RegDesc := { addr := 0xA0008, lo := 0, width := 14, acc := .rw, rst := 500, kept := .c, min := 100, max := 10000 }
def morStealFar : RegDesc := { addr := 0xA0008, lo := 16, width := 14, acc := .rw, rst := 2000, kept := .c, min := 500, max := 16000 }
def morStealEn : RegDesc := { addr := 0xA0008, lo := 31, width := 1, acc := .rw, rst := 1, kept := .c }
def morCfgErr : RegDesc := { addr := 0xA0010, lo := 0, width := 1, acc := .w1c, kept := .none }
def morEvac : RegDesc := { addr := 0xA0010, lo := 1, width := 1, acc := .ro, kept := .none }
def morSnapReq : RegDesc := { addr := 0xA0018, lo := 0, width := 1, acc := .w1s, kept := .none }
def morSnapDone : RegDesc := { addr := 0xA0018, lo := 1, width := 1, acc := .w1c, kept := .none }
def morSnapSkipped : RegDesc := { addr := 0xA0018, lo := 2, width := 1, acc := .w1c, kept := .none }
def morTraceRate : RegDesc := { addr := 0xA0020, lo := 0, width := 5, acc := .rw, kept := .c, min := 0, max := 16 }
def morTraceKinds : RegDesc := { addr := 0xA0020, lo := 8, width := 8, acc := .rw, rst := 255, kept := .c }
def morTraceWptr : RegDesc := { addr := 0xA0028, lo := 0, width := 16, acc := .ro, kept := .c }
def morTraceBase : RegDesc := { addr := 0xA0030, lo := 0, width := 64, acc := .ro, kept := .all }
def morTraceWraps : RegDesc := { addr := 0xA0100, lo := 0, width := 64, acc := .ro, kept := .c }
def morImmRedirect : RegDesc := { addr := 0xA0108, lo := 0, width := 64, acc := .ro, kept := .c }
def morImmDrop : RegDesc := { addr := 0xA0110, lo := 0, width := 64, acc := .ro, kept := .c }
def morRefused : RegDesc := { addr := 0xA0118, lo := 0, width := 64, acc := .ro, kept := .c }
def morEvacuations : RegDesc := { addr := 0xA0120, lo := 0, width := 64, acc := .ro, kept := .c }
def morRehomed : RegDesc := { addr := 0xA0128, lo := 0, width := 64, acc := .ro, kept := .c }
def morQHeld : RegDesc := { addr := 0xA1000, lo := 0, width := 11, n1 := 96, s1 := 0x100, acc := .ro, kept := .none }
def morQDue : RegDesc := { addr := 0xA1000, lo := 16, width := 12, n1 := 96, s1 := 0x100, acc := .ro, kept := .none }
def morQHwm : RegDesc := { addr := 0xA1008, lo := 0, width := 11, n1 := 96, s1 := 0x100, acc := .rc, kept := .none }
def morSnapFree : RegDesc := { addr := 0xA1010, lo := 0, width := 11, n1 := 96, s1 := 0x100, acc := .ro, kept := .none }
def morSnapHeld : RegDesc := { addr := 0xA1010, lo := 16, width := 11, n1 := 96, s1 := 0x100, acc := .ro, kept := .none }
def morBusy : RegDesc := { addr := 0xA1018, lo := 0, width := 64, n1 := 96, s1 := 0x100, acc := .ro, kept := .c }
def morAccepted : RegDesc := { addr := 0xA1020, lo := 0, width := 64, n1 := 96, s1 := 0x100, acc := .ro, kept := .c }
def morDispatched : RegDesc := { addr := 0xA1028, lo := 0, width := 64, n1 := 96, s1 := 0x100, acc := .ro, kept := .c }
def morLanes : RegDesc := { addr := 0xA1030, lo := 0, width := 64, n1 := 96, s1 := 0x100, acc := .ro, kept := .c }
def morStolenIn : RegDesc := { addr := 0xA1038, lo := 0, width := 64, n1 := 96, s1 := 0x100, acc := .ro, kept := .c }
def morStolenOut : RegDesc := { addr := 0xA1040, lo := 0, width := 64, n1 := 96, s1 := 0x100, acc := .ro, kept := .c }
def morCancelPre : RegDesc := { addr := 0xA1048, lo := 0, width := 64, n1 := 96, s1 := 0x100, acc := .ro, kept := .c }
def morCancelLane : RegDesc := { addr := 0xA1050, lo := 0, width := 64, n1 := 96, s1 := 0x100, acc := .ro, kept := .c }
def morCancelYield : RegDesc := { addr := 0xA1058, lo := 0, width := 64, n1 := 96, s1 := 0x100, acc := .ro, kept := .c }
def morHist : RegDesc := { addr := 0xA1080, lo := 0, width := 64, n1 := 96, s1 := 0x100, n2 := 16, s2 := 0x8, acc := .ro, kept := .c }

/-- The fields of R331. -/
def mapMorR331 : List RegDesc :=
  [morWinMedia, morWinSaffron, morImmReserve, morAbort, morPromote, morStealNear, morStealFar, morStealEn, morCfgErr, morEvac, morSnapReq, morSnapDone, morSnapSkipped, morTraceRate, morTraceKinds, morTraceWptr, morTraceBase, morTraceWraps, morImmRedirect, morImmDrop] ++
  [morRefused, morEvacuations, morRehomed, morQHeld, morQDue, morQHwm, morSnapFree, morSnapHeld, morBusy, morAccepted, morDispatched, morLanes, morStolenIn, morStolenOut, morCancelPre, morCancelLane, morCancelYield, morHist]

/-! ### MEM_ (14_memory.md, R364) -/

def memHsSize : RegDesc := { addr := 0xB0000, lo := 0, width := 8, acc := .rw, rst := 16, kept := .all, min := 1, max := 255 }
def memXtsEn : RegDesc := { addr := 0xB0000, lo := 8, width := 3, acc := .rw, rst := 7, kept := .all }
def memWcrcEn : RegDesc := { addr := 0xB0000, lo := 12, width := 1, acc := .rw, rst := 1, kept := .all }
def memPeriodic : RegDesc := { addr := 0xB0000, lo := 13, width := 1, acc := .rw, rst := 1, kept := .all }
def memPageKeep : RegDesc := { addr := 0xB0000, lo := 16, width := 3, acc := .rw, rst := 2, kept := .all, min := 0, max := 5 }
def memRdThresh : RegDesc := { addr := 0xB0008, lo := 0, width := 14, acc := .rw, rst := 1024, kept := .all, min := 128, max := 8192 }
def memCeLimit : RegDesc := { addr := 0xB0010, lo := 0, width := 17, acc := .rw, rst := 1000, kept := .all, min := 10, max := 100000 }
def memMigrateRate : RegDesc := { addr := 0xB0010, lo := 32, width := 6, acc := .rw, rst := 10, kept := .all, min := 1, max := 40 }
def memMinEye : RegDesc := { addr := 0xB0010, lo := 40, width := 6, acc := .rw, rst := 25, kept := .all, min := 10, max := 50 }
def memCfgErr : RegDesc := { addr := 0xB0018, lo := 0, width := 1, acc := .w1c, kept := .none }
def memSpeed : RegDesc := { addr := 0xB0018, lo := 1, width := 1, acc := .ro, kept := .all }
def memCapPopulated : RegDesc := { addr := 0xB0020, lo := 0, width := 16, acc := .ro, kept := .all }
def memCapOnline : RegDesc := { addr := 0xB0020, lo := 16, width := 16, acc := .ro, kept := .all }
def memSnapReq : RegDesc := { addr := 0xB0028, lo := 0, width := 1, acc := .w1s, kept := .none }
def memSnapDone : RegDesc := { addr := 0xB0028, lo := 1, width := 1, acc := .w1c, kept := .none }
def memSnapSkipped : RegDesc := { addr := 0xB0028, lo := 2, width := 1, acc := .w1c, kept := .none }
def memLate : RegDesc := { addr := 0xB0200, lo := 0, width := 64, n1 := 8, s1 := 0x10, acc := .ro, kept := .all }
def memMaxlat : RegDesc := { addr := 0xB0208, lo := 0, width := 32, n1 := 8, s1 := 0x10, acc := .rc, kept := .none }
def memChState : RegDesc := { addr := 0xB1000, lo := 0, width := 3, n1 := 8, s1 := 0x200, acc := .ro, kept := .m }
def memChDimms : RegDesc := { addr := 0xB1000, lo := 4, width := 2, n1 := 8, s1 := 0x200, acc := .ro, kept := .all }
def memChReset : RegDesc := { addr := 0xB1008, lo := 0, width := 1, n1 := 8, s1 := 0x200, acc := .w1s, kept := .none }
def memCe : RegDesc := { addr := 0xB1100, lo := 0, width := 64, n1 := 8, s1 := 0x200, acc := .ro, kept := .all }
def memUe : RegDesc := { addr := 0xB1108, lo := 0, width := 64, n1 := 8, s1 := 0x200, acc := .ro, kept := .all }
def memScrubCe : RegDesc := { addr := 0xB1110, lo := 0, width := 64, n1 := 8, s1 := 0x200, acc := .ro, kept := .all }
def memCaRetry : RegDesc := { addr := 0xB1118, lo := 0, width := 64, n1 := 8, s1 := 0x200, acc := .ro, kept := .all }
def memWcrcRetry : RegDesc := { addr := 0xB1120, lo := 0, width := 64, n1 := 8, s1 := 0x200, acc := .ro, kept := .all }
def memRdRefresh : RegDesc := { addr := 0xB1128, lo := 0, width := 64, n1 := 8, s1 := 0x200, acc := .ro, kept := .all }
def memRdRfm : RegDesc := { addr := 0xB1130, lo := 0, width := 64, n1 := 8, s1 := 0x200, acc := .ro, kept := .all }
def memTrainPasses : RegDesc := { addr := 0xB1138, lo := 0, width := 64, n1 := 8, s1 := 0x200, acc := .ro, kept := .all }
def memTrainFail : RegDesc := { addr := 0xB1140, lo := 0, width := 64, n1 := 8, s1 := 0x200, acc := .ro, kept := .all }
def memMirrorFix : RegDesc := { addr := 0xB1148, lo := 0, width := 64, n1 := 8, s1 := 0x200, acc := .ro, kept := .all }
def memSnapFree : RegDesc := { addr := 0xB1180, lo := 0, width := 12, n1 := 8, s1 := 0x200, n2 := 8, s2 := 0x8, acc := .ro, kept := .none }
def memSnapHeld : RegDesc := { addr := 0xB1180, lo := 16, width := 12, n1 := 8, s1 := 0x200, n2 := 8, s2 := 0x8, acc := .ro, kept := .none }
def memSnapTransit : RegDesc := { addr := 0xB1180, lo := 32, width := 12, n1 := 8, s1 := 0x200, n2 := 8, s2 := 0x8, acc := .ro, kept := .none }

/-- The fields of R364. -/
def mapMemR364 : List RegDesc :=
  [memHsSize, memXtsEn, memWcrcEn, memPeriodic, memPageKeep, memRdThresh, memCeLimit, memMigrateRate, memMinEye, memCfgErr, memSpeed, memCapPopulated, memCapOnline, memSnapReq, memSnapDone, memSnapSkipped, memLate, memMaxlat, memChState, memChDimms] ++
  [memChReset, memCe, memUe, memScrubCe, memCaRetry, memWcrcRetry, memRdRefresh, memRdRfm, memTrainPasses, memTrainFail, memMirrorFix, memSnapFree, memSnapHeld, memSnapTransit]

/-! ### TIM_ (15_time.md, R387) -/

def timRefForceSys : RegDesc := { addr := 0x20000, lo := 0, width := 1, acc := .rw, kept := .all }
def timCfgErr : RegDesc := { addr := 0x20008, lo := 0, width := 1, acc := .w1c, kept := .none }
def timRef10m : RegDesc := { addr := 0x20008, lo := 1, width := 1, acc := .ro, kept := .all }
def timRefLost : RegDesc := { addr := 0x20008, lo := 2, width := 1, acc := .w1c, kept := .all }
def timLatchReq : RegDesc := { addr := 0x20010, lo := 0, width := 1, acc := .w1s, kept := .none }
def timLatchTb : RegDesc := { addr := 0x20018, lo := 0, width := 64, n1 := 4, s1 := 0x8, acc := .ro, kept := .all }
def timPpsOutEn : RegDesc := { addr := 0x20040, lo := 0, width := 1, acc := .rw, kept := .all }
def timPpsOutTb : RegDesc := { addr := 0x20040, lo := 1, width := 2, acc := .rw, kept := .all }
def timPpsOutWidth : RegDesc := { addr := 0x20040, lo := 4, width := 9, acc := .rw, rst := 100, kept := .all, min := 1, max := 500 }
def timPpsOutOffset : RegDesc := { addr := 0x20040, lo := 32, width := 32, acc := .rw, kept := .all }
def timPpsGlitch : RegDesc := { addr := 0x20048, lo := 0, width := 64, acc := .ro, kept := .all }
def timTbSrc : RegDesc := { addr := 0x20100, lo := 0, width := 2, n1 := 4, s1 := 0x80, acc := .ro, kept := .all }
def timTbPort : RegDesc := { addr := 0x20100, lo := 2, width := 2, n1 := 4, s1 := 0x80, acc := .ro, kept := .all }
def timTbTransport : RegDesc := { addr := 0x20100, lo := 4, width := 2, n1 := 4, s1 := 0x80, acc := .ro, kept := .all }
def timTbDomain : RegDesc := { addr := 0x20100, lo := 8, width := 8, n1 := 4, s1 := 0x80, acc := .ro, kept := .all }
def timTbStepLimit : RegDesc := { addr := 0x20100, lo := 32, width := 20, n1 := 4, s1 := 0x80, acc := .ro, rst := 500, kept := .all }
def timTbTime : RegDesc := { addr := 0x20108, lo := 0, width := 64, n1 := 4, s1 := 0x80, acc := .ro, kept := .all }
def timTbFreq : RegDesc := { addr := 0x20110, lo := 0, width := 32, n1 := 4, s1 := 0x80, acc := .ro, kept := .all }
def timTbState : RegDesc := { addr := 0x20118, lo := 0, width := 3, n1 := 4, s1 := 0x80, acc := .ro, kept := .all }
def timTbSet : RegDesc := { addr := 0x20118, lo := 4, width := 1, n1 := 4, s1 := 0x80, acc := .ro, kept := .all }
def timTbStepRefused : RegDesc := { addr := 0x20118, lo := 5, width := 1, n1 := 4, s1 := 0x80, acc := .ro, kept := .all }
def timTbLastJ : RegDesc := { addr := 0x20118, lo := 32, width := 32, n1 := 4, s1 := 0x80, acc := .ro, kept := .all }
def timTbPendStep : RegDesc := { addr := 0x20120, lo := 0, width := 64, n1 := 4, s1 := 0x80, acc := .ro, kept := .all }
def timPpsCap : RegDesc := { addr := 0x20128, lo := 0, width := 64, n1 := 4, s1 := 0x80, acc := .ro, kept := .all }
def timTbSamples : RegDesc := { addr := 0x20130, lo := 0, width := 64, n1 := 4, s1 := 0x80, acc := .ro, kept := .all }
def timTbOutliers : RegDesc := { addr := 0x20138, lo := 0, width := 64, n1 := 4, s1 := 0x80, acc := .ro, kept := .all }
def timTbStepsApplied : RegDesc := { addr := 0x20140, lo := 0, width := 64, n1 := 4, s1 := 0x80, acc := .ro, kept := .all }
def timTbStepsRefused : RegDesc := { addr := 0x20148, lo := 0, width := 64, n1 := 4, s1 := 0x80, acc := .ro, kept := .all }
def timPortRxTb : RegDesc := { addr := 0x20400, lo := 0, width := 2, n1 := 4, s1 := 0x40, acc := .rw, kept := .c }
def timPortDelayRx : RegDesc := { addr := 0x20400, lo := 16, width := 16, n1 := 4, s1 := 0x40, acc := .rw, kept := .c }
def timPortDelayTx : RegDesc := { addr := 0x20400, lo := 32, width := 16, n1 := 4, s1 := 0x40, acc := .rw, kept := .c }
def timTxtsValid : RegDesc := { addr := 0x20408, lo := 0, width := 1, n1 := 4, s1 := 0x40, acc := .ro, kept := .t }
def timTxtsTb : RegDesc := { addr := 0x20408, lo := 1, width := 2, n1 := 4, s1 := 0x40, acc := .ro, kept := .t }
def timTxtsDepth : RegDesc := { addr := 0x20408, lo := 6, width := 7, n1 := 4, s1 := 0x40, acc := .ro, kept := .t }
def timTxtsTag : RegDesc := { addr := 0x20408, lo := 16, width := 16, n1 := 4, s1 := 0x40, acc := .ro, kept := .t }
def timTxtsTime : RegDesc := { addr := 0x20410, lo := 0, width := 64, n1 := 4, s1 := 0x40, acc := .rc, kept := .t }

/-- The fields of R387. -/
def mapTimR387 : List RegDesc :=
  [timRefForceSys, timCfgErr, timRef10m, timRefLost, timLatchReq, timLatchTb, timPpsOutEn, timPpsOutTb, timPpsOutWidth, timPpsOutOffset, timPpsGlitch, timTbSrc, timTbPort, timTbTransport, timTbDomain, timTbStepLimit, timTbTime, timTbFreq, timTbState, timTbSet] ++
  [timTbStepRefused, timTbLastJ, timTbPendStep, timPpsCap, timTbSamples, timTbOutliers, timTbStepsApplied, timTbStepsRefused, timPortRxTb, timPortDelayRx, timPortDelayTx, timTxtsValid, timTxtsTb, timTxtsDepth, timTxtsTag, timTxtsTime]

/-! ### SUP_ (08_codecs_transcoding.md, R208) -/

def supLoadLimit : RegDesc := { addr := 0x10400, lo := 0, width := 7, acc := .rw, rst := 84, kept := .c, min := 48, max := 92 }
def supLoadCfgErr : RegDesc := { addr := 0x10408, lo := 0, width := 1, acc := .w1c, kept := .none }
def supLoadPlanned : RegDesc := { addr := 0x10410, lo := 0, width := 40, acc := .ro, kept := .all }
def supLoadMeasured : RegDesc := { addr := 0x10418, lo := 0, width := 40, acc := .ro, kept := .none }
def supLoadRefused : RegDesc := { addr := 0x10420, lo := 0, width := 64, acc := .ro, kept := .c }

/-- The fields of R208. -/
def mapSupR208 : List RegDesc :=
  [supLoadLimit, supLoadCfgErr, supLoadPlanned, supLoadMeasured, supLoadRefused]

/-! ### SUP_ (10_tones.md, R246) -/

def supToneCfgErr : RegDesc := { addr := 0x10470, lo := 0, width := 1, acc := .w1c, kept := .none }
def supToneDetected : RegDesc := { addr := 0x10480, lo := 0, width := 64, acc := .ro, kept := .c }
def supToneEvtRx : RegDesc := { addr := 0x10488, lo := 0, width := 64, acc := .ro, kept := .c }
def supToneEvtTx : RegDesc := { addr := 0x10490, lo := 0, width := 64, acc := .ro, kept := .c }
def supToneEvtStale : RegDesc := { addr := 0x10498, lo := 0, width := 64, acc := .ro, kept := .c }
def supToneEvtPreempt : RegDesc := { addr := 0x104A0, lo := 0, width := 64, acc := .ro, kept := .c }
def supToneGenerated : RegDesc := { addr := 0x104A8, lo := 0, width := 64, acc := .ro, kept := .c }
def cptF1 : RegDesc := { addr := 0x10800, lo := 0, width := 12, n1 := 32, s1 := 0x20, acc := .rw, kept := .c }
def cptF2 : RegDesc := { addr := 0x10800, lo := 12, width := 12, n1 := 32, s1 := 0x20, acc := .rw, kept := .c }
def cptFtol : RegDesc := { addr := 0x10800, lo := 24, width := 4, n1 := 32, s1 := 0x20, acc := .rw, rst := 3, kept := .c }
def cptMinLevel : RegDesc := { addr := 0x10800, lo := 28, width := 8, n1 := 32, s1 := 0x20, acc := .rw, rst := 40, kept := .c }
def cptNseg : RegDesc := { addr := 0x10800, lo := 36, width := 4, n1 := 32, s1 := 0x20, acc := .rw, rst := 1, kept := .c }
def cptCtol : RegDesc := { addr := 0x10800, lo := 40, width := 4, n1 := 32, s1 := 0x20, acc := .rw, rst := 2, kept := .c }
def cptRepeat : RegDesc := { addr := 0x10800, lo := 44, width := 4, n1 := 32, s1 := 0x20, acc := .rw, rst := 1, kept := .c }
def cptSegA0 : RegDesc := { addr := 0x10808, lo := 0, width := 16, n1 := 32, s1 := 0x20, acc := .rw, kept := .c }
def cptSegA1 : RegDesc := { addr := 0x10808, lo := 16, width := 16, n1 := 32, s1 := 0x20, acc := .rw, kept := .c }
def cptSegA2 : RegDesc := { addr := 0x10808, lo := 32, width := 16, n1 := 32, s1 := 0x20, acc := .rw, kept := .c }
def cptSegA3 : RegDesc := { addr := 0x10808, lo := 48, width := 16, n1 := 32, s1 := 0x20, acc := .rw, kept := .c }
def cptSegB0 : RegDesc := { addr := 0x10810, lo := 0, width := 16, n1 := 32, s1 := 0x20, acc := .rw, kept := .c }
def cptSegB1 : RegDesc := { addr := 0x10810, lo := 16, width := 16, n1 := 32, s1 := 0x20, acc := .rw, kept := .c }
def cptSegB2 : RegDesc := { addr := 0x10810, lo := 32, width := 16, n1 := 32, s1 := 0x20, acc := .rw, kept := .c }
def cptSegB3 : RegDesc := { addr := 0x10810, lo := 48, width := 16, n1 := 32, s1 := 0x20, acc := .rw, kept := .c }
def cptValid : RegDesc := { addr := 0x10818, lo := 0, width := 1, n1 := 32, s1 := 0x20, acc := .rw, kept := .c }

/-- The fields of R246. -/
def mapSupR246 : List RegDesc :=
  [supToneCfgErr, supToneDetected, supToneEvtRx, supToneEvtTx, supToneEvtStale, supToneEvtPreempt, supToneGenerated, cptF1, cptF2, cptFtol, cptMinLevel, cptNseg, cptCtol, cptRepeat, cptSegA0, cptSegA1, cptSegA2, cptSegA3, cptSegB0, cptSegB1] ++
  [cptSegB2, cptSegB3, cptValid]

/-! ### SUP_ (11_voiceband_data.md, R268) -/

def supVbdDetect : RegDesc := { addr := 0x10500, lo := 0, width := 64, acc := .ro, kept := .c }
def supVbdQualified : RegDesc := { addr := 0x10508, lo := 0, width := 64, acc := .ro, kept := .c }
def supVbdFalseDetect : RegDesc := { addr := 0x10510, lo := 0, width := 64, acc := .ro, kept := .c }
def supVbdCapture : RegDesc := { addr := 0x10518, lo := 0, width := 64, acc := .ro, kept := .c }
def supVbdRiseIgnored : RegDesc := { addr := 0x10520, lo := 0, width := 64, acc := .ro, kept := .c }
def supVbdTxUnderflow : RegDesc := { addr := 0x10528, lo := 0, width := 64, acc := .ro, kept := .c }
def supVbdIfpTx : RegDesc := { addr := 0x10530, lo := 0, width := 64, acc := .ro, kept := .c }
def supVbdIfpRx : RegDesc := { addr := 0x10538, lo := 0, width := 64, acc := .ro, kept := .c }
def supVbdIfpRecovered : RegDesc := { addr := 0x10540, lo := 0, width := 64, acc := .ro, kept := .c }
def supVbdIfpLost : RegDesc := { addr := 0x10548, lo := 0, width := 64, acc := .ro, kept := .c }
def supVbdIfpUnsup : RegDesc := { addr := 0x10550, lo := 0, width := 64, acc := .ro, kept := .c }
def supVbdCmSuppressed : RegDesc := { addr := 0x10558, lo := 0, width := 64, acc := .ro, kept := .c }
def supVbdPages : RegDesc := { addr := 0x10560, lo := 0, width := 64, acc := .ro, kept := .c }
def supVbdTextDrop : RegDesc := { addr := 0x10568, lo := 0, width := 64, acc := .ro, kept := .c }

/-- The fields of R268. -/
def mapSupR268 : List RegDesc :=
  [supVbdDetect, supVbdQualified, supVbdFalseDetect, supVbdCapture, supVbdRiseIgnored, supVbdTxUnderflow, supVbdIfpTx, supVbdIfpRx, supVbdIfpRecovered, supVbdIfpLost, supVbdIfpUnsup, supVbdCmSuppressed, supVbdPages, supVbdTextDrop]

/-! ### SUP_ (12_engines.md, R308) -/

def supEngRun : RegDesc := { addr := 0x11000, lo := 0, width := 2, n1 := 96, s1 := 0x40, acc := .ro, kept := .none }
def supEngLastFault : RegDesc := { addr := 0x11000, lo := 4, width := 4, n1 := 96, s1 := 0x40, acc := .ro, kept := .none }
def supEngKernel : RegDesc := { addr := 0x11000, lo := 16, width := 16, n1 := 96, s1 := 0x40, acc := .ro, kept := .none }
def supEngBundles : RegDesc := { addr := 0x11008, lo := 0, width := 64, n1 := 96, s1 := 0x40, acc := .ro, kept := .c }
def supEngStalls : RegDesc := { addr := 0x11010, lo := 0, width := 64, n1 := 96, s1 := 0x40, acc := .ro, kept := .c }
def supEngSkeins : RegDesc := { addr := 0x11018, lo := 0, width := 64, n1 := 96, s1 := 0x40, acc := .ro, kept := .c }
def supEngGov : RegDesc := { addr := 0x11020, lo := 0, width := 64, n1 := 96, s1 := 0x40, acc := .ro, kept := .c }
def supEngFaults : RegDesc := { addr := 0x11028, lo := 0, width := 64, n1 := 96, s1 := 0x40, acc := .ro, kept := .c }
def supEngBudget : RegDesc := { addr := 0x11030, lo := 0, width := 64, n1 := 96, s1 := 0x40, acc := .ro, kept := .c }
def supEngEccCorr : RegDesc := { addr := 0x11038, lo := 0, width := 64, n1 := 96, s1 := 0x40, acc := .ro, kept := .c }

/-- The fields of R308. -/
def mapSupR308 : List RegDesc :=
  [supEngRun, supEngLastFault, supEngKernel, supEngBundles, supEngStalls, supEngSkeins, supEngGov, supEngFaults, supEngBudget, supEngEccCorr]

/-! ### SUP_ (20_resets_images.md, R492) -/

def supResetKind : RegDesc := { addr := 0x10300, lo := 0, width := 3, acc := .rw, kept := .none }
def supResetTarget : RegDesc := { addr := 0x10300, lo := 4, width := 2, acc := .rw, kept := .none }
def supResetKey : RegDesc := { addr := 0x10300, lo := 16, width := 16, acc := .wo, kept := .none }
def supResetGo : RegDesc := { addr := 0x10300, lo := 32, width := 1, acc := .w1s, kept := .none }
def supResetCfgErr : RegDesc := { addr := 0x10308, lo := 0, width := 1, acc := .w1c, kept := .none }
def supResetBusy : RegDesc := { addr := 0x10308, lo := 1, width := 1, acc := .ro, kept := .none }
def supResetLast : RegDesc := { addr := 0x10308, lo := 8, width := 3, acc := .ro, kept := .all }
def supResetsWarm : RegDesc := { addr := 0x10310, lo := 0, width := 64, acc := .ro, kept := .all }
def supResetsSup : RegDesc := { addr := 0x10318, lo := 0, width := 64, acc := .ro, kept := .all }
def supResetsEngine : RegDesc := { addr := 0x10320, lo := 0, width := 64, acc := .ro, kept := .all }
def supResetsPort : RegDesc := { addr := 0x10328, lo := 0, width := 64, acc := .ro, kept := .all }
def supFallbacks : RegDesc := { addr := 0x10330, lo := 0, width := 64, acc := .ro, kept := .all }
def supImgSupRelease : RegDesc := { addr := 0x10340, lo := 0, width := 16, acc := .ro, kept := .b }
def supImgIfInForce : RegDesc := { addr := 0x10340, lo := 16, width := 8, acc := .ro, kept := .b }
def supImgPackRelease : RegDesc := { addr := 0x10348, lo := 0, width := 16, acc := .ro, kept := .c }
def supImgStagedSup : RegDesc := { addr := 0x10350, lo := 0, width := 1, acc := .ro, kept := .c }
def supImgStagedPack : RegDesc := { addr := 0x10350, lo := 1, width := 1, acc := .ro, kept := .c }
def supRolloutActive : RegDesc := { addr := 0x10358, lo := 0, width := 1, acc := .ro, kept := .c }
def supRolloutDomains : RegDesc := { addr := 0x10358, lo := 8, width := 5, acc := .ro, kept := .c }
def supServiceLimited : RegDesc := { addr := 0x10360, lo := 0, width := 1, acc := .ro, kept := .b }
def supServiceReason : RegDesc := { addr := 0x10360, lo := 8, width := 8, acc := .ro, kept := .b }

/-- The fields of R492. -/
def mapSupR492 : List RegDesc :=
  [supResetKind, supResetTarget, supResetKey, supResetGo, supResetCfgErr, supResetBusy, supResetLast, supResetsWarm, supResetsSup, supResetsEngine, supResetsPort, supFallbacks, supImgSupRelease, supImgIfInForce, supImgPackRelease, supImgStagedSup, supImgStagedPack, supRolloutActive, supRolloutDomains, supServiceLimited] ++
  [supServiceReason]

/-! ### MBX_ (16_host_interface.md, R415) -/

def mbxBootState : RegDesc := { addr := 0x380000, lo := 0, width := 4, acc := .ro, kept := .b }
def mbxBootReason : RegDesc := { addr := 0x380000, lo := 8, width := 8, acc := .ro, kept := .b }
def mbxBootWarm : RegDesc := { addr := 0x380000, lo := 16, width := 1, acc := .ro, kept := .c }
def mbxCfgErr : RegDesc := { addr := 0x380008, lo := 0, width := 1, acc := .w1c, kept := .none }
def mbxSnapReq : RegDesc := { addr := 0x380010, lo := 0, width := 1, acc := .w1s, kept := .none }
def mbxSnapDone : RegDesc := { addr := 0x380010, lo := 1, width := 1, acc := .w1c, kept := .none }
def mbxSnapSkipped : RegDesc := { addr := 0x380010, lo := 2, width := 1, acc := .w1c, kept := .none }
def mbxCreditPools : RegDesc := { addr := 0x380018, lo := 0, width := 8, acc := .ro, rst := 12, kept := .all }
def mbxBadAccess : RegDesc := { addr := 0x380040, lo := 0, width := 64, acc := .ro, kept := .c }
def mbxSwWriteDiscard : RegDesc := { addr := 0x380048, lo := 0, width := 64, acc := .ro, kept := .c }
def mbxBisnp : RegDesc := { addr := 0x380050, lo := 0, width := 64, acc := .ro, kept := .c }
def mbxSfEvict : RegDesc := { addr := 0x380058, lo := 0, width := 64, acc := .ro, kept := .c }
def mbxNqDrop : RegDesc := { addr := 0x380060, lo := 0, width := 64, acc := .ro, kept := .c }
def mbxCreditSnap : RegDesc := { addr := 0x380100, lo := 0, width := 64, n1 := 12, s1 := 0x8, acc := .ro, kept := .none }
def sqBase : RegDesc := { addr := 0x390000, lo := 0, width := 64, n1 := 64, s1 := 0x40, acc := .rw, kept := .q }
def cqBase : RegDesc := { addr := 0x390008, lo := 0, width := 64, n1 := 64, s1 := 0x40, acc := .rw, kept := .q }
def sqSize : RegDesc := { addr := 0x390010, lo := 0, width := 13, n1 := 64, s1 := 0x40, acc := .rw, rst := 2, kept := .q, min := 2, max := 4096 }
def cqSize : RegDesc := { addr := 0x390010, lo := 16, width := 13, n1 := 64, s1 := 0x40, acc := .rw, rst := 2, kept := .q, min := 2, max := 4096 }
def qEn : RegDesc := { addr := 0x390018, lo := 0, width := 1, n1 := 64, s1 := 0x40, acc := .rw, kept := .q }
def qDrained : RegDesc := { addr := 0x390018, lo := 1, width := 1, n1 := 64, s1 := 0x40, acc := .ro, rst := 1, kept := .none }
def qErr : RegDesc := { addr := 0x390018, lo := 2, width := 1, n1 := 64, s1 := 0x40, acc := .w1c, kept := .none }
def qVec : RegDesc := { addr := 0x390018, lo := 8, width := 8, n1 := 64, s1 := 0x40, acc := .rw, step := 1, kept := .q }
def qCoalCount : RegDesc := { addr := 0x390018, lo := 16, width := 8, n1 := 64, s1 := 0x40, acc := .rw, kept := .q }
def qCoalTime : RegDesc := { addr := 0x390018, lo := 32, width := 10, n1 := 64, s1 := 0x40, acc := .rw, kept := .q, min := 0, max := 1000 }
def sqHead : RegDesc := { addr := 0x390020, lo := 0, width := 12, n1 := 64, s1 := 0x40, acc := .ro, kept := .q }
def cqTail : RegDesc := { addr := 0x390020, lo := 16, width := 12, n1 := 64, s1 := 0x40, acc := .ro, kept := .q }
def xqBase : RegDesc := { addr := 0x391000, lo := 0, width := 64, n1 := 8, s1 := 0x40, acc := .rw, kept := .q }
def xqCount : RegDesc := { addr := 0x391008, lo := 0, width := 17, n1 := 8, s1 := 0x40, acc := .rw, rst := 16, kept := .q, min := 16, max := 65536 }
def xqEsizeLog2 : RegDesc := { addr := 0x391008, lo := 24, width := 4, n1 := 8, s1 := 0x40, acc := .rw, rst := 8, kept := .q, min := 8, max := 14 }
def xqEn : RegDesc := { addr := 0x391010, lo := 0, width := 1, n1 := 8, s1 := 0x40, acc := .rw, kept := .q }
def xqErr : RegDesc := { addr := 0x391010, lo := 2, width := 1, n1 := 8, s1 := 0x40, acc := .w1c, kept := .none }
def xqVec : RegDesc := { addr := 0x391010, lo := 8, width := 8, n1 := 8, s1 := 0x40, acc := .rw, rst := 64, step := 1, kept := .q }
def xqTail : RegDesc := { addr := 0x391018, lo := 0, width := 17, n1 := 8, s1 := 0x40, acc := .ro, kept := .q }
def mbxXqDrop : RegDesc := { addr := 0x391020, lo := 0, width := 64, n1 := 8, s1 := 0x40, acc := .ro, kept := .c }
def nqBase : RegDesc := { addr := 0x391400, lo := 0, width := 64, acc := .rw, kept := .q }
def nqCount : RegDesc := { addr := 0x391408, lo := 0, width := 17, acc := .rw, rst := 16, kept := .q, min := 16, max := 65536 }
def nqEn : RegDesc := { addr := 0x391410, lo := 0, width := 1, acc := .rw, kept := .q }
def nqErr : RegDesc := { addr := 0x391410, lo := 2, width := 1, acc := .w1c, kept := .none }
def nqVec : RegDesc := { addr := 0x391410, lo := 8, width := 8, acc := .rw, rst := 72, kept := .q }

/-- The fields of R415. -/
def mapMbxR415 : List RegDesc :=
  [mbxBootState, mbxBootReason, mbxBootWarm, mbxCfgErr, mbxSnapReq, mbxSnapDone, mbxSnapSkipped, mbxCreditPools, mbxBadAccess, mbxSwWriteDiscard, mbxBisnp, mbxSfEvict, mbxNqDrop, mbxCreditSnap, sqBase, cqBase, sqSize, cqSize, qEn, qDrained] ++
  [qErr, qVec, qCoalCount, qCoalTime, sqHead, cqTail, xqBase, xqCount, xqEsizeLog2, xqEn, xqErr, xqVec, xqTail, mbxXqDrop, nqBase, nqCount, nqEn, nqErr, nqVec]

/-! ### DB_ (16_host_interface.md, R415) -/

def dbSqTail : RegDesc := { addr := 0x1000000, lo := 0, width := 12, n1 := 64, s1 := 0x1000, acc := .wo, kept := .none }
def dbCqHead : RegDesc := { addr := 0x1000004, lo := 0, width := 12, n1 := 64, s1 := 0x1000, acc := .wo, kept := .none }
def dbXqHead : RegDesc := { addr := 0x1040000, lo := 0, width := 17, n1 := 8, s1 := 0x1000, acc := .wo, kept := .none }
def dbNqHead : RegDesc := { addr := 0x1050000, lo := 0, width := 17, acc := .wo, kept := .none }

/-- The fields of R415. -/
def mapDbR415 : List RegDesc :=
  [dbSqTail, dbCqHead, dbXqHead, dbNqHead]

/-! ### LAK_ (18_capture_compression.md, R449) -/

def lakSource : RegDesc := { addr := 0xD0000, lo := 0, width := 1, acc := .rw, kept := .c }
def lakPort : RegDesc := { addr := 0xD0000, lo := 1, width := 2, acc := .rw, kept := .c }
def lakChanId : RegDesc := { addr := 0xD0000, lo := 16, width := 16, acc := .rw, kept := .c }
def lakOp : RegDesc := { addr := 0xD0000, lo := 32, width := 2, acc := .rw, kept := .c }
def lakGo : RegDesc := { addr := 0xD0000, lo := 40, width := 1, acc := .w1s, kept := .none }
def lakDone : RegDesc := { addr := 0xD0000, lo := 41, width := 1, acc := .w1c, kept := .none }
def lakErr : RegDesc := { addr := 0xD0000, lo := 42, width := 1, acc := .w1c, kept := .none }
def lakStateAddr : RegDesc := { addr := 0xD0008, lo := 0, width := 64, acc := .rw, kept := .c }
def lakCfgErr : RegDesc := { addr := 0xD0010, lo := 0, width := 1, acc := .w1c, kept := .none }
def lakJobqDepth : RegDesc := { addr := 0xD0018, lo := 0, width := 7, acc := .ro, kept := .none }
def lakJobs : RegDesc := { addr := 0xD0100, lo := 0, width := 64, acc := .ro, kept := .c }
def lakJobsFailed : RegDesc := { addr := 0xD0108, lo := 0, width := 64, acc := .ro, kept := .c }
def lakBytesIn : RegDesc := { addr := 0xD0110, lo := 0, width := 64, acc := .ro, kept := .c }
def lakBytesOut : RegDesc := { addr := 0xD0118, lo := 0, width := 64, acc := .ro, kept := .c }
def lakReplayDrop : RegDesc := { addr := 0xD0120, lo := 0, width := 64, acc := .ro, kept := .c }
def lakCapDrop : RegDesc := { addr := 0xD0200, lo := 0, width := 64, n1 := 4, s1 := 0x8, acc := .ro, kept := .c }

/-- The fields of R449. -/
def mapLakR449 : List RegDesc :=
  [lakSource, lakPort, lakChanId, lakOp, lakGo, lakDone, lakErr, lakStateAddr, lakCfgErr, lakJobqDepth, lakJobs, lakJobsFailed, lakBytesIn, lakBytesOut, lakReplayDrop, lakCapDrop]

/-! ### RNG_ (19_ring_failover.md, R473) -/

def rngAutoTake : RegDesc := { addr := 0xC0000, lo := 0, width := 1, acc := .rw, rst := 1, kept := .c }
def rngInsert : RegDesc := { addr := 0xC0000, lo := 1, width := 1, acc := .w1s, kept := .none }
def rngYieldOnDemand : RegDesc := { addr := 0xC0000, lo := 2, width := 1, acc := .rw, kept := .c }
def rngSyncRate : RegDesc := { addr := 0xC0000, lo := 8, width := 4, acc := .rw, rst := 2, kept := .c, min := 1, max := 8 }
def rngMaxLag : RegDesc := { addr := 0xC0000, lo := 16, width := 8, acc := .rw, rst := 20, kept := .c, min := 5, max := 200 }
def rngHoldMax : RegDesc := { addr := 0xC0000, lo := 24, width := 6, acc := .rw, rst := 10, kept := .c, min := 1, max := 60 }
def rngCfgErr : RegDesc := { addr := 0xC0008, lo := 0, width := 1, acc := .w1c, kept := .none }
def rngBypass : RegDesc := { addr := 0xC0008, lo := 1, width := 1, acc := .ro, rst := 1, kept := .none }
def rngState : RegDesc := { addr := 0xC0008, lo := 4, width := 3, acc := .ro, kept := .none }
def rngUpState : RegDesc := { addr := 0xC0008, lo := 8, width := 3, acc := .ro, kept := .none }
def rngPaired : RegDesc := { addr := 0xC0008, lo := 16, width := 1, acc := .ro, kept := .all }
def rngPosOwn : RegDesc := { addr := 0xC0010, lo := 0, width := 3, acc := .ro, kept := .all }
def rngPosUp : RegDesc := { addr := 0xC0010, lo := 4, width := 4, acc := .ro, rst := 15, kept := .all }
def rngPosDown : RegDesc := { addr := 0xC0010, lo := 8, width := 4, acc := .ro, rst := 15, kept := .all }
def rngHomeFirst : RegDesc := { addr := 0xC0018, lo := 0, width := 16, acc := .ro, kept := .all }
def rngHomeCount : RegDesc := { addr := 0xC0018, lo := 16, width := 17, acc := .ro, kept := .all }
def rngUpFirst : RegDesc := { addr := 0xC0020, lo := 0, width := 16, acc := .ro, kept := .all }
def rngUpCount : RegDesc := { addr := 0xC0020, lo := 16, width := 17, acc := .ro, kept := .all }
def rngUnprotected : RegDesc := { addr := 0xC0028, lo := 0, width := 17, acc := .ro, kept := .none }
def rngStale : RegDesc := { addr := 0xC0028, lo := 32, width := 17, acc := .ro, kept := .none }
def rngSnapReq : RegDesc := { addr := 0xC0030, lo := 0, width := 1, acc := .w1s, kept := .none }
def rngSnapDone : RegDesc := { addr := 0xC0030, lo := 1, width := 1, acc := .w1c, kept := .none }
def rngSnapSkipped : RegDesc := { addr := 0xC0030, lo := 2, width := 1, acc := .w1c, kept := .none }
def rngPortLinkUp : RegDesc := { addr := 0xC0100, lo := 0, width := 1, n1 := 2, s1 := 0x80, acc := .ro, kept := .none }
def rngPortLock : RegDesc := { addr := 0xC0100, lo := 1, width := 4, n1 := 2, s1 := 0x80, acc := .ro, kept := .none }
def rngPortAdjPos : RegDesc := { addr := 0xC0100, lo := 8, width := 4, n1 := 2, s1 := 0x80, acc := .ro, rst := 15, kept := .none }
def rngFramesTx : RegDesc := { addr := 0xC0108, lo := 0, width := 64, n1 := 2, s1 := 0x80, acc := .ro, kept := .c }
def rngFramesRx : RegDesc := { addr := 0xC0110, lo := 0, width := 64, n1 := 2, s1 := 0x80, acc := .ro, kept := .c }
def rngCrcErr : RegDesc := { addr := 0xC0118, lo := 0, width := 64, n1 := 2, s1 := 0x80, acc := .ro, kept := .c }
def rngReplays : RegDesc := { addr := 0xC0120, lo := 0, width := 64, n1 := 2, s1 := 0x80, acc := .ro, kept := .c }
def rngRetrains : RegDesc := { addr := 0xC0128, lo := 0, width := 64, n1 := 2, s1 := 0x80, acc := .ro, kept := .c }
def rngCreditStall : RegDesc := { addr := 0xC0130, lo := 0, width := 64, n1 := 2, s1 := 0x80, acc := .ro, kept := .c }
def rngSnapFree : RegDesc := { addr := 0xC0140, lo := 0, width := 10, n1 := 2, s1 := 0x80, acc := .ro, kept := .none }
def rngSnapHeld : RegDesc := { addr := 0xC0140, lo := 16, width := 10, n1 := 2, s1 := 0x80, acc := .ro, kept := .none }
def rngSnapTransit : RegDesc := { addr := 0xC0140, lo := 32, width := 10, n1 := 2, s1 := 0x80, acc := .ro, kept := .none }
def rngSnapAvail : RegDesc := { addr := 0xC0148, lo := 0, width := 10, n1 := 2, s1 := 0x80, acc := .ro, kept := .none }
def rngSnapOutstanding : RegDesc := { addr := 0xC0148, lo := 16, width := 10, n1 := 2, s1 := 0x80, acc := .ro, kept := .none }
def rngDeltasTx : RegDesc := { addr := 0xC0200, lo := 0, width := 64, acc := .ro, kept := .c }
def rngSuperseded : RegDesc := { addr := 0xC0208, lo := 0, width := 64, acc := .ro, kept := .c }
def rngSuspects : RegDesc := { addr := 0xC0210, lo := 0, width := 64, acc := .ro, kept := .c }
def rngFenceAlive : RegDesc := { addr := 0xC0218, lo := 0, width := 64, acc := .ro, kept := .c }
def rngAdoptions : RegDesc := { addr := 0xC0220, lo := 0, width := 64, acc := .ro, kept := .c }
def rngAdoptedChannels : RegDesc := { addr := 0xC0228, lo := 0, width := 64, acc := .ro, kept := .c }
def rngNotAdopted : RegDesc := { addr := 0xC0230, lo := 0, width := 64, acc := .ro, kept := .c }
def rngSyncBytes : RegDesc := { addr := 0xC0238, lo := 0, width := 64, acc := .ro, kept := .c }

/-- The fields of R473. -/
def mapRngR473 : List RegDesc :=
  [rngAutoTake, rngInsert, rngYieldOnDemand, rngSyncRate, rngMaxLag, rngHoldMax, rngCfgErr, rngBypass, rngState, rngUpState, rngPaired, rngPosOwn, rngPosUp, rngPosDown, rngHomeFirst, rngHomeCount, rngUpFirst, rngUpCount, rngUnprotected, rngStale] ++
  [rngSnapReq, rngSnapDone, rngSnapSkipped, rngPortLinkUp, rngPortLock, rngPortAdjPos, rngFramesTx, rngFramesRx, rngCrcErr, rngReplays, rngRetrains, rngCreditStall, rngSnapFree, rngSnapHeld, rngSnapTransit, rngSnapAvail, rngSnapOutstanding, rngDeltasTx, rngSuperseded, rngSuspects] ++
  [rngFenceAlive, rngAdoptions, rngAdoptedChannels, rngNotAdopted, rngSyncBytes]

/-! ### SEC_ (21_integrity_security.md, R505) -/

def secLifecycle : RegDesc := { addr := 0xE0000, lo := 0, width := 2, acc := .ro, rst := 1, kept := .all }
def secServiceAllow : RegDesc := { addr := 0xE0000, lo := 4, width := 1, acc := .ro, kept := .all }
def secSerial : RegDesc := { addr := 0xE0008, lo := 0, width := 64, acc := .ro, kept := .all }
def secKeyRevoked : RegDesc := { addr := 0xE0010, lo := 0, width := 8, acc := .ro, kept := .all }
def secSvnFusedSup : RegDesc := { addr := 0xE0018, lo := 0, width := 16, acc := .ro, kept := .all }
def secSvnFusedPack : RegDesc := { addr := 0xE0018, lo := 16, width := 16, acc := .ro, kept := .all }
def secSvnFloorSup : RegDesc := { addr := 0xE0020, lo := 0, width := 16, acc := .ro, kept := .all }
def secSvnFloorPack : RegDesc := { addr := 0xE0020, lo := 16, width := 16, acc := .ro, kept := .all }
def secSvnCommitSup : RegDesc := { addr := 0xE0028, lo := 0, width := 1, acc := .w1s, kept := .none }
def secSvnCommitPack : RegDesc := { addr := 0xE0028, lo := 1, width := 1, acc := .w1s, kept := .none }
def secCfgErr : RegDesc := { addr := 0xE0030, lo := 0, width := 1, acc := .w1c, kept := .none }
def secErasing : RegDesc := { addr := 0xE0030, lo := 1, width := 1, acc := .ro, kept := .all }
def secService : RegDesc := { addr := 0xE0030, lo := 2, width := 1, acc := .ro, kept := .all }
def secSigFail : RegDesc := { addr := 0xE0100, lo := 0, width := 64, acc := .ro, kept := .c }
def secUnlockFail : RegDesc := { addr := 0xE0108, lo := 0, width := 64, acc := .ro, kept := .c }
def secFabricParity : RegDesc := { addr := 0xE0110, lo := 0, width := 64, acc := .ro, kept := .c }
def secSramCe : RegDesc := { addr := 0xE0118, lo := 0, width := 64, acc := .ro, kept := .c }
def secSramUe : RegDesc := { addr := 0xE0120, lo := 0, width := 64, acc := .ro, kept := .c }
def secPktmemCe : RegDesc := { addr := 0xE0128, lo := 0, width := 64, acc := .ro, kept := .c }
def secPktmemUe : RegDesc := { addr := 0xE0130, lo := 0, width := 64, acc := .ro, kept := .c }
def secEventsCoalesced : RegDesc := { addr := 0xE0138, lo := 0, width := 64, acc := .ro, kept := .c }
def secPoisonOverflow : RegDesc := { addr := 0xE0140, lo := 0, width := 64, acc := .ro, kept := .c }

/-- The fields of R505. -/
def mapSecR505 : List RegDesc :=
  [secLifecycle, secServiceAllow, secSerial, secKeyRevoked, secSvnFusedSup, secSvnFusedPack, secSvnFloorSup, secSvnFloorPack, secSvnCommitSup, secSvnCommitPack, secCfgErr, secErasing, secService, secSigFail, secUnlockFail, secFabricParity, secSramCe, secSramUe, secPktmemCe, secPktmemUe] ++
  [secEventsCoalesced, secPoisonOverflow]

/-! ### PWR_ (22_power_package.md, R531) -/

def pwrEngOn : RegDesc := { addr := 0xF0000, lo := 0, width := 24, acc := .ro, rst := 0xFFFFFF, kept := .c }
def pwrEngGate : RegDesc := { addr := 0xF0008, lo := 0, width := 24, acc := .rw, kept := .c }
def pwrCfgErr : RegDesc := { addr := 0xF0010, lo := 0, width := 1, acc := .w1c, kept := .none }
def pwrAlert : RegDesc := { addr := 0xF0010, lo := 1, width := 1, acc := .ro, kept := .none }
def pwrSupplyFault : RegDesc := { addr := 0xF0010, lo := 8, width := 7, acc := .w1c, kept := .all }
def pwrTjWarn : RegDesc := { addr := 0xF0018, lo := 0, width := 8, acc := .rw, rst := 90, kept := .all, min := 60, max := 105 }
def pwrTjTrip : RegDesc := { addr := 0xF0018, lo := 8, width := 8, acc := .ro, rst := 105, kept := .all }
def pwrTjCrit : RegDesc := { addr := 0xF0018, lo := 16, width := 8, acc := .ro, rst := 110, kept := .all }
def pwrGrade : RegDesc := { addr := 0xF0018, lo := 24, width := 1, acc := .ro, kept := .all }
def pwrDomCause : RegDesc := { addr := 0xF0100, lo := 0, width := 3, n1 := 30, s1 := 0x8, acc := .ro, kept := .c }
def pwrTjNow : RegDesc := { addr := 0xF0200, lo := 0, width := 16, n1 := 30, s1 := 0x8, acc := .ro, rst := 0x8000, kept := .all }
def pwrTjMax : RegDesc := { addr := 0xF0200, lo := 16, width := 16, n1 := 30, s1 := 0x8, acc := .rc, rst := 0x8000, kept := .none }
def pwrTjMinutes : RegDesc := { addr := 0xF0300, lo := 0, width := 64, n1 := 8, s1 := 0x8, acc := .ro, kept := .all }
def pwrWarnEvents : RegDesc := { addr := 0xF0340, lo := 0, width := 64, acc := .ro, kept := .all }
def pwrTrips : RegDesc := { addr := 0xF0348, lo := 0, width := 64, acc := .ro, kept := .all }
def pwrOcTrips : RegDesc := { addr := 0xF0350, lo := 0, width := 64, acc := .ro, kept := .all }

/-- The fields of R531. -/
def mapPwrR531 : List RegDesc :=
  [pwrEngOn, pwrEngGate, pwrCfgErr, pwrAlert, pwrSupplyFault, pwrTjWarn, pwrTjTrip, pwrTjCrit, pwrGrade, pwrDomCause, pwrTjNow, pwrTjMax, pwrTjMinutes, pwrWarnEvents, pwrTrips, pwrOcTrips]

/-! ### The MSI-X table (16_host_interface.md, Table 16.2, R410), in the layout of PCI Express: PRESUMED (log 76) -/

def msixAddr : RegDesc := { addr := 0x100000, lo := 0, width := 64, n1 := 256, s1 := 0x10, acc := .rw, kept := .q }
def msixData : RegDesc := { addr := 0x100008, lo := 0, width := 32, n1 := 256, s1 := 0x10, acc := .rw, kept := .q }
def msixMask : RegDesc := { addr := 0x100008, lo := 32, width := 1, n1 := 256, s1 := 0x10, acc := .rw, rst := 1, kept := .q }
def msixPba : RegDesc := { addr := 0x101000, lo := 0, width := 64, n1 := 4, s1 := 0x8, acc := .ro, kept := .none }

/-- The fields of the MSI-X table and its pending bits. -/
def mapMsix : List RegDesc := [msixAddr, msixData, msixMask, msixPba]

/-- Every field of BAR0. -/
def regMap : List RegDesc :=
  mapEthR84 ++ mapEthR85 ++ mapFlwR115 ++ mapStpR138 ++ mapWldR155 ++ mapWodR183 ++ mapGlzR224 ++ mapMorR331 ++ mapMemR364 ++ mapTimR387 ++ mapSupR208 ++ mapSupR246 ++ mapSupR268 ++ mapSupR308 ++ mapSupR492 ++ mapMbxR415 ++ mapDbR415 ++ mapLakR449 ++ mapRngR473 ++ mapSecR505 ++ mapPwrR531 ++ mapMsix

end Sys2Proof.Machine
end

