-- ==== Sys2Proof/Machine/Ops.lean ====
section
/-! DEFINITION. The named operations that the meanings share: the parts of the state by number, device time, events
and their coalescing (R400, R495, R496), MSI-X (R410), writes of device units to the host-shared partition (R394),
completions (R405-R410), notices (R411), and the frame in which every supervisor command runs (R416-R431). -/

namespace Sys2Proof.Machine

/-- What a meaning answers. -/
abbrev Out := Host.Outcome State Fault Refusal

/-! ### Parts of the state by number -/

def State.chan (s : State) (ch : Nat) : Chan := tget s.chans ch {}
def State.setChan (s : State) (ch : Nat) (c : Chan) : State := { s with chans := tset s.chans ch c {} }
def State.modChan (s : State) (ch : Nat) (f : Chan → Chan) : State := s.setChan ch (f (s.chan ch))
def State.port (s : State) (p : Nat) : Port := tget s.ports p {}
def State.modPort (s : State) (p : Nat) (f : Port → Port) : State := { s with ports := tmod s.ports p {} f }
def State.tb (s : State) (n : Nat) : TimeBase := tget s.time.tb n {}
def State.modTb (s : State) (n : Nat) (f : TimeBase → TimeBase) : State :=
  { s with time := { s.time with tb := tmod s.time.tb n {} f } }
def State.eng (s : State) (e : Nat) : Engine := tget s.engines e {}
def State.modEng (s : State) (e : Nat) (f : Engine → Engine) : State := { s with engines := tmod s.engines e {} f }
def State.me (s : State) (e : Nat) : MorEngine := tget s.mor.engines e {}
def State.modMe (s : State) (e : Nat) (f : MorEngine → MorEngine) : State :=
  { s with mor := { s.mor with engines := tmod s.mor.engines e {} f } }
def State.mc (s : State) (m : Nat) : Mc := tget s.mem.mcs m {}
def State.modMc (s : State) (m : Nat) (f : Mc → Mc) : State :=
  { s with mem := { s.mem with mcs := tmod s.mem.mcs m {} f } }
def State.hq (s : State) (q : Nat) : HostQ := tget s.host.queues q {}
def State.modHq (s : State) (q : Nat) (f : HostQ → HostQ) : State :=
  { s with host := { s.host with queues := tmod s.host.queues q {} f } }
def State.link (s : State) (x : Nat) : RingLink := tget s.ring.links x {}
def State.modLink (s : State) (x : Nat) (f : RingLink → RingLink) : State :=
  { s with ring := { s.ring with links := tmod s.ring.links x {} f } }
def State.warden (s : State) (w : Nat) : Warden := tget s.sup.wardens w {}
def State.modWarden (s : State) (w : Nat) (f : Warden → Warden) : State :=
  { s with sup := { s.sup with wardens := tmod s.sup.wardens w {} f } }

/-- Draw a fresh index of a free value. -/
def State.draw (s : State) : State := { s with freeCtr := s.freeCtr + 1 }

/-- What a row does whose unit lies in the domains `ds`, while they are powered (Table 1.3); without power, nothing. -/
def State.whileOn (s : State) (ds : List Nat) (f : State → State) : State :=
  if ds.any s.pwr.domainsOff.contains then s else f s

/-! ### Time -/

/-- Nanoseconds of a number of microseconds, of milliseconds and of seconds. -/
def us (n : Nat) : Nat := n * 1000
def ms (n : Nat) : Nat := n * 1000000
def sec (n : Nat) : Nat := n * 1000000000

/-- The value of a time base. -/
def State.tbVal (s : State) (n : Nat) : Nat := (s.tb n).value.toNat

/-- One TCLK cycle of a time base: 1 ns plus FREQ in units of 2^-32 ns (R365). -/
def tbCycle (t : TimeBase) : TimeBase :=
  let whole : Nat := t.value.toNat * 2 ^ 32 + t.frac.toNat
  let next := wrapInt 96 ((whole : Int) + (2 ^ 32 : Nat) + t.freq)
  { t with value := BitVec.ofNat 64 (next / 2 ^ 32), frac := BitVec.ofNat 32 next }

/-- One TCLK cycle passes (R365): every time base advances. DESIGN CHOICE (log 1). -/
def tclkCycle (s : State) : State :=
  let t := fun n => tbCycle (s.tb n)
  let s1 := { s with now := s.now + 1 }
  s1.modTb 0 (fun _ => t 0) |>.modTb 1 (fun _ => t 1) |>.modTb 2 (fun _ => t 2) |>.modTb 3 (fun _ => t 3)

/-! ### MSI-X -/

/-- The list with `v`, once. -/
def addOnce (l : List Nat) (v : Nat) : List Nat := if v ∈ l then l else l ++ [v]

/-- Raise an MSI-X vector (R410). A masked one stays pending (PCI Express): PRESUMED (log 76). -/
def State.msi (s : State) (v : Nat) : State :=
  { s with host := { s.host with
      msix := addOnce s.host.msix v
      msixPend := if s.flag msixMask v then addOnce s.host.msixPend v else s.host.msixPend } }

/-- Set MBX_BOOT.STATE; a change signals vector 78 (R401, R410). A reset under way ends (SUP_RESET_STATUS.BUSY) with BOOT_WAIT
for COLD, with Bister's service for WARM and SUP. DESIGN CHOICE (log 45). -/
def State.boot (s : State) (b : Nat) : State :=
  let s1 := if b = 5 || b = 6 || b = 15 || (b = 2 && !s.flag mbxBootWarm) then s.wr supResetBusy 0 else s
  if s1.rd mbxBootState = b then s1 else (s1.wr mbxBootState b).msi 78

/-! ### Resets that meet (R477) -/

/-- A reset under way of scope `rank` (0 COLD, 1 WARM, 2 SUP) or wider. A COLD reset that nothing requested is under way until
BOOT_WAIT. -/
def State.inReset (s : State) (rank : Nat) : Bool :=
  (s.flag supResetBusy && decide (s.rd supResetLast ≤ rank)) || (decide (s.rd mbxBootState < 2) && !s.flag mbxBootWarm)

/-! ### Events -/

/-- UNIT of an event record: the block's prefix in the order of Table 16.2, SUP_ first (R495). -/
def uSUP : Nat := 0
def uTIM : Nat := 1
def uETH : Nat := 2
def uFLW : Nat := 3
def uSTP : Nat := 4
def uWLD : Nat := 5
def uWOD : Nat := 6
def uGLZ : Nat := 7
def uMOR : Nat := 8
def uMEM : Nat := 9
def uRNG : Nat := 10
def uLAK : Nat := 11
def uSEC : Nat := 12
def uPWR : Nat := 13
def uMBX : Nat := 14

/-- Severity of a vendor event: 0 Informational, 1 Warning, 2 Failure, 3 Fatal (Table 21.4, Table 22.4). LOCKSTEP is a
Failure when only one core is left, which its DETAIL1 of 1 says; DOMAIN_GATED is Informational for cause 1. -/
def eventSev (code detail1 : Nat) : Nat :=
  if code ∈ [0x0001, 0x0004, 0x0032, 0x0050, 0x0052, 0x0058] then 2
  else if code ∈ [0x0005, 0x0020, 0x0031, 0x0041] then 0
  else if code = 0x0003 then (if detail1 = 1 then 2 else 1)
  else if code = 0x0062 then 3
  else if code = 0x0071 then (if detail1 = 1 then 0 else 2)
  else if code = 0x0073 then 3
  else 1

/-- Add a record to a log; a full log drops it and counts the overflow (R400). -/
def State.logRec (s : State) (sev : Nat) (e : EventRec) : State :=
  let l := tget s.sup.logs sev {}
  let stamp := s.tbVal 0 + s.sup.tsOffset.toNat
  let l' : EventLog :=
    if l.records.length < 512 then
      { l with records := l.records ++ [{ e with handle := s.sup.nextHandle, tb0 := stamp }] }
    else
      { l with overflow := l.overflow + 1, firstOvf := if l.overflow = 0 then stamp else l.firstOvf, lastOvf := stamp }
  let n := if l.records.length < 512 then s.sup.nextHandle + 1 else s.sup.nextHandle
  State.msi { s with sup := { s.sup with logs := tset s.sup.logs sev l' {}, nextHandle := n } } (74 + sev)

/-- The event is the same for coalescing (R496). -/
def sameEvent (a b : EventRec) : Bool :=
  a.kind = b.kind && a.code = b.code && a.unit = b.unit && a.inst = b.inst && a.chan = b.chan

/-- The coalescing second of an event ends: one record with REPEAT and the count, if it was repeated (R496). -/
def State.flushEvent (s : State) (e : EventRec) : State :=
  match s.sup.coalesce.find? (fun c => sameEvent c.ev e) with
  | none => s
  | some c =>
    let s1 := { s with sup := { s.sup with coalesce := s.sup.coalesce.filter (fun c => !sameEvent c.ev e) } }
    if c.count = 0 then s1 else s1.logRec c.sev { c.ev with rep := true, count := c.count }

/-- Raise an event record of severity `sev` (R400, R495, R496). While Bister restarts it is kept for its return
(R386). -/
def State.raiseRec (s : State) (sev : Nat) (e : EventRec) : State :=
  if s.sup.restarting then
    { s with sup := { s.sup with lateEvents := s.sup.lateEvents ++ [(sev, { e with late := true })] } }
  else
    let ended := fun (c : Coalesce) => sameEvent c.ev e && decide (c.since + sec 1 ≤ s.now)
    let s0 := if s.sup.coalesce.any ended then s.flushEvent e else s
    if s0.sup.coalesce.any (fun c => sameEvent c.ev e) then
      State.bump { s0 with sup := { s0.sup with coalesce := s0.sup.coalesce.map (fun c =>
        if sameEvent c.ev e then { c with count := c.count + 1 } else c) } } secEventsCoalesced
    else
      State.logRec { s0 with sup := { s0.sup with coalesce := s0.sup.coalesce ++ [{ ev := e, sev := sev, since := s.now }] } } sev e

/-- Raise a vendor event of Table 21.4. -/
def State.raise (s : State) (code unit : Nat) (inst : Nat := 0) (chan : Nat := 0xFFFF) (detail0 : Nat := 0)
    (address : Nat := 0) (detail1 : Nat := 0) : State :=
  s.raiseRec (eventSev code detail1)
    { code := code, unit := unit, inst := inst, chan := chan, detail0 := detail0, address := address, detail1 := detail1 }

/-! ### Writes of device units to the host-shared partition -/

/-- Host offset of the host-shared partition (R337): the state-window partition is 128 MiB. -/
def hsBase : Nat := 0x8000000

/-- Bytes of the host-shared partition: HS_SIZE GiB (R337). -/
def State.hsBytes (s : State) : Nat := s.rd memHsSize * 2 ^ 30

/-- The two copies of a host-visible line, as lines of the device's physical memory: channel x 2^33 + line in it (R336, R338). -/
def State.copies (s : State) (line : Nat) : List Nat :=
  let q := s.mem.pairs.length
  match s.mem.pairs[(line / 64) % q]? with
  | none => []
  | some c =>
    let off := line / 64 / q * 64 + line % 64
    [c * 2 ^ 33 + off, (c + 4) * 2 ^ 33 + off]

/-- The poison of lines that are written whole, or whose contents are gone, is cleared and their entries leave the list (R497). -/
def State.unpoison (s : State) (p : Nat → Bool) : State :=
  { s with mem := { s.mem with poisoned := s.mem.poisoned.filter (fun d => !p d) }, sup := { s.sup with poison := s.sup.poison.filter (fun d => !p d) } }

/-- `n` credits of pool `k` are held, so far as it has them (R29, R414). -/
def State.holdPool (s : State) (k n : Nat) : State :=
  let p := tget s.host.pools k {}
  { s with host := { s.host with pools := tset s.host.pools k { p with held := min n p.total, free := p.total - min n p.total } {} } }

/-- The pools of the messages the device has outstanding: D2H requests (pool 3) and BISnp (pool 11) in CXL's order of message classes,
PRESUMED (log 100). -/
def State.syncPools (s : State) : State := (s.holdPool 3 s.host.cacheOut.length).holdPool 11 s.host.bisnp.length

/-- Back-invalidate one line the host may hold before a device unit writes it (R394). -/
def State.backInv (s : State) (line : Nat) : State :=
  if line ∈ s.host.snoop then
    (State.bump { s with host := { s.host with snoop := s.host.snoop.erase line, bisnp := s.host.bisnp ++ [line] } } mbxBisnp).syncPools
  else s

/-- A device unit writes whole lines or parts of lines of the host-shared partition at partition offset `off`: back
invalidation first (R394), then the bytes. A whole-line write clears the line's poison (R497). -/
def State.hsWrite (s : State) (off : Nat) (bs : List Byte) : State :=
  let first := (hsBase + off) / 64
  let last := (hsBase + off + bs.length - 1) / 64
  let lines := (List.range (last + 1 - first)).map (first + ·)
  let s1 := lines.foldl State.backInv s
  let whole := fun l => decide (hsBase + off ≤ l * 64) && decide (l * 64 + 64 ≤ hsBase + off + bs.length)
  State.unpoison { s1 with mem := { s1.mem with hostShared := msetList s1.mem.hostShared off bs } }
    (fun d => lines.any (fun l => whole l && (s1.copies l).contains d))

/-- 64-bit words as bytes (R5). -/
def wordBytes (ws : List Nat) : List Byte := ws.flatMap (leBytes 8)

/-! ### Completions -/

/-- Status codes of a completion (Table 16.6). -/
def stOK : Nat := 0
def stACCEPTED : Nat := 1
def stBUSY : Nat := 2
def stNO_RESOURCE : Nat := 3
def stBAD_PARAM : Nat := 4
def stBAD_STATE : Nat := 5
def stNOT_SUPPORTED : Nat := 6
def stINCOMPATIBLE : Nat := 7
def stDENIED : Nat := 8
def stTIMEOUT : Nat := 9
def stINTERNAL : Nat := 10

/-- CQ entries not yet free for a new completion: written and not consumed, or reserved (R407). A CQ, like an SQ,
holds one entry less than its size: DEDUCED (log 8). -/
def State.cqRoom (s : State) (q : Nat) : Nat :=
  let size := s.rd cqSize q
  let used := (s.rd cqTail q + size - (s.hq q).head) % size
  size - 1 - used - (s.hq q).reserved

/-- Signal a completion: at once, or when COAL_COUNT wait (R410). -/
def State.cqSignal (s : State) (q : Nat) : State :=
  let n := (s.hq q).unsignalled + 1
  let s1 := s.modHq q (fun h => { h with unsignalled := n, oldestAt := if h.unsignalled = 0 then s.now else h.oldestAt })
  if n ≥ s.rd qCoalCount q then (s1.modHq q (fun h => { h with unsignalled := 0 })).msi (s.rd qVec q) else s1

/-- The words of a completion entry (Table 16.6). -/
def cqWords (tag status detail sqHead qid : Nat) (phase : Bool) (res2 res3 : Nat) : List Nat :=
  [tag + status * 2 ^ 32 + detail * 2 ^ 40, sqHead + qid * 2 ^ 16 + b2n phase * 2 ^ 63, res2, res3]

/-- Write a completion into the CQ of queue q at CQ_TAIL, as one line write (R408), and signal it. Queue numbers of 64
and more stand for a completion that an FLR discarded (R413). -/
def State.postCq (s : State) (q tag status detail res2 res3 : Nat) : State :=
  if q ≥ 64 then s else
  let i := s.rd cqTail q
  let h := s.hq q
  let s1 := s.hsWrite (s.rd cqBase q + 32 * i) (wordBytes (cqWords tag status detail (s.rd sqHead q) q h.phase res2 res3))
  let wrap := i + 1 ≥ s.rd cqSize q
  let s2 := s1.wr cqTail (if wrap then 0 else i + 1) q
  (s2.modHq q (fun h => { h with phase := if wrap then !h.phase else h.phase, reserved := h.reserved - 1 })).cqSignal q

/-- Commands that complete with ACCEPTED first (Table 17.2). -/
def twoStage (op : Nat) : Bool := op = 0x41 || op = 0x70 || op = 0x71

/-- SNAPSHOT and STATS_READ are ordered against nothing (R428). -/
def unordered (op : Nat) : Bool := op = 0x80 || op = 0x81

/-- A channel command (R421). -/
def isChanCmd (op : Nat) : Bool := decide (0x10 ≤ op) && decide (op ≤ 0x25)

/-- The channel set of a command (R428). -/
def State.chanSet (s : State) (op w1 : Nat) : List Nat :=
  let ch := bits w1 0 16
  if !isChanCmd op then []
  else if op = 0x13 then [ch, bits w1 16 16]
  else if (op = 0x12 || op = 0x14 || op = 0x25) && (s.chan ch).st = .bound then [ch, (s.chan ch).peer]
  else [ch]

/-- The record of a taken command is gone; its queue has one command less outstanding. -/
def State.untake (s : State) (q tag : Nat) : State :=
  let s1 := { s with sup := { s.sup with taken := s.sup.taken.eraseP (fun t => t.qid = q && t.tag = tag) } }
  if s.sup.taken.any (fun t => t.qid = q && t.tag = tag && t.discard) then s1 else s1.modHq q (fun h => { h with outstanding := h.outstanding - 1 })

/-- The queue a completion goes to: 64, none, if an FLR discarded it (R413). -/
def State.cqOf (s : State) (q tag : Nat) : Nat :=
  if s.sup.taken.any (fun t => t.qid = q && t.tag = tag && t.discard) then 64 else q

/-- A completion waits for Bister's return (R481). -/
def State.defer (s : State) (d : Deferred) : State := { s with sup := { s.sup with deferred := s.sup.deferred ++ [d] } }

/-- A taken command completes, at Bister's return where it is away. A command of two stages that fails at once gives back the second
reserved entry. -/
def State.complete (s : State) (q tag op status detail res2 res3 : Nat) : State :=
  if s.sup.restarting then s.defer ⟨q, tag, op, status, detail, res2, res3, false⟩ else
  let s1 := if twoStage op && status != stACCEPTED
    then s.modHq q (fun h => { h with reserved := h.reserved - 1 }) else s
  let s2 := s1.postCq (s.cqOf q tag) tag status detail res2 res3
  s2.untake q tag

/-- The final completion of a command that completed with ACCEPTED (R427). -/
def State.completeFinal (s : State) (q tag status res2 res3 : Nat) : State :=
  if s.sup.restarting then s.defer ⟨q, tag, 0, status, 0, res2, res3, true⟩ else
  let s1 := s.postCq q tag status 0 res2 res3
  { s1 with sup := { s1.sup with finals := s1.sup.finals - 1 } }

/-- What applying a command comes to. `publish`: it completes after the first publication of each channel named;
`later`: another row completes it; `fail`: a refusal that leaves only what its rule names (a counter, an overwritten
block word). -/
inductive Reply where
  | refuse (status detail : Nat)
  | fail (s : State) (status detail : Nat)
  | done (s : State) (res2 res3 : Nat)
  | publish (s : State) (chans : List Nat)
  | accepted (s : State)
  | later (s : State)

/-- An earlier taken command holds this one back (R429, R430). -/
def State.heldBack (s : State) (q tag op : Nat) : Bool :=
  let own := fun (t : Taken) => t.qid = q && t.tag = tag
  let chans := ((s.sup.taken.find? own).map (·.chans)).getD []
  let earlier := s.sup.taken.takeWhile (fun t => !(t.qid = q && t.tag = tag))
  !unordered op && earlier.any (fun t => !unordered t.opcode &&
    ((t.qid = q && (!isChanCmd t.opcode || !isChanCmd op)) || t.chans.any (fun c => chans.contains c)))

/-- Bister serves commands (R401, Table 16.4; R431): READY or LIMITED, with PD-SUP powered and
clocked (Table 1.3, R520). -/
def State.served (s : State) : Bool := (s.rd mbxBootState = 5 || s.rd mbxBootState = 6) && !s.pwr.domainsOff.contains 25 && !s.pwr.sysLost

/-- Put a command that no COMMAND_FETCH recorded into the record of taken commands (R431). -/
def State.take (s : State) (q tag op w1 : Nat) : State :=
  let s1 := { s with sup := { s.sup with taken := s.sup.taken ++ [{ qid := q, tag := tag, opcode := op, chans := s.chanSet op w1 : Taken }] } }
  s1.modHq q (fun h => { h with outstanding := h.outstanding + 1, reserved := h.reserved + (if twoStage op then 2 else 1) })

/-- The state in which a command stands recorded as taken. -/
def State.taking (s : State) (q tag op w1 : Nat) : State :=
  if s.sup.taken.any (fun t => t.qid = q && t.tag = tag) then s else s.take q tag op w1

/-- Mark a taken command as applied. -/
def State.markApplied (s : State) (q tag : Nat) : State :=
  { s with sup := { s.sup with taken := s.sup.taken.map (fun t =>
    if t.qid = q && t.tag = tag then { t with applied := true } else t) } }

/-- A channel command writes its CMD_TAG into APPLIED of every channel it changes, and each needs a publication (R37,
R421). -/
def State.apply (s : State) (tag : Nat) (chans : List Nat) : State :=
  chans.foldl (fun s ch => s.modChan ch (fun c => { c with pub := { c.pub with applied := BitVec.ofNat 32 tag, due := true } })) s

/-! ### Notices -/

/-- Post a notice of 32 bytes in the notification queue, or drop and count it when the queue is full or disabled
(R411). `w1` without its PHASE bit. While Bister restarts, a notice waits for its return (R411, R481). -/
def State.notice (s : State) (w0 w1 w2 w3 : Nat) : State :=
  if s.sup.restarting then { s with sup := { s.sup with lateNotices := s.sup.lateNotices ++ [(w0, w1, w2, w3)] } } else
  let n := s.host.nq
  let count := s.rd nqCount
  let used := (n.tail + count - n.head) % count
  if !s.flag nqEn || used + 1 ≥ count then s.bump mbxNqDrop
  else
    let s1 := s.hsWrite (s.rd nqBase + 32 * n.tail) (wordBytes [w0, w1 + b2n n.phase * 2 ^ 63, w2, w3])
    let wrap := n.tail + 1 ≥ count
    State.msi { s1 with host := { s1.host with nq := { n with
      tail := if wrap then 0 else n.tail + 1, phase := if wrap then !n.phase else n.phase } } } (s.rd nqVec)

/-! ### Snapshots of books -/

/-- A snapshot of book `b` of Table 1.9 is requested. -/
def State.requestSnap (s : State) (req : RegDesc) (b : Nat) : State :=
  let s1 := s.wr req 1
  { s1 with sup := { s1.sup with snapAt := tset s1.sup.snapAt b s1.now 0 } }

/-- The event of a book audit that finds an imbalance (R30): DETAIL0 the row of Table 1.9, DETAIL1 the difference. The numbers are a DESIGN
CHOICE (log 99). -/
def State.auditFail (s : State) (quantity difference : Nat) : State :=
  s.raise 0x0001 uSUP 0 0xFFFF quantity 0 difference

end Sys2Proof.Machine
end

