-- ==== Sys2Proof/Machine/Settings.lean ====
section
/-! DEFINITION. The groups of Table 17.1 as a channel's settings now stand (R463): the words a SETTINGS body carries. -/

namespace Sys2Proof.Machine

/-- A group: its head word and its content words (R418). -/
def groupOf (type : Nat) (ws : List Word64) : List Word64 := packWord [(type, 0, 8), (ws.length, 8, 8)] :: ws

/-- The 128 bits of an address in two words. -/
def addrWords (a : BitVec 128) : List Word64 := [BitVec.ofNat 64 a.toNat, BitVec.ofNat 64 (a.toNat / 2 ^ 64)]

def idGroup (c : Chan) : List Word64 :=
  groupOf 1 [packWord [(c.hostTag.toNat, 0, 16), (c.tb, 16, 2), (b2n c.xrEn, 18, 1), (c.ext, 32, 16)]]

def rxGroup (r : RxCodec) : List Word64 :=
  let alt := fun (i : Nat) => (r.alts.getD i 0, 8 * i, 7)
  groupOf 2 [packWord [(r.codec, 0, 8), (r.period, 8, 4), (r.pt, 12, 7), (r.cnPt, 20, 7), (b2n r.format, 27, 1), (r.alts.length, 28, 3)],
    packWord [alt 0, alt 1, alt 2, alt 3]]

def txGroup (t : TxCodec) : List Word64 :=
  groupOf 3 [packWord [(t.codec, 0, 8), (t.period, 8, 4), (t.pt, 12, 7), (b2n t.dtx, 19, 1), (b2n t.cmrFollow, 20, 1), (b2n t.format, 21, 1),
    (b2n t.mcp2, 22, 1), (b2n t.mcn, 23, 1), (t.txMode, 24, 5), (t.evsBw, 29, 2), (t.sidMax, 32, 13), (t.opusRate, 45, 9), (t.opusBw, 54, 3)],
    packWord [(t.modeSet.toNat, 0, 32)]]

def flowGroup (f : FlowSet) : List Word64 :=
  groupOf 4 (packWord [(f.ethPort, 0, 2), (f.vid, 2, 12), (f.keyType, 14, 1), (f.rtcp, 15, 2), (b2n f.eventEn, 17, 1), (f.eventPt, 18, 7),
    (f.quota, 25, 7), (f.localPort, 32, 16), (f.remotePort, 48, 16)] :: (addrWords f.localAddr ++ addrWords f.remoteAddr))

/-- Twelve words of the bytes of a template. -/
def templateWords (b : List Byte) : List Word64 := (List.range 12).map (fun i => BitVec.ofNat 64 (leNat ((b.drop (8 * i)).take 8)))

def templateGroup (type : Nat) (t : Template) : List Word64 :=
  groupOf type (packWord [(t.length, 0, 7), (t.ipOff, 8, 7), (t.udpOff, 16, 7), (t.rtpOff, 24, 7), (t.egress, 32, 2)] :: templateWords t.bytes)

def jitterGroup (j : JitterSet) : List Word64 :=
  groupOf 6 [packWord [(j.depth, 0, 16), (j.adaptStart, 16, 16), (j.adaptMin, 32, 16), (j.adaptMax, 48, 16)],
    packWord [(j.margin, 0, 16), (j.window, 16, 4), (j.phaseSpan, 20, 8), (j.forceAfter, 28, 10), (b2n j.adaptive, 38, 1)]]

def echoGroup (e : EchoSet) : List Word64 :=
  groupOf 7 [packWord [(b2n e.ecOn, 0, 1), (b2n e.fixed, 1, 1), (b2n e.freeze, 2, 1), (e.nlpMode, 4, 2), (e.disabler, 6, 2), (b2n e.ecVbd, 8, 1),
    (e.tailMax, 9, 10), (e.initDelay, 19, 9), (e.lead, 28, 5)],
    packWord [(e.win0Fix, 0, 9), (e.win1Fix, 9, 9), (b2n e.win1Off, 18, 1), (e.cngMax, 19, 6), (e.dtMargin, 25, 5)]]

def toneGroup (t : ToneSet) : List Word64 :=
  groupOf 8 [packWord [(t.detMask.toNat, 0, 8), (t.notify.toNat, 8, 8), (t.dtmfMin, 16, 6), (t.twistFwd, 22, 5), (t.twistRev, 27, 5), (b2n t.ctFreq, 32, 1),
    (b2n t.clamp, 33, 1), (t.evtTxPt, 34, 7), (t.evtTxMask, 41, 2), (t.evtRxAct, 43, 2)], packWord [(t.cpMask.toNat, 0, 32)]]

def glazeGroup (g : GlazeSet) : List Word64 :=
  groupOf 9 [packWord [(g.setEc, 0, 8), (g.setTx, 8, 8), (g.rank, 16, 4), (g.rankThresh, 20, 15)]]

def fecGroup (f : FecSet) : List Word64 :=
  groupOf 10 [packWord [(f.rxFec, 0, 2), (f.txFec, 2, 2), (f.redGens, 4, 2), (f.redPt, 6, 7), (f.ffK, 13, 9), (f.ffR, 22, 8), (f.ffE / 16, 30, 7),
    (f.ffN1, 37, 3), (f.maxPasses, 40, 7), (f.timeout, 47, 11)], packWord [(f.seed, 0, 32), (f.repairPort, 32, 16)]]

def faxGroup (f : FaxSet) : List Word64 :=
  groupOf 13 [packWord [(f.mode, 0, 2), (b2n f.autoPt, 2, 1), (f.returnIdle, 3, 7), (f.detLevel, 10, 6), (f.captureDb, 16, 5), (f.txLevel, 21, 6),
    (f.version, 27, 2), (b2n f.rateMgmt, 29, 1), (b2n f.errRec, 30, 1), (f.maxRate, 31, 3), (f.redCtl, 34, 3), (f.redImg, 37, 2), (f.fecSpan, 39, 5),
    (f.fecEntries, 44, 3), (f.dataPeriod, 47, 2), (f.reorder, 49, 7), (f.textTx, 56, 2), (f.textRed, 58, 2)],
    packWord [(f.port, 0, 16), (f.maxDgram, 16, 11), (f.textPt, 27, 7)]]

/-- Words 2 to 7 of an SRTP group: key and salt. -/
def keyWords (k : SrtpKey) : List Word64 :=
  (List.range 4).map (fun i => BitVec.ofNat 64 (k.key.toNat / 2 ^ (64 * i))) ++ (List.range 2).map (fun i => BitVec.ofNat 64 (k.salt.toNat / 2 ^ (64 * i)))

/-- The keys a channel holds by direction, the current one before the pending one, and the number at which the latter takes over. -/
def heldKeys (c : Chan) : List (Nat × SrtpKey × Option Nat) :=
  (c.srx.current.toList ++ c.srx.pendingKey.toList).map (fun k => (0, k, none)) ++
    c.stx.current.toList.map (fun k => (1, k, none)) ++ c.stx.pendingKey.toList.map (fun k => (1, k, c.stx.atSeq))

/-- A wrapped SRTP group of a key: WORDS 10, words 2 to 7 as ciphertext, the counter, the tag (R463). -/
def wrappedGroup (pairing ctr : Nat) (x : Nat × SrtpKey × Option Nat) : List Word64 :=
  let k := x.2.1
  let w := Config.gcmSeal pairing ctr (keyWords k)
  groupOf 12 (packWord [(x.1, 0, 1), (k.suite, 1, 3), (k.mkiLen, 4, 3), (b2n x.2.2.isSome, 7, 1), (x.2.2.getD 0, 8, 16), (k.mki, 32, 32)] :: (w.take 6 ++ [BitVec.ofNat 64 ctr] ++ (w.drop 6).take 2))

/-- The SRTP groups of a channel, with counters from `ctr` up. A pending key follows the current one of its direction (log 28). -/
def srtpGroups (pairing ctr : Nat) (c : Chan) : List Word64 :=
  ((heldKeys c).zipIdx ctr).flatMap (fun x => wrappedGroup pairing x.2 x.1)

/-- Every group of a channel as it now stands. -/
def settingsGroups (pairing ctr : Nat) (c : Chan) : List Word64 :=
  idGroup c ++ rxGroup c.rx ++ txGroup c.tx ++ flowGroup c.flows ++ templateGroup 5 c.tmpl ++ jitterGroup c.jit ++ echoGroup c.ecs ++ toneGroup c.tns ++
    glazeGroup c.gls ++ fecGroup c.fec ++ (match c.repair with | none => [] | some t => templateGroup 11 t) ++ srtpGroups pairing ctr c ++ faxGroup c.fax

end Sys2Proof.Machine
end

