-- ==== Sys2Proof/Machine/RingOps.lean ====
section
/-! DEFINITION. What a ring port sends (R455-R457): sequenced and credited frames of control messages and mirrored bodies, their
replay buffer, and the SETTINGS that follow a channel command (R463). -/

namespace Sys2Proof.Machine

/-! ### The member's place in the ring -/

/-- The member is inserted: switches open, both links trained (R453). -/
def State.inserted (s : State) : Bool := s.rd rngState = 3

/-- The channel is one of the member's HOME range under a pairing (R461). -/
def State.mirrored (s : State) (ch : Nat) : Bool :=
  s.flag rngPaired && decide (s.rd rngHomeFirst ≤ ch) && decide (ch < s.rd rngHomeFirst + s.rd rngHomeCount)

/-- The channel is one of the UP range under a pairing, whose member has not been adopted (R53). -/
def State.inUp (s : State) (ch : Nat) : Bool :=
  s.flag rngPaired && decide (s.rd rngUpFirst ≤ ch) && decide (ch < s.rd rngUpFirst + s.rd rngUpCount) && s.rd rngUpState != 5

def State.hm (s : State) (ch : Nat) : HomeMirror := tget s.ring.home ch {}
def State.modHm (s : State) (ch : Nat) (f : HomeMirror → HomeMirror) : State :=
  { s with ring := { s.ring with home := tmod s.ring.home ch {} f } }
def State.mir (s : State) (ch : Nat) : Mirror := tget s.ring.mirror ch {}
def State.setMir (s : State) (ch : Nat) (m : Mirror) : State := { s with ring := { s.ring with mirror := tset s.ring.mirror ch m {} } }

/-- A fresh token. -/
def State.newToken (s : State) : State := { s with ring := { s.ring with token := s.ring.token + 1 } }

/-! ### Sizes -/

/-- Bytes of a DELTA or SYNC body (R465). -/
def deltaLen (b : DeltaBody) : Nat := 32 + b.sections.foldl (fun a x => a + 8 + 8 * x.2.length) 0

/-- Bytes of a body's content (R463, R465) or of a CONTROL payload (Table 19.3), padded to 8. -/
def msgLen : RingMsg → Nat
  | .identity _ => 32
  | .pairOffer .. => 120
  | .pairConfirm .. => 120
  | .hold _ => 16
  | .ctxRequest .. => 16
  | .settings b => 8 + 8 * b.groups.length
  | .delta b _ => deltaLen b
  | .sync b _ => deltaLen b
  | .relay _ _ n => n
  | _ => 8

/-- TYPE 3 to 5: a body that takes DATA units. -/
def isBody : RingMsg → Bool
  | .settings _ | .delta .. | .sync .. => true
  | _ => false

/-- Credit units of a frame with `n` bytes of payload: header, payload and CRC in units of 64 bytes (R456). -/
def unitsOf (n : Nat) : Nat := (16 + n + 4 + 63) / 64

/-! ### Sending -/

/-- One sequenced frame leaves port x: it enters the replay buffer, and units freed go back in its header. -/
def State.sendFrame (s : State) (x dst n : Nat) (data : Bool) (msg : Option RingMsg) : State :=
  let u := unitsOf n
  (s.modLink x (fun l => { l with
    txSeq := l.txSeq + 1, unacked := l.unacked ++ [{ seq := l.txSeq + 1, units := u, data := data, dst := dst, msg := msg }]
    dataAvail := if data then l.dataAvail - u else l.dataAvail, ctlAvail := if data then l.ctlAvail else l.ctlAvail - u
    dataFreed := l.dataFreed + BitVec.ofNat 12 l.dataDue, ctlFreed := l.ctlFreed + BitVec.ofNat 8 l.ctlDue, dataDue := 0, ctlDue := 0, sendNak := false })).bump rngFramesTx x

/-- The next frame that port x can send, if credits allow: a waiting CONTROL message, the next fragment of the body under way, or
the first fragment of a waiting body. -/
def State.sendNext (s : State) (x : Nat) : Option State :=
  let l := s.link x
  match l.waiting.find? (fun w => !isBody w.2 && decide (unitsOf (msgLen w.2) ≤ l.ctlAvail)) with
  | some w => some ((s.modLink x (fun l => { l with waiting := l.waiting.erase w })).sendFrame x w.1 (msgLen w.2) false (some w.2))
  | none =>
    match l.sending with
    | some (dst, m, left) =>
      let n := min 1024 left
      if l.dataAvail < unitsOf n then none
      else if left ≤ 1024 then some ((s.modLink x (fun l => { l with sending := none })).sendFrame x dst n true (some m))
      else some ((s.modLink x (fun l => { l with sending := some (dst, m, left - n) })).sendFrame x dst n true none)
    | none =>
      match l.waiting.find? (fun w => isBody w.2) with
      | none => none
      | some w => if l.dataAvail < unitsOf (min 1024 (msgLen w.2)) then none
        else some (s.modLink x (fun l => { l with waiting := l.waiting.erase w, sending := some (w.1, w.2, msgLen w.2) }))

/-- Send for as long as credits last. -/
def State.pump : Nat → State → Nat → State
  | 0, s, _ => s
  | n + 1, s, x => match s.sendNext x with
    | none => s
    | some t => State.pump n t x

/-- A message goes out of port x to `dst`; it waits for credits where it must, and CREDIT_STALL counts it. A port without a
trained link sends nothing. -/
def State.ringSend (s : State) (x dst : Nat) (m : RingMsg) : State :=
  if !s.flag rngPortLinkUp x then s else
  let s1 := (s.modLink x (fun l => { l with waiting := l.waiting ++ [(dst, m)] })).pump 1024 x
  if (s1.link x).waiting.isEmpty && (s1.link x).sending.isNone then s1 else s1.bump rngCreditStall x

/-- A CONTROL message to a member: out of the port it is adjacent to, else out of both. -/
def State.sendTo (s : State) (dst : Nat) (m : RingMsg) : State :=
  if s.rd rngPortAdjPos 0 = dst && s.rd rngPortAdjPos 1 != dst then s.ringSend 0 dst m
  else if s.rd rngPortAdjPos 1 = dst && s.rd rngPortAdjPos 0 != dst then s.ringSend 1 dst m
  else (s.ringSend 0 dst m).ringSend 1 dst m

/-- A message out of both ports. -/
def State.sendBoth (s : State) (dst : Nat) (m : RingMsg) : State := (s.ringSend 0 dst m).ringSend 1 dst m

/-! ### SETTINGS after a channel command (R463) -/

/-- The SETTINGS body of a channel. A CLOSING channel's body carries STATE FREE. -/
def State.settingsBody (s : State) (ch : Nat) : SettingsBody :=
  let c := s.chan ch
  { ch := Fin.ofNat 65536 ch, state := match c.st with | .open => 1 | .bound => 2 | _ => 0
    peer := Fin.ofNat 65536 c.peer, hostTag := c.hostTag, cmdTag := BitVec.ofNat 16 c.pub.applied.toNat
    groups := settingsGroups (s.sup.vault.pairingKey.getD 0) (s.sup.vault.wrapCounter + 1) c }

/-- Send a channel's SETTINGS downstream; the wrap counter has risen by 1 per wrapped group. -/
def State.sendSettings (s : State) (ch : Nat) : State :=
  let n := (heldKeys (s.chan ch)).length
  let s1 := (s.ringSend 0 (s.rd rngPosDown) (.settings (s.settingsBody ch))).modHm ch (fun h => { h with settingsAt := some s.now })
  { s1 with sup := { s1.sup with vault := { s1.sup.vault with wrapCounter := s1.sup.vault.wrapCounter + n } } }

end Sys2Proof.Machine
end

