-- ==== Sys2Proof/Machine/Codec.lean ====
section
/-! DEFINITION. The codec set, modes, kernels and the planned load (spec/08_codecs_transcoding.md), and slot sizes
(R117). -/

namespace Sys2Proof.Machine

/-- Frame period in ms by PERIOD code (Table 2.3). -/
def periodMs : Nat → Nat
  | 0 => 5
  | 1 => 10
  | 2 => 20
  | 3 => 30
  | 4 => 40
  | _ => 60

/-- Frame period in ns. -/
def periodNs (p : Nat) : Nat := ms (periodMs p)

/-- RTP clock rate of a codec (Table 8.1). -/
def clockRate (codec : Nat) : Nat :=
  if codec = 9 then 48000 else if codec = 6 || codec = 7 || codec = 8 then 16000 else 8000

/-- PERIOD codes a codec allows (Table 8.1). -/
def codecPeriods (codec : Nat) : List Nat :=
  if codec = 1 || codec = 2 || codec = 3 then [0, 1, 2, 3, 4, 5]
  else if codec = 4 then [1, 2, 3, 4, 5]
  else if codec = 9 then [1, 2, 4, 5]
  else if 5 ≤ codec && codec ≤ 8 then [2, 4, 5]
  else []

/-- Largest receive payload per 20 ms (Table 8.1). -/
def payload20 (codec : Nat) : Nat :=
  match codec with
  | 1 | 2 | 3 => 160
  | 4 => 20
  | 5 => 33
  | 6 => 62
  | 7 | 8 => 322
  | 9 => 1275
  | _ => 0

/-- Largest primary payload at a period (R184). -/
def largestPayload (codec period : Nat) : Nat := payload20 codec * periodMs period / 20

/-- Encoder frame in ms (R189). -/
def encoderFrame (codec : Nat) : Nat :=
  if 1 ≤ codec && codec ≤ 3 then 5 else if codec = 4 || codec = 9 then 10 else 20

/-- Audio rate code FS of a codec under the bandwidths of the channel's TX_CODEC group (R184). -/
def codecFs (codec evsBw opusBw : Nat) : Nat :=
  match codec with
  | 3 | 6 | 8 => 1
  | 7 => evsBw
  | 9 => if opusBw = 0 then 0 else if opusBw ≤ 2 then 1 else 3
  | _ => 0

/-- FS of RX_CODEC and of TX_CODEC of a channel. -/
def rxFs (c : Chan) : Nat := codecFs c.rx.codec c.tx.evsBw c.tx.opusBw
def txFs (c : Chan) : Nat := codecFs c.tx.codec c.tx.evsBw c.tx.opusBw

/-- Canceller rate code: 8 kHz on an 8 kHz leg, else 16 kHz (R157). -/
def cancellerFs (c : Chan) : Nat := if rxFs c = 0 then 0 else 1

/-- MODE values a codec defines, SID left out (Table 8.2). -/
def codecModes (codec : Nat) : List Nat :=
  match codec with
  | 1 | 2 | 4 => [0]
  | 3 | 9 => [0, 1, 2]
  | 5 => List.range 8
  | 6 => List.range 9
  | 7 => List.range 12 ++ (List.range 9).map (16 + ·)
  | 8 => (List.range 9).map (16 + ·)
  | _ => []

/-- MODE values that stand for SID frames (Table 8.2). -/
def isSidMode (codec m : Nat) : Bool :=
  (codec = 5 && m = 8) || (codec = 6 && m = 9) || ((codec = 7 || codec = 8) && (m = 12 || m = 25))

/-- Bit rate of a mode in b/s (Table 8.2); SID and Opus frames, which have none of their own: that of their `bytes` over `period` ms. -/
def bitRate (codec mode bytes period : Nat) : Nat :=
  let io := [6600, 8850, 12650, 14250, 15850, 18250, 19850, 23050, 23850]
  let own := bytes * 8000 / max 1 period
  match codec with
  | 1 | 2 => 64000
  | 3 => 64000 - 8000 * mode
  | 4 => 8000
  | 5 => [4750, 5150, 5900, 6700, 7400, 7950, 10200, 12200].getD mode own
  | 6 => io.getD mode own
  | 7 | 8 => if 16 ≤ mode then io.getD (mode - 16) own else [5900, 7200, 8000, 9600, 13200, 16400, 24400, 32000, 48000, 64000, 96000, 128000].getD mode own
  | _ => own

/-- MODE of a SID that a codec sends beside a mode (Table 8.2). -/
def sidMode (codec mode : Nat) : Nat :=
  match codec with
  | 5 => 8
  | 6 => 9
  | 7 | 8 => if 16 ≤ mode then 25 else 12
  | _ => 0

/-- An EVS mode fits a coded bandwidth: IO modes always, primary modes under R185. -/
def evsModeFits (bw m : Nat) : Bool :=
  decide (16 ≤ m) ||
  (match bw with
   | 0 => decide (m ≤ 6)
   | 1 => true
   | 2 => decide (3 ≤ m)
   | _ => decide (5 ≤ m))

/-- The modes permitted by a MODE_SET at a coded bandwidth (R198). -/
def permittedModes (codec : Nat) (modeSet : Word32) (bw : Nat) : List Nat :=
  (codecModes codec).filter (fun m => modeSet.getLsbD m && (codec != 7 || evsModeFits bw m))

/-- TX_MODE is one the codec may encode (R198). -/
def txModeValid (codec evsBw m : Nat) : Bool := (codecModes codec).contains m && (codec != 7 || evsModeFits evsBw m)

/-- The mode used for a requested mode: itself where permitted, else the highest permitted below it, else the lowest
permitted (R198). -/
def boundMode (permitted : List Nat) (m : Nat) : Nat :=
  if permitted.contains m then m
  else match (permitted.filter (· < m)).getLast? with
    | some k => k
    | none => permitted.headD m

/-- Decode and encode cost of one mode, engine-us per 20 ms (Table 8.4). -/
def modeCost (codec m opusRate : Nat) : Nat × Nat :=
  match codec with
  | 1 | 2 => (6, 6)
  | 3 => (30, 40)
  | 4 => (30, 150)
  | 5 => (80, 250)
  | 6 => (115, 336)
  | 7 | 8 =>
    if 16 ≤ m then (190, 520) else if m ≤ 4 then (420, 640) else if m ≤ 6 then (560, 784)
    else if m ≤ 9 then (600, 860) else (640, 900)
  | 9 => if opusRate ≤ 32 then (260, 560) else (300, 640)
  | _ => (0, 0)

/-- The costliest of some modes. -/
def costliest (codec : Nat) (modes : List Nat) (opusRate : Nat) : Nat × Nat :=
  modes.foldl (fun a m => let c := modeCost codec m opusRate; (max a.1 c.1, max a.2 c.2)) (0, 0)

/-- Glaze conversions of a job (R187, R212): stage 2 where the decoded rate is above the canceller's or RANK is on;
stage 5 where the encoder's rate is neither the decoded rate nor the one stage 2 made. -/
def conversions (c : Chan) (encFs : Option Nat) : Nat :=
  let two := rxFs c ≥ 2 || c.gls.rank != 0
  let five := match encFs with
    | none => false
    | some f => f != rxFs c && !(two && f = cancellerFs c)
  b2n two + b2n five

/-- Job overhead of 15 us for each job, in engine-us per second. -/
def jobOverhead (period : Nat) : Nat := 15 * 1000 / periodMs period

/-- Planned load of a channel's job in sixteenths of an engine-us per second (R202, R207): components scale with the
period, the job overhead of 15 us is charged once per job, sixteen lanes share it. `peer`: the channel it sends on. -/
def jobLoad (c : Chan) (peer : Option Chan) : Nat :=
  if c.vbd.state = 2 || c.vbd.state = 3 then
    -- Saffron jobs run each 5 ms at their own figures (R202).
    (if c.vbd.relay then 220 else 600) * 200
  else
    let dec := (costliest c.rx.codec (permittedModes c.rx.codec c.tx.modeSet c.tx.evsBw) c.tx.opusRate).1
    let enc := match peer with
      | none => 0
      | some p => (costliest p.tx.codec (permittedModes p.tx.codec p.tx.modeSet p.tx.evsBw) p.tx.opusRate).2
    let wide := cancellerFs c = 1
    let echo := if c.ecs.ecOn then (if wide then 150 else 38) else 0
    let tone := if wide then 26 else 12
    (dec + enc + echo + tone + 5 * conversions c (peer.map txFs)) * 50 + jobOverhead c.rx.period

/-- The descriptor of an extension kernel in the active pack (Table 12.11): epoch, entry, mode, IEN, context bytes, slot
bytes, PERIODS, COST_BEFORE, COST_AFTER. -/
def State.extDesc (s : State) (id : Nat) : Option (List Nat) :=
  s.img.pack.bind (fun p => (p.descs.find? (fun d => d.1 = id)).map (·.2))

/-- The pack in an engine's PMEM: during a rollout the new one where the engine has been reset into it (R488). -/
def State.packFor (s : State) (e : Nat) : Option Image := if s.img.rolloutEng.contains e then s.img.target else s.img.pack

/-- Load of an extension job (R305): its declared costs, in 0.1 engine-us per 20 ms, and the job overhead. -/
def extLoad (d : List Nat) (period : Nat) : Nat := (d.getD 7 0 + d.getD 8 0) * 5 + jobOverhead period

/-- Planned load of a channel as it stands. -/
def State.loadOf (s : State) (ch : Nat) : Nat :=
  let c := s.chan ch
  let own := fun (peer : Option Chan) => match s.extDesc c.ext with
    | some d => if c.ext = 0 then jobLoad c peer else extLoad d c.rx.period
    | none => jobLoad c peer
  match c.st with
  | .open => own none
  | .bound => own (some (s.chan c.peer))
  | _ => 0

/-- The sum of the planned loads of every channel, sixteenths. -/
def State.plannedSum (s : State) : Nat := s.chans.foldl (fun a e => a + s.loadOf e.1) 0

/-- Keep SUP_LOAD_PLANNED at the planned load (R207). -/
def State.replan (s : State) : State := s.wr supLoadPlanned (s.plannedSum / 16)

/-- The change from `s` to `t` would raise the planned load above the limit (R207). -/
def overLoad (s t : State) : Bool :=
  decide (t.plannedSum > s.plannedSum) && decide (t.plannedSum > s.rd supLoadLimit * 1000000 * 16)

/-- Encoder code of a channel's job: TX_CODEC of the peer, 0 while unbound (R187). -/
def State.encCodec (s : State) (ch : Nat) : Nat :=
  let c := s.chan ch
  if c.st = .bound then (s.chan c.peer).tx.codec else 0

/-- KERNEL_ID of a channel's job (R187): an extension kernel where one is set. -/
def State.kernelOf (s : State) (ch : Nat) : Nat :=
  let c := s.chan ch
  if c.ext != 0 then c.ext else c.rx.codec + 256 * s.encCodec ch

/-- The skein key of a channel's tasks (R188). -/
def State.keyOf (s : State) (ch : Nat) : SkeinKey :=
  let c := s.chan ch
  { kernel := s.kernelOf ch, mode := if c.st = .bound then (s.chan c.peer).ctx.encMode else 0, period := c.rx.period, tb := c.tb }

/-- The two periods of a job suit each other and the encoder's frame (R189). -/
def periodsFit (rx tx : Nat) (encoder : Nat) : Bool :=
  let a := periodMs rx
  let b := periodMs tx
  (a % b = 0 || b % a = 0) && a % encoderFrame encoder = 0 && b % encoderFrame encoder = 0

/-- The largest payload that a jitter slot must hold (R117). -/
def slotNeed (c : Chan) : Nat :=
  let f := largestPayload c.rx.codec c.rx.period
  if c.fec.rxFec = 1 || c.fec.rxFec = 3 then f + 3 * (4 + min f 1023) + 1 else f

/-- Octets that the redundancy of R151 adds to the largest payload: up to RED_GENS blocks with their headers, and the final header. -/
def redOctets (codec period : Nat) (f : FecSet) : Nat :=
  if (f.txFec = 1 || f.txFec = 3) && f.redGens != 0 then f.redGens * (4 + min (largestPayload codec period) 1023) + 1 else 0

/-- Slot size: the smallest power of two from 128 to 4,096 bytes that holds header and payload (R117). -/
def slotSizeOf (c : Chan) : Nat :=
  let n := 32 + slotNeed c
  if n ≤ 128 then 128 else if n ≤ 256 then 256 else if n ≤ 512 then 512 else if n ≤ 1024 then 1024
  else if n ≤ 2048 then 2048 else 4096

end Sys2Proof.Machine
end

