-- ==== Sys2Proof/Machine/Xr.lean ====
section
/-! DEFINITION. The figures and blocks of RFC 3611 (R137, Table 5.5). The formulas and block formats are that standard's, PRESUMED
(log 54). -/

namespace Sys2Proof.Machine

/-- One interarrival transit variation, in RTP units. -/
def xrTransit (d : Nat) (x : Xr) : Xr :=
  { x with tvMin := if x.tvCount = 0 then d else min x.tvMin d, tvMax := max x.tvMax d, tvSum := x.tvSum + d, tvSq := x.tvSq + d * d, tvCount := x.tvCount + 1 }

/-- A frame played. -/
def xrGood (x : Xr) : Xr := { x with played := x.played + 1, good := x.good + 1 }

/-- A frame lost or discarded: the transition counts of RFC 3611 with a minimum gap of `gmin` frames. -/
def xrLoss (gmin : Nat) (x : Xr) : Xr :=
  if gmin ≤ x.good then
    { x with c14 := x.c14 + b2n (x.lost = 1), c13 := x.c13 + b2n (x.lost != 1), lost := 1, c11 := x.c11 + x.good, good := 0 }
  else if x.good = 0 then { x with lost := x.lost + 1, c33 := x.c33 + 1 }
  else { x with lost := x.lost + 1, c23 := x.c23 + 1, c22 := x.c22 + (x.good - 1), good := 0 }

/-- A fraction of RFC 3611: n of m in 1/256. -/
def xrFraction (n m : Nat) : Nat := if m = 0 then 0 else min 255 (256 * n / m)

/-- Frames that never arrived: absent at their tick and not late after all (R137). -/
def neverArrived (x : Xr) : Nat := x.absent - x.late

/-- Frames of an interval. -/
def xrDue (x : Xr) : Nat := x.played + x.absent + x.dropped

/-- The whole square root, by bits from 2^(n-1) down. -/
def isqrt (v : Nat) : Nat → Nat → Nat
  | 0, r => r
  | n + 1, r => let t := r + 2 ^ n; isqrt v n (if t * t ≤ v then t else r)

/-- Least, greatest, mean and standard deviation of the transit variation (Statistics Summary), each in 16 bits. -/
def xrVariation (x : Xr) : List Nat :=
  let mean := if x.tvCount = 0 then 0 else x.tvSum / x.tvCount
  let var := if x.tvCount = 0 then 0 else x.tvSq / x.tvCount - mean * mean
  [x.tvMin, x.tvMax, mean, isqrt var 32 0].map (min 65535)

/-- Burst density, gap density, burst duration and gap duration in ms (VoIP Metrics), for frames of `m` ms. -/
def xrBursts (m : Nat) (x : Xr) : List Nat :=
  let c31 := x.c13
  let c32 := x.c23
  let total := x.c11 + x.c14 + x.c13 + x.c22 + x.c23 + c31 + c32 + x.c33
  -- p32 = c32 / (c31 + c32 + c33), p23 = 1 - c22 / (c22 + c23); the density is p23 / (p23 + p32).
  let q32 := c31 + c32 + x.c33
  let a := (if x.c22 + x.c23 = 0 then 1 else x.c23) * q32
  let b := c32 * (if x.c22 + x.c23 = 0 then 1 else x.c22 + x.c23)
  let gap := if x.c13 = 0 then 0 else (x.c11 + x.c14 + x.c13) * m / x.c13
  let burst := if x.c13 = 0 then 0 else total * m / x.c13 - gap
  [if x.c13 = 0 then 0 else xrFraction a (a + b), xrFraction x.c14 (x.c11 + x.c14), min 65535 burst, min 65535 gap]

/-- Loss and discard rates. -/
def xrRates (x : Xr) : List Nat := [xrFraction (neverArrived x) (xrDue x), xrFraction (x.late + x.dropped) (xrDue x)]

/-! ### Blocks -/

/-- Bits of the numbers from PLAY_SEQ - 512 up, as bit-vector chunks of 15 bits and a null chunk that fills the last word. -/
def rleChunks (b : BitVec 512) : List Byte :=
  (List.range 35).flatMap (fun i =>
    beBytes 2 (32768 + (List.range 15).foldl (fun a k => let j := 15 * i + k; a * 2 + b2n (decide (j < 512) && b.getLsbD (511 - j))) 0)) ++ [0, 0]

/-- A block: type, type-specific byte, length in words less one, content. -/
def xrBlock (type spec : Nat) (content : List Byte) : List Byte := leBytes 1 type ++ leBytes 1 spec ++ beBytes 2 (content.length / 4) ++ content

/-- The XR blocks of a channel's report (Table 5.5): Loss RLE, Duplicate RLE, Statistics Summary, VoIP Metrics. `endDelay`: END_DELAY in
ms; `rtt`: round-trip delay in ms; `signal`, `noise`, `rerl`: from the canceller. -/
def xrBlocksOf (c : Chan) (gmin endDelay rtt signal noise rerl : Nat) : List Byte :=
  let x := c.xr
  let t := c.steep
  let seqs := beBytes 4 c.rxSsrc.toNat ++ beBytes 2 ((t.playSeq + 65536 * 512 - 512) % 65536) ++ beBytes 2 (t.playSeq % 65536)
  let v := xrVariation x
  let r := xrRates x
  let g := xrBursts (periodMs t.period) x
  let absMax := (if c.jit.adaptive then c.jit.adaptMax else c.jit.depth) / 10
  xrBlock 1 0 (seqs ++ rleChunks t.recvBits) ++ xrBlock 2 0 (seqs ++ rleChunks t.dupBits) ++
  xrBlock 6 0xE0 (seqs ++ beBytes 4 (neverArrived x) ++ beBytes 4 x.dups ++ v.flatMap (beBytes 4) ++ [0, 0, 0, 0]) ++
  xrBlock 7 0 (beBytes 4 c.rxSsrc.toNat ++ r.flatMap (leBytes 1) ++ leBytes 1 (g.getD 0 0) ++ leBytes 1 (g.getD 1 0) ++
    beBytes 2 (g.getD 2 0) ++ beBytes 2 (g.getD 3 0) ++ beBytes 2 rtt ++ beBytes 2 endDelay ++ leBytes 1 signal ++ leBytes 1 noise ++
    leBytes 1 rerl ++ leBytes 1 gmin ++ [127, 127, 127, 127] ++ leBytes 1 (0xC0 + (if c.jit.adaptive then 0x30 else 0x20)) ++ [0] ++
    beBytes 2 (min 65535 (t.target / 1000000)) ++ beBytes 2 (min 65535 (x.jbMax / 1000000)) ++ beBytes 2 absMax)

end Sys2Proof.Machine
end

