-- ==== Sys2Proof/Machine/Audio.lean ====
section
/-! DEFINITION. Samples, levels and powers (00_scope.md, R168-R182): audio as 16-bit linear samples, oldest first. -/

namespace Sys2Proof.Machine

/-- The greatest number below 2^n that meets a condition which holds up to some number: bit by bit, from `r` up. -/
def searchUp (ok : Nat → Bool) : Nat → Nat → Nat
  | 0, r => r
  | n + 1, r => searchUp ok n (if ok (r + 2 ^ n) then r + 2 ^ n else r)

/-- Mean square of 0 dBm0 on the scale of 16-bit samples: that of ITU-T G.711, 3.14 dB below a full-scale sine. PRESUMED (log 105). -/
def dbm0Power : Nat := 260538000

/-- The ratio of two powers in 0.1 dB, whole tenths below it, within -99.9 and 104.8 dB. -/
def tenthsDb (a b : Nat) : Int :=
  (searchUp (fun k => let l : Int := k - 999; decide (b ^ 100 * 10 ^ l.toNat ≤ a ^ 100 * 10 ^ (-l).toNat)) 11 0 : Nat) - 999

/-- Sum of squares. -/
def energy (l : List Int) : Nat := l.foldl (fun a x => a + (x * x).toNat) 0

/-- Mean power in 0.1 dBm0 of `n` samples with an energy, at least -99.9 dBm0. -/
def levelOf (e n : Nat) : Int := if e = 0 then -999 else tenthsDb e (n * dbm0Power)
def level (l : List Int) : Int := levelOf (energy l) l.length

/-- The power of -d dBm0. -/
def powerBelow (d : Nat) : Nat := searchUp (fun p => decide (p ^ 10 * 10 ^ d ≤ dbm0Power ^ 10)) 28 0

/-- A list of exactly `n`: cut, or filled up. -/
def fit {α : Type} (z : α) (n : Nat) (l : List α) : List α := l.take n ++ List.replicate (n - l.length) z

/-- Samples as integers and back, limited to 16 bits. -/
def toInts (l : List Word16) : List Int := l.map BitVec.toInt
def toWords (l : List Int) : List Word16 := l.map (fun v => BitVec.ofInt 16 (clampInt (-32768) 32767 v))

/-- `n` samples from number `i` on. -/
def cut (l : List Int) (i n : Nat) : List Int := (l.drop i).take n

/-- A list in pieces of `n`, the last one perhaps shorter, with where each begins. -/
def chunks {α : Type} (n : Nat) : Nat → Nat → List α → List (Nat × List α)
  | 0, _, _ => []
  | k + 1, i, l => if l.isEmpty then [] else (i, l.take n) :: chunks n k (i + n) (l.drop n)

/-- Newest samples at most, kept. -/
def newest {α : Type} (n : Nat) (l : List α) : List α := l.drop (l.length - n)

/-! ### Tracks -/

/-- Samples of a frame that begins at `at_` join a track, `per` ns apart: a gap before them is silence, what they overlap is theirs. -/
def Track.push (per at_ : Nat) (xs : List Word16) (t : Track) : Track :=
  let before := match t.ending with
    | none => []
    | some e => if e ≤ at_ then t.samples ++ List.replicate (min 8192 ((at_ - e) / per)) 0 else t.samples.take (t.samples.length - (e - at_) / per)
  { samples := newest 8192 (before ++ xs), ending := some (at_ + xs.length * per) }

/-- `n` samples of a track from time `u` on; what it does not hold is silence. -/
def Track.window (per : Nat) (u : Int) (n : Nat) (t : Track) : List Int :=
  match t.ending with
  | none => List.replicate n 0
  | some e =>
    let off : Int := (u - ((e : Int) - t.samples.length * per)) / per
    fit 0 n (List.replicate (min n (-off).toNat) 0 ++ toInts ((t.samples.drop off.toNat).take n))

end Sys2Proof.Machine
end

