-- ==== Sys2Proof/Machine/Windows.lean ====
section
/-! DEFINITION. The windows of a canceller and their coefficients (R157, R159, R165, R170, R171): where they start, how a placement or
new settings move them, and the flags that follow the settings. -/

namespace Sys2Proof.Machine

/-- Samples in 0.5 ms at the canceller rate, taps of a window, sample period in ns (Table 7.1). -/
def halfMs (c : Chan) : Nat := if cancellerFs c = 0 then 4 else 8
def tapsOf (c : Chan) : Nat := 64 * halfMs c
def samplePeriod (c : Chan) : Nat := 500000 / halfMs c

/-- The canceller at CHAN_OPEN (R159): window starts of FIXED, or INIT_DELAY and no window 1. -/
def startEcho (e : EchoSet) : Echo :=
  if e.fixed then { win0 := e.win0Fix, win1 := if e.win1Off then 0 else e.win1Fix, win1Active := !e.win1Off }
  else { win0 := e.initDelay }

/-- Distance of two window starts. -/
def apart (a b : Nat) : Nat := (a - b) + (b - a)

/-- How a placement moves a window (R165, R170). -/
inductive Move where
  | stay
  | slide
  | reset
  deriving DecidableEq, Repr

/-- A window moved to where settings put it (R159, R170): a slide where 16 ms or more overlap, else a reset. -/
def exactMove (old new : Nat) : Move := if old = new then .stay else if apart old new ≤ 32 then .slide else .reset

/-- A window moved by a confirmed estimate: not at all up to 2 ms (R165). -/
def moveOf (old new : Nat) : Move := if apart old new ≤ 4 then .stay else exactMove old new

/-- Coefficients of a window whose start moves, at `m` samples to the unit (R170): those shifted out go, zeros come in. -/
def shiftCoef (m old new : Nat) (l : List Word32) : List Word32 :=
  let z := List.replicate (apart old new * m) (0 : Word32)
  if old ≤ new then (fit 0 (64 * m) l).drop (apart old new * m) ++ z else (z ++ l).take (64 * m)

/-- Window 0 moves (R170, R171): a reset clears its coefficients and CONVERGED, and holds the NLP for 1 s from `t`. -/
def moveZero (t m : Nat) (mv : Move) (new : Nat) (e : Echo) : Echo :=
  match mv with
  | .stay => e
  | .slide => { e with win0 := new, coef0 := shiftCoef m e.win0 new e.coef0 }
  | .reset => { e with win0 := new, coef0 := [], converged := false, erleHigh := 0, holdUntil := some (t + sec 1) }

/-- How window 1 moves; activated, it does not move. -/
def moveKind (judge : Nat → Nat → Move) (new : Option Nat) (e : Echo) : Move :=
  match new with
  | none => .stay
  | some w => if e.win1Active then judge e.win1 w else .stay

/-- Window 1 is moved, activated from zero or made inactive; its start keeps its last placement (R170, R182). -/
def moveOne (judge : Nat → Nat → Move) (m : Nat) (new : Option Nat) (e : Echo) : Echo :=
  match new with
  | none => { e with win1Active := false, coef1 := [] }
  | some w =>
    if !e.win1Active then { e with win1 := w, win1Active := true, coef1 := [] } else
    match judge e.win1 w with
    | .stay => e
    | .slide => { e with win1 := w, coef1 := shiftCoef m e.win1 w e.coef1 }
    | .reset => { e with win1 := w, coef1 := [] }

/-- What a move counts. -/
def moveCount (m : Move) (s : Stats) : Stats :=
  match m with
  | .stay => s
  | .slide => { s with slides := s.slides + 1 }
  | .reset => { s with resets := s.resets + 1 }

/-- Put the windows of a channel at a placement (R165, R170), and count what it moved; resets count for the quadrant that serves the
channel. -/
def State.placeWindows (s : State) (ch : Nat) (judge : Nat → Nat → Move) (w0 : Nat) (w1 : Option Nat) : State :=
  let c := s.chan ch
  let m0 := judge c.echo.win0 w0
  let m1 := moveKind judge w1 c.echo
  let e := moveOne judge (halfMs c) w1 (moveZero (s.tbVal c.tb) (halfMs c) m0 w0 c.echo)
  let t := s.modChan ch (fun c => { c with echo := e, stats := moveCount m1 (moveCount m0 c.stats) })
  match c.echo.quadrant with
  | none => t
  | some q => t.bumpBy wodResets (b2n (m0 = .reset) + b2n (m1 = .reset)) q

/-! ### In the path -/

/-- The canceller is in the path (R156, R178, R179). -/
def inPath (c : Chan) : Bool :=
  c.ecs.ecOn && !c.echo.disabled && !(c.vbd.state = 2 || c.vbd.state = 3) && !(c.vbd.state = 4 && !c.ecs.ecVbd)

/-- The settings let the NLP act (R175, R179). -/
def nlpShows (c : Chan) : Bool := inPath c && c.ecs.nlpMode != 0 && c.vbd.state != 4

/-- The NLP acts at time `t` (R171, R175, R179): Rin active or within the hang, and no double talk unless the hold overrides it. -/
def nlpActs (c : Chan) (t : Nat) : Bool :=
  let e := c.echo
  nlpShows c && (e.rinActive || decide (t < e.nlpUntil)) &&
    (!e.doubleTalk || (e.holdUntil.any (fun h => decide (t < h)) && e.rinActive))

/-- Bring the NLP flag up to date. -/
def State.nlpUpdate (s : State) (ch : Nat) : State :=
  s.modChan ch (fun c => { c with echo := { c.echo with nlp := nlpActs c (s.tbVal c.tb) } })

/-! ### New settings (R37, R158, R159, R166) -/

/-- RESET (Table 7.2): coefficients, estimates and ERL are cleared, the windows stand as at CHAN_OPEN. A trip of the tone disabler, the
levels and the search schedule stand. -/
def clearedEcho (x : EchoSet) (e : Echo) : Echo :=
  let f := startEcho x
  { e with win0 := f.win0, win1 := f.win1, win1Active := f.win1Active, coef0 := [], coef1 := [], lastP1 := none, lastP2 := none, p1Corr := 0, p2Corr := 0,
           confirmed := none, placed := false, converged := false, erle := 0, erl := none, blocks := [], erleHigh := 0, erleLow := 0, holdUntil := none }

/-- Settings and RESET take effect on the windows. -/
def State.applySet (ch : Nat) (s : State) (x : EchoSet × Bool) : State :=
  let t := s.modChan ch (fun c => { c with echo := { c.echo with doubleTalk := c.echo.doubleTalk && x.1.ecOn } })
  if x.2 then t.modChan ch (fun c => { c with echo := clearedEcho x.1 c.echo })
  else if x.1.fixed then t.placeWindows ch exactMove x.1.win0Fix (if x.1.win1Off then none else some x.1.win1Fix)
  else if (t.chan ch).echo.placed then t
  else t.placeWindows ch exactMove x.1.initDelay none

/-- New settings of the channel take effect, in the order of their commands, once no job of it runs (R37, R166). -/
def State.settleEcho (s : State) (ch : Nat) : State :=
  let c := s.chan ch
  if c.echo.sets.isEmpty || c.job.isSome then s
  else (c.echo.sets.foldl (State.applySet ch) (s.modChan ch (fun c => { c with echo := { c.echo with sets := [] } }))).nlpUpdate ch

/-- ECHO settings of a command: they wait for their turn, the placement generation advances, and a confirmation that has not placed the
windows yet is discarded (R166). -/
def withEcho (e : EchoSet) (reset : Bool) (c : Chan) : Chan :=
  { c with ecs := e, echo := { c.echo with sets := c.echo.sets ++ [(e, reset)], placeGen := c.echo.placeGen + 1, confirmed := none, ecNew := true } }

end Sys2Proof.Machine
end

