-- ==== Sys2Proof/Machine/Figures.lean ====
section
/-! DEFINITION. The per-channel figures of STATS_READ (R137, R201, R432, Table 17.6), as a publication fixes them. -/

namespace Sys2Proof.Machine

/-- Taps of the factory set of a pair (Table 9.1). -/
def factoryTaps (fin fout : Nat) : Nat :=
  let lo := min fin fout
  let hi := max fin fout
  if lo = hi then 1
  else if lo = 0 && hi = 1 then 64 else if lo = 0 then 128
  else if lo = 1 && hi = 2 then 64 else 96

/-- Group delay of a conversion with a factory set, ns (Table 9.1). -/
def groupDelay (fin fout : Nat) : Nat :=
  let lo := min fin fout
  let hi := max fin fout
  if lo = hi then 0 else if lo = 0 then (if hi = 1 then 1969000 else if hi = 2 then 1984000 else 1323000)
  else if lo = 1 then (if hi = 2 then 984000 else 990000) else 495000

/-- Algorithmic delay of a codec, ns (R201). -/
def codecDelay (codec : Nat) : Nat :=
  match codec with
  | 3 => 1500000
  | 4 => 5000000
  | 5 => 5000000
  | 6 => 5937500
  | 7 => 12000000
  | 8 => 12000000
  | 9 => 6500000
  | _ => 0

/-- Group delay of the conversions of a channel's job, ns (R201). -/
def conversionDelay (c : Chan) (encFs : Option Nat) : Nat :=
  let two := rxFs c ≥ 2 || c.gls.rank != 0
  let five := match encFs with
    | none => 0
    | some f => if two && f = cancellerFs c then 0 else groupDelay (rxFs c) f
  (if two then groupDelay (rxFs c) (cancellerFs c) else 0) + five

/-- Least transit of the window, in ns (R122). -/
def steepTmin (t : Steep) : Option Int :=
  match t.transits with
  | [] => none
  | (_, x) :: r => some (r.foldl (fun a e => min a e.2) x)

/-- Greatest transit of the window. -/
def steepTmax (t : Steep) : Option Int :=
  match t.transits with
  | [] => none
  | (_, x) :: r => some (r.foldl (fun a e => max a e.2) x)

/-- CURRENT: P less tmin, in ns (R122). -/
def steepCurrent (t : Steep) : Int :=
  match steepTmin t with
  | some m => t.offsetP - m
  | none => 0

/-- Whole ms of ns, in 16 bits. -/
def wholeMs (n : Int) : Nat := (clampInt 0 65535 (n / 1000000)).toNat

/-- END_DELAY: CURRENT, the delay of both codecs of the call, and that of the job's conversions (R137, R201). -/
def State.endDelay (s : State) (c : Chan) : Nat :=
  let p := s.chan c.peer
  let out := if c.st = .bound then p.tx.codec else c.tx.codec
  wholeMs (steepCurrent c.steep + ((codecDelay c.rx.codec + codecDelay out + conversionDelay c (if c.st = .bound then some (txFs p) else none) : Nat) : Int))

/-- Words 0x050 to 0x068 (R137, R432): the figures of the last RTCP reporting interval, or with XR_EN 0 of the time since CHAN_OPEN. -/
def State.xrWords (s : State) (c : Chan) : List Nat :=
  let x := if c.xrEn then c.xrLast else c.xr
  let v := xrVariation x
  let r := xrRates x
  let g := xrBursts (periodMs c.steep.period) x
  let absMax := (if c.jit.adaptive then c.jit.adaptMax else c.jit.depth) / 10
  [v.getD 0 0 + v.getD 1 0 * 2 ^ 16 + v.getD 2 0 * 2 ^ 32 + v.getD 3 0 * 2 ^ 48,
   r.getD 0 0 + r.getD 1 0 * 2 ^ 8 + g.getD 0 0 * 2 ^ 16 + g.getD 1 0 * 2 ^ 24 + g.getD 2 0 * 2 ^ 32 + g.getD 3 0 * 2 ^ 48,
   s.endDelay c + wholeMs c.steep.target * 2 ^ 16 + wholeMs x.jbMax * 2 ^ 32 + absMax * 2 ^ 48,
   neverArrived x % 2 ^ 32 + x.dups % 2 ^ 32 * 2 ^ 32]

/-- Word 0x180: the last P1 and P2 with their correlations. -/
def searchWord (e : Echo) : Nat :=
  (e.lastP1.map (fun p => p % 2 ^ 9 + e.p1Corr % 2 ^ 8 * 2 ^ 16)).getD 0 +
    (e.lastP2.getD 0x1FF) % 2 ^ 9 * 2 ^ 32 + (if e.lastP2.isSome then e.p2Corr % 2 ^ 8 else 0) * 2 ^ 48

/-- The figures of a channel that a block of Table 17.6 holds. -/
def State.figuresOf (s : State) (c : Chan) : Figures :=
  let t := c.stats
  { p1 := c.echo.lastP1.isSome
    words := [(8, [wrapInt 32 t.drift, t.ptRejected] ++ s.xrWords c ++ [t.rtpInvalid]),
      (32, [t.redRecovered, t.ffRecovered, t.ffLate, t.blkDirect, t.blkFull, t.blkPart, t.blkNone, t.maxPasses % 2 ^ 7]),
      (48, [searchWord c.echo, t.searches, t.confirms, t.slides, t.resets, t.dtMs, t.nlpMs, t.disabledMs, t.trips, t.rinSlips]),
      (64, [t.evtUnsupported, t.glzUnsettled]),
      (72, [wrapInt 16 c.vbd.lastLevel + wrapInt 16 c.vbd.lastAfc * 2 ^ 16 + wrapInt 16 c.vbd.lastAgc * 2 ^ 32])] }

end Sys2Proof.Machine
end

