-- ==== Sys2Proof/Machine/Frames.lean ====
section
/-! DEFINITION. Private frames of DRAM (R337-R339): the frames each channel has, how many are free, and their allocation in
turn. The spec gives the frame map and the turn, not what lies where: the model places one frame of contexts for every 1,024
channels and the frames of replay buffers and capture rings (DESIGN CHOICE, log 33). -/

namespace Sys2Proof.Machine

/-- 64 MiB frames of a memory channel: 16 for each GB of 2^30 bytes. -/
def State.framesOf (s : State) (m : Nat) : Nat := 16 * (s.mc m).gb

/-- Frames of every used channel that the host-visible partitions take (R338): H = 128 MiB + HS_SIZE. -/
def State.hostFrames (s : State) : Nat :=
  let q := s.mem.pairs.length
  if q = 0 then 0 else (2 + 16 * s.rd memHsSize + q - 1) / q

/-- The private frames placed on a memory channel. -/
def State.framesOn (s : State) (m : Nat) : List (Nat × PFrame) :=
  s.mem.frameMap.filterMap (fun e => e.2.bind (fun f => if f.mc = m then some (e.1, f) else none))

/-- The lowest free frame of a memory channel. -/
def State.freeFrame (s : State) (m : Nat) : Option Nat :=
  let used := (s.framesOn m).map (fun e => e.2.frame)
  let moving := (List.range 8).filterMap (fun c => ((s.mc c).migration.bind (·.target)).bind (fun t => if t.1 = m then some t.2 else none))
  (List.range (used.length + moving.length + 1)).findSome? (fun i =>
    let f := s.hostFrames + i
    if decide (f < s.framesOf m) && !used.contains f && !moving.contains f then some f else none)

/-- The memory channel is in service: STATE 2 or 3. -/
def State.mcServes (s : State) (m : Nat) : Bool := s.rd memChState m = 2 || s.rd memChState m = 3

/-- The next channel in turn that is in service and has a free frame (R339). -/
def State.nextFrame (s : State) : Option (Nat × Nat) :=
  ((List.range 8).map (fun i => (s.mem.nextAlloc + i) % 8)).findSome? (fun m =>
    if s.mcServes m then (s.freeFrame m).map (fun f => (m, f)) else none)

/-- Map private frame `n`, if a frame is free. -/
def State.allocFrame (s : State) (n kind owner : Nat) : Option State :=
  s.nextFrame.map (fun t => { s with mem := { s.mem with
    nextAlloc := (t.1 + 1) % 8, frameMap := tset s.mem.frameMap n (some { mc := t.1, frame := t.2, kind := kind, owner := owner }) none } })

/-- The lowest private frame number from 64 up that maps nothing. -/
def State.freePrivate (s : State) : Nat :=
  ((List.range (s.mem.frameMap.length + 1)).find? (fun i => (tget s.mem.frameMap (64 + i) none).isNone)).getD 0 + 64

/-- The frame of the contexts of a channel is placed. -/
def State.ctxFrame (s : State) (ch : Nat) : State :=
  if (tget s.mem.frameMap (ch / 1024) none).isSome then s else (s.allocFrame (ch / 1024) 0 0).getD s

/-- `n` frames for the ring of a capture source. -/
def State.allocRing : Nat → State → Nat → Option State
  | 0, s, _ => some s
  | n + 1, s, src => (s.allocFrame s.freePrivate 2 src).bind (fun t => State.allocRing n t src)

/-- The frames of a capture source are given back. -/
def State.freeRing (s : State) (src : Nat) : State :=
  { s with mem := { s.mem with frameMap := s.mem.frameMap.filter (fun e => !(e.2.any (fun f => decide (f.kind = 2 ∧ f.owner = src)))) } }

/-- A capture stops (R436, R439): at once, or when the export under way has ended. -/
def State.stopCapture (s : State) (src : Nat) : State :=
  match s.cap.caps.find? (fun e => e.1 = src) with
  | none => s
  | some (_, c) =>
    if c.exporting then { s with cap := { s.cap with caps := tins s.cap.caps src { c with stopping := true } } }
    else State.freeRing { s with cap := { s.cap with caps := terase s.cap.caps src } } src

end Sys2Proof.Machine
end

