-- ==== Sys2Proof/Machine/Record.lean ====
section
/-! DEFINITION. The call record and its publication (R36-R47, R51-R53), and the frame in which a supervisor command
runs (R10, R416, R426-R431): it publishes what it changes and completes after that. -/

namespace Sys2Proof.Machine

/-! ### The record -/

/-- Nanoseconds as 0.1 ms in 16 bits. -/
def tenthMs (n : Int) : Nat := (clampInt 0 65535 (n / 100000)).toNat

/-- The key: HDR[55:0] (R37). -/
def keyOfPub (p : Pub) : Nat := p.epoch.toNat + p.gen.toNat * 2 ^ 40

/-- The key of a published record. -/
def CallRec.key (r : CallRec) : Nat := r.hdr.toNat % 2 ^ 56

/-- STATE and PEER a record shows (R36, R43): a CLOSING channel shows the state before its close, the final record
FREE. -/
def shownState (c : Chan) (final : Bool) : Nat :=
  if final then 0 else match c.st with
    | .free => 0
    | .open => 1
    | .bound => 2
    | .closing => c.pub.lastState

def shownPeer (c : Chan) : Nat := if c.st = .closing then c.pub.lastPeer else c.peer

def suiteOf : Option SrtpKey → Nat
  | none => 0
  | some k => k.suite

/-- The SRTP word (Table 2.3). -/
def srtpWord (c : Chan) : Word64 :=
  packWord [(suiteOf c.srx.current, 0, 4), (suiteOf c.stx.current, 4, 4), (c.srx.keyGen.toNat, 8, 8),
    (c.stx.keyGen.toNat, 16, 8), (b2n c.srx.rekey, 24, 1), (b2n c.stx.rekey, 25, 1), (c.srx.roc, 32, 32)]

/-- The record of a channel with the given epoch (Tables 2.2, 2.3, 2.4). `tbNow`: its time base. -/
def mkRecord (ch : Nat) (c : Chan) (epoch tbNow : Nat) (final : Bool) : CallRec :=
  let st := shownState c final
  let t := c.steep
  let e := c.echo
  let key := epoch + c.pub.gen.toNat * 2 ^ 40
  let codecWord := fun (codec mode rate period fs pt : Nat) (dtx cng : Bool) =>
    packWord [(codec, 0, 8), (mode, 8, 8), (rate, 16, 20), (period, 36, 4), (fs, 40, 4), (pt, 44, 7), (b2n dtx, 51, 1), (b2n cng, 52, 1)]
  { hdr := packWord [(key, 0, 56), (b2n c.pub.adopted, 57, 1), (1, 60, 4)]
    ident := packWord [(ch, 0, 16), (if st = 2 then shownPeer c else 0, 16, 16), (b2n (st = 2), 32, 1), (st, 33, 3),
      (c.tb, 36, 2), (c.origin, 40, 8), (c.hostTag.toNat, 48, 16)]
    tickTime := BitVec.ofNat 64 (c.pub.jobTick.getD tbNow)
    placement := if c.pub.jobTick.isSome then c.pub.placement else 0xFF
    rxCodec := codecWord c.rx.codec c.ctx.rxMode c.ctx.rxBitrate c.rx.period (rxFs c) c.rx.pt c.ctx.rxDtx c.ctx.inCng
    txCodec := codecWord c.tx.codec c.ctx.txMode c.ctx.txBitrate c.tx.period (txFs c) c.tx.pt c.tx.dtx c.ctx.txInCng
    jitter := packWord [(tenthMs t.target, 0, 16), (tenthMs (steepCurrent t), 16, 16), (tenthMs (t.jitterEst / 16), 32, 16),
      (b2n c.jit.adaptive, 48, 1)]
    rxStream := packWord [(t.extTop, 0, 32), (c.rxSsrc.toNat, 32, 32)]
    txStream := packWord [(c.egr.ssrc.toNat, 0, 32), (c.egr.nextSeq.toNat, 32, 16)]
    counters := [c.ctr.rxPackets, c.ctr.rxOctets, c.ctr.txPackets, c.ctr.txOctets, c.ctr.played, c.ctr.missing,
      c.ctr.recovered, c.ctr.concealed, c.ctr.late, c.ctr.duplicates, c.ctr.srtpFailures, c.ctr.skipped].map (BitVec.ofNat 64)
    echoState := packWord [(b2n c.ecs.ecOn, 0, 1), (b2n e.win0Active, 1, 1), (b2n e.win1Active, 2, 1), (b2n e.doubleTalk, 3, 1),
      (b2n (e.nlp && nlpShows c), 4, 1), (b2n e.disabled, 5, 1), (b2n e.converged, 6, 1), (e.win0, 16, 12), (e.win1, 32, 12)]
    echoLevels := packWord [(e.erle, 0, 16), (match e.erl with | none => 0x8000 | some x => wrapInt 16 x, 16, 16),
      (wrapInt 16 e.rinLevel, 32, 16), (wrapInt 16 e.soutLevel, 48, 16)]
    tone := packWord [(c.tone.lastEvent, 0, 8), (b2n c.tone.eventActive, 8, 1), (c.tone.eventCount.toNat, 16, 16),
      (c.tone.eventEpoch.toNat, 32, 32)]
    vbd := packWord [(c.vbd.state, 0, 4), (c.vbd.modulation, 4, 4), (c.fax.version, 8, 2), (c.vbd.pages, 16, 16)]
    srtp := srtpWord c
    fec := packWord [(c.fec.rxFec, 0, 2), (c.fec.txFec, 2, 2), (c.fec.redGens, 4, 2)]
    rtcpPeer := packWord [(c.rtcpLost.toNat, 0, 32), (c.rtt.toNat, 32, 16)]
    applied := packWord [(c.pub.applied.toNat, 0, 32)]
    trailer := packWord [(key, 0, 56)] }

/-- The 64 words of a record in the window (Table 2.2). -/
def CallRec.words (r : CallRec) : List Word64 :=
  [r.hdr, r.ident, r.tickTime, r.placement, r.rxCodec, r.txCodec, r.jitter, r.rxStream, r.txStream] ++ r.counters ++
  List.replicate (12 - r.counters.length) 0 ++
  [r.echoState, r.echoLevels, r.tone, r.vbd, r.srtp, r.fec, r.rtcpPeer, r.applied] ++ List.replicate 34 0 ++ [r.trailer]

/-- A slot of a channel: 0 or 1 (R38). -/
def State.slot (s : State) (ch k : Nat) : CallRec := tget s.slots (2 * ch + k) {}

/-- The newest complete record of a channel (R45, R46). -/
def State.newest (s : State) (ch : Nat) : CallRec :=
  if (s.slot ch 1).key > (s.slot ch 0).key then s.slot ch 1 else s.slot ch 0

/-! ### Publication -/

/-- The channel lies in the range held for the upstream partner (R53). -/
def State.heldForUp (s : State) (ch : Nat) : Bool :=
  s.flag rngPaired && decide (s.rd rngUpFirst ≤ ch) && decide (ch < s.rd rngUpFirst + s.rd rngUpCount) &&
    !(s.chan ch).pub.adopted

/-- The 2 ms after the previous publication have passed (R42). -/
def spaced (p : Pub) (now : Nat) : Bool :=
  match p.lastEnd with
  | none => true
  | some t => decide (t + ms 2 ≤ now)

/-- A released frame that no packet of a codec takes in: an event, a datagram, one that is not sent, a SID of its own, another codec's. -/
def endsPacket (codec : Nat) (f : OutFrame) : Bool := f.eventTs.isSome || f.raw || !f.sent || f.sid || f.codec != codec

/-- The leading frames that make up one packet of `need` ns (R189); `none`: its last frame is not there yet. What can stand in no packet
with them ends the packet early: DESIGN CHOICE (log 108). -/
def takeSpan (codec : Nat) : Nat → List OutFrame → Option (List OutFrame × List OutFrame)
  | _, [] => none
  | need, f :: r =>
    if endsPacket codec f then some ([], f :: r)
    else if need ≤ f.span then some ([f], r)
    else (takeSpan codec (need - f.span) r).map (fun x => (f :: x.1, x.2))

/-- The frames of the next packet, where egress can build it: a SID goes alone. -/
def nextPacket : List OutFrame → Option (List OutFrame × List OutFrame)
  | [] => none
  | f :: r => if f.sid then some ([f], r) else takeSpan f.codec f.need (f :: r)

/-- Egress can build a packet from the frames released to it. -/
def egressReady : List OutFrame → Bool
  | [] => false
  | f :: r => f.eventTs.isSome || f.raw || !f.sent || (nextPacket (f :: r)).isSome

/-- Nothing of a CLOSING channel is still under way: no job running, no packet of it to be built or waiting (R36). -/
def State.drained (s : State) (ch : Nat) : Bool :=
  let c := s.chan ch
  let mine := fun (d : TxDesc) => decide (d.owner = TxOwner.egress (Fin.ofNat 65536 ch))
  c.jobsRunning = 0 && !egressReady c.egr.outQ &&
    s.ports.all (fun e => e.2.queues.all (fun q => !q.2.any mine) && !(e.2.wire.any (fun w => mine w.desc)) &&
      !(e.2.parts.any (fun x => mine x.2.desc)) && !(e.2.waiting.any mine))

/-- The channel's next publication is its final FREE record (R36). -/
def State.isFinal (s : State) (ch : Nat) : Bool := (s.chan ch).st = .closing && (s.chan ch).pub.closing && s.drained ch

/-- Commands whose channels have all been published and whose SETTINGS are acknowledged complete with the keys (R37, R421, R463). -/
def State.finishWaits (s : State) : State :=
  let ended := fun (w : WaitPub) => w.chans.isEmpty && w.acks.isEmpty
  let s1 := { s with sup := { s.sup with waiting := s.sup.waiting.filter (fun w => !ended w) } }
  let keyOf := fun (w : WaitPub) (i : Nat) => match w.order[i]? with
    | none => 0
    | some c => ((w.ready.find? (fun r => r.1 = c)).map (·.2)).getD 0
  (s.sup.waiting.filter ended).foldl (fun s w => s.complete w.qid w.tag w.opcode stOK 0 (keyOf w 0) (keyOf w 1)) s1

/-- The SETTINGS of a channel need no longer be waited for. -/
def State.settingsDone (s : State) (ch : Nat) : State :=
  State.finishWaits { s with sup := { s.sup with waiting := s.sup.waiting.map (fun w => { w with acks := w.acks.erase ch }) } }

/-- A publication meets the waits of the commands that changed the channel; a command whose channels have all been
published completes with their keys (R37, R421). A CHAN_CLOSE waits for the final record of its own channel. -/
def State.meetWaits (s : State) (ch key : Nat) (final : Bool) : State :=
  let meets := fun (w : WaitPub) => w.chans.contains ch && (w.opcode != 0x12 || w.order.head? != some ch || final)
  let ws := s.sup.waiting.map (fun w => if meets w then { w with chans := w.chans.erase ch, ready := w.ready ++ [(ch, key)] } else w)
  State.finishWaits { s with sup := { s.sup with waiting := ws } }

/-- Keep for the running job what a command is about to change (R37): the DTX flag, the SRTP word, the voiceband states. -/
def keepDtx (c : Chan) : Chan := { c with job := c.job.map (fun j => { j with rxDtx := some (j.rxDtx.getD c.ctx.rxDtx) }) }
def keepSrtp (c : Chan) : Chan := { c with job := c.job.map (fun j => { j with srtp := some (j.srtp.getD (srtpWord c)) }) }
def keepVbd (peer : Vbd) (c : Chan) : Chan := { c with job := c.job.map (fun j => { j with vbd := some (j.vbd.getD (c.vbd, peer)) }) }

/-- A channel with the settings its running job was dispatched with (R37). -/
def asJob (c : Chan) : Chan :=
  match c.job with
  | none => c
  | some j => { c with ctx := { c.ctx with rxDtx := j.rxDtx.getD c.ctx.rxDtx }, egr := { c.egr with ssrc := j.ssrc }, vbd := (j.vbd.map (·.1)).getD c.vbd
                       st := j.st, peer := j.peer, hostTag := j.hostTag, rx := j.rx, tx := j.tx, jit := { c.jit with adaptive := j.adaptive }
                       ecs := j.ecs, tns := j.tns, gls := j.gls, fec := j.fec, fax := j.fax, pub := { c.pub with applied := j.applied } }

/-- The record a channel shows: while a job dispatched before a command runs, with that job's settings (R37). -/
def shownRecord (ch : Nat) (c : Chan) (epoch tbNow : Nat) (final : Bool) : CallRec :=
  if !c.pub.newer then mkRecord ch c epoch tbNow final
  else
    let r := mkRecord ch (asJob c) epoch tbNow final
    { r with srtp := (c.job.bind (·.srtp)).getD r.srtp }

/-- Publish a channel's record (R42-R44): EPOCH rises by 1, the slot of its parity is written after its lines have been
back-invalidated, and a CLOSING channel's final record frees the channel and stops its replay buffer (R436). While a job
dispatched before a command runs, the record shows the settings of that job, and the command waits on (R37). -/
def State.publish (s : State) (ch : Nat) : State :=
  let c0 := s.chan ch
  let final := s.isFinal ch
  let epoch := c0.pub.epoch + 1
  let c := { c0 with tone := if c0.tone.eventFresh
    then { c0.tone with eventEpoch := BitVec.ofNat 32 epoch.toNat, eventFresh := false } else c0.tone }
  let r := shownRecord ch c epoch.toNat (s.tbVal c.tb) final
  let slot := epoch.toNat % 2
  let lines := (List.range 8).map (fun i => ch * 16 + slot * 8 + i)
  let pub := { c.pub with epoch := epoch, lastEnd := some s.now, due := c.pub.newer, jobTick := none, placement := 0xFF, figures := s.figuresOf c }
  let c' := if final then { pub := { pub with closing := false, adopted := false } } else { c with pub := pub }
  let s1 := (lines.foldl State.backInv s).unpoison (fun d => lines.any (fun l => (s.copies l).contains d))
  let s2 := { s1 with slots := tset s1.slots (2 * ch + slot) r {} }.setChan ch c'
  let s3 := if final then (s2.stopCapture ch).replan else s2
  if c.pub.newer then s3 else s3.meetWaits ch r.key final

/-- Publish now if a publication is wanted and may begin (R42); otherwise it stays due. What a command changed while a job of the
channel runs is published after that job's OUTEND (R37). -/
def State.tryPublish (s : State) (ch : Nat) : State :=
  let c := s.chan ch
  if c.pub.due && !c.pub.newer && spaced c.pub s.now && !s.heldForUp ch && (c.st != .closing || !c.pub.closing || s.drained ch)
  then s.publish ch else s

/-- Ask for a publication of a channel (R42). -/
def State.wantPublish (s : State) (ch : Nat) : State :=
  (s.modChan ch (fun c => { c with pub := { c.pub with due := true } })).tryPublish ch

/-- The channel's job has reached its OUTEND, or is lost: commands applied since its dispatch may show. -/
def forgetJob (c : Chan) : Chan := { c with job := none, pub := { c.pub with newer := false } }

/-- The end of a channel's job: ECHO settings that waited for it take effect (R37). -/
def State.endJob (s : State) (ch : Nat) (f : Chan → Chan) : State := (s.modChan ch (fun c => forgetJob (f c))).settleEcho ch

/-- The publication at the OUTEND of a channel's job (R37, R42). -/
def State.publishJob (s : State) (ch : Nat) : State :=
  let s1 := s.modChan ch (fun c => { c with pub := { c.pub with due := true } })
  let p := (s.chan ch).pub
  let s2 := if p.newer then (if spaced p s.now && !s.heldForUp ch then s1.publish ch else s1) else s1.tryPublish ch
  s2.endJob ch id

/-! ### Commands -/

/-- The lowest set bit of a word, up to `n`. -/
def lowestBit : Nat → Nat → Nat
  | 0, _ => 0
  | n + 1, w => if w % 2 = 1 then 0 else 1 + lowestBit n (w / 2)

/-- Entry words 1 to 7. -/
def cmdWord (c : HostCmd) (i : Nat) : Nat :=
  match i with
  | 1 => c.w1.toNat
  | 2 => c.w2.toNat
  | 3 => c.w3.toNat
  | 4 => c.w4.toNat
  | 5 => c.w5.toNat
  | 6 => c.w6.toNat
  | 7 => c.w7.toNat
  | _ => 0

/-- The byte offset of the first reserved bit set in entry words 1 to 7 (R10), for the bits each word uses; words not
named use none. Word 2 is left to the block reference. -/
def entryRsvd (c : HostCmd) (used : List (Nat × Nat)) : Option Nat :=
  ([1, 3, 4, 5, 6, 7].find? (fun i =>
    let m := ((used.find? (fun u => u.1 = i)).map (·.2)).getD 0
    cmdWord c i &&& (0xFFFFFFFFFFFFFFFF - m) != 0)).map (fun i =>
      let m := ((used.find? (fun u => u.1 = i)).map (·.2)).getD 0
      8 * i + lowestBit 64 (cmdWord c i &&& (0xFFFFFFFFFFFFFFFF - m)) / 8)

/-- What is wrong with the entry: a reserved bit (R10), or word 2 not 0 where the command takes no groups (R416). -/
def entryBad (c : HostCmd) (used : List (Nat × Nat)) (groups : Bool) : Option Nat :=
  match entryRsvd c used with
  | some d => some d
  | none =>
    if groups then (if bits c.w2.toNat 40 8 != 0 then some 21 else none)
    else if c.w2 != 0 then some (16 + lowestBit 64 c.w2.toNat / 8) else none

/-- A channel command's effect stands in `t`: CMD_TAG goes to APPLIED, each changed channel must publish, and the
command waits for those publications (R37, R421). -/
def State.publishing (t : State) (c : HostCmd) (op : Nat) (chans : List Nat) : State :=
  let late := fun (s : State) ch => s.modChan ch (fun c => { c with pub := { c.pub with newer := c.pub.newer || c.job.isSome } })
  let t1 := chans.foldl late ((t.apply c.tag.toNat chans).markApplied c.qid.val c.tag.toNat)
  let home := chans.filter t1.mirrored
  let w : WaitPub := { qid := c.qid.val, tag := c.tag.toNat, opcode := op, chans := chans, order := chans, acks := home }
  let t2 := { t1 with sup := { t1.sup with waiting := t1.sup.waiting ++ [w] } }
  chans.foldl State.tryPublish (home.foldl State.sendSettings t2)

/-- Run a supervisor command. It stays recorded as taken and is not applied while Bister is away or an earlier command
holds it back (R429-R431); under service access it completes with BAD_STATE, during erasure with BUSY (R504); a
non-zero reserved field completes with BAD_PARAM (R10); otherwise `f` applies it. -/
def runCommand (c : HostCmd) (op : Nat) (used : List (Nat × Nat)) (groups : Bool) (f : State → Reply) (s : State) : State :=
  let q := c.qid.val
  let tag := c.tag.toNat
  if !s.served then s else
  let s1 := s.taking q tag op c.w1.toNat
  if s1.sup.taken.any (fun t => t.qid = q && t.tag = tag && t.applied) then s1
  else if s1.heldBack q tag op then s1
  else if s1.flag secService then s1.complete q tag op stBAD_STATE 0 0 0
  else if s1.flag secErasing then s1.complete q tag op stBUSY 0 0 0
  else if c.rsvd != 0 then s1.complete q tag op stBAD_PARAM 2 0 0
  else match entryBad c used groups with
  | some d => s1.complete q tag op stBAD_PARAM d 0 0
  | none =>
    if twoStage op && s1.sup.finals ≥ 64 then s1.complete q tag op stBUSY 0 0 0 else
    match f s1 with
    | .refuse st d => s1.complete q tag op st d 0 0
    | .fail t st d => t.complete q tag op st d 0 0
    | .done t r2 r3 => t.complete q tag op stOK 0 r2 r3
    | .publish t chans => t.publishing c op chans
    | .accepted t =>
      let t1 := t.complete q tag op stACCEPTED 0 0 0
      { t1 with sup := { t1.sup with finals := t1.sup.finals + 1 } }
    | .later t => t.markApplied q tag

end Sys2Proof.Machine
end

