-- ==== Sys2Proof/Machine/Flags.lean ====
section
/-! DEFINITION. Access to registers: which fields a word of BAR0 holds, what reads and writes of each access type do
(R7-R9), accesses of a wrong width or alignment (R392), values out of range and the CFG_ERR and ERR flags, and the
fields that report a present state (R11). -/

namespace Sys2Proof.Machine

/-- A field of a word: which, its indices, and its least bit within the 64-bit word. -/
structure Hit where
  d : RegDesc
  i : Nat
  j : Nat
  lo : Nat

/-- The element of a field that lies in the 64-bit word at byte address `w`, if any. -/
def hitAt (w : Nat) (d : RegDesc) : Option Hit :=
  let base := d.addr - d.addr % 8
  let lo := d.lo + 8 * (d.addr % 8)
  if w < base then none else
  let x := w - base
  let i := if d.n1 ≤ 1 then 0 else x / d.s1
  let r := if d.n1 ≤ 1 then x else x % d.s1
  let j := if d.n2 ≤ 1 then 0 else r / d.s2
  let rest := if d.n2 ≤ 1 then r else r % d.s2
  if rest = 0 && i < d.n1 && j < d.n2 then some { d := d, i := i, j := j, lo := lo } else none

/-- Every field of the word at byte address `w`. -/
def fieldsAt (w : Nat) : List Hit := regMap.filterMap (hitAt w)

/-- The access is a naturally aligned 32-bit or 64-bit one, and a 32-bit one on a doorbell (R392). -/
def goodAccess (addr width : Nat) : Bool :=
  let doorbell := decide (0x1000000 ≤ addr) && decide (addr < 0x1051000)
  (width = 32 && addr % 4 = 0) || (width = 64 && addr % 8 = 0 && !doorbell)

/-! ### Present state (R11) -/

/-- Packet buffers of every class held (R110). -/
def State.bufHeld (s : State) : Nat := s.ing.held.foldl (fun a e => a + e.2) 0

/-- Lanes of a mask. -/
def laneCount (m : Word16) : Nat := (List.range 16).foldl (fun a i => a + b2n (m.getLsbD i)) 0

/-- Task slots an engine holds (R313): tasks forming, due, waiting, and the lanes in its dispatch queue, running or
suspended. -/
def slotsHeld (e : MorEngine) : Nat :=
  let n := fun (l : List Skein) => l.foldl (fun a k => a + k.tasks.length) 0
  let m := fun (l : List Skein) => l.foldl (fun a k => a + laneCount k.mask) 0
  n e.forming + n e.due + m e.dq + m e.running.toList + m e.suspended.toList + e.waiting.length

/-- Channels of this device's own: OPEN or BOUND. -/
def liveChans (s : State) : List (Nat × Chan) := s.chans.filter (fun e => e.2.st = .open || e.2.st = .bound)

/-- Host entries of a transmit timestamp queue (R381). -/
def hostStamps (p : Port) : List TxStamp := p.txStamps.filter (·.host)

/-- Woad searches a quadrant's searcher has to make: channels with a canceller whose jobs an engine of the quadrant
serves (R14, R163). -/
def State.woadLoad (s : State) (q : Nat) : Nat :=
  ((liveChans s).filter (fun e => e.2.ecs.ecOn && e.2.echo.quadrant = some q)).length

/-- Home channels whose SYNC is not acknowledged, and mirrored channels that cannot be adopted (R462, R464). -/
def State.unprotected (s : State) : Nat :=
  ((liveChans s).filter (fun e => s.mirrored e.1 && !(s.hm e.1).synced)).length + (s.ring.mirror.filter (fun m => !m.2.adoptable)).length

/-- Home channels whose newest acknowledged DELTA is older than MAX_LAG (R466). -/
def State.stale (s : State) : Nat :=
  if !s.flag rngPaired then 0 else
  ((liveChans s).filter (fun e => s.mirrored e.1 && (s.hm e.1).ackedAt.any (fun t => decide (t + ms (s.rd rngMaxLag) < s.now)))).length

/-- The present value of a field that stores none of its own. -/
def State.present (s : State) (d : RegDesc) (i : Nat) : Option Nat :=
  if d = flwPoolFree then some (131072 - s.bufHeld)
  else if d = stpRelqDepth then some s.mor.relQ.length
  else if d = wldDecqDepth then some s.weldU.queue.length
  else if d = wodLoad then some (s.woadLoad i)
  else if d = glzQdepth then some (tget s.glaze.queues i []).length
  else if d = glzFading then some (b2n s.glaze.fadeEnd.isSome)
  else if d = glzPending then some (b2n s.glaze.heldReq.isSome)
  else if d = morEvac then some (b2n !s.mor.evacEnd.isEmpty)
  else if d = morQHeld then some (slotsHeld (s.me i))
  else if d = morQDue then some (s.me i).due.length
  else if d = timTbTime then some (s.tbVal i)
  else if d = timTbFreq then some (wrapInt 32 (s.tb i).freq)
  else if d = timRef10m then some (b2n (s.time.ref10m && !s.flag timRefForceSys))
  else if d = timTxtsValid then some (b2n !(hostStamps (s.port i)).isEmpty)
  else if d = timTxtsTb then some (((hostStamps (s.port i)).head?.map (·.tb)).getD 0)
  else if d = timTxtsTag then some (((hostStamps (s.port i)).head?.map (·.tag)).getD 0)
  else if d = timTxtsDepth then some (hostStamps (s.port i)).length
  else if d = timTxtsTime then some (((hostStamps (s.port i)).head?.map (·.time)).getD 0)
  else if d = ethPaused then some (b2n (s.now < (s.port i).pauseEnd))
  else if d = supEngRun then
    some (if (s.me i).service = 4 then 2 else if (s.me i).service ≥ 2 then 3 else if (s.me i).running.isSome then 1 else 0)
  else if d = supEngKernel then some (((s.me i).running.map (·.key.kernel)).getD 0)
  else if d = qDrained then some (b2n ((s.hq i).outstanding = 0))
  else if d = lakJobqDepth then some (s.cap.queue.length + s.cap.running.length)
  else if d = rngUnprotected then some s.unprotected
  else if d = rngStale then some s.stale
  else if d = pwrAlert then some (b2n s.pwr.sysAlert)
  else if d = msixPba then some (s.host.msixPend.foldl (fun a v => if v / 64 = i then a ||| 2 ^ (v % 64) else a) 0)
  else none

/-- What a read of a field returns: the present or stored value; 0 for a write-only field (R7, R11). -/
def State.readField (s : State) (h : Hit) : Nat :=
  if h.d.acc = .wo then 0 else (s.present h.d h.i).getD (s.rd h.d h.i h.j)

/-- The 64-bit word at `w`; bits of no field read as 0 (R9). -/
def State.readWord (s : State) (w : Nat) : Nat :=
  (fieldsAt w).foldl (fun a h => a + s.readField h * 2 ^ h.lo) 0

/-- The bits of the word at an aligned access: its least bit and count. -/
def accessBits (addr width : Nat) : Nat × Nat := if width = 64 then (0, 64) else (8 * (addr % 8), 32)

/-! ### Writes -/

/-- The flag that a refused write of a field sets: ERR of the queue, or CFG_ERR of the block (Tables of the chapters). -/
def errFlagOf (d : RegDesc) (i : Nat) : RegDesc × Nat :=
  let a := d.addr
  if 0x390000 ≤ a && a < 0x391000 then (qErr, i)
  else if 0x391000 ≤ a && a < 0x391400 then (xqErr, i)
  else if 0x391400 ≤ a && a < 0x392000 then (nqErr, 0)
  else if 0x380000 ≤ a then (mbxCfgErr, 0)
  else if a < 0x20000 then
    if a < 0x10400 then (supResetCfgErr, 0) else if a < 0x10440 then (supLoadCfgErr, 0) else (supToneCfgErr, 0)
  else if a < 0x30000 then (timCfgErr, 0)
  else if a < 0x40000 then (ethCfgErr, i)
  else if a < 0x50000 then (flwCfgErr, 0)
  else if a < 0x60000 then (stpCfgErr, 0)
  else if a < 0x80000 then (wodCfgErr, 0)
  else if a < 0xA0000 then (glzCfgErr, 0)
  else if a < 0xB0000 then (morCfgErr, 0)
  else if a < 0xC0000 then (memCfgErr, 0)
  else if a < 0xD0000 then (rngCfgErr, 0)
  else if a < 0xE0000 then (lakCfgErr, 0)
  else if a < 0xF0000 then (secCfgErr, 0)
  else (pwrCfgErr, 0)

/-- Set the flag of a refused write. -/
def State.cfgErr (s : State) (d : RegDesc) (i : Nat) : State :=
  let f := errFlagOf d i
  s.wr f.1 1 f.2

/-- The grade maximum in °C (R516). -/
def State.gradeMax (s : State) : Nat := if s.flag pwrGrade then 105 else 95

/-- Fields whose range is not one interval of unsigned values. -/
def inRange (d : RegDesc) (v : Nat) : Bool :=
  if d = timPpsOutOffset then decide (-500000 ≤ signed 32 v) && decide (signed 32 v ≤ 500000)
  else if d = sqBase || d = cqBase || d = xqBase || d = nqBase then v % 4096 = 0
  else if d = lakStateAddr then v % 64 = 0
  else decide (d.min ≤ v) && decide (v ≤ d.max)

/-- Write one field with bits `v` under a mask of the bits the access covers (R7): RW takes a value of its range and
refuses any other, W1C clears and W1S sets the bits written as 1, WO takes the value, RO and RC ignore it. -/
def State.writeField (s : State) (h : Hit) (v mask : Nat) : State :=
  let old := s.rd h.d h.i h.j
  match h.d.acc with
  | .ro | .rc => s
  | .w1c => s.wr h.d (old &&& (2 ^ h.d.width - 1 - (v &&& mask))) h.i h.j
  | .w1s => s.wr h.d (old ||| (v &&& mask)) h.i h.j
  | .wo => s.wr h.d ((old &&& (2 ^ h.d.width - 1 - mask)) ||| (v &&& mask)) h.i h.j
  | .rw =>
    let new := (old &&& (2 ^ h.d.width - 1 - mask)) ||| (v &&& mask)
    if inRange h.d new && (h.d != pwrTjWarn || decide (new ≤ s.gradeMax)) then s.wr h.d new h.i h.j else s.cfgErr h.d h.i

/-- The bits of a field that an access covers, and the bits it brings, both at the field's own scale. -/
def fieldPart (h : Hit) (lo n v : Nat) : Nat × Nat :=
  let m := ((2 ^ n - 1) * 2 ^ lo) / 2 ^ h.lo % 2 ^ h.d.width
  let x := ((v % 2 ^ n) * 2 ^ lo) / 2 ^ h.lo % 2 ^ h.d.width
  (x, m)

/-- A host write to a register word, without the fields that `skip` names: every field the access covers is written by its
access type; other bits are ignored (R7, R9); an access of a wrong kind is discarded and counted (R392). -/
def State.writeRegBut (s : State) (skip : RegDesc → Bool) (addr width v : Nat) : State :=
  if !goodAccess addr width then s.bump mbxBadAccess
  else
    let b := accessBits addr width
    (fieldsAt (addr - addr % 8)).foldl (fun s h =>
      let p := fieldPart h b.1 b.2 v
      if p.2 = 0 || skip h.d then s else s.writeField h p.1 p.2) s

/-- A host write to a register word. -/
def State.writeReg (s : State) (addr width v : Nat) : State := s.writeRegBut (fun _ => false) addr width v

/-- The bits of field (i, j) that an access brings, where it covers the whole field. -/
def writtenTo (d : RegDesc) (i j addr width v : Nat) : Option Nat :=
  let a := d.addr + i * d.s1 + j * d.s2
  let b := accessBits addr width
  let lo := d.lo + 8 * (a % 8)
  if a - a % 8 = addr - addr % 8 && b.1 ≤ lo && lo + d.width ≤ b.1 + b.2 then some (v * 2 ^ b.1 / 2 ^ lo % 2 ^ d.width) else none

/-- Clear an RC field that has been read; an event that arrived in the same cycle stays for the next read (R8). DESIGN CHOICE (log 97):
a field is cleared to its reset value, which is not 0 for PWR_TJs.MAX. A read of TIM_TXTS_TIME pops the oldest host entry (R381). -/
def State.clearRc (s : State) (event : Option Nat) (h : Hit) : State :=
  if h.d.acc != .rc then s
  else if h.d = timTxtsTime then
    s.modPort h.i (fun p => { p with txStamps := match p.txStamps.find? (·.host) with
      | none => p.txStamps
      | some e => p.txStamps.erase e })
  else s.wr h.d (event.getD (h.d.reset h.i)) h.i h.j

/-- A host read of a register word: the answer, then RC fields the access covers clear (R7, R8, R392). -/
def State.readReg (s : State) (addr width : Nat) (event : Option Nat) : State :=
  if !goodAccess addr width then
    State.bump { s with host := { s.host with readData := 0, readPoison := false } } mbxBadAccess
  else
    let b := accessBits addr width
    let w := addr - addr % 8
    let s1 := { s with host := { s.host with readData := bits (s.readWord w) b.1 b.2, readPoison := false } }
    (fieldsAt w).foldl (fun s h => if (fieldPart h b.1 b.2 0).2 = 0 then s else s.clearRc event h) s1

/-! ### Resets of registers -/

/-- The field of regMap that a key belongs to, with its index. -/
def descOfKey (k : Nat) : Option Hit :=
  (regMap.filterMap (fun d => (hitAt ((k / 64) - (k / 64) % 8) d).bind (fun h =>
    if d.key h.i h.j = k then some h else none))).head?

/-- Fields that one instance of a unit owns: the port, memory channel or engine whose reset it is (R474). -/
def ownedBy (kind : ResetKind) (inst : Nat) (h : Hit) : Bool :=
  match kind with
  | .port => (0x30000 ≤ h.d.addr && h.d.addr < 0x40000 && h.i = inst) ||
      (0x20400 ≤ h.d.addr && h.d.addr < 0x20500 && h.i = inst)
  | .memch => (0xB1000 ≤ h.d.addr && h.d.addr < 0xC0000 && h.d.n1 = 8 && h.i = inst)
  | .engine => (0x11000 ≤ h.d.addr && h.d.addr < 0x13000 && h.i = inst) ||
      (0xA1000 ≤ h.d.addr && h.d.addr < 0xB0000 && h.i = inst)
  | _ => true

/-- The registers after a reset: fields the kind does not keep return to their reset values, those whose entry is a dash on every kind
(R11, R478); of the others, a PORT, ENGINE or MEMCH reset touches those of its own unit. Fields that report a present state
with a value stored here keep it unless the reset's own rule changes it. -/
def State.resetRegs (s : State) (kind : ResetKind) (inst : Nat := 0) : State :=
  { s with regs := tkeep s.regs (fun k => match descOfKey k with
    | none => true
    | some h => keeps h.d.kept kind || (if h.d.kept = .none then h.d.acc = .ro && kind != .cold else !ownedBy kind inst h)) }

end Sys2Proof.Machine
end

