-- ==== Sys2Proof/Machine/Operands.lean ====
section
/-! DEFINITION. Frames as the ports and the ingress core read them (R62-R68): addresses, tags, IP and UDP headers,
checksums, CRCs and the pattern filters. Bytes on the wire are in network order (R5). -/

namespace Sys2Proof.Machine

/-- Byte `i` of a list, 0 beyond its end. -/
def byteAt (l : List Byte) (i : Nat) : Nat := (l.getD i 0).toNat

/-- The 16-bit and 32-bit numbers at byte `i`, network order. -/
def be16 (l : List Byte) (i : Nat) : Nat := byteAt l i * 256 + byteAt l (i + 1)
def be32 (l : List Byte) (i : Nat) : Nat := be16 l i * 65536 + be16 l (i + 2)

/-- `n` bytes from byte `i`. -/
def slice (l : List Byte) (i n : Nat) : List Byte := (l.drop i).take n

/-! ### Check values -/

/-- One bit of a reflected CRC-32. -/
def crcBit (poly c : Nat) : Nat := if c % 2 = 1 then (c / 2) ^^^ poly else c / 2

/-- Eight bits of a reflected CRC. -/
def crcByte (poly c : Nat) (b : Byte) : Nat := (List.range 8).foldl (fun c _ => crcBit poly c) (c ^^^ b.toNat)

/-- A reflected CRC-32 over bytes from a start value, without a final XOR. -/
def crcReflected (poly start : Nat) (l : List Byte) : Nat := l.foldl (crcByte poly) start

/-- The Ethernet FCS, also the CRC-32 of the ring (R455) and of EEPROM and state images. -/
def crc32 (l : List Byte) : Nat := crcReflected 0xEDB88320 0xFFFFFFFF l ^^^ 0xFFFFFFFF

/-- CRC-32C from a seed without a final XOR: the flow-table hash (R90). -/
def crc32c (seed : Nat) (l : List Byte) : Nat := crcReflected 0x82F63B78 seed l

/-- One byte of the pattern filters' CRC-16 (R68): polynomial 0x1021, most significant bit first. -/
def crc16Byte (c : Nat) (b : Byte) : Nat :=
  (List.range 8).foldl (fun c _ => if c ≥ 0x8000 then (c * 2 % 65536) ^^^ 0x1021 else c * 2) (c ^^^ (b.toNat * 256))

/-- The CRC-16 of R68. -/
def crc16 (l : List Byte) : Nat := l.foldl crc16Byte 0xFFFF

/-- Fold a sum into 16 bits with end-around carry. -/
def fold16 (n : Nat) : Nat := let a := n % 65536 + n / 65536; a % 65536 + a / 65536

/-- The ones' complement sum of 16-bit words in network order. -/
def sum16 : List Byte → Nat
  | [] => 0
  | [a] => a.toNat * 256
  | a :: b :: r => a.toNat * 256 + b.toNat + sum16 r

/-- The internet checksum of bytes. -/
def inetSum (l : List Byte) : Nat := fold16 (fold16 (sum16 l))

/-! ### Headers -/

/-- Layer 3 of a frame without its tag: version, the destination and source in the form of Table 4.1, the protocol
after IPv6 extension headers, where layer 4 starts, its length, whether the IPv4 header checksum holds, whether it is
a fragment. -/
structure L3 where
  v6     : Bool
  src    : BitVec 128
  dst    : BitVec 128
  proto  : Nat
  l4     : Nat
  l4len  : Nat
  hdrOk  : Bool
  frag   : Bool

/-- An IPv4 address at byte `i` as an IPv4-mapped address, first byte on the wire least significant (Table 4.1). -/
def mapped4 (l : List Byte) (i : Nat) : BitVec 128 :=
  BitVec.ofNat 128 (leNat (List.replicate 10 0 ++ [0xFF, 0xFF] ++ slice l i 4))

/-- An IPv6 address at byte `i`. -/
def addr6 (l : List Byte) (i : Nat) : BitVec 128 := BitVec.ofNat 128 (leNat (slice l i 16))

/-- Walk IPv6 extension headers: the last protocol, its offset, and whether a fragment header was met. Each is at least 8 bytes, so the
frame's length bounds their number. -/
def walk6 (l : List Byte) : Nat → Nat → Nat → Nat × Nat × Bool
  | 0, proto, off => (proto, off, false)
  | n + 1, proto, off =>
    if proto = 44 then (proto, off, true)
    else if proto = 51 then walk6 l n (byteAt l off) (off + 8 + 4 * byteAt l (off + 1))
    else if proto ∈ [0, 43, 60, 135, 139, 140] then walk6 l n (byteAt l off) (off + 8 + 8 * byteAt l (off + 1))
    else (proto, off, false)

/-- Layer 3 at byte 14 of an untagged frame without FCS, where the EtherType says IP. -/
def parseL3 (l : List Byte) : Option L3 :=
  let et := be16 l 12
  if et = 0x0800 then
    let ihl := (byteAt l 14 % 16) * 4
    let total := be16 l 16
    let fits := byteAt l 14 / 16 = 4 && decide (20 ≤ ihl) && decide (14 + ihl ≤ l.length)
    let fo := be16 l 20
    some { v6 := false, src := mapped4 l 26, dst := mapped4 l 30, proto := byteAt l 23, l4 := 14 + ihl, l4len := total - ihl,
           hdrOk := fits && inetSum (slice l 14 ihl) = 0xFFFF, frag := (fo / 0x2000) % 2 = 1 || fo % 0x2000 != 0 }
  else if et = 0x86DD then
    let w := walk6 l (l.length / 8) (byteAt l 20) 54
    some { v6 := true, src := addr6 l 22, dst := addr6 l 38, proto := w.1, l4 := w.2.1, l4len := be16 l 18 + 54 - w.2.1,
           hdrOk := true, frag := w.2.2 }
  else none

/-- The UDP datagram of a frame: header and payload, of the UDP length. -/
def udpOf (l : List Byte) (h : L3) : List Byte := slice l h.l4 (be16 l (h.l4 + 4))

/-- The ones' complement sum over pseudo-header and datagram; 0xFFFF when the checksum holds. -/
def udpSum (h : L3) (d : List Byte) : Nat :=
  let a := fun (x : BitVec 128) => if h.v6 then leBytes 16 x.toNat else (leBytes 16 x.toNat).drop 12
  inetSum (a h.src ++ a h.dst ++ beBytes 4 d.length ++ [0, 0, 0, 17] ++ d)

/-- The checksum of a UDP datagram holds; 0x0000 on IPv4 means none is present (R67). A length below 8 or past the end of the frame
counts as a wrong checksum: DESIGN CHOICE (log 101). -/
def udpOk (l : List Byte) (h : L3) : Bool :=
  let len := be16 l (h.l4 + 4)
  let d := udpOf l h
  decide (8 ≤ len) && decide (h.l4 + len ≤ l.length) && ((!h.v6 && be16 d 6 = 0) || udpSum h d = 0xFFFF)

/-- A TPID the port strips (R66). -/
def isTpid (x : Nat) : Bool := x = 0x8100 || x = 0x88A8

/-- A frame without its FCS as received, its tag stripped. -/
def stripTag (l : List Byte) : List Byte := if isTpid (be16 l 12) then l.take 12 ++ l.drop 16 else l

/-- The MAC address of six wire bytes: first byte in bits [7:0] (R84). -/
def macAt (l : List Byte) (i : Nat) : Nat := leNat (slice l i 6)

/-- 01-80-C2-00-00-01 and the broadcast address. -/
def pauseMac : Nat := leNat [0x01, 0x80, 0xC2, 0x00, 0x00, 0x01]
def broadcastMac : Nat := 0xFFFFFFFFFFFF

/-! ### Pattern filters -/

/-- Filter f of port p as it stands (R68). -/
def State.filterCfg (s : State) (p f : Nat) : FilterCfg :=
  { mask := BitVec.ofNat 128 (s.rd filtMaskLo p f + s.rd filtMaskHi p f * 2 ^ 64), crc := BitVec.ofNat 16 (s.rd filtCrc p f),
    action := s.rd filtAction p f, steerQ := s.rd filtSteerQ p f }

/-- The bytes a mask selects, in rising order; `none` where one lies beyond the frame before its FCS. -/
def selected (mask : BitVec 128) (l : List Byte) : Option (List Byte) :=
  let idx := (List.range 128).filter (fun i => mask.getLsbD i)
  if idx.all (· < l.length) then some (idx.map (fun i => l.getD i 0)) else none

/-- The filter matches a frame without its FCS, tag in place (R68). -/
def filterHit (f : FilterCfg) (l : List Byte) : Bool :=
  f.action != 0 && (match selected f.mask l with
    | none => false
    | some b => crc16 b = f.crc.toNat)

/-- The lowest-numbered matching filter (R69). -/
def firstHit (fs : List FilterCfg) (l : List Byte) : Option Nat := fs.findIdx? (fun f => filterHit f l)

end Sys2Proof.Machine
end

