-- ==== Sys2Proof/Machine/HostOps.lean ====
section
/-! DEFINITION. Shared operations of ingress, ports and capture: the packet-buffer book (R110), host exception queues
(R99, R412) and capture rings (R435, R437-R441). -/

namespace Sys2Proof.Machine

/-! ### Packet buffers: classes 0 MEDIA, 1 IMM, 2 EXC, 3 EGR -/

/-- Buffers of 256 bytes a frame takes (R110). -/
def buffersOf (size : Nat) : Nat := (size + 255) / 256

def State.heldOf (s : State) (c : Nat) : Nat := tget s.ing.held c 0

/-- RESERVE and LIMIT of a class. -/
def State.reserveOf (s : State) (c : Nat) : Nat :=
  match c with
  | 0 => s.rd flwPoolReserve0
  | 1 => s.rd flwPoolReserve1
  | 2 => s.rd flwPoolReserve2
  | _ => s.rd flwPoolReserve3
def State.limitOf (s : State) (c : Nat) : Nat :=
  match c with
  | 0 => s.rd flwPoolLimit0
  | 1 => s.rd flwPoolLimit1
  | 2 => s.rd flwPoolLimit2
  | _ => s.rd flwPoolLimit3

/-- FREE of the book (R110). A transit begins and ends inside a row, so none is ever in transit between rows (R31). -/
def State.bufFree (s : State) : Nat := 131072 - s.bufHeld

/-- n buffers are admitted to class c (R110). -/
def State.admits (s : State) (c n : Nat) : Bool :=
  let unmet := ((List.range 4).filter (· != c)).foldl (fun a k => a + (s.reserveOf k - s.heldOf k)) 0
  decide (s.heldOf c + n ≤ s.reserveOf c) ||
    (decide (s.heldOf c + n ≤ s.limitOf c) && decide (unmet + n ≤ s.bufFree))

/-- Class c takes n buffers; it frees n buffers. -/
def State.takeBuf (s : State) (c n : Nat) : State :=
  { s with ing := { s.ing with held := tset s.ing.held c (s.heldOf c + n) 0 } }
def State.freeBuf (s : State) (c n : Nat) : State :=
  { s with ing := { s.ing with held := tset s.ing.held c (s.heldOf c - n) 0 } }

/-! ### Exception queues -/

/-- ESIZE of exception queue x. -/
def State.xqEsize (s : State) (x : Nat) : Nat := 2 ^ s.rd xqEsizeLog2 x

/-- Write bytes into the ring of exception queue x from byte position `pos`, wrapping at its end. -/
def State.xqBytes (s : State) (x pos : Nat) (b : List Byte) : State :=
  let total := s.rd xqCount x * s.xqEsize x
  let p := pos % total
  let room := total - p
  let s1 := s.hsWrite (s.rd xqBase x + p) (b.take room)
  if b.length ≤ room then s1 else s1.hsWrite (s.rd xqBase x) (b.drop room)

/-- A frame is written to exception queue x, or dropped whole and counted where fewer than E + 1 entries are free or
the queue is disabled (R412). -/
def State.xqWrite (s : State) (x cls filter port : Nat) (m : RxMeta) : State :=
  let count := s.rd xqCount x
  let r := tget s.host.xq x {}
  let tail := s.rd xqTail x
  let e := (64 + m.data.length + s.xqEsize x - 1) / s.xqEsize x
  let used := (tail + count - r.head) % count
  if !s.flag xqEn x || count - used < e + 1 then s.bump mbxXqDrop x
  else
    let w0 := m.data.length % 2 ^ 14 + port * 2 ^ 14 + cls * 2 ^ 16 + filter * 2 ^ 19 + e % 256 * 2 ^ 24 + m.vid % 4096 * 2 ^ 32 +
      m.pcp % 8 * 2 ^ 44 + b2n m.tagged * 2 ^ 47 + b2n r.phase * 2 ^ 63
    let seq := (r.seq + 1) % 2 ^ 32
    let head := wordBytes [w0, m.stamps.getD (s.rd timPortRxTb port) 0, seq, 0, 0, 0, 0, 0]
    let s1 := (s.xqBytes x (tail * s.xqEsize x + 64) m.data).xqBytes x (tail * s.xqEsize x) head
    let wrap := tail + e ≥ count
    let s2 := s1.wr xqTail ((tail + e) % count) x
    State.msi { s2 with host := { s2.host with xq := tset s2.host.xq x { r with phase := if wrap then !r.phase else r.phase, seq := seq } {} } }
      (s.rd xqVec x)

/-- The exception rates count in the 1 ms window of TB0 that stands now (R99). -/
def State.excNow (s : State) : State :=
  let w := s.tbVal 0 / 1000000
  if w = s.ing.excWindow then s else { s with ing := { s.ing with excWindow := w, excCount := [] } }

/-- A frame goes to exception queue q under the queue's rate (R99) and the admission of its EXC buffers (R110); they
are freed either way (R111). -/
def State.exception (s0 : State) (q cls filter port : Nat) (m : RxMeta) : State :=
  let s := s0.excNow
  let n := tget s.ing.excCount q 0
  if n ≥ (s.rd flwExcRate q + 999) / 1000 then s.bump flwExcRateDrop
  else if !s.admits 2 (buffersOf m.data.length) then s.bump flwNobuf 2
  else State.xqWrite { s with ing := { s.ing with excCount := tset s.ing.excCount q (n + 1) 0 } } q cls filter port m

/-! ### Capture rings. Source 0 to 65,535: the replay buffer of a channel; 65,536 + p: the ring of port p. -/

/-- Bytes a record takes of its ring (R434, R437). -/
def recBytes (src : Nat) (r : CapRec) : Nat :=
  if src ≥ 65536 then 32 + (r.data.length + 7) / 8 * 8 else 8 + r.data.length

/-- Bytes held. -/
def ringBytes (src : Nat) (l : List CapRec) : Nat := l.foldl (fun a r => a + recBytes src r) 0

/-- Oldest records give way until the new one fits; `none` where a frozen record would have to (R441). -/
def makeRoom (src need cap : Nat) (frozen : Option (Nat × Nat)) : List CapRec → Option (List CapRec)
  | [] => if need ≤ cap then some [] else none
  | r :: rest =>
    if ringBytes src (r :: rest) + need ≤ cap then some (r :: rest)
    else if frozen.any (fun f => decide (f.1 ≤ r.seq) && decide (r.seq < f.2)) then none
    else makeRoom src need cap frozen rest

/-- Append a record to a running capture; a record that only a frozen one could make room for is left out and counted
(R437, R441). Nothing is written from a WARM reset until media resumes (R448). -/
def State.capAppend (s : State) (src : Nat) (r : CapRec) : State :=
  match s.cap.caps.find? (fun e => e.1 = src) with
  | none => s
  | some (_, c) =>
    if c.stopping || s.img.warmHold then s else
    match makeRoom src (recBytes src r) c.capacity c.frozen c.records with
    | none => if src ≥ 65536 then s.bump lakCapDrop (src - 65536) else s.bump lakReplayDrop
    | some l =>
      let c' : Capture := { c with records := l ++ [{ r with seq := c.nextSeq }], nextSeq := c.nextSeq + 1 }
      { s with cap := { s.cap with caps := tins s.cap.caps src c' } }

/-- Leading `n` bits of two addresses are equal, most significant wire bit first. -/
def prefixEq (n : Nat) (a b : BitVec 128) : Bool :=
  let key := fun (x : BitVec 128) => beNat (leBytes 16 x.toNat) / 2 ^ (128 - n)
  key a = key b

/-- A capture filter matches a frame without FCS, tag in place (Table 18.1). `dir`: 1 receive, 2 transmit. -/
def capHit (f : CapFilter) (dir : Nat) (l : List Byte) : Bool :=
  let vid := if isTpid (be16 l 12) then be16 l 14 % 4096 else 0
  let b := stripTag l
  let dirOk := f.dir = 3 || f.dir = dir
  let all := f.prefixLen = 0 && f.portLo = 0 && f.portHi = 65535 && !f.vidEn
  match parseL3 b with
  | some h =>
    if h.proto = 17 then
      let locPort := if dir = 1 then be16 b (h.l4 + 2) else be16 b h.l4
      let loc := if dir = 1 then h.dst else h.src
      let rem := if dir = 1 then h.src else h.dst
      dirOk && (!f.vidEn || f.vid = vid) && decide (f.portLo ≤ locPort) && decide (locPort ≤ f.portHi) &&
        prefixEq f.prefixLen (if f.side then loc else rem) f.addr
    else dirOk && all
  | none => dirOk && all

/-- A frame that a port counts is written to its capture ring if one runs and a filter takes it, within the rate of
24 GB/s over all ports (R437-R439). DESIGN CHOICE (log 12): the rate is judged over each whole microsecond. -/
def State.capFrame (s : State) (p dir time : Nat) (l : List Byte) : State :=
  match s.cap.caps.find? (fun e => e.1 = 65536 + p) with
  | none => s
  | some (_, c) =>
    if !(c.filters.isEmpty || c.filters.any (fun f => capHit f dir l)) then s else
    let kept := l.take c.snaplen
    let r : CapRec := { time := time, dir := dir, kind := 0, rate := 0, orig := l.length, data := kept }
    let n := recBytes (65536 + p) r
    let used := if s.cap.rateUs = s.now / 1000 then s.cap.rateBytes else 0
    if used + n > 24000 then s.bump lakCapDrop p
    else State.capAppend { s with cap := { s.cap with rateUs := s.now / 1000, rateBytes := used + n } } (65536 + p) r

end Sys2Proof.Machine
end

