-- ==== Sys2Proof/Machine/MorOps.lean ====
section
/-! DEFINITION. Shared operations of Mordant (spec/13_scheduler.md): homes and assigned load (R311), the decision trace
(R330), forming and due skeins (R316), cancels (R320, R321), and the loss of jobs (R50). -/

namespace Sys2Proof.Machine

/-! ### Engines and lists -/

/-- Keep the idleness of an engine up to date (R322): nothing runs, its dispatch queue is empty and no skein is due. -/
def State.idle (s : State) (e : Nat) : State :=
  s.modMe e (fun m => { m with idleSince :=
    if m.running.isNone && m.dq.isEmpty && m.due.isEmpty then some (m.idleSince.getD s.now) else none })

/-- Task slots in transit (R31, R313): those that `e` has sent, and those on their way to it. -/
def State.slotsFrom (s : State) (e : Nat) : Nat := (s.mor.transit.filter (fun x => x.src = e)).foldl (fun a x => a + x.skein.tasks.length) 0
def State.slotsTo (s : State) (e : Nat) : Nat := (s.mor.transit.filter (fun x => x.dest = e)).foldl (fun a x => a + x.skein.tasks.length) 0

/-- FREE of the slot book (R314): neither held nor in transit. -/
def State.slotsFree (s : State) (e : Nat) : Nat := 1024 - (slotsHeld (s.me e) + s.slotsFrom e)

/-- Slots of an engine that a further task can take: free, and not awaited by what is on its way there (R313). -/
def State.freeSlots (s : State) (e : Nat) : Nat := s.slotsFree e - s.slotsTo e

/-- Raise the high-water mark of an engine's list. -/
def State.markHeld (s : State) (e : Nat) : State := s.highWater morQHwm (slotsHeld (s.me e)) e

/-- Free the IMM buffers a task still holds (R111). -/
def State.immFree (s : State) (t : Task) : State :=
  (s.freeBuf 1 t.buffers).modChan t.ch (fun c => { c with ingressHeld := c.ingressHeld - t.buffers })

/-- A new skein number. -/
def State.newNum (s : State) : State := { s with mor := { s.mor with nextNum := s.mor.nextNum + 1 } }

/-- Earliest deadline of a skein (R318). -/
def Skein.deadline (k : Skein) : Nat :=
  match k.tasks with
  | [] => 0
  | t :: r => r.foldl (fun a x => min a x.deadline) t.deadline

/-- Class of a due skein for the order of dispatch (R310). -/
def State.effClass (s : State) (k : Skein) : Nat :=
  if k.cls ≥ 2 && k.deadline < s.now + us (10 * s.rd morPromote) then 1 else k.cls

/-! ### The decision trace (R330) -/

/-- One decision: kind, engine, other engine, class, lanes, key, channel, reason, deadline. -/
structure Decision where
  kind     : Nat
  engine   : Nat
  other    : Nat := 0xFF
  cls      : Nat
  lanes    : Nat := 1
  key      : SkeinKey
  chan     : Nat
  reason   : Nat := 0
  deadline : Nat

/-- The four words of a trace entry (Table 13.5). -/
def State.traceWords (s : State) (d : Decision) : List Nat :=
  [s.tbVal 0,
   d.kind + d.engine * 2 ^ 8 + d.other * 2 ^ 16 + d.cls * 2 ^ 24 + d.lanes * 2 ^ 32 + d.key.kernel * 2 ^ 48,
   d.chan + d.key.mode % 256 * 2 ^ 16 + d.key.period * 2 ^ 24 + d.key.tb * 2 ^ 28 + d.reason * 2 ^ 32,
   wrapInt 32 ((d.deadline : Int) - s.now) + s.slotsFree d.engine * 2 ^ 32 + (s.mor.traced + 1) % 65536 * 2 ^ 48]

/-- Count a decision whose kind is traced; every 2^(RATE-1)th is written at WPTR, whole before WPTR advances. -/
def State.trace (s : State) (d : Decision) : State :=
  let rate := s.rd morTraceRate
  if rate = 0 || !bit (s.rd morTraceKinds) d.kind then s else
  let s1 := { s with mor := { s.mor with decisions := s.mor.decisions + 1 } }
  if s1.mor.decisions % 2 ^ (rate - 1) != 0 then s1 else
  let p := s.rd morTraceWptr
  let s2 := s1.hsWrite (s.rd morTraceBase + 32 * p) (wordBytes (s1.traceWords d))
  let s3 := { s2 with mor := { s2.mor with traced := s2.mor.traced + 1 } }.wr morTraceWptr (p + 1)
  if p + 1 = 65536 then s3.bump morTraceWraps else s3

/-- A decision about one task. -/
def State.traceTask (s : State) (kind e other reason : Nat) (t : Task) : State :=
  s.trace { kind := kind, engine := e, other := other, cls := t.cls, key := s.keyOf t.ch, chan := t.ch, reason := reason, deadline := t.deadline }

/-- The tasks of a skein: from the dispatch queue on, those of the lanes still set. -/
def lanesLeft (k : Skein) : List Task := if k.mask = 0 then k.tasks else ((k.tasks.zipIdx).filter (fun t => k.mask.getLsbD t.2)).map (·.1)

/-- A decision about a skein: its lane mask, and the channel of its lowest lane (Table 13.5). -/
def State.traceSkein (s : State) (kind e other reason : Nat) (k : Skein) : State :=
  let left := { k with tasks := lanesLeft k }
  s.trace { kind := kind, engine := e, other := other, cls := s.effClass left, lanes := if k.mask = 0 then 2 ^ k.tasks.length - 1 else k.mask.toNat, key := k.key
            chan := (left.tasks.head?.map (·.ch)).getD 0, reason := reason, deadline := left.deadline }

/-- A skein of the dispatch queue returns to the ready list with the lanes it has left (R318, R324). -/
def returned (k : Skein) : Skein := { k with tasks := lanesLeft k, mask := 0 }

/-! ### Homes (R311) -/

/-- Assigned load of an engine: the planned load of the channels whose home it is, in sixteenths of an engine-us per
second. -/
def State.assigned (s : State) (e : Nat) : Nat :=
  s.chans.foldl (fun a c => if c.2.home = some e then a + s.loadOf c.1 else a) 0

/-- The engine of a list with the least assigned load, the first on a tie. -/
def State.leastLoaded (s : State) (l : List Nat) : Option Nat :=
  (l.foldl (fun (a : Option (Nat × Nat)) e =>
    let x := s.assigned e
    match a with
    | none => some (e, x)
    | some b => if x < b.2 then some (e, x) else a) none).map (·.1)

/-- Engines in service for assignment and stealing. -/
def State.serving (s : State) : List Nat := (List.range 96).filter (fun e => (s.me e).service = 0)

/-- Channels of a group, key and phase position, that an engine holds. -/
def State.groupHeld (s : State) (key : SkeinKey) (pos e : Nat) : Nat :=
  (s.chans.filter (fun c => c.2.home = some e && c.2.steep.phase = pos && decide (s.keyOf c.1 = key))).length

/-- The home of a channel is fixed: the collecting engine of its group where that engine serves and holds fewer than 16
channels of it, else the least loaded engine, which then collects. -/
def State.assignHome (s : State) (ch : Nat) (t : Task) : State :=
  if (s.chan ch).home.isSome then s else
  let key := s.keyOf ch
  let pos := (s.chan ch).steep.phase
  let g := s.mor.groups.find? (fun g => decide (g.1 = key) && g.2.1 = pos)
  let fits := fun (e : Nat) => (s.me e).service = 0 && decide (s.groupHeld key pos e < 16)
  match g.filter (fun g => fits g.2.2) with
  | some (_, _, e) => (s.modChan ch (fun c => { c with home := some e })).traceTask 7 e 0xFF 0 t
  | none =>
    match s.leastLoaded s.serving with
    | none => s
    | some e =>
      let rest := s.mor.groups.filter (fun g => !(decide (g.1 = key) && g.2.1 = pos))
      let s1 := { s with mor := { s.mor with groups := rest ++ [(key, pos, e)] } }
      (s1.modChan ch (fun c => { c with home := some e })).traceTask 7 e 0xFF 0 t

/-! ### Forming skeins (R316, R318, R319) -/

/-- The window of a class, ns. -/
def State.window (s : State) (cls : Nat) : Nat :=
  match cls with
  | 0 => 0
  | 1 => us (s.rd morWinSaffron)
  | _ => us (s.rd morWinMedia)

/-- Order of dispatch among due skeins (R318): class, deadline, close time, number. -/
def State.better (s : State) (a b : Skein) : Bool :=
  let ca := s.effClass a
  let cb := s.effClass b
  if ca != cb then decide (ca < cb)
  else if a.deadline != b.deadline then decide (a.deadline < b.deadline)
  else if a.closedAt != b.closedAt then decide (a.closedAt < b.closedAt)
  else decide (a.num < b.num)

/-- The best of a list of due skeins. -/
def State.best (s : State) : List Skein → Option Skein
  | [] => none
  | k :: r => match s.best r with
    | none => some k
    | some b => if s.better b k then some b else some k

/-- A class 0 skein that is due on an engine running a skein of another class is to run by SWITCH (R318, R319): it takes the
head of the dispatch queue; if the queue is full its last skein becomes due again. One waits there at a time. -/
def State.raiseSwitch (s : State) (e : Nat) : State :=
  let m := s.me e
  let busy := m.running.any (fun k => k.cls != 0) && m.suspended.isNone && !m.dq.any (fun k => k.cls = 0)
  match (if busy then s.best (m.due.filter (fun k => k.cls = 0)) else none) with
  | none => s
  | some k =>
    let k1 := { k with mask := BitVec.ofNat 16 (2 ^ k.tasks.length - 1) }
    let due := m.due.filter (fun x => x.num != k.num)
    let full := decide (4 ≤ m.dq.length)
    let s1 := s.modMe e (fun m => { m with due := if full then due ++ (m.dq.drop 3).map returned else due, dq := k1 :: m.dq.take 3 })
    s1.modEng e (fun x => { x with irqSwitch := true })

/-- A forming skein of an engine closes (R316). -/
def State.closeSkein (s : State) (e num : Nat) : State :=
  match (s.me e).forming.find? (fun k => k.num = num) with
  | none => s
  | some k =>
    let k1 := { k with closedAt := s.now }
    let s1 := s.modMe e (fun m => { m with forming := m.forming.filter (fun x => x.num != num), due := m.due ++ [k1] })
    ((s1.traceSkein 2 e 0xFF 0 k1).idle e).raiseSwitch e

/-- A task joins the forming skein of its key, or opens one; 16 tasks or a window of 0 close it. -/
def State.joinForming (s : State) (e : Nat) (t : Task) : State :=
  let key := s.keyOf t.ch
  let m := s.me e
  match m.forming.find? (fun k => decide (k.key = key) && k.cls = t.cls) with
  | some k =>
    let s1 := s.modMe e (fun m => { m with forming := m.forming.map (fun x => if x.num = k.num then { x with tasks := x.tasks ++ [t] } else x) })
    if 16 ≤ k.tasks.length + 1 then s1.closeSkein e k.num else s1
  | none =>
    let k : Skein := { num := s.mor.nextNum, key := key, cls := t.cls, tasks := [t], openedAt := t.acceptedAt }
    let s1 := s.newNum.modMe e (fun m => { m with forming := m.forming ++ [k] })
    if s.window t.cls = 0 then s1.closeSkein e k.num else s1

/-- A class 0 task of the channel waits undispatched somewhere. -/
def State.immQueued (s : State) (ch : Nat) : Bool :=
  let own := fun (t : Task) => t.ch = ch && t.cls = 0
  s.mor.engines.any (fun e => e.2.waiting.any own || (e.2.forming ++ e.2.due ++ e.2.dq).any (fun k => k.tasks.any own)) ||
    s.mor.transit.any (fun x => x.skein.tasks.any own)

/-- An accepted task enters an engine's list (R313, R317): while its channel has a job that has not reached END, or an earlier
class 0 task where it is one itself, it joins no skein. -/
def State.enlist (s : State) (e : Nat) (t : Task) : State :=
  let held := (s.chan t.ch).jobsRunning != 0 || (t.cls = 0 && s.immQueued t.ch)
  let s1 := if held then s.modMe e (fun m => { m with waiting := m.waiting ++ [t] }) else s.joinForming e t
  s1.markHeld e

/-! ### Cancels (R320, R321) -/

/-- A skein without the tasks of a channel that pass; it is dropped when none is left. -/
def dropTasks (p : Task → Bool) (l : List Skein) : List Skein :=
  (l.map (fun k => { k with tasks := k.tasks.filter (fun t => !p t) })).filter (fun k => !k.tasks.isEmpty)

/-- A dispatch queue with the lanes of the tasks that pass cleared; a skein with no lane left is discarded. -/
def clearLanes (p : Task → Bool) (l : List Skein) : List Skein :=
  (l.map (fun k => { k with mask := (k.tasks.zipIdx).foldl (fun m t => if p t.1 then m &&& ~~~((1 : Word16) <<< t.2) else m) k.mask })).filter
    (fun k => k.mask != 0)

/-- Tasks of skeins in a dispatch queue whose lanes are still set. -/
def queuedTasks (l : List Skein) : List Task :=
  l.flatMap (fun k => ((k.tasks.zipIdx).filter (fun t => k.mask.getLsbD t.2)).map (·.1))

/-- Cancel one engine's undispatched tasks that pass, each counted where it stood. -/
def State.cancelOn (s : State) (e reason : Nat) (p : Task → Bool) : State :=
  let m := s.me e
  let pre := (m.waiting ++ (m.forming ++ m.due).flatMap (·.tasks)).filter p
  let lane := (queuedTasks m.dq).filter p
  if pre.isEmpty && lane.isEmpty then s else
  let s1 := s.modMe e (fun m => { m with waiting := m.waiting.filter (fun t => !p t), forming := dropTasks p m.forming
                                         due := dropTasks p m.due, dq := clearLanes p m.dq })
  let s2 := (s1.bumpBy morCancelPre pre.length e).bumpBy morCancelLane lane.length e
  ((pre ++ lane).foldl (fun s t => (s.immFree t).traceTask 5 e 0xFF reason t) s2).idle e

/-- Cancel the undispatched tasks of a channel that pass on every engine and in transit. -/
def State.cancelAll (s : State) (ch reason : Nat) (p : Task → Bool) : State :=
  let home := (s.chan ch).home.getD 0
  let moving := (s.mor.transit.flatMap (fun x => x.skein.tasks)).filter p
  let s1 := { s with mor := { s.mor with
    transit := (s.mor.transit.map (fun x => { x with skein := { x.skein with tasks := x.skein.tasks.filter (fun t => !p t) } })).filter (fun x => !x.skein.tasks.isEmpty) } }
  let s2 := moving.foldl (fun s t => ((s.immFree t).bump morCancelPre home).traceTask 5 home 0xFF reason t) s1
  (List.range 96).foldl (fun s e => s.cancelOn e reason p) s2

/-- Cancel a channel's undispatched tasks, of class 0 too where `imm` (R320): those still in Steep's release queue are never
accepted and count before acceptance, on the channel's home. -/
def State.cancelTasks (s : State) (ch reason : Nat) (imm : Bool) : State :=
  let p := fun (t : Task) => t.ch = ch && (imm || t.cls != 0)
  let home := (s.chan ch).home.getD 0
  let early := s.mor.relQ.filter p
  let s1 := { s with mor := { s.mor with relQ := s.mor.relQ.filter (fun t => !p t) } }
  let s2 := early.foldl (fun s t => (s.bump morCancelPre home).traceTask 5 home 0xFF reason t) s1
  s2.cancelAll ch reason p

/-- Some undispatched task of classes 1 to 3 that Mordant has accepted for a channel (R317). -/
def State.undispatched (s : State) (ch : Nat) : Bool :=
  let own := fun (t : Task) => t.ch = ch && t.cls != 0
  s.mor.engines.any (fun e => e.2.waiting.any own || (e.2.forming ++ e.2.due).any (fun k => k.tasks.any own) || (queuedTasks e.2.dq).any own) ||
    s.mor.transit.any (fun x => x.skein.tasks.any own)

/-- A new task of classes 1 to 3 supersedes the channel's undispatched one (R317). -/
def State.supersede (s : State) (ch : Nat) : State :=
  if !s.undispatched ch then s else
  (s.cancelAll ch 1 (fun t => t.ch = ch && t.cls != 0)).modChan ch (fun c => { c with ctr := { c.ctr with skipped := c.ctr.skipped + 1 } })

/-! ### Ends of jobs -/

/-- A job that does not finish (R50): SKIPPED_TICKS rises for a task that had a tick. -/
def State.jobLost (s : State) (t : Task) : State :=
  if t.cls = 0 then s else s.modChan t.ch (fun c => { c with ctr := { c.ctr with skipped := c.ctr.skipped + 1 } })

/-- The tasks that waited for the END of a channel's job join their skeins (R317): its media or Saffron task, and the oldest of
its class 0 tasks unless one is already under way. -/
def State.endWaits (s : State) (ch : Nat) : State :=
  (List.range 96).foldl (fun s e =>
    let mine := (s.me e).waiting.filter (fun t => t.ch = ch)
    if mine.isEmpty then s else
    let imm := mine.find? (fun t => t.cls = 0)
    let go := (mine.filter (fun t => t.cls != 0)) ++ imm.toList
    let s1 := s.modMe e (fun m => { m with waiting := m.waiting.filter (fun t => !(go.contains t)) })
    go.foldl (fun s t => s.joinForming e t) s1) s

/-- The job of a lane ends for Mordant (R313): its slot is freed and the channel may start its next job. -/
def State.laneEnd (s : State) (t : Task) : State :=
  let s1 := (s.immFree t).endJob t.ch (fun c => { c with jobsRunning := c.jobsRunning - 1 })
  (s1.endWaits t.ch).tryPublish t.ch

end Sys2Proof.Machine
end

