-- ==== Sys2Proof/Machine/Inventory.lean ====
section
/-! DEFINITION. The surroundings inventory (R404): rebuilt whole, GEN rising by 1. -/

namespace Sys2Proof.Machine

/-- The image's RELEASE that Bister runs, 0 before an image has started. -/
def State.supRelease (s : State) : Nat := s.rd supImgSupRelease

/-- A neighbour's identity (Table 19.3), little-endian. -/
def identBytes (i : IdentityMsg) : List Byte :=
  leBytes 1 i.pos ++ leBytes 8 i.serial.toNat ++ leBytes 1 i.stepping ++ leBytes 2 i.release ++ leBytes 1 i.epoch ++ leBytes 1 i.slot

/-- The decoded fields that follow the EEPROM's bytes (Table 16.5, Table 22.7): board type, slot, base MAC address, ring position. -/
def boardFields (e : List Byte) : List Byte :=
  if e.isEmpty then [] else (e.drop 6).take 2 ++ (e.drop 8).take 1 ++ (e.drop 10).take 6 ++ (e.drop 9).take 1

/-- What of a module goes into the inventory (R59): identity, application codes, power class, thresholds. Their layout is not given:
DESIGN CHOICE (log 13). -/
def moduleBytes (m : ModuleInfo) : List Byte :=
  m.identity ++ leBytes 1 m.apps.length ++ m.apps.map (·.1) ++ leBytes 1 m.powerClass ++ m.thresholds

/-- The entries of the inventory (Table 16.5). The layout of the device entry's data is not given: DESIGN CHOICE (log
13): stepping, release, serial, lifecycle state in that order, little-endian. -/
def State.invEntries (s : State) : List InvEntry :=
  let device : InvEntry := { type := 1, inst := 0, status := 0, data := leBytes 1 0xB0 ++ leBytes 2 s.supRelease ++ leBytes 8 (s.rd secSerial) ++ leBytes 1 (s.rd secLifecycle) }
  let board : InvEntry := { type := 2, inst := 0, status := if s.sup.eepromOk then 0 else 2, data := s.sup.eeprom ++ boardFields s.sup.eeprom }
  let dimms := (List.range 16).map (fun i =>
    match (s.mc (i / 2)).spd.getD (i % 2) none with
    | none => ({ type := 3, inst := i, status := 1, data := [] } : InvEntry)
    | some l => ({ type := 3, inst := i, status := if s.rd memChState (i / 2) = 1 then 3 else 0, data := l } : InvEntry))
  let mods := (List.range 4).map (fun p =>
    let present := s.flag ethModPresent p
    ({ type := 4, inst := p, status := if !present then 1 else if (s.port p).modInfo.isNone then 2 else if (s.port p).modReady then 0 else 3, data := ((s.port p).modInfo.map moduleBytes).getD [] } : InvEntry))
  let ring := (List.range 2).map (fun x =>
    ({ type := 5, inst := x, status := if (s.link x).ident.isSome then 0 else 1, data := ((s.link x).ident.map identBytes).getD [] } : InvEntry))
  [device, board] ++ dimms ++ mods ++ ring

/-- The inventory's bytes in the window (R404): header, then entries of a 16-byte head and their data. -/
def State.invBytes (s : State) : List Byte :=
  let body := s.sup.inventory.flatMap (fun e =>
    wordBytes [e.type + e.inst % 256 * 2 ^ 8 + e.status * 2 ^ 16 + e.data.length * 2 ^ 32, 0] ++ e.data)
  let w0 := s.sup.invGen % 2 ^ 40 + 2 ^ 60
  wordBytes [w0, 64 + body.length + s.sup.inventory.length * 2 ^ 32, 0, 0, 0, 0, 0, w0 % 2 ^ 56] ++ body

/-- Rebuild the inventory (R404): its lines are taken back from the host (R394) and written whole (R497). Before Bister has started
there is none, and while it is away none is written. -/
def State.invRebuild (s : State) : State :=
  if s.rd mbxBootState < 4 || s.rd mbxBootState = 7 || s.rd mbxBootState = 15 then s
  else
    let t := { s with sup := { s.sup with inventory := s.invEntries, invGen := s.sup.invGen + 1 } }
    let n := (t.invBytes.length + 63) / 64
    let mine := fun (l : Nat) => decide (0x100000 ≤ l) && decide (l < 0x100000 + n)
    ((s.host.snoop.filter mine).foldl State.backInv t).unpoison (fun d => (List.range n).any (fun i => (s.copies (0x100000 + i)).contains d))

end Sys2Proof.Machine
end

