-- ==== Sys2Proof/Machine/Ports.lean ====
section
/-! DEFINITION. Ethernet ports (spec/03_network_ports.md, and R380-R383 of 15_time.md): link and modules, reception,
PAUSE, gates, transmission. -/

namespace Sys2Proof.Machine

/-! ### Completions of transmit descriptors -/

/-- A transmit descriptor ends: its buffers are recycled, then its completion is written (R111). -/
def State.txDone (s : State) (p : Nat) (d : TxDesc) (fate : TxFate) (lost : Bool) : State :=
  let s1 := (s.freeBuf 3 d.buffers).modPort p (fun x => { x with done := x.done ++ [{ owner := d.owner, fate := fate, tsLost := lost }] })
  match d.owner with
  | .egress ch => s1.tryPublish ch.val
  | _ => s1

/-- Count a descriptor that ends without being sent, and complete it. -/
def State.txDiscard (s : State) (p : Nat) (d : TxDesc) (fate : TxFate) : State :=
  let s1 := match fate with
    | .linkDown => s.bump txLinkDown p
    | .overlength => s.bump txOverlength p
    | .gateNever => s.bump txGateNever p
    | _ => s
  s1.txDone p d fate false

/-! ### Link -/

/-- The stages of bring-up in a mode (Table 3.1): auto-negotiation and training in modes 1, 2, 4 and 5, training complete before the PCS
locks; block lock first in mode 3 (R55, R532). -/
def bringUpStages (mode : Nat) : List LinkStage :=
  if mode = 3 then [.blockLock, .fecAlign]
  else if mode ∈ [1, 2, 4, 5] then [.autoNeg, .training, .blockLock, .fecAlign] else []

/-- The SerDes lanes of port p that a mode uses: none in mode 0, lanes 4p and 4p+1 in the two-lane modes, else 4p to 4p+3 (R54). -/
def serdesOf (mode p : Nat) : List Nat :=
  (List.range (if mode = 0 then 0 else if mode = 4 ∨ mode = 5 then 2 else 4)).map (4 * p + ·)

/-- What a port advertises under Clause 73: its configured mode alone, with the FEC of Table 3.1, and no PAUSE (R55). -/
def advertised (mode : Nat) : List Ability :=
  if mode = 1 ∨ mode = 2 then [{ mode := mode, fec := (528, 514) }]
  else if mode = 4 ∨ mode = 5 then [{ mode := mode, fec := (544, 514) }] else []

/-- The link partner offers an ability that the port advertises (R55). -/
def matchingAbility (mode : Nat) (offered : List Ability) : Bool :=
  (advertised mode).any (fun a => offered.any (fun o => o.mode = a.mode && o.fec = a.fec))

/-- The link of a port may come up: MODE is not 0, PD-LINK is powered and clocked, and a fitted module has been matched (R54, R60,
R520). -/
def State.mayLink (s : State) (p : Nat) : Bool :=
  s.rd ethMode p != 0 && !s.pwr.domainsOff.contains 27 && !s.pwr.ethLost && (!s.flag ethModPresent p || (s.port p).modReady)

/-- A port starts its bring-up from the first stage of its mode, on the lanes of that mode; it never gives up (R54, R532). -/
def State.bringUp (s : State) (p : Nat) : State :=
  s.modPort p (fun x => { x with lanes := serdesOf (s.rd ethMode p) p,
                                 stage := if s.mayLink p then (bringUpStages (s.rd ethMode p)).head? else none })

/-- The link of a port goes down: a frame on the wire is cut off (R82), and the bring-up starts again. -/
def State.portDown (s : State) (p : Nat) : State :=
  let s1 := State.bringUp ((s.wr ethLinkUp 0 p).wr ethFecLock 0 p) p
  match (s.port p).wire with
  | none => s1
  | some w =>
    let s2 := s1.modPort p (fun x => { x with wire := none, txStamps := x.txStamps.filter (fun t =>
      !(w.desc.twoStep.any (fun q => q.1.val = t.tb && q.2.toNat = t.tag && t.host = decide (w.desc.owner = TxOwner.host)))) })
    s2.txDiscard p w.desc .linkDown

/-- The application of a readable module that matches the port's MODE within the slot's power class (R59, R60). -/
def State.moduleApp (s : State) (p : Nat) : Option Byte :=
  match (s.port p).modInfo with
  | none => none
  | some m =>
    if m.spec = .unsupported || decide (m.powerClass > s.sup.modPower.getD p 0) then none
    else (m.apps.find? (fun a => a.2 = s.rd ethMode p)).map (·.1)

/-- The module of a port is still to be read or found unfit: its link is down and the module in low power (R60). -/
def State.holdModule (s : State) (p : Nat) (unread : Bool) : State :=
  (s.modPort p (fun x => { x with modReady := false, modUnread := unread, modApp := none, lowPower := true })).portDown p

/-- Bister judges the module of a port (R60): at a match it selects the application, releases MODn_LPM and enables the link; with none
the link stays down and MODULE_UNSUPPORTED is raised. While Bister is away the module waits unread. -/
def State.judgeModule (s : State) (p : Nat) : State :=
  if !s.served then s.holdModule p true
  else match s.moduleApp p with
    | none => (s.holdModule p false).raise 0x0010 uETH p 0xFFFF p
    | some a => (s.modPort p (fun x => { x with modReady := true, modUnread := false, modApp := some a, lowPower := false,
                                                monitorAt := s.now + sec 1 })).bringUp p

/-- Byte address of a port's block. -/
def ethBase (p : Nat) : Nat := 0x30000 + 0x2000 * p

/-- A write of ETH_CFG (R54, R58): a change of MODE, RX_POL or TX_POL takes the link down; it retrains. -/
def ethCfgWrite (p width v : Nat) (s : State) : State :=
  let s1 := s.writeReg (ethBase p) width v
  let same := fun (d : RegDesc) => s1.rd d p = s.rd d p
  if same ethMode && same ethRxPol && same ethTxPol then s1
  else
    let s2 := (s1.wr ethAnFail 0 p).portDown p
    if s2.flag ethModPresent p && !same ethMode then s2.judgeModule p else s2

def execEthCfgWrite (p : PortId) (width : Nat) (value : Word64) (s : State) : Out :=
  .next (ethCfgWrite p.val width value.toNat s)

/-- Bring-up ends, every stage of the mode passed (R55, R532): FEC lock and link. -/
def linkUp (p : Nat) (s : State) : State :=
  if s.mayLink p then
    (((s.wr ethLinkUp 1 p).wr ethFecLock 1 p).wr ethAnFail 0 p).modPort p (fun x => { x with stage := some .up })
  else s

def execLinkUp (p : PortId) (s : State) : Out := .next (linkUp p.val s)

/-- A bring-up stage of the port's mode fails: the port starts again from auto-negotiation in modes 1, 2, 4 and 5 and from block lock in
mode 3; AN_FAIL stands where auto-negotiation has found no matching ability (R55, R532). -/
def linkStageTimeout (p : Nat) (f : StageFail) (s : State) : State :=
  if !s.mayLink p || s.flag ethLinkUp p || !(bringUpStages (s.rd ethMode p)).contains f.stage then s
  else
    let noMatch := f.stage = .autoNeg && !matchingAbility (s.rd ethMode p) f.offered
    State.bringUp ((s.wr ethAnFail (b2n noMatch) p).wr ethFecLock 0 p) p

def execLinkStageTimeout (p : PortId) (f : StageFail) (s : State) : Out := .next (linkStageTimeout p.val f s)

def execLinkDown (p : PortId) (s : State) : Out := .next (s.portDown p.val)

/-! ### Modules -/

/-- The pages that Bister reads of a module (R59): lower page 00h as 0x100, upper pages by number. -/
def pagesRead : ModuleSpec → List Nat
  | .cmis40 | .cmis50 | .cmis51 | .cmis52 => [0x100, 0x00, 0x01, 0x02, 0x11]
  | .sff8636 => [0x100, 0x00, 0x03]
  | .unsupported => []

/-- A module is inserted: the link is down until Bister has read and matched it; Bister reads it, judges it and rebuilds the inventory
(R59, R60, R404), or does so when it starts. -/
def modPrsFall (p : Nat) (info : Option ModuleInfo) (s : State) : State :=
  let s1 := ((s.wr ethModPresent 1 p).modPort p (fun x => { x with modInfo := info, monitors := [], modFlags := 0 })).holdModule p true
  if s.served then (s1.judgeModule p).invRebuild else s1

def execModPrsFall (p : PortId) (info : Option ModuleInfo) (s : State) : Out := .next (modPrsFall p.val info s)

/-- Bister reads and judges the modules that came while it was away (R59). -/
def State.readModules (s : State) : State :=
  (List.range 4).foldl (fun (s : State) p =>
    if (s.port p).modUnread then s.judgeModule p else s) s

/-- A module is removed: the link goes down, the configuration stays (R61). -/
def moduleRemoval (p : Nat) (s : State) : State :=
  let s1 := ((s.wr ethModPresent 0 p).modPort p (fun x => { x with modInfo := none, monitors := [], modFlags := 0 })).holdModule p false
  if s.served then s1.invRebuild else s1

def execModuleRemoval (p : PortId) (s : State) : Out := .next (moduleRemoval p.val s)

/-- Bister reads and clears the flags of a present module (R61): an alarm flag raises MODULE_ALARM. -/
def moduleFlags (p : Nat) (flags : Byte) (s : State) : State :=
  if !s.served || !s.flag ethModPresent p then s
  else
    let s1 := s.modPort p (fun x => { x with modFlags := flags })
    if flags != 0 then s1.raise 0x0011 uETH p 0xFFFF p 0 flags.toNat else s1

def execModIntFall (p : PortId) (flags : Byte) (s : State) : Out := .next (moduleFlags p.val flags s)

/-- A module is polled every 1 s: its monitor values, then its flags (R61). -/
def moduleMonitorPoll (p : Nat) (m : ModuleMonitor) (s : State) : State :=
  if !s.served || !s.flag ethModPresent p || decide (s.now < (s.port p).monitorAt) then s
  else moduleFlags p m.flags (s.modPort p (fun x => { x with monitors := m.values, monitorAt := s.now + sec 1 }))

def execModuleMonitorPoll (p : PortId) (m : ModuleMonitor) (s : State) : Out := .next (moduleMonitorPoll p.val m s)

/-! ### Reception -/

/-- What becomes of a frame the port takes in (R63-R67, R71): the counter, or what is done with it. -/
inductive RxVerdict where
  | drop (counter : RegDesc)
  | pause (honoured : Bool) (quanta : Nat)
  | unsup
  | accept
  deriving DecidableEq, Repr

/-- The first case of R64 that a frame meets. -/
def State.rxVerdict (s : State) (p : Nat) (f : RxFrame) : RxVerdict :=
  let n := f.data.length
  let body := f.data.take (n - 4)
  let flat := stripTag body
  let da := macAt body 0
  let et := be16 flat 12
  let own := s.rd ethMacAddr p
  let held := (s.port p).rxQ.foldl (fun a m => a + m.size) 0
  let daOk := da = own || da = broadcastMac || (da = pauseMac && et = 0x8808) || (s.flag ethMcastAccept p && da % 2 = 1)
  if f.codeErr || f.fecUncorr != 0 then .drop rxCodeErr
  else if n < 64 then .drop rxRunt
  else if n > s.rd ethMaxFrame p then .drop rxOversize
  else if leNat (f.data.drop (n - 4)) != crc32 body then .drop rxFcsErr
  else if held + n > 16384 then .drop rxOverflow
  else if !daOk then .drop rxDaMiss
  else if isTpid (be16 body 12) && isTpid et then .drop rxVlanErr
  else if et = 0x8808 then
    if be16 flat 14 = 1 && (da = pauseMac || da = own) then .pause (s.flag ethPauseRxEn p) (be16 flat 16) else .unsup
  else match parseL3 flat with
    | none => .accept
    | some h =>
      if !h.hdrOk then .drop rxIp4Csum
      else if h.frag then .drop rxFrag
      else if h.proto != 17 then .accept
      else if h.v6 && be16 flat (h.l4 + 6) = 0 then .drop rxUdp6Zero
      else if !udpOk flat h then .drop rxUdpCsum
      else .accept

/-- Receive timestamps on the four time bases: the frame's timestamp point, DELAY_RX added (R379, R380). DEDUCED (log
14): the point lies the frame's wire time before its last bit. -/
def State.rxStamps (s : State) (p size : Nat) : List Nat :=
  (List.range 4).map (fun n =>
    wrapInt 64 ((s.tbVal n : Int) - (size * 8 / 100 : Nat) + signed 16 (s.rd timPortDelayRx p) / 10))

/-- A frame that passed the checks meets the filters (R68-R70), is counted and captured, and goes to the classifier,
to an exception queue, or away. -/
def State.rxAccept (s : State) (p : Nat) (f : RxFrame) : State :=
  let n := f.data.length
  let body := f.data.take (n - 4)
  let tagged := isTpid (be16 body 12)
  let tci := if tagged then be16 body 14 else 0
  let fs := match f.oldFilters with
    | some l => l
    | none => (List.range 32).map (s.filterCfg p)
  let hit := firstHit fs body
  let act := (hit.bind (fun i => fs[i]?)).map (·.action)
  let m : RxMeta := { data := stripTag body, size := n, vid := tci % 4096, pcp := tci / 8192, tagged := tagged && tci % 4096 != 0,
                      mark := if act = some 3 then hit else none, stamps := s.rxStamps p n,
                      arrivals := (List.range 4).map s.tbVal }
  let s1 := match hit with
    | none => s
    | some i => s.bump filtHits p i
  if act = some 2 then s1.bump rxFilterDrop p
  else
    let s2 := ((s1.bump rxFramesOk p).bumpBy rxOctetsOk n p).capFrame p 1 (m.stamps.getD (s.rd timPortRxTb p) 0) body
    let s3 := s2.bumpBy secPktmemCe f.packetCe
    if f.packetUe then s3.bump secPktmemUe
    else if act = some 1 then
      s3.exception (((hit.bind (fun i => fs[i]?)).map (·.steerQ)).getD 0) 4 (hit.getD 0) p m
    else s3.modPort p (fun x => { x with rxQ := x.rxQ ++ [m] })

/-- A received PAUSE that is honoured: transmission stops for the quanta of 512 bit times, replacing what was left
(R71). -/
def State.pauseFor (s : State) (p quanta : Nat) : State :=
  s.modPort p (fun x => { x with pauseEnd := if quanta = 0 then 0 else s.now + (quanta * 512 + 99) / 100 })

/-- The last bit of a frame reaches the MAC (R63-R71), or codewords pass that carry no frame (R56). -/
def frameReceive (p : Nat) (f : RxFrame) (s : State) : State :=
  if !s.flag ethLinkUp p then s else
  let s0 := (s.bumpBy fecCorrected f.fecCorr p).bumpBy fecUncorrectable f.fecUncorr p
  if !s.flag ethRxEn p || f.data.isEmpty then s0 else
  match s0.rxVerdict p f with
  | .drop c => s0.bump c p
  | .unsup => s0.bump rxMacctlUnsup p
  | .pause honoured quanta =>
    let s1 := s0.bump rxPause p
    if honoured then s1.pauseFor p quanta else s1
  | .accept => s0.rxAccept p f

def execFrameReceive (p : PortId) (f : RxFrame) (s : State) : Out := .next (frameReceive p.val f s)

/-- The pause time of a port ends (R71). -/
def pauseExpiry (p : Nat) (s : State) : State :=
  if (s.port p).pauseEnd ≤ s.now then s.modPort p (fun x => { x with pauseEnd := 0 }) else s

def execPauseExpiry (p : PortId) (s : State) : Out := .next (pauseExpiry p.val s)

/-! ### Gates (R77-R79) -/

/-- Entry j of a bank: gates and interval. -/
def State.gateEntry (s : State) (p bank j : Nat) : Nat × Nat :=
  let e := s.rd (if bank = 0 then gclEntry0 else gclEntry1) p j
  (e % 256, e / 256)

/-- A bank's list over one cycle: cut at the cycle end, its last entry held until it (R77). -/
def fitCycle : List (Nat × Nat) → Nat → List (Nat × Nat)
  | [], _ => []
  | [(g, _)], left => [(g, left)]
  | (g, d) :: r, left => if d ≥ left then [(g, left)] else (g, d) :: fitCycle r (left - d)

def State.gateList (s : State) (p bank : Nat) : List (Nat × Nat) :=
  fitCycle ((List.range (s.rd ethGateLen p bank)).map (s.gateEntry p bank)) (s.rd ethGateCycle p bank)

/-- What is left of the entry in force at a time within the cycle, and of the entries after it. -/
def gateRest : List (Nat × Nat) → Nat → List (Nat × Nat)
  | [], _ => []
  | (g, d) :: r, t => if t < d then (g, d - t) :: r else gateRest r (t - d)

/-- The gates of a bank's list from a time of the gates' time base on: the rest of that cycle, then one whole cycle. -/
def State.gateAhead (s : State) (p bank time : Nat) : List (Nat × Nat) :=
  let l := s.gateList p bank
  gateRest l (((time : Int) - s.rd ethGateBase p) % (s.rd ethGateCycle p bank : Nat)).toNat ++ l

/-- Now, on the time base of the gates. -/
def State.gateTime (s : State) (p : Nat) : Nat := s.tbVal (s.rd ethGateTb p)

/-- The gates open now. -/
def State.gatesNow (s : State) (p : Nat) : Byte :=
  if s.flag ethGateEn p then
    BitVec.ofNat 8 (((s.gateAhead p (s.rd ethGateActiveBank p) (s.gateTime p)).head?.map (·.1)).getD 0)
  else 0xFF

/-- Follow the gates (R77). -/
def State.regate (s : State) (p : Nat) : State := s.modPort p (fun x => { x with gates := s.gatesNow p })

/-- How long queue q's gate stays open in a list of gates; `none`: it never closes there. -/
def openFor (q : Nat) : List (Nat × Nat) → Nat → Option Nat
  | [], _ => none
  | (g, d) :: r, t => if bit g q then openFor q r (t + d) else some t

/-- How long queue q's gate stays open from now, under the active list and, from a requested swap on, under the list it brings (R77,
R79); `none`: it never closes. -/
def State.closesIn (s : State) (p q : Nat) : Option Nat :=
  let bank := s.rd ethGateActiveBank p
  let old := openFor q (s.gateAhead p bank (s.gateTime p)) 0
  let left := (s.port p).swapAt - s.gateTime p
  if !s.flag ethGateSwap p || old.any (fun t => decide (t < left)) then old
  else (openFor q (s.gateAhead p (1 - bank) (s.port p).swapAt) 0).map (left + ·)

/-- The longest open window of queue q over cycles back to back; `none`: never closed (R78). -/
def longestOpen (q : Nat) (l : List (Nat × Nat)) : Option Nat :=
  if l.all (fun e => bit e.1 q) then none
  else
    let step := fun (a : Nat × Nat) (e : Nat × Nat) => if bit e.1 q then (a.1 + e.2, max a.2 (a.1 + e.2)) else (0, a.2)
    some ((l ++ l).foldl step (0, 0)).2

/-- Wire time of a number of bytes at 100 Gb/s, in hundredths of a ns. -/
def wireTime (bytes : Nat) : Nat := bytes * 8

/-- Bytes of the image on the wire: tag inserted, padded to 60, FCS added (R73). -/
def wireLen (d : TxDesc) (len : Nat) : Nat := max 60 (len + (if d.tag.isSome then 4 else 0)) + 4

/-- The length of a descriptor's longest frame: of one segment where it is segmented (R74). -/
def txFrameLen (d : TxDesc) : Nat :=
  if d.seg = 0 then d.data.length else min d.data.length (d.udpOff + 8 + d.seg)

/-- The next frame of a queue: its descriptor, its length before insertions, and, where segments of the descriptor have been sent, what is
left of it (R75). -/
structure TxHead where
  desc : TxDesc
  len  : Nat
  part : Option Wire := none
  deriving DecidableEq, Repr

/-- A head frame can never go out under the active list (R78). -/
def State.gateNever (s : State) (p : Nat) (h : TxHead) : Bool :=
  s.flag ethGateEn p &&
    (match longestOpen h.desc.queue.val (s.gateList p (s.rd ethGateActiveBank p)) with
     | none => false
     | some w => decide (w * 100 < wireTime (wireLen h.desc h.len + 20)))

/-- A descriptor's UDP payload, its SEG or its size make it unsendable (R73, R75). What becomes of a SEG below 8 bytes is not given: it is
discarded alike, DESIGN CHOICE (log 101). -/
def State.tooLong (s : State) (p : Nat) (d : TxDesc) : Bool :=
  if d.seg = 0 then decide (wireLen d d.data.length > s.rd ethMaxFrame p)
  else decide (d.data.length > d.udpOff + 8 + 262144) || decide (d.seg < 8) || decide (wireLen d (txFrameLen d) > s.rd ethMaxFrame p)

/-- The queue of a port. -/
def State.txq (s : State) (p q : Nat) : List TxDesc := tget (s.port p).queues q []

/-- Queue q without its head descriptor. -/
def State.popQ (s : State) (p q : Nat) : State :=
  s.modPort p (fun x => { x with queues := tset x.queues q (tget x.queues q []).tail [] })

/-- The next frame of queue q: the next segment of a descriptor under way, which no frame of its queue precedes (R74), or the first frame
of the head descriptor. -/
def State.headOf (s : State) (p q : Nat) : Option TxHead :=
  match (s.port p).parts.find? (fun e => e.1 = q) with
  | some (_, w) => some { desc := w.desc, len := (w.segsLeft.headD []).length, part := some w }
  | none => (s.txq p q).head?.map (fun d => { desc := d, len := txFrameLen d })

/-- The head of queue q is taken off it. -/
def State.popHead (s : State) (p q : Nat) (h : TxHead) : State :=
  if h.part.isSome then s.modPort p (fun x => { x with parts := terase x.parts q }) else s.popQ p q

/-- Discard heads of queue q, at most `n`, that the active list never lets out (R78). -/
def State.dropNeverQ (p q : Nat) : Nat → State → State
  | 0, s => s
  | n + 1, s =>
    match s.headOf p q with
    | none => s
    | some h => if s.gateNever p h then State.dropNeverQ p q n ((s.popHead p q h).txDiscard p h.desc .gateNever) else s

/-- Discard, from every queue, head frames that the active list never lets out (R78). -/
def State.dropNever (s : State) (p : Nat) : State :=
  (List.range 8).foldl (fun s q => State.dropNeverQ p q ((s.txq p q).length + 1) s) s

/-- An interval of the active list ends (R77). -/
def execGateIntervalEnd (p : PortId) (s : State) : Out := .next (s.regate p.val)

/-- The first LEN entries of a bank are valid (R79). -/
def State.bankOk (s : State) (p bank : Nat) : Bool :=
  (List.range (s.rd ethGateLen p bank)).all (fun j => decide (8 ≤ (s.gateEntry p bank j).2))

/-- When a requested swap is due: the end of the active list's current cycle, or ETH_GATE_BASE if later (R79). It stands as the request
finds it: that a later write of ETH_GATE_BASE does not move it is a DESIGN CHOICE (log 101). -/
def State.swapDue (s : State) (p : Nat) : Nat :=
  let cycle := s.rd ethGateCycle p (s.rd ethGateActiveBank p)
  let within := (((s.gateTime p : Int) - s.rd ethGateBase p) % (cycle : Nat)).toNat
  max (s.gateTime p + (cycle - within)) (s.rd ethGateBase p)

/-- A write of ETH_GATE_CTL (R77, R79): one that sets GATE_EN to 1 is refused where the active bank, one that sets SWAP where the bank it
brings, holds an interval below 8 ns. The swap's time is fixed here; a later write of ETH_GATE_BASE leaves it: DESIGN CHOICE (log 101). -/
def ethGateCtlWrite (p width v : Nat) (s : State) : State :=
  let addr := ethBase p + 0x28
  if !goodAccess addr width then s.bump mbxBadAccess else
  let bank := s.rd ethGateActiveBank p
  let bad := (bit v 3 && !s.bankOk p (1 - bank)) || (bit v 2 && !s.bankOk p bank)
  if bad then s.wr ethCfgErr 1 p
  else
    let s1 := s.writeReg addr width v
    let s2 := if bit v 3 && !s.flag ethGateSwap p then s1.modPort p (fun x => { x with swapAt := s1.swapDue p }) else s1
    (s2.regate p).dropNever p

def execEthGateCtlWrite (p : PortId) (width : Nat) (value : Word64) (s : State) : Out :=
  .next (ethGateCtlWrite p.val width value.toNat s)

/-- The requested bank becomes active (R79): SWAP clears, ACTIVE_BANK changes, heads that never fit go (R78). -/
def gateSwap (p : Nat) (s : State) : State :=
  if s.flag ethGateSwap p && (s.port p).swapAt ≤ s.tbVal (s.rd ethGateTb p) then
    let s1 := (s.wr ethGateSwap 0 p).wr ethGateActiveBank (1 - s.rd ethGateActiveBank p) p
    (s1.regate p).dropNever p
  else s

def execGateSwap (p : PortId) (s : State) : Out := .next (gateSwap p.val s)

/-! ### Transmission -/

/-- Post a descriptor: it joins its queue; a launch time more than 2 s ahead is refused (R383). -/
def State.txPost (s : State) (p : Nat) (d : TxDesc) : State :=
  let far := d.launch.any (fun l => decide ((l.2.toNat : Int) - s.tbVal l.1.val > 2000000000))
  if far then s.txDone p d .launchFar false
  else s.modPort p (fun x => { x with queues := tset x.queues d.queue.val (tget x.queues d.queue.val [] ++ [d]) [] })

/-- Bister's own timestamp requests and entries on a port (R381). -/
def State.ownStamps (s : State) (p : Nat) : Nat :=
  let asks := fun (d : TxDesc) => d.owner = .bister && d.twoStep.isSome
  let x := s.port p
  (x.txStamps.filter (fun t => !t.host)).length + ((x.queues.flatMap (·.2)).filter asks).length + (x.waiting.filter asks).length

/-- Bister or the host posts a descriptor, Bister without a timestamp request where that would exceed its 8 entries (R381); its EGR buffers
must be admitted, or it waits behind those that wait already (R110). -/
def transmitDescriptor (p : Nat) (d0 : TxDesc) (s : State) : State :=
  let d := { d0 with buffers := buffersOf d0.data.length, twoStep := if d0.owner = .bister && 8 ≤ s.ownStamps p then none else d0.twoStep }
  if (s.port p).waiting.isEmpty && s.admits 3 d.buffers then (s.takeBuf 3 d.buffers).txPost p d
  else s.modPort p (fun x => { x with waiting := x.waiting ++ [d] })

/-- Descriptors that wait for their EGR buffers, at most `n`, go to their queues as far as they are admitted, in order (R110). -/
def State.admitWaiting (p : Nat) : Nat → State → State
  | 0, s => s
  | n + 1, s =>
    match (s.port p).waiting with
    | [] => s
    | d :: r =>
      if s.admits 3 d.buffers then
        State.admitWaiting p n (((s.modPort p (fun x => { x with waiting := r })).takeBuf 3 d.buffers).txPost p d)
      else s

def execTransmitDescriptor (p : PortId) (d : TxDesc) (s : State) : Out := .next (transmitDescriptor p.val d s)

/-- Replace bytes from byte `i`. -/
def patch (l : List Byte) (i : Nat) (b : List Byte) : List Byte := l.take i ++ b ++ l.drop (i + b.length)

/-- The image of one segment (R74): headers replicated, IPv4 identification and lengths renewed. -/
def segImage (d : TxDesc) (k : Nat) (payload : List Byte) : List Byte :=
  let hdr := d.data.take (d.udpOff + 8)
  let udpLen := 8 + payload.length
  let ip := d.ipOff
  let h1 := if byteAt hdr ip / 16 = 4 then
      patch (patch hdr (ip + 2) (beBytes 2 (d.udpOff - ip + udpLen))) (ip + 4) (beBytes 2 (be16 hdr (ip + 4) + k))
    else patch hdr (ip + 4) (beBytes 2 (d.udpOff - ip - 40 + udpLen))
  patch h1 (d.udpOff + 4) (beBytes 2 udpLen) ++ payload

/-- Cut a payload into pieces of n bytes, the last with what is left. -/
def pieces (n : Nat) : Nat → List Byte → List (List Byte)
  | 0, _ => []
  | k + 1, l => if l.length ≤ n then [l] else l.take n :: pieces n k (l.drop n)

/-- The images a descriptor is sent as. -/
def txImages (d : TxDesc) : List (List Byte) :=
  if d.seg = 0 then [d.data]
  else
    let pay := d.data.drop (d.udpOff + 8)
    ((pieces d.seg (pay.length + 1) pay).zipIdx).map (fun e => segImage d e.2 e.1)

/-- The frame of an image on the wire (R73): tag, IPv4 header checksum, UDP checksum, one-step timestamp (R382),
padding, FCS. -/
def finishFrame (d : TxDesc) (img : List Byte) (stamp : Nat) : List Byte :=
  let seg := d.seg != 0
  let shift := if d.tag.isSome then 4 else 0
  let l0 := match d.tag with
    | none => img
    | some t => img.take 12 ++ beBytes 4 t.toNat ++ img.drop 12
  let ip := d.ipOff + shift
  let udp := d.udpOff + shift
  let v4 := byteAt l0 ip / 16 = 4
  let l1 := if (d.ipCsum || seg) && v4 then
      let z := patch l0 (ip + 10) [0, 0]
      patch z (ip + 10) (beBytes 2 (65535 - inetSum (slice z ip (udp - ip))))
    else l0
  let l2 := match d.oneStep with
    | none => l1
    | some o =>
      let t := patch l1 o.offset (beBytes 6 (stamp / 1000000000) ++ beBytes 4 (stamp % 1000000000))
      if o.transport = 1 then patch t (udp + 6) [0, 0] else t
  let dg := slice l2 udp (be16 l2 (udp + 4))
  let pseudo : L3 := { v6 := !v4, src := if v4 then mapped4 l2 (ip + 12) else addr6 l2 (ip + 8),
                       dst := if v4 then mapped4 l2 (ip + 16) else addr6 l2 (ip + 24), proto := 17, l4 := udp,
                       l4len := dg.length, hdrOk := true, frag := false }
  let csum := fun (x : List Byte) => let c := 65535 - udpSum pseudo x; if c = 0 then 0xFFFF else c
  let l3 := match d.oneStep with
    | some o =>
      if o.transport = 2 then
        let z := patch l2 o.trailer [0, 0]
        patch z o.trailer (beBytes 2 (65535 - udpSum pseudo (slice z udp (be16 z (udp + 4)))))
      else l2
    | none =>
      if d.udpCsum || seg then patch l2 (udp + 6) (beBytes 2 (csum (patch dg 6 [0, 0]))) else l2
  let padded := l3 ++ List.replicate (60 - l3.length) 0
  padded ++ leBytes 4 (crc32 padded)

/-- The transmit timestamp on a time base, DELAY_TX added (R379). -/
def State.txStamp (s : State) (p n : Nat) : Nat := wrapInt 64 ((s.tbVal n : Int) + signed 16 (s.rd timPortDelayTx p) / 10)

/-- A two-step request places its entry in the 64-entry queue, or is lost (R381). -/
def State.stampEntry (s : State) (p : Nat) (d : TxDesc) : State × Bool :=
  match d.twoStep with
  | none => (s, false)
  | some (n, tag) =>
    if (s.port p).txStamps.length ≥ 64 then (s.bump txTsLost p, true)
    else (s.modPort p (fun x => { x with txStamps := x.txStamps ++
      [{ host := decide (d.owner = TxOwner.host), tb := n.val, tag := tag.toNat, time := s.txStamp p n.val }] }), false)

/-- A launch time has been reached, or there is none. -/
def State.launched (s : State) (d : TxDesc) : Bool := d.launch.all (fun l => decide (l.2.toNat ≤ s.tbVal l.1.val))

/-- A head frame is eligible (R76): its launch time reached, its gate open, and its last bit and the 12-byte gap, of the 20 bytes of
overhead, before the gate next closes (R77). -/
def State.eligible (s : State) (p : Nat) (h : TxHead) : Bool :=
  s.launched h.desc && (s.port p).gates.getLsbD h.desc.queue.val &&
    (!s.flag ethGateEn p ||
      (match s.closesIn p h.desc.queue.val with
       | none => true
       | some t => decide (wireTime (wireLen h.desc h.len + 20) < t * 100)))

/-- The highest queue whose head passes. -/
def State.pickQ (s : State) (p : Nat) (ok : TxHead → Bool) : Option (Nat × TxHead) :=
  [7, 6, 5, 4, 3, 2, 1, 0].findSome? (fun q => match s.headOf p q with
    | some h => if ok h then some (q, h) else none
    | none => none)

/-- A frame starts on the wire (R72-R77, R379-R383): the first of a descriptor, or its next segment. -/
def State.txStart (s : State) (p q : Nat) (h : TxHead) : State :=
  let d := h.desc
  let stamp := (d.oneStep.map (fun o => s.txStamp p o.tb.val)).getD 0
  let s1 := s.popHead p q h
  match h.part with
  | some w =>
    s1.modPort p (fun x => { x with wire := some { w with
      bytes := finishFrame d (w.segsLeft.headD []) stamp, segsLeft := w.segsLeft.tail, startedAt := s.now } })
  | none =>
    let late := d.launch.any (fun l => decide (l.2.toNat + 1000 < s.tbVal l.1.val))
    let imgs := txImages d
    let s2 := if late then s1.bump txLate p else s1
    let e := s2.stampEntry p d
    e.1.modPort p (fun x => { x with wire := some { desc := d, bytes := finishFrame d (imgs.headD []) stamp, segsLeft := imgs.tail, late := late, tsLost := e.2, startedAt := s.now } })

/-- A frame start (R72-R78, R82, R110, R459): descriptors that wait come first; while the member is fenced the transmitters are held off;
with the link down or TX_EN 0 a head whose time has come is discarded; while paused nothing starts; heads that never fit and heads too long
go; then the eligible head of the highest queue starts. -/
def frameTransmitStart (p : Nat) (s0 : State) : State :=
  let s := State.admitWaiting p (s0.port p).waiting.length s0
  if (s.port p).wire.isSome || s.ring.fenced then s
  else if !s.flag ethLinkUp p || !s.flag ethTxEn p then
    match s.pickQ p (fun h => s.launched h.desc) with
    | none => s
    | some (q, h) => (s.popHead p q h).txDiscard p h.desc .linkDown
  else if s.now < (s.port p).pauseEnd then s
  else
    let s1 := s.dropNever p
    let long := fun (h : TxHead) => h.part.isNone && s1.tooLong p h.desc
    match s1.pickQ p (fun h => long h || s1.eligible p h) with
    | none => s1
    | some (q, h) => if long h then (s1.popHead p q h).txDiscard p h.desc .overlength else s1.txStart p q h

def execFrameTransmitStart (p : PortId) (s : State) : Out := .next (frameTransmitStart p.val s)

/-- A media packet of a channel has left (Table 2.4). -/
def State.countTx (s : State) (d : TxDesc) : State :=
  match d.owner, d.rtpOctets with
  | .egress ch, some n => s.modChan ch.val (fun c => { c with ctr := { c.ctr with txPackets := c.ctr.txPackets + 1, txOctets := c.ctr.txOctets + n } })
  | _, _ => s

/-- A frame has left the wire: the descriptor's next segment stands at the head of its queue, a frame of its own (R75), or the descriptor
ends. -/
def State.txNext (s : State) (p : Nat) (w : Wire) (fate : TxFate) : State :=
  let s1 := s.modPort p (fun x => { x with wire := none })
  if w.segsLeft.isEmpty then s1.txDone p w.desc fate w.tsLost
  else s1.modPort p (fun x => { x with parts := tins x.parts w.desc.queue.val { w with bytes := [], fate := fate } })

/-- The last bit and the FCS of the frame on the wire have left: it is counted and captured (R64, R111, R437). -/
def frameTransmitEnd (p : Nat) (s : State) : State :=
  match (s.port p).wire with
  | none => s
  | some w =>
    let n := w.bytes.length
    let s1 := ((s.bump txFramesOk p).bumpBy txOctetsOk n p).modPort p (fun x => { x with lastSent := w.bytes })
    let s2 := s1.capFrame p 2 (wrapInt 64 ((s.txStamp p (s.rd timPortRxTb p) : Int) - ((s.now - w.startedAt : Nat) : Int))) (w.bytes.take (n - 4))
    (s2.countTx w.desc).txNext p w w.fate

def execFrameTransmitEnd (p : PortId) (s : State) : Out := .next (frameTransmitEnd p.val s)

/-- THRESHOLD after an underrun: 256 bytes more, up to MAX_FRAME; a host write of the same cycle comes first (R80). -/
def State.underrunThreshold (s : State) (p : Nat) (hostWrite : Option (BitVec 14)) : Nat :=
  let base := match hostWrite with
    | none => s.rd ethTxThreshold p
    | some v => max 64 v.toNat
  min (base + 256) (s.rd ethMaxFrame p)

/-- Bytes of the frame on the wire that have gone out at 100 Gb/s since its start, before its FCS. -/
def State.sentBytes (s : State) (w : Wire) : Nat := min (w.bytes.length - 4) ((s.now - w.startedAt) * 100 / 8)

/-- The frame on the wire underruns (R80): it ends at once, after the bytes already out, with the inverse of their FCS, and is not sent
again. In compatibility mode, and where the whole frame was present before it started, underrun cannot occur (R81). -/
def txUnderrun (p : Nat) (hostWrite : Option (BitVec 14)) (s : State) : State :=
  match (s.port p).wire with
  | none => s
  | some w =>
    if s.flag ethGu12Compat p || w.bytes.length ≤ s.rd ethTxThreshold p then s else
    let out := w.bytes.take (s.sentBytes w)
    let s1 := (s.bump txUnderrunCnt p).wr ethTxThreshold (s.underrunThreshold p hostWrite) p
    let s2 := s1.modPort p (fun x => { x with
      lastSent := out ++ (leBytes 4 (crc32 out)).map (fun b => ~~~b),
      txStamps := x.txStamps.filter (fun t => !(w.desc.twoStep.any (fun q => q.1.val = t.tb && q.2.toNat = t.tag))) })
    s2.txNext p w .underrun

def execTxUnderrun (p : PortId) (hostWrite : Option (BitVec 14)) (s : State) : Out := .next (txUnderrun p.val hostWrite s)

end Sys2Proof.Machine
end

