-- ==== Sys2Proof/Machine/Time.lean ====
section
/-! DEFINITION. Time bases, servo, steps, ticks, PPS and transmit timestamps (spec/15_time.md; R424). -/

namespace Sys2Proof.Machine

/-- An OPEN or BOUND channel, or a port with GATE_EN 1, uses the time base (R372). -/
def State.tbUsed (s : State) (n : Nat) : Bool :=
  (liveChans s).any (fun e => e.2.tb = n) || (List.range 4).any (fun p => s.flag ethGateEn p && s.rd ethGateTb p = n)

/-! ### Ticks (R25, R376) -/

/-- Put a tick boundary into a time base's queue of 16: a full queue discards its oldest entry, and Steep counts a missed
tick (R25). -/
def State.pushTick (s : State) (n b : Nat) : State :=
  let q := (s.tb n).tickQ
  let s1 := s.modTb n (fun t => { t with tickQ := (if q.length ≥ 16 then q.tail else q) ++ [b], lastTick := b })
  if q.length ≥ 16 then s1.bump stpMissedTick n else s1

/-- The time base has reached a boundary above the last one emitted: one entry carries the last boundary passed (R376). -/
def tickBoundary (n : Nat) (s : State) : State :=
  let b := s.tbVal n / 250000
  if b > (s.tb n).lastTick then s.pushTick n b else s

def execTickBoundary (tb : TbId) (s : State) : Out := .next (tickBoundary tb.val s)

/-! ### Steps (R372-R375) -/

/-- A time on a time base that steps. -/
def stepped (d : Int) (t : Nat) : Nat := wrapInt 64 ((t : Int) + d)

/-- What a channel's canceller and tones hold as times moves with the time base: its own, and that of the peer's jobs in the reference. -/
def shiftAudio (d : Int) (own ofPeer : Bool) (c : Chan) : Chan :=
  let mine := fun (o : Option Nat) => o.map (stepped d)
  let ans := fun (k : AnsTrack) => { k with since := mine k.since, lastRev := mine k.lastRev }
  let e := c.echo
  let e1 := if !own then e else { e with
    sin := { e.sin with ending := mine e.sin.ending }, woadFrom := stepped d e.woadFrom, nextSearch := stepped d e.nextSearch, dtUntil := stepped d e.dtUntil
    nlpUntil := stepped d e.nlpUntil, holdUntil := mine e.holdUntil, quietSince := mine e.quietSince, ansSin := ans e.ansSin, ansRin := ans e.ansRin }
  let t := c.tone
  let t1 := if !own then t else { t with
    declared := t.declared.map (fun g => { g with onset := g.onset + d }), clamps := t.clamps.map (fun k => (k.1, k.2.1 + d, k.2.2.map (· + d))) }
  let change : Int := (if own then d else 0) - (if ofPeer then d else 0)
  { c with
    echo := { e1 with rin := if ofPeer then { e1.rin with ending := mine e1.rin.ending } else e1.rin, rinDiff := e1.rinDiff.map (· + change) }
    tone := t1, ctx := { c.ctx with lastDiff := c.ctx.lastDiff.map (· + change) } }

/-- Steep moves the playout offset of a channel on the time base by the step and clears its window (R132); the count of R129 and what the
drift figure rests on move with the time base. -/
def shiftSteep (n : Nat) (d : Int) (c : Chan) : Chan :=
  let later := fun (f : OutFrame) => if f.tb = n then { f with launch := f.launch.map (fun l => wrapInt 64 (l + d)) } else f
  let c1 := { c with egr := { c.egr with outQ := c.egr.outQ.map later } }
  if c.tb = n then { c1 with steep := { c.steep with 
    offsetP := c.steep.offsetP + d, transits := [], firstSeenAt := c.steep.firstSeenAt.map (fun t => wrapInt 64 (t + d))
    driftHist := c.steep.driftHist.map (fun e => (wrapInt 64 (e.1 + d), e.2 + d)) } } else c1

/-- A queued launch time on the time base moves by the step (R375). -/
def shiftLaunch (n : Nat) (d : Int) (t : TxDesc) : TxDesc :=
  { t with launch := t.launch.map (fun l => if l.1.val = n then (l.1, BitVec.ofNat 64 (wrapInt 64 (l.2.toNat + d))) else l) }

/-- An applied step of a time base (R372, R374, R375): the value moves, the sample window clears, it is counted; playout
offsets and launch times move with it, gates follow the new value, and a forward step emits its last boundary. -/
def State.applyStep (s : State) (n : Nat) (d : Int) : State :=
  let s1 := s.modTb n (fun t => { t with
    value := BitVec.ofNat 64 (wrapInt 64 (t.value.toNat + d)), samples := [], lockRun := 0 })
  let s2 := s1.bump timTbStepsApplied n
  let s3 := { s2 with chans := s2.chans.map (fun e => (e.1, shiftAudio d (e.2.tb = n) (e.2.st = .bound && (s2.chan e.2.peer).tb = n) (shiftSteep n d e.2))),
                      ports := s2.ports.map (fun e => (e.1, { e.2 with queues := e.2.queues.map (fun q => (q.1, q.2.map (shiftLaunch n d))) })) }
  let s4 := (List.range 4).foldl (fun s p => if s.flag ethGateEn p && s.rd ethGateTb p = n then s.regate p else s) s3
  tickBoundary n s4

/-! ### The servo (R369-R373) -/

/-- Insert into a rising list. -/
def insertSorted (x : Int) : List Int → List Int
  | [] => [x]
  | y :: r => if x ≤ y then x :: y :: r else y :: insertSorted x r

/-- The judged offset: the lower middle value (R371). -/
def judged (l : List Int) : Int :=
  let r := l.foldl (fun a x => insertSorted x a) []
  r.getD ((r.length - 1) / 2) 0

/-- The refusal of a step ends (R373). -/
def State.clearRefusal (s : State) (n : Nat) : State :=
  if s.flag timTbStepRefused n then
    State.raise ((s.wr timTbStepRefused 0 n).wr timTbPendStep 0 n) 0x0041 uTIM n 0xFFFF n
  else s

/-- Steer FREQ: the frequency that removes J over at least 1 s departs from the tracked frequency by at most 100 ppm.
The law within those bounds is Folnen's: two free values (log 2, log 15). -/
def State.steer (s : State) (n : Nat) (j : Int) : State :=
  let top : Int := 4294967
  let tracked := clampInt (-top) top ((Config.freeNat s.freeCtr : Int) - top)
  let bound := min 429496 (j.natAbs * 4294967296 / 1000000000)
  let part : Int := (Config.freeNat (s.freeCtr + 1) % (bound + 1) : Nat)
  let f := clampInt (-top) top (tracked + (if j < 0 then -part else part))
  s.draw.draw.modTb n (fun t => { t with freq := f, tracked := tracked })

/-- An offset sample of a time base is judged (R371-R373). -/
def State.offsetSample (s : State) (n : Nat) (x : Int) : State :=
  if s.sup.restarting then s else
  let ss := (x :: (s.tb n).samples).take 8
  let j := judged ss
  let limit : Int := s.rd timTbStepLimit n
  let s1 := ((s.modTb n (fun t => { t with samples := ss })).bump timTbSamples n).wr timTbLastJ (wrapInt 32 (clampInt (-2147483648) 2147483647 j)) n
  if !s.flag timTbSet n && !s.tbUsed n then
    (((s1.applyStep n j).wr timTbSet 1 n).wr timTbState 1 n).modTb n (fun t => { t with sampleAt := s.now })
  else if j.natAbs > limit.natAbs then
    let s2 := s1.wr timTbPendStep (wrapInt 64 j) n
    if s.flag timTbStepRefused n then s2
    else
      let s3 := ((s2.wr timTbStepRefused 1 n).wr timTbState 4 n).bump timTbStepsRefused n
      s3.raise 0x0040 uTIM n 0xFFFF n 0 (wrapInt 64 j)
  else
    let s2 := s1.clearRefusal n
    if x.natAbs > limit.natAbs then s2.bump timTbOutliers n
    else
      let run := if j.natAbs ≤ 100 then (s2.tb n).lockRun + 1 else 0
      let s3 := (s2.modTb n (fun t => { t with lockRun := run, sampleAt := s.now })).steer n j
      s3.wr timTbState (if run ≥ 8 then 2 else 1) n

/-- 3 s without a usable sample: HOLDOVER, FREQ held (R371). A refused step keeps its STATE. -/
def servoHoldover (n : Nat) (s : State) : State :=
  if s.rd timTbSrc n != 0 && !s.flag timTbStepRefused n && (s.tb n).sampleAt + sec 3 ≤ s.now then
    (s.wr timTbState 3 n).modTb n (fun t => { t with lockRun := 0 })
  else s

def execServoHoldover (tb : TbId) (s : State) : Out := .next (servoHoldover tb.val s)

/-- The PTP slave of a time base runs (R369, R370). -/
def State.ptpRuns (s : State) (n : Nat) : Bool := s.rd timTbSrc n = 1 && !s.sup.restarting

/-- A Sync message of the master: t1 + meanPathDelay + correction - t2 is an offset sample (R370). -/
def ptpSync (n : Nat) (t1 t2 correction : Int) (s : State) : State :=
  if s.ptpRuns n then s.offsetSample n (t1 + (s.tb n).pathDelay + correction - t2) else s

def execPtpSync (tb : TbId) (t1 t2 correction : Int) (s : State) : Out := .next (ptpSync tb.val t1 t2 correction s)

/-- Bister pops the oldest of its own transmit timestamps on a port (R381). -/
def State.popOwn (s : State) (p : Nat) : State :=
  match (s.port p).txStamps.find? (fun t => !t.host) with
  | none => s
  | some e => s.modPort p (fun x => { x with txStamps := x.txStamps.erase e })

/-- A Delay_Resp message renews the mean path delay (R370); Bister has taken the timestamp of its Delay_Req. -/
def ptpDelayResp (n : Nat) (t1 t2 t3 t4 correction : Int) (s : State) : State :=
  if s.ptpRuns n then (s.popOwn (s.rd timTbPort n)).modTb n (fun t => { t with pathDelay := ((t2 - t1) + (t4 - t3) - correction) / 2 }) else s

def execPtpDelayResp (tb : TbId) (t1 t2 t3 t4 correction : Int) (s : State) : Out :=
  .next (ptpDelayResp tb.val t1 t2 t3 t4 correction s)

/-- The data-set comparison of the default BMCA: `a` is better than `b` (R370). -/
def betterMaster (a b : AnnounceMsg) : Bool :=
  let key := fun (m : AnnounceMsg) => [m.priority1, m.clockClass, m.accuracy, m.variance, m.priority2, m.identity.toNat, m.stepsRemoved]
  decide (key a < key b)

/-- An Announce message of the slave's domain: the best master is kept, while its own Announces come: a master not heard for the 6 s of the
default profile's announce receipt timeout gives way. PRESUMED (log 113). -/
def ptpAnnounce (n : Nat) (a : AnnounceMsg) (s : State) : State :=
  if s.ptpRuns n && a.domain = s.rd timTbDomain n then
    let stays := (s.tb n).master.any (fun m => m.identity != a.identity && !betterMaster a m && decide (s.now < (s.tb n).masterAt + sec 6))
    if stays then s else s.modTb n (fun t => { t with master := some a, masterAt := s.now })
  else s

def execPtpAnnounce (tb : TbId) (a : AnnounceMsg) (s : State) : Out := .next (ptpAnnounce tb.val a s)

/-! ### The 10 MHz reference and the latch -/

/-- TIM_LATCH (R367): the four values at one TCLK edge; REQ is clear when it is done. -/
def timLatch (s : State) : State :=
  ((((s.wr timLatchTb (s.tbVal 0) 0).wr timLatchTb (s.tbVal 1) 1).wr timLatchTb (s.tbVal 2) 2).wr timLatchTb (s.tbVal 3) 3).wr timLatchReq 0

def execTimLatch (s : State) : Out := .next (timLatch s)

/-- TIME_10M_IN locks; TCLK follows it unless REF_FORCE_SYS is 1 (R368). -/
def ref10mLock (s : State) : State := { s with time := { s.time with ref10m := true } }

def execRef10mLock (s : State) : Out := .next (ref10mLock s)

/-- TIME_10M_IN is lost (R368). -/
def ref10mLoss (s : State) : State :=
  if s.time.ref10m then State.raise ({ s with time := { s.time with ref10m := false } }.wr timRefLost 1) 0x0042 uTIM else s

def execRef10mLoss (s : State) : Out := .next (ref10mLoss s)

/-! ### PPS (R384, R385) -/

/-- A PPS_IN edge: captured on all four time bases, and a sample of each that follows PPS; a glitch is counted. -/
def ppsInEdge (s : State) : State :=
  if s.time.ppsInAt.any (fun t => decide (s.now < t + ms 900)) then s.bump timPpsGlitch
  else
    let s1 := (List.range 4).foldl (fun s n => s.wr timPpsCap (s.tbVal n) n) { s with time := { s.time with ppsInAt := some s.now } }
    (List.range 4).foldl (fun s' n =>
      if s.rd timTbSrc n = 2 then
        let v := s.tbVal n
        s'.offsetSample n (((v + 500000000) / 1000000000 * 1000000000 : Nat) - v)
      else s') s1

def execPpsInEdge (s : State) : Out := .next (ppsInEdge s)

/-- The number of the last second plus OFFSET that the chosen time base has passed. -/
def State.ppsSecond (s : State) : Int := ((s.tbVal s.time.ppsTb : Int) - s.time.ppsOffset) / 1000000000

/-- PPS_OUT goes by TB and OFFSET as they now stand; edge points already behind are passed. -/
def State.ppsAdopt (s : State) : State :=
  let t := { s with time := { s.time with ppsTb := s.rd timPpsOutTb, ppsOffset := signed 32 (s.rd timPpsOutOffset) } }
  { t with time := { t.time with ppsOutLast := if t.time.ppsTb = s.time.ppsTb && t.time.ppsOffset = s.time.ppsOffset then max t.time.ppsOutLast t.ppsSecond else t.ppsSecond } }

/-- A write of TIM_PPS_OUT (R385): as EN becomes 1 its settings come into force; later ones wait for the next second. -/
def State.ppsWrite (s : State) (addr width v : Nat) : State :=
  let t := s.writeReg addr width v
  if !s.flag timPpsOutEn && t.flag timPpsOutEn then t.ppsAdopt else t

/-- PPS_OUT is high (R385). -/
def State.ppsOut (s : State) : Bool := s.flag timPpsOutEn && decide (s.now < s.time.ppsOutFall)

/-- PPS_OUT rises where an edge point above the last one emitted has been reached, for WIDTH ms; a change of TB or OFFSET then comes into
force (R385). -/
def ppsOutEdge (s : State) : State :=
  if s.flag timPpsOutEn && decide (s.ppsSecond > s.time.ppsOutLast) then
    State.ppsAdopt { s with time := { s.time with ppsOutFall := s.now + ms (s.rd timPpsOutWidth) } }
  else s

def execPpsOutEdge (s : State) : Out := .next (ppsOutEdge s)

/-- A host read of TIM_TXTS_TIME: the oldest host entry is answered and popped (R381). -/
def timestampPop (p : Nat) (s : State) : State := s.readReg (0x20410 + 0x40 * p) 64 none

def execTimestampPop (p : PortId) (s : State) : Out := .next (timestampPop p.val s)

/-! ### TIMEBASE_SET and TIMEBASE_STEP_ACCEPT (R424, R372, R374) -/

/-- Bits of entry word 1 that TIMEBASE_SET uses. -/
def tbUse (mask3 : Nat) : List (Nat × Nat) := [(1, 0xF), (3, mask3)]

/-- ACTION 0: configure (R424). A change of SRC or PORT clears a refusal and the sample window (R373). -/
def applyConfigure (c : HostCmd) (s : State) : Reply :=
  let n := bits c.w1.toNat 0 2
  let w := c.w3.toNat
  let limit := bits w 32 20
  if bits w 4 2 = 3 then .refuse stBAD_PARAM 24
  else if limit < 10 || limit > 1000000 then .refuse stBAD_PARAM 28
  else
    let changed := s.rd timTbSrc n != bits w 0 2 || s.rd timTbPort n != bits w 2 2
    let s1 := (((((s.wr timTbSrc (bits w 0 2) n).wr timTbPort (bits w 2 2) n).wr timTbTransport (bits w 4 2) n).wr timTbDomain (bits w 8 8) n).wr timTbStepLimit limit n)
    if !changed then .done s1 0 0
    else
      let s2 := (s1.clearRefusal n).modTb n (fun t => { t with samples := [], lockRun := 0, sampleAt := s.now, master := none, pathDelay := 0 })
      .done (s2.wr timTbState (if bits w 0 2 = 0 then 0 else 1) n) 0 0

def timebaseConfigure (c : HostCmd) (s : State) : State :=
  runCommand c 0x30 (tbUse 0x000FFFFF0000FF3F) false (applyConfigure c) s

def execTimebaseConfigure (c : HostCmd) (s : State) : Out := .next (timebaseConfigure c s)

/-- ACTION 1: FREQ of a free-running time base. -/
def applyFreq (c : HostCmd) (s : State) : Reply :=
  let n := bits c.w1.toNat 0 2
  let f := signed 32 (bits c.w3.toNat 0 32)
  if s.rd timTbSrc n != 0 then .refuse stBAD_STATE 0
  else if f.natAbs > 4294967 then .refuse stBAD_PARAM 24
  else .done (s.modTb n (fun t => { t with freq := f, tracked := f })) 0 0

def timebaseFreq (c : HostCmd) (s : State) : State := runCommand c 0x30 (tbUse 0xFFFFFFFF) false (applyFreq c) s

def execTimebaseFreq (c : HostCmd) (s : State) : Out := .next (timebaseFreq c s)

/-- ACTION 2: load, an applied step of the new value less the old (R372). -/
def applyLoad (c : HostCmd) (s : State) : Reply :=
  let n := bits c.w1.toNat 0 2
  if s.tbUsed n then .refuse stBAD_STATE 0
  else .done ((s.applyStep n ((c.w3.toNat : Int) - s.tbVal n)).wr timTbSet 1 n) c.w3.toNat 0

def timebaseLoad (c : HostCmd) (s : State) : State :=
  runCommand c 0x30 (tbUse 0xFFFFFFFFFFFFFFFF) false (applyLoad c) s

def execTimebaseLoad (c : HostCmd) (s : State) : Out := .next (timebaseLoad c s)

/-- ACTION 3: a host offset sample, at most 128 in one second of the time base. -/
def applyHostSample (c : HostCmd) (s : State) : Reply :=
  let n := bits c.w1.toNat 0 2
  let second := s.tbVal n / 1000000000
  let count := if (s.tb n).hostSec = second then (s.tb n).hostCount else 0
  if s.rd timTbSrc n != 3 then .refuse stBAD_STATE 0
  else if count ≥ 128 then .refuse stBUSY 0
  else
    let s1 := s.modTb n (fun t => { t with hostSec := second, hostCount := count + 1 })
    .done (s1.offsetSample n (signed 64 c.w3.toNat)) 0 0

def timebaseHostSample (c : HostCmd) (s : State) : State :=
  runCommand c 0x30 (tbUse 0xFFFFFFFFFFFFFFFF) false (applyHostSample c) s

def execTimebaseHostSample (c : HostCmd) (s : State) : Out := .next (timebaseHostSample c s)

/-- TIMEBASE_STEP_ACCEPT (R374): the step as it stands is applied if it lies within STEP_LIMIT of the expected one. -/
def applyAccept (c : HostCmd) (s : State) : Reply :=
  let n := bits c.w1.toNat 0 2
  let pend := signed 64 (s.rd timTbPendStep n)
  if !s.flag timTbStepRefused n || (pend - signed 64 c.w3.toNat).natAbs > s.rd timTbStepLimit n then .refuse stBAD_STATE 0
  else
    let s1 := s.applyStep n pend
    let s2 := ((s1.wr timTbStepRefused 0 n).wr timTbPendStep 0 n).wr timTbState 1 n
    .done s2 (wrapInt 64 pend) (s2.tbVal n)

def timebaseStepAccept (c : HostCmd) (s : State) : State :=
  runCommand c 0x31 [(1, 0x3), (3, 0xFFFFFFFFFFFFFFFF)] false (applyAccept c) s

def execTimebaseStepAccept (c : HostCmd) (s : State) : Out := .next (timebaseStepAccept c s)

end Sys2Proof.Machine
end

