-- ==== Sys2Proof/Machine/Groups.lean ====
section
/-! DEFINITION. Parameter blocks and groups (R416-R419, Table 17.1): the block of a command, its groups, the range of
every field, and the settings a group stands for. -/

namespace Sys2Proof.Machine

/-- A group of a block: TYPE, byte offset of its content within the block, content words. -/
structure Grp where
  type : Nat
  pos  : Nat
  ws   : List Nat
  deriving DecidableEq, Repr

/-- The field of content word `w` of a group. -/
def Grp.f (g : Grp) (w lo n : Nat) : Nat := bits (g.ws.getD w 0) lo n

/-- DETAIL of a field of the block (R418): content word `w`, least bit `lo`. -/
def Grp.detail (g : Grp) (w lo : Nat) : Nat := 0x8000 + g.pos + 8 * w + lo / 8

/-- WORDS a TYPE may have (Table 17.1, R438): least, most, multiple. -/
def groupWords : Nat → Option (Nat × Nat × Nat)
  | 1 => some (1, 1, 1)
  | 2 | 3 | 6 | 7 | 8 | 10 | 13 => some (2, 2, 1)
  | 4 => some (5, 5, 1)
  | 5 | 11 => some (13, 13, 1)
  | 9 => some (1, 1, 1)
  | 12 => some (7, 7, 1)
  | 14 => some (1, 16, 1)
  | 15 => some (12, 12, 1)
  | 16 => some (3, 24, 3)
  | _ => none

/-- Cut a block into groups; an error is a DETAIL (R418). -/
def parseGroups : Nat → Nat → List Nat → Except Nat (List Grp)
  | 0, _, _ => .ok []
  | _ + 1, _, [] => .ok []
  | fuel + 1, off, h :: r =>
    let n := bits h 8 8
    match groupWords (bits h 0 8) with
    | none => .error (0x8000 + off)
    | some (lo, hi, m) =>
      if h / 65536 != 0 then .error (0x8000 + off + 2 + lowestBit 48 (h / 65536) / 8)
      else if n < lo || n > hi || n % m != 0 || r.length < n then .error (0x8000 + off + 1)
      else match parseGroups fuel (off + 8 + 8 * n) (r.drop n) with
      | .error d => .error d
      | .ok gs => .ok ({ type := bits h 0 8, pos := off + 8, ws := r.take n } :: gs)

/-- The words of a command's block (R416, R417); `none`: the reference is not to a block of the host-shared
partition. -/
def State.blockOf (s : State) (c : HostCmd) : Option (List Nat) :=
  let off := bits c.w2.toNat 0 40
  let n := bits c.w2.toNat 48 16
  if c.w2 = 0 then some []
  else if off % 8 != 0 || n = 0 || n > 4096 || off + 8 * n > s.hsBytes then none
  else some ((List.range n).map (fun i => (c.blk.getD i 0).toNat))

/-- A field of Table 17.1: least bit, width, least and greatest value. -/
structure GField where
  lo : Nat
  width : Nat
  min : Nat := 0
  max : Nat := 0xFFFF_FFFF_FFFF_FFFF

/-- The fields of content word `w` of a group, with the ranges of the tables its last column names. -/
def groupFields : Nat → Nat → List GField
  | 1, _ => [⟨0, 16, 0, 0xFFFF⟩, ⟨16, 2, 0, 3⟩, ⟨18, 1, 0, 1⟩, ⟨32, 16, 0, 0xFFFF⟩]
  | 2, 0 => [⟨0, 8, 1, 9⟩, ⟨8, 4, 0, 5⟩, ⟨12, 7, 0, 127⟩, ⟨20, 7, 13, 127⟩, ⟨27, 1, 0, 1⟩, ⟨28, 3, 0, 4⟩]
  | 2, _ => [⟨0, 7, 0, 127⟩, ⟨8, 7, 0, 127⟩, ⟨16, 7, 0, 127⟩, ⟨24, 7, 0, 127⟩]
  | 3, 0 => [⟨0, 8, 1, 9⟩, ⟨8, 4, 0, 5⟩, ⟨12, 7, 0, 127⟩, ⟨19, 1, 0, 1⟩, ⟨20, 1, 0, 1⟩, ⟨21, 1, 0, 1⟩, ⟨22, 1, 0, 1⟩,
             ⟨23, 1, 0, 1⟩, ⟨24, 5, 0, 31⟩, ⟨29, 2, 0, 3⟩, ⟨32, 13, 0, 5000⟩, ⟨45, 9, 6, 256⟩, ⟨54, 3, 0, 4⟩]
  | 3, _ => [⟨0, 32, 0, 0xFFFFFFFF⟩]
  | 4, 0 => [⟨0, 2, 0, 3⟩, ⟨2, 12, 0, 4095⟩, ⟨14, 1, 0, 1⟩, ⟨15, 2, 0, 2⟩, ⟨17, 1, 0, 1⟩, ⟨18, 7, 0, 127⟩, ⟨25, 7, 1, 64⟩,
             ⟨32, 16, 0, 65535⟩, ⟨48, 16, 0, 65535⟩]
  | 5, 0 | 11, 0 => [⟨0, 7, 14, 96⟩, ⟨8, 7, 0, 127⟩, ⟨16, 7, 0, 127⟩, ⟨24, 7, 0, 127⟩, ⟨32, 2, 0, 3⟩]
  | 6, 0 => [⟨0, 16, 0, 20000⟩, ⟨16, 16, 0, 20000⟩, ⟨32, 16, 0, 20000⟩, ⟨48, 16, 0, 20000⟩]
  | 6, _ => [⟨0, 16, 0, 1000⟩, ⟨16, 4, 1, 15⟩, ⟨20, 8, 0, 255⟩, ⟨28, 10, 0, 600⟩, ⟨38, 1, 0, 1⟩]
  | 7, 0 => [⟨0, 1, 0, 1⟩, ⟨1, 1, 0, 1⟩, ⟨2, 1, 0, 1⟩, ⟨3, 1, 0, 1⟩, ⟨4, 2, 0, 2⟩, ⟨6, 2, 0, 2⟩, ⟨8, 1, 0, 1⟩, ⟨9, 10, 64, 512⟩,
             ⟨19, 9, 0, 448⟩, ⟨28, 5, 0, 16⟩]
  | 7, _ => [⟨0, 9, 0, 448⟩, ⟨9, 9, 0, 448⟩, ⟨18, 1, 0, 1⟩, ⟨19, 6, 30, 60⟩, ⟨25, 5, 0, 24⟩]
  | 8, 0 => [⟨0, 8, 0, 255⟩, ⟨8, 8, 0, 255⟩, ⟨16, 6, 20, 45⟩, ⟨22, 5, 0, 20⟩, ⟨27, 5, 0, 24⟩, ⟨32, 1, 0, 1⟩, ⟨33, 1, 0, 1⟩,
             ⟨34, 7, 0, 127⟩, ⟨41, 2, 0, 3⟩, ⟨43, 2, 0, 2⟩]
  | 8, _ => [⟨0, 32, 0, 0xFFFFFFFF⟩]
  | 9, _ => [⟨0, 8, 0, 255⟩, ⟨8, 8, 0, 255⟩, ⟨16, 4, 0, 7⟩, ⟨20, 15, 0, 32767⟩]
  | 10, 0 => [⟨0, 2, 0, 3⟩, ⟨2, 2, 0, 3⟩, ⟨4, 2, 0, 3⟩, ⟨6, 7, 96, 127⟩, ⟨13, 9, 1, 256⟩, ⟨22, 8, 1, 128⟩, ⟨30, 7, 1, 64⟩,
              ⟨37, 3, 3, 5⟩, ⟨40, 7, 1, 64⟩, ⟨47, 11, 20, 2000⟩]
  | 10, _ => [⟨0, 32, 0, 0xFFFFFFFF⟩, ⟨32, 16, 0, 65535⟩]
  | 12, 0 => [⟨0, 1, 0, 1⟩, ⟨1, 3, 0, 7⟩, ⟨4, 3, 0, 4⟩, ⟨7, 1, 0, 1⟩, ⟨8, 16, 0, 65535⟩, ⟨24, 8, 0, 255⟩, ⟨32, 32, 0, 0xFFFFFFFF⟩]
  | 12, 6 => [⟨0, 48, 0, 0xFFFFFFFFFFFF⟩]
  | 13, 0 => [⟨0, 2, 0, 3⟩, ⟨2, 1, 0, 1⟩, ⟨3, 7, 0, 120⟩, ⟨10, 6, 26, 48⟩, ⟨16, 5, 6, 24⟩, ⟨21, 6, 6, 36⟩, ⟨27, 2, 0, 3⟩,
              ⟨29, 1, 0, 1⟩, ⟨30, 1, 0, 1⟩, ⟨31, 3, 0, 5⟩, ⟨34, 3, 0, 7⟩, ⟨37, 2, 0, 3⟩, ⟨39, 5, 2, 16⟩, ⟨44, 3, 1, 4⟩, ⟨47, 2, 0, 3⟩,
              ⟨49, 7, 0, 100⟩, ⟨56, 2, 0, 3⟩, ⟨58, 2, 0, 3⟩]
  | 13, _ => [⟨0, 16, 1, 65535⟩, ⟨16, 11, 72, 1400⟩, ⟨27, 7, 96, 127⟩]
  | 14, _ => [⟨0, 8, 0, 255⟩, ⟨8, 7, 6, 90⟩, ⟨15, 14, 10, 10000⟩, ⟨29, 14, 10, 10000⟩, ⟨43, 8, 0, 255⟩, ⟨51, 1, 0, 1⟩,
              ⟨52, 8, 0, 255⟩, ⟨60, 1, 0, 1⟩, ⟨61, 1, 0, 1⟩]
  | 16, i =>
    if i % 3 = 0 then [⟨0, 2, 1, 3⟩, ⟨2, 1, 0, 1⟩, ⟨3, 8, 0, 128⟩, ⟨16, 16, 0, 65535⟩, ⟨32, 16, 0, 65535⟩, ⟨48, 12, 0, 4095⟩, ⟨60, 1, 0, 1⟩]
    else [⟨0, 64, 0, 0xFFFF_FFFF_FFFF_FFFF⟩]
  | _, _ => [⟨0, 64, 0, 0xFFFF_FFFF_FFFF_FFFF⟩]

/-- The bits that some field of a word names. -/
def usedMask (fs : List GField) : Nat := fs.foldl (fun a f => a ||| ((2 ^ f.width - 1) * 2 ^ f.lo)) 0

/-- The bits of a content word that carry a field: of group 12's w4 and w5 none with a 128-bit key, of its w7 the low 48 or, with a 96-bit
salt, 32 (Table 17.1). -/
def namedMask (g : Grp) (w : Nat) : Nat :=
  if g.type = 12 && (w = 3 || w = 4) && 1 ≤ g.f 0 1 3 && g.f 0 1 3 ≤ 3 then 0
  else if g.type = 12 && w = 6 && (g.f 0 1 3 = 3 || g.f 0 1 3 = 4) then 0xFFFFFFFF else usedMask (groupFields g.type w)

/-- The first fault of one content word: a reserved bit (R10) or a field out of range (R419). -/
def wordFault (g : Grp) (w : Nat) : Option Nat :=
  let fs := groupFields g.type w
  let stray := g.ws.getD w 0 &&& (0xFFFFFFFFFFFFFFFF - namedMask g w)
  if stray != 0 then some (g.detail w (lowestBit 64 stray))
  else (fs.find? (fun f => decide (g.f w f.lo f.width < f.min) || decide (f.max < g.f w f.lo f.width))).map (fun f => g.detail w f.lo)

/-- The first fault of a group's own words. -/
def groupFault (g : Grp) : Option Nat := (List.range g.ws.length).findSome? (wordFault g)

/-- The first group of the list that an earlier one repeats (R418): group 12 once for each DIR. -/
def repeated : List Grp → Option Nat
  | [] => none
  | g :: r =>
    match r.find? (fun h => h.type = g.type && (g.type != 12 || h.f 0 0 1 = g.f 0 0 1)) with
    | some h => some (0x8000 + h.pos - 8)
    | none => repeated r

/-- The groups of a command, or the DETAIL of BAD_PARAM (R416-R419): `allowed` and `required` types. -/
def State.groupsOf (s : State) (c : HostCmd) (allowed required : List Nat) : Except Nat (List Grp) :=
  match s.blockOf c with
  | none => .error 16
  | some ws =>
    match parseGroups (ws.length + 1) 0 ws with
    | .error d => .error d
    | .ok gs =>
      match gs.find? (fun g => !allowed.contains g.type) with
      | some g => .error (0x8000 + g.pos - 8)
      | none =>
        match repeated gs with
        | some d => .error d
        | none =>
          match gs.findSome? groupFault with
          | some d => .error d
          | none => if required.all (fun t => gs.any (fun g => g.type = t)) then .ok gs else .error 16

/-- The group of a type. -/
def grpOf (gs : List Grp) (t : Nat) : Option Grp := gs.find? (fun g => g.type = t)

/-! ### The settings of each group -/

/-- A 128-bit address in two content words. -/
def grpAddr (g : Grp) (w : Nat) : BitVec 128 := BitVec.ofNat 128 (g.ws.getD w 0 + g.ws.getD (w + 1) 0 * 2 ^ 64)

def rxOf (g : Grp) : RxCodec :=
  { codec := g.f 0 0 8, period := g.f 0 8 4, pt := g.f 0 12 7, cnPt := g.f 0 20 7, format := g.f 0 27 1 = 1,
    alts := ((List.range 4).map (fun i => g.f 1 (8 * i) 7)).take (g.f 0 28 3) }

def txOf (g : Grp) : TxCodec :=
  { codec := g.f 0 0 8, period := g.f 0 8 4, pt := g.f 0 12 7, dtx := g.f 0 19 1 = 1, cmrFollow := g.f 0 20 1 = 1,
    format := g.f 0 21 1 = 1, mcp2 := g.f 0 22 1 = 1, mcn := g.f 0 23 1 = 1, txMode := g.f 0 24 5, evsBw := g.f 0 29 2,
    sidMax := g.f 0 32 13, opusRate := g.f 0 45 9, opusBw := g.f 0 54 3, modeSet := BitVec.ofNat 32 (g.f 1 0 32) }

def flowsOf (g : Grp) : FlowSet :=
  { ethPort := g.f 0 0 2, vid := g.f 0 2 12, keyType := g.f 0 14 1, rtcp := g.f 0 15 2, eventEn := g.f 0 17 1 = 1,
    eventPt := g.f 0 18 7, quota := g.f 0 25 7, localPort := g.f 0 32 16, remotePort := g.f 0 48 16,
    localAddr := grpAddr g 1, remoteAddr := grpAddr g 3 }

def templateOf (g : Grp) : Template :=
  { length := g.f 0 0 7, ipOff := g.f 0 8 7, udpOff := g.f 0 16 7, rtpOff := g.f 0 24 7, egress := g.f 0 32 2,
    bytes := (wordBytes g.ws.tail).take (g.f 0 0 7) }

def jitterOf (g : Grp) : JitterSet :=
  { depth := g.f 0 0 16, adaptStart := g.f 0 16 16, adaptMin := g.f 0 32 16, adaptMax := g.f 0 48 16, margin := g.f 1 0 16,
    window := g.f 1 16 4, phaseSpan := g.f 1 20 8, forceAfter := g.f 1 28 10, adaptive := g.f 1 38 1 = 1 }

def echoOf (g : Grp) : EchoSet :=
  { ecOn := g.f 0 0 1 = 1, fixed := g.f 0 1 1 = 1, freeze := g.f 0 2 1 = 1, nlpMode := g.f 0 4 2, disabler := g.f 0 6 2,
    ecVbd := g.f 0 8 1 = 1, tailMax := g.f 0 9 10, initDelay := g.f 0 19 9, lead := g.f 0 28 5, win0Fix := g.f 1 0 9,
    win1Fix := g.f 1 9 9, win1Off := g.f 1 18 1 = 1, cngMax := g.f 1 19 6, dtMargin := g.f 1 25 5 }

def toneOf (g : Grp) : ToneSet :=
  { detMask := BitVec.ofNat 8 (g.f 0 0 8), notify := BitVec.ofNat 8 (g.f 0 8 8), dtmfMin := g.f 0 16 6, twistFwd := g.f 0 22 5,
    twistRev := g.f 0 27 5, ctFreq := g.f 0 32 1 = 1, clamp := g.f 0 33 1 = 1, evtTxPt := g.f 0 34 7, evtTxMask := g.f 0 41 2,
    evtRxAct := g.f 0 43 2, cpMask := BitVec.ofNat 32 (g.f 1 0 32) }

def glazeOf (g : Grp) : GlazeSet :=
  { setEc := g.f 0 0 8, setTx := g.f 0 8 8, rank := g.f 0 16 4, rankThresh := g.f 0 20 15 }

def fecOf (g : Grp) : FecSet :=
  { rxFec := g.f 0 0 2, txFec := g.f 0 2 2, redGens := g.f 0 4 2, redPt := g.f 0 6 7, ffK := g.f 0 13 9, ffR := g.f 0 22 8,
    ffE := 16 * g.f 0 30 7, ffN1 := g.f 0 37 3, maxPasses := g.f 0 40 7, timeout := g.f 0 47 11, seed := g.f 1 0 32,
    repairPort := g.f 1 32 16 }

def faxOf (g : Grp) : FaxSet :=
  { mode := g.f 0 0 2, autoPt := g.f 0 2 1 = 1, returnIdle := g.f 0 3 7, detLevel := g.f 0 10 6, captureDb := g.f 0 16 5,
    txLevel := g.f 0 21 6, version := g.f 0 27 2, rateMgmt := g.f 0 29 1 = 1, errRec := g.f 0 30 1 = 1, maxRate := g.f 0 31 3,
    redCtl := g.f 0 34 3, redImg := g.f 0 37 2, fecSpan := g.f 0 39 5, fecEntries := g.f 0 44 3, dataPeriod := g.f 0 47 2,
    reorder := g.f 0 49 7, textTx := g.f 0 56 2, textRed := g.f 0 58 2, port := g.f 1 0 16, maxDgram := g.f 1 16 11,
    textPt := g.f 1 27 7 }

def toneEntriesOf (g : Grp) : List ToneEntry :=
  g.ws.map (fun w => { code := bits w 0 8, level := bits w 8 7, on := bits w 15 14, off := bits w 29 14, repeats := bits w 43 8,
                       mix := bit w 51, stopCode := bits w 52 8, stopEdge := bit w 60, append := bit w 61 })

/-- The key of an SRTP group (group 12). A 128-bit master key stands in the first two key words. -/
def srtpKeyOf (g : Grp) : SrtpKey :=
  let kw := fun i => g.ws.getD i 0
  let suite := g.f 0 1 3
  { suite := suite, mkiLen := g.f 0 4 3, mki := g.f 0 32 32,
    key := BitVec.ofNat 256 (kw 1 + kw 2 * 2 ^ 64 + (if suite = 4 then kw 3 * 2 ^ 128 + kw 4 * 2 ^ 192 else 0)),
    salt := BitVec.ofNat 112 ((kw 5 + kw 6 * 2 ^ 64) % 2 ^ (if suite ≤ 2 then 112 else 96)) }

/-- The filters of a CAPTURE_FILTER group (Table 18.1). -/
def filtersOf (g : Grp) : List CapFilter :=
  (List.range (g.ws.length / 3)).map (fun i =>
    { dir := g.f (3 * i) 0 2, side := g.f (3 * i) 2 1 = 1, prefixLen := g.f (3 * i) 3 8, portLo := g.f (3 * i) 16 16,
      portHi := g.f (3 * i) 32 16, vid := g.f (3 * i) 48 12, vidEn := g.f (3 * i) 60 1 = 1, addr := grpAddr g (3 * i + 1) })

/-! ### Checks of one group's settings among themselves -/

/-- A check: whether it fails, the status, and DETAIL. -/
abbrev Check := Bool × Nat × Nat

/-- The first check that fails. -/
def firstFail (l : List Check) : Option (Nat × Nat) := (l.find? (·.1)).map (·.2)

/-- R184, R191. -/
def rxChecks (g : Grp) : List Check :=
  let r := rxOf g
  [(!(codecPeriods r.codec).contains r.period, stBAD_PARAM, g.detail 0 8),
   (decide (largestPayload r.codec r.period > 4064), stBAD_PARAM, g.detail 0 8),
   (r.cnPt != 13 && decide (r.cnPt < 96), stBAD_PARAM, g.detail 0 20)]

/-- R184, R186, R192, R198. -/
def txChecks (g : Grp) : List Check :=
  let t := txOf g
  [(!(codecPeriods t.codec).contains t.period, stBAD_PARAM, g.detail 0 8),
   (t.sidMax != 0 && decide (t.sidMax < 100), stBAD_PARAM, g.detail 0 32),
   ((permittedModes t.codec t.modeSet t.evsBw).isEmpty, stBAD_PARAM, g.detail 1 0),
   (!txModeValid t.codec t.evsBw t.txMode, stBAD_PARAM, g.detail 0 24),
   (t.codec = 3 && (t.txMode != 0 || !t.modeSet.getLsbD 0), stNOT_SUPPORTED, 0)]

/-- R107, R109: the offsets lie in order inside the template. `frame`: the largest frame on the wire, which the egress
port's MAX_FRAME must take. -/
def templateChecks (g : Grp) (rtp : Nat) : List Check :=
  let t := templateOf g
  [(decide (t.ipOff < 14) || decide (t.ipOff ≥ t.length), stBAD_PARAM, g.detail 0 8),
   (decide (t.udpOff < t.ipOff + 20) || decide (t.udpOff + 8 > t.length), stBAD_PARAM, g.detail 0 16),
   (rtp != 0 && (t.rtpOff != t.udpOff + 8 || decide (t.rtpOff + rtp > t.length)), stBAD_PARAM, g.detail 0 24)]

/-- R128; PHASE_SPAN against the PERIOD the channel will have. -/
def jitterChecks (g : Grp) (period : Nat) : List Check :=
  let j := jitterOf g
  [(decide (j.adaptMin > j.adaptMax), stBAD_PARAM, g.detail 0 32),
   (decide (j.adaptStart < j.adaptMin) || decide (j.adaptStart > j.adaptMax), stBAD_PARAM, g.detail 0 16),
   (decide (j.phaseSpan > 4 * periodMs period - 1), stBAD_PARAM, g.detail 1 20)]

/-- Table 7.2, R158: a FIXED window of 32 ms. -/
def echoChecks (g : Grp) : List Check :=
  let e := echoOf g
  let apart := decide (e.win0Fix + 64 ≤ e.win1Fix) || decide (e.win1Fix + 64 ≤ e.win0Fix)
  [(decide (e.initDelay + 64 > e.tailMax), stBAD_PARAM, g.detail 0 19),
   (e.fixed && decide (e.win0Fix + 64 > e.tailMax), stBAD_PARAM, g.detail 1 0),
   (e.fixed && !e.win1Off && decide (e.win1Fix + 64 > e.tailMax), stBAD_PARAM, g.detail 1 9),
   (e.fixed && !e.win1Off && !apart, stBAD_PARAM, g.detail 1 9)]

/-- R234, Table 10.4: against the channel's payload types, and the definitions whose VALID is 1. -/
def toneChecks (g : Grp) (s : State) (rx : RxCodec) (redPt : Nat) : List Check :=
  let t := toneOf g
  [(t.evtTxPt != 0 && decide (t.evtTxPt < 96), stBAD_PARAM, g.detail 0 34),
   (t.evtTxPt != 0 && (t.evtTxPt = rx.pt || t.evtTxPt = rx.cnPt || t.evtTxPt = redPt), stBAD_PARAM, g.detail 0 34),
   ((List.range 32).any (fun d => t.cpMask.getLsbD d && !s.flag cptValid d), stBAD_PARAM, g.detail 1 0)]

/-- Table 9.2. -/
def glazeChecks (g : Grp) : List Check :=
  let z := glazeOf g
  [(decide (63 < z.setEc) && z.setEc != 255, stBAD_PARAM, g.detail 0 0),
   (decide (63 < z.setTx) && z.setTx != 255, stBAD_PARAM, g.detail 0 8),
   (! [0, 3, 5, 7].contains z.rank, stBAD_PARAM, g.detail 0 16)]

/-- Table 4.1: a separate RTCP flow needs the port after LOCAL_PORT, and after REMOTE_PORT where it is compared. -/
def flowChecks (g : Grp) : List Check :=
  let f := flowsOf g
  [(f.rtcp = 1 && f.localPort = 65535, stBAD_PARAM, g.detail 0 32),
   (f.rtcp = 1 && f.keyType = 0 && f.remotePort = 65535, stBAD_PARAM, g.detail 0 48)]

/-! ### Device-private memory -/

/-- Bytes of device-private memory (R337, R339). -/
def State.privateSize (s : State) : Nat :=
  (s.rd memCapOnline * 16 - ((List.range 8).filter s.mcServes).length * s.hostFrames) * 2 ^ 26

/-- Bytes of block store that every FEC_SET reserves (R146). -/
def blockStoreBytes (f : FecSet) : Nat := 2 * (f.ffK + f.ffR) * f.ffE

/-- Bytes reserved: jitter rings (R116), block stores (R146), captures (R434, R436) and the mirror store (R460). -/
def State.privateUsed (s : State) : Nat :=
  (liveChans s).foldl (fun a e => a + 512 * e.2.steep.slotSize + e.2.weld.reserved) 0 +
    s.cap.caps.foldl (fun a e => a + e.2.capacity) 0 + (if s.flag rngPaired then s.rd rngUpCount * 65536 else 0)

/-- n bytes more can be reserved. -/
def State.canReserve (s : State) (n : Nat) : Bool := decide (s.privateUsed + n ≤ s.privateSize)

end Sys2Proof.Machine
end

