-- ==== Sys2Proof/Machine/FlowTable.lean ====
section
/-! DEFINITION. The local address table and the flow table (R86-R97): keys, hashing, lookup, insertion by at most three
moves, the stash, and the installation of a command's entries. -/

namespace Sys2Proof.Machine

/-! ### Local addresses (R86, R87) -/

/-- The index of an active local address. -/
def State.latIndex (s : State) (a : BitVec 128) : Option Nat :=
  (s.ing.lat.find? (fun e => e.2.active && e.2.addr = a)).map (·.1)

/-- Set the local address table and its occupancy. -/
def State.setLat (s : State) (l : Tbl LatEntry) : State :=
  { s with ing := { s.ing with lat := l } }.wr flwLatOcc l.length

/-- A channel takes an address: its entry gains a user, or the lowest free index is given to it; `none`: the table is
full. -/
def State.latTake (s : State) (a : BitVec 128) : Option (State × Nat) :=
  match s.ing.lat.find? (fun e => e.2.addr = a && e.2.active) with
  | some (i, e) => some (s.setLat (tins s.ing.lat i { e with users := e.users + 1 }), i)
  | none =>
    match (List.range 4096).find? (fun i => !s.ing.lat.any (fun e => e.1 = i)) with
    | some i => some (s.setLat (tins s.ing.lat i { addr := a, active := true, users := 1 }), i)
    | none => none

/-- A channel leaves an address; the last user's entry goes. -/
def State.latLeave (s : State) (a : BitVec 128) : State :=
  match s.ing.lat.find? (fun e => e.2.addr = a && e.2.active) with
  | some (i, e) => s.setLat (if e.users ≤ 1 then terase s.ing.lat i else tins s.ing.lat i { e with users := e.users - 1 })
  | none => s

/-! ### Keys (Table 4.1, R90) -/

/-- The 192-bit key of an entry. -/
def flowKey (e : FlowEntry) : Nat :=
  (if e.keyType = 1 then 0 else e.remoteAddr.toNat) + (if e.keyType = 1 then 0 else e.remotePort) * 2 ^ 128 + e.localPort * 2 ^ 144 +
    e.latIndex * 2 ^ 160 + e.ethPort * 2 ^ 172 + e.vid * 2 ^ 174 + e.keyType * 2 ^ 186

/-- The candidate slot of a key in bank b, numbered bank x 32,768 + slot. -/
def State.slotOf (s : State) (key b : Nat) : Nat := b * 32768 + crc32c (s.rd flwSeed b) (leBytes 24 key) % 32768

def State.candidates (s : State) (key : Nat) : List Nat := (List.range 4).map (s.slotOf key)

/-! ### Lookup (R91, R94) -/

/-- The valid entry with a key in the banks or the stash; slots with an ECC error do not match. -/
def State.flowFind (s : State) (key : Nat) (bad : List Nat) : Option FlowEntry :=
  match (s.candidates key).findSome? (fun i => if bad.contains i then none else
      (s.ing.flows.find? (fun e => e.1 = i && flowKey e.2 = key)).map (·.2)) with
  | some e => some e
  | none => (s.ing.stash.find? (fun e => flowKey e.2 = key)).map (·.2)

/-! ### Insertion (R95) -/

/-- The entry in a slot. -/
def State.flowAt (s : State) (i : Nat) : Option FlowEntry := (s.ing.flows.find? (fun e => e.1 = i)).map (·.2)

/-- The chains one move longer than `p`: the occupant of its last slot moves to each of its three other candidates. A
chain is a list of slots, the last first. -/
def State.extend (s : State) (p : List Nat) : List (List Nat) :=
  match p with
  | [] => []
  | i :: _ =>
    match s.flowAt i with
    | none => []
    | some o => ((s.candidates (flowKey o)).filter (fun j => j / 32768 != i / 32768 && !p.contains j)).map (· :: p)

/-- The first chain that ends in an empty slot. -/
def State.chainIn (s : State) (ps : List (List Nat)) : Option (List Nat) :=
  ps.find? (fun p => match p with
    | [] => false
    | i :: _ => (s.flowAt i).isNone)

/-- Breadth-first search with at most `n` more moves. -/
def State.search (s : State) : Nat → List (List Nat) → Option (List Nat)
  | 0, ps => s.chainIn ps
  | n + 1, ps =>
    match s.chainIn ps with
    | some p => some p
    | none => s.search n (ps.flatMap s.extend)

/-- Perform a chain from its empty end back, and place the entry in the first slot. -/
def runChain (e : FlowEntry) : List Nat → Tbl FlowEntry → Tbl FlowEntry
  | [], t => t
  | [i], t => tins t i e
  | j :: i :: r, t =>
    match t.find? (fun x => x.1 = i) with
    | none => t
    | some (_, o) => runChain e (i :: r) (terase (tins t j o) i)

/-- Set both parts of the flow table and their occupancy. -/
def State.setFlows (s : State) (t st : Tbl FlowEntry) : State :=
  ({ s with ing := { s.ing with flows := t, stash := st } }.wr flwOccTable t.length).wr flwOccStash st.length

/-- Place an entry in the banks; `none`: no chain exists. -/
def State.placeFlow (s : State) (e : FlowEntry) : Option State :=
  match s.search 3 ((s.candidates (flowKey e)).map ([·])) with
  | none => none
  | some p => some (s.setFlows (runChain e p s.ing.flows) s.ing.stash)

/-- Insert an entry: in the banks, in the lowest free stash entry, or not at all. -/
def State.insertFlow (s : State) (e : FlowEntry) : Option State :=
  match s.placeFlow e with
  | some t => some t
  | none =>
    match (List.range 64).find? (fun i => !s.ing.stash.any (fun x => x.1 = i)) with
    | some i => some ((s.setFlows s.ing.flows (tins s.ing.stash i e)).bump flwStashInserts)
    | none => none

/-- Each stash entry moves back into the banks where a chain exists (R97). -/
def State.replaceStash (s : State) : State :=
  s.ing.stash.foldl (fun s e => match s.placeFlow e.2 with
    | none => s
    | some t => t.setFlows t.ing.flows (terase t.ing.stash e.1)) s

/-- Remove the entries with these keys, then try the stash (R97). -/
def State.removeFlows (s : State) (keys : List Nat) : State :=
  if keys.isEmpty then s else
  let keep := fun (t : Tbl FlowEntry) => t.filter (fun e => !keys.contains (flowKey e.2))
  (s.setFlows (keep s.ing.flows) (keep s.ing.stash)).replaceStash

/-- Every entry of the table. -/
def State.allFlows (s : State) : List FlowEntry := s.ing.flows.map (·.2) ++ s.ing.stash.map (·.2)

/-- The entries of a channel. -/
def State.flowsOfChan (s : State) (ch : Nat) : List FlowEntry := s.allFlows.filter (fun e => e.ch = ch)

/-- Write an entry over the one with its key. -/
def State.overwriteFlow (s : State) (e : FlowEntry) : State :=
  let f := fun (t : Tbl FlowEntry) => t.map (fun x => if flowKey x.2 = flowKey e then (x.1, e) else x)
  { s with ing := { s.ing with flows := f s.ing.flows, stash := f s.ing.stash } }

/-- The DETAIL of the first new entry whose key is taken (R96): by a valid entry that is not replaced, or by another
entry of the command; of two entries of the command that share a key, the later one's field is named, DESIGN CHOICE (log 102). -/
def State.keyClash (s : State) (replaced : List Nat) : List (FlowEntry × Nat) → Option Nat
  | [] => none
  | (e, d) :: r =>
    if s.allFlows.any (fun x => flowKey x = flowKey e && !replaced.contains (flowKey x)) then some d
    else match r.find? (fun x => flowKey x.1 = flowKey e) with
    | some x => some x.2
    | none => s.keyClash replaced r

/-- A command's entries on a local address, compared before anything else (R87, R96): the DETAIL of a key that is taken; no room in the
local address table; or the state in which the address is held. A new address can clash with no valid entry. -/
def State.claimFlows (s : State) (a : BitVec 128) (replaced : List Nat) (entries : Nat → List (FlowEntry × Nat)) :
    Except Nat (Option (State × List FlowEntry)) :=
  match s.latTake a with
  | none =>
    match State.keyClash { s with ing := {} } [] (entries 0) with
    | some d => .error d
    | none => .ok none
  | some (t, lat) =>
    match s.keyClash replaced (entries lat) with
    | some d => .error d
    | none => .ok (some (t, (entries lat).map (·.1)))

/-- Insert entries in order; `none` where one fails. -/
def State.insertAll (s : State) : List FlowEntry → Option State
  | [] => some s
  | e :: r =>
    match s.insertFlow e with
    | none => none
    | some t => t.insertAll r

/-- Install a command's entries in place of the keys `replaced` (R96, R422): equal keys are overwritten in place, the
others inserted, then old entries not named again are removed. `none`: an insertion failed. -/
def State.installFlows (s : State) (replaced : List Nat) (new : List FlowEntry) : Option State :=
  let same := new.filter (fun e => replaced.contains (flowKey e))
  let s1 := same.foldl State.overwriteFlow s
  match s1.insertAll (new.filter (fun e => !replaced.contains (flowKey e))) with
  | none => none
  | some t => some (t.removeFlows (replaced.filter (fun k => !new.any (fun e => flowKey e = k))))

/-- The entries a FLOWS setting stands for: media, and RTCP on the next port where it is separate (Table 17.1). -/
def mediaFlows (ch lat : Nat) (f : FlowSet) (srtp : Bool) : List FlowEntry :=
  let media : FlowEntry :=
    { remoteAddr := if f.keyType = 1 then 0 else f.remoteAddr, remotePort := if f.keyType = 1 then 0 else f.remotePort,
      localPort := f.localPort, latIndex := lat, ethPort := f.ethPort, vid := f.vid, keyType := f.keyType, ch := ch, kind := 0, immediate := false,
      rtcpMux := f.rtcp = 2, srtp := srtp, eventEn := f.eventEn, eventPt := f.eventPt, quota := f.quota }
  if f.rtcp = 1 then
    [media, { media with remotePort := if f.keyType = 1 then 0 else f.remotePort + 1, localPort := f.localPort + 1, kind := 1, immediate := true, eventEn := false }]
  else [media]

/-- The entry of a receive repair flow (R144, R153): local-only, KIND 2. -/
def repairFlow (ch lat : Nat) (f : FlowSet) (port : Nat) : FlowEntry :=
  { remoteAddr := 0, remotePort := 0, localPort := port, latIndex := lat, ethPort := f.ethPort, vid := f.vid, keyType := 1, ch := ch, kind := 2, immediate := false, rtcpMux := false, srtp := false, eventEn := false, eventPt := 0, quota := f.quota }

/-- The UDPTL entry that takes the media flow's place in state 2 (R248): KIND 3, immediate, on T38_PORT. -/
def udptlFlow (ch lat : Nat) (f : FlowSet) (port : Nat) : FlowEntry :=
  { remoteAddr := if f.keyType = 1 then 0 else f.remoteAddr, remotePort := if f.keyType = 1 then 0 else f.remotePort, localPort := port,
      latIndex := lat, ethPort := f.ethPort, vid := f.vid, keyType := f.keyType, ch := ch, kind := 3, immediate := true, rtcpMux := false,
      srtp := false, eventEn := false, eventPt := 0, quota := f.quota }

/-- The SRTP bit of a channel's flows follows whether it holds a receive key (R96, R423). -/
def State.markSrtp (s : State) (ch : Nat) (on : Bool) : State :=
  let f := fun (t : Tbl FlowEntry) => t.map (fun e => if e.2.ch = ch && e.2.kind ≤ 1 then (e.1, { e.2 with srtp := on }) else e)
  { s with ing := { s.ing with flows := f s.ing.flows, stash := f s.ing.stash } }

end Sys2Proof.Machine
end

