-- ==== Sys2Proof/Machine/Channels.lean ====
section
/-! DEFINITION. The life of a channel (R32-R37, R416-R423), SRTP keys (R101-R105), publications without a job (R42),
the state window (R39) and SNAPSHOT (R48, R49). -/

namespace Sys2Proof.Machine

/-! ### Settings -/

/-- A block group that is not there. -/
def noGrp : Grp := { type := 0, pos := 0, ws := [] }

def grp (gs : List Grp) (t : Nat) : Grp := (grpOf gs t).getD noGrp

/-- The mode with which a transmit setting starts (R198). -/
def startMode (t : TxCodec) : Nat := boundMode (permittedModes t.codec t.modeSet t.evsBw) t.txMode

/-- TARGET at a channel's first anchoring (R123), ns. -/
def startTarget (j : JitterSet) : Nat := (if j.adaptive then j.adaptStart else j.depth) * 100000

/-- Apply one group of CHAN_OPEN, CHAN_MODIFY or FAX_MODE to a channel's settings. Another transmit codec resets the encoder and sets the
marker bit on the first packet (R200). -/
def applyGrp (c : Chan) (g : Grp) : Chan :=
  match g.type with
  | 1 => { c with hostTag := BitVec.ofNat 16 (g.f 0 0 16), tb := g.f 0 16 2, xrEn := g.f 0 18 1 = 1, ext := g.f 0 32 16 }
  | 2 => { keepDtx c with rx := rxOf g, ctx := { c.ctx with rxDtx := false } }
  | 3 =>
    let t := txOf g
    -- A request since the last job that sent on the channel is bounded anew, after the command (R199).
    let again := if t.cmrFollow && t.codec = c.tx.codec then c.ctx.cmrFresh else none
    let n := { c with tx := t, ctx := { c.ctx with encMode := startMode t, encBw := t.evsBw, cmrWait := again, cmrFresh := again, cmrDone := false } }
    if t.codec = c.tx.codec then n else { n with egr := { c.egr with markNext := true, dtx := {} } }
  | 4 => { c with flows := flowsOf g }
  | 5 => { c with tmpl := templateOf g, egr := { c.egr with ssrc := BitVec.ofNat 32 (be32 (templateOf g).bytes ((templateOf g).rtpOff + 8)) } }
  | 6 => { c with jit := jitterOf g }
  | 7 => withEcho (echoOf g) (g.f 0 3 1 = 1) c
  | 8 => { c with tns := toneOf g }
  | 9 => { c with gls := glazeOf g }
  | _ => c

def withGroups (gs : List Grp) (c : Chan) : Chan := gs.foldl applyGrp c

/-- The checks of the groups a command carries (R419), the channel's settings standing as `c`. -/
def groupChecks (s : State) (c : Chan) (gs : List Grp) : List Check :=
  gs.flatMap (fun g => match g.type with
    | 2 => rxChecks g
    | 3 => txChecks g
    | 4 => flowChecks g
    | 5 => templateChecks g 12
    | 6 => jitterChecks g c.rx.period
    | 7 => echoChecks g
    | 8 => toneChecks g s c.rx c.fec.redPt
    | 9 => glazeChecks g
    | _ => [])

/-- Octets SRTP adds to a packet: tag and MKI (Table 4.3). -/
def srtpOctets : Option SrtpKey → Nat
  | none => 0
  | some k => (if k.suite = 1 then 10 else if k.suite = 2 then 4 else if k.suite = 0 then 0 else 16) + k.mkiLen

/-- The largest RTP payload of a channel (R109), with the redundancy that its settings send (R151). -/
def largestPacket (c : Chan) : Nat := largestPayload c.tx.codec c.tx.period + redOctets c.tx.codec c.tx.period c.fec

/-- The largest packet of a channel passes its egress port (R109), under the key in force and under a pending one. -/
def State.frameFits (s : State) (c : Chan) : Bool :=
  decide (c.tmpl.length + largestPacket c + max (srtpOctets c.stx.current) (srtpOctets c.stx.pendingKey) + 4 ≤ s.rd ethMaxFrame c.tmpl.egress)

/-- Both jobs of a call suit R189. -/
def callFits (a b : Chan) : Bool :=
  periodsFit a.rx.period b.tx.period b.tx.codec && periodsFit b.rx.period a.tx.period a.tx.codec

/-- DETAIL of a field of the first group given that could break R109 or R189. -/
def periodDetail (gs : List Grp) : Nat :=
  match grpOf gs 2 with
  | some g => g.detail 0 8
  | none => (grp gs 3).detail 0 8

def frameDetail (gs : List Grp) : Nat :=
  match grpOf gs 5 with
  | some g => g.detail 0 0
  | none => (grp gs 3).detail 0 0

/-- The DETAIL of each media entry (R96): the LOCAL_PORT of its group. -/
def portDetails (g : Grp) (es : List FlowEntry) : List (FlowEntry × Nat) := es.map (fun e => (e, g.detail 0 32))

/-! ### CHAN_OPEN -/

/-- A channel ID in the device's home range, where it has a ring partner (R35). -/
def State.homeOk (s : State) (ch : Nat) : Bool :=
  !s.flag rngPaired || (decide (s.rd rngHomeFirst ≤ ch) && decide (ch < s.rd rngHomeFirst + s.rd rngHomeCount))

/-- The active pack holds the extension kernel, for both periods of the channel (R423). -/
def State.extOk (s : State) (c : Chan) : Bool :=
  c.ext = 0 || (match s.extDesc c.ext with
    | none => false
    | some d => bit (d.getD 6 0) c.rx.period && bit (d.getD 6 0) c.tx.period)

/-- The channel a CHAN_OPEN makes (R41, R422): fresh but for its key; groups it omits at their defaults; first NEXT_SEQ,
RTP timestamp and IPv4 identification are not stated: free values (log 2). -/
def State.openedChan (s : State) (ch : Nat) (gs : List Grp) : Chan :=
  let c := withGroups gs { st := .open, origin := s.rd rngPosOwn, pub := { (s.chan ch).pub with due := false, jobTick := none, closing := false, adopted := false } }
  let jit := if (grpOf gs 6).isSome then c.jit else { c.jit with phaseSpan := min 20 (4 * periodMs c.rx.period - 1) }
  let free := fun (k : Nat) => Config.freeNat (s.freeCtr + k)
  let c1 := { c with jit := jit, echo := startEcho c.ecs, steep := { slotSize := slotSizeOf c, target := startTarget jit } }
  { c1 with stats := {}, egr := { c1.egr with nextSeq := BitVec.ofNat 16 (free 0), rtpTs := BitVec.ofNat 32 (free 1), ipId := BitVec.ofNat 16 (free 2) } }

/-- CHAN_OPEN. DEDUCED order of its refusals (log 16): the groups and their ranges; Table 2.1; R35; R423; R96; R109;
then the load and the insertion. -/
def applyOpen (c : HostCmd) (s : State) : Reply :=
  let ch := bits c.w1.toNat 0 16
  match s.groupsOf c [1, 2, 3, 4, 5, 6, 7, 8, 9] [1, 2, 3, 4, 5] with
  | .error d => .refuse stBAD_PARAM d
  | .ok gs =>
    let n := s.openedChan ch gs
    let st := (s.chan ch).st
    let checks := groupChecks s n gs ++
      [(decide (st = .closing), stBUSY, 0), (st != .free, stBAD_STATE, 0), (decide (s.rd mbxBootState = 6), stINCOMPATIBLE, 0), (!s.homeOk ch, stBAD_PARAM, 8),
       (!s.extOk n, stBAD_PARAM, (grp gs 1).detail 0 32)]
    match firstFail checks with
    | some (st, d) => .refuse st d
    | none =>
      match s.claimFlows n.flows.localAddr [] (fun lat => portDetails (grp gs 4) (mediaFlows ch lat n.flows false)) with
      | .error d => .refuse stBAD_PARAM d
      | .ok claim =>
        if !s.frameFits n then .refuse stBAD_PARAM (frameDetail gs) else
        match claim with
        | none => .refuse stNO_RESOURCE 0
        | some (s1, es) =>
          let t := s1.draw.draw.draw.setChan ch n
          if overLoad s t then .fail (s.bump supLoadRefused) stNO_RESOURCE 0
          else match t.installFlows [] es with
          | none => .fail (s.bump flwInsertFail) stNO_RESOURCE 0
          | some u => .publish (u.ctxFrame ch).replan [ch]

def chanOpen (c : HostCmd) (s : State) : State := runCommand c 0x10 [(1, 0xFFFF)] true (applyOpen c) s

def execChanOpen (c : HostCmd) (s : State) : Out := .next (chanOpen c s)

/-! ### CHAN_MODIFY -/

/-- A change of receive codec to another RTP clock rate (R135): ring and window are cleared, timestamps are unwrapped afresh, and the
channel anchors again, keeping phase and TARGET. -/
def clockChanged (old new : RxCodec) (t : Steep) : Steep :=
  if clockRate old.codec = clockRate new.codec then t
  else { t with ring := [], transits := [], firstSeenAt := none, lastTransit := none, anchored := false, jumpPkt := none, driftHist := [], lastTs := 0 }

/-- The buffers of a packet that such a change lets go with the ring (R111). -/
def State.letJumpGo (t s : State) (ch : Nat) : State :=
  match (s.chan ch).steep.jumpPkt with
  | some j => if (t.chan ch).steep.jumpPkt.isNone then (t.freeBuf 0 j.buffers).modChan ch (fun x => { x with ingressHeld := x.ingressHeld - j.buffers }) else t
  | none => t

/-- A ring whose slots must grow moves between two ticks (R117). -/
def slotsGrow (c : Chan) : Chan :=
  if slotSizeOf c > c.steep.slotSize then { c with steep := { c.steep with moving := some (slotSizeOf c) } } else c

/-- Mark a re-phase of a channel whose PERIOD or skein key a command changed (R135). -/
def State.rephaseIf (t s : State) (ch : Nat) : State :=
  if t.keyOf ch = s.keyOf ch then t else t.modChan ch (fun c => { c with steep := { c.steep with rephase := true } })

/-- Every flow entry of a channel under new FLOWS settings: media, RTCP and the repair flow it has (R422). -/
def chanFlows (ch lat : Nat) (c : Chan) : List FlowEntry :=
  mediaFlows ch lat c.flows c.srx.current.isSome ++
    (if c.fec.rxFec ≥ 2 then [repairFlow ch lat c.flows c.fec.repairPort] else [])

/-- Put new FLOWS of a channel in force (R96, R422), `s` the state before the command and `t` with its settings: keys are compared first,
then the load is judged (R207), then entries are inserted; the error is a refusal. -/
def State.reflow (t s : State) (ch : Nat) (g : Grp) (n : Chan) : Except (State × Nat × Nat) State :=
  let old := (s.flowsOfChan ch).map flowKey
  match t.claimFlows n.flows.localAddr old (fun lat => portDetails g (chanFlows ch lat n)) with
  | .error d => .error (s, stBAD_PARAM, d)
  | .ok claim =>
    if overLoad s t then .error (s.bump supLoadRefused, stNO_RESOURCE, 0) else
    match claim with
    | none => .error (s, stNO_RESOURCE, 0)
    | some (t1, es) =>
      match t1.installFlows old es with
      | none => .error (s.bump flwInsertFail, stNO_RESOURCE, 0)
      | some u => .ok (u.latLeave (s.chan ch).flows.localAddr)

/-- Another canceller rate leaves nothing of the filter at the old one (R157): coefficients and histories go. DESIGN CHOICE (log 106). -/
def rateChanged (old c : Chan) : Chan :=
  if cancellerFs old = cancellerFs c then c
  else { c with echo := { c.echo with coef0 := [], coef1 := [], rin := {}, sin := {}, background := [], converged := false, erleHigh := 0 } }

/-- The channel a CHAN_MODIFY makes. Another receive codec resets the decoder (R200). A new codec or period breaks the row of tick numbers, which resets Glaze's history
(R216). -/
def modifiedChan (c : Chan) (gs : List Grp) : Chan :=
  let n := withGroups gs c
  let same := decide (c.rx.codec = n.rx.codec) && decide (c.rx.period = n.rx.period)
  let st := clockChanged c.rx n.rx n.steep
  let dec := { n.ctx with inCng := n.ctx.inCng && decide (c.rx.codec = n.rx.codec), hiddenMs := if c.rx.codec = n.rx.codec then n.ctx.hiddenMs else 0 }
  slotsGrow (rateChanged c { n with ctx := dec, steep := { st with tickCount := st.tickCount + b2n (!same) } })

/-- CHAN_MODIFY (R33, R135, R189, R207, R422, R423). -/
def applyModify (c : HostCmd) (s : State) : Reply :=
  let ch := bits c.w1.toNat 0 16
  match s.groupsOf c [2, 3, 4, 5, 6, 7, 8, 9] [] with
  | .error d => .refuse stBAD_PARAM d
  | .ok gs =>
    let old := s.chan ch
    let n := modifiedChan old gs
    let codecs := (grpOf gs 2).isSome || (grpOf gs 3).isSome
    let checks := [(gs.isEmpty, stBAD_PARAM, 16)] ++ groupChecks s n gs ++
      [(old.st != .open && old.st != .bound, stBAD_STATE, 0),
       ((old.vbd.state = 2 || old.vbd.state = 3) && old.vbd.relay && (codecs || (grpOf gs 4).isSome), stBAD_STATE, 0),
       (!s.frameFits n, stBAD_PARAM, frameDetail gs),
       (codecs && old.st = .bound && !callFits n (s.chan old.peer), stBAD_PARAM, periodDetail gs)]
    match firstFail checks with
    | some (st, d) => .refuse st d
    | none =>
      let t := ((((s.setChan ch n).letJumpGo s ch).settleEcho ch).rephaseIf s ch).rephaseIf s (if old.st = .bound then old.peer else ch)
      match grpOf gs 4 with
      | none => if overLoad s t then .fail (s.bump supLoadRefused) stNO_RESOURCE 0 else .publish t.replan [ch]
      | some g =>
        match t.reflow s ch g n with
        | .error e => .fail e.1 e.2.1 e.2.2
        | .ok u => .publish u.replan [ch]

def chanModify (c : HostCmd) (s : State) : State := runCommand c 0x11 [(1, 0xFFFF)] true (applyModify c) s

def execChanModify (c : HostCmd) (s : State) : Out := .next (chanModify c s)

/-! ### CHAN_CLOSE, CALL_BIND, CALL_UNBIND -/

/-- A launch time that a closing channel cannot wait for (R36): it lies more than 4 ms ahead. -/
def State.tooFar (s : State) (tb launch : Nat) : Bool := decide (s.tbVal tb + ms 4 < launch)

/-- What a closing channel was to send more than 4 ms on is let go, its buffers freed (R36). DESIGN CHOICE (log 56): the spec says that
the entries drain and that the command completes within 4 ms. -/
def State.dropFar (s : State) (ch : Nat) : State :=
  let far := fun (d : TxDesc) => decide (d.owner = TxOwner.egress (Fin.ofNat 65536 ch)) && d.launch.any (fun l => s.tooFar l.1.val l.2.toNat)
  let s1 := s.modChan ch (fun c => { c with egr := { c.egr with outQ := c.egr.outQ.filter (fun f => !(f.launch.any (fun l => s.tooFar f.tb l))) } })
  (List.range 4).foldl (fun (s : State) p =>
    let gone := (s.port p).queues.flatMap (fun q => q.2.filter far)
    (s.modPort p (fun x => { x with queues := (x.queues.map (fun q => (q.1, q.2.filter (fun d => !far d)))).filter (fun q => !q.2.isEmpty) })).freeBuf 3
      (gone.foldl (fun a d => a + d.buffers) 0)) s1

/-- CHAN_CLOSE (R33, R36): flow entries and local address go first; the peer of a BOUND channel becomes OPEN; the final
record frees the channel when nothing of it is under way. -/
def applyClose (c : HostCmd) (s : State) : Reply :=
  let ch := bits c.w1.toNat 0 16
  let old := s.chan ch
  match old.st with
  | .free => .refuse stBAD_STATE 0
  | .closing => .refuse stBUSY 0
  | _ =>
    let bound := decide (old.st = .bound)
    let s1 := ((s.removeFlows ((s.flowsOfChan ch).map flowKey)).latLeave old.flows.localAddr).cancelTasks ch 2 true
    let s2 := s1.modChan ch (fun x => { x with st := .closing, pub := { x.pub with closing := true, lastState := shownState old false, lastPeer := old.peer } })
    let s3 := if bound then s2.modChan old.peer (fun p => { p with st := .open, peer := 0 }) else s2
    .publish (s3.replan.dropFar ch) (if bound then [ch, old.peer] else [ch])

def chanClose (c : HostCmd) (s : State) : State := runCommand c 0x12 [(1, 0xFFFF)] false (applyClose c) s

def execChanClose (c : HostCmd) (s : State) : Out := .next (chanClose c s)

/-- A channel whose peer changes: what another peer's jobs produced is no reference any more (R156, R378). -/
def noReference (c : Chan) : Chan := { c with ctx := { c.ctx with slipAcc := 0, lastDiff := none }, echo := { c.echo with rin := {}, rinDiff := none } }

/-- CALL_BIND (R34, R189, R207). -/
def applyBind (c : HostCmd) (s : State) : Reply :=
  let a := bits c.w1.toNat 0 16
  let b := bits c.w1.toNat 16 16
  if a = b then .refuse stBAD_PARAM 10
  else if (s.chan a).st != .open || (s.chan b).st != .open then .refuse stBAD_STATE 0
  else if !callFits (s.chan a) (s.chan b) then .refuse stBAD_PARAM 10
  else
    let t := (s.modChan a (fun x => { noReference x with st := .bound, peer := b })).modChan b (fun x => { noReference x with st := .bound, peer := a })
    if overLoad s t then .fail (s.bump supLoadRefused) stNO_RESOURCE 0
    else .publish t.replan [a, b]

def callBind (c : HostCmd) (s : State) : State := runCommand c 0x13 [(1, 0xFFFFFFFF)] false (applyBind c) s

def execCallBind (c : HostCmd) (s : State) : Out := .next (callBind c s)

/-- CALL_UNBIND (R33). -/
def applyUnbind (c : HostCmd) (s : State) : Reply :=
  let ch := bits c.w1.toNat 0 16
  let old := s.chan ch
  if old.st != .bound then .refuse stBAD_STATE 0
  else
    let f := fun (x : Chan) => { noReference x with st := .open, peer := 0 }
    .publish ((s.modChan ch f).modChan old.peer f).replan [ch, old.peer]

def callUnbind (c : HostCmd) (s : State) : State := runCommand c 0x14 [(1, 0xFFFF)] false (applyUnbind c) s

def execCallUnbind (c : HostCmd) (s : State) : Out := .next (callUnbind c s)

/-! ### SRTP_KEY_SET -/

/-- Offsets, in words, of the key, salt and signature words of a block (R417). -/
def secretWords : Nat → Nat → List Nat → List Nat
  | 0, _, _ => []
  | _ + 1, _, [] => []
  | fuel + 1, off, h :: r =>
    let n := bits h 8 8
    let own := if bits h 0 8 = 12 then (List.range 6).map (off + 2 + ·)
      else if bits h 0 8 = 15 then (List.range 12).map (off + 1 + ·) else []
    own ++ secretWords fuel (off + 1 + n) (r.drop n)

/-- Bister overwrites the secret words of a block with zeros (R417). -/
def State.scrub (s : State) (c : HostCmd) : State :=
  match s.blockOf c with
  | none => s
  | some ws =>
    ((secretWords (ws.length + 1) 0 ws).filter (· < ws.length)).foldl
      (fun s i => s.hsWrite (bits c.w2.toNat 0 40 + 8 * i) (List.replicate 8 0)) s

/-- Receive keys (R104, R423): the first key is current at once, a later one is staged. -/
def rxKey (k : SrtpKey) (r : SrtpRx) : SrtpRx :=
  if k.suite = 0 then { r with current := none, pendingKey := none, previous := none, rekey := false }
  else match r.current with
  | none => { r with current := some k, keyGen := r.keyGen + 1, roc := 0, ssrc := none, switchIdx := 0, win := {}, rtcpWin := {} }
  | some _ => { r with pendingKey := some k, rekey := true }

/-- Transmit keys (R105, R423). -/
def txKey (k : SrtpKey) (atSeq : Option Nat) (t : SrtpTx) : SrtpTx :=
  if k.suite = 0 then { t with current := none, pendingKey := none, atSeq := none, rekey := false }
  else match t.current with
  | none => { t with current := some k, keyGen := t.keyGen + 1 }
  | some _ => { t with pendingKey := some k, atSeq := atSeq, rekey := true }

/-- One SRTP group takes effect. -/
def State.setKey (s : State) (ch : Nat) (g : Grp) : State :=
  let k := srtpKeyOf g
  if g.f 0 0 1 = 0 then
    (s.modChan ch (fun c => { keepSrtp c with srx := rxKey k c.srx })).markSrtp ch (k.suite != 0)
  else s.modChan ch (fun c => { keepSrtp c with stx := txKey k (if g.f 0 7 1 = 1 then some (g.f 0 8 16) else none) c.stx })

/-- SRTP_KEY_SET (R34, R101, R104, R105). -/
def applyKeySet (c : HostCmd) (s0 : State) : Reply :=
  let ch := bits c.w1.toNat 0 16
  let s := s0.scrub c
  match s0.groupsOf c [12] [12] with
  | .error d => .fail s stBAD_PARAM d
  | .ok gs =>
    let st := (s.chan ch).st
    let bad := gs.findSome? (fun g => firstFail [(decide (g.f 0 32 32 ≥ 2 ^ (8 * g.f 0 4 3)), stBAD_PARAM, g.detail 0 32)])
    let unsup := gs.any (fun g => decide (g.f 0 1 3 > 4) || g.f 0 24 8 != 0)
    match bad with
    | some (e, d) => .fail s e d
    | none =>
      if st != .open && st != .bound then .fail s stBAD_STATE 0
      else if unsup then .fail s stNOT_SUPPORTED 0
      else .publish (gs.foldl (fun s g => s.setKey ch g) s) [ch]

def srtpKeySet (c : HostCmd) (s : State) : State := runCommand c 0x20 [(1, 0xFFFF)] true (applyKeySet c) s

def execSrtpKeySet (c : HostCmd) (s : State) : Out := .next (srtpKeySet c s)

/-! ### Publications without a job -/

/-- No publication of an OPEN or BOUND channel has begun for 20 ms (R42). -/
def housekeepingPublication (ch : Nat) (s : State) : State :=
  let c := s.chan ch
  let due := match c.pub.lastEnd with
    | none => true
    | some t => decide (t + ms 20 ≤ s.now)
  if (c.st = .open || c.st = .bound) && due && !s.heldForUp ch then s.publish ch else s

def execHousekeepingPublication (ch : ChanId) (s : State) : Out := .next (housekeepingPublication ch.val s)

/-- A publication that was held back begins once its spacing, and what R36 waits for, have passed. -/
def execDeferredPublication (ch : ChanId) (s : State) : Out := .next (s.tryPublish ch.val)

/-- A host write to the state-window partition (R39): discarded, counted, and an event that names the address. -/
def stateWindowWrite (offset : Nat) (s : State) : State :=
  (s.bump mbxSwWriteDiscard).raise 0x0009 uMBX 0 0xFFFF 0 offset

def execStateWindowWrite (offset : Nat) (s : State) : Out := .next (stateWindowWrite offset s)

/-! ### CXL.cache requests and SNAPSHOT -/

/-- Requests to host memory: at most 256 are outstanding, the others wait (R395). -/
def State.cacheIssue (s : State) (rs : List CacheReq) : State :=
  let all := s.host.cacheWait ++ rs
  let room := 256 - s.host.cacheOut.length
  State.syncPools { s with host := { s.host with cacheOut := s.host.cacheOut ++ all.take room, cacheWait := all.drop room } }

/-- The write requests of a buffer, line by line (R395). -/
def lineWrites (serves q tag addr res2 res3 : Nat) : Nat → List Byte → List CacheReq
  | 0, _ => []
  | n + 1, l =>
    let k := 64 - addr % 64
    let rest := l.drop k
    { serves := serves, qid := q, tag := tag, addr := addr, write := true, last := rest.isEmpty, res2 := res2, res3 := res3, data := l.take k } ::
      (if rest.isEmpty then [] else lineWrites serves q tag (addr + k) res2 res3 n rest)

/-- The 512 bytes of the newest record of a channel. -/
def State.recordBytes (s : State) (ch : Nat) : List Byte := wordBytes ((s.newest ch).words.map (·.toNat))

/-- SNAPSHOT (R48, R49): the cut is now; the copies go to host memory, and the command completes after the last. -/
def applySnapshot (c : HostCmd) (s : State) : Reply :=
  let first := bits c.w1.toNat 0 16
  let count := bits c.w1.toNat 32 17
  if count = 0 || count > 65536 || first + count > 65536 then .refuse stBAD_PARAM 12
  else if c.w4.toNat < count * 512 then .refuse stBAD_PARAM 32
  else if c.w3.toNat % 64 != 0 then .refuse stBAD_PARAM 24
  else if (s.host.cacheOut ++ s.host.cacheWait).any (fun r => r.serves = 0) then .refuse stBUSY 0
  else
    let bytes := (List.range count).flatMap (fun i => s.recordBytes (first + i))
    .later (s.cacheIssue (lineWrites 0 c.qid.val c.tag.toNat c.w3.toNat (s.tbVal 0) count (8 * count) bytes))

def snapshot (c : HostCmd) (s : State) : State :=
  runCommand c 0x80 [(1, 0x1FFFF0000FFFF), (3, 0xFFFFFFFFFFFFFFFF), (4, 0xFFFFFFFFFFFFFFFF)] false (applySnapshot c) s

def execSnapshot (c : HostCmd) (s : State) : Out := .next (snapshot c s)

end Sys2Proof.Machine
end

