-- ==== Sys2Proof/Machine/Ingress.lean ====
section
/-! DEFINITION. The ingress core and SRTP (spec/04_ingress_flows_srtp.md): lookup, admission, authentication, replay
windows, rekeying, exceptions, the immediate path; and the egress core (R107-R110, R151, R152). -/

namespace Sys2Proof.Machine

/-! ### RTP (R533) -/

/-- Octets of an RTP header with CSRC list and extension. -/
def rtpHeader (p : List Byte) : Nat :=
  let csrc := 12 + 4 * (byteAt p 0 % 16)
  if bit (byteAt p 0) 4 then csrc + 4 + 4 * be16 p (csrc + 2) else csrc

/-- Octets of padding at the end. -/
def rtpPad (p : List Byte) : Nat := if bit (byteAt p 0) 5 then byteAt p (p.length - 1) else 0

/-- A UDP payload is a valid RTP packet (R533). -/
def rtpValid (p : List Byte) : Bool :=
  let csrc := 12 + 4 * (byteAt p 0 % 16)
  decide (12 ≤ p.length) && byteAt p 0 / 64 = 2 && decide (csrc ≤ p.length) &&
    (!bit (byteAt p 0) 4 || decide (csrc + 4 ≤ p.length)) && decide (rtpHeader p + rtpPad p ≤ p.length)

def rtpPt (p : List Byte) : Nat := byteAt p 1 % 128
def rtpMarker (p : List Byte) : Bool := bit (byteAt p 1) 7
def rtpSeq (p : List Byte) : Nat := be16 p 2
def rtpTsOf (p : List Byte) : Nat := be32 p 4
def rtpSsrc (p : List Byte) : Nat := be32 p 8

/-- The payload proper. -/
def rtpPayload (p : List Byte) : List Byte := (p.take (p.length - rtpPad p)).drop (rtpHeader p)

/-! ### Replay windows (R102) -/

/-- The index may be accepted. -/
def winOk (w : ReplayWin) (i : Nat) : Bool :=
  !w.used || decide (w.top < i) || (decide (w.top - i < 128) && !w.bits.getLsbD (w.top - i))

/-- The window after an accepted index. -/
def winMark (w : ReplayWin) (i : Nat) : ReplayWin :=
  if !w.used then { top := i, bits := 1, used := true }
  else if w.top < i then { w with top := i, bits := (w.bits <<< (i - w.top)) ||| 1 }
  else { w with bits := w.bits ||| ((1 : BitVec 128) <<< (w.top - i)) }

/-- The index of a sequence number under the estimate of RFC 3711 Appendix A. -/
def srtpIndex (roc top seq : Nat) : Nat :=
  let sl := top % 65536
  let v := if sl < 32768 then (if seq > sl + 32768 then (roc + (2 ^ 32 - 1)) % 2 ^ 32 else roc) else (if seq + 32768 < sl then (roc + 1) % 2 ^ 32 else roc)
  v * 65536 + seq

/-! ### Authentication (R102-R104) -/

/-- Which held key: 0 current, 1 pending, 2 previous. -/
def heldKey (r : SrtpRx) : Nat → Option SrtpKey
  | 0 => r.current
  | 1 => r.pendingKey
  | _ => r.previous

/-- The MKI field of a packet at a key's MKI length (R104): before the tag of suites 1 and 2, last in the packets of RFC 7714. -/
def mkiOf (k : SrtpKey) (rtcp : Bool) (p : List Byte) : Option Nat :=
  let tail := if k.suite ≥ 3 then 0 else if rtcp || k.suite = 1 then 10 else 4
  let at0 := p.length - tail - k.mkiLen
  if p.length < tail + k.mkiLen + 12 then none
  else some (beNat (slice p at0 k.mkiLen))

/-- The keys a packet is checked under, in order (R104): without an MKI, one below the switch index under the previous key only, held or
not. `idx`: its SRTP index. SRTCP packets have no place against the switch index and meet the previous key last; to a packet of another
SSRC (`fresh`), the switch index applies while the previous key is held: DEDUCED (log 17). -/
def keysFor (r : SrtpRx) (rtcp fresh : Bool) (idx : Nat) (p : List Byte) : List Nat :=
  let withMki := r.current.any (fun k => decide (0 < k.mkiLen))
  if withMki then
    [0, 1, 2].filter (fun i => (heldKey r i).any (fun k => mkiOf k rtcp p = some (k.mki % 2 ^ (8 * k.mkiLen))))
  else if rtcp then [0, 1, 2].filter (fun i => (heldKey r i).isSome)
  else if decide (idx < r.switchIdx) && (r.previous.isSome || !fresh) then [2]
  else [0, 1].filter (fun i => (heldKey r i).isSome)

/-- The first of those keys under which it passes. -/
def passesUnder (r : SrtpRx) (rtcp fresh : Bool) (roc idx : Nat) (p : List Byte) : Option (Nat × SrtpKey) :=
  (keysFor r rtcp fresh idx p).findSome? (fun i => match heldKey r i with
    | none => none
    | some k => if Config.srtpPasses k.suite k.key.toNat k.salt.toNat k.mkiLen rtcp roc p then some (i, k) else none)

/-- The pending key becomes current (R104). -/
def switchKey (r : SrtpRx) (idx now : Nat) : SrtpRx :=
  { r with current := r.pendingKey, pendingKey := none, previous := r.current, keyGen := r.keyGen + 1, rekey := false,
           switchIdx := idx, discardAt := now + sec 2 }

/-- What SRTP makes of a packet: dropped (replay or not), or the plain packet and whether a new stream starts. -/
inductive SrtpVerdict where
  | fail
  | replay
  | pass (r : SrtpRx) (plain : List Byte) (restart : Bool)

/-- The previous key is gone 2 s after the switch (R104). -/
def ageKeys (r : SrtpRx) (now : Nat) : SrtpRx :=
  if r.previous.isSome && decide (r.discardAt ≤ now) then { r with previous := none } else r

/-- An SRTP packet (R102-R104). One of another SSRC than the stream's may start a new stream: then the window restarts at its index, and
no index of it lies before the switch. -/
def srtpReceive (r0 : SrtpRx) (now : Nat) (p : List Byte) : SrtpVerdict :=
  let r := ageKeys r0 now
  let other := r.ssrc.any (fun x => x.toNat != rtpSsrc p)
  let fresh := !r.win.used || other
  let idx := if fresh then rtpSeq p else srtpIndex r.roc r.win.top (rtpSeq p)
  match passesUnder r false other (idx / 65536) idx p with
  | none => .fail
  | some (i, k) =>
    if !fresh && !winOk r.win idx then .replay
    else
      let r1 := if i = 1 then switchKey r idx now else if other then { r with switchIdx := 0 } else r
      let win := if fresh then winMark {} idx else winMark r.win idx
      .pass { r1 with ssrc := some (BitVec.ofNat 32 (rtpSsrc p)), win := win, roc := win.top / 65536 }
        (Config.srtpOpen k.suite k.key.toNat k.salt.toNat k.mkiLen false (idx / 65536) p) (fresh && r.win.used)

/-- The SRTCP index of a packet. -/
def srtcpIndex (k : SrtpKey) (p : List Byte) : Nat :=
  let tail := k.mkiLen + (if k.suite ≥ 3 then 0 else 10)
  (if k.suite ≥ 3 then be32 p (p.length - k.mkiLen - 4) else be32 p (p.length - tail - 4)) % 2 ^ 31

/-- An SRTCP packet (R101, R102). -/
def srtcpReceive (r0 : SrtpRx) (now : Nat) (p : List Byte) : SrtpVerdict :=
  let r := ageKeys r0 now
  match passesUnder r true false 0 0 p with
  | none => .fail
  | some (i, k) =>
    let idx := srtcpIndex k p
    if !winOk r.rtcpWin idx then .replay
    else
      let r1 := if i = 1 then switchKey r (r.win.top + 1) now else r
      .pass { r1 with rtcpWin := winMark r.rtcpWin idx } (Config.srtpOpen k.suite k.key.toNat k.salt.toNat k.mkiLen true idx p) false

/-! ### Lookup -/

/-- The classes of frames without a flow (R98): 0 NOADDR, 1 NOFLOW, 2 NONUDP, 3 ARP and Neighbor Discovery. -/
inductive Class where
  | exc (cls : Nat)
  | flow (e : FlowEntry) (payload : List Byte)
  deriving DecidableEq, Repr

/-- Neighbor Discovery messages: ICMPv6 types 133 to 137. -/
def isNd (l : List Byte) (h : L3) : Bool := h.v6 && h.proto = 58 && decide (133 ≤ byteAt l h.l4) && decide (byteAt l h.l4 ≤ 137)

/-- The key of a frame under a KEY_TYPE (R91). -/
def frameKey (l : List Byte) (h : L3) (lat port vid kt : Nat) : Nat :=
  flowKey { remoteAddr := h.src, remotePort := be16 l h.l4, localPort := be16 l (h.l4 + 2), latIndex := lat, ethPort := port, vid := vid, keyType := kt, ch := 0, kind := 0, immediate := false, rtcpMux := false, srtp := false, eventEn := false, eventPt := 0, quota := 0 }

/-- Classify a frame (R91, R98): connected key first, then local-only. -/
def State.classify (s : State) (p : Nat) (m : RxMeta) (bad : List Nat) : Class :=
  let l := m.data
  if be16 l 12 = 0x0806 then .exc 3 else
  match parseL3 l with
  | none => .exc 2
  | some h =>
    if isNd l h then .exc 3 else
    match s.latIndex h.dst with
    | none => .exc 0
    | some lat =>
      if h.proto != 17 then .exc 2 else
      let vid := if m.tagged then m.vid else 0
      let key := fun kt => frameKey l h lat p vid kt
      let pay := (udpOf l h).drop 8
      match s.flowFind (key 0) bad with
      | some e => .flow e pay
      | none =>
        match s.flowFind (key 1) bad with
        | some e => .flow e pay
        | none => .exc 1

/-- A PTP frame of the domain and transport of a time base that follows PTP on the port: Bister takes it ahead of the exception classes
(R370). EtherType, UDP ports and the octet of the domain are IEEE 1588's: PRESUMED (log 113). -/
def State.takesPtp (s : State) (p : Nat) (l : List Byte) : Bool :=
  let udp := fun (v6 : Bool) => match parseL3 l with
    | some h => if h.v6 = v6 && h.proto = 17 && (be16 l (h.l4 + 2) = 319 || be16 l (h.l4 + 2) = 320) then some (byteAt l (h.l4 + 12)) else none
    | none => none
  let domain := fun (t : Nat) => match t with
    | 0 => if be16 l 12 = 0x88F7 then some (byteAt l 18) else none
    | 1 => udp false
    | _ => udp true
  (List.range 4).any (fun n => s.rd timTbSrc n = 1 && s.rd timTbPort n = p && domain (s.rd timTbTransport n) = some (s.rd timTbDomain n))

/-- ACTION and QUEUE of a class. -/
def State.excAction (s : State) (cls : Nat) : Nat :=
  match cls with
  | 0 => s.rd flwExcAction0
  | 1 => s.rd flwExcAction1
  | 2 => s.rd flwExcAction2
  | _ => s.rd flwExcAction3

/-- A frame without a flow is counted, and dropped or steered (R98). -/
def State.excSteer (s : State) (cls p : Nat) (m : RxMeta) : State :=
  let s1 := match cls with
    | 0 => s.bump flwNoaddr
    | 1 => s.bump flwNoflow
    | 2 => s.bump flwNonudp
    | _ => s
  if s1.excAction cls = 1 then s1.exception (s1.rd flwExcQueue cls) cls 0 p m else s1

/-- Buffers of a channel on ingress. -/
def State.chanTake (s : State) (c ch n : Nat) : State :=
  (s.takeBuf c n).modChan ch (fun x => { x with ingressHeld := x.ingressHeld + n })
def State.chanFree (s : State) (c ch n : Nat) : State :=
  (s.freeBuf c n).modChan ch (fun x => { x with ingressHeld := x.ingressHeld - n })

/-- A packet on the immediate path is an immediate task for Mordant (R92, R100, R533); a valid RTP packet is counted. -/
def State.toImmediate (s : State) (e : FlowEntry) (kind n : Nat) (p : List Byte) : State :=
  let s1 := if kind = 0 then s.modChan e.ch (fun c => { c with rxSsrc := BitVec.ofNat 32 (rtpSsrc p), ctr := { c.ctr with rxPackets := c.ctr.rxPackets + 1, rxOctets := c.ctr.rxOctets + (rtpPayload p).length } }) else s
  let t : ImmTask := { ch := e.ch, flowKind := kind, pt := if kind = 0 then rtpPt p else 0, marker := kind = 0 && rtpMarker p, ts := if kind = 0 then rtpTsOf p else 0, payload := if kind = 0 then rtpPayload p else p, buffers := n }
  { s1 with ing := { s1.ing with immIn := s1.ing.immIn ++ [t] } }

/-- A media packet goes to Steep (R92). -/
def State.toSteep (s : State) (e : FlowEntry) (m : RxMeta) (n : Nat) (udp p : List Byte) (restart : Bool) : State :=
  let k : MediaPkt := { ch := e.ch, seq := rtpSeq p, ts := rtpTsOf p, ssrc := rtpSsrc p, marker := rtpMarker p, pt := rtpPt p, payload := rtpPayload p, udp := udp, arrival := m.arrivals.getD (s.chan e.ch).tb 0, buffers := n, restart := restart }
  { s with ing := { s.ing with steepIn := s.ing.steepIn ++ [k] } }

/-- Steep is told that a stream has restarted by a packet that does not come to it (R103). -/
def State.tellRestart (s : State) (ch arrival : Nat) (p : List Byte) : State :=
  let k : MediaPkt := { ch := ch, seq := rtpSeq p, ts := rtpTsOf p, ssrc := rtpSsrc p, marker := false, pt := rtpPt p, payload := [], udp := [],
                        arrival := arrival, buffers := 0, restart := true, notice := true }
  { s with ing := { s.ing with steepIn := s.ing.steepIn ++ [k] } }

/-- A repair packet goes to Weld's block store (R92, R144). -/
def State.toWeld (s : State) (e : FlowEntry) (n : Nat) (udp : List Byte) : State :=
  { s with ing := { s.ing with weldIn := s.ing.weldIn ++ [{ ch := e.ch, payload := udp, buffers := n }] } }

/-- A packet whose buffers have been taken goes on as its kind directs (R92). -/
def State.forward (s : State) (e : FlowEntry) (m : RxMeta) (kind n : Nat) (imm : Bool) (udp p : List Byte) (restart : Bool) : State :=
  if imm then
    let s1 := if restart then s.tellRestart e.ch (m.arrivals.getD (s.chan e.ch).tb 0) p else s
    s1.toImmediate e kind n p
  else if kind = 2 then s.toWeld e n udp
  else s.toSteep e m n udp p restart

/-- A protected packet: authenticate, check replay, go on or drop and count (R102). -/
def State.srtpCheck (s : State) (e : FlowEntry) (m : RxMeta) (kind n : Nat) (imm : Bool) (udp p : List Byte) : State :=
  let c := s.chan e.ch
  let cls := if imm then 1 else 0
  let failed := fun (d : RegDesc) => ((s.chanFree cls e.ch n).bump d).modChan e.ch (fun c => { c with ctr := { c.ctr with srtpFailures := c.ctr.srtpFailures + 1 } })
  let v := if kind = 1 then srtcpReceive c.srx s.now p else srtpReceive c.srx s.now p
  match v with
  | .fail => failed flwSrtpAuthFail
  | .replay => failed flwSrtpReplay
  | .pass r plain restart => (s.setChan e.ch { c with srx := r }).forward e m kind n imm udp plain restart

/-- The receive FECFRAME settings that a block takes: those in force where it is open, else those that wait for a new SBN (R153). -/
def fecFor (w : Weld) (sbn : Nat) : FecSet :=
  match w.blocks.find? (fun b => b.sbn = sbn) with
  | some b => b.par
  | none => w.rxNext.getD w.rxFf

/-- A source packet as its channel's settings read it: SBN, ESI, settings of its block, and the packet less its appended payload ID
(R145). -/
def sourceRead (w : Weld) (udp : List Byte) : Option (Nat × Nat × FecSet × List Byte) :=
  if w.blocks.isEmpty && (w.rxNext.getD w.rxFf).rxFec < 2 then none
  else match Config.fecSourceParse udp with
  | none => none
  | some (sbn, esi, pkt) =>
    let f := fecFor w (sbn % 65536)
    if f.rxFec < 2 then none else some (sbn % 65536, esi, f, pkt)

/-- A source packet less its appended payload ID (R145). -/
def sourceOf (w : Weld) (udp : List Byte) : List Byte := ((sourceRead w udp).map (fun x => x.2.2.2)).getD udp

/-- A frame that has a flow (R92, R102, R110, R111, R533): admission and quota come first, then RTP, then SRTP. -/
def State.deliver (s : State) (e : FlowEntry) (m : RxMeta) (udp : List Byte) : State :=
  let kind := if e.rtcpMux && decide (192 ≤ byteAt udp 1) && decide (byteAt udp 1 ≤ 223) then 1 else e.kind
  let p := if kind = 0 then sourceOf (s.chan e.ch).weld udp else udp
  let imm := e.immediate || (e.rtcpMux && kind = 1) || (kind = 0 && e.eventEn && rtpPt p = e.eventPt)
  let cls := if imm then 1 else 0
  let n := buffersOf m.data.length
  if !s.admits cls n then s.bump flwNobuf cls
  else if (s.chan e.ch).ingressHeld + n > e.quota then s.bump flwQuotaDrop
  else if kind = 0 && !rtpValid p then
    (s.bump flwRtpInvalid).modChan e.ch (fun c => { c with stats := { c.stats with rtpInvalid := c.stats.rtpInvalid + 1 } })
  else
    let s1 := s.chanTake cls e.ch n
    if e.srtp && decide (kind ≤ 1) then s1.srtpCheck e m kind n imm udp p else s1.forward e m kind n imm udp p false

/-- Candidate slots of a frame that showed an uncorrectable error. -/
def State.badSlots (s : State) (p : Nat) (m : RxMeta) (bad : List Nat) : Bool :=
  match parseL3 m.data with
  | none => false
  | some h => (s.latIndex h.dst).any (fun lat =>
      let vid := if m.tagged then m.vid else 0
      (s.candidates (frameKey m.data h lat p vid 0) ++ s.candidates (frameKey m.data h lat p vid 1)).any (fun i => bad.contains i))

/-- The ingress core takes the oldest frame of a port and gives it an owner (R91-R106). `bad`: slots that show an
uncorrectable error. -/
def flowLookup (p : Nat) (bad : List Nat) (s : State) : State :=
  match (s.port p).rxQ with
  | [] => s
  | m :: rest =>
    let s1 := (s.modPort p (fun x => { x with rxQ := rest })).bump flwClassified
    let errs := bad ++ s1.ing.eccSlots
    let s2 := { s1 with ing := { s1.ing with eccSlots := errs.eraseDups } }
    let s3 := match m.mark with
      | none => s2
      | some f => s2.exception (s2.rd flwMarkQ) 5 f p m
    match s3.classify p m errs with
    | .flow e pay => s3.deliver e m pay
    | .exc cls => if s3.takesPtp p m.data then s3 else (if cls = 1 && s3.badSlots p m errs then s3.bump flwEccMiss else s3).excSteer cls p m

def execFlowLookup (p : PortId) (eccBad : List Nat) (s : State) : Out := .next (s.whileOn [29] (flowLookup p.val eccBad))

/-- The previous key is discarded 2 s after the switch (R104). -/
def previousKeyDiscard (ch : Nat) (s : State) : State :=
  let c := s.chan ch
  if c.srx.previous.isSome && c.srx.discardAt ≤ s.now then s.setChan ch { c with srx := { c.srx with previous := none } } else s

def execPreviousKeyDiscard (ch : ChanId) (s : State) : Out := .next (s.whileOn [29] (previousKeyDiscard ch.val))

/-- A 1 ms window of TB0 begins for the exception rates (R99). -/
def execExcRateWindow (s : State) : Out := .next (s.whileOn [29] State.excNow)

/-- Bister's answer to an ARP request or Neighbor Solicitation (R88): a reply of the ARP or ND form, with the receiving
port's MAC address as the target's. -/
def arpReply (mac : Nat) (target : BitVec 128) (solicitation : Bool) (f : List Byte) : List Byte :=
  let macB := leBytes 6 mac
  if solicitation then
    let own := leBytes 16 target.toNat
    let icmp0 := [0x88, 0, 0, 0, 0x60, 0, 0, 0] ++ own ++ [2, 1] ++ macB
    let pseudo := own ++ slice f 22 16 ++ beBytes 4 icmp0.length ++ [0, 0, 0, 58]
    let icmp := patch icmp0 2 (beBytes 2 (65535 - inetSum (pseudo ++ icmp0)))
    slice f 6 6 ++ macB ++ [0x86, 0xDD, 0x60, 0, 0, 0] ++ beBytes 2 icmp.length ++ [58, 255] ++ own ++ slice f 22 16 ++ icmp
  else
    slice f 6 6 ++ macB ++ [0x08, 0x06, 0, 1, 0x08, 0, 6, 4, 0, 2] ++ macB ++ slice f 38 4 ++ slice f 22 10

/-- An ARP request or Neighbor Solicitation for an active address is answered (R88). -/
def arpRequest (p : Nat) (target : BitVec 128) (solicitation : Bool) (f : List Byte) (s : State) : State :=
  match s.latIndex target with
  | none => s
  | some _ => transmitDescriptor p { queue := 0, data := arpReply (s.rd ethMacAddr p) target solicitation f, owner := .bister } s

def execArpRequest (p : PortId) (target : BitVec 128) (solicitation : Bool) (frame : List Byte) (s : State) : Out :=
  .next (arpRequest p.val target solicitation frame s)

/-- Bister rewrites a slot from its shadow copy (R94). -/
def flowSlotRewrite (slot : Nat) (s : State) : State :=
  { s with ing := { s.ing with eccSlots := s.ing.eccSlots.filter (· != slot) } }

def execFlowSlotRewrite (slot : Nat) (s : State) : Out := .next (s.whileOn [29] (flowSlotRewrite slot))

/-! ### Egress -/

/-- RTP units of a number of ns at a codec's clock. -/
def rtpUnits (codec ns : Nat) : Nat := ns * clockRate codec / 1000000000

/-- The transmit key for a packet with this sequence number (R105): a pending key takes over at its switch number. -/
def txKeyFor (t : SrtpTx) (seq : Nat) : SrtpTx :=
  match t.pendingKey with
  | none => t
  | some k =>
    let due := match t.atSeq with
      | none => true
      | some n => decide ((seq + 65536 - n) % 65536 < 32768)
    if due then { t with current := some k, pendingKey := none, atSeq := none, rekey := false, keyGen := t.keyGen + 1 } else t

/-- The headers of a template with the fields the egress core fills in (R108), and the payload. -/
def fillIp (t : Template) (ident : Nat) (payload : List Byte) : List Byte :=
  let udpLen := t.length - t.udpOff + payload.length
  let b := t.bytes
  let b1 := if byteAt b t.ipOff / 16 = 4 then
      patch (patch b (t.ipOff + 2) (beBytes 2 (t.udpOff - t.ipOff + udpLen))) (t.ipOff + 4) (beBytes 2 ident)
    else patch b (t.ipOff + 4) (beBytes 2 (t.udpOff - t.ipOff - 40 + udpLen))
  patch b1 (t.udpOff + 4) (beBytes 2 udpLen) ++ payload

/-- The redundant blocks of the next packet (R151): the previous frames of the talkspurt that fit, oldest first. -/
def redBlocks (c : Chan) (ts : Nat) : List (Nat × Nat × List Byte) :=
  let g := if c.fec.txFec = 1 || c.fec.txFec = 3 then c.fec.redGens else 0
  (c.weld.lastFrames.drop (c.weld.lastFrames.length - g)).filter (fun f => decide ((ts + 2 ^ 32 - f.1) % 2 ^ 32 ≤ 16383) && decide (f.2.2.length ≤ 1023))

/-- An RFC 2198 payload. -/
def redPayload (blocks : List (Nat × Nat × List Byte)) (ts pt : Nat) (primary : List Byte) : List Byte :=
  blocks.flatMap (fun f => beBytes 4 ((128 + f.2.1) * 2 ^ 24 + ((ts + 2 ^ 32 - f.1) % 2 ^ 32) * 1024 + f.2.2.length)) ++
    [BitVec.ofNat 8 pt] ++ blocks.flatMap (fun f => f.2.2) ++ primary

/-- RED is sent on a channel (R151). -/
def redSent (c : Chan) : Bool := (c.fec.txFec = 1 || c.fec.txFec = 3) && c.fec.redGens != 0

/-- The Repair FEC Payload ID at the head of a repair packet: SBN, ESI, k and n in 16 bits each. PRESUMED (log 103): the format of
RFC 6816. -/
def fecRepairId (sbn esi k n : Nat) : List Byte := beBytes 2 sbn ++ beBytes 2 esi ++ beBytes 2 k ++ beBytes 2 n

/-- A repair packet as its bytes give it (R144, R146). -/
def repairParse (p : List Byte) : Option RepairPacket :=
  if p.length ≤ 8 then none
  else some { sbn := BitVec.ofNat 16 (be16 p 0), esi := be16 p 2, k := be16 p 4, n := be16 p 6, symbol := p.drop 8 }

/-- The ADUI of a UDP payload (R145), or none where it exceeds E. -/
def aduiOf (e : Nat) (p : List Byte) : Option (List Byte) :=
  if p.length + 3 > e then none else some ([0] ++ beBytes 2 p.length ++ p ++ List.replicate (e - p.length - 3) 0)

def xorBytes (a b : List Byte) : List Byte := (a.zip b).map (fun e => e.1 ^^^ e.2)

/-- The repair symbols of a block, in ESI order: each is the sum of the other symbols of its equation (R152). -/
def repairSymbols (f : FecSet) (src : List (List Byte)) (r : Nat) : List (List Byte) :=
  let k := src.length
  (List.range r).foldl (fun (done : List (List Byte)) i =>
    let all := src ++ done
    let eq := (Config.fecEquation k r f.ffN1 f.seed i).filter (· != k + i)
    done ++ [eq.foldl (fun a j => xorBytes a (all.getD j (List.replicate f.ffE 0))) (List.replicate f.ffE 0)]) []

/-- Post a packet of a channel: EGR buffers are taken, checksums left to the port (R108, R110). -/
def State.postPacket (s : State) (ch : Nat) (t : Template) (img : List Byte) (launch : Option (TbId × Word64)) (rtp : Option Nat) : State :=
  let n := buffersOf img.length
  (s.takeBuf 3 n).txPost t.egress { queue := Fin.ofNat 8 (Config.mediaQueue ch), data := img, owner := .egress (Fin.ofNat 65536 ch), launch := launch, ipCsum := true, udpCsum := true, ipOff := t.ipOff, udpOff := t.udpOff, buffers := n, rtpOctets := rtp }

/-- The open transmit block of a channel closes (R152): its repair packets follow with the launch time of its last source packet, SBN
rises, and new settings and repair template take effect (R153). A sent packet whose ADUI exceeds E stands as zeros: DESIGN CHOICE
(log 103). -/
def State.closeTxBlock (s : State) (ch : Nat) : State :=
  let c := s.chan ch
  let src := c.weld.txBlock
  if src.isEmpty then s else
  let f := c.weld.txFf
  let r := (f.ffR * src.length + f.ffK - 1) / f.ffK
  let sbn := c.weld.txSbn.toNat
  let syms := repairSymbols f (src.map (fun x => (aduiOf f.ffE x).getD (List.replicate f.ffE 0))) r
  let s1 := s.setChan ch { c with weld := { c.weld with
    txBlock := [], txSbn := c.weld.txSbn + 1, txFf := c.weld.txNext.getD f, txNext := none
    txRepair := if c.weld.txNext.isSome then c.repair else c.weld.txRepair } }
  match c.weld.txRepair with
  | none => s1
  | some t =>
    (syms.zipIdx).foldl (fun s e =>
      let id := fecRepairId sbn (src.length + e.2) src.length (src.length + r)
      let c := s.chan ch
      let s2 := (s.setChan ch { c with egr := { c.egr with ipId := c.egr.ipId + 1 } }).bump wldRepairSent
      s2.postPacket ch t (fillIp t c.egr.ipId.toNat (id ++ e.1)) c.weld.txLaunch none) s1

/-- Build one RTP packet of a channel and post it (R105, R107, R108, R151, R152). -/
def State.sendRtp (s : State) (ch pt ts : Nat) (mark : Bool) (payload : List Byte) (launch : Option (TbId × Word64)) : State :=
  let c := s.chan ch
  let t := c.tmpl
  let seq := c.egr.nextSeq.toNat
  let hdr := patch (patch (patch (t.bytes.drop t.rtpOff) 1 [BitVec.ofNat 8 (b2n mark * 128 + pt)]) 2 (beBytes 2 seq)) 4 (beBytes 4 ts)
  let rtp := hdr ++ payload
  let tx := txKeyFor c.stx seq
  let prot := match tx.current with
    | none => rtp
    | some k => Config.srtpProtect k.suite k.key.toNat k.salt.toNat k.mkiLen k.mki (tx.roc * 65536 + seq) rtp
  let ff := c.weld.txFf.txFec ≥ 2
  let esi := c.weld.txBlock.length
  let udp := if ff then prot ++ Config.fecSourceId c.weld.txSbn.toNat esi else prot
  let weld := if ff then { c.weld with txBlock := c.weld.txBlock ++ [prot], txFirstAt := if esi = 0 then s.now else c.weld.txFirstAt, txLaunch := launch } else c.weld
  let s1 := if ff && (aduiOf c.weld.txFf.ffE prot).isNone then s.bump wldFfOversize else s
  let s2 := s1.setChan ch { c with stx := { tx with roc := if seq = 65535 then tx.roc + 1 else tx.roc }, weld := weld, egr := { c.egr with nextSeq := c.egr.nextSeq + 1, ipId := c.egr.ipId + 1 } }
  let s3 := s2.postPacket ch t (fillIp { t with length := t.rtpOff, bytes := t.bytes.take t.rtpOff } c.egr.ipId.toNat udp) launch (some payload.length)
  if ff && esi + 1 ≥ c.weld.txFf.ffK then s3.closeTxBlock ch else s3

/-- Forget the last frames of a talkspurt that is over. -/
def clearTalkspurt (c : Chan) : Chan := { c with weld := { c.weld with lastFrames := [] }, egr := { c.egr with markNext := true } }

/-- The launch time of a packet, on the time base of the job that produced it (R378): the time its job gave it, and no
time before the packet was built. DESIGN CHOICE: log entry 4. -/
def State.launchOf (s : State) (f : OutFrame) : Option (TbId × Word64) :=
  some (Fin.ofNat 4 f.tb, BitVec.ofNat 64 (max (f.launch.getD 0) (s.tbVal f.tb)))

/-- The timestamp of a channel's next packet of a codec (R200): the last one plus the time since, at the new clock. -/
def nextTs (c : Chan) (codec : Nat) : Nat := (c.egr.rtpTs.toNat + rtpUnits codec c.egr.elapsed) % 2 ^ 32

/-- What egress makes of the next released frame of a channel (R108, R151, R152, R189, R192). A frame that is not sent
only moves the timestamp on; after it, and after a SID, the next packet starts a talkspurt. -/
def State.egressNext (s : State) (ch : Nat) : State :=
  let c := s.chan ch
  match c.egr.outQ with
  | [] => s
  | f :: rest =>
    let launchOf := s.launchOf
    if f.raw then
      (s.setChan ch { c with egr := { c.egr with outQ := rest, ipId := c.egr.ipId + 1 } }).postPacket ch c.tmpl
        (fillIp { c.tmpl with length := c.tmpl.rtpOff, bytes := c.tmpl.bytes.take c.tmpl.rtpOff } c.egr.ipId.toNat f.payload) (launchOf f) none
    else match f.eventTs with
    | some ts =>
      (s.setChan ch { c with egr := { c.egr with outQ := rest } }).sendRtp ch f.pt ts f.mark f.payload (launchOf f)
    | none =>
      if !f.sent then
        s.setChan ch (clearTalkspurt { c with egr := { c.egr with outQ := rest, elapsed := c.egr.elapsed + f.span } })
      else match nextPacket (f :: rest) with
      | none => s
      | some (fs, left) =>
        let ts := nextTs c f.codec
        let primary := fs.flatMap (·.payload)
        let span := fs.foldl (fun a x => a + x.span) 0
        let egr := { c.egr with outQ := left, rtpTs := BitVec.ofNat 32 ts, elapsed := span }
        if f.sid then (s.setChan ch (clearTalkspurt { c with egr := egr })).sendRtp ch f.pt ts false primary (launchOf f) else
        let blocks := redBlocks c ts
        let pay := if redSent c then redPayload blocks ts f.pt primary else primary
        let pt := if redSent c then c.fec.redPt else f.pt
        let kept := c.weld.lastFrames ++ [(ts, f.pt, primary)]
        let c1 := { c with weld := { c.weld with lastFrames := kept.drop (kept.length - 3) }, egr := { egr with markNext := false } }
        (s.setChan ch c1).sendRtp ch pt ts c.egr.markNext pay (launchOf f)

/-- Packets whose EGR buffers are refused wait, and nothing has happened (R110). -/
def waitEgr (s t : State) : State := if s.admits 3 (t.heldOf 3 - s.heldOf 3) then t else s

def egressPacketBuild (ch : Nat) (s : State) : State := waitEgr s (s.egressNext ch)

def execEgressPacketBuild (ch : ChanId) (s : State) : Out := .next (s.whileOn [29] (egressPacketBuild ch.val))

/-! ### The packet-buffer book (R113) -/

/-- A write of FLW_BOOK_SNAP.REQ. -/
def execFlwBookSnap (s : State) : Out := .next (s.requestSnap flwSnapReq 0)

end Sys2Proof.Machine
end

