-- ==== Sys2Proof/Machine/WeldStore.lean ====
section
/-! DEFINITION. Weld's block stores (R145-R148): where symbols go, when a block closes, when a decode job is queued, and
what a decode job solves. -/

namespace Sys2Proof.Machine

def State.modWeld (s : State) (ch : Nat) (f : Weld → Weld) : State := s.modChan ch (fun c => { c with weld := f c.weld })

/-- Source symbols a block still lacks, by ESI. -/
def lacking (b : FecBlock) : List Nat := (List.range b.k).filter (fun i => !b.symbols.any (fun e => e.1 = i))

/-- A block closes (R146): Weld gives up what is missing, and the block's outcome is counted. -/
def State.closeBlock (s : State) (ch : Nat) (b : FecBlock) : State :=
  let lack := (lacking b).length
  s.modChan ch (fun c =>
    let t := c.stats
    let t1 := if lack = 0 && b.solved.isEmpty then { t with blkDirect := t.blkDirect + 1 }
      else if lack = 0 then { t with blkFull := t.blkFull + 1 }
      else if !b.solved.isEmpty then { t with blkPart := t.blkPart + 1 }
      else { t with blkNone := t.blkNone + 1 }
    { c with stats := t1, weld := { c.weld with blocks := c.weld.blocks.filter (fun x => x.sbn != b.sbn) } })

/-- SBN a precedes b in 16-bit serial order. -/
def sbnBefore (a b : Nat) : Bool := let d := (b + 65536 - a) % 65536; d != 0 && decide (d < 32768)

/-- Open the block of an SBN if it is not open (R146, R153): two stay open; the older closes; receive parameters that wait
take effect here, for this block and later ones. `none`: the SBN is older than both. -/
def State.openBlock (s : State) (ch sbn : Nat) : Option State :=
  let w := (s.chan ch).weld
  if w.blocks.any (fun b => b.sbn = sbn) then some s
  else if w.blocks.length ≥ 2 && w.blocks.all (fun b => sbnBefore sbn b.sbn) then none
  else
    let s1 := match w.blocks with
      | [a, b] => s.closeBlock ch (if sbnBefore a.sbn b.sbn then a else b)
      | _ => s
    some (s1.modWeld ch (fun w =>
      let f := w.rxNext.getD w.rxFf
      { w with rxFf := f, rxNext := none, blocks := { sbn := sbn, par := f, k := f.ffK } :: w.blocks }))

/-- The tick of a sequence number is still ahead: it is not below PLAY_SEQ, or its offer to Weld has not been answered (R140). -/
def tickAhead (c : Chan) (seq : Nat) : Bool := decide (c.steep.playSeq ≤ seq) || c.steep.offered.any (fun o => o.1 = seq)

/-- A missing source symbol's tick is still ahead (R147), or its sequence number is not known. -/
def stillAhead (c : Chan) (b : FecBlock) (esi : Nat) : Bool := b.firstSeq.all (fun q => tickAhead c (q + esi))

/-- Queue a decode job for a block if it is due one (R147); where a job of the block runs, that is one further job. -/
def State.queueDecode (s : State) (ch sbn : Nat) : State :=
  let c := s.chan ch
  match c.weld.blocks.find? (fun b => b.sbn = sbn) with
  | none => s
  | some b =>
    let due := (lacking b).any (stillAhead c b)
    let waits := s.weldU.queue.any (fun j => j.ch = ch && j.sbn = sbn)
    if !due || waits then s
    else if s.weldU.queue.length ≥ 4096 then s.bump wldDecodeDrop
    else State.highWater { s with weldU := { s.weldU with queue := s.weldU.queue ++ [{ ch := ch, sbn := sbn }] } } wldDecqHwm (s.weldU.queue.length + 1)

/-- A symbol reaches the block store; `firstSeq` from a source symbol, `k` from a repair symbol. -/
def State.putSymbol (s : State) (ch sbn esi : Nat) (k : Option Nat) (firstSeq : Option Nat) (sym : List Byte) : State :=
  match s.openBlock ch sbn with
  | none => s.bump wldRepairStale
  | some s1 =>
    let put := fun (b : FecBlock) => if b.sbn = sbn then
        { b with symbols := if b.symbols.any (fun e => e.1 = esi) then b.symbols else tins b.symbols esi sym,
                 k := k.getD b.k, firstSeq := match b.firstSeq with
                   | none => firstSeq
                   | some q => some q }
      else b
    (s1.modWeld ch (fun w => { w with blocks := w.blocks.map put })).queueDecode ch sbn

/-- A source packet is written to the block store beside the ring (R145, R146). -/
def State.sourceSymbol (s : State) (ch seq : Nat) (udp : List Byte) : State :=
  match sourceRead (s.chan ch).weld udp with
  | none => s
  | some (sbn, esi, f, pkt) =>
    match aduiOf f.ffE pkt with
    | none => s.bump wldFfOversize
    | some sym => s.putSymbol ch sbn esi none (some (seq - esi)) sym

/-! ### Decoding (R148) -/

/-- One pass over the equations, in ESI order: symbols known so far, and whether anything was solved. -/
def decodePass (f : FecSet) (k r : Nat) (known : Tbl (List Byte)) : Tbl (List Byte) × Bool :=
  (List.range r).foldl (fun (a : Tbl (List Byte) × Bool) row =>
    let eq := Config.fecEquation k r f.ffN1 f.seed row
    match eq.filter (fun e => !a.1.any (fun x => x.1 = e)) with
    | [u] =>
      let v := (eq.filter (· != u)).foldl (fun x e => xorBytes x (tget a.1 e [])) (List.replicate f.ffE 0)
      (tins a.1 u v, true)
    | _ => a) (known, false)

/-- Passes until no source symbol is unknown, a pass solves nothing, or the limit is reached: symbols and passes run. -/
def decodeRun (f : FecSet) (k r : Nat) : Nat → Tbl (List Byte) → Tbl (List Byte) × Nat
  | 0, known => (known, 0)
  | n + 1, known =>
    if (List.range k).all (fun i => known.any (fun e => e.1 = i)) then (known, 0)
    else
      let p := decodePass f k r known
      if p.2 then let q := decodeRun f k r n p.1; (q.1, q.2 + 1) else (p.1, 1)

end Sys2Proof.Machine
end

