-- ==== Sys2Proof/Machine/Steep.lean ====
section
/-! DEFINITION. Steep (spec/05_jitter_buffer.md): the jitter ring, anchoring and frame phase, playout ticks, depth and
its steps, and the release of tasks. Times are ns on the channel's time base. -/

namespace Sys2Proof.Machine

def State.modSteep (s : State) (ch : Nat) (f : Steep → Steep) : State := s.modChan ch (fun c => { c with steep := f c.steep })
def State.modCtr (s : State) (ch : Nat) (f : Counters → Counters) : State := s.modChan ch (fun c => { c with ctr := f c.ctr })
def State.modStats (s : State) (ch : Nat) (f : Stats → Stats) : State := s.modChan ch (fun c => { c with stats := f c.stats })

/-! ### The grid and RTP time -/

/-- ns of the tick grid's period. -/
def gridNs (t : Steep) : Nat := periodNs t.period

/-- RTP units of one period. -/
def gridUnits (c : Chan) : Nat := rtpUnits c.rx.codec (gridNs c.steep)

/-- The first grid point at or after x (R121). -/
def gridAfter (phase per : Nat) (x : Int) : Int :=
  let off : Int := phase * 250000
  off - (off - x) / per * per

/-- The grid point nearest to x, the earlier on a tie (R126). -/
def gridNear (phase per : Nat) (x : Int) : Int :=
  let lo := gridAfter phase per (x - per + 1)
  if x - lo ≤ lo + per - x then lo else lo + per

/-- An RTP timestamp in ns (R122). -/
def tauOf (codec ts : Nat) : Int := ts * 1000000000 / clockRate codec

/-- The extended timestamp of a packet. -/
def extendTs (last ts : Nat) : Nat :=
  if last = 0 then 2 ^ 32 + ts else (last + signed 32 (ts + 2 ^ 32 - last % 2 ^ 32)).toNat

/-- Frame type of the last frame of an AMR or AMR-WB payload (RFC 4867): table-of-contents entries of 6 bits, F first, follow the
CMR. -/
def amrLast (efficient : Bool) : Nat → Nat → List Byte → Nat
  | 0, _, _ => 15
  | n + 1, i, p =>
    let v := if efficient then be16 p ((4 + 6 * i) / 8) / 2 ^ (10 - (4 + 6 * i) % 8) % 64 else byteAt p (1 + i) / 4
    if v / 32 = 1 then amrLast efficient n (i + 1) p else v / 2 % 16

/-- Payload lengths of the EVS primary rates, and of the IO rates, in the compact format (TS 26.445 Annex A). -/
def evsPrimary : List Nat := [0, 18, 20, 24, 33, 41, 61, 80, 120, 160, 240, 320]
def evsIo : List Nat := [17, 23, 32, 36, 40, 46, 50, 58, 60]

/-- MODE of an Opus packet, by its TOC byte (R197). -/
def opusMode (p : List Byte) : Nat :=
  let k := byteAt p 0 / 8
  if k < 12 then 0 else if k < 16 then 1 else 2

/-- MODE of a received packet's last frame by the frame's own indication (R185, R197), PRESUMED from the payload formats (log 109):
`found` where the format has none; none: a frame without a mode of its own. -/
def frameMode (c : Chan) (pt found : Nat) (p : List Byte) : Option Nat :=
  if pt = c.rx.cnPt then none else
  match c.rx.codec with
  | 3 => some (min 2 found)
  | 5 => let f := amrLast c.rx.format 16 0 p; if f ≤ 8 then some f else none
  | 6 => let f := amrLast c.rx.format 16 0 p; if f ≤ 9 then some f else none
  | 9 => some (opusMode p)
  | 7 | 8 =>
    if c.rx.format then
      let toc := if 128 ≤ byteAt p 0 then byteAt p 1 else byteAt p 0
      let f := toc % 16
      if toc / 32 % 2 = 1 then (if f ≤ 8 then some (16 + f) else if f = 9 then some 25 else none)
      else if f ≤ 12 then some f else none
    else if p.length = 6 then some 12
    else if p.length = 7 then some (if 128 ≤ byteAt p 0 then 25 else 0)
    else match evsPrimary.idxOf? p.length with
    | some k => some k
    | none => (evsIo.idxOf? p.length).map (16 + ·)
  | _ => some 0

/-- The last frame of a received packet is a SID or comfort-noise frame (R193): by payload type, or by the codec's own
indication. PRESUMED (log 18): the standards' SID frame types and lengths. -/
def isSidFrame (c : Chan) (pt : Nat) (p : List Byte) : Bool :=
  pt = c.rx.cnPt ||
  (match c.rx.codec with
   | 4 => p.length % 10 = 2
   | 5 => amrLast c.rx.format 16 0 p = 8
   | 6 => amrLast c.rx.format 16 0 p = 9
   | 7 | 8 => frameMode c pt 0 p = some 12 || frameMode c pt 0 p = some 25
   | _ => false)

/-- A codec mode request that a received packet carries (R198), as mode and bandwidth: the CMR of RFC 4867, or the header-full CMR byte of
TS 26.445 Annex A; PRESUMED (log 109). -/
def requestIn (c : Chan) (p : List Byte) : Option (Nat × Nat) :=
  let b := byteAt p 0
  let d := b % 16
  match c.rx.codec with
  | 5 => if b / 16 ≤ 7 then some (b / 16, 0) else none
  | 6 => if b / 16 ≤ 8 then some (b / 16, 0) else none
  | 7 | 8 =>
    if !c.rx.format || b < 128 then none else
    match b / 16 % 8 with
    | 0 => if d ≤ 11 then some (d, 0) else none
    | 1 => if d ≤ 8 then some (16 + d, 1) else none
    | 2 => if d ≤ 11 then some (d, 1) else none
    | 3 => if d ≤ 11 then some (d, 2) else none
    | 4 => if d ≤ 11 then some (d, 3) else none
    | _ => none
  | _ => none

/-! ### RFC 2198 (R141) -/

/-- Block headers of an RFC 2198 payload: (PT, timestamp offset, length) each, the final block's PT, what follows. -/
def redHeaders : Nat → List Byte → Option (List (Nat × Nat × Nat) × Nat × List Byte)
  | 0, _ => none
  | _ + 1, [] => none
  | n + 1, b :: r =>
    if b.toNat < 128 then some ([], b.toNat, r)
    else if r.length < 3 then none
    else match redHeaders n (r.drop 3) with
    | none => none
    | some (hs, pt, rest) => some ((b.toNat % 128, be16 r 0 / 4, be16 r 1 % 1024) :: hs, pt, rest)

/-- The redundant blocks of an RFC 2198 payload in header order, and its primary block with its PT; `none`: malformed. -/
def redParse (p : List Byte) : Option (List (Nat × Nat × List Byte) × Nat × List Byte) :=
  match redHeaders (p.length + 1) p with
  | none => none
  | some (hs, pt, rest) =>
    let total := hs.foldl (fun a h => a + h.2.2) 0
    if total > rest.length then none
    else
      let cut := hs.foldl (fun (a : List (Nat × Nat × List Byte) × List Byte) h => (a.1 ++ [(h.1, h.2.1, a.2.take h.2.2)], a.2.drop h.2.2)) ([], rest)
      some (cut.1, pt, cut.2)

/-- RFC 2198 is read on a channel (R141). -/
def redRead (c : Chan) : Bool := c.fec.rxFec = 1 || c.fec.rxFec = 3

/-- The receive payload-type set (R191). -/
def inPtSet (c : Chan) (pt : Nat) : Bool := pt = c.rx.pt || pt = c.rx.cnPt || c.rx.alts.contains pt

/-! ### Releasing tasks (R133) -/

/-- Class of a channel's tasks (R309): 1 Saffron, 2 media, 3 extension. -/
def taskClass (c : Chan) : Nat := if c.vbd.state = 2 || c.vbd.state = 3 then 1 else if c.ext != 0 then 3 else 2

/-- The audio leg of a Saffron call (R249). -/
def saffronAudio (c : Chan) : Bool := (c.vbd.state = 2 || c.vbd.state = 3) && !c.vbd.relay && c.st = .bound

/-- How far a task's tick lies ahead on its channel's time base: what orders tasks of every time base by tick time. -/
def State.tickAge (s : State) (t : Task) : Int := (t.tick : Int) - s.tbVal (s.chan t.ch).tb

/-- Insert a task after those whose tick is not later (R133). -/
def insertTask (age : Task → Int) (t : Task) : List Task → List Task
  | [] => [t]
  | x :: r => if age t < age x then t :: x :: r else x :: insertTask age t r

/-- A task enters the release queue, which is in order of tick time (R133). The frame of a Saffron call's audio leg is split into
shares of 40 octets (R249): the first goes with the tick, the others wait for their points. -/
def State.release (s0 : State) (ch : Nat) (kind : TaskKind) (tick share : Nat) (whole : List Byte) (pt : Nat) (ts : Nat) : State :=
  let cut := saffronAudio (s0.chan ch) && share = 0
  let payload := if cut then whole.take 40 else whole
  let s := s0.modSteep ch (fun t => { t with tickCount := t.tickCount + 1, shares := if cut then whole.drop 40 else t.shares })
  let t : Task := { ch := ch, kind := kind, cls := taskClass (s.chan ch), deadline := 0, acceptedAt := 0, tick := tick, tickNo := (s0.chan ch).steep.tickCount, payload := payload, pt := pt, ts := ts }
  State.highWater { s with mor := { s.mor with relQ := insertTask s.tickAge t s.mor.relQ } } stpRelqHwm (s.mor.relQ.length + 1)

/-- A task still in the release queue at the channel's next tick is abandoned (R133). -/
def State.abandon (s : State) (ch : Nat) : State :=
  if s.mor.relQ.any (fun t => t.ch = ch) then
    State.bump ({ s with mor := { s.mor with relQ := s.mor.relQ.filter (fun t => t.ch != ch) } }.modCtr ch (fun k => { k with skipped := k.skipped + 1 })) stpAbandoned
  else s

/-! ### Weld's answer (R127, R140) -/

/-- The recovery-store entry of a frame is freed at its offer, used or not (R150). -/
def spendStore (seq : Nat) (w : Weld) : Weld := { w with store := terase w.store seq }

/-- The offer ends without a frame: the task is marked conceal. FRAMES_MISSING rises with the outcome, so that R41 holds
in every record. -/
def State.concealOffer (s : State) (ch : Nat) : State :=
  match (s.chan ch).steep.offered with
  | none => s
  | some (seq, ts, tick) =>
    let s1 := s.modChan ch (fun c => { c with weld := spendStore seq c.weld, steep := { c.steep with offered := none, lastTask := .conceal, lastSid := false }, ctr := { c.ctr with missing := c.ctr.missing + 1, concealed := c.ctr.concealed + 1 } })
    s1.release ch .conceal tick 0 [] 0 ts

/-- The offer is answered with a frame. -/
def State.recoverOffer (s : State) (ch : Nat) (payload : List Byte) (pt : Nat) : State :=
  match (s.chan ch).steep.offered with
  | none => s
  | some (seq, ts, tick) =>
    let s1 := s.modChan ch (fun c => { c with weld := spendStore seq c.weld, steep := { c.steep with offered := none, lastTask := .recovered, lastSid := isSidFrame c pt payload }, ctr := { c.ctr with missing := c.ctr.missing + 1, recovered := c.ctr.recovered + 1 } })
    s1.release ch .recovered tick 0 payload pt ts

/-! ### Frame phase (R124) -/

/-- Channels whose ticks lie at a phase position, for the time base, skein key and period of channel ch. A channel whose re-phase is pending
still has the ticks of its old period. -/
def State.phaseCount (s : State) (ch pos : Nat) : Nat :=
  let key := s.keyOf ch
  ((liveChans s).filter (fun e => e.1 != ch && e.2.steep.everAnchored && e.2.steep.phase = pos && decide ({ s.keyOf e.1 with period := e.2.steep.period } = key))).length

/-- Among candidates in time order: the largest count mod 16 that is not 0, the earliest on a tie; else the first. -/
def pickPhase : List (Nat × Nat) → Nat × Nat → Nat
  | [], best => best.1
  | (t, n) :: r, best => pickPhase r (if n % 16 > best.2 then (t, n % 16) else best)

/-- The first tick of a channel that chooses its phase, at or after x (R124). A PHASE_SPAN that a later CHAN_MODIFY of PERIOD has left too
long for it (R128) counts as the longest that fits: DESIGN CHOICE (log 104). -/
def State.choosePhase (s : State) (ch per : Nat) (x : Int) : Nat :=
  let c := s.chan ch
  let first := (gridAfter 0 250000 x).toNat
  let span := min c.jit.phaseSpan (per / 250000 - 1)
  let cands := (List.range (span + 1)).map (fun k => let t := first + k * 250000; (t, s.phaseCount ch (t % per / 250000)))
  pickPhase cands (first, 0)

/-! ### Depth (R122, R129) -/

/-- CURRENT of a channel, ns. -/
def currentNs (c : Chan) : Int := steepCurrent c.steep

/-- CURRENT lies below, in or above its band (R130). With no transit in the window there is no tmin: CURRENT reads 0 and counts as in the
band, DESIGN CHOICE (log 104). -/
def band (c : Chan) : Ordering :=
  let cur := currentNs c
  if c.steep.transits.isEmpty then .eq
  else if cur < c.steep.target then .lt
  else if cur ≥ (c.steep.target : Int) + gridNs c.steep then .gt
  else .eq

/-- TARGET after a packet that arrived at a (R129). -/
def retarget (c : Chan) (a : Nat) : Chan :=
  let j := c.jit
  let frozen := decide (c.vbd.state ≥ 2)
  if frozen then c
  else if !j.adaptive then { c with steep := { c.steep with target := j.depth * 100000 } }
  else if c.steep.firstSeenAt.any (fun f => decide (f + sec j.window ≤ a)) then
    let spread := (steepTmax c.steep).getD 0 - (steepTmin c.steep).getD 0
    let t := clampInt (j.adaptMin * 100000 : Nat) (j.adaptMax * 100000 : Nat) (spread + (j.margin * 100000 : Nat))
    { c with steep := { c.steep with target := t.toNat } }
  else c

/-- A transit enters the window (R122). -/
def seeTransit (c : Chan) (a : Nat) (tau : Int) : Chan :=
  let keep := c.steep.transits.filter (fun e => decide (a < e.1 + sec c.jit.window))
  { c with steep := { c.steep with transits := keep ++ [(a, (a : Int) - tau)] } }

/-- RFC 3550 interarrival jitter, kept in sixteenths of a ns with that RFC's rounding (R122). -/
def seeJitter (c : Chan) (a : Nat) (tau : Int) : Chan :=
  let t := (a : Int) - tau
  let est := match c.steep.lastTransit with
    | none => c.steep.jitterEst
    | some l => c.steep.jitterEst + (t - l).natAbs - (c.steep.jitterEst + 8) / 16
  { c with steep := { c.steep with jitterEst := est, lastTransit := some t }
           xr := match c.steep.lastTransit with
             | none => c.xr
             | some l => xrTransit ((t - l).natAbs * clockRate c.rx.codec / 1000000000) c.xr }

/-- The samples of tmin that stand for the last 60 s: one a second, the oldest the last that is 60 s old. -/
def driftSee (a : Nat) (m : Int) (l : List (Nat × Int)) : List (Nat × Int) :=
  let l1 := if l.getLast?.any (fun e => decide (a < e.1 + sec 1)) then l else l ++ [(a, m)]
  match l1 with
  | _ :: (b, n) :: r => if b + sec 60 ≤ a then (b, n) :: r else l1
  | _ => l1

/-- The drift figure over the last 60 s, and JB_DRIFT (R132). DEDUCED (log 19): the slope from the first to the last tmin of the
60 s. -/
def State.driftCheck (s0 : State) (ch a : Nat) : State :=
  match steepTmin (s0.chan ch).steep with
  | none => s0
  | some m =>
    let s := s0.modSteep ch (fun t => { t with driftHist := driftSee a m t.driftHist })
    let c := s.chan ch
    match c.steep.driftHist.head? with
    | none => s
    | some (a0, m0) =>
      if a < a0 + sec 60 then s else
      let d := (m - m0) * 10000000 / ((a - a0 : Nat) : Int)
      let s1 := s.modChan ch (fun c => { c with stats := { c.stats with drift := d } })
      let quiet := c.steep.driftAt.all (fun t => decide (t + sec 60 ≤ s.now))
      if d.natAbs > s.rd stpDriftLimit * 10 && quiet then
        (s1.modSteep ch (fun t => { t with driftAt := some s.now })).raise 0x0020 uSTP 0 ch (wrapInt 32 d)
      else s1

/-! ### Anchoring and the ring (R116-R119, R123) -/

/-- Write a packet into the ring. -/
def State.storeSlot (s : State) (ch seq ts : Nat) (k : MediaPkt) : State :=
  let c := s.chan ch
  let r : RingSlot := { seq := seq, ts := ts, marker := k.marker, pt := k.pt, payload := k.payload, arrival := k.arrival, red := redRead c && k.pt = c.fec.redPt }
  let s1 := s.modChan ch (fun c => { c with steep := { c.steep with ring := tins c.steep.ring (seq % 512) r, extTop := max c.steep.extTop seq }, weld := { c.weld with store := terase c.weld.store seq } })
  (s1.bump stpRingWrites).sourceSymbol ch seq k.udp

/-- Bits that stand for the 512 numbers below `old`, seen from `new` (R118). -/
def shiftBits (b : BitVec 512) (old new : Nat) : BitVec 512 := if old ≤ new then b <<< (new - old) else b >>> (old - new)

/-- Anchor a channel on a packet and store it (R123). The ticks already due before the anchored one stay on the grid
and release gaps; a first tick that lies before the next tick due sets that back: DESIGN CHOICE (log 104). -/
def State.anchor (s : State) (ch seq ts : Nat) (k : MediaPkt) : State :=
  let c := s.chan ch
  let t := c.steep
  let perCode := if t.everAnchored then t.period else c.rx.period
  let per := periodNs perCode
  let x : Int := k.arrival + t.target
  let tick := if t.everAnchored then (gridAfter t.phase per x).toNat else s.choosePhase ch per x
  let next := if t.everAnchored && t.nextTick ≤ tick then t.nextTick else tick
  let units := rtpUnits c.rx.codec per
  let due := ts - units * ((tick - next) / per)
  let t1 := { t with
      anchored := true, everAnchored := true, period := perCode, phase := tick % per / 250000, nextTick := next, playSeq := seq,
      playTs := due, offsetP := (tick : Int) - tauOf c.rx.codec ts, ring := [], transits := [], firstSeenAt := some tick, outSince := none,
      forceDue := false, jumpPkt := none, lastTs := ts, driftHist := [], recvBits := shiftBits t.recvBits t.playSeq seq,
      dupBits := shiftBits t.dupBits t.playSeq seq, tickCount := t.tickCount + 1 }
  ((s.setChan ch { c with steep := t1 }).storeSlot ch seq ts k).modChan ch (fun c => seeTransit c k.arrival (tauOf c.rx.codec ts))

/-- Free the MEDIA buffers of a packet (R111). -/
def State.pktDone (s : State) (k : MediaPkt) : State := s.chanFree 0 k.ch k.buffers

/-- A jump packet (R119): set aside, or with the one set aside before it the start of a resynchronisation. -/
def State.jump (s : State) (k : MediaPkt) : State :=
  let c := s.chan k.ch
  let s1 := s.bump stpJump
  match c.steep.jumpPkt with
  | some j =>
    if k.seq = (j.seq + 1) % 65536 then
      let low := c.steep.extTop / 65536 * 65536 + j.seq
      let ext := if low < c.steep.extTop then low + 65536 else low
      let jts := extendTs c.steep.lastTs j.ts
      let s2 := (((s1.bump stpResync).cancelTasks k.ch 3 false).pktDone j).modSteep k.ch (fun t => { t with recvBits := 0, dupBits := 0 })
      let s3 := (s2.anchor k.ch ext jts j).storeSlot k.ch (ext + 1) (extendTs jts k.ts) k
      (s3.modChan k.ch (fun c => seeTransit c k.arrival (tauOf c.rx.codec (extendTs jts k.ts)))).pktDone k
    else (s1.pktDone j).modSteep k.ch (fun t => { t with jumpPkt := some k })
  | none => s1.modSteep k.ch (fun t => { t with jumpPkt := some k })

/-- A packet that is no jump, or that Steep rejects: an older one set aside is let go (R119). -/
def State.noJump (s : State) (ch : Nat) : State :=
  match (s.chan ch).steep.jumpPkt with
  | none => s
  | some j => (s.pktDone j).modSteep ch (fun t => { t with jumpPkt := none })

/-- A duplicate is counted (Table 5.1); `i`: its place among the 512 numbers below PLAY_SEQ. -/
def State.countDup (s : State) (ch : Nat) (i : Option Nat) : State :=
  s.modChan ch (fun c => { c with
    ctr := { c.ctr with duplicates := c.ctr.duplicates + 1 }, xr := { c.xr with dups := c.xr.dups + 1 }
    steep := match i with
      | none => c.steep
      | some i => { c.steep with dupBits := c.steep.dupBits ||| ((1 : BitVec 512) <<< i) } })

/-- A late packet is counted and its received bit set (Table 5.1). -/
def lateMark (i ext : Nat) (c : Chan) : Chan :=
  { c with ctr := { c.ctr with late := c.ctr.late + 1 }, xr := { c.xr with late := c.xr.late + 1 }
           steep := { c.steep with recvBits := c.steep.recvBits ||| ((1 : BitVec 512) <<< i), extTop := max c.steep.extTop ext } }

/-- Table 5.1 for a packet of an anchored channel. -/
def State.place (s : State) (k : MediaPkt) (ts : Nat) : State :=
  let c := s.chan k.ch
  let t := c.steep
  let d := signed 16 (k.seq + 65536 - t.playSeq % 65536)
  let seen := fun (s : State) => (s.modChan k.ch (fun c => seeTransit { c with steep := { c.steep with lastTs := ts } } k.arrival (tauOf c.rx.codec ts)))
  if 0 ≤ d && d < 512 then
    let seq := t.playSeq + d.toNat
    let s1 := s.noJump k.ch
    if t.ring.any (fun e => e.2.seq = seq) then (seen (s1.countDup k.ch none)).pktDone k
    else (seen (s1.storeSlot k.ch seq ts k)).pktDone k
  else if -512 ≤ d && d < 0 then
    let i := (-d - 1).toNat
    let s1 := s.noJump k.ch
    if t.recvBits.getLsbD i then (seen (s1.countDup k.ch (some i))).pktDone k
    else
      let s2 := (s1.modChan k.ch (lateMark i ((t.playSeq : Int) + d).toNat)).bump stpLate
      (seen (s2.sourceSymbol k.ch ((t.playSeq : Int) + d).toNat k.udp)).pktDone k
  else s.jump k

/-- A stream restarts (R103, R119): the ring is flushed and the channel anchors on the first packet of the new stream that Steep may store
(DEDUCED, log 104); the figures of RFC 3550 are those of one source and begin anew. -/
def State.restartStream (s : State) (ch seq : Nat) : State :=
  (((s.noJump ch).bump stpResync).cancelTasks ch 3 false).modSteep ch (fun t => { t with
    ring := [], transits := [], firstSeenAt := none, anchored := false, recvBits := 0, dupBits := 0, extTop := 0, playSeq := seq, lastTs := 0
    jitterEst := 0, lastTransit := none, driftHist := [] })

/-- A packet that Steep may store (R118, R119, R123, R129). A channel with a PLAY_SEQ of its own, kept or mirrored, extends the number by
it (R136). -/
def State.steepPacket (s : State) (k : MediaPkt) : State :=
  let c := s.chan k.ch
  let t := c.steep
  if !t.anchored then
    let seq := if t.everAnchored || t.playSeq != 0 then ((t.playSeq : Int) + signed 16 (k.seq + 65536 - t.playSeq % 65536)).toNat else k.seq
    (s.anchor k.ch seq (extendTs t.lastTs k.ts) k).pktDone k
  else s.place k (extendTs t.lastTs k.ts)

/-- The characters of UTF-8 text, each its octets. -/
def utf8Chars : List Byte → List (List Byte)
  | [] => []
  | b :: r =>
    match utf8Chars r with
    | (c :: l) :: rest => if 128 ≤ c.toNat && c.toNat < 192 then (b :: c :: l) :: rest else [b] :: (c :: l) :: rest
    | rest => [b] :: rest

/-- The text of a T.140 packet that is new: its primary block, and after a gap in the sequence the redundant blocks that fill
it (RFC 4103). -/
def newText (last : Option Nat) (seq : Nat) (framed : Bool) (p : List Byte) : Option (List Byte) :=
  let gap : Int := match last with
    | none => 0
    | some l => signed 16 (seq + 65536 - l) - 1
  if gap < 0 then none
  else if !framed then some p
  else match redParse p with
  | none => none
  | some (bs, _, prim) => some ((bs.drop (bs.length - gap.toNat)).flatMap (fun b => b.2.2) ++ prim)

/-- Text received on the relay leg goes into its queue of 256 characters (R266). -/
def State.textReceive (s : State) (k : MediaPkt) : State :=
  let v := (s.chan k.ch).vbd
  match newText v.textSeq k.seq ((s.chan k.ch).fax.textRed != 0) k.payload with
  | none => s
  | some t =>
    let chars := utf8Chars t
    let room := 256 - v.textIn.length
    (s.bumpBy supVbdTextDrop (chars.length - room)).modChan k.ch (fun c => { c with vbd := { c.vbd with textSeq := some k.seq, textIn := v.textIn ++ chars.take room, markUntil := if chars.isEmpty then v.markUntil else none } })

/-- CURRENT is looked at against its band: outside since when, and no step due once it is inside (R131). -/
def watchBand (now : Nat) (c : Chan) : Chan :=
  if band c = .eq then { c with steep := { c.steep with outSince := none, forceDue := false } }
  else { c with steep := { c.steep with outSince := some (c.steep.outSince.getD now) } }

/-- Steep takes the next media packet (R118, R141, R191, R117), or word of a stream restart. After a WARM reset a channel anchors at its
first packet after media resumes (R136): what comes before is let go. -/
def steepRingWrite (s : State) : State :=
  match s.ing.steepIn with
  | [] => s
  | k :: rest =>
    let s0 := { s with ing := { s.ing with steepIn := rest } }
    let c := s0.chan k.ch
    if (c.st != .open && c.st != .bound) || s.img.warmHold then s0.pktDone k else
    let s0 := if k.restart then s0.restartStream k.ch k.seq else s0
    if k.notice then s0 else
    let c := s0.chan k.ch
    let ts := extendTs c.steep.lastTs k.ts
    let s1 := (s0.modCtr k.ch (fun x => { x with rxPackets := x.rxPackets + 1, rxOctets := x.rxOctets + k.payload.length })).modChan k.ch (fun c => seeJitter { c with rxSsrc := BitVec.ofNat 32 k.ssrc } k.arrival (tauOf c.rx.codec ts))
    let red := redRead c && k.pt = c.fec.redPt
    if c.vbd.state = 3 && c.vbd.relay && k.pt = c.fax.textPt then ((s1.noJump k.ch).textReceive k).pktDone k
    else if red && (redParse k.payload).isNone then ((s1.noJump k.ch).bump wldRedMalformed).pktDone k
    else if !red && !inPtSet c k.pt then ((s1.noJump k.ch).modStats k.ch (fun x => { x with ptRejected := x.ptRejected + 1 })).pktDone k
    else
      let s2 := if red && (redParse k.payload).any (fun p => decide (3 < p.1.length)) then s1.bump wldRedExcess else s1
      if 32 + k.payload.length > (c.steep.moving.getD c.steep.slotSize) then ((s2.noJump k.ch).bump stpOversize).pktDone k
      else ((s2.steepPacket k).modChan k.ch (fun c => watchBand s.now (retarget c k.arrival))).driftCheck k.ch k.arrival

def execSteepRingWrite (s : State) : Out := .next (s.whileOn [28, 29] steepRingWrite)

/-- Old extremes age out of the window (R122). -/
def transitWindowAge (ch : Nat) (s : State) : State :=
  let c := s.chan ch
  let now := s.tbVal c.tb
  s.modChan ch (fun c => watchBand s.now { c with steep := { c.steep with transits := c.steep.transits.filter (fun e => decide (now < e.1 + sec c.jit.window)) } })

def execTransitWindowAge (ch : ChanId) (s : State) : Out := .next (s.whileOn [29] (transitWindowAge ch.val))

/-! ### The playout tick (R125-R131, R135) -/

/-- What Table 5.2 finds at a tick. -/
inductive Look where
  | frame (r : RingSlot)
  | gap
  | missing
  | misaligned
  deriving DecidableEq, Repr

/-- The packet stored for PLAY_SEQ. -/
def headSlot (t : Steep) : Option RingSlot := (t.ring.find? (fun e => e.2.seq = t.playSeq)).map (·.2)

def lookAt (c : Chan) (tick : Nat) : Look :=
  let t := c.steep
  match headSlot t with
  | none => if t.ring.isEmpty && (t.lastTask = .gap || t.lastSid) then .gap else .missing
  | some r =>
    if t.lastTask = .gap then
      if gridNear t.phase (gridNs t) (tauOf c.rx.codec r.ts + t.offsetP) ≤ tick then .frame r else .gap
    else if r.ts = t.playTs then .frame r
    else if t.playTs < r.ts && (r.ts - t.playTs) % gridUnits c = 0 then .gap
    else .misaligned

/-- PLAY_SEQ moves past one number; `got`: it had been received. -/
def advance (t : Steep) (got : Bool) (playTs : Nat) : Steep :=
  { t with ring := t.ring.filter (fun e => e.2.seq != t.playSeq), recvBits := (t.recvBits <<< 1) ||| (if got then 1 else 0), dupBits := t.dupBits <<< 1, playSeq := t.playSeq + 1, playTs := playTs }

/-- The frame a stored packet plays: the primary block where it is an RFC 2198 packet. -/
def playedFrame (r : RingSlot) : Nat × List Byte :=
  if r.red then
    match redParse r.payload with
    | some (_, pt, p) => (pt, p)
    | none => (r.pt, r.payload)
  else (r.pt, r.payload)

/-- Act on what the slot holds (Table 5.2, R126, R127). -/
def State.tickAct (s : State) (ch tick : Nat) (l : Look) : State :=
  let c := s.chan ch
  let t := c.steep
  let u := gridUnits c
  match l with
  | .frame r =>
    let f := playedFrame r
    let s1 := s.setChan ch { c with steep := { advance t true (r.ts + u) with lastTask := .frame, lastSid := isSidFrame c f.1 f.2 }, ctr := { c.ctr with played := c.ctr.played + 1 }, xr := xrGood c.xr }
    s1.release ch .frame tick 0 f.2 f.1 r.ts
  | .gap =>
    (s.setChan ch { c with steep := { t with playTs := t.playTs + u, lastTask := .gap, lastSid := false } }).release ch .gap tick 0 [] 0 t.playTs
  | .missing =>
    (s.setChan ch { c with xr := xrLoss (s.rd stpXrGmin) { c.xr with absent := c.xr.absent + 1 }, steep := { advance t false (t.playTs + u) with offered := some (t.playSeq, t.playTs, tick), lastTask := .conceal, lastSid := false } }).bump stpWeldOffered
  | .misaligned =>
    let s1 := s.setChan ch { c with xr := xrLoss (s.rd stpXrGmin) { c.xr with dropped := c.xr.dropped + 1 }, steep := { advance t true (t.playTs + u) with offered := some (t.playSeq, t.playTs, tick), lastTask := .conceal, lastSid := false } }
    (s1.bump stpMisaligned).bump stpWeldOffered

/-- A silent tick (R130), judged from the slot as it stood before any step. -/
def silentTick (c : Chan) (l : Look) : Bool :=
  c.steep.inactive ||
  (match l with
   | .gap => true
   | .frame r => let f := playedFrame r; isSidFrame c f.1 f.2
   | _ => false)

/-- One grow (R130, R131): nothing is consumed. A forced one at a tick that is not silent releases a conceal task. -/
def State.grow (s : State) (ch tick : Nat) (forced : Bool) : State :=
  let c := s.chan ch
  let kind := if forced then TaskKind.conceal else TaskKind.gap
  let s1 := (s.setChan ch { c with steep := { c.steep with offsetP := c.steep.offsetP + gridNs c.steep, lastTask := kind, lastSid := false } }).bump stpGrow
  s1.release ch kind tick 0 [] 0 c.steep.playTs

/-- One shrink (R130): at a gap tick PLAY_TS moves two periods and a gap is released; at another tick the frame at PLAY_SEQ
is discarded, never released, and the next slot is acted on. -/
def State.shrink (s : State) (ch tick : Nat) (l : Look) : State :=
  let c := s.chan ch
  let t := { c.steep with offsetP := c.steep.offsetP - gridNs c.steep }
  let s0 := s.bump stpShrink
  match l with
  | .gap => (s0.setChan ch { c with steep := { t with playTs := t.playTs + 2 * gridUnits c, lastTask := .gap, lastSid := false } }).release ch .gap tick 0 [] 0 t.playTs
  | .frame r =>
    let c1 := { c with xr := xrLoss (s.rd stpXrGmin) { c.xr with dropped := c.xr.dropped + 1 }, steep := advance t true (r.ts + gridUnits c) }
    (s0.setChan ch c1).tickAct ch tick (lookAt c1 tick)
  | _ => s0.setChan ch { c with steep := t }

/-- A pending re-phase is carried out at a silent tick (R135): a phase under R124 from one new PERIOD after it on, keeping P. -/
def State.rephaseAt (s : State) (ch tick : Nat) : State :=
  let c := s.chan ch
  if !c.steep.rephase then s else
  let per := periodNs c.rx.period
  let next := s.choosePhase ch per ((tick + per : Nat) : Int)
  (s.modSteep ch (fun t => { t with rephase := false, period := c.rx.period, nextTick := next, phase := next % per / 250000 })).modChan ch (fun c => { c with home := none })

/-- A tick of an anchored channel in full (R125-R131). -/
def State.fullTick (s : State) (ch tick : Nat) : State :=
  let c := s.chan ch
  let l := lookAt c tick
  let held := decide (c.vbd.state ≥ 2)
  let quiet := silentTick c l
  let silent := quiet && !held
  let toWeld := match l with
    | .missing | .misaligned => true
    | _ => false
  let forced := c.steep.forceDue && !silent
  let stepping := (silent || forced) && !toWeld
  let s1 := match stepping, band c with
    | true, .lt => s.grow ch tick forced
    | true, .gt => s.shrink ch tick l
    | _, _ => s.tickAct ch tick l
  let moved := stepping && band c != .eq
  let s2 := if moved && forced then s1.bump stpForced else s1
  let s3 := s2.modChan ch (fun c =>
    let out := band c != .eq
    let since := if !out then none else if silent || moved then some s.now else some (c.steep.outSince.getD s.now)
    { c with steep := { c.steep with inactive := false, forceDue := out && !moved && !silent && c.steep.forceDue, outSince := since }, xr := { c.xr with jbMax := max c.xr.jbMax (currentNs c).toNat } })
  if quiet then s3.rephaseAt ch tick else s3

/-- The relay leg of a Saffron call takes its tasks from the audio leg's grid (R249). -/
def relayed (c : Chan) : Bool := (c.vbd.state = 2 || c.vbd.state = 3) && c.vbd.relay

/-- What a channel does at its own tick: gap tasks until it is anchored. -/
def State.ownTick (s : State) (ch tick : Nat) : State :=
  let c := s.chan ch
  if c.steep.anchored then s.fullTick ch tick
  else ((s.modSteep ch (fun t => { t with lastTask := .gap, lastSid := false })).release ch .gap tick 0 [] 0 c.steep.playTs).rephaseAt ch tick

/-- A tick of a Saffron call's audio leg: at point 0 the frame of its own tick, at the points between its shares; and a
task without a frame to the relay leg (R249). -/
def State.saffronTick (s : State) (ch tick : Nat) : State :=
  let c := s.chan ch
  let k := c.steep.sharePoint
  let n := periodMs c.steep.period / 5
  let s1 := s.modSteep ch (fun t => { t with sharePoint := (k + 1) % n, nextTick := tick + 5000000 })
  let s2 := if k = 0 then s1.ownTick ch tick else s1.release ch c.steep.lastTask tick k ((c.steep.shares.drop (40 * (k - 1))).take 40) c.rx.pt c.steep.playTs
  (s2.abandon c.peer).release c.peer .gap tick k [] 0 0

/-- One tick of a channel at its NEXT tick time: an offer still open is concealed, a task still waiting abandoned
(R127, R133). -/
def State.playTick (s : State) (ch : Nat) : State :=
  let c := s.chan ch
  let tick := c.steep.nextTick
  let s1 := ((s.concealOffer ch).abandon ch).modSteep ch (fun t => { t with nextTick := tick + gridNs t })
  if saffronAudio c then s1.saffronTick ch tick else s1.ownTick ch tick

/-- A channel has a tick at or before a time of its time base. -/
def hasTick (c : Chan) (tb bound : Nat) : Bool :=
  (c.st = .open || c.st = .bound) && c.tb = tb && c.steep.everAnchored && !relayed c && decide (c.steep.nextTick ≤ bound)

/-- The channel of a time base whose next tick is earliest, not after `bound`. -/
def State.nextTicker (s : State) (tb bound : Nat) : Option Nat :=
  let l := s.chans.filter (fun e => hasTick e.2 tb bound)
  (l.foldl (fun (a : Option (Nat × Nat)) e => match a with
    | none => some (e.2.steep.nextTick, e.1)
    | some x => if e.2.steep.nextTick < x.1 then some (e.2.steep.nextTick, e.1) else a) none).map (·.2)

/-- The release queue has room for what a tick can add (R133): two tasks, beside one for each offer that Weld has not answered. -/
def State.relRoom (s : State) : Bool :=
  decide (s.mor.relQ.length + (s.chans.filter (fun e => e.2.steep.offered.isSome)).length + 2 ≤ 8192)

/-- Release ticks in order of time, at most n of them, while the release queue has room. -/
def State.runTicks : Nat → Nat → Nat → State → State
  | 0, _, _, s => s
  | n + 1, tb, bound, s =>
    if !s.relRoom then s else
    match s.nextTicker tb bound with
    | none => s
    | some ch => State.runTicks n tb bound (s.playTick ch)

/-- How many ticks of a time base lie at or before a time. -/
def State.tickTotal (s : State) (tb bound : Nat) : Nat :=
  s.chans.foldl (fun a e => if hasTick e.2 tb bound then a + (bound - e.2.steep.nextTick) / 5000000 + 1 else a) 0

/-- Steep takes the oldest entry of a time base's queue and releases every tick at or before its boundary (R25); with
the release queue full it takes none (R133). Until media resumes after a WARM reset no tick is released (R136, R362). -/
def tickEntryTaken (tb : Nat) (s : State) : State :=
  match (s.tb tb).tickQ with
  | [] => s
  | b :: rest =>
    if !s.relRoom then s else
    if s.img.warmHold then s.modTb tb (fun t => { t with tickQ := rest }) else
    let bound := b * 250000
    let s1 := State.runTicks (s.tickTotal tb bound) tb bound s
    if (s1.nextTicker tb bound).isSome then s1 else s1.modTb tb (fun t => { t with tickQ := rest })

def execTickEntryTaken (tb : TbId) (s : State) : Out := .next (s.whileOn [29] (tickEntryTaken tb.val))

/-- The part of such an entry that is one channel's own tick (log 20). -/
def playoutTick (ch : Nat) (s : State) : State :=
  let c := s.chan ch
  if hasTick c c.tb ((s.tb c.tb).lastTick * 250000) && s.relRoom && !s.img.warmHold then s.playTick ch else s

def execPlayoutTick (ch : ChanId) (s : State) : Out := .next (s.whileOn [28, 29] (playoutTick ch.val))

/-- CURRENT has stayed outside its band for FORCE_AFTER: the next tick steps as if it were silent (R131). -/
def forceAfterExpiry (ch : Nat) (s : State) : State :=
  let c := s.chan ch
  if c.jit.forceAfter != 0 && c.steep.outSince.any (fun t => decide (t + sec c.jit.forceAfter ≤ s.now)) then
    s.modSteep ch (fun t => { t with forceDue := true })
  else s

def execForceAfterExpiry (ch : ChanId) (s : State) : Out := .next (s.whileOn [29] (forceAfterExpiry ch.val))

/-- The held packets have moved to the ring of larger slots (R117). -/
def ringMove (ch : Nat) (s : State) : State :=
  s.modSteep ch (fun t => { t with slotSize := t.moving.getD t.slotSize, moving := none })

def execRingMove (ch : ChanId) (s : State) : Out := .next (s.whileOn [28, 29] (ringMove ch.val))

end Sys2Proof.Machine
end

