-- ==== Sys2Proof/Machine/Weld.lean ====
section
/-! DEFINITION. Weld (spec/06_packet_fec.md): answers to offers, repair symbols, decode jobs, the transmit block, and
FEC_SET. -/

namespace Sys2Proof.Machine

/-! ### Offers (R139-R143) -/

/-- The blocks of a stored packet that Weld reads: the first three. -/
def storedBlocks (c : Chan) (seq : Nat) : List (Nat × Nat × Nat × List Byte) :=
  match c.steep.ring.find? (fun e => e.2.seq = seq) with
  | none => []
  | some (_, r) =>
    if !r.red then [] else
    match redParse r.payload with
    | none => []
    | some (bs, _, _) => (bs.take 3).map (fun b => (r.ts, b))

/-- Search the redundant blocks in order (R142): the frame found, and how many were skipped for their payload type. -/
def redSearch (c : Chan) (playTs : Nat) : List (Nat × Nat × Nat × List Byte) → Nat → Option (Nat × List Byte) × Nat
  | [], n => (none, n)
  | (ts, pt, off, body) :: r, n =>
    if (ts + 2 ^ 32 - off) % 2 ^ 32 != playTs % 2 ^ 32 || body.isEmpty then redSearch c playTs r n
    else if inPtSet c pt then (some (pt, body), n)
    else redSearch c playTs r (n + 1)

/-- Weld answers Steep's offer (R139, Table 6.1), within 8 us of the tick (R127). What was stored as RFC 2198 is read so, and what the
recovery store holds is given, under the settings of its own packet or block (R153). -/
def weldOffer (ch : Nat) (s : State) : State :=
  let c := s.chan ch
  match c.steep.offered with
  | none => s
  | some (seq, ts, tick) =>
    if tick + 8000 < s.tbVal c.tb then s.concealOffer ch else
    let s1 := s.bump wldOffers
    let red := redSearch c ts ([1, 2, 3].flatMap (fun k => storedBlocks c (seq + k))) 0
    let s2 := s1.bumpBy wldRedPtSkip red.2
    match red.1 with
    | some (pt, body) => ((s2.bump wldRedRecovered).modStats ch (fun x => { x with redRecovered := x.redRecovered + 1 })).recoverOffer ch body pt
    | none =>
      match (c.weld.store.find? (fun e => e.1 = seq)).map (·.2) with
      | some (body, pt) => ((s2.bump wldFfRecovered).modStats ch (fun x => { x with ffRecovered := x.ffRecovered + 1 })).recoverOffer ch body pt
      | none => s2.concealOffer ch

def execWeldOffer (ch : ChanId) (s : State) : Out := .next (s.whileOn [28, 29] (weldOffer ch.val))

/-- 8 us after the tick Steep marks the task conceal (R127). -/
def weldAnswerTimeout (ch : Nat) (s : State) : State :=
  let c := s.chan ch
  if c.steep.offered.any (fun o => decide (o.2.2 + 8000 ≤ s.tbVal c.tb)) then s.concealOffer ch else s

def execWeldAnswerTimeout (ch : ChanId) (s : State) : Out := .next (s.whileOn [29] (weldAnswerTimeout ch.val))

/-! ### Blocks and decode jobs -/

/-- A repair packet is written into the block store (R146), under the settings of its block (R153): a symbol of E bytes beyond the source
symbols. DESIGN CHOICE (log 103): another one is let go. -/
def State.repairWrite (s : State) (ch : Nat) (r : RepairPacket) : State :=
  let c := s.chan ch
  let f := fecFor c.weld r.sbn.toNat
  if (c.st = .open || c.st = .bound) && decide (2 ≤ f.rxFec) && decide (r.symbol.length = f.ffE) && decide (r.k ≤ r.esi) && decide (r.k ≤ f.ffK)
  then s.putSymbol ch r.sbn.toNat r.esi (some r.k) none r.symbol else s

/-- The oldest packet of a channel's repair flow reaches the block store (R144, R146): it is the packet `r`, or it is no repair packet and
is let go. Its buffers are freed. -/
def repairSymbolReceive (ch : Nat) (r : RepairPacket) (s : State) : State :=
  match s.ing.weldIn.find? (fun k => k.ch = ch) with
  | none => s
  | some k =>
    let s1 := State.chanFree { s with ing := { s.ing with weldIn := s.ing.weldIn.erase k } } 0 ch k.buffers
    match repairParse k.payload with
    | none => s1
    | some p => if p = r then s1.repairWrite ch p else s

def execRepairSymbolReceive (ch : ChanId) (r : RepairPacket) (s : State) : Out := .next (s.whileOn [28, 29] (repairSymbolReceive ch.val r))

/-- A free unit takes the head of the queue and reads the block as it stands (R28, R147, R148). -/
def decodeJobStart (u : Nat) (s : State) : State :=
  match s.weldU.queue with
  | [] => s
  | j :: rest =>
    if s.weldU.running.any (fun e => e.1 = u) then s else
    let c := s.chan j.ch
    match c.weld.blocks.find? (fun b => b.sbn = j.sbn) with
    | none => { s with weldU := { s.weldU with queue := rest } }
    | some b =>
      let f := b.par
      let r := (f.ffR * b.k + f.ffK - 1) / f.ffK
      let q := decodeRun f b.k r f.maxPasses b.symbols
      let new := q.1.filter (fun e => !b.symbols.any (fun x => x.1 = e.1))
      let job := { j with solved := new.filter (fun e => decide (e.1 < b.k)), all := new, passes := q.2 }
      State.bumpBy (State.bump { s with weldU := { s.weldU with queue := rest, running := tins s.weldU.running u job } } wldDecodeJobs) wldPasses q.2

def execDecodeJobStart (u : Fin 2) (s : State) : Out := .next (s.whileOn [28, 29] (decodeJobStart u.val))

/-- A solved packet enters the recovery store, or is late (R140, R148). DESIGN CHOICE (log 103): one that is not valid RTP is let go
uncounted, and one whose RFC 2198 header is malformed enters whole. -/
def State.storeRecovered (s : State) (ch seq : Nat) (plain : List Byte) : State :=
  let c := s.chan ch
  if !rtpValid plain then s
  else if !tickAhead c seq then (s.bump wldFfLate).modStats ch (fun x => { x with ffLate := x.ffLate + 1 })
  else if c.steep.ring.any (fun e => e.2.seq = seq) then s
  else
    let f := if redRead c && rtpPt plain = c.fec.redPt then
        (match redParse (rtpPayload plain) with
         | some (_, pt, p) => (p, pt)
         | none => (rtpPayload plain, rtpPt plain))
      else (rtpPayload plain, rtpPt plain)
    s.modWeld ch (fun w => { w with store := tins w.store seq f })

/-- One solved source symbol becomes a packet; on an SRTP channel it is authenticated first (R102, R148). -/
def State.solvedPacket (s : State) (ch : Nat) (first : Option Nat) (e : Nat × List Byte) : State :=
  let c := s.chan ch
  let pkt := (e.2.drop 3).take (be16 e.2 1)
  let seq := match first with
    | some q => q + e.1
    | none => ((c.steep.playSeq : Int) + signed 16 (rtpSeq pkt + 65536 - c.steep.playSeq % 65536)).toNat
  match c.srx.current with
  | none => s.storeRecovered ch seq pkt
  | some _ =>
    match srtpReceive c.srx s.now pkt with
    | .pass r plain restart =>
      let s1 := s.setChan ch { c with srx := r }
      (if restart then s1.tellRestart ch (s.tbVal c.tb) plain else s1).storeRecovered ch seq plain
    | .fail => (s.bump flwSrtpAuthFail).modCtr ch (fun x => { x with srtpFailures := x.srtpFailures + 1 })
    | .replay => (s.bump flwSrtpReplay).modCtr ch (fun x => { x with srtpFailures := x.srtpFailures + 1 })

/-- The job of a unit ends: symbols it has solved that no other job has stay known, and their packets go to the recovery store (R148). -/
def decodeJobEnd (u : Nat) (s : State) : State :=
  match s.weldU.running.find? (fun e => e.1 = u) with
  | none => s
  | some (_, j) =>
    let s1 := { s with weldU := { s.weldU with running := terase s.weldU.running u } }
    let c := s1.chan j.ch
    match c.weld.blocks.find? (fun b => b.sbn = j.sbn) with
    | none => s1
    | some b =>
      let own := j.solved.filter (fun e => !b.symbols.any (fun x => x.1 = e.1))
      let keep := fun (x : FecBlock) => if x.sbn = j.sbn then
          { x with symbols := j.all.foldl (fun (t : Tbl (List Byte)) (e : Nat × List Byte) => if t.any (fun y => y.1 = e.1) then t else tins t e.1 e.2) x.symbols,
                   solved := x.solved ++ own.map (fun (e : Nat × List Byte) => e.1), jobs := x.jobs + 1 }
        else x
      let t := (s1.modWeld j.ch (fun w => { w with blocks := w.blocks.map keep })).modStats j.ch (fun x => { x with maxPasses := max x.maxPasses j.passes })
      own.foldl (fun s e => s.solvedPacket j.ch b.firstSeq e) t

def execDecodeJobEnd (u : Fin 2) (s : State) : Out := .next (s.whileOn [28, 29] (decodeJobEnd u.val))

/-- FF_TIMEOUT after the first packet of the transmit block it closes (R152). -/
def ffBlockTimeout (ch : Nat) (s : State) : State :=
  let w := (s.chan ch).weld
  if !w.txBlock.isEmpty && w.txFirstAt + ms w.txFf.timeout ≤ s.now then waitEgr s (s.closeTxBlock ch) else s

def execFfBlockTimeout (ch : ChanId) (s : State) : Out := .next (s.whileOn [28, 29] (ffBlockTimeout ch.val))

/-! ### FEC_SET (R153) -/

/-- FEC settings take their places (R153): receive FECFRAME at the next new SBN, transmit and its repair template at the next block, the
rest at the next packet; the block store is reserved (R146). -/
def withFec (f : FecSet) (rep : Option Template) (c : Chan) : Chan :=
  let new := match rep with
    | none => c.repair
    | some t => some t
  let tx := if c.weld.txBlock.isEmpty then { c.weld with txFf := f, txRepair := new, txNext := none } else { c.weld with txNext := some f }
  slotsGrow { c with fec := f, weld := { tx with rxNext := some f, reserved := blockStoreBytes f }, repair := new }

/-- FEC_SET (R34, R144, R146, R153). -/
def applyFec (c : HostCmd) (s : State) : Reply :=
  let ch := bits c.w1.toNat 0 16
  match s.groupsOf c [10, 11] [10] with
  | .error d => .refuse stBAD_PARAM d
  | .ok gs =>
    let g := grp gs 10
    let f := fecOf g
    let old := s.chan ch
    let rep := grpOf gs 11
    let tchecks := match rep with
      | none => []
      | some r => templateChecks r 0
    match firstFail (tchecks ++ [(decide (f.txFec ≥ 2) && rep.isNone, stBAD_PARAM, 16), (old.st != .open && old.st != .bound, stBAD_STATE, 0),
        (!s.canReserve (blockStoreBytes f - old.weld.reserved), stNO_RESOURCE, 0),
        (decide (f.rxFec ≥ 2) && f.repairPort = 0, stBAD_PARAM, g.detail 1 32)]) with
    | some (st, d) => .refuse st d
    | none =>
      let olds := ((s.flowsOfChan ch).filter (fun e => e.kind = 2)).map flowKey
      let news := if f.rxFec ≥ 2 then [repairFlow ch ((s.latIndex old.flows.localAddr).getD 0) old.flows f.repairPort] else []
      match s.keyClash olds (news.map (fun e => (e, g.detail 1 32))) with
      | some d => .refuse stBAD_PARAM d
      | none =>
        match s.installFlows olds news with
        | none => .fail (s.bump flwInsertFail) stNO_RESOURCE 0
        | some t => .publish (t.modChan ch (withFec f (rep.map templateOf))) [ch]

def fecSet (c : HostCmd) (s : State) : State := runCommand c 0x21 [(1, 0xFFFF)] true (applyFec c) s

def execFecSet (c : HostCmd) (s : State) : Out := .next (fecSet c s)

end Sys2Proof.Machine
end

