-- ==== Sys2Proof/Machine/Echo.lean ====
section
/-! DEFINITION. Echo cancellation (spec/07_echo_cancellation.md): Woad's searches and placements, EC_SET, and the canceller of a job:
filter, adaptation, ERLE and ERL, double talk, NLP, comfort noise and the tone disabler. -/

namespace Sys2Proof.Machine

def State.modEcho (s : State) (ch : Nat) (f : Echo → Echo) : State := s.modChan ch (fun c => { c with echo := f c.echo })

/-! ### Placement by estimates (R165, R166) -/

/-- A window at a peak `p` (R165). -/
def windowAt (e : EchoSet) (p : Nat) : Nat := min (p - e.lead) (e.tailMax - 64)

/-- Window 1 of a placement, `w0` standing: inactive unless P2 lies outside window 0; shifted until the windows abut
(R165). -/
def windowOne (e : EchoSet) (w0 : Nat) : Option Nat → Option Nat
  | none => none
  | some p =>
    if w0 ≤ p && p < w0 + 64 then none
    else
      let w := windowAt e p
      if w ≥ w0 && w < w0 + 64 then some (w0 + 64)
      else if w < w0 && w0 < w + 64 then some (w0 - 64)
      else some w

/-- At a job's start, a confirmed estimate of the present generation places the windows in AUTO (R166, R167); one that falls before the
same job as new settings is discarded. -/
def State.placeConfirmed (s : State) (ch : Nat) : State :=
  let c := s.chan ch
  let s1 := s.modEcho ch (fun e => { e with confirmed := none, ecNew := false })
  match c.echo.confirmed with
  | none => s1
  | some (p1, p2, gen) =>
    if c.echo.ecNew || gen != c.echo.placeGen || c.ecs.fixed then s1
    else
      let w0 := windowAt c.ecs p1
      let now0 := if moveOf c.echo.win0 w0 = .stay then c.echo.win0 else w0
      (s1.placeWindows ch moveOf w0 (windowOne c.ecs now0 p2)).modEcho ch (fun e => { e with placed := true })

/-! ### Woad (R160-R164) -/

/-- A track low-passed and decimated to 2 kHz (R160): `n` values from time `u` on, of what the searcher has had since `from_`. -/
def decimate (fs per : Nat) (t : Track) (from_ u : Int) (n : Nat) : List Int :=
  let h := Config.woadFilter fs
  let step := 500000 / per
  let raw := t.window per (u - h.length * per) (h.length + n * step)
  (List.range n).map (fun (i : Nat) =>
    if u + 500000 * (i : Int) < from_ then 0 else
    -- Value `i` stands at raw[h.length + i * step]; the response reaches back from it.
    (((raw.drop (1 + i * step)).take h.length).reverse.zip h).foldl (fun (a : Int) (p : Int × Int) => a + p.1 * p.2) 0)

/-- The normalised correlation of two runs in 1/256 units, without sign: DEDUCED (log 107). -/
def correlation (a b : List Int) : Nat :=
  let p := ((a.zip b).foldl (fun (s : Int) (x : Int × Int) => s + x.1 * x.2) 0).natAbs
  let q := energy a * energy b
  if q = 0 then 0 else searchUp (fun k => decide (k * k * q ≤ 65536 * (p * p))) 9 0

/-- Reference at the canceller's own time (R378): time of A less `rinDiff` is time of the peer. -/
def rinTime (c : Chan) (u : Int) : Int := u - c.echo.rinDiff.getD 0

/-- Rin counts as active: its level over 16 ms is -40 dBm0 or more (R168). One measure stands for R160, R161, R169 and R175 too: DEDUCED
(log 107). -/
def activeLevel (l : Int) : Bool := decide (-400 ≤ l)

/-- The search of a channel that falls at time `t`: correlation by lag, and for how many of the last 256 half-milliseconds Rin was active at
a lag. -/
def searchLags (c : Chan) (t : Nat) : List Nat × (Nat → Nat) :=
  let per := samplePeriod c
  let e := c.echo
  let start : Int := (t : Int) - ms 128
  let sins := decimate (cancellerFs c) per e.sin e.woadFrom start 256
  let rins := decimate (cancellerFs c) per e.rin (rinTime c e.woadFrom) (rinTime c (start - 500000 * 511)) 767
  let at_ := fun (lag : Nat) => (rins.drop (511 - lag)).take 256
  let active := fun (lag : Nat) => ((List.range 256).filter (fun (i : Nat) =>
    let u := start + 500000 * ((i : Int) + 1) - 500000 * (lag : Int)
    decide ((e.woadFrom : Int) < u) && activeLevel (level (e.rin.window per (rinTime c u - ms 16) (32 * halfMs c))))).length
  ((List.range (min 512 c.ecs.tailMax)).map (fun lag => correlation sins (at_ lag)), active)

/-- The lag of the highest normalised correlation, the lowest one of equals (DESIGN CHOICE, log 107), and that correlation. -/
def peakOf (l : List Nat) : Nat × Nat :=
  (l.zipIdx).foldl (fun a x => if x.1 > a.2 then (x.2, x.1) else a) (0, 0)

/-- P2: the highest lag at least 64 lags from P1 with at least half its correlation (R161; DEDUCED, log 21). -/
def secondPeak (l : List Nat) (p1 c1 : Nat) : Option (Nat × Nat) :=
  ((l.zipIdx).filter (fun x => decide (apart x.2 p1 ≥ 64) && decide (2 * x.1 ≥ c1))).getLast?.map (fun x => (x.2, x.1))

/-- What a search yields (R161): P1 and P2 with their correlations, or no estimate. -/
def searchResult (c : Chan) (thresh t : Nat) : Option ((Nat × Nat) × Option (Nat × Nat)) :=
  let (lags, active) := searchLags c t
  let p1 := peakOf lags
  if c.echo.disabled || active p1.1 < 128 || p1.2 < thresh then none
  else some (p1, secondPeak lags p1.1 p1.2)

/-- The search interval of a quadrant that serves `n` channels, ns (R163): stretched beyond 32,768, rounded up to 1 ms. -/
def searchInterval (n : Nat) : Nat := if n ≤ 32768 then ms 125 else ms ((125 * n + 32767) / 32768)

/-- One Woad search of a channel (R160-R164) by the searcher of quadrant `q`, once it is due: the estimate, its confirmation, the counters
of the quadrant and of the channel, and the next search. A stretched interval is counted at the search that begins it: DESIGN CHOICE
(log 107). -/
def woadSearch (ch q : Nat) (s : State) : State :=
  let c := s.chan ch
  if c.echo.quadrant != some q || !c.ecs.ecOn || s.tbVal c.tb < c.echo.nextSearch then s else
  let n := s.woadLoad q
  let s1 := (s.bump wodSearches q).modChan ch (fun c => { c with
    echo := { c.echo with nextSearch := c.echo.nextSearch + searchInterval n }, stats := { c.stats with searches := c.stats.searches + 1 } })
  let s2 := if n > 32768 then s1.bump wodStretch q else s1
  match searchResult c (s.rd wodThresh) c.echo.nextSearch with
  | none => s2.bump wodNoEst q
  | some (p1, p2) =>
    let s3 := s2.modEcho ch (fun e => { e with lastP1 := some p1.1, lastP2 := p2.map (·.1), p1Corr := p1.2, p2Corr := (p2.map (·.2)).getD 0 })
    let agrees := c.echo.lastP1.any (fun p => decide (apart p p1.1 ≤ s.rd wodConfirmTol))
    if !agrees then s3 else
    let s4 := (s3.bump wodConfirmed q).modChan ch (fun c => { c with stats := { c.stats with confirms := c.stats.confirms + 1 } })
    s4.modEcho ch (fun e => { e with confirmed := some (p1.1, p2.map (·.1), e.placeGen) })

def execWoadSearch (ch : ChanId) (q : Fin 4) (s : State) : Out := .next (s.whileOn [29] (woadSearch ch.val q.val))

/-- A job of the channel at tick `t` is served by the searcher of its engine's quadrant (R160, R164): a new searcher has no history, and
its first search comes 125 ms after the first job it serves. -/
def State.servedBy (s : State) (ch q t : Nat) : State :=
  if (s.chan ch).echo.quadrant = some q then s
  else s.modEcho ch (fun e => { e with quadrant := some q, nextSearch := t + ms 125, woadFrom := t })

/-! ### EC_SET (R158, R159, R166) -/

/-- EC_SET (R34, R158). -/
def applyEcho (c : HostCmd) (s : State) : Reply :=
  let ch := bits c.w1.toNat 0 16
  match s.groupsOf c [7] [7] with
  | .error d => .refuse stBAD_PARAM d
  | .ok gs =>
    let g := grp gs 7
    let st := (s.chan ch).st
    match firstFail (echoChecks g ++ [(st != .open && st != .bound, stBAD_STATE, 0)]) with
    | some (e, d) => .refuse e d
    | none => .publish ((s.modChan ch (withEcho (echoOf g) (g.f 0 3 1 = 1))).settleEcho ch).replan [ch]

def ecSet (c : HostCmd) (s : State) : State := runCommand c 0x22 [(1, 0xFFFF)] true (applyEcho c) s

def execEcSet (c : HostCmd) (s : State) : Out := .next (ecSet c s)

/-! ### The tone disabler (R177) -/

/-- The 2100 Hz tone counts as there: within 21 Hz at -31 dBm0 and above always, 40 Hz off or at -36 dBm0 and below never, between them as
a free value decides (Table 10.2, log 2). -/
def toneSeen (freq : Nat) (level : Int) (free : Nat) : Bool :=
  let off := apart freq 21000
  if off ≤ 210 && decide (level ≥ -310) then true else if 400 ≤ off || decide (level ≤ -360) then false else Config.freeNat free % 2 == 1

/-- A block of 5 ms that ends at `t`, as the detector of one signal measures it: what it follows then, whether a second reversal 450 ms
after the first has come, within 1 s of the onset (later: as a free value decides), and whether the tone has lasted 400 ms. -/
def ansStep (t free : Nat) (o : AnsBlock) (k : AnsTrack) : AnsTrack × Bool × Bool :=
  if !toneSeen o.freq o.level free then (if 20 ≤ k.gap + 5 then ({}, false, false) else ({ k with gap := k.gap + 5 }, false, false)) else
  let since := k.since.getD (t - ms 5)
  let turned := decide (apart o.phase.natAbs 1800 ≤ 250)
  let second := turned && k.lastRev.any (fun r => decide (r + ms 425 ≤ t) && decide (t ≤ r + ms 475))
  ({ since := some since, lastRev := if turned then some t else k.lastRev, gap := 0 },
   second && (decide (t ≤ since + sec 1) || Config.freeNat (free + 1) % 2 == 1), decide (since + ms 400 ≤ t))

/-- The disabler over the blocks of a frame that begins at `t`: what is followed, and when it trips. -/
def ansRun (disabler t free : Nat) (obs : List AnsBlock) (e : Echo) : Echo × Option Nat :=
  (obs.zipIdx).foldl (fun a x =>
    -- Blocks of one signal stand in order; a block's number among those of its signal gives its end.
    let at_ := t + ms 5 * (1 + ((obs.take x.2).filter (fun o => o.rin = x.1.rin)).length)
    let r := ansStep at_ (free + 2 * x.2) x.1 (if x.1.rin then a.1.ansRin else a.1.ansSin)
    let trip := (disabler = 1 && r.2.1) || (disabler = 2 && r.2.2)
    (if x.1.rin then { a.1 with ansRin := r.1 } else { a.1 with ansSin := r.1 }, if trip && a.2.isNone then some at_ else a.2)) (e, none)

/-! ### The canceller of a job (R156, R157, R168-R179) -/

/-- What the canceller of a job works on: the channel as the job began, the start of its frame, the reference from 256 ms before that on,
how many of those samples the peer's jobs have produced, whether the codec's VAD flags the frame inactive, when the disabler trips, and
where its free values begin. -/
structure EchoJob where
  c      : Chan
  t      : Nat
  ref    : List Int
  made   : Nat
  quiet  : Bool
  trip   : Option Nat
  free   : Nat

/-- The canceller as it goes through a frame: its state, Sout, and the gain of the residual by sample, out of `8 * halfMs`. -/
structure EchoRun where
  c    : Chan
  out  : List Int := []
  gain : List Nat := []

/-- The filter as it goes through a block: coefficients of both windows, and the residuals so far, newest first. -/
structure Filter where
  c0  : List Word32
  c1  : List Word32
  res : List Int

/-- The reference under the taps of a window at sample `k`, newest first. -/
def EchoJob.under (j : EchoJob) (w k : Nat) : List Int :=
  let n := tapsOf j.c
  ((j.ref.drop (512 * halfMs j.c + k - w * halfMs j.c + 1 - n)).take n).reverse

/-- A window's echo estimate: coefficients in units of 2^-30. The scale is a DESIGN CHOICE (log 107). -/
def echoEstimate (c : List Word32) (xs : List Int) : Int := (c.zip xs).foldl (fun (a : Int) p => a + p.1.toInt * p.2) 0 / 2 ^ 30

/-- One sample of Sin: the residual is Sin less both estimates; where adaptation runs, the coefficients of each active window are
updated (R168). -/
def EchoJob.sample (j : EchoJob) (e : Echo) (adapts : Bool) (f : Filter) (x : Int × Nat) : Filter :=
  let n := tapsOf j.c
  let x0 := j.under e.win0 x.2
  let x1 := j.under e.win1 x.2
  let r := clampInt (-32768) 32767 (x.1 - (if e.win0Active then echoEstimate f.c0 x0 else 0) - (if e.win1Active then echoEstimate f.c1 x1 else 0))
  let next := fun (on : Bool) (c : List Word32) (xs : List Int) =>
    if on && adapts then fit 0 n ((Config.ipnlms (fit 0 n (c.map BitVec.toInt)) xs r).map (BitVec.ofInt 32)) else c
  { c0 := next e.win0Active f.c0 x0, c1 := next e.win1Active f.c1 x1, res := r :: f.res }

/-- Level of Rin over the newest 16 ms that sample `k` of the frame can look back on; what the peer's jobs have not produced yet does not
count until it is 60 ms late: DEDUCED (log 107). -/
def EchoJob.rinLevel (j : EchoJob) (k : Nat) : Int :=
  let m := halfMs j.c
  let stop := 512 * m + k
  let last := if stop ≤ j.made + 120 * m then min stop j.made else stop
  level (cut j.ref (last - 32 * m) (32 * m))

/-- Rin_max (R174): the highest level of a 2 ms block of Rin at delays from 0 to TAIL_MAX, for a block of Sin that ends at sample `k`. -/
def EchoJob.rinMax (j : EchoJob) (k : Nat) : Int :=
  let m := halfMs j.c
  levelOf ((List.range (j.c.ecs.tailMax / 4 + 1)).foldl (fun a i => max a (energy (cut j.ref (512 * m + k - 4 * m * (i + 1)) (4 * m)))) 0) (4 * m)

/-- The bands that comfort noise is made with (R176): the background, or -70 dBm0 flat before there is one, CNG_MAX at most in all. -/
def noiseBands (c : Chan) : List Nat :=
  let l := if c.echo.background.isEmpty then List.replicate 8 (powerBelow 70 / 8) else c.echo.background
  let sum := l.foldl (· + ·) 0
  let cap := powerBelow c.ecs.cngMax
  if sum ≤ cap then l else l.map (fun p => p * cap / sum)

/-- A block counts for ERLE and ERL (R169): the last 100 ms are kept, and how long ERLE has stood high or low. -/
def measure (m sinE resE rinE n : Nat) (e : Echo) : Echo :=
  let bs := (sinE, resE, rinE, n) :: e.blocks
  let have_ := bs.foldl (fun a b => a + b.2.2.2) 0
  -- Blocks beyond the last 100 ms go.
  let kept := if have_ - (bs.getLast?.map (·.2.2.2)).getD 0 ≥ 200 * m then bs.dropLast else bs
  let total := fun (f : Nat × Nat × Nat × Nat → Nat) => kept.foldl (fun a b => a + f b) 0
  if have_ < 200 * m then { e with blocks := kept } else
  let erle := tenthsDb (total (·.1)) (total (·.2.1))
  { e with blocks := kept, erle := (max 0 erle).toNat, erl := some (tenthsDb (total (·.2.2.1)) (total (·.1)))
           erleHigh := if 200 ≤ erle then e.erleHigh + n else 0, erleLow := if erle < 100 then e.erleLow + n else 0 }

/-- The disabler's release (R178): Sin and Rin below -36 dBm0 for 250 ms. -/
def released (e : Echo) (t : Nat) : Bool := e.quietSince.any (fun q => decide (q + ms 250 ≤ t))

/-- One block of 2 ms, `xs` from sample `k` of the frame (R168-R178). -/
def EchoJob.block (j : EchoJob) (r : EchoRun) (x : Nat × List Int) : EchoRun :=
  let c := r.c
  let e := c.echo
  let m := halfMs c
  let fs := cancellerFs c
  let n := x.2.length
  let stop := x.1 + n
  let from_ := j.t + x.1 * samplePeriod c
  let to_ := j.t + stop * samplePeriod c
  let sinE := energy x.2
  let sinL := levelOf sinE n
  let rinBlock := cut j.ref (512 * m + x.1) n
  let active := activeLevel (j.rinLevel stop)
  -- Double talk (R174): declared for the block and for 40 ms after it.
  let talks := c.ecs.ecOn && decide (sinL > j.rinMax stop - e.erl.getD 60 + 5 * (c.ecs.dtMargin : Int))
  let dtUntil := if talks then to_ + ms 40 else e.dtUntil
  let dt := decide (from_ < dtUntil)
  -- The disabler (R177, R178).
  let hush := decide (sinL < -360) && decide (level rinBlock < -360)
  let tripped := j.trip.any (fun t => decide (t ≤ from_))
  let quietSince := if e.disabled && hush then some (e.quietSince.getD from_) else none
  let disabled := (e.disabled && !released { e with quietSince := quietSince } to_) || tripped
  let c1 := { c with echo := { e with doubleTalk := dt, dtUntil := dtUntil, rinActive := active, disabled := disabled, quietSince := quietSince,
                                      nlpUntil := if active then to_ + ms 50 else e.nlpUntil } }
  let on := inPath c1
  -- The filter (R168) and what it shows (R169).
  let adapts := on && active && !dt && !c.ecs.freeze
  let f := if on then (x.2.zipIdx x.1).foldl (fun f y => j.sample e adapts f y) { c0 := e.coef0, c1 := e.coef1, res := [] } else { c0 := e.coef0, c1 := e.coef1, res := x.2.reverse }
  let res := f.res.reverse
  let e2 := { c1.echo with coef0 := f.c0, coef1 := f.c1 }
  let e3 := if on && active && !dt then measure m sinE (energy res) (energy (cut j.ref (512 * m + x.1) n)) n e2 else e2
  -- Comfort noise, NLP and the cross-fade over 4 ms (R175, R176).
  let bg := if !active && j.quiet then fit 0 8 (Config.background fs e.background x.2) else e.background
  let acts := nlpActs { c1 with echo := e3 } from_
  let full := 8 * m
  let steps := (List.range n).map (fun i => if !on then 0 else if acts then min full (e.fade + i + 1) else e.fade - (i + 1))
  let noise := noiseBands { c with echo := { e with background := bg } }
  let out := (res.zip steps).zipIdx.map (fun y =>
    let z := if c.ecs.nlpMode = 1 then Config.comfortNoise fs noise (j.free + x.1 + y.2) else 0
    clampInt (-32768) 32767 ((y.1.1 * (full - y.1.2 : Nat) + z * y.1.2) / full))
  let sb := (energy out, n) :: e.soutBlocks
  let part := n / (2 * m)
  { c := { c1 with
      echo := { e3 with background := bg, nlp := acts, fade := steps.getLastD e.fade, soutBlocks := sb.take 51 }
      stats := { c.stats with dtMs := c.stats.dtMs + part * b2n dt, nlpMs := c.stats.nlpMs + part * b2n acts, disabledMs := c.stats.disabledMs + part * b2n disabled } }
    out := r.out ++ out, gain := r.gain ++ steps.map (full - ·) }

/-- CONVERGED at a job's end (R169, R171): set after 100 ms with ERLE at 20 dB or more, which ends the hold; cleared after 500 ms below
10 dB. -/
def converge (m : Nat) (e : Echo) : Echo :=
  if 200 * m ≤ e.erleHigh then { e with converged := true, holdUntil := none }
  else if 1000 * m ≤ e.erleLow then { e with converged := false } else e

/-- Levels of the record (R182): mean power over 100 ms, Rin up to the end of the frame that the reference has. -/
def showLevels (rin : List Int) (e : Echo) : Echo :=
  { e with rinLevel := level rin, soutLevel := levelOf (e.soutBlocks.foldl (fun a b => a + b.1) 0) (e.soutBlocks.foldl (fun a b => a + b.2) 0) }

/-- What a job's canceller leaves: Sout, and by sample the gain of the band above 8 kHz (R157), out of 8 * halfMs. -/
structure EchoOut where
  out  : List Int
  gain : List Nat

/-- The canceller of a job (R156): `sin` its frame of `n` samples that begins at `t`, `quiet` the codec's VAD, `obs` the 2100 Hz detector.
Levels are measured whether it is in the path or not. -/
def State.cancel (s : State) (ch t : Nat) (sin : List Int) (quiet : Bool) (obs : List AnsBlock) : State × EchoOut :=
  let c := s.chan ch
  let m := halfMs c
  let per := samplePeriod c
  let n := sin.length
  let ref := c.echo.rin.window per (rinTime c t - ms 256) (512 * m + n)
  let made := match c.echo.rin.ending with
    | none => 0
    | some e => (((e : Int) - (rinTime c t - ms 256)) / per).toNat
  let (e1, trip) := ansRun c.ecs.disabler t s.freeCtr obs c.echo
  let tripNow := if c.ecs.ecOn && !c.echo.disabled then trip else none
  let c1 := { c with echo := { e1 with sin := e1.sin.push per t (toWords sin) } }
  let j : EchoJob := { c := c1, t := t, ref := ref, made := made, quiet := quiet, trip := tripNow, free := s.freeCtr + 64 }
  let r := (chunks (4 * m) (n + 1) 0 sin).foldl j.block { c := c1 }
  let e2 := converge m { r.c.echo with disabled := r.c.echo.disabled || tripNow.isSome }
  let c2 := { r.c with echo := showLevels (cut ref (512 * m - 200 * m) (200 * m)) e2, stats := { r.c.stats with trips := r.c.stats.trips + b2n tripNow.isSome } }
  let s1 := { s.setChan ch c2 with freeCtr := s.freeCtr + 64 + n }
  let s2 := match c.echo.quadrant, tripNow with
    | some q, some _ => s1.bump wodDisablerTrips q
    | _, _ => s1
  (s2.nlpUpdate ch, { out := r.out, gain := r.gain })

/-! ### The ends of holds -/

/-- 1 s after a reset of window 0, the NLP hold ends (R171). -/
def nlpHoldEnd (ch : Nat) (s : State) : State :=
  let c := s.chan ch
  match c.echo.holdUntil with
  | some t => if t ≤ s.tbVal c.tb then (s.modEcho ch (fun e => { e with holdUntil := none })).nlpUpdate ch else s
  | none => s

def execNlpHoldEnd (ch : ChanId) (s : State) : Out := .next (nlpHoldEnd ch.val s)

/-- 40 ms after the last block that met the condition, the declaration of double talk ends (R174). -/
def doubleTalkEnd (ch : Nat) (s : State) : State :=
  let c := s.chan ch
  if c.echo.doubleTalk && c.echo.dtUntil ≤ s.tbVal c.tb then (s.modEcho ch (fun e => { e with doubleTalk := false })).nlpUpdate ch else s

def execDoubleTalkEnd (ch : ChanId) (s : State) : Out := .next (doubleTalkEnd ch.val s)

/-- 50 ms after Rin fell below -40 dBm0, the NLP stops acting (R175). -/
def nlpHangEnd (ch : Nat) (s : State) : State :=
  let c := s.chan ch
  if c.echo.nlp && !c.echo.rinActive && c.echo.nlpUntil ≤ s.tbVal c.tb then s.nlpUpdate ch else s

def execNlpHangEnd (ch : ChanId) (s : State) : Out := .next (nlpHangEnd ch.val s)

/-- Sin and Rin have stayed below -36 dBm0 for 250 ms: the disabler releases (R178). -/
def disablerRelease (ch : Nat) (s : State) : State :=
  let c := s.chan ch
  if released c.echo (s.tbVal c.tb) then (s.modEcho ch (fun e => { e with disabled := false, quietSince := none })).nlpUpdate ch else s

def execDisablerRelease (ch : ChanId) (s : State) : Out := .next (disablerRelease ch.val s)

end Sys2Proof.Machine
end

