-- ==== Sys2Proof/Machine/Glaze.lean ====
section
/-! DEFINITION. Glaze (spec/09_filter_resampler.md): coefficient sets and banks, bank swaps, descriptors and the
conversion of a lane. Samples are integers; `Tbl` and `List` hold them oldest first. -/

namespace Sys2Proof.Machine

/-! ### Rates and sets (R210, R211, R213, R218) -/

/-- kHz of a rate code. -/
def rateKhz (f : Nat) : Nat := if f = 0 then 8 else if f = 1 then 16 else if f = 2 then 32 else 48

/-- L and M of a rate pair. -/
def upOf (fin fout : Nat) : Nat := rateKhz fout / Nat.gcd (rateKhz fin) (rateKhz fout)
def downOf (fin fout : Nat) : Nat := rateKhz fin / Nat.gcd (rateKhz fin) (rateKhz fout)

/-- The set is valid: 8 to 128 taps, and L and M of some allowed pair (R213). -/
def CoefSet.valid (c : CoefSet) : Bool :=
  decide (8 ≤ c.n) && decide (c.n ≤ 128) &&
  [(1, 1), (2, 1), (4, 1), (6, 1), (3, 1), (3, 2), (1, 2), (1, 4), (1, 6), (1, 3), (2, 3)].contains (c.l, c.m)

/-- A filter as a conversion uses it: taps, shift, coefficients; equal-rate factory conversion is the identity. -/
structure Fir where
  n     : Nat
  shift : Nat
  coef  : List Int
  unity : Bool := false

/-- The factory set of a pair, the same for both directions (R211). SHIFT, which a set of the banks carries too, goes by direction: DEDUCED
(log 110). -/
def factoryFir (fin fout : Nat) : Fir :=
  let n := factoryTaps fin fout
  if fin = fout then { n := 1, shift := 0, coef := [1], unity := true }
  else { n := n, shift := Config.factoryShift fin fout, coef := (List.range n).map (fun k => (Config.factoryCoef (min fin fout) (max fin fout) k).toInt) }

/-- The filter of set `idx` in `bank` for a pair, and whether the factory set stands in for it (R213). -/
def Glaze.fir (g : Glaze) (bank idx fin fout : Nat) : Fir × Bool :=
  if idx = 0xFF then (factoryFir fin fout, false) else
  let c := tget g.sets (bank * 64 + idx) {}
  if c.valid && c.l = upOf fin fout && c.m = downOf fin fout
  then ({ n := c.n, shift := c.shift, coef := c.coef.map BitVec.toInt }, false)
  else (factoryFir fin fout, true)

/-! ### Arithmetic -/

/-- Saturation to `n` bits. -/
def satInt (n : Nat) (v : Int) : Int := clampInt (-(2 ^ (n - 1) : Nat)) ((2 ^ (n - 1) : Nat) - 1) v

/-- The median of a list. -/
def medianOf (l : List Int) : Int := (l.mergeSort).getD (l.length / 2) 0

/-- The rank stage (R214): `hist` are the six samples before the input. -/
def rankStage (rank thresh : Nat) (hist xs : List Int) : List Int :=
  let all := hist ++ xs
  (List.range xs.length).map (fun i =>
    let win := (all.drop (6 + i + 1 - rank)).take rank
    let x := win.getD (rank / 2) 0
    let m := medianOf win
    if (x - m).natAbs > thresh then m else x)

/-- One output of the polyphase FIR at prototype time `t` (R210): `all` are 128 samples of history and the input. A sum
that leaves the 40-bit accumulator has no stated value: a free one (log 2). -/
def firOut (f : Fir) (l t : Nat) (all : List Int) (free : Nat) : Int :=
  if f.unity then all.getD (128 + t) 0 else
  let sum := (List.range f.n).foldl (fun a k =>
    let p := t + 128 * l - k
    if p % l = 0 then a + f.coef.getD k 0 * all.getD (p / l) 0 else a) 0
  let v := sum * (2 ^ f.shift : Nat)
  let held := if -(2 ^ 39 : Nat) ≤ v && v < (2 ^ 39 : Nat) then v else signed 40 (Config.freeNat free)
  satInt 16 ((held + 2 ^ 14) / 2 ^ 15)

/-- The faded output (R219): position `p` of a fade of `x` samples, rounded half up. -/
def fadeOut (old new : Int) (p x : Nat) : Int :=
  (2 * (old * (x + 1) + (new - old) * (p + 1)) + (x + 1)) / (2 * (x + 1))

/-! ### Bank control (R218-R220) -/

/-- A request takes effect (R219). -/
def State.swapNow (s : State) (target xfade : Nat) : State :=
  let s1 := s.wr glzSwapDone 1
  if target = s.rd glzActiveBank then s1
  else
    let s2 := (s1.wr glzActiveBank target).bump glzSwaps
    { s2 with glaze := { s2.glaze with fadeEnd := some (s.now + ms 128), xfade := xfade, swaps := s2.glaze.swaps + 1 } }

/-- A write to GLZ_BANK_CTL (R219, R220). SWAP = 1 makes a request with the TARGET and XFADE of the write; held while
FADING. A write whose XFADE is out of range makes none: DEDUCED (log 23). -/
def glzBankWrite (addr width v : Nat) (s : State) : State :=
  let s1 := (s.writeReg addr width v).wr glzSwap 0
  let bits0 := accessBits addr width
  let lowHalf := decide (bits0.1 = 0)
  if !goodAccess addr width || !lowHalf || !bit v 4 || bits v 16 9 > 256 then s1
  else if s.glaze.fadeEnd.isSome then { s1 with glaze := { s1.glaze with heldReq := some (bits v 5 1, bits v 16 9) } }
  else s1.swapNow (bits v 5 1) (bits v 16 9)

def execGlzBankSwap (width : Nat) (value : Word64) (s : State) : Out := .next (glzBankWrite 0x80000 width value.toNat s)

/-- 128 ms after a swap point FADING clears, and a held request takes effect at once (R219, R220). -/
def fadingEnd (s : State) : State :=
  match s.glaze.fadeEnd with
  | none => s
  | some t =>
    if s.now < t then s else
    let s1 := { s with glaze := { s.glaze with fadeEnd := none, heldReq := none } }
    match s.glaze.heldReq with
    | none => s1
    | some (target, xfade) => s1.swapNow target xfade

def execFadingEnd (s : State) : Out := .next (fadingEnd s)

/-- The 16-bit word at half-word `i` of a set's 512 bytes. -/
def CoefSet.half (c : CoefSet) (i : Nat) : Nat :=
  if i = 0 then c.n + c.l * 256 + c.m * 4096
  else if i = 1 then c.shift
  else if 128 ≤ i then (c.coef.getD (i - 128) 0).toNat else 0

/-- A set with half-word `i` written. -/
def CoefSet.setHalf (c : CoefSet) (i v : Nat) : CoefSet :=
  if i = 0 then { c with n := bits v 0 8, l := bits v 8 3, m := bits v 12 3 }
  else if i = 1 then { c with shift := bits v 0 2 }
  else if 128 ≤ i && i < 256 then { c with coef := (c.coef ++ List.replicate (128 - c.coef.length) 0).set (i - 128) (BitVec.ofNat 16 v) }
  else c

/-- A write to the GLZ_COEF window goes to the inactive bank; while FADING or PENDING it is ignored and sets CFG_ERR
(R218). `off` is the byte offset in the window. -/
def State.coefWrite (s : State) (off width v : Nat) : State :=
  if s.glaze.fadeEnd.isSome || s.glaze.heldReq.isSome then s.wr glzCfgErr 1 else
  let key := (1 - s.rd glzActiveBank) * 64 + off / 512
  let c := (List.range (width / 16)).foldl (fun (c : CoefSet) i => c.setHalf (off % 512 / 2 + i) (bits v (16 * i) 16)) (tget s.glaze.sets key {})
  { s with glaze := { s.glaze with sets := tset s.glaze.sets key c {} } }

/-- A read of the GLZ_COEF window (R218). -/
def State.coefRead (s : State) (off width : Nat) : Nat :=
  let c := tget s.glaze.sets ((1 - s.rd glzActiveBank) * 64 + off / 512) {}
  (List.range (width / 16)).foldl (fun a i => a + c.half (off % 512 / 2 + i) * 2 ^ (16 * i)) 0

/-! ### Descriptors (R221, R222) -/

/-- A 32-bit word of an engine memory at a byte address; bits above [17] are ignored (R272). -/
def memWord (m : Tbl Word32) (a : Nat) : Nat := (tget m (a % 2 ^ 18 / 4) 0).toNat

/-- A 16-bit sample of an engine memory. -/
def memSample (m : Tbl Word32) (a : Nat) : Int := signed 16 (memWord m a / (if bit a 1 then 65536 else 1) % 65536)

/-- Write a 16-bit value into an engine memory. -/
def memPut16 (m : Tbl Word32) (a v : Nat) : Tbl Word32 :=
  let w := memWord m a
  let n := if bit a 1 then w % 65536 + 65536 * (v % 65536) else w / 65536 * 65536 + v % 65536
  tset m (a % 2 ^ 18 / 4) (BitVec.ofNat 32 n) 0

/-- A descriptor (Table 9.3). -/
structure GlzDesc where
  mask   : Nat
  fin    : Nat
  fout   : Nat
  late   : Bool
  nIn    : Nat
  inBase : Nat
  inStep : Nat
  outBase : Nat
  outStep : Nat
  base   : Nat
  index  : List Nat

/-- The descriptor at an XMEM address. -/
def glzDescAt (x : Tbl Word32) (a : Nat) : GlzDesc :=
  let w := fun i => memWord x (a + 4 * i)
  { mask := bits (w 0) 0 16, fin := bits (w 0) 16 2, fout := bits (w 0) 18 2, late := bit (w 0) 20, nIn := bits (w 1) 0 12
    inBase := bits (w 2) 0 18, inStep := bits (w 3) 0 18, outBase := bits (w 4) 0 18, outStep := bits (w 5) 0 18, base := w 6
    index := (List.range 16).map (fun k => w (16 + k)) }

/-- Outputs of a lane. -/
def GlzDesc.nOut (d : GlzDesc) : Nat := d.nIn * upOf d.fin d.fout / downOf d.fin d.fout

/-- Where the completion stands: after the sixteen lanes' output area. DEDUCED (log 22). -/
def GlzDesc.doneAt (d : GlzDesc) : Nat := d.outBase + 16 * d.outStep

/-- R222: the descriptor is accepted. -/
def GlzDesc.ok (d : GlzDesc) : Bool :=
  decide (40 ≤ d.nIn) && decide (d.nIn ≤ 2880) && d.nIn % downOf d.fin d.fout = 0 && decide (d.doneAt + 64 ≤ 2 ^ 18) &&
    (List.range 16).all (fun k => !bit d.mask k || decide (d.outBase + k * d.outStep + 2 * d.nOut ≤ 2 ^ 18))

/-! ### A lane's conversion (R213-R220) -/

/-- The lane's state as its conversion begins: history reset where R216 says so, and the fade position of a swap that
it has not yet seen. -/
def laneStart (d : GlzDesc) (j : GlzJob) (index : Nat) (l : LaneState) : LaneState × Bool :=
  let pair := d.fin * 4 + d.fout
  let reset := !l.valid || l.nextIndex.toNat != index || l.rates != pair
  let base := if reset then { l with hist := [], rankHist := [], rates := pair, valid := true } else l
  let seen := if base.swapSeen = j.swaps then base
    else { base with swapSeen := j.swaps, fadePos := match j.fade with | some _ => 0 | none => 256 }
  (seen, reset)

/-- A history list padded in front to `n` samples. -/
def padHist (n : Nat) (l : List Word16) : List Int := List.replicate (n - l.length) 0 ++ l.map BitVec.toInt

def toSamples (l : List Int) : List Word16 := l.map (fun v => BitVec.ofInt 16 v)

/-- What a lane's conversion comes to: outputs, unsettled count, mismatch, whether history was reset, the new state. -/
structure LaneOut where
  out      : List Int
  unsettled : Nat
  mismatch : Bool
  reset    : Bool
  state    : LaneState

/-- One lane converts (R210-R219). -/
def convertLane (g : Glaze) (gs : GlazeSet) (d : GlzDesc) (j : GlzJob) (index free : Nat) (xs : List Int) (l0 : LaneState) : LaneOut :=
  let (l, reset) := laneStart d j index l0
  let idx := if d.late then gs.setTx else gs.setEc
  let rank := if d.late then 0 else gs.rank
  let up := upOf d.fin d.fout
  let down := downOf d.fin d.fout
  let raw := padHist 6 l.rankHist
  let ins := if rank = 0 then xs else rankStage rank gs.rankThresh raw xs
  let all := padHist 128 l.hist ++ ins
  let new := g.fir j.bank idx d.fin d.fout
  let old := g.fir (1 - j.bank) idx d.fin d.fout
  let fade := j.fade.getD g.xfade
  let outs := (List.range d.nOut).map (fun m =>
    let yn := firOut new.1 up (m * down) all (free + 2 * m)
    if l.fadePos + m < fade then fadeOut (firOut old.1 up (m * down) all (free + 2 * m + 1)) yn (l.fadePos + m) fade else yn)
  let u := if reset then (((new.1.n - 1) + (rank - 1) * up) + (2 * down - 1)) / (2 * down) else l.unsettledLeft
  { out := outs, unsettled := min u d.nOut, mismatch := new.2, reset := reset
    state := { l with hist := toSamples (all.drop (all.length - 128)), rankHist := toSamples ((raw ++ xs).drop xs.length)
                      nextIndex := BitVec.ofNat 32 (index + d.nIn), unsettledLeft := u - min u d.nOut
                      fadePos := min 256 (l.fadePos + d.nOut) } }

/-! ### Start and completion -/

/-- The skein of a descriptor where it still runs on its engine or is suspended there. -/
def State.jobSkein (s : State) (j : GlzJob) : Option Skein :=
  let m := s.me j.engine
  (m.running.toList ++ m.suspended.toList).find? (fun k => k.num = j.skein)

/-- The descriptor's skein is suspended: its registers are the saved ones (R302). -/
def State.jobSuspended (s : State) (j : GlzJob) : Bool := (s.me j.engine).suspended.any (fun k => k.num = j.skein)

/-- The registers of the descriptor's skein. -/
def State.jobEng (s : State) (j : GlzJob) : Engine := if s.jobSuspended j then tget s.saved j.engine {} else s.eng j.engine

/-- Change the registers of the descriptor's skein; none of its own are left where it has ended. -/
def State.modJobEng (s : State) (j : GlzJob) (f : Engine → Engine) : State :=
  if s.jobSuspended j then { s with saved := tmod s.saved j.engine {} f }
  else if (s.jobSkein j).isSome then s.modEng j.engine f else s

/-- The address of a lane's state (Table 9.3). -/
def GlzDesc.stateAt (d : GlzDesc) (lane : Nat) : Nat := (d.base + 288 * lane) % 2 ^ 32

/-- The channel of a lane of the descriptor's skein. -/
def State.jobChan (s : State) (j : GlzJob) (lane : Nat) : Chan :=
  match (s.jobSkein j).bind (fun k => k.tasks[lane]?) with
  | none => {}
  | some t => s.chan t.ch

/-- The unit of a cluster takes the oldest descriptor (R209): it reads the lane states, as the job has left them or as its channel's context
holds them (R215), and the swap point it starts after is fixed now (R219). -/
def glazeStart (k : Nat) (s : State) : State :=
  match tget s.glaze.queues k [] with
  | [] => s
  | j :: r =>
    if j.started then s else
    let d := glzDescAt (s.eng j.engine).xmem j.addr
    let x := s.jobEng j
    let lanes := (List.range 16).map (fun lane => (lane, tget (tget x.glzLanes lane []) (d.stateAt lane) (tget (s.jobChan j lane).ctx.lanes (d.stateAt lane) {})))
    let j1 := { j with started := true, lanes := lanes, bank := s.rd glzActiveBank, swaps := s.glaze.swaps, fade := if s.glaze.fadeEnd.isSome then some s.glaze.xfade else none }
    { s with glaze := { s.glaze with queues := tset s.glaze.queues k (j1 :: r) [] } }

def execGlazeDescriptorStart (k : ClusterId) (s : State) : Out := .next (s.whileOn [29] (glazeStart k.val))

/-- Write 16-bit values from a byte address up. -/
def memPutList : Tbl Word32 → Nat → List Nat → Tbl Word32
  | m, _, [] => m
  | m, a, v :: r => memPutList (memPut16 m a v) (a + 2) r

/-- The lanes of an accepted descriptor convert: YMEM, the lane states of the job, and the counters of the unit. -/
def State.glazeLane (k : Nat) (j : GlzJob) (d : GlzDesc) (s : State) (lane : Nat) : State :=
  if !bit d.mask lane then s else
  let e := s.eng j.engine
  let c := s.jobChan j lane
  let xs := (List.range d.nIn).map (fun i => memSample e.xmem (d.inBase + lane * d.inStep + 2 * i))
  let r := convertLane s.glaze ((c.job.map (·.gls)).getD c.gls) d j (d.index.getD lane 0) s.freeCtr xs (tget j.lanes lane {})
  let y1 := memPutList e.ymem (d.outBase + lane * d.outStep) (r.out.map (wrapInt 16))
  let y2 := memPut16 y1 (d.doneAt + 2 * lane) r.unsettled
  let y3 := if r.mismatch then memPut16 y2 (d.doneAt + 32) (memWord y2 (d.doneAt + 32) % 65536 ||| 2 ^ lane) else y2
  let s1 := (s.modEng j.engine (fun x => { x with ymem := y3 })).modJobEng j (fun x => { x with
    glzLanes := tset x.glzLanes lane (tins (tget x.glzLanes lane []) (d.stateAt lane) r.state) []
    glzUnsettled := tset x.glzUnsettled lane (tget x.glzUnsettled lane 0 + r.unsettled) 0 })
  let s2 := { s1 with freeCtr := s1.freeCtr + 2 * d.nOut }
  ((s2.bump glzLanes k).bumpBy glzResets (b2n r.reset) k).bumpBy glzSetMismatch (b2n r.mismatch) k

/-- The started descriptor of a cluster completes (R209, R221, R222): outputs and completion are written, DONE is set, the skein that issued
it sees it, and the engine may issue another, whatever runs there now. The settings are those of the lane's job (R37, R212). -/
def glazeComplete (k : Nat) (s : State) : State :=
  match tget s.glaze.queues k [] with
  | [] => s
  | j :: r =>
    if !j.started then s else
    let d := glzDescAt (s.eng j.engine).xmem j.addr
    let s1 := { s with glaze := { s.glaze with queues := tset s.glaze.queues k r [] } }
    let clear := fun (y : Tbl Word32) => memPutList y d.doneAt (List.replicate 32 0)
    let s2 := s1.modEng j.engine (fun x => { x with ymem := clear x.ymem })
    let s3 := if d.ok then (List.range 16).foldl (State.glazeLane k j d) s2 else s2.bump glzDescErr k
    let s4 := (s3.bump glzDescriptors k).modEng j.engine (fun x => { x with ymem := memPut16 x.ymem (d.doneAt + 34) (if d.ok then 1 else 3) })
    let free := fun (x : Engine) => { x with glzBusy := false }
    let s5 := { s4.modEng j.engine free with saved := s4.saved.map (fun (e : Nat × Engine) => if e.1 = j.engine then (e.1, free e.2) else e) }
    s5.modJobEng j (fun x => { x with irqGlz := true })

def execGlazeDescriptorComplete (k : ClusterId) (s : State) : Out := .next (s.whileOn [29] (glazeComplete k.val))

end Sys2Proof.Machine
end

