-- ==== Sys2Proof/Machine/Tones.lean ====
section
/-! DEFINITION. Tone detection and generation (spec/10_tones.md): the verdict on a signal, declarations and ends, RFC 4733
events sent and received, generation queues, TONE_SET and TONE_GEN. -/

namespace Sys2Proof.Machine

def State.modTone (s : State) (ch : Nat) (f : Tone → Tone) : State := s.modChan ch (fun c => { c with tone := f c.tone })

/-! ### Codes (Table 10.1) -/

/-- Class of a code: its bit of DET_MASK and NOTIFY (Table 10.4). -/
def toneClass (code : Nat) : Nat :=
  if code ≤ 15 then 0
  else if code = 0xE0 || (32 ≤ code && code ≤ 36) then 5
  else if code = 0xE1 || code = 0xE2 then 6
  else if code = 0xE4 then 7
  else if code < 0x90 then 1 else if code < 0xA0 then 2 else if code < 0xC0 then 3 else 4

/-- The ANS family. -/
def isAns (code : Nat) : Bool := 32 ≤ code && code ≤ 35

/-- Codes the detectors declare. -/
def isDetected (code : Nat) : Bool :=
  code ≤ 15 || (32 ≤ code && code ≤ 36) || (0x80 ≤ code && code ≤ 0x8E) || (0x90 ≤ code && code ≤ 0x9E) ||
    (0xA0 ≤ code && code ≤ 0xAE) || (0xC0 ≤ code && code ≤ 0xE2) || code = 0xE4

/-- Codes that TONE_GEN generates. -/
def isGenerated (code : Nat) : Bool := isDetected code && !(0xE0 ≤ code && code ≤ 0xE2)

/-- Two codes of one family, in which at most one signal is active (R230, R232, Table 10.2). -/
def sameFamily (a b : Nat) : Bool :=
  (isAns a && isAns b) || (toneClass a = toneClass b && (toneClass a ≤ 4 || toneClass a = 6))

/-! ### The verdict (R229, R232, Table 10.2) -/

/-- Duration in ms of segment k of definition d. -/
def State.cpSeg (s : State) (d k : Nat) : Nat :=
  s.rd (match k with
    | 0 => cptSegA0 | 1 => cptSegA1 | 2 => cptSegA2 | 3 => cptSegA3
    | 4 => cptSegB0 | 5 => cptSegB1 | 6 => cptSegB2 | _ => cptSegB3) d

/-- A segment matches within CTOL x 5 percent or 20 ms (R232). -/
def segMatches (ctol want got : Nat) : Bool := decide (apart want got ≤ max (ctol * want / 20) 20)

/-- Every segment so far matches the cadence. -/
def State.cadenceHolds (s : State) (d : Nat) (segs : List Nat) : Bool :=
  (segs.zipIdx).all (fun x => segMatches (s.rd cptCtol d) (s.cpSeg d (x.2 % s.rd cptNseg d)) x.1)

/-- Limits of a signal: frequency, level, twist (forward, reverse) and duration, each inside which it is detected and at or
beyond which it is never declared. -/
structure Limits where
  freq  : Nat × Nat
  level : Int × Int
  fwd   : Int × Int
  rev   : Int × Int
  dur   : Nat × Nat

/-- The row of Table 10.2 for a code under a channel's settings. -/
def State.limitsOf (s : State) (t : ToneSet) (code : Nat) : Limits :=
  let any : Int × Int := (100000, 100000)
  match toneClass code with
  | 0 =>
    let m : Int := -10 * (t.dtmfMin : Int)
    { freq := (15, 35), level := (m, m - 100), fwd := (5 * t.twistFwd, 5 * t.twistFwd + 20), rev := (5 * t.twistRev, 5 * t.twistRev + 20), dur := (40, 20) }
  | 1 => { freq := (15, 35), level := (-250, -350), fwd := (60, 80), rev := (60, 80), dur := (if code = 0x8A then 55 else 30, 10) }
  | 2 | 3 => { freq := (10, 30), level := (-350, -420), fwd := (50, 70), rev := (50, 70), dur := (20, 7) }
  | 4 =>
    let d := code - 0xC0
    let m : Int := -10 * (s.rd cptMinLevel d : Int)
    let steady := if s.rd cptNseg d = 1 then s.cpSeg d 0 else 0
    { freq := (5 * s.rd cptFtol d, 10 * s.rd cptFtol d), level := (m, m - 100), fwd := (100, 100000), rev := (100, 100000), dur := (steady, steady - 1) }
  | 5 =>
    if code = 36 then { freq := (38, 60), level := (-430, -480), fwd := any, rev := any, dur := (400, 250) }
    else if code = 0xE0 then { freq := (10, 30), level := (-430, -480), fwd := any, rev := any, dur := (80, 79) }
    else { freq := (21, 40), level := (-310, -360), fwd := any, rev := any, dur := (400, 250) }
  | 6 => { freq := (10, 30), level := (-430, -480), fwd := any, rev := any, dur := (0, 0) }
  | _ => { freq := (20, 50), level := (-300, -400), fwd := any, rev := any, dur := (30, 10) }

/-- The signal is inside every "detected" limit. -/
def Limits.inside (l : Limits) (o : ToneObs) : Bool :=
  decide (o.freqDev ≤ l.freq.1) && decide (o.level ≥ l.level.1) && decide (o.twist ≤ l.fwd.1) && decide (-o.twist ≤ l.rev.1) && decide (o.durMs ≥ l.dur.1)

/-- The signal is beyond some "never" limit. -/
def Limits.beyond (l : Limits) (o : ToneObs) : Bool :=
  decide (o.freqDev ≥ l.freq.2) || decide (o.level ≤ l.level.2) || decide (o.twist > l.fwd.2) || decide (-o.twist > l.rev.2) ||
    (l.dur.1 != 0 && decide (o.durMs ≤ l.dur.2))

/-- A cadence that is not whole yet is never declared (R232). -/
def State.cadenceReady (s : State) (o : ToneObs) : Bool :=
  let d := o.code - 0xC0
  toneClass o.code != 4 || s.rd cptNseg d ≤ 1 ||
    (decide (o.segs.length ≥ s.rd cptNseg d * s.rd cptRepeat d) && s.cadenceHolds d (o.segs.take (s.rd cptNseg d * s.rd cptRepeat d)))

/-- The verdict on a signal: yes, no, or not specified. -/
def State.verdict (s : State) (t : ToneSet) (o : ToneObs) : Option Bool :=
  let l := s.limitsOf t o.code
  if l.beyond o || !s.cadenceReady o then some false else if l.inside o then some true else none

/-- The detector of a code runs (R233, R234, R244). -/
def State.detects (s : State) (c : Chan) (code : Nat) : Bool :=
  let k := toneClass code
  isDetected code && c.tns.detMask.getLsbD k && (k != 4 || (c.tns.cpMask.getLsbD (code - 0xC0) && s.flag cptValid (code - 0xC0))) &&
    (c.vbd.state = 0 || k ≥ 5)

/-- Two codes have the same frequencies (R227). -/
def State.sameTones (s : State) (a b : Nat) : Bool :=
  a = b || (isAns a && isAns b) ||
    (toneClass a = 4 && toneClass b = 4 && s.rd cptF1 (a - 0xC0) = s.rd cptF1 (b - 0xC0) && s.rd cptF2 (a - 0xC0) = s.rd cptF2 (b - 0xC0))

/-- The signal is the channel's own generated one coming back (R227). -/
def State.ownEcho (s : State) (c : Chan) (o : ToneObs) : Bool :=
  c.tone.echoed.any (fun e => decide (s.now < e.2.2) && s.sameTones e.1 o.code &&
    decide (o.level ≤ e.2.1 - c.echo.erl.getD 60 + 60))

/-- Gap in ms that ends a signal (Table 10.2). -/
def gapLimit (code : Nat) : Nat :=
  match toneClass code with
  | 2 | 3 => 7
  | 5 => if code = 0xE0 then 1 else 20
  | 6 => 1
  | _ => 10

/-! ### The TONE word and notices (R235, R433) -/

/-- An event begins: the TONE word shows it. -/
def toneWordStart (code : Nat) (rx : Bool) (t : Tone) : Tone :=
  { t with lastEvent := code, lastIsRx := rx, eventActive := true, eventCount := t.eventCount + 1, eventFresh := true }

/-- The event that the TONE word shows ends. -/
def toneWordEnd (code : Nat) (rx : Bool) (t : Tone) : Tone :=
  if t.lastEvent = code && t.lastIsRx = rx then { t with eventActive := false } else t

/-- A tone notice for a class set in NOTIFY. `onset`: TB0 ns. -/
def State.toneNotice (s : State) (ch code : Nat) (stop rx : Bool) (onset durMs : Nat) : State :=
  let c := s.chan ch
  let epoch := if c.tone.eventFresh then (c.pub.epoch.toNat + 1) % 2 ^ 32 else c.tone.eventEpoch.toNat
  if c.tns.notify.getLsbD (toneClass code) then
    s.notice (1 + ch * 2 ^ 16 + code * 2 ^ 32 + b2n stop * 2 ^ 40 + b2n rx * 2 ^ 41) epoch onset (if stop then durMs % 2 ^ 32 else 0)
  else s

/-- TB0's value when a time base read `t`. DEDUCED (log 25). -/
def State.onTb0 (s : State) (tb : Nat) (t : Int) : Nat := wrapInt 64 ((s.tbVal 0 : Int) - ((s.tbVal tb : Int) - t))

/-! ### Generation queues (R241-R243) -/

def genQ (t : Tone) (dir : Nat) : List ToneEntry := if dir = 0 then t.gen0 else t.gen1
def setGen (t : Tone) (dir : Nat) (q : List ToneEntry) (pos : Nat) : Tone :=
  if dir = 0 then { t with gen0 := q, pos0 := pos } else { t with gen1 := q, pos1 := pos }

/-- The first entry of a queue is over: it counts, and an empty queue is notified (R243). -/
def State.genDone (s : State) (ch dir : Nat) : State :=
  let rest := (genQ (s.chan ch).tone dir).tail
  let s1 := (s.modTone ch (fun t => setGen t dir rest 0)).bump supToneGenerated
  if rest.isEmpty then s1.notice (2 + ch * 2 ^ 16 + dir * 2 ^ 40) 0 (s1.tbVal 0) 0 else s1

/-- A STOP condition of the running entry is met (R241) in the block that ends at `till`: what this channel's job generates stops there;
what the peer's job does, as its next one starts. -/
def State.stopGen (s : State) (ch code : Nat) (stop : Bool) (till : Int) : State :=
  let f := fun (s : State) (dir : Nat) => match (genQ (s.chan ch).tone dir).head? with
    | some e =>
      let cut : ToneCut := { dir := dir, entry := e, pos := if dir = 0 then (s.chan ch).tone.pos0 else (s.chan ch).tone.pos1, till := if dir = 1 then some till else none }
      if e.stopCode = code && e.stopEdge = stop then (s.modTone ch (fun t => { t with cuts := t.cuts ++ [cut] })).genDone ch dir else s
    | none => s
  f (f s 0) 1

/-- ms of one cycle of an entry: its cadence, or that of its definition. -/
def State.cycleMs (s : State) (e : ToneEntry) : Nat :=
  if toneClass e.code = 4 then ((List.range (s.rd cptNseg (e.code - 0xC0))).map (s.cpSeg (e.code - 0xC0))).foldl (· + ·) 0
  else e.on + e.off

/-- A generated signal leaves on channel `on`: its own detectors ignore it for the time of R227. -/
def State.sounds (s : State) (on code : Nat) (level : Int) (dur : Nat) : State :=
  let next := fun (c : Chan) => c.tone.echoed.filter (fun e => e.1 != code && decide (s.now < e.2.2)) ++ [(code, level, s.now + ms dur + c.ecs.tailMax * 500000)]
  s.modChan on (fun c => { c with tone := { c.tone with echoed := next c } })

/-- A STOP condition has ended an entry of a direction in the job under way: the next one starts at the next job (R243). -/
def stoppedNow (t : Tone) (dir : Nat) : Bool := t.cuts.any (fun k => k.dir = dir && k.till.isSome)

/-- A job of `dur` ms generates from the queue of `ch` in one direction, into the audio that leaves on `on`. The next entry
starts at the next job: DEDUCED (log 24). -/
def State.genStep (s0 : State) (ch dir on dur : Nat) : State :=
  let wait := stoppedNow (s0.chan ch).tone dir
  let s := s0.modTone ch (fun t => { t with cuts := t.cuts.filter (fun k => k.dir != dir) })
  let t := (s.chan ch).tone
  match (if wait then none else (genQ t dir).head?) with
  | none => s
  | some e =>
    let pos := (if dir = 0 then t.pos0 else t.pos1) + dur
    let s1 := (s.modTone ch (fun t => setGen t dir (genQ t dir) pos)).sounds on e.code (-5 * (e.level : Int)) dur
    if e.repeats != 0 && pos ≥ s.cycleMs e * e.repeats then s1.genDone ch dir else s1

/-! ### Events sent (R236, R237) -/

/-- B sends events of a code (R236). -/
def sendsEvent (b : Chan) (code : Nat) : Bool :=
  b.tns.evtTxPt != 0 && ((code ≤ 15 && b.tns.evtTxMask % 2 = 1) || (32 ≤ code && code ≤ 36 && b.tns.evtTxMask / 2 = 1))

/-- RTP timestamp of the next audio that a channel sends: that of the last packet and the time since, at the present clock. -/
def streamTs (b : Chan) : Nat :=
  let ahead := (b.egr.outQ.filter (fun f => f.eventTs.isNone && !f.raw)).foldl (fun a f => a + f.span) 0
  (b.egr.rtpTs.toNat + rtpUnits b.tx.codec (b.egr.elapsed + ahead)) % 2 ^ 32

/-- ns as RTP units of a channel, for a time before or after. -/
def signedUnits (codec : Nat) (ns : Int) : Int := ns * clockRate codec / 1000000000

/-- The RFC 4733 payload of an event. -/
def eventPayload (e : TxEvent) (ended : Bool) (dur : Nat) : List Byte :=
  [BitVec.ofNat 8 e.code, BitVec.ofNat 8 (b2n ended * 128 + min 63 e.volume)] ++ beBytes 2 dur

def eventFrame (pt : Nat) (e : TxEvent) (mark ended : Bool) (dur : Nat) : OutFrame :=
  { payload := eventPayload e ended dur, pt := pt, span := 0, eventTs := some e.ts, mark := mark }

/-- Packets of an event as it stands (R236, R237): a segment that is full is closed at 65,535 units and the next begins
there. -/
def eventPackets (pt : Nat) (ended : Bool) : Nat → TxEvent → List OutFrame × TxEvent
  | 0, e => ([], e)
  | n + 1, e =>
    if e.duration > 65535 then
      let r := eventPackets pt ended n { e with ts := (e.ts + 65535) % 2 ^ 32, duration := e.duration - 65535, started := true }
      (eventFrame pt e (!e.started) false 65535 :: r.1, r.2)
    else ([eventFrame pt e (!e.started) ended e.duration], { e with started := true })

/-- An event ends: its end packet goes three times. -/
def endTx (t : Tone) : Tone :=
  match t.txEvent with
  | none => t
  | some e => { t with txEvent := none, txEnding := t.txEnding ++ [{ e with endsLeft := 3 }] }

/-- The event packets of a job that sends on b (R236): a start or an update of the event that lasts, end packets of those
over. -/
def State.emitEvents (s : State) (b : Nat) : State :=
  let c := s.chan b
  let pt := c.tns.evtTxPt
  let live := match c.tone.txEvent with
    | none => ([], none)
    | some e => let r := eventPackets pt false 64 e; (r.1, some r.2)
  let ended := c.tone.txEnding.map (fun e =>
    let first := if e.started then [] else [eventFrame pt e true false (min e.duration 65535)]
    let r := eventPackets pt true 64 { e with started := true }
    (first ++ r.1, { r.2 with endsLeft := e.endsLeft - 1 }))
  s.setChan b { c with
    tone := { c.tone with txEvent := live.2, txEnding := (ended.map (·.2)).filter (fun e => e.endsLeft != 0) }
    egr := { c.egr with outQ := c.egr.outQ ++ (ended.flatMap (·.1) ++ live.1).map (fun f => { f with tb := (s.chan c.peer).tb }) } }

/-- A declared signal is to be sent on the peer (R236). -/
def State.startTx (s : State) (ch : Nat) (g : DeclSig) (back : Int) : State :=
  let c := s.chan ch
  let b := s.chan c.peer
  if c.st != .bound || !sendsEvent b g.code then s else
  let ts := wrapInt 32 ((streamTs b : Int) + signedUnits b.tx.codec back)
  let e : TxEvent := { code := g.code, ts := ts, duration := rtpUnits b.tx.codec g.whole, volume := g.volume }
  (s.modTone c.peer (fun t => { endTx t with txEvent := some e })).bump supToneEvtTx

/-- The sent event of a code takes a new duration, and may end. -/
def State.updateTx (s : State) (ch code ns : Nat) (ended : Bool) : State :=
  let c := s.chan ch
  if c.st != .bound then s else
  let codec := (s.chan c.peer).tx.codec
  s.modTone c.peer (fun t => match t.txEvent with
    | some e => if e.code = code then
        let t1 := { t with txEvent := some { e with duration := max e.duration (rtpUnits codec ns) } }
        if ended then endTx { t with txEvent := some { e with duration := rtpUnits codec ns } } else t1
      else t
    | none => t)

/-! ### Declarations and ends (R225, R226, R230, R244) -/

/-- R238: a declared digit or register signal that is not sent as an event is clamped, from its declaring block. -/
def clampStart (b : Chan) (g : DeclSig) (c : Chan) : Chan :=
  if c.tns.clamp && toneClass g.code ≤ 3 && !(c.st = .bound && sendsEvent b g.code)
  then { c with tone := { c.tone with clamps := c.tone.clamps ++ [(g.code, g.seen - ms 5, none)] } } else c

/-- R238: the clamp of a signal ends 20 ms after it. -/
def clampEnd (g : DeclSig) (t : Tone) : Tone :=
  { t with clamps := t.clamps.map (fun k => if k.1 = g.code && k.2.2.isNone then (k.1, k.2.1, some (g.onset + ms g.durMs + ms 20)) else k) }

/-- A declared signal ends: the record, the notice, a STOP condition, the event sent. -/
def State.endSignal (s : State) (ch : Nat) (g : DeclSig) : State :=
  let c := s.chan ch
  let s1 := s.modTone ch (fun t => clampEnd g (toneWordEnd g.code false { t with declared := t.declared.filter (fun d => d.code != g.code) }))
  ((s1.toneNotice ch g.code true false (s.onTb0 c.tb g.onset) g.durMs).stopGen ch g.code true g.seen).updateTx ch g.code (ms g.durMs) true

/-- Both legs of a call show one VBD_STATE (R247). -/
def State.setVbd (s : State) (ch st : Nat) : State :=
  let c := s.chan ch
  let f := fun (x : Chan) => { x with vbd := { x.vbd with state := st } }
  let s1 := s.modChan ch f
  if c.st = .bound then s1.modChan c.peer f else s1

/-- The encoder toward a leg is G.711. -/
def isG711 (c : Chan) : Bool := c.tx.codec = 1 || c.tx.codec = 2

/-- Signals of the detectors that state 1 suspends end at the transition (R244). -/
def State.suspendTones (s : State) (ch : Nat) : State :=
  ((s.chan ch).tone.declared.filter (fun d => toneClass d.code ≤ 4)).foldl (fun s d => s.endSignal ch d) s

/-- A declaration of codes 32 to 36 or 0xE0 to 0xE2 moves VBD_STATE (R244, R247). -/
def State.vbdDeclared (s : State) (ch code : Nat) : State :=
  let c := s.chan ch
  if toneClass code != 5 && toneClass code != 6 then s
  else
    let mark := fun (x : Chan) => { x with vbd := { x.vbd with lastDecl := s.now } }
    let s1 := s.modChan ch mark
    let s2 := if c.st = .bound then s1.modChan c.peer mark else s1
    if c.vbd.state != 0 then (if code = 0xE1 && c.vbd.state = 2 then s2.bump supVbdCmSuppressed else s2)
    else
      let pass := c.fax.autoPt && c.st = .bound && isG711 c && isG711 (s.chan c.peer)
      let s3 := s2.setVbd ch (if pass then 4 else 1)
      (if c.st = .bound then s3.suspendTones c.peer else s3).suspendTones ch

/-- A signal is declared (R225, R230, R235, R236, R244). -/
def State.declare (s : State) (ch : Nat) (g : DeclSig) (back : Int) : State :=
  let c := s.chan ch
  let s0 := (c.tone.declared.filter (fun d => sameFamily d.code g.code)).foldl (fun s d => s.endSignal ch d) s
  let s1 := ((s0.bump supToneDetected).modTone ch (fun t => toneWordStart g.code false { t with declared := t.declared ++ [g] })).modChan ch
    (clampStart (s0.chan c.peer) g)
  let s2 := (s1.toneNotice ch g.code false false (s.onTb0 c.tb g.onset) 0).stopGen ch g.code false g.seen
  (s2.startTx ch g back).vbdDeclared ch g.code

/-- One observation of a job whose frame starts at `start` on the channel's time base. -/
def State.toneObserve (s : State) (ch : Nat) (start : Int) (o : ToneObs) : State :=
  let c := s.chan ch
  let seen := start + 5000000 * ((o.block : Int) + 1)
  -- Concealment of more than 20 ms ends a signal where it began (R226).
  let hidden := decide (o.hiddenMs > 20)
  let durMs := if hidden then ((seen - (start + o.onset)) / 1000000 - o.hiddenMs).toNat else o.durMs
  let g : DeclSig := { code := o.code, onset := start + o.onset, durMs := durMs, whole := o.whole, volume := o.volume, seen := seen }
  if c.tone.declared.any (fun d => d.code = o.code) then
    let cadenced := toneClass o.code = 4 && s.rd cptNseg (o.code - 0xC0) > 1
    let ended := if cadenced then !s.cadenceHolds (o.code - 0xC0) o.segs else decide (o.gapMs ≥ gapLimit o.code)
    let s1 := s.modTone ch (fun t => { t with declared := t.declared.map (fun d => if d.code = o.code then { g with onset := d.onset } else d) })
    if ended || hidden
    then ((s1.chan ch).tone.declared.filter (fun d => d.code = o.code)).foldl (fun s d => s.endSignal ch d) s1
    else s1.updateTx ch o.code o.whole false
  else if !s.detects c o.code || o.hiddenMs ≥ 5 || s.ownEcho c o then s
  else if toneClass o.code = 4 && c.tone.declared.any (fun d => toneClass d.code = 4) then s
  else match s.verdict c.tns o with
  | some true => s.declare ch g o.onset
  | some false => s
  | none => if Config.freeNat s.freeCtr % 2 = 1 then s.draw.declare ch g o.onset else s.draw

/-! ### Events received (R239, R240) -/

/-- A received event ends. -/
def State.rxEventEnd (s : State) (ch : Nat) : State :=
  let c := s.chan ch
  match c.tone.rxEvent with
  | none => s
  | some e =>
    let s1 := s.modTone ch (fun t => toneWordEnd e.code true { t with rxEvent := none, lastEndedTs := some e.ts, regenQ := t.regenQ.map (fun r => if r.code = e.code && r.ts = e.ts then { r with ended := true, duration := e.duration } else r) })
    s1.toneNotice ch e.code true true e.onset (e.duration * 1000 / clockRate c.rx.codec)

/-- A new event begins (R239, R240, R243): reported, and regenerated or relayed unless host generation is queued. -/
def State.rxEventBegin (s : State) (ch : Nat) (e : RxEvent) : State :=
  let c := s.chan ch
  let busy := !c.tone.gen1.isEmpty || (c.st = .bound && !(s.chan c.peer).tone.gen0.isEmpty)
  let play := c.tns.evtRxAct != 0 && c.st = .bound
  let s1 := (s.bump supToneEvtRx).modTone ch (fun t => toneWordStart e.code true { t with rxEvent := some e, regenQ := if play && !busy then t.regenQ ++ [e] else t.regenQ })
  let s2 := s1.toneNotice ch e.code false true e.onset 0
  if play && busy then s2.bump supToneEvtPreempt else s2

/-- An RFC 4733 packet has come through an immediate job (R239). -/
def State.rxEventPacket (s : State) (ch ts : Nat) (p : List Byte) : State :=
  let c := s.chan ch
  let code := byteAt p 0
  let ended := byteAt p 1 ≥ 128
  let dur := be16 p 2
  if p.length < 4 then s
  else if !(code ≤ 15 || (32 ≤ code && code ≤ 36)) then s.modStats ch (fun x => { x with evtUnsupported := x.evtUnsupported + 1 })
  else if c.tone.lastEndedTs.any (fun l => decide (signed 32 (ts + 2 ^ 32 - l) < 0)) then s.bump supToneEvtStale
  else match c.tone.rxEvent with
  | some e =>
    if e.code = code && e.ts = ts then
      let s1 := s.modTone ch (fun t => { t with rxEvent := some { e with duration := max e.duration dur, lastAt := s.now }, regenQ := t.regenQ.map (fun r => if r.code = code && r.ts = ts then { r with duration := max r.duration dur } else r) })
      if ended then s1.rxEventEnd ch else s1
    else
      let s1 := (s.rxEventEnd ch).rxEventBegin ch { code := code, ts := ts, duration := dur, volume := byteAt p 1 % 64, lastAt := s.now, onset := s.tbVal 0 }
      if ended then s1.rxEventEnd ch else s1
  | none =>
    if c.tone.lastEndedTs = some ts then s else
    let s1 := s.rxEventBegin ch { code := code, ts := ts, duration := dur, volume := byteAt p 1 % 64, lastAt := s.now, onset := s.tbVal 0 }
    if ended then s1.rxEventEnd ch else s1

/-- An event with no packet for 200 ms ends at its last duration (R239). -/
def eventTimeout (ch : Nat) (s : State) : State :=
  if (s.chan ch).tone.rxEvent.any (fun e => decide (e.lastAt + ms 200 ≤ s.now)) then s.rxEventEnd ch else s

def execEventTimeout (ch : ChanId) (s : State) : Out := .next (eventTimeout ch.val s)

/-- The first event in A's queue is played in A's job of `dur` ms (R240): relayed on B where A asks for it and B sends
events, else regenerated for at least 50 ms, 50 ms apart. -/
def State.regenStep (s : State) (a b dur : Nat) : State :=
  let c := s.chan a
  let p := s.chan b
  match c.tone.regenQ with
  | [] => s
  | e :: rest =>
    let relays := c.tns.evtRxAct = 2 && p.tns.evtTxPt != 0
    let units := e.duration * clockRate p.tx.codec / clockRate c.rx.codec
    match e.startedAt with
    | none =>
      if s.now < c.tone.regenPause || (relays && p.tone.txEvent.isSome) then s else
      let s1 := s.modTone a (fun t => { t with regenQ := { e with startedAt := some s.now, played := dur } :: rest })
      if relays then (s1.modTone b (fun t => { t with txEvent := some { code := e.code, ts := streamTs p, duration := units, volume := e.volume } })).bump supToneEvtTx
      else s1.sounds b e.code (clampInt (-360) (-30) (-10 * ((e.volume : Int) + 3))) dur
    | some _ =>
      if relays then
        let s1 := s.modTone b (fun t => { t with txEvent := t.txEvent.map (fun x => { x with duration := units }) })
        if e.ended then (s1.modTone b endTx).modTone a (fun t => { t with regenQ := rest }) else s1
      else
        let s0 := s.modTone a (fun t => { t with regenQ := { e with played := e.played + dur } :: rest })
        let s1 := s0.sounds b e.code (clampInt (-360) (-30) (-10 * ((e.volume : Int) + 3))) dur
        if e.ended && 50 ≤ e.played then s1.modTone a (fun t => { t with regenQ := rest, regenPause := s.now + ms 50 }) else s1

/-! ### The audio that leaves (R238, R240-R243) -/

/-- The burst of a cadence (on and off in turn, ms) that sounds at `p`: ms since it began and ms left of it. -/
def burstAt : Bool → List Nat → Nat → Option (Nat × Nat)
  | _, [], _ => none
  | on, d :: r, p => if d ≤ p then burstAt (!on) r (p - d) else if on then some (p, d - p) else none

/-- Segments of an entry's cadence, on first. -/
def State.entrySegs (s : State) (e : ToneEntry) : List Nat :=
  if toneClass e.code = 4 then (List.range (s.rd cptNseg (e.code - 0xC0))).map (s.cpSeg (e.code - 0xC0)) else [e.on, e.off]

/-- Blocks in order, and in one block the signals by their code: the lower call-progress definition comes first (R232). -/
def inBlockOrder (l : List ToneObs) : List ToneObs :=
  l.foldl (fun acc o => let early := fun (x : ToneObs) => x.block < o.block || (x.block = o.block && x.code ≤ o.code)
                        acc.takeWhile early ++ [o] ++ acc.dropWhile early) []

/-- Entries of a direction that end before their cadence, over the audio of a frame that begins at `start`: to the end of their block, then
2 ms of off ramp (R241-R243). -/
def State.cutAudio (s : State) (fs m : Nat) (start : Int) (dir : Nat) (t : Tone) (xs : List Int) : List Int :=
  (t.cuts.filter (fun k => k.dir = dir)).foldl (fun (xs : List Int) k =>
    let cycle := max 1 (s.cycleMs k.entry)
    let stop := match k.till with
      | none => 0
      | some u => ((u - start) / 1000000).toNat * 2 * m
    (xs.zipIdx).map (fun x =>
      if stop + 4 * m ≤ x.2 then x.1 else
      let wave := match burstAt true (s.entrySegs k.entry) ((k.pos + x.2 / (2 * m)) % cycle) with
        | none => 0
        | some (p, left) => Config.toneWave fs k.entry.code (-5 * (k.entry.level : Int)) (p * 2 * m + x.2 % (2 * m)) (min (left * 2 * m) (stop + 4 * m - x.2))
      if k.entry.mix || (stop ≤ x.2 && k.till.isNone) then clampInt (-32768) 32767 (x.1 + wave) else wave)) xs

/-- A queue's running entry over the audio of a frame, at `m` samples to 0.5 ms, `pos` ms of it generated: it replaces the audio or adds to
it, saturating. -/
def State.genAudio (s : State) (fs m : Nat) (q : List ToneEntry) (pos : Nat) (xs : List Int) : List Int :=
  match q.head? with
  | none => xs
  | some e =>
    let cycle := max 1 (s.cycleMs e)
    (xs.zipIdx).map (fun x =>
      let p := pos + x.2 / (2 * m)
      if e.repeats != 0 && decide (cycle * e.repeats ≤ p) then x.1 else
      let wave := match burstAt true (s.entrySegs e) (p % cycle) with
        | none => 0
        | some (k, left) => Config.toneWave fs e.code (-5 * (e.level : Int)) (k * 2 * m + x.2 % (2 * m)) (left * 2 * m)
      if e.mix then clampInt (-32768) 32767 (x.1 + wave) else wave)

/-- The event being regenerated replaces the audio of a job of `dur` ms (R240). -/
def regenAudio (c : Chan) (fs m dur : Nat) (xs : List Int) : List Int :=
  match c.tone.regenQ.head? with
  | some e =>
    if e.startedAt.isNone || e.played = 0 then xs
    else (xs.zipIdx).map (fun x => Config.toneWave fs e.code (clampInt (-360) (-30) (-10 * ((e.volume : Int) + 3))) ((e.played - dur) * 2 * m + x.2)
      (if e.ended && 50 ≤ e.played then dur * 2 * m - x.2 else dur * 2 * m))
  | none => xs

/-- Clamped audio is comfort noise at the background level of Sin (R238), for a frame that begins at `t`. -/
def clampAudio (c : Chan) (fs per : Nat) (t : Int) (free : Nat) (xs : List Int) : List Int :=
  if c.tone.clamps.isEmpty then xs else
  let bands := noiseBands c
  (xs.zipIdx).map (fun x =>
    let u : Int := t + x.2 * per
    if c.tone.clamps.any (fun k => decide (k.2.1 ≤ u) && (k.2.2.getD (u + 1) > u)) then Config.comfortNoise fs bands (free + x.2) else x.1)

/-! ### The tone part of a job (R225-R243) -/

/-- A media job of channel `ch` of `dur` ms has ended: what its detectors saw, the events it sends on its peer, the events
it plays, and the generation of both directions that runs in it, over its audio `out`. The second result is the audio that leaves. -/
def State.toneJob (s : State) (ch : Nat) (start : Int) (dur : Nat) (obs : List ToneObs) (out : List Int) : State × List Int :=
  let s1 := (inBlockOrder obs).foldl (fun s o => s.toneObserve ch start o) s
  let c := s1.chan ch
  let fs := cancellerFs c
  let m := halfMs c
  let held := clampAudio c fs (samplePeriod c) start s1.freeCtr out
  let finish := start + (dur : Int) * 1000000
  let s2 := { s1 with freeCtr := s1.freeCtr + out.length }.modTone ch (fun t => { t with clamps := t.clamps.filter (fun k => k.2.2.all (fun u => decide (finish < u))) })
  if c.st != .bound then (s2, held) else
  let b := c.peer
  let s3 := s2.regenStep ch b dur
  let a1 := regenAudio (s3.chan ch) fs m dur held
  let own := (s3.chan ch).tone
  let far := (s3.chan b).tone
  let a2 := s3.cutAudio fs m start 1 own (s3.genAudio fs m (if stoppedNow own 1 then [] else own.gen1) own.pos1 a1)
  let a3 := s3.cutAudio fs m start 0 far (s3.genAudio fs m far.gen0 far.pos0 a2)
  (((s3.genStep ch 1 b dur).genStep b 0 b dur).emitEvents b, a3)

/-- A tone detected on a channel or generated toward its peer holds the encoder's VAD active (R192, R242). -/
def toneActive (a b : Chan) : Bool :=
  !a.tone.declared.isEmpty || !a.tone.gen1.isEmpty || !b.tone.gen0.isEmpty || a.tone.regenQ.any (fun e => e.startedAt.isSome)

/-- While an event is sent on a channel, no media packet is (R236). -/
def mediaHeld (b : Chan) : Bool := b.tone.txEvent.isSome

/-- Events in progress end and the generation queues are emptied (R245); an event being sent ends with an end packet
where `packet` (R237). -/
def toneReset (packet : Bool) (t : Tone) : Tone :=
  let u := if packet then endTx t else { t with txEvent := none, txEnding := [] }
  { u with declared := [], rxEvent := none, regenQ := [], gen0 := [], gen1 := [], pos0 := 0, pos1 := 0, eventActive := false, echoed := [], clamps := [], cuts := [] }

/-! ### Commands -/

/-- TONE_SET (R34, R234). -/
def applyToneSet (c : HostCmd) (s : State) : Reply :=
  let ch := bits c.w1.toNat 0 16
  match s.groupsOf c [8] [8] with
  | .error d => .refuse stBAD_PARAM d
  | .ok gs =>
    let g := grp gs 8
    let old := s.chan ch
    match firstFail ((old.st != .open && old.st != .bound, stBAD_STATE, 0) :: toneChecks g s old.rx old.fec.redPt) with
    | some (e, d) => .refuse e d
    | none => .publish (s.modChan ch (fun x => { x with tns := toneOf g })) [ch]

def toneSet (c : HostCmd) (s : State) : State := runCommand c 0x23 [(1, 0xFFFF)] true (applyToneSet c) s

def execToneSet (c : HostCmd) (s : State) : Out := .next (toneSet c s)

/-- Queue entries in order (Table 10.5): one without APPEND empties the queue first; none: more than 16. -/
def queueEntries : List ToneEntry → Bool → List ToneEntry → Option (List ToneEntry × Bool)
  | q, fresh, [] => some (q, fresh)
  | q, fresh, e :: r =>
    if !e.append then queueEntries [e] true r
    else if q.length ≥ 16 then none
    else queueEntries (q ++ [e]) fresh r

/-- TONE_GEN (R241). -/
def applyToneGen (c : HostCmd) (s : State) : Reply :=
  let ch := bits c.w1.toNat 0 16
  let dir := bits c.w1.toNat 16 1
  let old := s.chan ch
  if old.st != .bound then .refuse stBAD_STATE 0 else
  match s.groupsOf c [14] [14] with
  | .error d => .refuse stBAD_PARAM d
  | .ok gs =>
    let g := grp gs 14
    let es := toneEntriesOf g
    let allowed := fun (e : ToneEntry) => toneClass e.code = 5 || toneClass e.code = 6 || toneClass e.code = 7
    if old.vbd.state != 0 && es.any (fun e => !allowed e) then .refuse stBAD_STATE 0
    else match (es.zipIdx).find? (fun e => !isGenerated e.1.code) with
    | some e => .refuse stBAD_PARAM (g.detail e.2 0)
    | none =>
      match (es.zipIdx).find? (fun e => e.1.stopCode != 0xFF && !isDetected e.1.stopCode) with
      | some e => .refuse stBAD_PARAM (g.detail e.2 52)
      | none =>
        match queueEntries (genQ old.tone dir) false es with
        | none => .refuse stNO_RESOURCE 0
        | some (q, fresh) =>
          let pos := if fresh then 0 else (if dir = 0 then old.tone.pos0 else old.tone.pos1)
          let cut := (genQ old.tone dir).head?.map (fun (e : ToneEntry) => ({ dir := dir, entry := e, pos := if dir = 0 then old.tone.pos0 else old.tone.pos1, till := none } : ToneCut))
          .publish (s.modTone ch (fun t => { setGen t dir q pos with cuts := t.cuts ++ (if fresh then cut.toList else []) })) [ch]

def toneGen (c : HostCmd) (s : State) : State := runCommand c 0x24 [(1, 0x1FFFF)] true (applyToneGen c) s

def execToneGen (c : HostCmd) (s : State) : Out := .next (toneGen c s)

end Sys2Proof.Machine
end

