-- ==== Sys2Proof/Machine/Saffron.lean ====
section
/-! DEFINITION. Saffron (spec/11_voiceband_data.md): FAX_MODE, the receive chain, T.38 over UDPTL, text telephony, and their
timers. -/

namespace Sys2Proof.Machine

def State.modVbd (s : State) (ch : Nat) (f : Vbd → Vbd) : State := s.modChan ch (fun c => { c with vbd := f c.vbd })

/-- Both legs of a call. -/
def State.pairOf (s : State) (ch : Nat) : List Nat := if (s.chan ch).st = .bound then [ch, (s.chan ch).peer] else [ch]

/-- The relay leg of a call in state 2 or 3. -/
def State.relayLeg (s : State) (ch : Nat) : Nat := if (s.chan ch).vbd.relay then ch else (s.chan ch).peer

/-! ### VBD_STATE (R247-R250) -/

/-- A leg leaves states 2 and 3: its ticks return to its own grid (R249), nothing of Saffron's is under way. -/
def leaveSaffron (floor : Int) (c : Chan) : Chan :=
  let t := c.steep
  let next := (gridAfter t.phase (gridNs t) (max floor t.nextTick)).toNat
  { c with vbd := { pages := c.vbd.pages, lastLevel := c.vbd.lastLevel, lastAfc := c.vbd.lastAfc, lastAgc := c.vbd.lastAgc, lastDecl := c.vbd.lastDecl }
           steep := { t with nextTick := next, sharePoint := 0, shares := [] } }

/-- Events in progress on either leg end with an end packet at a change of VBD_STATE (R237). -/
def State.endEvents (s : State) (ch : Nat) : State := (s.pairOf ch).foldl (fun s x => s.modTone x endTx) s

/-- The pair returns to state 0 from 1 or 4 (R247); the canceller resumes as at a release (R179). -/
def State.vbdIdle (s : State) (ch : Nat) : State :=
  let s1 := (s.setVbd ch 0).endEvents ch
  (s1.pairOf ch).foldl (fun s x => s.nlpUpdate x) s1

/-- RETURN_IDLE has passed with no declaration and no Saffron detection (R247). -/
def vbdReturnIdle (ch : Nat) (s : State) : State :=
  let c := s.chan ch
  let since := (s.pairOf ch).foldl (fun a x => max a (s.chan x).vbd.lastDecl) 0
  if (c.vbd.state = 1 || c.vbd.state = 4) && c.fax.returnIdle != 0 && since + sec c.fax.returnIdle ≤ s.now then s.vbdIdle ch else s

def execVbdReturnIdle (ch : ChanId) (s : State) : Out := .next (vbdReturnIdle ch.val s)

/-- Modes 2 and 3 on the relay leg (R248, R249): its settings are kept, its codec is 0x0E or 0x0F with PERIOD, FS and PT 0;
both legs show the state. -/
def State.enterRelay (s : State) (ch mode : Nat) (f : FaxSet) : State :=
  let c := s.chan ch
  let code := 12 + mode
  let relay : Chan := { c with
    fax := f, rx := { codec := code, period := 0, pt := 0, alts := [] }, tx := { codec := code, period := 0, pt := 0 }
    vbd := { state := mode, relay := true, pages := c.vbd.pages, lastDecl := c.vbd.lastDecl, saved := some (c.rx, c.tx, c.flows, c.jit) } }
  let s1 := (s.setChan ch relay).modChan c.peer (fun x => { x with fax := f, vbd := { state := mode, pages := x.vbd.pages, lastDecl := x.vbd.lastDecl }, steep := { x.steep with sharePoint := 0, shares := [] } })
  (s1.abandon ch).endEvents ch

/-- The settings a relay leg returns to (R248): those kept, or those the command supplies. -/
def restored (gs : List Grp) (floor : Int) (c : Chan) : Chan :=
  let base := match c.vbd.saved with
    | none => c
    | some (rx, tx, fl, j) => { keepDtx c with rx := rx, tx := tx, flows := fl, jit := j, ctx := { c.ctx with rxDtx := false, encMode := startMode tx, encBw := tx.evsBw } }
  leaveSaffron floor (withGroups (gs.filter (fun g => g.type != 13)) base)

/-- The change of VBD_STATE is one of Table 11.1; a FAX_MODE for the state in force only sets its parameters (log 26). -/
def modeAllowed (c : Chan) (mode : Nat) : Bool :=
  let target := if mode = 1 then 4 else mode
  if target = c.vbd.state then mode < 2 || c.vbd.relay
  else match mode with
  | 0 => true
  | _ => c.vbd.state ≤ 1

/-- FAX_MODE for the state in force. -/
def State.faxParams (s : State) (ch : Nat) (f : FaxSet) : State := (s.pairOf ch).foldl (fun s x => s.modChan x (fun c => { c with fax := f })) s

/-- The jobs running on either leg finish with the voiceband states they were dispatched with (R37). -/
def State.keepVbds (s : State) (ch : Nat) : State := (s.pairOf ch).foldl (fun (s : State) x => s.modChan x (fun c => keepVbd (s.chan c.peer).vbd c)) s

/-- The state that a permitted FAX_MODE makes, flows apart. -/
def State.faxEffect (s0 : State) (ch : Nat) (gs : List Grp) (f : FaxSet) : State :=
  let s := s0.keepVbds ch
  let c := s.chan ch
  let relay := s.relayLeg ch
  let floor : Int := s.tbVal (s.chan relay).tb
  if f.mode = 0 then
    let from23 := decide (c.vbd.state ≥ 2) && c.vbd.state != 4
    let t := s.faxParams ch f
    if from23 then
      let t1 := t.modChan relay (restored gs floor)
      let t2 := (t1.modChan (t1.chan relay).peer (leaveSaffron (t1.tbVal (t1.chan (t1.chan relay).peer).tb))).endEvents ch
      t2.abandon relay
    else (t.modChan ch (fun x => modifiedChan x (gs.filter (fun g => g.type != 13)))).vbdIdle ch
  else if f.mode = 1 then
    if c.vbd.state = 4 then s.faxParams ch f
    else
      let t := ((s.faxParams ch f).setVbd ch 4).endEvents ch
      (t.pairOf ch).foldl (fun s x => (s.suspendTones x).modVbd x (fun v => { v with lastDecl := s.now })) t
  else if c.vbd.state = f.mode then s.faxParams ch f
  else (s.pairOf ch).foldl (fun s x => s.suspendTones x) (s.enterRelay ch f.mode f)

/-- FAX_MODE (R247, R248, R422, R423): its outcome follows the first row that applies. -/
def applyFax (c : HostCmd) (s : State) : Reply :=
  let ch := bits c.w1.toNat 0 16
  let old := s.chan ch
  if old.st != .bound then .refuse stBAD_STATE 0 else
  match s.groupsOf c [13, 2, 3, 4, 6] [13] with
  | .error d => .refuse stBAD_PARAM d
  | .ok gs =>
    let g := grp gs 13
    let f := faxOf g
    let peer := s.chan old.peer
    let extra := gs.find? (fun g => g.type != 13)
    let relay := s.relayLeg ch
    let subject := if old.vbd.state = 2 || old.vbd.state = 3 then relay else ch
    let n := restored gs 0 (s.chan subject)
    let codecs := (grpOf gs 2).isSome || (grpOf gs 3).isSome
    let checks : List Check :=
      [(f.mode != 0 && extra.isSome, stBAD_PARAM, (extra.getD noGrp).pos + 0x8000 - 8)] ++ groupChecks s n (gs.filter (fun g => g.type != 13)) ++
      [(f.mode = 1 && !(isG711 old && isG711 peer), stBAD_PARAM, g.detail 0 0),
       (f.errRec && f.version = 0, stBAD_PARAM, g.detail 0 30),
       (!modeAllowed old f.mode, stBAD_STATE, 0),
       (f.mode = 0 && codecs && !callFits n (s.chan n.peer), stBAD_PARAM, periodDetail gs)]
    match firstFail checks with
    | some (e, d) => .refuse e d
    | none =>
      let t := s.faxEffect ch gs f
      let both := [ch, old.peer]
      if f.mode = 2 && old.vbd.state != 2 then
        let lat := (s.latIndex (s.chan subject).flows.localAddr).getD 0
        let olds := ((s.flowsOfChan ch).filter (fun e => e.kind = 0)).map flowKey
        let news := [udptlFlow ch lat old.flows f.port]
        match s.keyClash olds (news.map (fun e => (e, g.detail 1 0))) with
        | some d => .refuse stBAD_PARAM d
        | none =>
          if overLoad s t then .fail (s.bump supLoadRefused) stNO_RESOURCE 0 else
          match t.installFlows olds news with
          | none => .fail (s.bump flwInsertFail) stNO_RESOURCE 0
          | some u => .publish u.replan both
      else if f.mode = 0 && ((s.chan subject).vbd.state = 2 || (grpOf gs 4).isSome) then
        match t.reflow s subject (grp gs 4) (t.chan subject) with
        | .error e => .fail e.1 e.2.1 e.2.2
        | .ok u => .publish u.replan both
      else if overLoad s t then .fail (s.bump supLoadRefused) stNO_RESOURCE 0
      else .publish t.replan both

def faxMode (c : HostCmd) (s : State) : State := runCommand c 0x25 [(1, 0xFFFF)] true (applyFax c) s

def execFaxMode (c : HostCmd) (s : State) : Out := .next (faxMode c s)

/-! ### The receive chain (R251-R255) -/

/-- QUAL_WIN of a receiver, ns (Table 11.3). -/
def qualWin (r : Nat) : Nat := ms (match r with | 2 => 400 | 3 | 4 => 250 | 5 => 600 | _ => 300)

/-- A receiver is armed (R251): V.21 and the high-speed receiver that a DCS has selected in state 2, both text receivers in state 3. -/
def armedFor (c : Chan) (r : Nat) : Bool := if c.vbd.state = 2 then r = 1 || (2 ≤ r && r = c.vbd.armed) else r = 5 || r = 6

/-- How long a reception may stay unqualified (R253): the window of the armed high-speed receiver, or that of the receivers
always armed. DEDUCED (log 27). -/
def abortWin (c : Chan) : Nat := if c.vbd.state = 3 then qualWin 5 else if c.vbd.armed = 0 then qualWin 1 else qualWin c.vbd.armed

/-- A Saffron detection counts against RETURN_IDLE (R247). -/
def State.detected (s : State) (ch : Nat) : State :=
  (s.pairOf ch).foldl (fun s x => s.modVbd x (fun v => { v with lastDecl := s.now })) (s.bump supVbdDetect)

/-- Phase 1 of R252: four blocks at or above DET_LEVEL; a block at or below DET_LEVEL - 5 dB restarts the count; one between
neither counts nor restarts. DEDUCED (log 27). -/
def State.rxDetect (s : State) (ch : Nat) (o : VbdObs) : State :=
  let c := s.chan ch
  let det : Int := -10 * (c.fax.detLevel : Int)
  let r := c.vbd.rx
  let n := if o.energy ≥ det then r.count + 1 else if o.energy ≤ det - 50 then 0 else r.count
  if n ≥ 4 then
    (s.modVbd ch (fun v => { v with rx := { phase := 2, detected := s.now, reference := o.energy }, lastAgc := o.agc })).detected ch
  else s.modVbd ch (fun v => { v with rx := { r with count := n } })

/-- Rising blocks in a row: at or above the reference plus CAPTURE_DB (R254, R255). -/
def risesNow (c : Chan) (o : VbdObs) : Nat :=
  if o.energy ≥ c.vbd.rx.reference + 5 * (c.fax.captureDb : Int) then c.vbd.rx.rises + 1 else 0

/-- A qualified receiver shows in MODULATION of both records (R252); text receivers have no code there (Table 2.3). -/
def State.setModulation (s : State) (ch m : Nat) : State :=
  (s.pairOf ch).foldl (fun s x => s.modVbd x (fun v => { v with modulation := if m ≤ 4 then m else 0 })) s

/-- A reception ends or aborts: AGC and AFC are free again (R252-R254). -/
def State.rxRestart (s : State) (ch count : Nat) : State := s.modVbd ch (fun v => { v with rx := { count := count } })

/-- Phases 2 and 3 (R252-R254). -/
def State.rxUnqualified (s : State) (ch : Nat) (o : VbdObs) : State :=
  let c := s.chan ch
  let r := c.vbd.rx
  let rises := risesNow c o
  if rises ≥ 2 then (s.bump supVbdCapture).rxRestart ch 2
  else
    let s1 := s.modVbd ch (fun v => { v with rx := { r with rises := rises } })
    let s2 := if o.sync && r.phase = 2 then s1.modVbd ch (fun v => { v with rx := { v.rx with phase := 3, reference := o.energy }, lastLevel := o.energy, lastAfc := o.afc }) else s1
    if o.qualified && armedFor c o.receiver && (s2.chan ch).vbd.rx.phase = 3 && s.now ≤ r.detected + qualWin o.receiver then
      let s3 := (s2.bump supVbdQualified).modVbd ch (fun v => { v with rx := { v.rx with phase := 4, receiver := o.receiver, rises := 0 }, textMod := if o.receiver ≥ 5 then o.receiver else v.textMod })
      s3.setModulation ch o.receiver
    else if r.detected + abortWin c ≤ s.now then (s2.bump supVbdFalseDetect).rxRestart ch 0
    else s2

/-- A rise during a qualified reception is interference, counted once (R255). -/
def State.rxQualified (s : State) (ch : Nat) (o : VbdObs) : State :=
  let c := s.chan ch
  let r := c.vbd.rx
  let rises := risesNow c o
  let counts := decide (rises ≥ 2) && !r.rising
  (if counts then s.bump supVbdRiseIgnored else s).modVbd ch (fun v => { v with rx := { r with rises := rises, rising := decide (rises ≥ 2) } })

/-! ### T.30 (R251, R262-R264): octets in the order of HDLC, least significant bit first, PRESUMED (log 27) -/

/-- The facsimile control field of a frame, without its X bit; DIS and DTC, DCS, MCF. -/
def fcf (f : List Byte) : Nat := byteAt f 2 / 2 * 2
def isDis (f : List Byte) : Bool := fcf f = 0x80
def isDcs (f : List Byte) : Bool := fcf f = 0x82
def isMcf (f : List Byte) : Bool := fcf f = 0x8C

/-- EOP, MPS, EOM and their PPS forms (R264). -/
def endsPage (f : List Byte) : Bool :=
  let k := if fcf f = 0xBE then byteAt f 3 / 2 * 2 else fcf f
  k = 0x2E || k = 0x4E || k = 0x8E

/-- A frame as it is relayed: V.8 capabilities, bit 6 of DIS and DTC, are cleared (R263). -/
def relayedFrame (f : List Byte) : List Byte := if isDis f && 4 ≤ f.length then patch f 3 [BitVec.ofNat 8 (byteAt f 3) &&& 0xDF] else f

/-- Receiver and rate that bits 11 to 14 of a DCS select. -/
def dcsSelects (f : List Byte) : Option (Nat × Nat) :=
  match byteAt f 4 / 4 % 16 with
  | 0 => some (2, 2400)
  | 2 => some (2, 4800)
  | 3 => some (3, 7200)
  | 1 => some (3, 9600)
  | 11 => some (4, 7200)
  | 9 => some (4, 9600)
  | 10 => some (4, 12000)
  | 8 => some (4, 14400)
  | _ => none

/-- The selection limited by T38_MAX_RATE (R251): the highest rate of the modulation within it, else V.27ter. DESIGN CHOICE (log 27). -/
def limited (f : FaxSet) (x : Nat × Nat) : Nat × Nat :=
  let top := 2400 * (f.maxRate + 1)
  if x.2 ≤ top then x else if 7200 ≤ top then (x.1, top) else (2, min 4800 top)

/-- Signalling rate of a receiver, b/s. -/
def rateOf (v : Vbd) (r : Nat) : Nat :=
  match r with
  | 1 | 6 => 300
  | 5 => if v.fast then 50 else 45
  | 0 => 0
  | _ => v.armedRate

/-- A page relayed to its end counts in both records (R264). -/
def State.pageDone (s : State) (ch : Nat) : State :=
  (s.pairOf ch).foldl (fun s x => s.modVbd x (fun v => { v with pages := (v.pages + 1) % 65536 })) (s.bump supVbdPages)

/-- A frame has been relayed: `to_` the network (1) or the fax (2). An MCF that answers a command which ends a page counts the page. -/
def State.frameRelayed (s : State) (relay to_ : Nat) (f : List Byte) : State :=
  let ask := (s.chan relay).vbd.pageAsk
  if endsPage f then s.modVbd relay (fun v => { v with pageAsk := to_ })
  else if isMcf f && ask != 0 && ask != to_ then (s.modVbd relay (fun v => { v with pageAsk := 0 })).pageDone relay
  else s

/-! ### UDPTL (R259-R261) -/

/-- The secondary IFPs that fit a datagram, dropped oldest first (R260). -/
def udptlFit (room : Nat) : Nat → (List (List Byte) → List Byte) → List (List Byte) → List Byte
  | 0, f, _ => f []
  | n + 1, f, l => if (f l).length ≤ room then f l else udptlFit room n f l.dropLast

/-- One IFP leaves on the relay leg (R260). `image`: image data. -/
def State.sendIfp (s : State) (relay : Nat) (image : Bool) (ifp : List Byte) : State :=
  let c := s.chan relay
  let f := c.fax
  let seq := c.vbd.txSeq.toNat
  let red := if image then f.redImg else f.redCtl
  let data := if f.errRec then udptlFit f.maxDgram f.fecEntries (fun l => Config.udptlFec seq ifp f.fecSpan l.length c.vbd.sentIfps) (List.replicate f.fecEntries [])
    else udptlFit f.maxDgram red (Config.udptlRed seq ifp) (c.vbd.sentIfps.take red)
  let frame : OutFrame := { payload := data, pt := 0, span := 0, raw := true, tb := (s.chan c.peer).tb }
  (s.setChan relay { c with
    vbd := { c.vbd with txSeq := c.vbd.txSeq + 1, sentIfps := (ifp :: c.vbd.sentIfps).take 64 }
    egr := { c.egr with outQ := c.egr.outQ ++ [frame] } }).bump supVbdIfpTx

/-- What is relayed leaves as an IFP; one that does not fit alone is split at field boundaries (R260). -/
def State.relayIfp (s : State) (relay : Nat) (x : Ifp) : State :=
  let f := (s.chan relay).fax
  let image := match x with
    | .image .. => true
    | _ => false
  let p := Config.ifpBytes f.version x
  let alone := Config.udptlRed (s.chan relay).vbd.txSeq.toNat p []
  if alone.length ≤ f.maxDgram then s.sendIfp relay image p
  else (Config.ifpSplit f.maxDgram p).foldl (fun s p => s.sendIfp relay image p) s

/-- An IFP in its turn goes to the modulator of the relay leg (R251, R258, R261-R264): DIS and DTC without V.8, /ANS for ANSam, a DCS arms
the transmit side, and with localTCF the training that follows is followed by 1.5 s of zeros. -/
def State.toModem (s : State) (relay : Nat) (p : List Byte) : State :=
  let c := s.chan relay
  let push := fun (l : List Ifp) (v : Vbd) => { v with toModem := v.toModem ++ l }
  match Config.ifpRead c.fax.version p with
  | .other => s
  | .hdlc r rate f good last =>
    let g := relayedFrame f
    let s1 := s.modVbd relay (push [.hdlc r rate g good last])
    let s2 := if good then s1.frameRelayed relay 2 g else s1
    match (if good && isDcs f then dcsSelects f else none) with
    | none => s2
    | some x => let a := limited c.fax x; s2.modVbd relay (fun v => { v with txArmed := a.1, txRate := a.2, tcfTx := true })
  | .training r rate long =>
    let zeros := if c.vbd.tcfTx && !c.fax.rateMgmt then [Ifp.image r rate (List.replicate (rate * 3 / 16) 0) true] else []
    s.modVbd relay (fun v => push ([.training r rate long] ++ zeros) { v with tcfTx := false })
  | .ansam => s.modVbd relay (push [.slashAns])
  | x => s.modVbd relay (push [x])

/-- IFPs in sequence go to the modulator (R261). -/
def State.drainIfps : Nat → Nat → State → State
  | 0, _, s => s
  | n + 1, ch, s =>
    let v := (s.chan ch).vbd
    match v.ifpQ.find? (fun e => e.1 = v.nextRx) with
    | none => s.modVbd ch (fun v => { v with gapSince := if v.ifpQ.isEmpty then none else v.gapSince })
    | some (k, p) =>
      State.drainIfps n ch ((s.modVbd ch (fun v => { v with nextRx := v.nextRx + 1, ifpQ := terase v.ifpQ k, gapSince := none
                                                            ifpSeen := (tins v.ifpSeen k p).filter (fun e => e.1 + 64 > k) })).toModem ch p)

/-- Fill a gap below packet `seq` from what the datagram carries besides its primary (R261). -/
def State.fillGap (s : State) (ch seq : Nat) (packet : List Byte) : State :=
  let v := (s.chan ch).vbd
  ((List.range (seq - v.nextRx)).map (v.nextRx + ·)).foldl (fun s k =>
    let v := (s.chan ch).vbd
    if v.ifpQ.any (fun e => e.1 = k) || v.ifpQ.length ≥ 64 then s
    else match Config.udptlFill packet (v.ifpSeen ++ v.ifpQ) (k % 65536) with
    | none => s
    | some p => (s.modVbd ch (fun v => { v with ifpQ := tins v.ifpQ k p })).bump supVbdIfpRecovered) s

/-- A UDPTL packet of the relay leg has come through an immediate job (R259, R261). -/
def State.udptlPacket (s0 : State) (ch : Nat) (packet : List Byte) : State :=
  let s := s0.bump supVbdIfpRx
  let c := s.chan ch
  match Config.udptlParse packet with
  | none => s
  | some (seq16, primary) =>
    let d := signed 16 (seq16 + 65536 - c.vbd.nextRx % 65536)
    let seq := c.vbd.nextRx + d.toNat
    if c.vbd.state != 2 || d < 0 then s
    else
      let s1 := if d = 0 then s else s.fillGap ch seq packet
      let v := (s1.chan ch).vbd
      if v.ifpQ.any (fun e => e.1 = seq) then s1
      else if v.ifpQ.length ≥ 64 then s1.bump supVbdIfpLost
      else
        let unsup := Config.ifpRead c.fax.version primary = .other
        let s2 := if unsup then s1.bump supVbdIfpUnsup else s1
        State.drainIfps 65 ch (s2.modVbd ch (fun v => { v with ifpQ := tins v.ifpQ seq primary, gapSince := some (v.gapSince.getD s.now) }))

/-- A gap still open after REORDER is given up (R261). -/
def udptlReorderTimeout (ch : Nat) (s : State) : State :=
  let c := s.chan ch
  match c.vbd.gapSince, c.vbd.ifpQ with
  | some t, (k, _) :: _ =>
    if s.now < t + ms c.fax.reorder then s else
    let s1 := s.bumpBy supVbdIfpLost (k - c.vbd.nextRx)
    let s2 := State.drainIfps 65 ch (s1.modVbd ch (fun v => { v with nextRx := k, gapSince := none }))
    s2.modVbd ch (fun v => if v.ifpQ.isEmpty then v else { v with gapSince := some s.now })
  | _, _ => s

def execUdptlReorderTimeout (ch : ChanId) (s : State) : Out := .next (udptlReorderTimeout ch.val s)

/-! ### Transmit (R257, R258, R266) -/

/-- The fall of a transmission: 4 ms to silence, then at least 70 ms until the next rise (R257). -/
def vbdFall (now : Nat) (v : Vbd) : Vbd :=
  { v with transmitting := false, rising := false, falling := v.transmitting, markUntil := none, txCodes := [], silentUntil := now + ms 74 }

/-- A transmission that has something to send starts with its rise, or waits for its silence (R257). -/
def vbdRise (now : Nat) (v : Vbd) : Vbd :=
  if v.transmitting || (v.toModem.isEmpty && v.textIn.isEmpty) then v
  else if now < v.silentUntil then { v with txWaiting := true }
  else { v with transmitting := true, rising := true, txWaiting := false, txLastData := now }

/-- Amplitude of the power -h/2 dBm0 beside that of 0 dBm0, in 1/32,768. -/
def amplitude (h : Nat) : Nat :=
  isqrt (searchUp (fun p => decide (p ^ 20 * 10 ^ h ≤ dbm0Power ^ 20)) 28 0 * 2 ^ 30 / dbm0Power) 16 0

/-- What a relay leg's modulator sends into the audio (R257): at TX_LEVEL, with a rise and a fall of 4 ms; else silence. -/
def modemAudio (c : Chan) (xs : List Int) : List Int :=
  let n := 8 * halfMs c
  let v := c.vbd
  (xs.zipIdx).map (fun x =>
    let gain := if v.transmitting then (if v.rising && x.2 < n then Config.raisedCosine x.2 n else 32768)
      else if v.falling && x.2 < n then 32768 - Config.raisedCosine x.2 n else 0
    x.1 * (amplitude c.fax.txLevel * gain : Nat) / 2 ^ 30)

/-- The rise or the fall has been sent. -/
def rampSent (c : Chan) : Chan := { c with vbd := { c.vbd with rising := false, falling := false } }

/-- The modulation in which text is sent (R266): TEXT_TX, or the one last qualified on the audio leg. -/
def State.textSent (s : State) (relay : Nat) : Nat :=
  let c := s.chan relay
  if c.fax.textTx = 3 then 6 else if c.fax.textTx = 0 then (s.chan c.peer).vbd.textMod else 5

/-- The ITA2 codes of a character, a case shift before it where it needs one; what has no ITA2 form is "?" (R266). The codes of the two
shifts and of "?" are ITA2's: PRESUMED (log 27). -/
def baudotCodes (figures : Bool) (ch : List Byte) : Bool × List Nat :=
  let (f, k) := (Config.toIta2 ch).getD (true, 25)
  (f, (if f = figures then [] else [if f then 27 else 31]) ++ [k])

/-- An IFP that ends a transmission; one with data. -/
def ifpEnds : Ifp → Bool
  | .hdlc _ _ _ _ last => last
  | .image _ _ _ last => last
  | _ => false
def ifpData : Ifp → Bool
  | .hdlc .. => true
  | .image .. => true
  | _ => false

/-- The modulator of the relay leg's job has taken what it could send (R258, R266). -/
def State.modulate (s : State) (ch : Nat) (o : VbdObs) : State :=
  let s1 := if o.underflow then s.bump supVbdTxUnderflow else s
  let v := (s1.chan ch).vbd
  if !v.transmitting then s1 else
  if v.state = 2 then
    let done := v.toModem.take o.taken
    s1.modVbd ch (fun v =>
      let w := { v with toModem := v.toModem.drop o.taken, txLastData := if done.any ifpData then s.now else v.txLastData }
      if done.any ifpEnds then vbdFall s.now w else w)
  else
    let taken := v.textIn.take o.taken
    let rest := v.textIn.drop o.taken
    let baudot := s1.textSent ch = 5
    let codes := if baudot then taken.foldl (fun (a : Bool × List Nat) x => let r := baudotCodes a.1 x; (r.1, a.2 ++ r.2)) (v.txFigures, [])
      else (v.txFigures, taken.flatMap (fun x => x.map BitVec.toNat))
    s1.modVbd ch (fun v =>
      let w := { v with textIn := rest, txFigures := codes.1, txCodes := codes.2, txLastData := if o.taken = 0 then v.txLastData else s.now }
      if !rest.isEmpty then { w with markUntil := none }
      else if baudot then { w with markUntil := some (v.markUntil.getD (s.now + ms 300)) }
      else vbdFall s.now w)

/-- 200 ms after the last data with no sig-end, the transmission ends with its fall (R258). -/
def txSigEndTimeout (ch : Nat) (s : State) : State :=
  let v := (s.chan ch).vbd
  if v.state = 2 && v.transmitting && v.toModem.isEmpty && v.txLastData + ms 200 ≤ s.now then s.modVbd ch (vbdFall s.now) else s

def execTxSigEndTimeout (ch : ChanId) (s : State) : Out := .next (txSigEndTimeout ch.val s)

/-- The silence after a fall has passed and a waiting transmission starts (R257). -/
def saffronSilenceEnd (ch : Nat) (s : State) : State :=
  let v := (s.chan ch).vbd
  if v.txWaiting && v.silentUntil ≤ s.now then s.modVbd ch (vbdRise s.now) else s

def execSaffronSilenceEnd (ch : ChanId) (s : State) : Out := .next (saffronSilenceEnd ch.val s)

/-- Baudot has held its mark for 300 ms after the last character and falls (R266). -/
def baudotMarkHoldEnd (ch : Nat) (s : State) : State :=
  let v := (s.chan ch).vbd
  if v.markUntil.any (fun t => decide (t ≤ s.now)) then s.modVbd ch (vbdFall s.now) else s

def execBaudotMarkHoldEnd (ch : ChanId) (s : State) : Out := .next (baudotMarkHoldEnd ch.val s)

/-! ### Text out (R265) -/

/-- A character that the audio leg has read goes into the relay leg's T.140 block. -/
def State.textChar (s : State) (relay : Nat) (ch : List Byte) : State :=
  s.modVbd relay (fun v => { v with textOut := v.textOut ++ ch, textFirst := some (v.textFirst.getD s.now) })

/-- 300 ms after its first character a block is sent, with TEXT_RED redundant generations (R265). -/
def textBlockTimeout (ch : Nat) (s : State) : State :=
  let c := s.chan ch
  match c.vbd.textFirst with
  | none => s
  | some t =>
    if s.now < t + ms 300 then s else
    let ts := streamTs c
    let old := c.vbd.textBlocks.drop (c.vbd.textBlocks.length - c.fax.textRed)
    let body := if c.fax.textRed = 0 then c.vbd.textOut else redPayload (old.map (fun b => (b.1, c.fax.textPt, b.2))) ts c.fax.textPt c.vbd.textOut
    let frame : OutFrame := { payload := body, pt := c.fax.textPt, span := 0, eventTs := some ts, mark := c.vbd.textBlocks.isEmpty, tb := (s.chan c.peer).tb }
    let blocks := c.vbd.textBlocks ++ [(ts, c.vbd.textOut)]
    s.setChan ch { c with
      vbd := { c.vbd with textOut := [], textFirst := none, textBlocks := blocks.drop (blocks.length - 3) }
      egr := { c.egr with outQ := c.egr.outQ ++ [frame] } }

def execTextBlockTimeout (ch : ChanId) (s : State) : Out := .next (textBlockTimeout ch.val s)

/-- A code that a text receiver has read (R265): a case shift, or a character for the network. -/
def State.readCode (s : State) (ch receiver code : Nat) : State :=
  let c := s.chan ch
  if receiver = 6 then s.textChar c.peer (Config.t50 code)
  else if code = 31 || code = 27 then s.modVbd ch (fun v => { v with figures := decide (code = 27) })
  else s.textChar c.peer (Config.ita2 c.vbd.figures code)

/-! ### The Saffron part of a job -/

/-- Image data of a reception waits for its DATA_PERIOD; TCF is not relayed with localTCF (R260, R262). -/
def State.imageIn (s : State) (ch receiver : Nat) (octets : List Byte) : State :=
  let c := s.chan ch
  let v := c.vbd
  if v.tcfRx && !c.fax.rateMgmt then s else
  let all := v.imageOut ++ octets
  if v.imageMs + 5 < 10 * (c.fax.dataPeriod + 1) then s.modVbd ch (fun v => { v with imageOut := all, imageMs := v.imageMs + 5 })
  else (s.modVbd ch (fun v => { v with imageOut := [], imageMs := 0 })).relayIfp c.peer (.image receiver v.armedRate all false)

/-- A frame of the local fax goes to the network; its DCS arms the receiver (R251, R260, R263). -/
def State.localFrame (s : State) (ch : Nat) (x : List Byte × Bool) : State :=
  let c := s.chan ch
  let f := relayedFrame x.1
  let s1 := match (if x.2 && isDcs x.1 then dcsSelects x.1 else none) with
    | none => s
    | some y => let a := limited c.fax y; s.modVbd ch (fun v => { v with armed := a.1, armedRate := a.2, tcfRx := true })
  let s2 := s1.relayIfp c.peer (.hdlc 1 300 f x.2 false)
  if x.2 then s2.frameRelayed c.peer 1 f else s2

/-- A qualified reception of state 2 ends: what is left of its data goes, with its sig-end (R260). -/
def State.receptionEnds (s : State) (ch : Nat) : State :=
  let c := s.chan ch
  let r := c.vbd.rx.receiver
  if c.vbd.rx.phase != 4 || c.vbd.state != 2 then s
  else if r = 1 then s.relayIfp c.peer (.hdlc 1 300 [] true true)
  else
    let s1 := s.modVbd ch (fun v => { v with imageOut := [], imageMs := 0, tcfRx := false })
    if c.vbd.tcfRx && !c.fax.rateMgmt then s1 else s1.relayIfp c.peer (.image r c.vbd.armedRate c.vbd.imageOut true)

/-- The end of a reception: four blocks below DET_LEVEL - 3 dB (R252). -/
def State.rxLows (s : State) (ch : Nat) (o : VbdObs) : State :=
  let c := s.chan ch
  let low := decide (o.energy < -10 * (c.fax.detLevel : Int) - 30)
  let n := if low then c.vbd.rx.lows + 1 else 0
  if n ≥ 4 then ((s.receptionEnds ch).rxRestart ch 0).setModulation ch 0 else s.modVbd ch (fun v => { v with rx := { v.rx with lows := n } })

/-- What a qualified receiver delivers in a job goes to the network: its indicator in the job that declares it (R252, R260), frames, image
data, text. -/
def State.received (s : State) (ch : Nat) (o : VbdObs) (fresh : Bool) : State :=
  let c := s.chan ch
  let r := c.vbd.rx.receiver
  if c.vbd.state = 2 then
    let s1 := if !fresh then s else s.relayIfp c.peer (if r = 1 then .preamble else .training r c.vbd.armedRate o.long)
    if r = 1 then o.frames.foldl (fun s x => s.localFrame ch x) s1 else s1.imageIn ch r o.image
  else match o.char with
    | some k => s.readCode ch r k
    | none => s

/-- The audio leg's job: the receive chain, and what a qualified reception sends on the relay leg (R251, R252, R260, R265). While Baudot is
being sent, the Baudot receiver is suspended (R266). -/
def State.demodulate (s : State) (ch : Nat) (o : VbdObs) : State :=
  let c := s.chan ch
  let relay := c.peer
  let busy := c.vbd.state = 3 && (s.chan relay).vbd.transmitting && s.textSent relay = 5
  let seen := if busy && o.receiver = 5 then { o with qualified := false, char := none } else o
  let s1 := match c.vbd.rx.phase with
    | 1 => s.rxDetect ch seen
    | 4 => s.rxQualified ch seen
    | _ => s.rxUnqualified ch seen
  let live := decide ((s1.chan ch).vbd.rx.phase = 4)
  let s2 := if live then (s1.modVbd ch (fun v => { v with fast := o.fast })).received ch seen (c.vbd.rx.phase != 4) else s1
  let v := (s2.chan ch).vbd
  let s3 := s2.modChan relay (fun x => { x with ctx := { x.ctx with txBitrate := if live then rateOf v v.rx.receiver else 0 } })
  if c.vbd.rx.phase = 1 then s3 else s3.rxLows ch seen

/-- ANSam from the local fax is relayed as the ced indicator (R263). -/
def State.relayCed (s : State) (ch : Nat) (before : List DeclSig) : State :=
  let c := s.chan ch
  let fresh := c.tone.declared.any (fun d => (d.code = 34 || d.code = 35) && !before.any (fun b => b.code = d.code))
  if c.vbd.state = 2 && !c.vbd.relay && fresh then s.relayIfp c.peer .ced else s

/-- Signalling rate of what the relay leg sends toward the audio leg. -/
def State.rateSent (s : State) (relay : Nat) : Nat :=
  let v := (s.chan relay).vbd
  if !v.transmitting then 0 else
  if v.state = 3 then (if s.textSent relay = 6 then 300 else if (s.chan relay).fax.textTx = 2 || ((s.chan relay).fax.textTx = 0 && (s.chan (s.chan relay).peer).vbd.fast) then 50 else 45) else
  match v.toModem.head? with
  | some (.training _ r _) => r
  | some (.hdlc _ r _ _ _) => r
  | some (.image _ r _ _) => r
  | _ => 300

/-- One Saffron observation of a job in state 2 or 3 (R249). -/
def State.saffronJob (s : State) (ch : Nat) (o : VbdObs) : State :=
  let c := s.chan ch
  if !(c.vbd.state = 2 || c.vbd.state = 3) || c.st != .bound then s
  else if c.vbd.relay then
    let rate := s.rateSent ch
    (s.modulate ch o).modChan ch (fun x => { x with ctx := { x.ctx with rxBitrate := rate } })
  else s.demodulate ch o

/-- QUAL_WIN expires before qualification: a quiet abort (R253). -/
def qualificationTimeout (ch : Nat) (s : State) : State :=
  let c := s.chan ch
  let r := c.vbd.rx
  if (r.phase = 2 || r.phase = 3) && r.detected + abortWin c ≤ s.now then (s.bump supVbdFalseDetect).rxRestart ch 0 else s

def execQualificationTimeout (ch : ChanId) (s : State) : Out := .next (qualificationTimeout ch.val s)

/-- What WARM or a lost context leaves of Saffron (R267): state, parameters, NEXT_RX and the send sequence. -/
def vbdReset (v : Vbd) : Vbd :=
  { state := v.state, relay := v.relay, modulation := 0, pages := v.pages, lastDecl := v.lastDecl, armed := 0, lastLevel := v.lastLevel, lastAfc := v.lastAfc, lastAgc := v.lastAgc, saved := v.saved, nextRx := v.nextRx, txSeq := v.txSeq }

end Sys2Proof.Machine
end

