-- ==== Sys2Proof/Machine/Mirror.lean ====
section
/-! DEFINITION. What a member mirrors of a channel after each job (R465, R466): the sections of a DELTA or SYNC body, how a
body is queued, and the channel that a body restores. The rule names each section's content; the words within a section
are the model's own (log 28). -/

namespace Sys2Proof.Machine

def w64 (n : Nat) : Word64 := BitVec.ofNat 64 n
def w64i (n : Int) : Word64 := BitVec.ofInt 64 n

/-- A bit vector as 64-bit words, least first. -/
def splitWords (n v : Nat) : List Word64 := (List.range n).map (fun i => w64 (v / 2 ^ (64 * i)))
def joinWords (l : List Word64) : Nat := l.foldr (fun w a => w.toNat + a * 2 ^ 64) 0

/-- Coefficients, two in a 64-bit word, of a window of `n` taps. -/
def coefWords (n : Nat) (l : List Word32) : List Word64 :=
  (List.range (n / 2)).map (fun i => w64 ((l.getD (2 * i) 0).toNat + (l.getD (2 * i + 1) 0).toNat * 2 ^ 32))
def wordCoefs (l : List Word64) : List Word32 := l.flatMap (fun w => [BitVec.ofNat 32 w.toNat, BitVec.ofNat 32 (w.toNat / 2 ^ 32)])

/-- Context words as (offset, word) packed in 64 bits. -/
def ctxPairs (l : Tbl Word32) : List Word64 := l.map (fun e => w64 (e.1 + e.2.toNat * 2 ^ 32))
def pairWord (t : Tbl Word32) (w : Word64) : Tbl Word32 := tset t (w.toNat % 2 ^ 32) (BitVec.ofNat 32 (w.toNat / 2 ^ 32)) 0

def optNat (o : Option Nat) : Nat := match o with | none => 0 | some n => n + 1
def natOpt (n : Nat) : Option Nat := if n = 0 then none else some (n - 1)

/-- The sections of a channel (Table 19.4): every one where `all`, else KIND 5 only when its turn has come. -/
def State.sectionsOf (s : State) (ch : Nat) (all : Bool) : List (Nat × List Word64) :=
  let c := s.chan ch
  let t := c.steep
  let e := c.echo
  let x := c.ctx
  let win := fun (w : ReplayWin) => [w64 (w.top * 2 + b2n w.used)] ++ splitWords 2 w.bits.toNat
  [(1, ((s.newest ch).words.take 29)),
   (2, [packWord [(x.rxMode, 0, 8), (x.txMode, 8, 8), (x.encMode, 16, 8), (x.encBw, 24, 8), (b2n x.inCng, 32, 1), (b2n x.rxDtx, 33, 1), (b2n x.txInCng, 34, 1)],
        packWord [(x.rxBitrate, 0, 32), (x.txBitrate, 32, 32)]] ++ ctxPairs x.words),
   (3, [w64i t.offsetP, w64 (t.phase + t.period * 2 ^ 16), w64 t.target, w64 t.playSeq, w64 t.playTs] ++ splitWords 8 t.recvBits.toNat),
   (4, [packWord [(e.win0, 0, 12), (b2n e.win0Active, 12, 1), (e.win1, 16, 12), (b2n e.win1Active, 28, 1), (b2n e.converged, 32, 1), (b2n e.placed, 33, 1)],
        packWord [(optNat e.lastP1, 0, 32), (optNat e.lastP2, 32, 32)],
        packWord [(match e.erl with | none => 0x8000 | some v => wrapInt 16 v, 0, 16)]])] ++
  (if all || (x.jobs + ch) % 10 = 0 then
    [(5, [packWord [(e.win0, 0, 12), (e.win1, 16, 12), (b2n e.win1Active, 28, 1)]] ++ coefWords (tapsOf c) e.coef0 ++
      (if e.win1Active then coefWords (tapsOf c) e.coef1 else []))] else []) ++
  [(6, [w64 c.srx.roc] ++ win c.srx.win ++ win c.srx.rtcpWin ++ [w64 c.stx.roc]),
   (7, [packWord [(c.vbd.state, 0, 8), (c.vbd.pages, 16, 16), (c.vbd.txSeq.toNat, 32, 16)], w64 c.vbd.nextRx]),
   (8, [packWord [(c.egr.nextSeq.toNat, 0, 16), (c.egr.ipId.toNat, 16, 16), (c.weld.txSbn.toNat, 32, 16)], w64 (nextTs c c.tx.codec)])] ++
  (if c.ext = 0 && !all then [] else
    [(9, ctxPairs (if c.ext = 0 then [] else x.words.filter (fun w => decide (w.1 < min ((s.extDesc c.ext).getD [] |>.getD 4 65536) 8192))))])

/-- The body of a channel after its newest publication (R465). -/
def State.deltaOf (s : State) (ch : Nat) (all : Bool) : DeltaBody :=
  { ch := Fin.ofNat 65536 ch, epoch := (s.chan ch).pub.epoch, gen := (s.chan ch).pub.gen, tickTime := (s.newest ch).tickTime
    kernel := BitVec.ofNat 16 (s.kernelOf ch), sections := s.sectionsOf ch all }

/-- Queue the DELTA of a job (R465, R466): a newer one replaces an unsent one and keeps its KIND 5 if it has none. -/
def State.queueDelta (s : State) (ch : Nat) : State :=
  if !s.mirrored ch then s else
  let b := s.deltaOf ch false
  match (s.hm ch).queued with
  | none => s.modHm ch (fun h => { h with queued := some b, queuedAt := s.now })
  | some old =>
    let five := old.sections.filter (fun x => x.1 = 5)
    let has := b.sections.any (fun x => x.1 = 5)
    let secs := if has then b.sections else b.sections.filter (fun x => decide (x.1 < 5)) ++ five ++ b.sections.filter (fun x => decide (5 < x.1))
    (s.modHm ch (fun h => { h with queued := some { b with sections := secs }, queuedAt := s.now })).bump rngSuperseded

/-- Word `i` of a section. -/
def secWord (l : List Word64) (i : Nat) : Nat := (l.getD i 0).toNat

/-- One section is restored into a channel (R359, R470). -/
def restoreSection (c : Chan) (x : Nat × List Word64) : Chan :=
  let w := secWord x.2
  let win := fun (i : Nat) => ({ top := w i / 2, used := bit (w i) 0, bits := BitVec.ofNat 128 (joinWords ((x.2.drop (i + 1)).take 2)) } : ReplayWin)
  match x.1 with
  | 2 =>
    let a := w 0
    { c with ctx := { c.ctx with
      rxMode := bits a 0 8, txMode := bits a 8 8, encMode := bits a 16 8, encBw := bits a 24 8, inCng := bit a 32, rxDtx := bit a 33, txInCng := bit a 34
      rxBitrate := bits (w 1) 0 32, txBitrate := bits (w 1) 32 32, words := (x.2.drop 2).foldl pairWord [] } }
  | 3 =>
    { c with steep := { c.steep with
      offsetP := signed 64 (w 0), phase := bits (w 1) 0 16, period := bits (w 1) 16 16, target := w 2, playSeq := w 3, playTs := w 4
      recvBits := BitVec.ofNat 512 (joinWords (x.2.drop 5)) } }
  | 4 =>
    let a := w 0
    { c with echo := { c.echo with
      win0 := bits a 0 12, win0Active := bit a 12, win1 := bits a 16 12, win1Active := bit a 28, converged := bit a 32, placed := bit a 33
      lastP1 := natOpt (bits (w 1) 0 32), lastP2 := natOpt (bits (w 1) 32 32)
      erl := if bits (w 2) 0 16 = 0x8000 then none else some (signed 16 (w 2)) } }
  | 5 =>
    let n := tapsOf c / 2
    { c with echo := { c.echo with coef0 := wordCoefs ((x.2.drop 1).take n), coef1 := wordCoefs ((x.2.drop (1 + n)).take n) } }
  | 6 => { c with srx := { c.srx with ssrc := if (win 1).used then some c.rxSsrc else none, roc := w 0, win := win 1, rtcpWin := win 4 }, stx := { c.stx with roc := w 7 } }
  | 7 => { c with vbd := { c.vbd with state := bits (w 0) 0 8, pages := bits (w 0) 16 16, txSeq := BitVec.ofNat 16 (bits (w 0) 32 16), nextRx := w 1 } }
  | 8 =>
    { c with egr := { c.egr with nextSeq := BitVec.ofNat 16 (bits (w 0) 0 16), ipId := BitVec.ofNat 16 (bits (w 0) 16 16), rtpTs := BitVec.ofNat 32 (w 1), elapsed := 0 }
             weld := { c.weld with txSbn := BitVec.ofNat 16 (bits (w 0) 32 16) } }
  | 9 => { c with ctx := { c.ctx with words := x.2.foldl pairWord c.ctx.words } }
  | _ => c

/-- Coefficients that were taken under another placement than the mirrored one: it moves from theirs, at time `t` (R170, R180). -/
def placeFrom (t : Nat) (five : List Word64) (c : Chan) : Chan :=
  let e := c.echo
  let a := secWord five 0
  let then_ := { e with win0 := bits a 0 12, win1 := bits a 16 12, win1Active := bit a 28 }
  let f := moveOne exactMove (halfMs c) (if e.win1Active then some e.win1 else none) (moveZero t (halfMs c) (exactMove then_.win0 e.win0) e.win0 then_)
  { c with echo := { f with win1 := e.win1 } }

/-- The channel with a body's sections restored, at time `t` of its time base. -/
def restoreBody (t : Nat) (b : DeltaBody) (c : Chan) : Chan :=
  let d := b.sections.foldl restoreSection c
  match b.sections.find? (fun x => x.1 = 5) with
  | none => d
  | some x => placeFrom t x.2 d

end Sys2Proof.Machine
end

