-- ==== Sys2Proof/Machine/JobEnd.lean ====
section
/-! DEFINITION. What a job leaves when it reaches OUTEND (R42, R187, R192-R200, R274, R275, R378, R435): the frames it
releases to egress, the modes and comfort-noise flags, codec mode requests, its canceller, what its detectors and Saffron found,
and its publication. -/

namespace Sys2Proof.Machine

/-! ### Codec mode requests (R198, R199) -/

/-- One permitted step from `cur` toward `goal` (mode-change-neighbor). -/
def neighborStep (modes : List Nat) (cur goal : Nat) : Nat :=
  if cur < goal then (modes.filter (fun m => decide (cur < m) && decide (m ≤ goal))).foldl min goal
  else (modes.filter (fun m => decide (m < cur) && decide (goal ≤ m))).foldl max goal

/-- The next frame sent on the channel may change mode under mode-change-period 2: its RTP timestamp divided by the frame
length is even. -/
def changeSlot (b : Chan) : Bool :=
  !b.tx.mcp2 || streamTs b / max 1 (clockRate b.tx.codec * encoderFrame b.tx.codec / 1000) % 2 = 0

/-- A job that sends on the channel runs: the next frame is not known yet. -/
def State.encoding (s : State) (b : Nat) : Bool := (s.chan b).st = .bound && (s.chan (s.chan b).peer).job.isSome

/-- The request that waits on channel b moves the mode of the encoder toward it, once for each job that sends on b (R198, R199); a change
of mode marks a re-phase of the channel whose jobs encode it. Where no mode is permitted at the requested bandwidth, nothing changes. -/
def State.followRequest (s : State) (b : Nat) : State :=
  let c := s.chan b
  match c.ctx.cmrWait with
  | none => s
  | some (mode, bw) =>
    let band := if c.tx.codec = 7 then min bw c.tx.evsBw else c.ctx.encBw
    let modes := permittedModes c.tx.codec c.tx.modeSet band
    if c.ctx.cmrDone || s.encoding b || !changeSlot c || modes.isEmpty then s else
    let goal := boundMode modes mode
    let next := if c.tx.mcn then neighborStep modes c.ctx.encMode goal else goal
    let s1 := s.modChan b (fun c => { c with ctx := { c.ctx with encMode := next, encBw := band, cmrDone := true, cmrWait := if next = goal then none else some (mode, bw) } })
    if next = c.ctx.encMode || c.st != .bound then s1
    else s1.modChan c.peer (fun a => { a with steep := { a.steep with rephase := true } })

/-- A request that a job of channel b decoded, in a packet it had received, sets the encoding toward b where CMR_FOLLOW is 1. -/
def State.takeRequest (s : State) (b : Nat) (t : Task) : State :=
  let c := s.chan b
  let rx := (asJob c).rx
  let evs := fun (k : Nat) => k = 7 || k = 8
  match (if t.kind = .frame || t.kind = .recovered then requestIn { c with rx := rx } t.payload else none) with
  | none => s
  | some q =>
    if c.tx.cmrFollow && (rx.codec = c.tx.codec || (evs rx.codec && evs c.tx.codec))
    then (s.modChan b (fun c => { c with ctx := { c.ctx with cmrWait := some q, cmrFresh := some q, cmrDone := c.ctx.cmrDone && c.tx.mcn } })).followRequest b
    else s

/-! ### The receive side (R185, R193, R195) -/

/-- ms of audio that a job of a channel handles. -/
def jobMs (c : Chan) : Nat := if c.vbd.state = 2 || c.vbd.state = 3 then 5 else periodMs c.steep.period

/-- The audio a job of a channel starts from, one frame of it at the canceller rate: what the decoder, its concealment or its comfort
noise delivers (on a relay leg, its modulator: R257); silence at a gap without comfort noise (R193); G.711 and G.722 are silent after 60 ms of concealment in a row (R195). -/
def rxAudio (c : Chan) (t : Task) (r : JobReport) : List Int :=
  let m := 2 * halfMs c
  let n := jobMs c * m
  let xs := fit 0 n (toInts r.sin)
  if relayed c then modemAudio c xs else
  if t.kind = .gap && !c.ctx.inCng then List.replicate n 0
  else if t.kind = .conceal && 1 ≤ c.rx.codec && c.rx.codec ≤ 3 then xs.take ((60 - c.ctx.hiddenMs) * m) ++ List.replicate (n - (60 - c.ctx.hiddenMs) * m) 0
  else xs

/-- Modes, comfort noise and VAD of the received frame (R185, R193, R197, R130), over a job of `dur` ms. -/
def receiveSide (t : Task) (r : JobReport) (dur : Nat) (c : Chan) : Chan :=
  let got := decide (t.kind = .frame) || decide (t.kind = .recovered)
  let sid := got && isSidFrame c t.pt t.payload
  let mode := if got then frameMode c t.pt r.mode t.payload else none
  { c with
    steep := { c.steep with inactive := r.inactive }
    ctx := { c.ctx with
      inCng := if got then sid else c.ctx.inCng, rxDtx := c.ctx.rxDtx || sid
      rxMode := mode.getD c.ctx.rxMode, rxBitrate := (mode.map (fun m => bitRate c.rx.codec m t.payload.length (periodMs c.rx.period))).getD c.ctx.rxBitrate
      hiddenMs := if t.kind = .conceal then c.ctx.hiddenMs + dur else 0 } }

/-! ### The encoder's silence (R192, R194) -/

/-- What becomes of a frame: sent as speech, sent as a SID or comfort-noise packet, or not sent. -/
inductive FrameFate where
  | speech
  | sid
  | unsent
  deriving DecidableEq, Repr

/-- A SID or comfort-noise packet falls due in silence that has begun: by the rule of its codec, for a frame of `ms` with this noise
level. -/
def sidFalls (x : TxCodec) (d : Dtx) (frameMs : Nat) (noise : Int) (annexB : Bool) : Bool :=
  match x.codec with
  | 1 | 2 | 3 => decide (20 ≤ (noise - d.level).natAbs) || (x.sidMax != 0 && decide (x.sidMax < d.since + frameMs))
  | 4 => annexB
  | 9 => decide (400 ≤ d.since)
  | _ => decide (8 ≤ d.frames)

/-- One frame of `frameMs`, `xs` its audio at the encoder, `keep` new samples to 100 ms: with DTX 1 the VAD decides, active for 100 ms
more on G.711, G.722 and Opus; a tone holds it, and without one comfort noise at the input skips it (R192, R194). -/
def dtxStep (x : TxCodec) (keep frameMs : Nat) (voice tone noiseIn annexB : Bool) (xs : List Int) (d0 : Dtx) : Dtx × FrameFate :=
  let d := { d0 with input := newest keep (d0.input ++ toWords xs) }
  let hangs := x.codec ≤ 3 || x.codec = 9
  let speaks := !noiseIn && voice
  if !x.dtx || tone || speaks then ({ d with silent := false, hang := if hangs then 100 else 0 }, .speech)
  else if !noiseIn && 0 < d.hang then ({ d with silent := false, hang := d.hang - frameMs }, .speech)
  else
    let noise := level (toInts d.input)
    let units := max 1 (frameMs / encoderFrame x.codec)
    if !d.silent || sidFalls x d frameMs noise annexB
    then ({ d with silent := true, hang := 0, frames := units, since := frameMs, level := noise }, .sid)
    else ({ d with hang := 0, frames := d.frames + units, since := d.since + frameMs }, .unsent)

/-! ### Frames to egress (R187, R189, R192, R275) -/

/-- What goes on to the encoder of a job: its audio at the canceller rate, and the band above 8 kHz by sample (R157). -/
structure JobAudio where
  out  : List Int
  high : List Int := []

/-- Samples `i` of `n` equal parts. -/
def part (n i : Nat) (l : List Int) : List Int := cut l (i * (l.length / n)) (l.length / n)

/-- The frames of a job as egress gets them, as many as its audio makes at the transmit period, and the encoder's silence after them.
Those sent take the frames that the job's lane closed, in order; packets after the first one are a transmit period apart on the job's time
base. In state 4 every frame is active (R250). -/
def outFrames (a b : Chan) (t : Task) (r : JobReport) (now : Nat) (x : JobAudio) (frames : List (List Byte)) : List OutFrame × Dtx :=
  let rx := jobMs a
  let tx := periodMs b.tx.period
  let n := max 1 (rx / tx)
  let frameMs := if rx < tx then rx else tx
  let encFs := if txFs b = 0 then 0 else 1
  let atEnc := if encFs = cancellerFs a then x.out else Config.otherRate (cancellerFs a) x.out
  let tone := toneActive a b
  let noiseIn := a.ctx.inCng || decide (t.kind = .gap)
  let step := fun (acc : List OutFrame × Dtx × List (List Byte)) (i : Nat) =>
    let (d, fate) := dtxStep { b.tx with dtx := b.tx.dtx && b.vbd.state != 4 } (if encFs = 0 then 800 else 1600) frameMs (r.voice.getD i true) tone noiseIn r.sidDue (part n i atEnc) acc.2.1
    let goes := fate != .unsent && !acc.2.2.isEmpty
    let f : OutFrame := {
      payload := if goes then acc.2.2.headD [] else [], pcm := toWords (part n i x.out), high := toWords (part n i x.high)
      sid := decide (fate = .sid), codec := b.tx.codec, need := ms tx, pt := if fate = .sid && b.tx.codec ≤ 3 then b.rx.cnPt else b.tx.pt, span := ms frameMs
      sent := goes && !mediaHeld b, tb := a.tb, launch := if i = 0 then none else some (now + i * ms tx) }
    (acc.1 ++ [f], d, if goes then acc.2.2.tail else acc.2.2)
  let z := (List.range n).foldl step ([], b.egr.dtx, frames)
  (z.1, z.2.1)

/-- A job's frames enter the egress queue of the channel it sends on; mode and bit rate of the last frame encoded follow (R185), and whether
comfort noise is sent. -/
def State.sendFrames (s : State) (ch : Nat) (t : Task) (r : JobReport) (x : JobAudio) (frames : List (List Byte)) : State :=
  let a := s.chan ch
  if a.st != .bound then s else
  let b := s.chan a.peer
  if (b.st != .open && b.st != .bound) || relayed b then s else
  let (out, d) := outFrames a b t r (s.tbVal a.tb) x frames
  let enc := (a.job.map (·.encMode)).getD b.ctx.encMode
  let mode := fun (f : OutFrame) => if b.tx.codec = 9 then opusMode f.payload else if f.sid then sidMode b.tx.codec enc else enc
  let last := (out.filter (·.sent)).getLast?
  s.modChan a.peer (fun b => { b with
    egr := { b.egr with outQ := b.egr.outQ ++ out, dtx := d }
    ctx := { b.ctx with txInCng := d.silent, txMode := (last.map mode).getD b.ctx.txMode
                        txBitrate := (last.map (fun f => bitRate b.tx.codec (mode f) f.payload.length (f.span / 1000000))).getD b.ctx.txBitrate } })

/-! ### The reference (R156, R378) -/

/-- A's job reads both time bases (R378): an accumulated difference of one sample period slips Rin by one sample at the start of its frame,
and the change since A's previous job is accumulated. -/
def State.rinSlip (s : State) (ch : Nat) : State :=
  let c := s.chan ch
  if c.st != .bound then s else
  let b := s.chan c.peer
  let d : Int := (s.tbVal c.tb : Int) - s.tbVal b.tb
  let per : Int := samplePeriod c
  let acc := c.ctx.slipAcc
  let slip : Int := if per ≤ acc then per else if acc ≤ -per then -per else 0
  let delta := match c.ctx.lastDiff with
    | none => 0
    | some l => d - l
  s.modChan ch (fun c => { c with ctx := { c.ctx with slipAcc := acc - slip + delta, lastDiff := some d }
                                  echo := { c.echo with rinDiff := some ((c.echo.rinDiff.getD d) + slip) }
                                  stats := { c.stats with rinSlips := c.stats.rinSlips + b2n (slip != 0) } })

/-- What a job sends on the peer is the peer's Rin, from the job's tick on (R156). -/
def State.pushRin (s : State) (ch tick : Nat) (xs : List Int) : State :=
  let a := s.chan ch
  if a.st != .bound then s else
  let b := s.chan a.peer
  let ys := if cancellerFs a = cancellerFs b then xs else Config.otherRate (cancellerFs a) xs
  s.modEcho a.peer (fun e => { e with rin := e.rin.push (samplePeriod b) tick (toWords ys) })

/-- KIND of a task (Table 12.9). -/
def kindCode : TaskKind → Nat
  | .frame => 0
  | .gap => 1
  | .conceal => 2
  | .recovered => 3
  | .immediate => 4

/-- The frame of each direction joins the channel's replay buffer (R434, R435): Sin, and the newest frame of Rin. -/
def State.replayAppend (s : State) (ch : Nat) (t : Task) (sin : List Int) : State :=
  let c := s.chan ch
  let rec1 := fun (dir : Nat) (x : List Word16) =>
    ({ time := t.tick, dir := dir, kind := kindCode t.kind, rate := cancellerFs c, orig := 2 * x.length, data := x.flatMap (fun w => leBytes 2 w.toNat) } : CapRec)
  (s.capAppend ch (rec1 0 (toWords sin))).capAppend ch (rec1 1 (fit 0 sin.length (Sys2Proof.Machine.newest sin.length c.echo.rin.samples)))

/-! ### Immediate tasks (R92, R240, R261) -/

/-- The report block on stream `ssrc` in a compound RTCP packet's SRs and RRs, 24 bytes (RFC 3550). -/
def rtcpBlock (ssrc : Nat) : Nat → List Byte → Option (List Byte)
  | 0, _ => none
  | n + 1, p =>
    let pt := byteAt p 1
    let len := 4 * (be16 p 2 + 1)
    let first := if pt = 200 then 28 else 8
    let blocks := ((List.range (byteAt p 0 % 32)).map (fun i => slice p (first + 24 * i) 24)).filter (fun b => b.length = 24 && be32 b 0 = ssrc)
    if p.length < 8 then none
    else if (pt = 200 || pt = 201) && !blocks.isEmpty then blocks.head?
    else rtcpBlock ssrc n (p.drop len)

/-- FRACTION_LOST and CUM_LOST of a report block (Table 2.3). -/
def blockLoss (b : List Byte) : Nat := byteAt b 4 + (byteAt b 5 * 65536 + be16 b 6) * 256

/-- RTT in 0.1 ms of a report block that arrives at `at_` ns on the channel's time base: A - LSR - DLSR in 1/65,536 s, 0xFFFF where the peer
has had no sender report. DEDUCED (log 75). -/
def blockRtt (at_ : Nat) (b : List Byte) : Nat :=
  if be32 b 16 = 0 then 0xFFFF
  else min 0xFFFE ((at_ * 65536 / 1000000000 + 2 ^ 33 - be32 b 16 - be32 b 20) % 2 ^ 32 * 10000 / 65536)

/-- What an immediate task does at its job's end: an RFC 4733 event, an RTCP report or a UDPTL packet. -/
def State.immediateJob (s : State) (t : Task) : State :=
  match t.flowKind with
  | 1 => match rtcpBlock (s.chan t.ch).egr.ssrc.toNat t.payload.length t.payload with
    | none => s
    | some b => s.modChan t.ch (fun c => { c with rtcpLost := BitVec.ofNat 32 (blockLoss b), rtt := BitVec.ofNat 16 (blockRtt t.tick b) })
  | 3 => s.udptlPacket t.ch t.payload
  | _ => s.rxEventPacket t.ch t.ts t.payload

/-! ### A media or Saffron job -/

/-- The call-progress definitions (Table 10.7): the fields that differ from their reset values. -/
def isCpt (key : Nat) : Bool := 0x10800 * 64 ≤ key && key < 0x10C00 * 64
def State.cpts (s : State) : Tbl Nat := s.regs.filter (fun e => isCpt e.1)
def State.setCpts (s : State) (t : Tbl Nat) : State :=
  { s with regs := t.foldl (fun m e => tins m e.1 e.2) (s.regs.filter (fun e => !isCpt e.1)) }


/-- What a media or Saffron job of engine `e` finds and releases, in the order of R187. -/
def State.mediaJob (s : State) (e : Nat) (t : Task) (r : JobReport) (frames : List (List Byte)) : State :=
  let ch := t.ch
  let dur := jobMs (s.chan ch)
  let s1 := ((s.servedBy ch (e / 24) t.tick).rinSlip ch).modVbd ch (fun v => if relayed (s.chan ch) then vbdRise s.now v else v)
  let sin := rxAudio (s1.chan ch) t r
  let (s2, o) := (s1.modChan ch (fun c => receiveSide t r dur (rampSent c))).cancel ch t.tick sin r.inactive r.ans
  let before := (s2.chan ch).tone.declared
  let (s3, out) := s2.toneJob ch t.tick dur r.tones o.out
  let s4 := r.vbd.foldl (fun (s : State) v => s.saffronJob ch v) (s3.relayCed ch before)
  -- The band above 8 kHz takes the gain of the residual (R157).
  let high := ((toInts r.high).zip o.gain).map (fun (x : Int × Nat) => x.1 * (x.2 : Int) / (8 * halfMs (s1.chan ch) : Nat))
  ((s4.sendFrames ch t r { out := out, high := high } frames).pushRin ch t.tick out).replayAppend ch t sin

/-- Keep what a job changed; where it changed nothing, what commands have set since its dispatch stands. -/
def keepNew {α : Type} [DecidableEq α] (after job now : α) : α := if after = job then now else after

/-- A job finishes with the call-progress definitions it read at its start (R233). -/
def State.withCpts (s : State) (cpt : Tbl Nat) (f : State → State) : State :=
  if cpt = s.cpts then f s else (f (s.setCpts cpt)).setCpts s.cpts

/-- A job finishes with the settings it was dispatched with (R37). -/
def State.withJobSet (s : State) (ch : Nat) (g : State → State) : State :=
  let c := s.chan ch
  match c.job with
  | none => g s
  | some j =>
    let f := fun (s : State) => s.withCpts j.cpt g
    let p := s.chan j.peer
    let s1 := s.modChan ch asJob
    let s2 := if j.st = .bound then s1.modChan j.peer (fun b => { b with rx := j.peerRx, tx := j.peerTx, vbd := (j.vbd.map (·.2)).getD b.vbd }) else s1
    let s3 := f s2
    let s4 := s3.modChan ch (fun x => { x with
      st := keepNew x.st j.st c.st, peer := keepNew x.peer j.peer c.peer, hostTag := c.hostTag, rx := keepNew x.rx j.rx c.rx, tx := keepNew x.tx j.tx c.tx
      jit := { x.jit with adaptive := keepNew x.jit.adaptive j.adaptive c.jit.adaptive }, ecs := keepNew x.ecs j.ecs c.ecs, tns := keepNew x.tns j.tns c.tns
      gls := keepNew x.gls j.gls c.gls, fec := keepNew x.fec j.fec c.fec, fax := keepNew x.fax j.fax c.fax, pub := { x.pub with applied := c.pub.applied }
      egr := { x.egr with ssrc := c.egr.ssrc }, vbd := if j.vbd.isSome then c.vbd else x.vbd
      ctx := { x.ctx with rxDtx := if j.rxDtx.isSome then c.ctx.rxDtx else x.ctx.rxDtx }
      job := x.job.map (fun j => { j with rxDtx := j.rxDtx.map (fun _ => x.ctx.rxDtx), vbd := j.vbd.map (fun v => (x.vbd, v.2)) }) })
    let s5 := if j.st = .bound then s4.modChan j.peer (fun b => { b with rx := keepNew b.rx j.peerRx p.rx, tx := keepNew b.tx j.peerTx p.tx
                                                                         vbd := if j.vbd.isSome then p.vbd else b.vbd }) else s4
    if c.pub.newer || p.rx != j.peerRx || p.tx != j.peerTx then s5.replan else s5

/-! ### Commit and publication (R42, R274) -/

/-- KERNEL_EPOCH of a kernel in the pack of an engine (R484). -/
def State.epochOf (s : State) (e id : Nat) : Nat :=
  match s.packFor e with
  | none => 0
  | some p => ((p.kernels.find? (fun k => k.1 = id)).map (·.2.1)).getD 0

/-- PLACEMENT of a job (Table 2.3). -/
def State.placementOf (s : State) (e lane : Nat) (k : Skein) : Word64 :=
  packWord [(e, 0, 8), (lane, 8, 4), (k.key.kernel, 16, 16), (s.epochOf e k.key.kernel, 32, 8), (k.fill, 40, 5)]

/-- STS words of one lane written into a context. -/
def commitWords (lane : Nat) (sts : List (Nat × Nat × Word32)) (m : Tbl Word32) : Tbl Word32 :=
  sts.foldl (fun m w => if w.1 = lane then tset m w.2.1 w.2.2 0 else m) m

/-- The lines of a channel's context that a lane's STS words lie in. -/
def writtenLines (ch lane : Nat) (sts : List (Nat × Nat × Word32)) : List Nat :=
  ((sts.filter (fun w => w.1 = lane)).map (fun w => ch * 1024 + w.2.1 / 64)).eraseDups

/-- A line of a context is filled into the cache of cluster `k` (R13), 4 MiB in all; a full cache lets its oldest line go: DESIGN CHOICE
(log 98). -/
def State.fillLine (s : State) (k line : Nat) : State :=
  let c := tget s.mem.caches k []
  if c.contains line then s
  else { s with mem := { s.mem with caches := tset s.mem.caches k ((if c.length < 65536 then c else c.drop 1) ++ [line]) [] } }

/-- A line that cluster `k` has written is in its cache and in no other: the caches stay coherent (R13). -/
def State.ownLine (s : State) (k line : Nat) : State :=
  State.fillLine { s with mem := { s.mem with caches :=
    (s.mem.caches.map (fun c => if c.1 = k then c else (c.1, c.2.erase line))).filter (fun c => !c.2.isEmpty) } } k line

/-- The STS words of a lane of engine `e` are committed to its channel's context, through its cluster's cache. -/
def State.commit (s : State) (e lane ch : Nat) (sts : List (Nat × Nat × Word32)) : State :=
  (writtenLines ch lane sts).foldl (fun s l => s.ownLine (e / 8) l)
    (s.modChan ch (fun c => { c with ctx := { c.ctx with words := commitWords lane sts c.ctx.words } }))

/-! ### RTCP XR (R137, R201) -/

/-- A channel's RTCP report carries its XR blocks, and their interval ends with it (R137). -/
def State.xrReport (s : State) (ch : Nat) : State :=
  let c := s.chan ch
  if !c.xrEn then s else
  let whole := fun (n : Int) => wrapInt 8 (n / 10)
  let rtt := if c.rtt = 0xFFFF then 0 else c.rtt.toNat / 10
  let noise := if c.echo.background.isEmpty then 127 else whole (levelOf (c.echo.background.foldl (· + ·) 0) 1)
  let rerl := match c.echo.erl with
    | none => 127
    | some x => whole (x + c.echo.erle)
  let b := xrBlocksOf c (s.rd stpXrGmin) (s.endDelay c) rtt (whole c.echo.soutLevel) noise rerl
  s.modChan ch (fun c => { c with xrBlocks := b, xrLast := c.xr, xr := {} })

/-- The job of one lane reaches OUTEND: its context words and Glaze lane states are committed, its results take effect, and
its record is published; a codec mode request that it decoded, and one that waits for its next job, take their turn after it. A job on a
lost context commits nothing and is lost (R359, R50). -/
def State.jobOutEnd (s : State) (e lane : Nat) (k : Skein) (t : Task) (r : JobReport) (x : Engine) : State :=
  if (s.chan t.ch).ctx.lost then s.jobLost t else
  let s1 := (s.commit e lane t.ch x.sts).modChan t.ch (fun c => { c with
    ctx := { c.ctx with lanes := (tget x.glzLanes lane []).foldl (fun m g => tins m g.1 g.2) c.ctx.lanes, jobs := c.ctx.jobs + 1 }
    stats := { c.stats with glzUnsettled := c.stats.glzUnsettled + tget x.glzUnsettled lane 0 } })
  let s2 := if t.cls = 0 then s1.immediateJob t else s1.withJobSet t.ch (fun s => s.mediaJob e t r (tget x.frames lane []))
  let s3 := if r.rtcp then s2.xrReport t.ch else s2
  let s4 := (s3.immFree t).modChan t.ch (fun c => { c with pub := { c.pub with jobTick := some t.tick, placement := s3.placementOf e lane k } })
  let s5 := ((if t.cls = 0 then s4 else s4.takeRequest t.ch t).publishJob t.ch)
  if (s5.chan t.ch).st = .bound then s5.followRequest (s5.chan t.ch).peer else s5

end Sys2Proof.Machine
end

