-- ==== Sys2Proof/Machine/Mordant.lean ====
section
/-! DEFINITION. Mordant (spec/13_scheduler.md): acceptance and back-pressure, windows, stealing, transit, cancels of running
jobs, evacuation, retirement and restoration, load. -/

namespace Sys2Proof.Machine

/-! ### Offers (R317, R327) -/

/-- The task with its deadline and acceptance (R309). -/
def State.accepted (s : State) (t : Task) : Task :=
  let tb := (s.chan t.ch).tb
  let d := (s.now : Int) + ((t.tick : Int) - s.tbVal tb) + us 1410
  { t with deadline := d.toNat, acceptedAt := s.now, refused := false }

/-- The release queue as its next offer finds it, and which task is offered (R133): the first that Mordant has not refused in
this round; when all have been refused a new round begins. DEDUCED (log 29). -/
def nextOffer (l : List Task) : List Task × Nat :=
  match l.findIdx? (fun t => !t.refused) with
  | some i => (l, i)
  | none => (l.map (fun t => { t with refused := false }), 0)

def State.setRelQ (s : State) (l : List Task) : State := { s with mor := { s.mor with relQ := l } }

/-- Steep offers a task (R133, R327). A cancel in the same FCLK cycle wins (Table 13.2). A task is accepted while its home list
has more than IMM_RESERVE free slots; it supersedes the channel's undispatched task. -/
def taskOffer (cancelledNow : Bool) (s : State) : State :=
  let q := nextOffer s.mor.relQ
  match q.1[q.2]? with
  | none => s
  | some t0 =>
    let t := s.accepted t0
    let s1 := s.assignHome t.ch t
    let home := (s1.chan t.ch).home
    let e := home.getD 0
    let taken := s1.setRelQ (q.1.eraseIdx q.2)
    if cancelledNow then (taken.bump morCancelPre e).traceTask 5 e 0xFF 0 t
    else if home.isNone || s1.freeSlots e ≤ s1.rd morImmReserve then
      ((s1.setRelQ (q.1.set q.2 { t0 with refused := true })).bump morRefused).traceTask 1 e 0xFF 0 t
    else (((taken.supersede t.ch).bump morAccepted e).enlist e t).traceTask 0 e 0xFF 0 t

def execTaskOffer (cancelledNow : Bool) (s : State) : Out := .next (s.whileOn [29] (taskOffer cancelledNow))

/-! ### Immediate tasks (R309, R328) -/

/-- An immediate task as Mordant accepts it. -/
def State.immTask (s : State) (i : ImmTask) : Task :=
  { ch := i.ch, kind := .immediate, cls := 0, deadline := s.now + us 200, acceptedAt := s.now, tick := s.tbVal (s.chan i.ch).tb
    payload := i.payload, pt := i.pt, marker := i.marker, flowKind := i.flowKind, ts := i.ts, buffers := i.buffers }

/-- Engines of a cluster. -/
def clusterOf (e : Nat) : List Nat := (List.range 8).map (fun i => e / 8 * 8 + i)

/-- Place a class 0 task: in its home list while that has a free slot, else in the lowest-numbered serving engine of the
cluster that has one. -/
def State.placeImm (s : State) (i : ImmTask) : Option State :=
  let t := s.immTask i
  let s1 := s.assignHome t.ch t
  match (s1.chan t.ch).home with
  | none => none
  | some e =>
    if 0 < s1.freeSlots e then some (((s1.bump morAccepted e).enlist e t).traceTask 0 e 0xFF 0 t)
    else match (clusterOf e).find? (fun x => (s1.me x).service = 0 && decide (0 < s1.freeSlots x)) with
    | none => none
    | some x => some ((((s1.bump morImmRedirect).bump morAccepted x).enlist x t).traceTask 0 e x 0 t)

/-- Drop an immediate task: its IMM buffers are freed. -/
def State.dropImm (s : State) (i : ImmTask) : State :=
  (s.freeBuf 1 i.buffers).modChan i.ch (fun c => { c with ingressHeld := c.ingressHeld - i.buffers })

/-- The oldest immediate task from ingress is placed, redirected, held, or dropped with the hold queue full. One whose channel
has closed meanwhile is let go. -/
def immediateTaskAccept (s : State) : State :=
  match s.ing.immIn with
  | [] => s
  | i :: rest =>
    let s1 := { s with ing := { s.ing with immIn := rest } }
    let st := (s.chan i.ch).st
    if st != .open && st != .bound then s1.dropImm i
    else match s1.placeImm i with
    | some t => t
    | none =>
      if s1.ing.immHold.length < 256 then { s1 with ing := { s1.ing with immHold := s1.ing.immHold ++ [i] } }
      else (s1.dropImm i).bump morImmDrop

def execImmediateTaskAccept (s : State) : Out := .next (s.whileOn [29] immediateTaskAccept)

/-- The oldest held immediate task is offered again (R328). -/
def immediateHoldReoffer (s : State) : State :=
  match s.ing.immHold with
  | [] => s
  | i :: rest =>
    let s1 := { s with ing := { s.ing with immHold := rest } }
    let st := (s.chan i.ch).st
    if st != .open && st != .bound then s1.dropImm i
    else (s1.placeImm i).getD s

def execImmediateHoldReoffer (s : State) : Out := .next (s.whileOn [29] immediateHoldReoffer)

/-! ### Windows (R316) -/

/-- The window of a forming skein has passed: it closes. -/
def skeinWindowClose (e index : Nat) (s : State) : State :=
  match (s.me e).forming[index]? with
  | none => s
  | some k => if k.openedAt + s.window k.cls ≤ s.now then s.closeSkein e k.num else s

def execSkeinWindowClose (e : EngineId) (index : Nat) (s : State) : Out := .next (s.whileOn [29] (skeinWindowClose e.val index))

/-! ### Stealing (R322, R323) -/

/-- A skein that may be stolen, with its owner: closed earliest, then earliest deadline, lowest owner, lowest number. -/
def stealOrder (a b : Nat × Skein) : Bool :=
  if a.2.closedAt != b.2.closedAt then decide (a.2.closedAt < b.2.closedAt)
  else if a.2.deadline != b.2.deadline then decide (a.2.deadline < b.2.deadline)
  else if a.1 != b.1 then decide (a.1 < b.1)
  else decide (a.2.num < b.2.num)

def bestSteal : List (Nat × Skein) → Option (Nat × Skein)
  | [] => none
  | x :: r => match bestSteal r with
    | none => some x
    | some b => if stealOrder b x then some b else some x

/-- An idle engine that has been idle for `wait` takes a due skein of the engines given, whole, if its list has room; otherwise
its idleness starts again. -/
def State.steal (s : State) (e wait : Nat) (owners : List Nat) (far : Bool) : State :=
  let m := s.me e
  let ready := s.flag morStealEn && m.service = 0 && m.idleSince.any (fun t => decide (t + wait ≤ s.now)) && !s.mor.transit.any (fun x => x.dest = e)
  if !ready then s else
  let cands := (owners.filter (· != e)).flatMap (fun v => (s.me v).due.map (fun k => (v, k)))
  match bestSteal cands with
  | none => s.modMe e (fun m => { m with idleSince := some s.now })
  | some (v, k) =>
    if s.freeSlots e < k.tasks.length then s.modMe e (fun m => { m with idleSince := some s.now })
    else
      let s1 := s.modMe v (fun m => { m with due := m.due.filter (fun x => x.num != k.num) })
      let s2 := { s1 with mor := { s1.mor with transit := s1.mor.transit ++ [({ src := v, dest := e, kind := 1, skein := k } : Transit)] } }
      (((s2.bump morStolenIn e).bump morStolenOut v).traceSkein 4 e v (if !far then 0 else if v / 24 = e / 24 then 1 else 2) k).idle v

def stealNear (e : Nat) (s : State) : State := s.steal e (s.rd morStealNear) (clusterOf e) false

def execStealNear (e : EngineId) (s : State) : Out := .next (s.whileOn [29] (stealNear e.val))

/-- After FAR: from the quadrant, or from any quadrant while an evacuation window is open (R322, R325). -/
def stealFar (e : Nat) (s : State) : State :=
  let all := if s.mor.evacEnd.isEmpty then (List.range 24).map (fun i => e / 24 * 24 + i) else List.range 96
  s.steal e (s.rd morStealFar) all true

def execStealFar (e : EngineId) (s : State) : Out := .next (s.whileOn [29] (stealFar e.val))

/-! ### Transit (R313, R324) -/

/-- Tasks of a forming skein join the forming skein of their key, or become it (R324): the window counts from the earliest
acceptance, 16 tasks close it, and those left over form the key's new forming skein with the same window start. -/
def State.mergeForming (s : State) (e : Nat) (k : Skein) : State :=
  match (s.me e).forming.find? (fun x => decide (x.key = k.key) && x.cls = k.cls) with
  | none => s.modMe e (fun m => { m with forming := m.forming ++ [k] })
  | some x =>
    let all := x.tasks ++ k.tasks
    let opened := min x.openedAt k.openedAt
    let s1 := s.modMe e (fun m => { m with forming := m.forming.map (fun y => if y.num = x.num then { y with tasks := all.take 16, openedAt := opened } else y) })
    if all.length < 16 then s1
    else
      let s2 := s1.closeSkein e x.num
      if all.length = 16 then s2
      else s2.newNum.modMe e (fun m => { m with forming := m.forming ++ [({ k with num := s2.mor.nextNum, tasks := all.drop 16, openedAt := opened } : Skein)] })

/-- What arrives joins the receiving list (R313, R324). -/
def State.arrive (s : State) (x : Transit) : State :=
  let s1 := match x.kind with
    | 0 => s.mergeForming x.dest x.skein
    | 1 => (s.modMe x.dest (fun m => { m with due := m.due ++ [x.skein] })).raiseSwitch x.dest
    | _ => x.skein.tasks.foldl (fun s t => s.enlist x.dest t) s
  (s1.markHeld x.dest).idle x.dest

/-- The receiving list has the slots that a transit takes there; its own count where it goes back to its sender. -/
def State.fits (s : State) (x : Transit) : Bool :=
  decide (slotsHeld (s.me x.dest) + s.slotsFrom x.dest + (if x.src = x.dest then 0 else x.skein.tasks.length) ≤ 1024)

/-- The oldest transit that fits its list ends (R313, R31): the sender's slots are free and the receiver's are taken. That one which finds
the list full waits: DESIGN CHOICE (log 99). -/
def taskTransitEnd (s : State) : State :=
  match s.mor.transit.find? s.fits with
  | none => s
  | some x => State.arrive { s with mor := { s.mor with transit := s.mor.transit.erase x } } x

def execTaskTransitEnd (s : State) : Out := .next (s.whileOn [29] taskTransitEnd)

/-! ### Ends and losses of skeins -/

/-- The job of a lane is over: with OUTEND behind it, its DELTA is queued (R465), else it is lost (R50). -/
def State.closeLane (s : State) (done : Bool) (t : Task) : State :=
  (if done then s.queueDelta t.ch else s.jobLost t).laneEnd t

/-- Tasks of the lanes still set in a running skein. -/
def runningTasks (k : Skein) : List Task := ((k.tasks.zipIdx).filter (fun t => k.mask.getLsbD t.2)).map (·.1)

/-- An engine as a suspended skein finds it again (R302): its own registers, the memories and counts as they now are. -/
def resumedEngine (own cur : Engine) : Engine :=
  { own with pmem := cur.pmem, pmemBad := cur.pmemBad, xmem := cur.xmem, ymem := cur.ymem, count := cur.count, captured := cur.captured, glzBusy := cur.glzBusy, irqFault := cur.irqFault, irqSwitch := cur.irqSwitch, fault := cur.fault }

/-- The running skein leaves the engine; a suspended one resumes (R319). -/
def State.leaveEngine (s : State) (e : Nat) : State :=
  match (s.me e).suspended with
  | none => (s.modMe e (fun m => { m with running := none })).idle e
  | some k =>
    let s1 := s.modMe e (fun m => { m with running := some k, suspended := none })
    let s2 := s1.modEng e (fun x => resumedEngine (tget s.saved e {}) x)
    ({ s2 with saved := terase s2.saved e }).raiseSwitch e

/-- A retiring engine that is empty is retired, and its ENGINE_RETIRE completes with the channels rehomed (R326, R490). -/
def State.retireCheck (s : State) (e : Nat) : State :=
  let m := s.me e
  if m.service != 1 || m.running.isSome || m.suspended.isSome || !m.dq.isEmpty || slotsHeld m != 0 then s else
  let s1 := s.modMe e (fun m => { m with service := 2, retireQ := none })
  match m.retireQ with
  | none => s1
  | some (q, tag) => s1.complete q tag 0x60 stOK 0 m.rehomed 0

/-- The running skein of an engine is over; the lanes still set end, after OUTEND or lost. -/
def State.endSkein (s : State) (e : Nat) : State :=
  match (s.me e).running with
  | none => s
  | some k =>
    let done := (s.eng e).outDone
    let s1 := s.leaveEngine e
    ((runningTasks k).foldl (fun s t => s.closeLane done t) s1).retireCheck e

/-! ### Cancel of a running job (R320, R321) -/

/-- The cancel of a lane of a running skein is recorded where its job is still running ABORT after its deadline. -/
def abortLane (lane limit now : Nat) (k : Skein) : Option Skein :=
  match k.tasks[lane]? with
  | none => none
  | some t => if k.mask.getLsbD lane && !k.cancels.getLsbD lane && t.deadline + limit ≤ now
    then some { k with cancels := k.cancels ||| ((1 : Word16) <<< lane) } else none

def jobAbort (e lane : Nat) (s : State) : State :=
  let limit := ms (s.rd morAbort)
  let m := s.me e
  if s.rd morAbort = 0 then s else
  let count := fun (s : State) (k : Skein) =>
    match k.tasks[lane]? with
    | none => s
    | some t => (s.bump morCancelYield e).traceTask 5 e 0xFF 4 t
  match m.running.bind (abortLane lane limit s.now), m.suspended.bind (abortLane lane limit s.now) with
  | some k, _ => count (s.modMe e (fun m => { m with running := some k })) k
  | none, some k => count (s.modMe e (fun m => { m with suspended := some k })) k
  | none, none => s

def execJobAbort (e : EngineId) (lane : Fin 16) (s : State) : Out := .next (jobAbort e.val lane.val s)

/-! ### Evacuation and retirement (R324-R326) -/

/-- 950,000 engine-us per second, in sixteenths. -/
def evacLimit : Nat := 950000 * 16

/-- The new home of a channel of a lost engine: the least loaded serving engine that the channel leaves within the limit, first
in the cluster, then in the quadrant, then beyond; failing all, the least loaded anywhere. -/
def State.newHome (s : State) (e ch : Nat) : Option Nat :=
  let ok := s.serving
  let room := ok.filter (fun x => decide (s.assigned x + s.loadOf ch ≤ evacLimit))
  let near := room.filter (fun x => x / 8 = e / 8)
  let quad := room.filter (fun x => x / 24 = e / 24)
  match s.leastLoaded near with
  | some x => some x
  | none => match s.leastLoaded quad with
    | some x => some x
    | none => match s.leastLoaded room with
      | some x => some x
      | none => s.leastLoaded ok

/-- One channel is rehomed. -/
def State.rehome (s : State) (e ch : Nat) : State :=
  match s.newHome e ch with
  | none => s.modChan ch (fun c => { c with home := none })
  | some n =>
    (((s.modChan ch (fun c => { c with home := some n })).bump morRehomed).modMe e (fun m => { m with rehomed := m.rehomed + 1 })).trace
      { kind := 6, engine := n, other := e, cls := taskClass (s.chan ch), key := s.keyOf ch, chan := ch, deadline := s.now }

/-- The channels homed on an engine, in order. -/
def State.homedOn (s : State) (e : Nat) : List Nat := (s.chans.filter (fun c => c.2.home = some e)).map (·.1)

/-- A skein of a list cut by the new homes of its channels (R324): tasks that reach the same home stay together. -/
def State.splitSkein (s : State) (src kind : Nat) (k : Skein) : List Transit :=
  let homeOf := fun (t : Task) => (s.chan t.ch).home
  let homes := (k.tasks.map homeOf).eraseDups
  homes.filterMap (fun h => h.map (fun n => { src := src, dest := n, kind := kind, skein := { k with tasks := k.tasks.filter (fun t => homeOf t = some n) } }))

/-- The parts of a split beyond the first take new skein numbers. -/
def State.send (s : State) (l : List Transit) : State :=
  (l.zipIdx).foldl (fun s x =>
    let x1 := if x.2 = 0 then x.1 else { x.1 with skein := { x.1.skein with num := s.mor.nextNum } }
    let s1 := if x.2 = 0 then s else s.newNum
    { s1 with mor := { s1.mor with transit := s1.mor.transit ++ [x1] } }) s

/-- Everything undispatched in an engine's list moves with its channels, in transit; what no home takes stays. -/
def State.moveLists (s : State) (e : Nat) : State :=
  let m := s.me e
  let stay := fun (t : Task) => (s.chan t.ch).home.isNone
  let left := fun (l : List Skein) => dropTasks (fun t => !stay t) l
  let s1 := s.modMe e (fun m => { m with forming := left m.forming, due := left m.due, waiting := m.waiting.filter stay })
  let s2 := m.forming.foldl (fun s k => s.send (s.splitSkein e 0 k)) s1
  let s3 := m.due.foldl (fun s k => s.send (s.splitSkein e 1 k)) s2
  let alone := fun (t : Task) => ({ num := 0, key := s.keyOf t.ch, cls := t.cls, tasks := [t], openedAt := t.acceptedAt } : Skein)
  (m.waiting.foldl (fun s t => s.send (s.splitSkein e 2 (alone t))) s3).idle e

/-- Transits under way to engines that are lost go on to the channels' homes; what has no home goes on as it was. -/
def State.redirect (s : State) (lost : List Nat) : State :=
  let away := s.mor.transit.filter (fun x => lost.contains x.dest)
  let s1 := { s with mor := { s.mor with transit := s.mor.transit.filter (fun x => !lost.contains x.dest) } }
  away.foldl (fun s x =>
    let homeless := x.skein.tasks.filter (fun t => (s.chan t.ch).home.isNone)
    s.send (s.splitSkein x.src x.kind x.skein ++ (if homeless.isEmpty then [] else [{ x with skein := { x.skein with tasks := homeless } }]))) s1

/-- An evacuation window opens (R325). Its last rehoming is made in the step that opens it. -/
def State.openEvac (s : State) : State :=
  State.bump { s with mor := { s.mor with evacEnd := s.mor.evacEnd ++ [s.now + ms 100] } } morEvacuations

/-- An engine loses what runs on it (R50, R324): the running and a suspended skein are lost, its dispatch queue returns to the
ready list, its registers and memories are gone, and Glaze discards its descriptor (R222). -/
def State.loseEngine (s : State) (e : Nat) : State :=
  let s1 := ((s.endSkein e).endSkein e).modMe e (fun m => { m with due := m.due ++ m.dq.map returned, dq := [], service := 4 })
  let s2 := s1.modEng e (fun x => { count := x.count })
  { s2 with glaze := { s2.glaze with queues := tset s2.glaze.queues (e / 8) ((tget s2.glaze.queues (e / 8) []).filter (fun j => j.engine != e)) [] } }

/-- An engine domain fails (R324): its four engines are lost, their channels are rehomed and every task moves. -/
def State.domainFail (s : State) (d : Nat) : State :=
  let es := (List.range 4).map (fun i => 4 * d + i)
  let up := es.filter (fun e => (s.me e).service != 4)
  if up.isEmpty then s else
  let s0 := up.foldl (fun s e => s.modMe e (fun m => { m with service := if m.service = 1 then 1 else 4 })) s
  let s1 := up.foldl State.loseEngine s0
  let s2 := s1.openEvac
  let s3 := up.foldl (fun s e => (s.homedOn e).foldl (fun s ch => s.rehome e ch) s) s2
  let s4 := (up.foldl State.moveLists s3).redirect up
  let s5 := up.foldl (fun s e => match (s.me e).retireQ with
    | none => s
    | some (q, tag) => (s.modMe e (fun m => { m with retireQ := none })).complete q tag 0x60 stOK 0 (s.me e).rehomed 0) s4
  up.foldl (fun s e => match (s.me e).restoreQ with
    | none => s
    | some (q, tag) => (s.modMe e (fun m => { m with restoreQ := none })).complete q tag 0x61 stINTERNAL 0 0 0) s5

/-- A domain's power switch opens (R513, R514, R516): cause, sensor and DOMAIN_GATED; of causes that meet the highest stands. -/
def State.powerOff (s : State) (d cause : Nat) : State :=
  let was := s.rd pwrDomCause d
  let s0 : State := { s with pwr := { s.pwr with offAt := tset s.pwr.offAt d (some s.now) none } }
  let s1 := (s0.wr pwrDomCause (max was cause) d).wr pwrTjNow 0x8000 d
  let s2 := if d < 24 && bit (s1.rd pwrEngOn) d then s1.wr pwrEngOn (s1.rd pwrEngOn - 2 ^ d) else s1
  if was = 0 then s2.raise 0x0071 uPWR d 0xFFFF d 0 cause else s2

def engineDomainFailure (d : Nat) (s : State) : State := s.domainFail d

def execEngineDomainFailure (d : Fin 24) (s : State) : Out := .next (engineDomainFailure d.val s)

/-- 100 ms after the last rehoming the window closes (R325). -/
def evacuationWindowClose (s : State) : State :=
  { s with mor := { s.mor with evacEnd := s.mor.evacEnd.filter (fun t => decide (s.now < t)) } }

def execEvacuationWindowClose (s : State) : Out := .next (s.whileOn [29] evacuationWindowClose)

/-- An engine is retired (R326): no new assignments or steals; its channels are rehomed and its undispatched skeins move; what
runs and what its dispatch queue holds finish there. -/
def State.retire (s : State) (e : Nat) (q : Option (Nat × Nat)) (byRollout : Bool) : State :=
  let s1 := (s.modMe e (fun m => { m with service := 1, retireQ := q, rehomed := 0, byRollout := byRollout })).openEvac
  let s2 := (s1.homedOn e).foldl (fun s ch => s.rehome e ch) s1
  ((s2.moveLists e).redirect [e]).retireCheck e

/-- ENGINE_RETIRE (R425, R490): not below SUP_LOAD_LIMIT.ENGINES engines in service. -/
def applyRetire (c : HostCmd) (s : State) : Reply :=
  let e := bits c.w1.toNat 0 7
  if e > 95 then .refuse stBAD_PARAM 8
  else if (s.me e).service != 0 then .refuse stBAD_STATE 0
  else if s.serving.length ≤ s.rd supLoadLimit then .refuse stNO_RESOURCE 0
  else .later (s.retire e (some (c.qid.val, c.tag.toNat)) false)

/-- An engine that is empty at once completes its retirement in the same step: its completion follows the mark that it has been
applied. -/
def engineRetire (c : HostCmd) (s : State) : State := runCommand c 0x60 [(1, 0x7F)] false (applyRetire c) s

def execEngineRetire (c : HostCmd) (s : State) : Out := .next (engineRetire c s)

/-! ### ENGINE reset and restoration (R491) -/

/-- PMEM as the active pack loads it: its bundles in order, little-endian (R277). -/
def pmemWords : Nat → Nat → List Byte → Tbl (BitVec 128)
  | 0, _, _ => []
  | n + 1, i, l =>
    if l.isEmpty then [] else
    let w := BitVec.ofNat 128 (leNat (l.take 16))
    if w = 0 then pmemWords n (i + 1) (l.drop 16) else (i, w) :: pmemWords n (i + 1) (l.drop 16)

def State.pmemImage (s : State) (e : Nat) : Tbl (BitVec 128) :=
  match s.packFor e with
  | none => []
  | some p => pmemWords 8192 0 p.body

/-- The ENGINE reset of a retired engine (R474, R491): registers, XMEM and YMEM cleared, PMEM loaded from the active
pack, or from the one a rollout brings (R488, R489). -/
def State.engineReset (s : State) (e : Nat) : State :=
  let s1 := if s.img.target.isSome && !s.img.rolloutEng.contains e then { s with img := { s.img with rolloutEng := s.img.rolloutEng ++ [e] } } else s
  ((s1.modEng e (fun x => { pmem := s1.pmemImage e, count := x.count })).resetRegs .engine e).bump supResetsEngine

/-- ENGINE_RESTORE (R425, R491): an ENGINE reset and a 100 us self-test. -/
def applyRestore (c : HostCmd) (s : State) : Reply :=
  let e := bits c.w1.toNat 0 7
  if e > 95 then .refuse stBAD_PARAM 8
  else if (s.me e).service != 2 || !bit (s.rd pwrEngOn) (e / 4) then .refuse stBAD_STATE 0
  else .later ((s.engineReset e).modMe e (fun m => { m with service := 3, selfTestAt := s.now + us 100, restoreQ := some (c.qid.val, c.tag.toNat) }))

def engineRestore (c : HostCmd) (s : State) : State := runCommand c 0x61 [(1, 0x7F)] false (applyRestore c) s

def execEngineRestore (c : HostCmd) (s : State) : Out := .next (engineRestore c s)

/-- The self-test of an engine ends (R491): it returns to stealing and assignment, or stays retired with ENGINE_FAULTY. Where the test
of a WARM reset fails, the domain stays off with cause 4 (R479, R513). -/
def engineSelfTestDone (e : Nat) (passed : Bool) (s : State) : State :=
  let m := s.me e
  if m.service != 3 || s.now < m.selfTestAt then s else
  let s1 := (s.modMe e (fun m => { m with service := if passed then 0 else 2, restoreQ := none, warmTest := false, faultTimes := [], byRollout := m.byRollout && !passed })).idle e
  let s2 := if passed then s1
    else if m.warmTest then ((s1.raise 0x0006 uSUP e 0xFFFF e).powerOff (e / 4) 4).domainFail (e / 4)
    else s1.raise 0x0006 uSUP e 0xFFFF e
  match m.restoreQ with
  | none => s2
  | some (q, tag) => s2.complete q tag 0x61 (if passed then stOK else stINTERNAL) 0 0 0

def execEngineSelfTestDone (e : EngineId) (passed : Bool) (s : State) : Out := .next (engineSelfTestDone e.val passed s)

/-! ### The slot book and the load (R314, R329) -/

/-- A write of MOR_BOOK_SNAP.REQ. -/
def execMorBookSnap (s : State) : Out := .next (s.requestSnap morSnapReq 1)

/-- MOR_BUSY over all engines. -/
def State.busySum (s : State) : Nat := (List.range 96).foldl (fun a e => a + s.rd morBusy e) 0

/-- A whole second of TB0 ends: SUP_LOAD_MEASURED. -/
def loadSecond (s : State) : State :=
  let n := s.busySum
  { s with mor := { s.mor with busyMark := n } }.wr supLoadMeasured ((n - s.mor.busyMark) / 1600)

def execLoadSecond (s : State) : Out := .next (loadSecond s)

end Sys2Proof.Machine
end

