-- ==== Sys2Proof/Machine/EngineOps.lean ====
section
/-! DEFINITION. The operations of an engine (spec/12_engines.md): slot formats, register access and pending writes, the
arithmetic of the vector, scalar and memory slots. -/

namespace Sys2Proof.Machine

/-! ### Slots (R277, Table 12.3) -/

/-- The fields of a slot word. Vector: op, k, d, a, b, x. Memory: op, k, d, p, am, m, disp. -/
def opF (w : Nat) : Nat := bits w 26 6
def kF (w : Nat) : Nat := bits w 23 3
def dF (w : Nat) : Nat := bits w 17 6
def aF (w : Nat) : Nat := bits w 11 6
def bF (w : Nat) : Nat := bits w 5 6
def xF (w : Nat) : Nat := bits w 0 5
def pF (w : Nat) : Nat := bits w 13 4
def amF (w : Nat) : Nat := bits w 11 2
def mF (w : Nat) : Nat := bits w 7 4
def dispF (w : Nat) : Int := signed 7 w

/-- Scalar fields and control fields. -/
def sdF (w : Nat) : Nat := bits w 21 5
def saF (w : Nat) : Nat := bits w 16 5
def sbF (w : Nat) : Nat := bits w 11 5
def targetF (w : Nat) : Nat := bits w 13 13
def csF (w : Nat) : Nat := bits w 8 5
def extraF (w : Nat) : Nat := bits w 0 8

/-- Bits of a slot word by field, for the bits an operation uses. -/
def useK : Nat := 7 * 2 ^ 23
def useD (n : Nat := 6) : Nat := (2 ^ n - 1) * 2 ^ 17
def useA (n : Nat := 6) : Nat := (2 ^ n - 1) * 2 ^ 11
def useB (n : Nat := 6) : Nat := (2 ^ n - 1) * 2 ^ 5
def useX (n : Nat := 5) : Nat := 2 ^ n - 1

/-- The operand bits each vector operation uses (Table 12.5); `none`: no operation. -/
def vecUses (op : Nat) : Option Nat :=
  let kd := useK + useD
  if op ∈ [0x01, 0x02, 0x04, 0x05, 0x06, 0x0A, 0x0B, 0x0C, 0x10, 0x15] then some (kd + useA + useB)
  else if op ∈ [0x03, 0x12] then some (kd + useA + useB + useX)
  else if op ∈ [0x07, 0x08, 0x09] then some (kd + useA + useX)
  else if op ∈ [0x0D, 0x11, 0x2D] then some (kd + useA)
  else if op = 0x0E then some (useK + useD 3 + useA + useB + useX 3)
  else if op = 0x0F then some (useK + useD 3 + useA 3 + useB 3 + useX 3)
  else if op = 0x13 then some (kd + useA 5)
  else if op = 0x14 then some kd
  else if op ∈ [0x20, 0x21, 0x22] then some (useK + useD 2 + useA + useB + useX 2)
  else if op ∈ [0x24, 0x25] then some (useK + useD 2 + useA + useB)
  else if op = 0x26 then some (useK + useD 2)
  else if op = 0x27 then some (useK + useD 2 + useA + useX)
  else if op = 0x28 then some (useK + useD 2 + useA 2 + useB 2)
  else if op ∈ [0x29, 0x2A, 0x2B] then some (kd + useA 2 + useX)
  else if op = 0x2C then some (kd + useA 2)
  else if op = 0x2E then some (useK + useD 2 + useA 2 + useB)
  else if op = 0x2F then some (useK + useD 2 + useA 2 + useX)
  else none

/-- The operand bits each scalar operation uses (Table 12.6). -/
def scaUses (op : Nat) : Option Nat :=
  let d := 31 * 2 ^ 21
  let a := 31 * 2 ^ 16
  let b := 31 * 2 ^ 11
  if op ∈ [0x01, 0x02, 0x04, 0x05, 0x06, 0x0A, 0x0D, 0x0E, 0x0F] then some (d + a + b)
  else if op = 0x03 then some (d + a + 0xFFFF)
  else if op ∈ [0x07, 0x08, 0x09] then some (d + a + 31)
  else if op ∈ [0x0B, 0x0C] then some (d + 0xFFFF)
  else if op = 0x10 then some (d + 7 * 2 ^ 16)
  else if op = 0x11 then some (d + 63 * 2 ^ 15 + 15)
  else if op = 0x12 then some (d + a)
  else if op = 0x13 then some (a + b)
  else none

/-- The operand bits each memory or control operation uses (Table 12.8). -/
def memUses (w : Nat) : Option Nat :=
  let op := opF w
  let p := 15 * 2 ^ 13
  let am := 3 * 2 ^ 11
  let m := 15 * 2 ^ 7
  let ad := p + am + (if amF w = 1 || amF w = 2 then m else 0) + (if amF w = 3 then 127 else 0)
  if 0x01 ≤ op && op ≤ 0x08 then some (useK + useD + ad)
  else if op = 0x09 then some (useK + useD + 7 * 2 ^ 13 + 2 * 2 ^ 11)
  else if 0x0A ≤ op && op ≤ 0x0D then some (useK + useD)
  else if op = 0x0E || op = 0x14 then some useK
  else if op = 0x0F then some (useK + useD + p)
  else if op = 0x10 then some (useK + useD + m)
  else if op = 0x11 then some (useK + p + 127)
  else if op = 0x12 then some (useK + useD 5 + p)
  else if op = 0x13 || op = 0x15 then some (useK + useD 5)
  else if op = 0x30 || op = 0x35 then some (0x1FFF * 2 ^ 13)
  else if op = 0x31 || op = 0x32 then some (0x1FFF * 2 ^ 13 + 31 * 2 ^ 8)
  else if op = 0x33 || op = 0x34 then some (0x1FFF * 2 ^ 13 + 7)
  else if op = 0x36 || (0x38 ≤ op && op ≤ 0x3A) then some 0
  else if op = 0x37 then some (0x1FFF * 2 ^ 13 + 31 * 2 ^ 8 + 0xE0 + (if bit w 7 then 31 else 0))
  else if op = 0x3B then some 31
  else none

/-- No bit of a slot word lies outside OP and the bits its operation uses. A field that the operation does not use is taken as
reserved: DEDUCED (log 30). -/
def slotOk (uses : Option Nat) (w : Nat) : Bool :=
  match uses with
  | none => w = 0
  | some u => (w % 2 ^ 26) &&& (2 ^ 26 - 1 - u) = 0

/-- A control register that the thread can name (Table 12.7). -/
def ctlExists (i : Nat) : Bool := decide (i ≤ 14) || (decide (16 ≤ i) && decide (i ≤ 22))

/-- An operation of the MAC units, and one of both for two cycles (R289, R296). -/
def macClass (op : Nat) : Bool := decide (0x20 ≤ op) && decide (op ≤ 0x2F)
def longMac (op : Nat) : Bool := op = 0x24 || op = 0x25

/-- A control operation (Table 12.8), and one with two delay slots (R283). -/
def isControl (op : Nat) : Bool := decide (0x30 ≤ op) && decide (op ≤ 0x3B)
def hasDelay (op : Nat) : Bool := (decide (0x30 ≤ op) && decide (op ≤ 0x37)) || op = 0x3A

/-! ### Registers -/

/-- The physical V register of a reference (R292). -/
def physV (rb r : Nat) : Nat := if r < 32 then r else 32 + (r - 32 + rb) % 32

def Engine.vr (x : Engine) (lane r : Nat) : Word32 := tget x.v (lane * 64 + physV x.rb.toNat r) 0
def Engine.ar (x : Engine) (lane i : Nat) : Int := (tget x.a (lane * 4 + i % 4) 0).toInt
def Engine.pr (x : Engine) (lane i : Nat) : Nat := (tget x.p (lane * 16 + i) 0).toNat
def Engine.mr (x : Engine) (lane i : Nat) : Nat := (tget x.m (lane * 16 + i) 0).toNat
def Engine.mlr (x : Engine) (i : Nat) : Nat := (tget x.ml i 0).toNat
def Engine.sr (x : Engine) (i : Nat) : Word32 := tget x.s i 0

/-- K as a lane mask: K0 is LIVE. -/
def Engine.kMask (x : Engine) (i : Nat) : Word16 := if i = 0 then x.live else tget x.k i 0

/-- The lanes in which a guarded operation acts (R278). -/
def Engine.guard (x : Engine) (k : Nat) : Word16 := x.kMask k &&& x.live

/-- Lanes of a mask, ascending. -/
def lanesOf (m : Word16) : List Nat := (List.range 16).filter (fun i => m.getLsbD i)

/-- Set or clear one lane of a mask. -/
def setLane (m : Word16) (lane : Nat) (v : Bool) : Word16 :=
  if v then m ||| ((1 : Word16) <<< lane) else m &&& ~~~((1 : Word16) <<< lane)

/-- A control register as the thread reads it (Table 12.7). -/
def Engine.ctl (x : Engine) (i : Nat) : Nat :=
  match i with
  | 0 => x.live.toNat
  | 1 => x.gov.toNat + b2n x.outDone * 65536
  | 2 => b2n x.frac + b2n x.ovf * 2
  | 3 => x.lc0.toNat
  | 4 => x.ls0.toNat
  | 5 => x.le0.toNat
  | 6 => x.lc1.toNat
  | 7 => x.ls1.toNat
  | 8 => x.le1.toNat
  | 9 => x.rb.toNat
  | 10 => x.ipc.toNat
  | 11 => b2n x.gie + x.ien.toNat * 4
  | 12 => x.cause + (if x.cause = 0 then x.fault else 0) * 16
  | 13 => x.cyc % 2 ^ 32
  | 14 => x.budget % 2 ^ 32
  | n => if 16 ≤ n then (tget x.ik (n - 15) 0).toNat else 0

/-- A control register written by the thread: LIVE only while GIE is 0, ST.GOV by writing 1, the rest as Table 12.7 says. -/
def Engine.setCtl (x : Engine) (i v : Nat) : Engine :=
  match i with
  | 0 => if x.gie then x else { x with live := BitVec.ofNat 16 v }
  | 1 => { x with gov := x.gov &&& ~~~(BitVec.ofNat 16 v) }
  | 2 => { x with frac := bit v 0, ovf := bit v 1 }
  | 3 => { x with lc0 := BitVec.ofNat 16 v }
  | 4 => { x with ls0 := BitVec.ofNat 13 v }
  | 5 => { x with le0 := BitVec.ofNat 13 v }
  | 6 => { x with lc1 := BitVec.ofNat 16 v }
  | 7 => { x with ls1 := BitVec.ofNat 13 v }
  | 8 => { x with le1 := BitVec.ofNat 13 v }
  | 9 => { x with rb := BitVec.ofNat 5 v }
  | 10 => { x with ipc := BitVec.ofNat 13 v }
  | 11 => { x with gie := bit v 0, ien := BitVec.ofNat 3 (bits v 2 3) }
  | n => if 16 ≤ n && n ≤ 22 then { x with ik := tset x.ik (n - 15) (BitVec.ofNat 16 v) 0 } else x

/-! ### Pending writes (R280-R282) -/

/-- A result that reaches its register. -/
def Engine.put (x : Engine) (d : Dest) (v : Nat) : Engine :=
  match d with
  | .v lane r => { x with v := tset x.v (lane * 64 + r) (BitVec.ofNat 32 v) 0 }
  | .a lane r => { x with a := tset x.a (lane * 4 + r % 4) (BitVec.ofNat 40 v) 0 }
  | .p lane r => { x with p := tset x.p (lane * 16 + r) (BitVec.ofNat 32 v) 0 }
  | .m lane r => { x with m := tset x.m (lane * 16 + r) (BitVec.ofNat 32 v) 0 }
  | .k lane r => if r = 0 then x else { x with k := tset x.k r (setLane (tget x.k r 0) lane (v != 0)) 0 }
  | .s r => { x with s := tset x.s r (BitVec.ofNat 32 v) 0 }
  | .ml r => { x with ml := tset x.ml r (BitVec.ofNat 18 v) 0 }
  | .ctl i => x.setCtl i v

/-- A pending write takes its place by cycle, then slot. -/
def addWrite (w : PendWrite) : List PendWrite → List PendWrite
  | [] => [w]
  | h :: r => if w.due < h.due || (w.due = h.due && w.slot < h.slot) then w :: h :: r else h :: addWrite w r

/-- The writes due for the bundle about to issue are delivered. -/
def Engine.deliver (x : Engine) : Engine :=
  let ready := x.writes.filter (fun w => decide (w.due ≤ x.issued))
  ready.foldl (fun x w => x.put w.dest w.value) { x with writes := x.writes.filter (fun w => decide (x.issued < w.due)) }

/-- Every issued operation completes. -/
def Engine.settle (x : Engine) : Engine := x.writes.foldl (fun x w => x.put w.dest w.value) { x with writes := [] }

/-- A result: destination, latency, value, and whether a MAC receives it one bundle later. -/
structure Res where
  dest  : Dest
  lat   : Nat
  value : Nat
  mac   : Bool := false

/-- The results of a slot become pending writes. -/
def Engine.pend (x : Engine) (slot : Nat) (l : List Res) : Engine :=
  { x with writes := l.foldl (fun ws r => addWrite { due := x.issued + r.lat, slot := slot, dest := r.dest, value := r.value, mac := r.mac } ws) x.writes }

/-- The accumulator a MAC reads: the newest MAC result still pending for it, else the register. -/
def Engine.macIn (x : Engine) (lane i : Nat) : Int :=
  match (x.writes.filter (fun w => w.mac && decide (w.dest = .a lane i))).getLast? with
  | some w => signed 40 w.value
  | none => x.ar lane i

/-! ### Arithmetic (R284-R289) -/

/-- The extremes of an accumulator of `n` bits; a result outside is clamped or wraps, and sets GOV (R285). -/
def accFix (n : Nat) (wrap : Bool) (v : Int) : Nat × Bool :=
  let lo : Int := -(2 ^ (n - 1) : Nat)
  let hi : Int := (2 ^ (n - 1) : Nat)
  if v < lo || hi ≤ v then (if wrap then wrapInt n v else if v < 0 then 2 ^ (n - 1) else 2 ^ (n - 1) - 1, true)
  else (wrapInt n v, false)

/-- A 16-bit half of a V register. -/
def halfOf (v : Word32) (hi : Bool) : Int := signed 16 (if hi then v.toNat / 65536 else v.toNat)

/-- A product, doubled where FRAC is 1 (R284). -/
def Engine.prod (x : Engine) (a b : Int) : Int := if x.frac then 2 * (a * b) else a * b

/-- Round half up and saturate (R286). -/
def extract (n sh : Nat) (a : Int) : Int := satInt n (if sh = 0 then a else (a + (2 ^ (sh - 1) : Nat)) / (2 ^ sh : Nat))

/-- Redundant sign bits of a value of `n` bits (R288). -/
def redundant (n : Nat) (v : Int) : Nat :=
  let m := if v < 0 then (-v - 1).toNat else v.toNat
  n - 1 - (if m = 0 then 0 else Nat.log2 m + 1)

/-- The value of a pair (R289). -/
def Engine.pair (x : Engine) (lane p : Nat) : Int :=
  signed 72 (wrapInt 40 (x.ar lane (2 * p)) + wrapInt 32 (x.ar lane (2 * p + 1)) * 2 ^ 40)

/-- The two accumulators of a pair's value. -/
def pairRes (lane p lat v : Nat) : List Res :=
  [{ dest := .a lane (2 * p), lat := lat, value := v % 2 ^ 40 },
   { dest := .a lane (2 * p + 1), lat := lat, value := wrapInt 40 (signed 32 (v / 2 ^ 40)) }]

/-- The condition of CMP. -/
def cmpHolds (c : Nat) (a b : Word32) : Bool :=
  match c with
  | 0 => a == b
  | 1 => a != b
  | 2 => a.slt b
  | 3 => a.sle b
  | 4 => b.slt a
  | 5 => b.sle a
  | 6 => a.ult b
  | _ => b.ule a

/-- The 32-bit result of a plain vector operation. -/
def vecAlu (op imm x : Nat) (a b : Word32) : Word32 :=
  match op with
  | 0x01 => a + b
  | 0x02 => a - b
  | 0x03 => a + BitVec.ofInt 32 (signed 11 imm)
  | 0x04 => a &&& b
  | 0x05 => a ||| b
  | 0x06 => a ^^^ b
  | 0x07 => a <<< x
  | 0x08 => a.sshiftRight x
  | 0x09 => a >>> x
  | 0x0A => let n := signed 6 b.toNat; if 0 ≤ n then a <<< n.toNat else a.sshiftRight (-n).toNat
  | 0x0B => if a.slt b then a else b
  | 0x0C => if a.slt b then b else a
  | 0x0D => if a.slt 0 then -a else a
  | 0x11 => a
  | 0x12 => BitVec.ofInt 32 (signed 17 imm)
  | _ => BitVec.ofNat 32 (wrapInt 16 (satInt 16 a.toInt) * 65536 + wrapInt 16 (satInt 16 b.toInt))

/-- The results of a vector operation in one live lane, and whether it overflows the guard bits. `g`: the lane's guard. -/
def Engine.vecLane (x : Engine) (w lane : Nat) (g : Bool) (free : Nat) : List Res × Bool :=
  let op := opF w
  let d := dF w
  let va := x.vr lane (aF w)
  let vb := x.vr lane (bF w)
  let toV := fun (lat : Nat) (n : Word32) => (([{ dest := .v lane (physV x.rb.toNat d), lat := lat, value := n.toNat }] : List Res), false)
  let toA := fun (lat : Nat) (mac : Bool) (r : Nat × Bool) => (([{ dest := .a lane (d % 4), lat := lat, value := r.1, mac := mac }] : List Res), r.2)
  let acc := fun (v : Int) => accFix 40 x.ovf v
  let aa := x.ar lane (aF w)
  let p16 := x.prod (halfOf va (bit w 1)) (halfOf vb (bit w 0))
  let k := fun (i : Nat) => (x.kMask i).getLsbD lane
  if op = 0x0E then ([{ dest := .k lane (d % 8), lat := 1, value := b2n (g && cmpHolds (xF w) va vb) }], false)
  else if op = 0x10 then toV 1 (if g then va else vb)
  else if !g then ([], false)
  else match op with
  | 0x0F =>
    let a := k (aF w % 8)
    let b := k (bF w % 8)
    let v := match xF w with | 0 => a && b | 1 => a || b | 2 => a && !b | 3 => a != b | _ => !a
    ([{ dest := .k lane (d % 8), lat := 1, value := b2n v }], false)
  | 0x13 => toV 2 (x.sr (aF w % 32))
  | 0x14 => toV 1 (BitVec.ofNat 32 lane)
  | 0x20 => toA 3 true (acc p16)
  | 0x21 => toA 3 true (acc (x.macIn lane (d % 4) + p16))
  | 0x22 => toA 3 true (acc (x.macIn lane (d % 4) - p16))
  | 0x24 =>
    let r := accFix 72 x.ovf (x.pair lane (d / 2 % 2) + x.prod va.toInt vb.toInt)
    (pairRes lane (d / 2 % 2) 4 r.1, r.2)
  | 0x25 =>
    let r := accFix 72 x.ovf (x.prod va.toInt vb.toInt)
    (pairRes lane (d / 2 % 2) 4 r.1, r.2)
  | 0x26 => toA 1 false (0, false)
  | 0x27 => toA 2 false (acc (va.toInt * (2 ^ xF w : Nat)))
  | 0x28 => toA 2 false (acc (aa + x.ar lane (bF w)))
  | 0x29 => toV 2 (BitVec.ofInt 32 (extract 16 (xF w) aa))
  | 0x2A => toV 2 (BitVec.ofInt 32 (extract 32 (xF w) aa))
  | 0x2B => toV 2 (BitVec.ofInt 32 (extract 32 (32 + xF w) (x.pair lane (aF w / 2 % 2))))
  | 0x2C => toV 2 (BitVec.ofInt 32 ((redundant 40 aa : Int) - 8))
  | 0x2D => toV 2 (BitVec.ofNat 32 (redundant 32 va.toInt))
  | 0x2E =>
    let n := vb.toInt
    if n < -40 || 40 < n then toA 2 false (Config.freeNat (free + lane) % 2 ^ 40, false)
    else if 0 ≤ n then toA 2 false (acc (aa * (2 ^ n.toNat : Nat)))
    else toA 2 false (acc (aa / (2 ^ (-n).toNat : Nat)))
  | 0x2F =>
    let n := signed 5 (xF w)
    if 0 ≤ n then toA 2 false (acc (aa * (2 ^ n.toNat : Nat))) else toA 2 false (acc (aa / (2 ^ (-n).toNat : Nat)))
  | _ =>
    let imm := if op = 0x12 then bits w 0 17 else bits w 0 11
    toV 1 (vecAlu op imm (xF w) va vb)

/-- A vector slot in every live lane: its pending writes and GOV. `src` is the engine as the bundle found it. -/
def Engine.vecSlot (src : Engine) (slot w free : Nat) (x : Engine) : Engine :=
  if w = 0 then x else
  let g := src.guard (kF w)
  (lanesOf src.live).foldl (fun x lane =>
    let r := src.vecLane w lane (g.getLsbD lane) free
    let y := x.pend slot r.1
    if r.2 then { y with gov := setLane y.gov lane true } else y) x

/-- The result of a scalar operation (Table 12.6). -/
def Engine.scalar (x : Engine) (w : Nat) : List Res :=
  let op := opF w
  let a := x.sr (saF w)
  let b := x.sr (sbF w)
  let imm : Word32 := BitVec.ofInt 32 (signed 16 w)
  let toS := fun (lat : Nat) (n : Nat) => ([{ dest := .s (sdF w), lat := lat, value := n }] : List Res)
  match op with
  | 0x01 => toS 1 (a + b).toNat
  | 0x02 => toS 1 (a - b).toNat
  | 0x03 => toS 1 (a + imm).toNat
  | 0x04 => toS 1 (a &&& b).toNat
  | 0x05 => toS 1 (a ||| b).toNat
  | 0x06 => toS 1 (a ^^^ b).toNat
  | 0x07 => toS 1 (a <<< bits w 0 5).toNat
  | 0x08 => toS 1 (a.sshiftRight (bits w 0 5)).toNat
  | 0x09 => toS 1 (a >>> bits w 0 5).toNat
  | 0x0A => toS 3 (a * b).toNat
  | 0x0B => toS 1 imm.toNat
  | 0x0C => toS 1 ((x.sr (sdF w)).toNat % 65536 + bits w 0 16 * 65536)
  | 0x0D => toS 1 (b2n (a.slt b))
  | 0x0E => toS 1 (b2n (a.ult b))
  | 0x0F => toS 1 (b2n (a == b))
  | 0x10 => toS 2 (x.guard (saF w % 8)).toNat
  | 0x11 => toS 2 (x.vr (bits w 0 4) (bits w 15 6)).toNat
  | 0x12 => toS 2 (x.ctl (saF w))
  | 0x13 => [{ dest := .ctl (saF w), lat := 2, value := b.toNat }]
  | _ => []

/-! ### Memory operations (R271, R272, R290, R291) -/

/-- Cycles of a gather or scatter over byte addresses: the greatest number of distinct words in one bank, at least 1. -/
def bankCycles (l : List Nat) : Nat :=
  let ws := (l.map (fun a => a % 2 ^ 18 / 4)).eraseDups
  (List.range 16).foldl (fun a b => max a (ws.filter (fun w => w % 16 = b)).length) 1

/-- The byte address of a memory operation in a lane (Table 12.4). -/
def Engine.address (x : Engine) (w lane elem : Nat) : Nat :=
  let p := x.pr lane (pF w)
  match amF w with
  | 1 => (p + x.mr lane (mF w)) % 2 ^ 32
  | 3 => wrapInt 32 ((p : Int) + dispF w * elem)
  | _ => p

/-- A post-modified address register (R291). -/
def postMod (p m ml : Nat) : Nat :=
  if ml = 0 then (p + m) % 2 ^ 32
  else
    let k := if ml ≤ 1 then 0 else Nat.log2 (ml - 1) + 1
    let base := p / 2 ^ k * 2 ^ k
    base + (((p - base : Nat) + signed 32 m) % (ml : Int)).toNat

/-- The post-modification of P register `i` by M register `m` in the lanes given. -/
def Engine.postRes (x : Engine) (lanes : List Nat) (i m : Nat) : List Res :=
  lanes.map (fun l => { dest := .p l i, lat := 1, value := postMod (x.pr l i) (x.mr l m) (x.mlr i) })

/-- A 32-bit or sign-extended 16-bit load from a memory. -/
def loadFrom (m : Tbl Word32) (half : Bool) (a : Nat) : Nat := if half then wrapInt 32 (memSample m a) else memWord m a

/-- Write a word or a half-word into a memory. -/
def storeTo (m : Tbl Word32) (half : Bool) (a v : Nat) : Tbl Word32 :=
  if half then memPut16 m a v else tset m (a % 2 ^ 18 / 4) (BitVec.ofNat 32 v) 0

/-- A scatter. Lanes that store different values to one place leave a value the spec does not state: a free one (log 2). -/
def scatter (m : Tbl Word32) (half : Bool) (l : List (Nat × Nat)) (free : Nat) : Tbl Word32 :=
  let place := fun (a : Nat) => a % 2 ^ 18 / (if half then 2 else 4)
  (l.zipIdx).foldl (fun m e =>
    let clash := l.any (fun o => place o.1 = place e.1.1 && o.2 != e.1.2)
    storeTo m half e.1.1 (if clash then Config.freeNat (free + place e.1.1) else e.1.2)) m

/-- What a load or store does: results, the memories, cycles. -/
structure MemEff where
  res  : List Res := []
  xmem : Tbl Word32
  ymem : Tbl Word32
  cycles : Nat := 1

/-- LD, LDH, ST, STH and LD2 (opcodes 0x01 to 0x09). -/
def Engine.loadStore (x : Engine) (w free : Nat) : MemEff :=
  let op := opF w
  let lanes := lanesOf (x.guard (kF w))
  let d := physV x.rb.toNat (dF w)
  if op = 0x09 then
    let p := pF w
    let ax := lanes.map (fun l => x.pr l p)
    let ay := lanes.map (fun l => x.pr l (p + 8))
    let d2 := physV x.rb.toNat ((dF w + 1) % 64)
    { res := lanes.flatMap (fun l => [({ dest := .v l d, lat := 4, value := memWord x.xmem (x.pr l p) } : Res), { dest := .v l d2, lat := 4, value := memWord x.ymem (x.pr l (p + 8)) }]) ++
        (if amF w = 2 then x.postRes lanes p p ++ x.postRes lanes (p + 8) (p + 8) else [])
      xmem := x.xmem, ymem := x.ymem, cycles := max (bankCycles ax) (bankCycles ay) }
  else
    let half := op = 0x03 || op = 0x04 || op = 0x07 || op = 0x08
    let onY := op % 2 = 0
    let addr := fun (l : Nat) => x.address w l (if half then 2 else 4)
    let post := if amF w = 2 then x.postRes lanes (pF w) (mF w) else []
    let mem := if onY then x.ymem else x.xmem
    let cyc := bankCycles (lanes.map addr)
    if op ≤ 0x04 then
      { res := lanes.map (fun l => ({ dest := .v l d, lat := 4, value := loadFrom mem half (addr l) } : Res)) ++ post, xmem := x.xmem, ymem := x.ymem, cycles := cyc }
    else
      let val := fun (l : Nat) => let v := x.vr l (dF w); if half then wrapInt 16 (satInt 16 v.toInt) else v.toNat
      let m := scatter mem half (lanes.map (fun l => (addr l, val l))) free
      { res := post, xmem := if onY then x.xmem else m, ymem := if onY then m else x.ymem, cycles := cyc }

end Sys2Proof.Machine
end

