-- ==== Sys2Proof/Machine/Engine.lean ====
section
/-! DEFINITION. How an engine runs (spec/12_engines.md): dispatch, the issue of a bundle, streams, output and commit, loops,
interrupts, faults and the budget. -/

namespace Sys2Proof.Machine

/-! ### Kernels and dispatch (R297, R305, R306) -/

/-- The descriptor of a kernel: the engine's pack's for an extension kernel, Folnen's own for any other. -/
def State.kernelDesc (s : State) (e id : Nat) : List Nat :=
  match (s.packFor e).bind (fun p => (p.descs.find? (fun d => d.1 = id)).map (·.2)) with
  | some d => d
  | none => Config.folnenKernel id

/-- Bytes of a channel's context region and of a lane's output slot. Folnen kernels may use the largest of Table 12.11. -/
def State.ctxBytes (s : State) (id : Nat) : Nat := match s.extDesc id with | some d => d.getD 4 0 | none => 65536
def State.slotBytes (s : State) (id : Nat) : Nat := match s.extDesc id with | some d => d.getD 5 0 | none => 8192

/-- BUDGET in cycles (R306): costs in 0.1 engine-us per 20 ms, scaled to the period. -/
def budgetOf (d : List Nat) (period : Nat) : Nat := 16 * (d.getD 7 0 + d.getD 8 0) * periodMs period + 24000

/-- Payload entries of a task region: words of the longest payload among the lanes (Table 12.9). -/
def payloadEntries (l : List Task) : Nat := l.foldl (fun a t => max a ((t.payload.length + 3) / 4)) 0

/-- What R297 sets in an engine at dispatch; all other state holds what the previous skein left. -/
def engineStart (d : List Nat) (k : Skein) (x : Engine) : Engine :=
  let s1 := payloadEntries (runningTasks k)
  let regs := [(0, laneCount k.mask), (1, s1), (2, k.key.kernel + k.key.mode % 256 * 65536), (3, k.key.period)]
  { x with
    pc := BitVec.ofNat 13 (d.getD 1 0), live := k.mask, frac := bit (d.getD 2 0) 0, ovf := decide (0xF000 ≤ k.key.kernel) && bit (d.getD 2 0) 1
    ien := BitVec.ofNat 3 (d.getD 3 0), budget := budgetOf d k.key.period, gov := 0, rb := 0, lc0 := 0, lc1 := 0, cyc := 0, gie := true, outDone := false
    s := regs.foldl (fun t r => tset t r.1 (BitVec.ofNat 32 r.2) 0) x.s
    stream := { opened := true, len := 4 * (3 + s1) }, fifo := [], sts := [], outW := [], outUsed := [], frames := [], glzLanes := [], glzUnsettled := []
    irqGlz := false, irqSwitch := false, afterYield := false, stalled := false, delay := 0, target := none, reti := false, macHold := false
    fault := 0, cause := 0 }

/-- The waiting-time bin of a task (R329). -/
def waitBin (ns : Nat) : Nat := if ns < 1000 then 0 else min 15 (Nat.log2 (ns / 1000) + 1)

/-- The settings a job is dispatched with (R37). -/
def jobSetOf (c p : Chan) : JobSet :=
  { st := c.st, peer := c.peer, hostTag := c.hostTag, rx := c.rx, tx := c.tx, adaptive := c.jit.adaptive, ecs := c.ecs, tns := c.tns, gls := c.gls,
    fec := c.fec, fax := c.fax, applied := c.pub.applied, peerRx := p.rx, peerTx := p.tx, ssrc := c.egr.ssrc, encMode := p.ctx.encMode }

/-- A mode request that waits for the job of channel `ch` that starts is followed by it (R199). -/
def State.requestStart (s : State) (ch : Nat) : State :=
  let b := (s.chan ch).peer
  if (s.chan ch).st != .bound then s
  else (s.followRequest b).modChan b (fun c => { c with ctx := { c.ctx with cmrFresh := none, cmrDone := false } })

/-- A lane starts: its wait is counted, its channel has a running job, and placements Woad has confirmed come into force. -/
def State.laneStart (s0 : State) (e : Nat) (t : Task) : State :=
  let s := (if t.cls = 0 then s0 else s0.requestStart t.ch).settleEcho t.ch
  ((s.bump morHist e (waitBin (s.now - t.acceptedAt))).modChan t.ch (fun c => { c with jobsRunning := c.jobsRunning + 1, job := some { jobSetOf c (s.chan c.peer) with cpt := s.cpts } })).placeConfirmed t.ch

/-- A skein starts on an engine (R297, R318, R329). -/
def State.startSkein (s : State) (e : Nat) (k0 : Skein) : State :=
  let k := { k0 with fill := laneCount k0.mask, cancels := 0 }
  let s1 := (s.modMe e (fun m => { m with running := some k })).modEng e (engineStart (s.kernelDesc e k.key.kernel) k)
  let s2 := (runningTasks k).foldl (fun s t => s.laneStart e t) s1
  (((s2.bump morDispatched e).bumpBy morLanes k.fill e).traceSkein 3 e 0xFF 0 k).idle e

/-- The lanes of a skein whose channel still has a job running leave it and wait for that END (R274, R317). -/
def State.holdBusy (s : State) (e : Nat) (k : Skein) : State × Skein :=
  let busy := fun (t : Task) => (s.chan t.ch).jobsRunning != 0
  let held := (runningTasks k).filter busy
  let mask := (k.tasks.zipIdx).foldl (fun m t => if busy t.1 then setLane m t.2 false else m) k.mask
  (s.modMe e (fun m => { m with waiting := m.waiting ++ held }), { k with mask := mask })

/-- The next skein of a free engine: its dispatch queue first, else the best due skein, its tasks laid out in lanes. -/
def State.nextSkein (s : State) (e : Nat) : Option (State × Skein) :=
  let m := s.me e
  match m.dq with
  | k :: r => some (s.modMe e (fun m => { m with dq := r }), k)
  | [] => (s.best m.due).map (fun k =>
    let ready := k.tasks.filter (fun t => (s.chan t.ch).jobsRunning = 0)
    let held := k.tasks.filter (fun t => (s.chan t.ch).jobsRunning != 0)
    (s.modMe e (fun m => { m with due := m.due.filter (fun x => x.num != k.num), waiting := m.waiting ++ held }),
     { k with tasks := ready, mask := BitVec.ofNat 16 (2 ^ ready.length - 1) }))

/-- Start the next skein that has a lane left. -/
def State.dispatchNext : Nat → Nat → State → State
  | 0, e, s => s.idle e
  | n + 1, e, s =>
    match s.nextSkein e with
    | none => s.idle e
    | some (s1, k0) =>
      let (s2, k) := s1.holdBusy e k0
      if k.mask = 0 then State.dispatchNext n e s2 else s2.startSkein e k

/-- A suspended skein's registers as they stand for its return: the interrupt is over for it (R302). -/
def suspendRegs (x : Engine) : Engine := { x.settle with pc := x.ipc, k := x.ik, gie := true, irqSwitch := false, afterYield := false }

/-- SKEIN_DISPATCH (R297, R318, R319): a free engine takes its next skein. An engine in its SWITCH handler starts the class 0
skein at the head of its queue; the running skein is suspended, its registers kept as the runtime keeps them (log 31). With PMEM in
error nothing is dispatched before the reload (R303). -/
def skeinDispatch (e : Nat) (s : State) : State :=
  let m := s.me e
  let x := s.eng e
  if 2 ≤ m.service || x.irqFault || x.pmemBad then s
  else match m.running, m.dq with
  | none, _ => State.dispatchNext (m.due.length + m.dq.length) e s
  | some k, c :: rest =>
    if c.cls = 0 && k.cls != 0 && m.suspended.isNone && !x.gie && x.cause = 3 then
      let (s1, c1) := (s.modMe e (fun m => { m with dq := rest })).holdBusy e c
      if c1.mask = 0 then s1
      else
        let s2 := { s1 with saved := tins s1.saved e (suspendRegs x) }
        (s2.modMe e (fun m => { m with suspended := some k, running := none })).startSkein e c1
    else s
  | some _, [] => s

def execSkeinDispatch (e : EngineId) (s : State) : Out := .next (s.whileOn [28, 29] (skeinDispatch e.val))

/-! ### Streams (R273) -/

/-- Word `j` of a task's region (Table 12.9). -/
def regionWord (t : Task) (j : Nat) : Word32 :=
  match j with
  | 0 => BitVec.ofNat 32 (t.ch + kindCode t.kind * 2 ^ 16 + t.payload.length % 4096 * 2 ^ 20)
  | 1 => BitVec.ofNat 32 (t.pt % 128 + b2n t.marker * 128 + t.flowKind % 4 * 256)
  | 2 => BitVec.ofNat 32 t.tickNo
  | i + 3 => BitVec.ofNat 32 (leNat (slice t.payload (4 * i) 4))

/-- Entry `j` of the open stream: one word for each lane. -/
def State.streamEntry (s : State) (e j : Nat) : List Word32 :=
  let x := s.eng e
  match (s.me e).running with
  | none => []
  | some k => (List.range 16).map (fun lane =>
    match k.tasks[lane]? with
    | none => 0
    | some t => if x.stream.ctx then tget (s.chan t.ch).ctx.words (x.stream.off + 4 * j) 0 else regionWord t j)

/-- Entry `j` of a context stream is read through the context cache of the engine's own cluster (R13). -/
def State.fillEntry (s : State) (e j : Nat) : State :=
  let x := s.eng e
  if !x.stream.ctx then s else
  match (s.me e).running with
  | none => s
  | some k => k.tasks.foldl (fun (s : State) t => s.fillLine (e / 8) (t.ch * 1024 + (x.stream.off + 4 * j) / 64 % 1024)) s

/-! ### What the memory and control slot asks (Tables 12.8, R273-R276) -/

/-- What a memory or control operation asks of the engine beyond register results. -/
inductive Act where
  | none
  | outEnd
  | jobEnd
  | yield
  | glaze (addr : Nat)

/-- Why a bundle does not issue: it stalls, or a fault of this kind (1 ILLEGAL, 2 MEM_UE, 3 STREAM, 4 SLOT, 5 LOOP). -/
inductive Hold where
  | stall
  | fault (kind : Nat)

/-- Limits of the running kernel: context bytes and slot bytes. -/
structure Limits2 where
  ctx  : Nat
  slot : Nat

/-- The loop faults of a LOOP operation (R294). -/
def Engine.loopFault (x : Engine) (w : Nat) : Bool :=
  let one := bit w 6
  let own := if one then x.lc1 else x.lc0
  let other := if one then x.lc0 else x.lc1
  let otherEnd := if one then x.le0 else x.le1
  own != 0 || (other != 0 && otherEnd.toNat = targetF w)

/-- A control operation stands in the last three bundles of an active body (R294). -/
def Engine.inTail (x : Engine) : Bool :=
  let tail := fun (lc : Word16) (le : BitVec 13) => lc != 0 && decide (x.pc.toNat ≤ le.toNat) && decide (le.toNat < x.pc.toNat + 3)
  tail x.lc0 x.le0 || tail x.lc1 x.le1

/-- Why the bundle cannot issue now, in the order illegal, stall, stream, slot and loop faults. -/
def Engine.hold (x : Engine) (lim : Limits2) (a b sc m : Nat) : Option Hold :=
  let op := opF m
  let len := x.stream.off + x.stream.len
  let legal := slotOk (vecUses (opF a)) a && slotOk (vecUses (opF b)) b && slotOk (scaUses (opF sc)) sc && slotOk (memUses m) m &&
    !(opF a = 0x0F && 4 < xF a) && !(opF b = 0x0F && 4 < xF b) && !((opF sc = 0x12 || opF sc = 0x13) && !ctlExists (saF sc)) &&
    !(x.macHold && (macClass (opF a) || macClass (opF b))) && !(longMac (opF a) && macClass (opF b)) && !(longMac (opF b) && macClass (opF a)) && !(x.delay != 0 && isControl op)
  let lanes := lanesOf (x.guard (kF m))
  if !legal then some (.fault 1)
  else if op = 0x0A then
    if x.stream.len ≤ 4 * x.stream.popped then some (.fault 3) else if x.fifo.isEmpty then some .stall else none
  else if op = 0x0B then
    if !x.stream.ctx || len ≤ x.stream.cursor then some (.fault 3) else none
  else if op = 0x15 then
    let off := (x.sr (dF m % 32)).toNat
    let n := (x.sr ((dF m + 1) % 32)).toNat
    if off % 4 != 0 || n % 4 != 0 || n < 4 || 65536 < n || lim.ctx < off + n then some (.fault 3) else none
  else if op = 0x0C then
    if x.outDone || lanes.any (fun l => decide (lim.slot < tget x.outUsed l 0 + 4)) then some (.fault 4) else none
  else if op = 0x0D then
    if x.outDone || lanes.any (fun l => (x.vr l (dF m)) != 0 && decide (12 ≤ (tget x.frames l []).length)) then some (.fault 4) else none
  else if op = 0x0E then (if x.outDone then some (.fault 4) else none)
  else if op = 0x39 then (if !x.outDone then some (.fault 4) else none)
  else if op = 0x13 || op = 0x14 then (if x.glzBusy then some .stall else none)
  else if op = 0x37 && x.loopFault m then some (.fault 5)
  else if isControl op && x.inTail then some (.fault 5)
  else none

/-- The words of an open frame as bytes of a closed one; bytes beyond what was written are not stated: free ones (log 2). -/
def frameBytes (ws : List Word32) (n free : Nat) : List Byte :=
  let bs := ws.flatMap (fun w => leBytes 4 w.toNat)
  (List.range n).map (fun i => if h : i < bs.length then bs[i] else BitVec.ofNat 8 (Config.freeNat (free + i)))

/-- The memory and control slot, control transfers apart: the engine after it, its extra cycles and what it asks. `src` is the
engine as the bundle found it. -/
def Engine.memSlot (src : Engine) (m free : Nat) (x : Engine) : Engine × Nat × Act :=
  let op := opF m
  let g := src.guard (kF m)
  let lanes := lanesOf g
  let sv := fun (i : Nat) => (src.sr (i % 32)).toNat
  if m = 0 then (x, 0, .none)
  else if 0x01 ≤ op && op ≤ 0x09 then
    let r := src.loadStore m free
    ({ x with xmem := r.xmem, ymem := r.ymem }.pend 3 r.res, r.cycles - 1, .none)
  else match op with
  | 0x0A =>
    let ws := src.fifo.headD []
    let act := (List.range 16).filter (fun l => g.getLsbD l || !src.live.getLsbD l)
    let res := act.map (fun l => ({ dest := .v l (physV src.rb.toNat (dF m)), lat := 4, value := if src.live.getLsbD l then (ws.getD l 0).toNat else 0 } : Res))
    ({ x with fifo := src.fifo.drop 1, stream := { src.stream with popped := src.stream.popped + 1 } }.pend 3 res, 0, .none)
  | 0x0B =>
    ({ x with sts := src.sts ++ lanes.map (fun l => (l, src.stream.cursor, src.vr l (dF m))), stream := { src.stream with cursor := src.stream.cursor + 4 } }, 0, .none)
  | 0x0C =>
    (lanes.foldl (fun (x : Engine) l => { x with outW := tset x.outW l (tget x.outW l [] ++ [src.vr l (dF m)]) [], outUsed := tset x.outUsed l (tget x.outUsed l 0 + 4) 0 }) x, 0, .none)
  | 0x0D =>
    (lanes.foldl (fun (x : Engine) l =>
      let n := (src.vr l (dF m)).toNat
      if n = 0 then x else { x with outW := tset x.outW l [] [], frames := tset x.frames l (tget x.frames l [] ++ [frameBytes (tget x.outW l []) (n % 8193) (free + 65536 * l)]) [] }) x, 0, .none)
  | 0x0E => ({ x with outDone := true }, 0, .outEnd)
  | 0x0F => (x.pend 3 (lanes.map (fun l => { dest := .p l (pF m), lat := 2, value := (src.vr l (dF m)).toNat })), 0, .none)
  | 0x10 => (x.pend 3 (lanes.map (fun l => { dest := .m l (mF m), lat := 2, value := (src.vr l (dF m)).toNat })), 0, .none)
  | 0x11 => (x.pend 3 (lanes.map (fun l => { dest := .p l (pF m), lat := 1, value := wrapInt 32 ((src.pr l (pF m) : Int) + 4 * dispF m) })), 0, .none)
  | 0x12 => (x.pend 3 [{ dest := .ml (pF m), lat := 2, value := sv (dF m) }], 0, .none)
  | 0x13 => ({ x with glzBusy := true }, 0, .glaze (sv (dF m) % 2 ^ 18 / 128 * 128))
  | 0x15 =>
    let off := sv (dF m)
    ({ x with stream := { ctx := true, opened := true, off := off, len := sv (dF m + 1), cursor := off }, fifo := [] }, 0, .none)
  | 0x38 => (x, 0, .yield)
  | 0x39 => (x, 0, .jobEnd)
  | 0x3B => ({ x with rb := src.rb + BitVec.ofNat 5 (extraF m) }, 0, .none)
  | _ => (x, 0, .none)

/-! ### Control flow (R283, R292-R295, R301) -/

/-- Where a control operation with delay slots leads: `none` falls through. -/
def Engine.branch (x : Engine) (m : Nat) : Option (BitVec 13) :=
  let t := BitVec.ofNat 13 (targetF m)
  let k := x.guard (extraF m % 8)
  match opF m with
  | 0x30 => some t
  | 0x31 => if x.sr (csF m) != 0 then some t else none
  | 0x32 => if x.sr (csF m) = 0 then some t else none
  | 0x33 => if k != 0 then some t else none
  | 0x34 => if k = 0 then some t else none
  | 0x35 => some t
  | 0x36 => some (BitVec.ofNat 13 (x.sr 31).toNat)
  | _ => none

/-- LOOP (R293): count, first and END bundle, ROT; a count of 0 leads past END after the delay slots. -/
def Engine.startLoop (x : Engine) (m : Nat) : Engine × Option (BitVec 13) :=
  let n := if bit m 7 then csF m * 32 + extraF m % 32 else (x.sr (csF m)).toNat % 65536
  let first := x.pc + 3
  let last := BitVec.ofNat 13 (targetF m)
  let c := BitVec.ofNat 16 n
  let y := if bit m 6 then { x with lc1 := c, ls1 := first, le1 := last, rot1 := bit m 5 } else { x with lc0 := c, ls0 := first, le0 := last, rot0 := bit m 5 }
  (y, if n = 0 then some (last + 1) else none)

/-- Cycles of a back-edge (R295), and the body the loop buffer then holds. -/
def Engine.backEdge (x : Engine) (first last : BitVec 13) : Nat × Option (BitVec 13 × BitVec 13) :=
  let inner := x.captured.any (fun c => decide (first.toNat ≤ c.1.toNat) && decide (c.2.toNat < last.toNat) && decide (first.toNat ≤ c.2.toNat))
  if last.toNat + 1 - first.toNat ≤ 64 && !inner then (0, some (first, last)) else (2, x.captured)

/-- The end of a pass of a loop at its END bundle: where execution goes on and its extra cycles. -/
def Engine.loopEnd (x : Engine) : Engine × Option (BitVec 13) × Nat :=
  if !x.gie then (x, none, 0)
  else if x.lc0 != 0 && x.pc = x.le0 then
    let r := x.backEdge x.ls0 x.le0
    let y := { x with lc0 := x.lc0 - 1, rb := if x.rot0 then x.rb - 1 else x.rb }
    if x.lc0 = 1 then (y, none, 0) else ({ y with captured := r.2 }, some x.ls0, r.1)
  else if x.lc1 != 0 && x.pc = x.le1 then
    let r := x.backEdge x.ls1 x.le1
    let y := { x with lc1 := x.lc1 - 1, rb := if x.rot1 then x.rb - 1 else x.rb }
    if x.lc1 = 1 then (y, none, 0) else ({ y with captured := r.2 }, some x.ls1, r.1)
  else (x, none, 0)

/-- RETI after its delay slots: operations complete, PC and K1 to K7 come back, GIE is set (R301). -/
def Engine.doReti (x : Engine) : Engine × Nat :=
  let wait := x.writes.foldl (fun a w => max a (w.due - x.issued)) 0
  let y := x.settle
  ({ y with pc := y.ipc, k := y.ik, gie := true, reti := false, delay := 0, target := none }, wait)

/-- The next bundle (R283, R293): `src` as the bundle found it, `x` with its effects. -/
def Engine.advance (src : Engine) (m : Nat) (x : Engine) : Engine × Nat :=
  let op := opF m
  let y := { x with issued := x.issued + 1, pc := src.pc + 1 }
  if hasDelay op then
    let link := if op = 0x35 then x.pend 3 [{ dest := .s 31, lat := 1, value := (src.pc + 3).toNat }] else x
    let (z, t) := if op = 0x37 then link.startLoop m else (link, src.branch m)
    ({ z with issued := x.issued + 1, pc := src.pc + 1, delay := 2, target := t, reti := op = 0x3A }, 0)
  else if src.delay = 1 then
    if src.reti then y.doReti
    else match src.target with
    | some t => ({ y with delay := 0, target := none, pc := t }, 0)
    | none => ({ y with delay := 0 }, 0)
  else if src.delay = 2 then ({ y with delay := 1 }, 0)
  else
    let r := ({ y with pc := src.pc }).loopEnd
    ({ r.1 with pc := r.2.1.getD (src.pc + 1) }, r.2.2)

/-- A bundle that issues: the engine after it, its cycles, and what it asks. -/
def Engine.issue (x : Engine) (a b sc m free : Nat) : Engine × Nat × Act :=
  let y := { x with macHold := longMac (opF a) || longMac (opF b), afterYield := false, stalled := false }
  let y1 := x.vecSlot 1 b (free + 16) (x.vecSlot 0 a free y)
  let y2 := if sc = 0 then y1 else y1.pend 2 (x.scalar sc)
  let (y3, extra, act) := x.memSlot m (free + 32) y2
  let (y4, more) := x.advance m y3
  ({ y4 with cyc := y4.cyc + 1 + extra + more, count := { y4.count with bundles := y4.count.bundles + 1, stalls := y4.count.stalls + extra + more } }, 1 + extra + more, act)

/-! ### The effects on the device -/

/-- MOR_BUSY counts cycles while a skein lies between its dispatch and its END (R329). -/
def State.busy (s : State) (e n : Nat) : State := if (s.me e).running.isSome then s.bumpBy morBusy n e else s

/-- A fault (R303): the job of every live lane ends, its kind is kept, and the FAULT interrupt is pending. -/
def State.engineFault (s : State) (e kind : Nat) : State :=
  let s1 := (s.wr supEngLastFault kind e).endSkein e
  s1.modEng e (fun x => { x with irqFault := true, fault := kind, delay := 0, target := none, reti := false, stalled := false
                                 live := if (s1.me e).running.isSome then x.live else 0 })

/-- OUTEND (R274, R275): every lane still set commits, releases its frames and publishes. -/
def State.outEnd (s : State) (e : Nat) (reports : List JobReport) : State :=
  match (s.me e).running with
  | none => s
  | some k =>
    let x := s.eng e
    let lanes := (k.tasks.zipIdx).filter (fun t => k.mask.getLsbD t.2)
    let s1 := lanes.foldl (fun s t =>
      let r := (reports.find? (fun r => r.lane.val = t.2)).getD { lane := Fin.ofNat 16 t.2 }
      s.jobOutEnd e t.2 k t.1 r x) s
    let s2 := s1.modEng e (fun x => { x with sts := [], glzLanes := [], glzUnsettled := [], outW := [], frames := [] })
    s2.modMe e (fun m => { m with running := m.running.map (fun k => { k with tasks := k.tasks.map (fun t => { t with buffers := 0 }) }) })

/-- END (R274): the tail's words commit, the skein is over. -/
def State.jobEnd (s : State) (e : Nat) : State :=
  match (s.me e).running with
  | none => s
  | some k =>
    let x := s.eng e
    let s1 := ((k.tasks.zipIdx).filter (fun t => k.mask.getLsbD t.2)).foldl (fun s t =>
      s.commit e t.2 t.1.ch x.sts) s
    let s2 := s1.modEng e (fun x => { x.settle with count := { x.count with skeins := x.count.skeins + 1, gov := x.count.gov + laneCount x.gov } })
    s2.endSkein e

/-- YIELD (R298): recorded cancels take effect; with no lane left the skein ends. -/
def State.yield (s : State) (e : Nat) : State :=
  match (s.me e).running with
  | none => s.modEng e (fun x => { x with afterYield := true })
  | some k =>
    let gone := k.cancels &&& k.mask
    let done := (s.eng e).outDone
    let tasks := ((k.tasks.zipIdx).filter (fun t => gone.getLsbD t.2)).map (·.1)
    let k1 := { k with mask := k.mask &&& ~~~gone, cancels := 0 }
    let s1 := (s.modMe e (fun m => { m with running := some k1 })).modEng e (fun x =>
      { x with afterYield := true, live := x.live &&& ~~~gone, sts := x.sts.filter (fun w => !gone.getLsbD w.1) })
    let s2 := tasks.foldl (fun s t => s.closeLane done t) s1
    if k1.mask = 0 then (s2.modEng e (fun x => { x.settle with count := { x.count with skeins := x.count.skeins + 1 } })).endSkein e else s2

/-- GLZ (R209, R276): the descriptor joins the queue of the engine's cluster. -/
def State.glazeIssue (s : State) (e addr : Nat) : State :=
  match (s.me e).running with
  | none => s
  | some k =>
    let j : GlzJob := { engine := e, skein := k.num, addr := addr }
    { s with glaze := { s.glaze with queues := tset s.glaze.queues (e / 8) (tget s.glaze.queues (e / 8) [] ++ [j]) [] } }

/-- BUNDLE_ISSUE (R277-R307): the engine issues the bundle at PC; a stalled one costs a cycle; a faulting one has no effect but its
fault. `reports`: what the kernel finds, taken by OUTEND. -/
def bundleIssue (e : Nat) (reports : List JobReport) (s : State) : State :=
  let m := s.me e
  let x := (s.eng e).deliver
  if 4 ≤ m.service || x.irqFault || (m.running.isNone && x.gie) then s else
  let w := (tget x.pmem x.pc.toNat 0).toNat
  let a := w % 2 ^ 32
  let b := w / 2 ^ 32 % 2 ^ 32
  let sc := w / 2 ^ 64 % 2 ^ 32
  let mm := w / 2 ^ 96
  let id := (m.running.map (·.key.kernel)).getD 0
  match x.hold { ctx := s.ctxBytes id, slot := s.slotBytes id } a b sc mm with
  | some .stall =>
    (s.busy e 1).modEng e (fun y => { y with cyc := y.cyc + 1, stalled := opF mm = 0x0A, count := { y.count with stalls := y.count.stalls + 1 } })
  | some (.fault kind) => (s.busy e 1).engineFault e kind
  | none =>
    let (y, n, act) := x.issue a b sc mm s.freeCtr
    let s1 := { (s.busy e n).modEng e (fun _ => y) with freeCtr := s.freeCtr + 2 ^ 21 }
    match act with
    | .none => s1
    | .outEnd => s1.outEnd e reports
    | .jobEnd => s1.jobEnd e
    | .yield => s1.yield e
    | .glaze addr => s1.glazeIssue e addr

/-- The engine issues: it is in service, no fault is pending, and it runs a skein or a handler. -/
def State.issues (s : State) (e : Nat) : Bool :=
  let x := (s.eng e).deliver
  !(decide (4 ≤ (s.me e).service) || x.irqFault || ((s.me e).running.isNone && x.gie))

/-- A bundle under the checks of the engine's memories (R303, R493): what SECDED corrects is counted; what it cannot is the MEM_UE
fault in place of the bundle, and in PMEM it makes a reload due before the next dispatch. -/
def bundleChecked (e : Nat) (reports : List JobReport) (ecc : EngineEcc) (s : State) : State :=
  if !s.issues e then s else
  match ecc with
  | .clean => bundleIssue e reports s
  | .corrected => bundleIssue e reports (s.modEng e (fun x => { x with count := { x.count with ecc := x.count.ecc + 1 } }))
  | .data => (s.busy e 1).engineFault e 2
  | .program => ((s.busy e 1).engineFault e 2).modEng e (fun x => { x with pmemBad := true })

def execBundleIssue (e : EngineId) (reports : List JobReport) (ecc : EngineEcc) (s : State) : Out := .next (bundleChecked e.val reports ecc s)

/-- STREAM_ENTRY_ARRIVAL (R273): the next entry of the open stream is there; an LDS that waited for it issues. -/
def streamEntryArrival (e : Nat) (s : State) : State :=
  let x := s.eng e
  if !x.stream.opened || x.stream.len ≤ 4 * x.stream.fetched || 32 ≤ x.fifo.length || (s.me e).running.isNone then s else
  let s1 := (s.fillEntry e x.stream.fetched).modEng e (fun y => { y with fifo := y.fifo ++ [s.streamEntry e y.stream.fetched], stream := { y.stream with fetched := y.stream.fetched + 1 } })
  if x.stalled then bundleIssue e [] s1 else s1

def execStreamEntryArrival (e : EngineId) (s : State) : Out := .next (s.whileOn [28, 29] (streamEntryArrival e.val))

/-- LOOP_COUNT_END (R293): the END bundle of a loop whose count stands at 1 issues, and execution falls through. -/
def loopCountEnd (e loop : Nat) (s : State) : State :=
  let x := (s.eng e).deliver
  let lc := if loop = 0 then x.lc0 else x.lc1
  let le := if loop = 0 then x.le0 else x.le1
  if x.gie && lc = 1 && x.pc = le then bundleIssue e [] s else s

def execLoopCountEnd (e : EngineId) (loop : Fin 2) (s : State) : Out := .next (loopCountEnd e.val loop.val s)

/-! ### Interrupts (R299-R303, R306, R490) -/

/-- The pending cause of highest priority (Table 12.10). IEN bit 0 is WARD, 1 SWITCH, 2 GLZ: DEDUCED (log 32). -/
def pendingCause (x : Engine) (running ward : Bool) : Option Nat :=
  if x.irqFault then some 0
  else if running && x.budget ≤ x.cyc then some 1
  else if ward && x.gie && x.ien.getLsbD 0 then some 2
  else if x.irqSwitch && x.gie && x.ien.getLsbD 1 && x.afterYield then some 3
  else if x.irqGlz && x.gie && x.ien.getLsbD 2 then some 4
  else none

/-- Interrupt entry (R300): every issued operation completes in 4 cycles, the next bundle and K1 to K7 are saved, the vector
bundle follows with GIE clear. -/
def Engine.enter (x : Engine) (cause : Nat) : Engine :=
  let y := x.settle
  { y with ipc := y.pc, ik := y.k, cause := cause, gie := false, pc := BitVec.ofNat 13 (4 * cause), cyc := y.cyc + 4, stalled := false
           irqFault := if cause = 0 then false else y.irqFault, irqSwitch := if cause = 3 then false else y.irqSwitch
           irqGlz := if cause = 4 then false else y.irqGlz }

/-- 16 faults within 1 s retire the engine (R490). -/
def State.faultCount (s : State) (e : Nat) : State :=
  let times := ((s.me e).faultTimes.filter (fun t => decide (s.now < t + sec 1))) ++ [s.now]
  let s1 := (s.modEng e (fun x => { x with count := { x.count with faults := x.count.faults + 1 } })).modMe e (fun m => { m with faultTimes := times })
  if 16 ≤ times.length && (s1.me e).service = 0 then
    ((s1.modMe e (fun m => { m with faultTimes := [] })).raise 0x0006 uSUP e 0xFFFF e).retire e none false
  else s1

/-- The TIMER interrupt: the job ends as under a fault (R306). -/
def State.timerEntry (s : State) (e : Nat) : State :=
  let s1 := (s.busy e 4).endSkein e
  s1.modEng e (fun x => { x.enter 1 with count := { x.count with budget := x.count.budget + 1 }, delay := 0, target := none, reti := false
                                         live := if (s1.me e).running.isSome then x.live else 0 })

/-- INTERRUPT_ENTRY (R299, R300): the pending cause of highest priority is taken at a bundle boundary outside delay slots. -/
def interruptEntry (e : Nat) (ward : Bool) (s : State) : State :=
  let x := s.eng e
  let m := s.me e
  if 4 ≤ m.service || x.delay != 0 then s else
  match pendingCause x m.running.isSome ward with
  | none => s
  | some 0 => ((s.busy e 4).modEng e (fun x => x.enter 0)).faultCount e
  | some 1 => s.timerEntry e
  | some c => (s.busy e 4).modEng e (fun x => x.enter c)

def execInterruptEntry (e : EngineId) (ward : Bool) (s : State) : Out := .next (interruptEntry e.val ward s)

/-- BUDGET_REACHED (R306): CYC has reached BUDGET. -/
def budgetReached (e : Nat) (s : State) : State :=
  let x := s.eng e
  if 4 ≤ (s.me e).service || x.delay != 0 || x.irqFault || (s.me e).running.isNone || x.cyc < x.budget then s else s.timerEntry e

def execBudgetReached (e : EngineId) (s : State) : Out := .next (budgetReached e.val s)

/-- PMEM_RELOAD (R303): an uncorrectable error in PMEM or the loop buffer is a MEM_UE fault of what runs, and the warden reloads
PMEM from the loaded image. -/
def pmemReload (e : Nat) (s : State) : State :=
  if 4 ≤ (s.me e).service then s else
  let s1 := if (s.me e).running.isSome then s.engineFault e 2 else s
  s1.modEng e (fun x => { x with pmem := s.pmemImage e, captured := none, pmemBad := false })

def execPmemReload (e : EngineId) (s : State) : Out := .next (pmemReload e.val s)

end Sys2Proof.Machine
end

