-- ==== Sys2Proof/Machine/Loss.lean ====
section
/-! DEFINITION. What a channel keeps and loses across a WARM reset, a context lost to a fenced memory channel, and an adoption
(R136, R154, R180, R216, R245, R267). -/

namespace Sys2Proof.Machine

/-- The jitter ring is flushed: the channel anchors again at its first packet, keeping phase and TARGET; until then each tick
releases a gap (R136). A move to larger slots has nothing left to move (R117). -/
def flushRing (t : Steep) : Steep :=
  { t with ring := [], transits := [], firstSeenAt := none, lastTransit := none, anchored := false, jumpPkt := none, driftHist := [],
           offered := none, slotSize := t.moving.getD t.slotSize, moving := none, forceDue := false, outSince := none }

/-- Block and recovery stores are emptied (R154). -/
def emptyStores (w : Weld) : Weld := { w with blocks := [], store := [], txBlock := [], lastFrames := [] }

/-- Glaze lane states have VALID cleared (R216); no cross-fade is under way in them. -/
def clearLanesOf (x : Ctx) : Ctx := { x with lanes := x.lanes.map (fun l => (l.1, { l.2 with valid := false, swapSeen := 0, fadePos := 256 })) }

/-- A lost context rebuilt as at CHAN_OPEN (R359, R180, R245, R267): settings, flows and keys stay. The counts
of STATS_READ, which live in the context and are not mirrored, start again at 0 (R432; DEDUCED for a context that a mirror restores, log 115). -/
def rebuildCtx (c : Chan) : Chan :=
  { c with ctx := { encMode := startMode c.tx, encBw := c.tx.evsBw, jobs := c.ctx.jobs }
           echo := { startEcho c.ecs with nextSearch := c.echo.nextSearch, placeGen := c.echo.placeGen + 1 }
           tone := toneReset true c.tone, vbd := vbdReset c.vbd, stats := {} }

/-- A lost context restored from the partner's mirror (R359): the sections of a SYNC body that hold context state. -/
def restoreCtx (t : Nat) (b : DeltaBody) (c : Chan) : Chan :=
  let own := b.sections.filter (fun x => x.1 = 2 || x.1 = 4 || x.1 = 5 || x.1 = 9)
  let d := rebuildCtx c
  { restoreBody t { b with sections := own } d with vbd := d.vbd, tone := d.tone }

/-- A channel's context is lost with its frame, and with it the channel's jitter ring, block store and recovery store, and its waiting
decode jobs (R136, R154, R359). That they lie in the frame of the context is a DESIGN CHOICE (log 33). -/
def State.loseCtx (s : State) (ch : Nat) : State :=
  let t := State.letJumpGo (s.modChan ch (fun c => { c with steep := flushRing c.steep, weld := emptyStores c.weld, ctx := { c.ctx with lost := true } })) s ch
  { t with weldU := { t.weldU with queue := t.weldU.queue.filter (fun j => j.ch != ch), running := t.weldU.running.filter (fun j => j.2.ch != ch) } }

/-- Restored or rebuilt, the next job runs from the context (R359). -/
def State.ctxBack (s : State) (ch : Nat) (f : Chan → Chan) : State :=
  s.modChan ch (fun c => let d := f c; { d with ctx := { clearLanesOf d.ctx with lost := false } })

/-- A line is poisoned: the list gains it, or overflows (R497). -/
def State.addPoison (s0 : State) (line : Nat) : State :=
  let s := { s0 with mem := { s0.mem with poisoned := s0.mem.poisoned ++ [line] } }
  if s0.mem.poisoned.contains line then s0
  else if s.sup.poison.length ≥ 256 then
    State.bump { s with sup := { s.sup with poisonOvf := true, poisonOvfAt := s.tbVal 0 + s.sup.tsOffset.toNat } } secPoisonOverflow
  else { s with sup := { s.sup with poison := s.sup.poison ++ [line] } }

end Sys2Proof.Machine
end

