-- ==== Sys2Proof/Machine/Memory.lean ====
section
/-! DEFINITION. The memory subsystem (spec/14_memory.md): requests and their urgency, pages, row disturbance, errors, training,
fencing and migration, MEMCH resets, and media hold. Data of the device-private partition is not modelled byte by byte: the
spec gives no layout of it. -/

namespace Sys2Proof.Machine

/-! ### Ports (Table 14.3) -/

/-- Read latency target of a port, ns, and its credits at each controller. -/
def portTarget (p : Nat) : Nat := [350, 500, 2000, 1000, 600, 2000, 20000, 5000].getD p 5000
def portCredits (p : Nat) : Nat := [32, 24, 8, 12, 24, 12, 8, 8].getD p 0

/-- Credits of a port held at a controller (R349): its requests that wait there. -/
def creditsHeld (m : Mc) (p : Nat) : Nat := (m.reads.filter (fun r => r.req.port.val = p)).length

/-- Urgency of a request that has waited `t` ns (R348). -/
def urgencyAt (p t : Nat) : Nat :=
  let g := portTarget p
  if g ≤ t then 3 else if 3 * g ≤ 4 * t then 2 else if g ≤ 2 * t then 1 else 0

/-! ### Fences (R356, R357) -/

/-- Frames of a memory channel in the order they are copied: contexts, then block stores, then replay buffers and rings. -/
def State.copyOrder (s : State) (m : Nat) : List Nat :=
  let l := s.framesOn m
  ((l.filter (fun e => e.2.kind != 2)) ++ (l.filter (fun e => e.2.kind = 2))).map (·.1)

/-- A capture source loses its storage (R357, R448): it stops, and MEM_CAPTURE_LOST names it. -/
def State.dropCapture (s : State) (m src : Nat) : State :=
  let s1 := ({ s with cap := { s.cap with caps := terase s.cap.caps src } }).freeRing src
  let s2 := s1.modMc m (fun c => { c with migration := c.migration.map (fun g => { g with frames := g.frames.filter (fun f => (tget s1.mem.frameMap f none).isSome) }) })
  if src < 65536 then s2.raise 0x0033 uMEM m src m else s2.raise 0x0033 uMEM m 0xFFFF m 0 (src - 65536)

/-- The next frame of a migration gets its new place; captures that find none are dropped. A context that finds none waits. -/
def State.nextTarget : Nat → State → Nat → State
  | 0, s, _ => s
  | n + 1, s, m =>
    match (s.mc m).migration with
    | none => s
    | some g =>
      match g.frames with
      | [] => s
      | f :: _ =>
        match s.nextFrame with
        | some t => s.modMc m (fun c => { c with migration := some { g with page := 0, pageAt := s.now, target := some t } })
        | none =>
          match tget s.mem.frameMap f none with
          | some e => if e.kind = 2 then State.nextTarget n (s.dropCapture m e.owner) m else s
          | none => s

/-- Bister fences a channel (R357): FENCING, no new frames on it, its private frames to be copied. -/
def State.fenceStart (s : State) (m : Nat) : State :=
  if !s.mcServes m then s else
  let s1 := (s.wr memChState 4 m).modMc m (fun c => { c with migration := some { frames := s.copyOrder m } })
  (s1.nextTarget 1024 m).invRebuild

/-- Times of the last `w` ns. -/
def within (now w : Nat) (l : List Nat) : List Nat := l.filter (fun t => decide (now < t + w))

/-- A corrected error (R356): more than CE_LIMIT within 10 s fence the channel. -/
def State.countCe (s : State) (m : Nat) : State :=
  let l := within s.now (sec 10) (s.mc m).ceTimes ++ [s.now]
  let s1 := s.modMc m (fun c => { c with ceTimes := l })
  if s.rd memCeLimit < l.length then s1.fenceStart m else s1

/-- An uncorrectable error (R356): one while DEGRADED, or a second within 24 h, fences the channel. -/
def State.countUe (s : State) (m : Nat) : State :=
  let l := within s.now (sec 86400) (s.mc m).ueTimes ++ [s.now]
  let s1 := s.modMc m (fun c => { c with ueTimes := l })
  if s.rd memChState m = 3 || 2 ≤ l.length then s1.fenceStart m else s1

/-! ### What a read returns (R338, R342, R343) -/

/-- The physical line of a line of a channel. -/
def dpaLine (m line : Nat) : Nat := m * 2 ^ 33 + line

/-- The line lies in host-visible frames. -/
def State.hostLine (s : State) (line : Nat) : Bool := decide (line < s.hostFrames * 2 ^ 20)

/-- The other channel of a mirror pair. -/
def mirrorOf (m : Nat) : Nat := if m < 4 then m + 4 else m - 4

/-- The engine on which a job of a channel runs, among those of a cluster. -/
def State.engineOfJob (s : State) (cluster ch : Nat) : Option Nat :=
  ((List.range 8).map (8 * cluster + ·)).find? (fun e => (s.me e).running.any (fun k => (runningTasks k).any (fun t => t.ch = ch)))

/-- The memory error as a DRAM event record (R400). Its severity is not given: PRESUMED Failure (log 34). -/
def State.dramEvent (s : State) (m line : Nat) : State :=
  s.raiseRec 2 { kind := 2, code := 0, unit := uMEM, inst := m, address := 64 * dpaLine m line }

/-- A unit other than an engine or the host discards a poisoned line (R343). -/
def State.discardPoison (s : State) (m : Nat) (r : MemReq) : State :=
  s.raise 0x0001 uMEM m 0xFFFF r.source (64 * dpaLine m r.line)

/-- Poisoned data reaches its reader: an engine takes MEM_UE, the host receives poison, any other unit discards it. -/
def State.toReader (s : State) (m : Nat) (r : MemReq) : State :=
  if 12 ≤ r.source && r.source ≤ 107 then s.engineFault (r.source - 12) 2
  else if r.source < 12 then
    match r.ctxChan.bind (fun ch => s.engineOfJob r.source ch.val) with
    | some e => s.engineFault e 2
    | none => s.discardPoison m r
  else if r.port.val = 4 then { s with host := { s.host with readPoison := true } }
  else s.discardPoison m r

/-- A poisoned line reaches its reader. -/
def State.deliverPoison (s : State) (m : Nat) (r : MemReq) : State := (s.addPoison (dpaLine m r.line)).toReader m r

/-- An uncorrectable read: from the other copy where there is one, which also rewrites the bad copy; else poisoned. -/
def State.readUe (s : State) (m : Nat) (r : MemReq) : State :=
  let s1 := ((s.bump memUe m).dramEvent m r.line)
  let s2 := if s.hostLine r.line && s.mcServes (mirrorOf m) && !s.mem.poisoned.contains (dpaLine (mirrorOf m) r.line)
    then (s1.bump memMirrorFix m).unpoison (· = dpaLine m r.line) else s1.deliverPoison m r
  s2.countUe m

/-- What a read of a line finds: a line that stands poisoned cannot be corrected (R343, R344). -/
def State.eccOf (s : State) (m : Nat) (r : MemReq) : EccResult := if s.mem.poisoned.contains (dpaLine m r.line) then .uncorrectable else r.ecc

/-- A demand read's outcome. -/
def State.readResult (s : State) (m : Nat) (r : MemReq) : State :=
  match s.eccOf m r with
  | .clean => s
  | .corrected => (s.bump memCe m).countCe m
  | .uncorrectable => s.readUe m r

/-- The checks between DRAM and the unit (R493): a fabric parity error, or an error in SRAM that SECDED cannot correct, poisons the
data; each is counted. -/
def State.countChecks (s : State) (r : MemReq) : State :=
  let s1 := match r.sram with
    | .clean => s
    | .corrected => s.bump secSramCe
    | .uncorrectable => s.bump secSramUe
  if r.parity then s1.bump secFabricParity else s1

/-- A check on the way has poisoned the data. -/
def hopPoison (r : MemReq) : Bool := r.parity || r.sram = .uncorrectable

/-- A read's data on its way to the reader. -/
def State.readTransfer (s : State) (m : Nat) (r : MemReq) : State :=
  let s1 := (s.readResult m r).countChecks r
  if hopPoison r && s.eccOf m r != .uncorrectable then s1.toReader m r else s1

/-- A write's data on its way to DRAM: what was poisoned is stored poisoned; a whole line clears poison (R497). -/
def State.writeTransfer (s : State) (m : Nat) (r : MemReq) : State :=
  let s1 := s.countChecks r
  if hopPoison r then s1.addPoison (dpaLine m r.line) else s1.unpoison (· = dpaLine m r.line)

/-! ### Banks (R351-R353) -/

/-- Ones among the last four accesses. -/
def histOnes (h : BitVec 4) : Nat := (List.range 4).foldl (fun a i => a + b2n (h.getLsbD i)) 0

/-- Set the count of entry `i`. -/
def putCount (l : List (Nat × Nat)) (i : Nat) (e : Nat × Nat) : List (Nat × Nat) := l.set i e

/-- The lowest count of a full table and its lowest-numbered entry. -/
def lowestCount (l : List (Nat × Nat)) : Nat × Nat :=
  (l.zipIdx).foldl (fun (a : Nat × Nat) e => if e.1.2 < a.1 then (e.1.2, e.2) else a) (((l.head?.map (·.2)).getD 0), 0)

/-- An activate of a row (R352): the table after it and the row's count. -/
def countRow (l : List (Nat × Nat)) (row : Nat) : List (Nat × Nat) × Nat :=
  match l.findIdx? (fun e => e.1 = row) with
  | some i => let c := (l.getD i (row, 0)).2 + 1; (putCount l i (row, c), c)
  | none =>
    if l.length < 32 then (l ++ [(row, 1)], 1)
    else let m := lowestCount l; (putCount l m.2 (row, m.1 + 1), m.1 + 1)

/-- An activate: neighbour refresh at THRESH, RFM beyond 32 x THRESH activates of a window. -/
def State.activate (s : State) (m row : Nat) (b : Bank) : State × Bank :=
  let th := s.rd memRdThresh
  let c := countRow b.counts row
  let total := b.total + 1
  let hot := decide (th ≤ c.2)
  let counts := if hot then c.1.map (fun e => if e.1 = row then (row, 0) else e) else c.1
  let s1 := if hot then s.bump memRdRefresh m else s
  let s2 := if 32 * th < total && (total - 32 * th) % th = 0 then s1.bump memRdRfm m else s1
  (s2, { b with counts := counts, total := total })

/-- An access to a row of a bank: history, activation on a miss, and whether the row stays open (R351). -/
def State.bankAccess (s : State) (m bank row : Nat) : State :=
  let b := tget (s.mc m).banks bank {}
  let hit := decide (b.openRow = some row)
  let hist := (b.hist <<< 1) ||| (if hit then 1 else 0)
  let r := if hit then (s, b) else s.activate m row b
  let b' := { r.2 with hist := hist, openRow := if s.rd memPageKeep ≤ histOnes hist then some row else none, idleAt := s.now }
  r.1.modMc m (fun c => { c with banks := tset c.banks bank b' {} })

/-! ### Service (R347, R348) -/

/-- The request hits the open row of its bank. -/
def rowHit (m : Mc) (r : MemReq) : Bool := decide ((tget m.banks r.bank {}).openRow = some r.row)

/-- Request a is served before request b, both of which wait, a behind b in the queue (R348). -/
def servedBefore (m : Mc) (a b : QueuedReq) : Bool :=
  if a.urgency != b.urgency then decide (b.urgency < a.urgency)
  else if a.urgency = 3 then false
  else rowHit m a.req && !rowHit m b.req

/-- The request that the controller serves next. Of one source, the oldest comes first (R350). -/
def pickReq (m : Mc) (l : List QueuedReq) : Option QueuedReq :=
  let first := fun (q : QueuedReq) => ((l.find? (fun x => x.req.source = q.req.source)).map (fun x => decide (x = q))).getD true
  (l.filter first).foldl (fun (a : Option QueuedReq) q => match a with
    | none => some q
    | some b => if servedBefore m q b then some q else some b) none

/-- The last 64 commands issued (R345). -/
def keepIssued (l : List MemReq) (r : MemReq) : List MemReq := (l ++ [r]).drop (l.length + 1 - 64)

/-- Latency of a request in ns: what the DIMM took, or the time it has waited if that is longer. -/
def latencyOf (q : QueuedReq) (now : Nat) : Nat := max q.req.latencyNs (now - q.entered)

/-- A request is issued: its latency is judged and the bank accessed. -/
def State.issue (s : State) (m : Nat) (q : QueuedReq) : State :=
  let p := q.req.port.val
  let t := latencyOf q s.now
  let s1 := if portTarget p < t then s.bump memLate p else s
  ((s1.highWater memMaxlat t p).bankAccess m q.req.bank q.req.row).modMc m (fun c => { c with retry := keepIssued c.retry q.req })

/-- One waiting read is served, if there is one and the controller runs. -/
def State.serveRead (s : State) (m : Nat) : State :=
  if (s.mc m).hold = 2 then s else
  match pickReq (s.mc m) ((s.mc m).reads.filter (fun q => !q.req.write)) with
  | none => s
  | some q => ((s.modMc m (fun c => { c with reads := c.reads.erase q })).issue m q).readTransfer m q.req

/-- A waiting write is performed. -/
def State.performWrite (s : State) (m : Nat) (q : QueuedReq) : State :=
  ((s.modMc m (fun c => { c with writes := c.writes.erase q })).issue m q).writeTransfer m q.req

/-- Writes drain until `keep` are left. -/
def State.drainTo : Nat → State → Nat → Nat → State
  | 0, s, _, _ => s
  | n + 1, s, m, keep =>
    if (s.mc m).writes.length ≤ keep then s else
    match pickReq (s.mc m) (s.mc m).writes with
    | none => s
    | some q => State.drainTo n (s.performWrite m q) m keep

/-- Writes that wait with a credit enter the write queue of 64 while it has room (R348, R349). -/
def acceptWrites (m : Mc) : Mc :=
  let w := m.reads.filter (fun q => q.req.write)
  let room := 64 - m.writes.length
  { m with writes := m.writes ++ w.take room, reads := m.reads.filter (fun q => !(q.req.write && (w.take room).contains q)) }

/-- The write falls on the page that a migration is copying (R358): the frame under way, its page. -/
def State.onPage (s : State) (m : Nat) (r : MemReq) : Bool :=
  match (s.mc m).migration with
  | none => false
  | some g =>
    match g.target, (g.frames.head?.bind (fun f => tget s.mem.frameMap f none)) with
    | some _, some e => r.line / 2 ^ 20 = e.frame && r.line % 2 ^ 20 / 64 = g.page
    | _, _ => false

/-- A request enters a controller (R347-R350, R358, R363). A channel that is not in use takes none; a port without a credit waits
(log 35). A write to the page being copied is held. In self-refresh requests wait for the exit; before it, a request abandons
the entry. -/
def memoryRequest (m : Nat) (r : MemReq) (s : State) : State :=
  let st := s.rd memChState m
  if !(st = 2 || st = 3 || st = 4) || portCredits r.port.val ≤ creditsHeld (s.mc m) r.port.val then s
  else if r.write && s.onPage m r then s.modMc m (fun c => { c with migration := c.migration.map (fun g => { g with held := g.held ++ [r] }), lastReqAt := s.now })
  else
    let q : QueuedReq := { req := r, entered := s.now }
    let s1 := s.modMc m (fun c => acceptWrites { c with reads := c.reads ++ [q], lastReqAt := s.now })
    s1.serveRead m

def execMemoryRequest (m : McId) (r : MemReq) (s : State) : Out := .next (s.whileOn [28] (memoryRequest m.val r))

/-- A waiting request reaches 50, 75 or 100 percent of its port's target (R348); a write at urgency 3 is drained at once. Reads
are numbered first, then writes, each oldest first. -/
def urgencyRise (m index : Nat) (s : State) : State :=
  let c := s.mc m
  let up := fun (q : QueuedReq) => { q with urgency := max q.urgency (urgencyAt q.req.port.val (s.now - q.entered)) }
  match c.reads[index]? with
  | some _ => s.modMc m (fun c => { c with reads := c.reads.modify index up })
  | none =>
    match c.writes[index - c.reads.length]? with
    | none => s
    | some q =>
      let s1 := s.modMc m (fun c => { c with writes := c.writes.modify (index - c.reads.length) up })
      if (up q).urgency = 3 && c.hold != 2 then s1.performWrite m (up q) else s1

def execUrgencyRise (m : McId) (index : Nat) (s : State) : Out := .next (s.whileOn [28] (urgencyRise m.val index))

/-- The write queue drains to 16 once it holds 48 entries, or when no read waits (R348). -/
def writeQueueDrain (m : Nat) (s : State) : State :=
  let c := s.mc m
  if c.hold != 2 && (48 ≤ c.writes.length || !c.reads.any (fun q => !q.req.write))
  then (s.drainTo 64 m 16).modMc m acceptWrites else s

def execWriteQueueDrain (m : McId) (s : State) : Out := .next (s.whileOn [28] (writeQueueDrain m.val))

/-! ### Pages and refresh -/

/-- 64 MCLK cycles in ns, rounded up (R332). -/
def idleNs (s : State) : Nat := if s.flag memSpeed then 46 else 54

/-- An open row of an idle bank closes (R351). -/
def rowIdleClose (m bank : Nat) (s : State) : State :=
  let b := tget (s.mc m).banks bank {}
  if b.openRow.isSome && b.idleAt + idleNs s ≤ s.now
  then s.modMc m (fun c => { c with banks := tset c.banks bank { b with openRow := none } {} }) else s

def execRowIdleClose (m : McId) (bank : Nat) (s : State) : Out := .next (s.whileOn [28] (rowIdleClose m.val bank))

/-- Every 32 ms the activate counts are cleared (R352). -/
def activateTableClear (m : Nat) (s : State) : State :=
  if (s.mc m).clearAt + ms 32 ≤ s.now
  then s.modMc m (fun c => { c with clearAt := s.now, banks := c.banks.map (fun e => (e.1, { e.2 with counts := [], total := 0 })) |>.filter (fun e => e.2 != {}) })
  else s

def execActivateTableClear (m : McId) (s : State) : Out := .next (s.whileOn [28] (activateTableClear m.val))

/-- A refresh of a rank (R335, R351, R355): 3.9 us after the last, 1.95 us for a hot DIMM; open rows close, histories clear, and
lanes whose new centre waits take it. -/
def dramRefresh (m rank : Nat) (s : State) : State :=
  let c := s.mc m
  let gap := if c.refresh2.contains (rank / 8) then 1950 else 3900
  if (c.refreshAt.find? (fun e => e.1 = rank)).any (fun e => decide (s.now < e.2 + gap)) then s else
  let mine := fun (lane : Nat) => decide (lane / 16 = rank)
  s.modMc m (fun c => { c with
    refreshAt := tins c.refreshAt rank s.now
    banks := (c.banks.map (fun e => if e.1 / 64 = rank then (e.1, { e.2 with openRow := none, hist := 0 }) else e)).filter (fun e => e.2 != {})
    centres := (c.newCentres.filter (fun x => mine x.1)).foldl (fun (t : Tbl Nat) x => tins t x.1 x.2) c.centres
    newCentres := c.newCentres.filter (fun x => !mine x.1) })

def execDramRefresh (m : McId) (rank : Nat) (s : State) : Out := .next (s.whileOn [28] (dramRefresh m.val rank))

/-! ### Errors -/

/-- The patrol scrub reads a line (R344). -/
def patrolScrub (m line : Nat) (ecc : EccResult) (s : State) : State :=
  if !s.mcServes m then s else
  match ecc with
  | .clean => s
  | .corrected => (s.bump memScrubCe m).countCe m
  | .uncorrectable => s.addPoison (dpaLine m line)

def execPatrolScrub (m : McId) (line : Nat) (ecc : EccResult) (s : State) : Out := .next (s.whileOn [28] (patrolScrub m.val line ecc))

/-- A CA parity error (R345): every bank is precharged and the buffered commands are reissued; three within 1 ms fence the
channel (R356). -/
def alertN (m : Nat) (s : State) : State :=
  if !(s.mcServes m || s.rd memChState m = 4) then s else
  let l := within s.now (ms 1) (s.mc m).caTimes ++ [s.now]
  let s1 := (s.bump memCaRetry m).modMc m (fun c => { c with caTimes := l, banks := (c.banks.map (fun e => (e.1, { e.2 with openRow := none }))).filter (fun e => e.2 != {}) })
  if 3 ≤ l.length then s1.fenceStart m else s1

def execAlertN (m : McId) (s : State) : Out := .next (s.whileOn [28] (alertN m.val))

/-- A write CRC error (R346): the write is reissued from the retry buffer. -/
def writeCrcError (m : Nat) (s : State) : State :=
  match (s.mc m).retry.reverse.find? (fun r => r.write) with
  | none => s
  | some r => if s.flag memWcrcEn then (s.bump memWcrcRetry m).bankAccess m r.bank r.row else s

def execWriteCrcError (m : McId) (s : State) : Out := .next (s.whileOn [28] (writeCrcError m.val))

/-- Every 1 s: refresh is doubled for a DIMM above 85 °C until it falls below 83 °C (R335). DIMM 2c + s is slot s of MCc. -/
def dimmThermalPoll (temps : List (Nat × Int)) (s : State) : State :=
  temps.foldl (fun s t =>
    let m := t.1 / 2
    let slot := t.1 % 2
    if 85 < t.2 then s.modMc m (fun c => { c with refresh2 := if c.refresh2.contains slot then c.refresh2 else c.refresh2 ++ [slot] })
    else if t.2 < 83 then s.modMc m (fun c => { c with refresh2 := c.refresh2.filter (· != slot) })
    else s) s

def execDimmThermalPoll (temps : List (Nat × Int)) (s : State) : Out := .next (dimmThermalPoll temps s)

/-! ### Retraining (R355, R356) -/

/-- A retraining pass ends: lanes that move take their centre at a refresh of their rank; a lane with no passing setting degrades the
channel; a pass in which every lane passes restores it. -/
def periodicRetrain (m : Nat) (failed : Bool) (moved : List (Nat × Nat)) (s : State) : State :=
  let st := s.rd memChState m
  let gap := if st = 3 then 62500000 else ms 250
  if !(st = 2 || st = 3) || !s.flag memPeriodic || s.now < (s.mc m).passAt + gap then s else
  let s1 := (s.bump memTrainPasses m).modMc m (fun c => { c with passAt := s.now, newCentres := c.newCentres ++ moved.filter (fun x => decide (tget c.centres x.1 0 ≠ x.2)) })
  if failed then
    let s2 := s1.bump memTrainFail m
    if st = 2 then ((s2.wr memChState 3 m).raise 0x0030 uMEM m 0xFFFF m).invRebuild else s2
  else if st = 3 then ((s1.wr memChState 2 m).raise 0x0031 uMEM m 0xFFFF m).invRebuild else s1

def execPeriodicRetrain (m : McId) (failed : Bool) (moved : List (Nat × Nat)) (s : State) : Out := .next (s.whileOn [28] (periodicRetrain m.val failed moved))

/-! ### Migration and the end of a fence (R357-R360) -/

/-- Channels whose context lies on a page of a private frame of contexts (log 33): 64 KiB each. -/
def ctxOnPage (frame page : Nat) : Nat := frame * 1024 + page / 16

/-- A held write is performed in the new frame `t` (R358). The hash that places lines in banks is not given (R336): its bank and row
there are free values (log 2). It is not judged against its port's target. -/
def State.performHeld (s : State) (t : Nat × Nat) (r : MemReq) : State :=
  let q : MemReq := { r with line := t.2 * 2 ^ 20 + r.line % 2 ^ 20, bank := Config.freeNat s.freeCtr, row := Config.freeNat (s.freeCtr + 1) }
  let s1 := { s with freeCtr := s.freeCtr + 2 }
  ((s1.bankAccess t.1 q.bank q.row).modMc t.1 (fun c => { c with retry := keepIssued c.retry q })).writeTransfer t.1 q

/-- The copy of a 4 KiB page ends (R358): held writes are performed at the new place; with the last page the frame's mapping
changes. A line lost in a page of contexts loses the context of its channel. -/
def migrationPageCopy (m : Nat) (lostLine : Bool) (s : State) : State :=
  match (s.mc m).migration with
  | none => s
  | some g =>
    match g.frames, g.target with
    | f :: rest, some t =>
      let rate := max 1 (s.rd memMigrateRate)
      if s.now < g.pageAt + (4096 + rate - 1) / rate then s else
      let e := (tget s.mem.frameMap f none).getD { mc := m, frame := 0 }
      let ch := ctxOnPage f g.page
      let bad := s.mem.poisoned.any (fun d => decide (d / 64 = dpaLine m (e.frame * 2 ^ 20) / 64 + g.page))
      let s0 := if (lostLine || bad) && e.kind = 0 && ((s.chan ch).st != .free) then s.loseCtx ch else s
      let s1 := g.held.foldl (fun s r => s.performHeld t r) s0
      if g.page + 1 < 16384 then
        s1.modMc m (fun c => { c with migration := some { g with page := g.page + 1, pageAt := s.now, held := [] } })
      else
        let s2 := { s1 with mem := { s1.mem with frameMap := tset s1.mem.frameMap f (some { e with mc := t.1, frame := t.2 }) none } }
        (s2.modMc m (fun c => { c with migration := some { frames := rest } })).nextTarget 1024 m
    | _ :: _, none => s.nextTarget 1024 m
    | [], _ => s

def execMigrationPageCopy (m : McId) (lostLine : Bool) (s : State) : Out := .next (s.whileOn [28] (migrationPageCopy m.val lostLine))

/-- A lost context is asked of the downstream member, or rebuilt where there is no ring partner (R359, R467). -/
def State.recoverCtx (s : State) (ch : Nat) : State :=
  if s.mirrored ch && s.inserted then
    let s1 := s.newToken
    s1.ringSend 0 (s.rd rngPosDown) (.ctxRequest ch s1.ring.token)
  else s.ctxBack ch rebuildCtx

/-- GB of the channels in STATE 2 or 3 (MEM_CAP.ONLINE). -/
def State.onlineGb (s : State) : Nat := (List.range 8).foldl (fun a m => a + (if s.mcServes m then (s.mc m).gb else 0)) 0

/-- A MEMCH reset of a channel (R361): controller and PHY reset, contents lost, training begins. -/
def State.memchReset (s : State) (m : Nat) : State :=
  ((s.resetRegs .memch m).unpoison (fun d => d / 2 ^ 33 = m)).modMc m (fun c => { gb := c.gb, spd := c.spd, training := true, refresh2 := c.refresh2 })

/-- Migration has ended (R357, R360): MEMCH reset, FENCED, MEM_CAP.ONLINE falls, MEM_FENCED. -/
def fenceEnd (m : Nat) (s : State) : State :=
  let ended := match (s.mc m).migration with
    | none => false
    | some g => g.frames.isEmpty
  if s.rd memChState m != 4 || !ended then s else
  let lost := (s.chans.filter (fun e => e.2.ctx.lost)).map (·.1)
  let s1 := lost.foldl State.recoverCtx s
  let s2 := (s1.memchReset m).wr memChState 5 m
  let s3 := s2.wr memCapOnline s2.onlineGb
  (s3.raise 0x0032 uMEM m 0xFFFF m 0 s2.onlineGb).invRebuild

def execFenceEnd (m : McId) (s : State) : Out := .next (fenceEnd m.val s)

/-! ### MEMCH resets by the host (R361) -/

/-- A write of MEM_CH_CTL.RESET: a fenced or refused channel takes the reset; any other ignores it and sets CFG_ERR. A wider reset
under way absorbs it (R477). -/
def memChCtlReset (m width value : Nat) (s : State) : State :=
  let addr := memChReset.addr + m * memChReset.s1
  if !goodAccess addr width then s.bump mbxBadAccess
  else if value % 2 = 0 || s.inReset 2 then s
  else if s.rd memChState m = 5 || s.rd memChState m = 1 then
    let st := s.rd memChState m
    (s.memchReset m).wr memChState st m
  else s.wr memCfgErr 1

def execMemChCtlReset (m : McId) (width : Nat) (value : Word64) (s : State) : Out := .next (memChCtlReset m.val width value.toNat s)

/-- The training of a MEMCH reset ends (R354, R361): with the centres its sweep found, in service and empty, its capacity online again; or, a lane failing, as
before. -/
def memchTrainingDone (m : Nat) (sweep : Option (List (Nat × Nat))) (s : State) : State :=
  if !(s.mc m).training then s else
  let s1 := s.modMc m (fun c => { c with training := false, passAt := s.now, clearAt := s.now, centres := (sweep.getD []).foldl (fun (t : Tbl Nat) x => tins t x.1 x.2) [] })
  if sweep.isNone then s1
  else
    let s2 := s1.wr memChState 2 m
    (s2.wr memCapOnline s2.onlineGb).invRebuild

def execMemchTrainingDone (m : McId) (sweep : Option (List (Nat × Nat))) (s : State) : Out := .next (memchTrainingDone m.val sweep s)

/-! ### The credit book and HS_SIZE -/

/-- A write of MEM_BOOK_SNAP.REQ. -/
def execMemBookSnap (s : State) : Out := .next (s.requestSnap memSnapReq 3)

/-- A write of MEM_CFG (R340, R341): HS_SIZE and XTS_EN change only in boot wait; otherwise they stay and CFG_ERR is set. -/
def hsSizeWrite (width value : Nat) (s : State) : State :=
  if s.rd mbxBootState = 2 then s.writeReg 0xB0000 width value
  else if !goodAccess 0xB0000 width then s.bump mbxBadAccess
  else (s.writeRegBut (fun d => d = memHsSize || d = memXtsEn) 0xB0000 width value).wr memCfgErr 1

def execHsSizeWrite (width : Nat) (value : Word64) (s : State) : Out := .next (hsSizeWrite width value.toNat s)

/-! ### Boot training (R332-R335, R354) -/

/-- Table 14.1. -/
def dimmSupported (d : Dimm) : Bool :=
  d.rdimm && d.width = 4 && [16, 24, 32].contains d.density && (d.ranks = 1 || d.ranks = 2) && [1, 2, 4].contains d.stack &&
    decide (32 ≤ d.gb) && decide (d.gb ≤ 256) && decide (4800 ≤ d.grade)

/-- The channel can be used by itself (R333, R334, R354). -/
def fitUsable (f : ChannelFit) (minEye : Nat) : Bool :=
  decide (minEye ≤ f.eye) && (match f.slot0, f.slot1 with
    | some a, none => dimmSupported a
    | some a, some b => dimmSupported a && dimmSupported b && a.part = b.part
    | none, _ => false)

/-- DIMMs present, GB, and the population of a channel. -/
def fitDimms (f : ChannelFit) : Nat := b2n f.slot0.isSome + b2n f.slot1.isSome
def fitGb (f : ChannelFit) : Nat := (f.slot0.map (·.gb)).getD 0 + (f.slot1.map (·.gb)).getD 0
def fitPopulation (f : ChannelFit) : Option Nat × Option Nat := (f.slot0.map (·.part), f.slot1.map (·.part))

/-- The lower channels of the pairs that the ROM keeps (R334): the whole pairs that share the population of the lowest-numbered usable
channel, if there are at least two. -/
def keptPairs (fits : List ChannelFit) (minEye : Nat) : List Nat :=
  let f := fun (c : Nat) => fits.getD c { slot0 := none }
  match ((List.range 8).find? (fun c => fitUsable (f c) minEye)) with
  | none => []
  | some r =>
    let ok := fun (c : Nat) => fitUsable (f c) minEye && fitPopulation (f c) = fitPopulation (f r)
    let l := (List.range 4).filter (fun c => ok c && ok (c + 4))
    if l.length < 2 then [] else l

/-- A channel after boot training. -/
def State.trainChannel (s : State) (m : Nat) (f : ChannelFit) (used : Bool) : State :=
  let s1 := (s.wr memChState (if fitDimms f = 0 then 0 else if used then 2 else 1) m).wr memChDimms (fitDimms f) m
  s1.modMc m (fun _ => { gb := fitGb f, spd := [f.slot0.map (·.spd), f.slot1.map (·.spd)], centres := if used then f.centres.foldl (fun (t : Tbl Nat) x => tins t x.1 x.2) [] else [], passAt := s.now, clearAt := s.now })

/-- Boot training ends (R332-R334, R354, R393, R401, R402): channels used or refused, capacity and speed, then BOOT_WAIT with Memory_Active;
with fewer than two pairs REASON is MEM_NO_FIT. -/
def memTrainingDone (fits : List ChannelFit) (s : State) : State :=
  if s.rd mbxBootState != 1 then s else
  let pairs := keptPairs fits (s.rd memMinEye)
  let s1 := (List.range 8).foldl (fun s m => s.trainChannel m (fits.getD m { slot0 := none }) (pairs.contains m || (4 ≤ m && pairs.contains (m - 4)))) s
  let two := (List.range 8).any (fun m => fitDimms (fits.getD m { slot0 := none }) = 2)
  let gb := s1.onlineGb
  let s2 := (((s1.wr memCapPopulated gb).wr memCapOnline gb).wr memSpeed (b2n !two)).boot 2
  let s3 := { s2 with mem := { s2.mem with pairs := pairs }, host := { s2.host with memActive := true }, img := { s2.img with memNoFit := pairs.isEmpty } }
  if pairs.isEmpty then s3.wr mbxBootReason 1 else s3

def execMemTrainingDone (fits : List ChannelFit) (s : State) : Out := .next (memTrainingDone fits s)

/-! ### Media hold (R362, R363) -/

/-- After 1 us with no request a controller that a WARM reset holds enters self-refresh. -/
def selfRefreshEntry (m : Nat) (s : State) : State :=
  let c := s.mc m
  if c.hold = 1 && c.reads.isEmpty && c.lastReqAt + us 1 ≤ s.now
  then ((s.drainTo 64 m 0).modMc m (fun c => { c with hold := 2 })) else s

def execSelfRefreshEntry (m : McId) (s : State) : Out := .next (selfRefreshEntry m.val s)

/-- Requests that waited for the exit are served. -/
def State.serveAll : Nat → State → Nat → State
  | 0, s, _ => s
  | n + 1, s, m => if (s.mc m).reads.any (fun q => !q.req.write) then State.serveAll n (s.serveRead m) m else s.modMc m acceptWrites

/-- Clocks restart and memory leaves self-refresh (R362): one retraining pass, tables and histories cleared, waiting requests served. -/
def selfRefreshExit (s : State) : State :=
  (List.range 8).foldl (fun s m =>
    if (s.mc m).hold != 2 then s else
    let s1 := (s.bump memTrainPasses m).modMc m (fun c => { c with hold := 0, banks := [], passAt := s.now, clearAt := s.now })
    s1.serveAll 128 m) s

def execSelfRefreshExit (s : State) : Out := .next (selfRefreshExit s)

end Sys2Proof.Machine
end

