-- ==== Sys2Proof/Machine/RingLinks.lean ====
section
/-! DEFINITION. Ring links (R450-R460): bypass and insertion, the link layer, heartbeats, identities, liveness and the
self-fence. -/

namespace Sys2Proof.Machine

/-! ### Links and the bypass -/

/-- A ring link is gone: no lane locked, no adjacent member, nothing queued. -/
def State.dropLink (s : State) (x : Nat) : State :=
  (((s.wr rngPortLinkUp 0 x).wr rngPortLock 0 x).wr rngPortAdjPos 15 x).modLink x (fun _ => {})

/-- The switches close and the member is in STATE `st` (R452, R453). -/
def State.bypass (s : State) (st : Nat) : State :=
  (((s.dropLink 0).dropLink 1).wr rngBypass 1).wr rngState st

/-- The self-fence (R459): heartbeats stop, the Ethernet transmitters are held off, the bypass closes. A member that is not
inserted takes no part in failover (R453). -/
def State.selfFence (s : State) : State :=
  let s1 := s.bypass 4
  { s1 with ring := { s1.ring with live := false, fenced := true, resumeWait := s.flag rngPaired, insertAt := none } }.wr rngUpState
    (if s.rd rngUpState = 5 then 5 else 0)

/-- The identity a member reports. DEDUCED (log 36): its interface epoch is the one in force. -/
def State.ownIdentity (s : State) : IdentityMsg :=
  { pos := s.rd rngPosOwn, serial := BitVec.ofNat 64 (s.rd secSerial), stepping := 0xB0, release := s.supRelease
    epoch := s.rd supImgIfInForce, slot := (s.sup.eeprom.getD 8 0).toNat }

/-- A neighbour reports this member's own position (R451). -/
def State.posConflict (s : State) : Bool :=
  [0, 1].any (fun x => (s.link x).ident.any (fun i => i.pos = s.rd rngPosOwn && i.serial.toNat != s.rd secSerial))

/-- Both taps hold block lock. -/
def State.tapsLocked (s : State) : Bool := (s.link 0).tapLock && (s.link 1).tapLock

/-- A pending request opens the bypass once both taps have held block lock (R453), while liveness stands (R452). -/
def State.tryInsert (s : State) : State :=
  if s.rd rngState = 1 && s.tapsLocked && s.ring.live then
    ({ s with ring := { s.ring with insertAt := some s.now } }.wr rngBypass 0).wr rngState 2
  else s

/-- A ring position that the board identity gives (R522). -/
def State.ringPosOk (s : State) : Bool := s.sup.eepromOk && decide ((s.sup.eeprom.getD 9 0xFF).toNat ≤ 7)

/-- The host writes RNG_CFG (R453, R522): INSERT is refused where the board identity gives no position, else the member listens. -/
def ringInsert (width v : Nat) (s : State) : State :=
  if writtenTo rngInsert 0 0 0xC0000 width v != some 1 || !goodAccess 0xC0000 width then s.writeReg 0xC0000 width v
  else if !s.ringPosOk then (s.writeRegBut (· = rngInsert) 0xC0000 width v).raise 0x0051 uRNG 0 0xFFFF (s.rd rngPosOwn)
  else
    let s1 := s.writeReg 0xC0000 width v
    if s1.rd rngState = 0 || s1.rd rngState = 4 then (s1.wr rngState 1).tryInsert else s1

def execRngInsert (width : Nat) (value : Word64) (s : State) : Out := .next (ringInsert width value.toNat s)

/-- Both taps reach 100 ms of held block lock (R453). -/
def tapBlockLock (s : State) : State :=
  ((s.modLink 0 (fun l => { l with tapLock := true })).modLink 1 (fun l => { l with tapLock := true })).tryInsert

def execTapBlockLock (s : State) : Out := .next (tapBlockLock s)

/-- 10 ms after the switches opened a link has not trained: they close again (R453). -/
def ringInsertTimeout (s : State) : State :=
  if s.rd rngState = 2 && s.ring.insertAt.any (fun t => decide (t + ms 10 ≤ s.now)) then
    let s1 := (s.bypass 0).wr rngInsert 0
    { s1 with ring := { s1.ring with insertAt := none } }.raise 0x0051 uRNG 0 0xFFFF (s.rd rngPosOwn)
  else s

def execRingInsertTimeout (s : State) : Out := .next (ringInsertTimeout s)

/-- The member stands inserted (R453): a returning one asks before it sends media (R472), and its home channels are sent
whole again (R462). -/
def State.nowInserted (s : State) : State :=
  let s1 := { s with ring := { s.ring with insertAt := none, hbNextAt := s.now } }.wr rngState 3
  let home := ((liveChans s1).filter (fun e => s1.mirrored e.1)).map (·.1)
  let s2 := home.foldl (fun (s : State) ch => s.modHm ch (fun h => { h with syncWant := true, synced := false })) s1
  if s2.ring.resumeWait then
    let s3 := s2.newToken
    s3.sendTo (s3.rd rngPosDown) (.resumeQuery s3.ring.token)
  else s2

/-- A ring link trains; its ends exchange IDENTITY (R451, R453, R456). -/
def ringLinkTrained (x : Nat) (s : State) : State :=
  if s.flag rngBypass then s else
  let keep := (s.link x).retraining
  let s1 := ((s.wr rngPortLinkUp 1 x).wr rngPortLock 15 x).modLink x (fun l => if keep then { l with retraining := false, replays := [] } else {})
  let s2 := (s1.ringSend x 15 (.identity s.ownIdentity)).invRebuild
  if s2.rd rngState = 2 && s2.flag rngPortLinkUp 0 && s2.flag rngPortLinkUp 1 then s2.nowInserted else s2

def execRingLinkTrained (x : RingPort) (s : State) : Out := .next (ringLinkTrained x.val s)

/-- A ring port loses block lock or its link (R468); nothing is adopted for it. -/
def ringLinkDown (x : Nat) (s : State) : State :=
  let was := s.flag rngPortLinkUp x
  let s1 := (s.dropLink x).invRebuild
  if was && s.inserted then s1.raise 0x0057 uRNG x 0xFFFF (s.rd rngPosOwn) else s1

def execRingLinkDown (x : RingPort) (s : State) : Out := .next (ringLinkDown x.val s)

/-! ### The link layer (R455-R457) -/

/-- An acknowledged message takes effect at its sender (R462, R463, R466). -/
def State.msgAcked (s : State) (m : RingMsg) : State :=
  match m with
  | .settings b => (s.modHm b.ch.val (fun h => { h with settingsAt := none })).settingsDone b.ch.val
  | .delta b t => s.modHm b.ch.val (fun h => { h with ackedAt := some (max t (h.ackedAt.getD 0)) })
  | .sync b t => if s.mirrored b.ch.val then s.modHm b.ch.val (fun h => { h with synced := true, ackedAt := some (max t (h.ackedAt.getD 0)) }) else s
  | _ => s

/-- ACK: the frames up to that SEQ leave the replay buffer. -/
def State.takeAck (s : State) (x : Nat) (ack : Word16) : State :=
  let l := s.link x
  match l.unacked.findIdx? (fun f => f.seq = ack) with
  | none => s
  | some i =>
    let s1 := s.modLink x (fun l => { l with unacked := l.unacked.drop (i + 1), replays := [] })
    ((l.unacked.take (i + 1)).filterMap (·.msg)).foldl State.msgAcked s1

/-- CR_DATA and CR_CTL: the units the peer has freed since its last header. -/
def takeCredits (cd : BitVec 12) (cc : Byte) (l : RingLink) : RingLink :=
  { l with dataAvail := l.dataAvail + (cd - l.peerData).toNat, ctlAvail := l.ctlAvail + (cc - l.peerCtl).toNat, peerData := cd, peerCtl := cc }

/-- NAK: everything from ACK + 1 is replayed. -/
def State.replay (s : State) (x : Nat) : State :=
  let n := (s.link x).unacked.length
  if n = 0 then s else
  ((s.modLink x (fun l => { l with replays := within s.now (ms 1) l.replays ++ [s.now] })).bumpBy rngReplays n x).bumpBy rngFramesTx n x

/-- A LINK frame goes out: ACK, NAK and freed units. -/
def State.linkAnswer (s : State) (x : Nat) : State :=
  (s.modLink x (fun l => { l with dataFreed := l.dataFreed + BitVec.ofNat 12 l.dataDue, ctlFreed := l.ctlFreed + BitVec.ofNat 8 l.ctlDue
                                  dataDue := 0, ctlDue := 0, sendNak := false })).bump rngFramesTx x

/-- A CONTROL frame not addressed to this member, and not its own, is relayed on the opposite port (R458). -/
def State.relayed (s : State) (x : Nat) (f : RingFrame) : State :=
  let own := s.rd rngPosOwn
  if f.type = 2 && f.dstPos != own && f.srcPos != own && decide (f.hops < 7)
  then s.ringSend (1 - x) f.dstPos (.relay f.srcPos (f.hops + 1) f.length) else s

/-- A sequenced frame: in order it is committed and acknowledged, else discarded and answered with NAK. -/
def State.sequenced (s : State) (x : Nat) (f : RingFrame) : State :=
  let l := s.link x
  if f.seq = l.rxAck + 1 then
    let u := unitsOf f.length
    (s.modLink x (fun l => { l with
      rxAck := f.seq, dataDue := if f.type = 2 then l.dataDue else l.dataDue + u, ctlDue := if f.type = 2 then l.ctlDue + u else l.ctlDue })).relayed x f
  else s.modLink x (fun l => { l with sendNak := true })

/-- A ring frame arrives (R455, R456): its CRC, its ACK and credits, its NAK, its sequence number; then what credits now
allow is sent, and a LINK frame if nothing else was. -/
def linkFrame (x : Nat) (f : RingFrame) (s : State) : State :=
  if !s.flag rngPortLinkUp x then s
  else if !f.crcOk then s.bump rngCrcErr x
  else
    let s1 := ((s.bump rngFramesRx x).modLink x (takeCredits f.crData f.crCtl)).takeAck x f.ack
    let s2 := if f.nak then s1.replay x else s1
    let s3 := if decide (2 ≤ f.type) && decide (f.type ≤ 5) then s2.sequenced x f else s2
    let s4 := s3.pump 1024 x
    let l := s4.link x
    if l.sendNak || l.dataDue != 0 || l.ctlDue != 0 then s4.linkAnswer x else s4

def execLinkFrame (x : RingPort) (f : RingFrame) (s : State) : Out := .next (linkFrame x.val f s)

/-- One frame has been replayed 16 times within 1 ms: the link retrains (R456). -/
def ringRetrain (x : Nat) (s : State) : State :=
  if (within s.now (ms 1) (s.link x).replays).length ≥ 16 then
    (((s.wr rngPortLinkUp 0 x).wr rngPortLock 0 x).modLink x (fun l => { l with retraining := true, replays := [] })).bump rngRetrains x
  else s

def execRingRetrain (x : RingPort) (s : State) : Out := .next (ringRetrain x.val s)

/-- RNG_BOOK_SNAP.REQ (R457): the latch is BOOK_LATCH's. -/
def execRngBookSnap (s : State) : Out := .next (s.requestSnap rngSnapReq 4)

/-- The ring books of both ports are latched (R457). Between rows no frame is half received: HELD is 0. -/
def State.latchRing (s : State) (x : Nat) : State :=
  let l := s.link x
  let s1 := ((s.wr rngSnapFree (512 - l.dataDue) x).wr rngSnapHeld 0 x).wr rngSnapTransit l.dataDue x
  (s1.wr rngSnapAvail l.dataAvail x).wr rngSnapOutstanding (512 - l.dataAvail) x

/-- The sums of a port's latched books with their totals (R457). -/
def State.ringSums (s : State) (x : Nat) : List (Nat × Nat) :=
  [(s.rd rngSnapFree x + s.rd rngSnapHeld x + s.rd rngSnapTransit x, 512), (s.rd rngSnapAvail x + s.rd rngSnapOutstanding x, 512)]

/-! ### Heartbeats (R458) -/

/-- The heartbeat a member sends next. -/
def State.ownHeartbeat (s : State) : HeartbeatMsg :=
  { srcPos := s.rd rngPosOwn, hops := 0, count := s.ring.hbCount + 1, restarting := s.sup.restarting, hold := s.ring.holdSent, paired := s.flag rngPaired
    upPos := s.rd rngPosUp, downPos := s.rd rngPosDown }

/-- One HEARTBEAT leaves port x. -/
def State.hbOut (s : State) (h : HeartbeatMsg) (x : Nat) : State :=
  if s.flag rngPortLinkUp x then (s.modLink x (fun l => { l with heartbeat := some h })).bump rngFramesTx x else s

/-- Every 250 µs an inserted member sends a HEARTBEAT on both ports (R458). -/
def heartbeatSend (s : State) : State :=
  if s.inserted && s.ring.live && decide (s.ring.hbNextAt ≤ s.now) then
    let s1 := (s.hbOut s.ownHeartbeat 0).hbOut s.ownHeartbeat 1
    { s1 with ring := { s1.ring with hbCount := s.ring.hbCount + 1, hbNextAt := s.now + us 250 } }
  else s

def execHeartbeatSend (s : State) : Out := .next (heartbeatSend s)

/-- ADJ_POS of a port and, while no pairing fixes them, the ring positions (R458); east of a paired member another than its
downstream one: RING_PEER_LOST (R470). -/
def State.adjacent (s : State) (x pos : Nat) : State :=
  let s1 := s.wr rngPortAdjPos pos x
  if s.flag rngPaired then
    if x = 0 && pos != s.rd rngPosDown && s.rd rngPortAdjPos 0 != pos then s1.raise 0x0059 uRNG 0 0xFFFF (s.rd rngPosDown) else s1
  else if x = 0 then s1.wr rngPosDown pos else s1.wr rngPosUp pos

/-- A FAILOVER_TAKE under way ends with a status (R471). -/
def State.demandEnds (s : State) (status res2 : Nat) : State :=
  let s1 := { s with ring := { s.ring with demandAt := none, demandCmd := none } }
  match s.ring.demandCmd with
  | none => s1
  | some c => s1.complete c.1 c.2 0x51 status 0 res2 0

/-- The upstream member shows itself alive (R468, R471). -/
def State.upAlive (s : State) : State :=
  if s.rd rngUpState = 2 then ((s.wr rngUpState 1).bump rngFenceAlive).raise 0x0056 uRNG 0 0xFFFF (s.rd rngPosUp) else s

/-- A heartbeat of the upstream member. -/
def State.upSeen (s : State) : State :=
  let s1 := State.upAlive { s with ring := { s.ring with upSeenAt := s.now } }
  let s2 := if s1.rd rngUpState = 0 then s1.wr rngUpState 1 else s1
  if s2.ring.demandAt.isSome then s2.demandEnds stDENIED 0 else s2

/-- A HEARTBEAT arrives (R458, R468). -/
def heartbeat (x : Nat) (h : HeartbeatMsg) (s : State) : State :=
  if !s.flag rngPortLinkUp x then s else
  let s1 := if h.hops = 0 then s.adjacent x h.srcPos else s
  let s2 := if s1.flag rngPaired && h.srcPos = s1.rd rngPosUp && s1.inserted then s1.upSeen else s1
  if h.srcPos != s2.rd rngPosOwn && decide (h.hops < 7) then s2.hbOut { h with hops := h.hops + 1 } (1 - x) else s2

def execHeartbeat (x : RingPort) (h : HeartbeatMsg) (s : State) : Out := .next (heartbeat x.val h s)

/-- An IDENTITY message arrives (R451): the inventory's TYPE 5 entry, and a conflict of positions. -/
def identity (x : Nat) (i : IdentityMsg) (s : State) : State :=
  if !s.flag rngPortLinkUp x then s else
  let s1 := s.modLink x (fun l => { l with ident := some i })
  let s2 := (if s1.flag rngPaired then s1 else if x = 0 then s1.wr rngPosDown i.pos else s1.wr rngPosUp i.pos).invRebuild
  if i.pos = s.rd rngPosOwn && i.serial.toNat != s.rd secSerial then s2.raise 0x0050 uRNG x 0xFFFF i.pos else s2

def execIdentity (x : RingPort) (i : IdentityMsg) (s : State) : Out := .next (identity x.val i s)

/-! ### Liveness (R459, R460) -/

/-- The next tick of a channel's grid after a time (R136): ticks of a media hold pass unplayed. -/
def tickAfter (c : Chan) (t : Nat) : Chan :=
  let p := periodNs c.steep.period
  let n := c.steep.nextTick
  { c with steep := { c.steep with nextTick := if n ≤ t then n + ((t - n) / p + 1) * p else n } }

/-- Media resumes (R472, R479): the transmitters are on, and after a WARM reset every channel publishes. -/
def State.resumeMedia (s : State) : State :=
  let s1 := { s with ring := { s.ring with fenced := false, resumeWait := false, holdSent := false }, img := { s.img with warmHold := false } }
  if s.img.warmHold then (liveChans s1).foldl (fun (s : State) e => (s.modChan e.1 (fun c => tickAfter c (s.tbVal c.tb))).wantPublish e.1) s1 else s1

/-- Bister refreshes liveness (R459). DEDUCED (log 37): a self-fence ends here where no pairing is in force, for no one could
answer a RESUME_QUERY; media resumes. -/
def livenessRefresh (s : State) : State :=
  if s.sup.restarting || !s.served || !s.pwr.domainsOff.isEmpty || s.pwr.sysLost || s.pwr.ethLost then s else
  let s1 := { s with ring := { s.ring with live := true, liveAt := s.now } }
  if s.ring.fenced && !s.flag rngPaired then
    let s2 := s1.resumeMedia
    if s2.rd rngState = 4 then s2.wr rngState 0 else s2
  else s1

def execLivenessRefresh (s : State) : Out := .next (livenessRefresh s)

/-- Liveness is over: a whole-device domain or a reference is lost, or nothing has refreshed it in time. During a SUP reset
dispatch progress stands in for the refresh, for 2 s (R460). -/
def State.livenessOver (s : State) : Bool :=
  !s.pwr.domainsOff.isEmpty || s.pwr.sysLost || s.pwr.ethLost ||
    (if s.sup.restarting then decide (s.sup.restartAt + sec 2 ≤ s.now) else decide (s.ring.liveAt + ms 2 ≤ s.now))

def livenessFailure (s : State) : State := if s.ring.live && s.livenessOver then s.selfFence else s

def execLivenessFailure (s : State) : Out := .next (livenessFailure s)

end Sys2Proof.Machine
end

