-- ==== Sys2Proof/Machine/RingMirror.lean ====
section
/-! DEFINITION. Pairing and mirroring (R461-R467): MIRROR_PAIR and its offers, SETTINGS, DELTA and SYNC bodies on both
sides, lag, and the request for a lost context. -/

namespace Sys2Proof.Machine

/-! ### The mirror store -/

/-- A local address is held for adoption: its entry with ACTIVE 0 gains a user, or the lowest free index is given to it (R87,
R464). -/
def State.latHold (s : State) (a : BitVec 128) : Option (State × Nat) :=
  match s.ing.lat.find? (fun e => e.2.addr = a && !e.2.active) with
  | some (i, e) => some (s.setLat (tins s.ing.lat i { e with users := e.users + 1 }), i)
  | none =>
    match (List.range 4096).find? (fun i => !s.ing.lat.any (fun e => e.1 = i)) with
    | some i => some (s.setLat (tins s.ing.lat i { addr := a, active := false, users := 1 }), i)
    | none => none

/-- A held address loses a user; the last one's entry goes. -/
def State.latDrop (s : State) (i : Nat) : State :=
  match s.ing.lat.find? (fun e => e.1 = i && !e.2.active) with
  | some (_, e) => s.setLat (if e.users ≤ 1 then terase s.ing.lat i else tins s.ing.lat i { e with users := e.users - 1 })
  | none => s

/-- The mirror of a channel goes: its flows, its hold on the local address, its entry (R463). -/
def State.dropMirror (s : State) (ch : Nat) : State :=
  let fl := s.flowsOfChan ch
  let s1 := s.removeFlows (fl.map flowKey)
  let s2 := match fl with
    | [] => s1
    | e :: _ => s1.latDrop e.latIndex
  s2.setMir ch {}

/-- Unwrap the SRTP groups of a SETTINGS body (R463): `none` where a tag fails or no pairing key is held. -/
def unwrapGroups (key : Option Nat) : Nat → List Word64 → Option (List Word64)
  | 0, _ => some []
  | _ + 1, [] => some []
  | n + 1, h :: r =>
    let k := bits h.toNat 8 8
    let ws := r.take k
    let rest := unwrapGroups key n (r.drop k)
    if bits h.toNat 0 8 != 12 then rest.map (fun t => h :: ws ++ t)
    else match key with
    | none => none
    | some pk =>
      match Config.gcmOpen pk (ws.getD 7 0).toNat ((ws.drop 1).take 6 ++ ws.drop 8), rest with
      | some plain, some t => some (packWord [(12, 0, 8), (7, 8, 8)] :: ws.headD 0 :: (plain.take 6 ++ t))
      | _, _ => none

/-- The groups of an unwrapped SETTINGS body. -/
def groupsIn (b : SettingsBody) : List Grp :=
  match parseGroups (b.groups.length + 1) 0 (b.groups.map (·.toNat)) with
  | .error _ => []
  | .ok gs => gs

/-- One group of a mirrored channel's settings. -/
def settleGroup (c : Chan) (g : Grp) : Chan :=
  match g.type with
  | 10 => withFec (fecOf g) none c
  | 11 => { c with repair := some (templateOf g) }
  | 12 => if g.f 0 0 1 = 0 then { c with srx := rxKey (srtpKeyOf g) c.srx } else { c with stx := txKey (srtpKeyOf g) (if g.f 0 7 1 = 1 then some (g.f 0 8 16) else none) c.stx }
  | 13 => { c with fax := faxOf g }
  | _ => applyGrp c g

/-- The channel that mirrored settings describe. -/
def chanOfSettings (b : SettingsBody) : Chan :=
  let c := (groupsIn b).foldl settleGroup { hostTag := b.hostTag, peer := b.peer.val }
  { c with echo := startEcho c.ecs, steep := { slotSize := slotSizeOf c, target := startTarget c.jit } }

/-- Install the flows of a mirrored channel in place of those it had (R464); `none`: an entry cannot be installed. -/
def State.installMirror (s : State) (ch : Nat) (b : SettingsBody) : Option State :=
  let c := chanOfSettings b
  let old := s.flowsOfChan ch
  match s.latHold c.flows.localAddr with
  | none => none
  | some (s1, lat) =>
    let es := chanFlows ch lat c
    match s1.keyClash (old.map flowKey) (es.map (fun e => (e, 0))) with
    | some _ => none
    | none => (s1.installFlows (old.map flowKey) es).map (fun t => match old with
      | [] => t
      | e :: _ => t.latDrop e.latIndex)

/-- A SETTINGS body arrives (R463, R464). -/
def settings (b : SettingsBody) (s : State) : State :=
  let ch := b.ch.val
  if !s.inserted || !s.inUp ch then s else
  match unwrapGroups s.sup.vault.upKey (b.groups.length + 1) b.groups with
  | none => s.raise 0x0052 uRNG 1 ch (s.rd rngPosUp)
  | some plain =>
    if b.state = 0 then s.dropMirror ch else
    let body := { b with groups := plain }
    let m := s.mir ch
    match s.installMirror ch body with
    | some t => t.setMir ch { m with settings := some body, adoptable := true }
    | none => (s.setMir ch { m with settings := some body, adoptable := false }).raise 0x0054 uRNG 1 ch (s.rd rngPosUp)

def execSettings (b : SettingsBody) (s : State) : Out := .next (settings b s)

/-- The acknowledgement of a SETTINGS body is 1 ms late (R463): the commands that wait for it wait no longer. -/
def settingsAckTimeout (ch : Nat) (s : State) : State :=
  match (s.hm ch).settingsAt with
  | none => s
  | some t =>
    if t + ms 1 ≤ s.now then ((s.modHm ch (fun h => { h with settingsAt := none })).raise 0x0053 uRNG 0 ch (s.rd rngPosDown)).settingsDone ch else s

def execSettingsAckTimeout (ch : ChanId) (s : State) : Out := .next (settingsAckTimeout ch.val s)

/-! ### DELTA and SYNC bodies (R462, R465, R466) -/

/-- The key of a body. -/
def bodyKey (b : DeltaBody) : Nat := b.epoch.toNat + b.gen.toNat * 2 ^ 40

/-- The sections of a new body over those held: a section it does not bring stays. -/
def mergeBody (old new : DeltaBody) : DeltaBody :=
  { new with sections := ([1, 2, 3, 4, 5, 6, 7, 8, 9].filterMap (fun k => match new.sections.find? (fun x => x.1 = k) with
    | some x => some x
    | none => old.sections.find? (fun x => x.1 = k))) }

/-- Commit a body whose key is above the one held (R466). -/
def State.commitBody (s : State) (b : DeltaBody) : State :=
  let m := s.mir b.ch.val
  match m.delta with
  | none => s.setMir b.ch.val { m with delta := some b }
  | some old => if bodyKey old < bodyKey b then s.setMir b.ch.val { m with delta := some (mergeBody old b) } else s

def delta (b : DeltaBody) (s : State) : State := if s.inserted && s.inUp b.ch.val then s.commitBody b else s

def execDelta (b : DeltaBody) (s : State) : Out := .next (delta b s)

/-- A SYNC body arrives: a whole mirror (R462), or the answer to a CTX_REQUEST (R359, R467). -/
def sync (b : DeltaBody) (s : State) : State :=
  if !s.inserted then s
  else if s.inUp b.ch.val then s.commitBody b
  else if (s.chan b.ch.val).ctx.lost && (s.chan b.ch.val).st != .free then s.ctxBack b.ch.val (restoreCtx (s.tbVal (s.chan b.ch.val).tb) b)
  else s

def execSync (b : DeltaBody) (s : State) : Out := .next (sync b s)

/-- Credits allow the first fragment of a body, and no other body is under way. -/
def State.bodyRoom (s : State) (n : Nat) : Bool :=
  let l := s.link 0
  s.flag rngPortLinkUp 0 && l.sending.isNone && !l.waiting.any (fun w => isBody w.2) && decide (unitsOf (min 1024 n) ≤ l.dataAvail)

/-- The queued DELTA of a channel is sent (R27, R466). -/
def deltaSend (ch : Nat) (s : State) : State :=
  match (s.hm ch).queued with
  | none => s
  | some b =>
    if s.inserted && s.mirrored ch && s.bodyRoom (deltaLen b) then
      ((s.modHm ch (fun h => { h with queued := none })).ringSend 0 (s.rd rngPosDown) (.delta b (s.hm ch).queuedAt)).bump rngDeltasTx
    else s

def execDeltaSend (ch : ChanId) (s : State) : Out := .next (deltaSend ch.val s)

/-- A home channel is sent whole at SYNC_RATE GB/s (R462). DEDUCED (log 38): its SETTINGS go with it. -/
def syncSend (ch : Nat) (s : State) : State :=
  let b := s.deltaOf ch true
  let n := deltaLen b
  if s.inserted && s.mirrored ch && (s.hm ch).syncWant && decide (s.ring.syncNextAt ≤ s.now) && s.bodyRoom n then
    let s1 := (s.sendSettings ch).modHm ch (fun h => { h with syncWant := false, settingsAt := (s.hm ch).settingsAt })
    let s2 := (s1.ringSend 0 (s.rd rngPosDown) (.sync b s.now)).bumpBy rngSyncBytes n
    { s2 with ring := { s2.ring with syncNextAt := s.now + n / s.rd rngSyncRate } }
  else s

def execSyncSend (ch : ChanId) (s : State) : Out := .next (syncSend ch.val s)

/-- Once per second at most, RING_MIRROR_LAG tells of the stale home channels (R466). -/
def mirrorLagCheck (s : State) : State :=
  if !s.flag rngPaired || s.now < s.ring.lagAt then s else
  let s1 := { s with ring := { s.ring with lagAt := s.now + sec 1 } }
  if s.stale = 0 then s1 else s1.raise 0x0055 uRNG 0 0xFFFF (s.rd rngPosDown) 0 s.stale

def execMirrorLagCheck (s : State) : Out := .next (mirrorLagCheck s)

/-- A CTX_REQUEST of the upstream member is answered from the mirror store with a SYNC body (R467). -/
def ctxRequest (ch : Nat) (s : State) : State :=
  if s.inserted && s.inUp ch then
    match (s.mir ch).delta with
    | none => s
    | some b => s.ringSend 1 (s.rd rngPosUp) (.sync b s.now)
  else s

def execCtxRequest (ch : ChanId) (_token : Word32) (s : State) : Out := .next (ctxRequest ch.val s)

/-! ### Pairing (R461) -/

/-- Contexts of the UP range stand in their own frames; `none`: one cannot be reserved. -/
def State.reserveUp (s : State) (first count : Nat) : Option State :=
  if count = 0 then some s else
  ((List.range ((first + count - 1) / 1024 + 1 - first / 1024)).map (fun i => first / 1024 + i)).foldl
    (fun (o : Option State) f => o.bind (fun t => if (tget t.mem.frameMap f none).isSome then some t else t.allocFrame f 0 0)) (some s)

/-- Frames of contexts that no live channel lies in, outside the UP range, are free again. -/
def State.releaseUp (s : State) : State :=
  let lo := s.rd rngUpFirst / 1024
  let hi := (s.rd rngUpFirst + s.rd rngUpCount + 1023) / 1024
  { s with mem := { s.mem with frameMap := s.mem.frameMap.filter (fun e =>
      decide (64 ≤ e.1) || (decide (lo ≤ e.1) && decide (e.1 < hi)) || (liveChans s).any (fun c => decide (c.1 / 1024 = e.1))) } }

/-- Answer the offer held, where its range is the UP range (R461). -/
def State.answerOffer (s : State) : State :=
  match s.ring.heldOffer with
  | none => s
  | some (first, count, token, pub, since) =>
    if s.now ≤ since + sec 1 && first = s.rd rngUpFirst && count = s.rd rngUpCount then
      let eph := Config.freeNat s.freeCtr
      let s1 := s.draw
      let s2 := { s1 with ring := { s1.ring with heldOffer := none }
                          sup := { s1.sup with vault := { s1.sup.vault with upKey := some (Config.pairingSecret eph pub) } } }
      s2.sendTo (s2.rd rngPosUp) (.pairConfirm 0 token (Config.publicKey eph))
    else s

/-- A PAIR_OFFER of the upstream member arrives: it is held for up to 1 s. -/
def pairOffer (first count : Nat) (token : Word32) (pub : List Byte) (s : State) : State :=
  if s.inserted then State.answerOffer { s with ring := { s.ring with heldOffer := some (first, count, token, pub, s.now) } } else s

def execPairOffer (first count : Nat) (token : Word32) (pub : List Byte) (s : State) : Out := .next (pairOffer first count token pub s)

/-- The ranges of HOME and UP. -/
def State.setRanges (s : State) (r : Nat × Nat × Nat × Nat) : State :=
  (((s.wr rngHomeFirst r.1).wr rngHomeCount r.2.1).wr rngUpFirst r.2.2.1).wr rngUpCount r.2.2.2

/-- Mirrors outside the UP range go, and every one where `all`. -/
def State.dropMirrors (s : State) (all : Bool) : State :=
  (s.ring.mirror.filter (fun m => all || !(decide (s.rd rngUpFirst ≤ m.1) && decide (m.1 < s.rd rngUpFirst + s.rd rngUpCount)))).foldl
    (fun (s : State) m => s.dropMirror m.1) s

/-- The pairing is dissolved: no range, no mirror, no key. -/
def State.unpair (s : State) : State :=
  let s1 := ((((s.dropMirrors true).setRanges (0, 0, 0, 0)).wr rngPaired 0).wr rngUpState 0).releaseUp
  { s1 with ring := { s1.ring with home := [], heldOffer := none, resumeWait := false, adoptedCount := 0 }
            sup := { s1.sup with vault := { s1.sup.vault with pairingKey := none, upKey := none } } }

/-- MIRROR_PAIR (R35, R53, R461, Table 17.3). -/
def applyPair (c : HostCmd) (s : State) : Reply :=
  let w := c.w1.toNat
  let u := c.w3.toNat
  let hf := bits w 0 16
  let hc := bits w 32 1 * 65536 + bits w 16 16
  let uf := bits u 0 16
  let uc := bits u 32 1 * 65536 + bits u 16 16
  let overlap := decide (hf < uf + uc) && decide (uf < hf + hc)
  let dissolve := decide (hc = 0) && decide (uc = 0)
  let outside := (liveChans s).any (fun e => !(decide (hf ≤ e.1) && decide (e.1 < hf + hc)))
  let differ := [0, 1].any (fun x => (s.link x).ident.any (fun i => i.epoch != s.rd supImgIfInForce))
  match firstFail [(decide (hf + hc > 65536), stBAD_PARAM, 10), (decide (uf + uc > 65536), stBAD_PARAM, 26), (overlap, stBAD_PARAM, 24),
      (s.posConflict, stBAD_STATE, 0), (outside && !dissolve, stBAD_STATE, 0), (s.ring.offerCmd.isSome, stBUSY, 0),
      (differ && !dissolve, stINCOMPATIBLE, 0)] with
  | some (st, d) => .refuse st d
  | none =>
    if dissolve then .done s.unpair (s.rd rngPosDown) (s.rd rngPosUp)
    else match s.reserveUp uf uc with
    | none => .refuse stNO_RESOURCE 0
    | some t =>
      let eph := Config.freeNat t.freeCtr
      let old := (s.rd rngHomeFirst, s.rd rngHomeCount, s.rd rngUpFirst, s.rd rngUpCount)
      let t1 := (t.draw.newToken).setRanges (hf, hc, uf, uc)
      let t2 := { t1 with
        ring := { t1.ring with offerAt := some t1.now, offerTok := t1.ring.token, offerCmd := some (c.qid.val, c.tag.toNat), offerOld := old }
        sup := { t1.sup with vault := { t1.sup.vault with ephemeral := some eph } } }
      .later ((t2.sendTo (t2.rd rngPosDown) (.pairOffer hf hc t2.ring.offerTok (Config.publicKey eph))).answerOffer)

def mirrorPair (c : HostCmd) (s : State) : State := runCommand c 0x50 [(1, 0x1FFFFFFFF), (3, 0x1FFFFFFFF)] false (applyPair c) s

def execMirrorPair (c : HostCmd) (s : State) : Out := .next (mirrorPair c s)

/-- The offer under way is over; the command completes. -/
def State.offerEnds (s : State) (status res2 res3 : Nat) : State :=
  let s1 := { s with ring := { s.ring with offerAt := none, offerCmd := none }, sup := { s.sup with vault := { s.sup.vault with ephemeral := none } } }
  match s.ring.offerCmd with
  | none => s1
  | some c => s1.complete c.1 c.2 0x50 status 0 res2 res3

/-- The pairing is in force (R461, R462): keys, the whole of each home channel to be sent, the upstream member alive. -/
def State.pairInForce (s : State) (pub : List Byte) : State :=
  let s1 := ((s.wr rngPaired 1).dropMirrors false).releaseUp
  let home := ((liveChans s1).filter (fun e => s1.mirrored e.1)).map (·.1)
  let s2 := home.foldl (fun (s : State) ch => s.modHm ch (fun _ => { syncWant := true }))
    { s1 with ring := { s1.ring with home := [], upSeenAt := s1.now, adoptedCount := 0 }
              sup := { s1.sup with vault := { s1.sup.vault with pairingKey := s1.sup.vault.ephemeral.map (fun e => Config.pairingSecret e pub) } } }
  s2.wr rngUpState 1

/-- PAIR_CONFIRM arrives. A status other than 0 fails the command and leaves the ranges as they were (R426). -/
def pairConfirm (status : Nat) (token : Word32) (pub : List Byte) (s : State) : State :=
  if s.ring.offerAt.isNone || token != s.ring.offerTok then s
  else if status = 0 then (s.pairInForce pub).offerEnds stOK (s.rd rngPosDown) (s.rd rngPosUp)
  else ((s.setRanges s.ring.offerOld).releaseUp).offerEnds status 0 0

def execPairConfirm (status : Nat) (token : Word32) (pub : List Byte) (s : State) : Out := .next (pairConfirm status token pub s)

/-- 1 s without a confirmation (R461): TIMEOUT, the ranges as they were (R426). -/
def pairOfferTimeout (s : State) : State :=
  if s.ring.offerAt.any (fun t => decide (t + sec 1 ≤ s.now)) then ((s.setRanges s.ring.offerOld).releaseUp).offerEnds stTIMEOUT 0 0 else s

def execPairOfferTimeout (s : State) : Out := .next (pairOfferTimeout s)

end Sys2Proof.Machine
end

