-- ==== Sys2Proof/Machine/Failover.lean ====
section
/-! DEFINITION. Failover (R52, R53, R468-R472): suspicion, fencing, adoption, HOLD and the return of a member. -/

namespace Sys2Proof.Machine

/-! ### Adoption (R470) -/

/-- An IPv4-mapped address. -/
def isV4 (a : BitVec 128) : Bool := (leBytes 16 a.toNat).take 12 = List.replicate 10 0 ++ [0xFF, 0xFF]

/-- The announcement of an address (R470): a gratuitous ARP, or an unsolicited Neighbor Advertisement with Override. PRESUMED (log
39): the ARP is a request whose sender and target are the address. -/
def announcement (mac : Nat) (a : BitVec 128) : List Byte :=
  let m := leBytes 6 mac
  if isV4 a then
    let ip := (leBytes 16 a.toNat).drop 12
    List.replicate 6 0xFF ++ m ++ [0x08, 0x06, 0, 1, 0x08, 0, 6, 4, 0, 1] ++ m ++ ip ++ List.replicate 6 0 ++ ip
  else
    let own := leBytes 16 a.toNat
    let all := [0xFF, 0x02] ++ List.replicate 13 (0 : Byte) ++ [1]
    let icmp0 := [0x88, 0, 0, 0, 0x20, 0, 0, 0] ++ own ++ [2, 1] ++ m
    let pseudo := own ++ all ++ beBytes 4 icmp0.length ++ [0, 0, 0, 58]
    let icmp := patch icmp0 2 (beBytes 2 (65535 - inetSum (pseudo ++ icmp0)))
    [0x33, 0x33, 0, 0, 0, 1] ++ m ++ [0x86, 0xDD, 0x60, 0, 0, 0] ++ beBytes 2 icmp.length ++ [58, 255] ++ own ++ all ++ icmp

/-- The addresses of adopted channels with port and VID of their flows, each once. -/
def State.adoptedAddrs (s : State) : List (BitVec 128 × Nat × Nat) :=
  ((liveChans s).filter (fun e => e.2.pub.adopted)).foldl (fun (l : List (BitVec 128 × Nat × Nat)) e =>
    let k := (e.2.flows.localAddr, e.2.flows.ethPort, e.2.flows.vid)
    if l.contains k then l else l ++ [k]) []

/-- Announce every adopted address; the packets are admitted as any other (R110). -/
def State.announce (s : State) : State :=
  s.adoptedAddrs.foldl (fun (s : State) k => transmitDescriptor k.2.1
    { queue := 0, data := announcement (s.rd ethMacAddr k.2.1) k.1, owner := .bister, tag := if k.2.2 = 0 then none else some (BitVec.ofNat 32 (0x81000000 + k.2.2)) } s) s

/-- The record a body carries (KIND 1), restored into a channel: counters, levels, tone and RTCP figures, the last CMD_TAG. -/
def restoreRecord (l : List Word64) (c : Chan) : Chan :=
  let w := secWord l
  { c with
    ctr := { rxPackets := w 9, rxOctets := w 10, txPackets := w 11, txOctets := w 12, played := w 13, missing := w 14, recovered := w 15, concealed := w 16, late := w 17
             duplicates := w 18, srtpFailures := w 19, skipped := w 20 }
    rxSsrc := BitVec.ofNat 32 (bits (w 7) 32 32), rtcpLost := BitVec.ofNat 32 (bits (w 27) 0 32), rtt := BitVec.ofNat 16 (bits (w 27) 32 16)
    echo := { c.echo with erle := bits (w 22) 0 16, rinLevel := signed 16 (bits (w 22) 32 16), soutLevel := signed 16 (bits (w 22) 48 16) }
    tone := { c.tone with lastEvent := bits (w 23) 0 8, eventCount := BitVec.ofNat 16 (bits (w 23) 16 16), eventEpoch := BitVec.ofNat 32 (bits (w 23) 32 32) }
    srx := { c.srx with keyGen := BitVec.ofNat 8 (bits (w 25) 8 8) }, stx := { c.stx with keyGen := BitVec.ofNat 8 (bits (w 25) 16 8) }
    pub := { c.pub with applied := BitVec.ofNat 32 (bits (w 28) 0 32) } }

/-- A mirrored record that was published under the mirrored settings (its APPLIED names their command) and shows no key pending: a key the
settings hold as pending has become current since (R104, R105). Its KEY_GEN counts that. -/
def settleKeys (b : SettingsBody) (record : List Word64) (c : Chan) : Chan :=
  let w := secWord record
  if record.isEmpty || bits (w 28) 0 16 != b.cmdTag.toNat then c else
  { c with
    srx := if bit (w 25) 24 || c.srx.pendingKey.isNone then c.srx else { c.srx with current := c.srx.pendingKey, pendingKey := none, rekey := false }
    stx := if bit (w 25) 25 || c.stx.pendingKey.isNone then c.stx else { c.stx with current := c.stx.pendingKey, pendingKey := none, atSeq := none, rekey := false } }

/-- The channel as the adopting device makes it live from its mirror (R53, R136, R180, R245, R267, R470). -/
def adoptedChan (s : State) (ch : Nat) (b : SettingsBody) (d : Option DeltaBody) (peerLives : Bool) : Chan :=
  let c0 := chanOfSettings b
  let body := d.map (fun x => x.sections)
  let rec1 := (body.bind (fun l => (l.find? (fun x => x.1 = 1)).map (·.2))).getD []
  let c1 := if rec1.isEmpty then { c0 with pub := { c0.pub with applied := BitVec.ofNat 32 b.cmdTag.toNat } } else settleKeys b rec1 (restoreRecord rec1 c0)
  let c3 := match d with
    | none => c1
    | some x => restoreBody (s.tbVal c1.tb) x c1
  let own := (s.newest ch).key / 2 ^ 40 % 2 ^ 16
  let gen := max ((d.map (·.gen.toNat)).getD 0) (max own (s.chan ch).pub.gen.toNat) + 1
  let seq := c3.egr.nextSeq.toNat + 1024
  let tm := c3.tmpl
  { c3 with
    st := if b.state = 2 && peerLives then .bound else .open
    origin := s.rd rngPosUp, home := none
    tmpl := { tm with bytes := patch tm.bytes 6 (leBytes 6 (s.rd ethMacAddr tm.egress)) }
    egr := { c3.egr with nextSeq := BitVec.ofNat 16 seq, markNext := true }
    stx := { c3.stx with roc := c3.stx.roc + seq / 65536 }
    steep := { slotSize := c3.steep.slotSize, target := c3.steep.target, recvBits := c3.steep.recvBits, playSeq := c3.steep.playSeq, extTop := c3.steep.playSeq }
    vbd := { vbdReset c3.vbd with relay := decide (c3.rx.codec ≥ 14) }
    tone := toneReset false c3.tone
    ctx := { clearLanesOf c3.ctx with encMode := if d.isSome then c3.ctx.encMode else startMode c3.tx, encBw := if d.isSome then c3.ctx.encBw else c3.tx.evsBw }
    pub := { c3.pub with gen := BitVec.ofNat 16 gen, epoch := (d.map (·.epoch)).getD 0, adopted := true } }

/-- A mirror that can be adopted: its settings are held and its flows installed. -/
def adoptable (m : Mirror) : Bool := m.settings.isSome && m.adoptable

/-- The flows held under an inactive address come under the active entry of the same address, if one stands; else the entry
becomes active (R87, R470). -/
def State.activate1 (s : State) (i : Nat) (e : LatEntry) : State :=
  match s.latIndex e.addr with
  | none => s.setLat (tins s.ing.lat i { e with active := true })
  | some j =>
    let mine := s.allFlows.filter (fun f => f.latIndex = i)
    let s1 := s.removeFlows (mine.map flowKey)
    let s2 := (s1.insertAll (mine.map (fun f => { f with latIndex := j }))).getD s1
    let a := tget s2.ing.lat j e
    s2.setLat (tins (terase s2.ing.lat i) j { a with users := a.users + e.users })

/-- One channel's mirror becomes live. -/
def State.adoptOne (s : State) (ch : Nat) (m : Mirror) (all : Tbl Mirror) : State :=
  match m.settings with
  | none => s
  | some b => (s.ctxFrame ch).setChan ch (adoptedChan s ch b m.delta (all.any (fun x => x.1 = b.peer.val && adoptable x.2)))

/-- The adoption of the upstream member's channels, in the order of R470. -/
def State.adopt (s : State) : State :=
  let all := s.ring.mirror.filter (fun m => s.inUp m.1)
  let good := all.filter (fun m => adoptable m.2)
  let s1 := good.foldl (fun (s : State) m => s.adoptOne m.1 m.2 all) s
  let s2 := good.foldl (fun (s : State) m => s.publish m.1) s1.replan
  let s3 := (s2.ing.lat.filter (fun e => !e.2.active)).foldl (fun (s : State) e => s.activate1 e.1 e.2) s2
  let s4 := (((s3.announce.bump rngAdoptions).bumpBy rngAdoptedChannels good.length).bumpBy rngNotAdopted (all.length - good.length)).wr rngUpState 5
  { s4 with ring := { s4.ring with mirror := [], adoptedCount := good.length, announceAt := [s.now + ms 20, s.now + ms 40] } }

/-- The first proof of R469: RING_W is adjacent to a member other than the upstream one. -/
def State.firstProof (s : State) : Bool :=
  s.flag rngPortLinkUp 1 && s.rd rngPortAdjPos 1 != 15 && s.rd rngPortAdjPos 1 != s.rd rngPosUp

/-- Silence and the first proof, with AUTO_TAKE 1 (R469). -/
def adoption (s : State) : State :=
  if s.flag rngPaired && s.inserted && s.rd rngUpState = 2 && s.flag rngAutoTake && s.firstProof then
    let t := s.adopt
    if t.ring.demandCmd.isSome then t.demandEnds stOK t.ring.adoptedCount else t
  else s

def execAdoption (s : State) : Out := .next (adoption s)

/-- Announcements are repeated 20 ms and 40 ms later (R470). -/
def announcementRepeat (s : State) : State :=
  match s.ring.announceAt with
  | [] => s
  | t :: r => if t ≤ s.now then State.announce { s with ring := { s.ring with announceAt := r } } else s

def execAnnouncementRepeat (s : State) : Out := .next (announcementRepeat s)

/-! ### Suspicion and fencing (R468, R469, R471) -/

/-- 3 ms without a heartbeat of the upstream member (R468): SUSPECT, FENCE_QUERY on both ports; without the first proof or
without AUTO_TAKE, RING_PEER_DEAD (R469). -/
def upstreamSilence (s : State) : State :=
  if s.flag rngPaired && s.inserted && s.rd rngUpState = 1 && decide (s.ring.upSeenAt + ms 3 ≤ s.now) then
    let s1 := ((s.wr rngUpState 2).bump rngSuspects).newToken
    let s2 := { s1 with ring := { s1.ring with queryTok := s1.ring.token } }.sendBoth (s.rd rngPosUp) (.fenceQuery s1.ring.token)
    if s.flag rngAutoTake && s.firstProof then s2 else s2.raise 0x0058 uRNG 0 0xFFFF (s.rd rngPosUp)
  else s

def execUpstreamSilence (s : State) : Out := .next (upstreamSilence s)

/-- A FENCE_QUERY is answered ALIVE (R468). -/
def fenceQuery (src : Nat) (token : Word32) (s : State) : State := if s.inserted && s.ring.live then s.sendTo src (.fenceAnswer 0 token) else s

def execFenceQuery (src : Nat) (token : Word32) (s : State) : Out := .next (fenceQuery src token s)

/-- A FENCE_ANSWER (R468, R471): RELEASED to a demand is the second proof; ALIVE or REFUSED denies it; ALIVE to a query clears
SUSPECT. -/
def fenceAnswer (status : FenceStatus) (token : Word32) (s : State) : State :=
  if s.ring.demandAt.isSome && token = s.ring.demandTok then
    match status with
    | .released => let t := s.adopt; t.demandEnds stOK t.ring.adoptedCount
    | .alive => s.upAlive.demandEnds stDENIED 0
    | .refused => s.demandEnds stDENIED 0
  else if status = .alive && token = s.ring.queryTok then s.upAlive else s

def execFenceAnswer (status : FenceStatus) (token : Word32) (s : State) : Out := .next (fenceAnswer status token s)

/-- A FENCE_DEMAND (R471): with YIELD_ON_DEMAND 1 the member answers RELEASED and fences itself, else it answers REFUSED. -/
def fenceDemand (src : Nat) (token : Word32) (s : State) : State :=
  if !s.inserted || !s.ring.live then s
  else if s.flag rngYieldOnDemand then (s.sendTo src (.fenceAnswer 1 token)).selfFence
  else s.sendTo src (.fenceAnswer 2 token)

def execFenceDemand (src : Nat) (token : Word32) (s : State) : Out := .next (fenceDemand src token s)

/-- 2 ms without an answer (R471): the host's proof. A member that is no longer inserted adopts nothing (R453). -/
def fenceDemandTimeout (s : State) : State :=
  if s.ring.demandAt.any (fun t => decide (t + ms 2 ≤ s.now)) then
    if s.inserted then let t := s.adopt; t.demandEnds stOK t.ring.adoptedCount else s.demandEnds stBAD_STATE 0
  else s

def execFenceDemandTimeout (s : State) : Out := .next (fenceDemandTimeout s)

/-- FAILOVER_TAKE (R469, R471, Table 17.3). DEDUCED (log 40): during HOLD nothing is adopted, so it is DENIED; a second one while
a demand waits is BUSY. -/
def applyTake (c : HostCmd) (s : State) : Reply :=
  if !s.flag rngPaired || bits c.w1.toNat 0 3 != s.rd rngPosUp || !s.inserted then .refuse stBAD_STATE 0
  else if s.rd rngUpState = 5 then .done s s.ring.adoptedCount 0
  else if s.rd rngUpState = 3 then .refuse stDENIED 0
  else if s.ring.demandAt.isSome then .refuse stBUSY 0
  else
    let s1 := s.newToken
    let s2 := { s1 with ring := { s1.ring with demandAt := some s1.now, demandTok := s1.ring.token, demandCmd := some (c.qid.val, c.tag.toNat) } }
    .later (s2.sendTo (s.rd rngPosUp) (.fenceDemand s2.ring.demandTok))

def failoverTake (c : HostCmd) (s : State) : State := runCommand c 0x51 [(1, 7)] false (applyTake c) s

def execFailoverTake (c : HostCmd) (s : State) : Out := .next (failoverTake c s)

/-! ### HOLD and the return (R472, R480) -/

/-- HOLD of the upstream member: nothing is adopted for its time, and a FAILOVER_TAKE that waits is DENIED (log 40). -/
def hold (src maxS : Nat) (s : State) : State :=
  if s.inserted && s.flag rngPaired && src = s.rd rngPosUp && s.rd rngUpState != 5 then
    let s1 := { s with ring := { s.ring with holdUntil := some (s.now + sec maxS) } }.wr rngUpState 3
    if s1.ring.demandAt.isSome then s1.demandEnds stDENIED 0 else s1
  else s

def execHold (src : Nat) (maxS : Nat) (s : State) : Out := .next (hold src maxS s)

/-- HOLD is over; silence is watched again. -/
def State.holdOver (s : State) : State :=
  let s1 := { s with ring := { s.ring with holdUntil := none } }
  if s1.rd rngUpState = 3 then s1.wr rngUpState 1 else s1

def holdExpiry (s : State) : State := if s.ring.holdUntil.any (fun t => decide (t ≤ s.now)) then s.holdOver else s

def execHoldExpiry (s : State) : Out := .next (holdExpiry s)

/-- A RESUME_QUERY is answered (R472); where its sender was not adopted its HOLD is over. -/
def resumeQuery (src : Nat) (token : Word32) (s : State) : State :=
  if !s.inserted || !s.ring.live then s
  else if src = s.rd rngPosUp && s.rd rngUpState = 5 then s.sendTo src (.resumeAnswer true token)
  else
    let s1 := if src = s.rd rngPosUp then State.holdOver { s with ring := { s.ring with upSeenAt := s.now } } else s
    s1.sendTo src (.resumeAnswer false token)

def execResumeQuery (src : Nat) (token : Word32) (s : State) : Out := .next (resumeQuery src token s)

/-- A home channel goes without a publication (R472): its key stays. -/
def State.freeQuietly (s : State) (ch : Nat) : State :=
  let c := s.chan ch
  let s1 := ((s.removeFlows ((s.flowsOfChan ch).map flowKey)).latLeave c.flows.localAddr).stopCapture ch
  s1.setChan ch { pub := { gen := c.pub.gen, epoch := c.pub.epoch, lastEnd := c.pub.lastEnd, applied := c.pub.applied } }

/-- RESUME_ANSWER (R472): "adopted" frees the home channels, else they resume. -/
def resumeAnswer (adopted : Bool) (s : State) : State :=
  if !s.ring.resumeWait then s
  else if adopted then
    (((s.chans.filter (fun e => e.2.st != .free && s.mirrored e.1)).foldl (fun (s : State) e => s.freeQuietly e.1) s).replan).resumeMedia
  else s.resumeMedia

def execResumeAnswer (adopted : Bool) (s : State) : Out := .next (resumeAnswer adopted s)

end Sys2Proof.Machine
end

