-- ==== Sys2Proof/Machine/HostLink.lean ====
section
/-! DEFINITION. The CXL link and the host's memory (R388-R395), command queues and doorbells (R405-R412), and how Bister takes
commands (R407, R429-R431). -/

namespace Sys2Proof.Machine

/-! ### Link and credits -/

/-- A trained link below x16 or 64 GT/s is an event that names both, once Bister runs (R389). -/
def State.linkDegraded (s : State) : State :=
  if s.served && s.host.linkUp && (s.host.linkWidth < 16 || s.host.linkRate < 64)
  then s.raise 0x0008 uMBX 0 0xFFFF (s.host.linkWidth + s.host.linkRate * 2 ^ 32) else s

/-- The credit pools as the link advertises them at training (R414): the spec gives no totals, they are free values (log 2). -/
def State.newPools : Nat → State → State
  | 0, s => s
  | n + 1, s =>
    let t := Config.freeNat s.freeCtr % 65536
    let s1 := s.draw
    State.newPools n { s1 with host := { s1.host with pools := tset s1.host.pools n { free := t, total := t } {} } }

/-- Widths and rates of Table 16.1. -/
def cxlSupported (width rate : Nat) : Bool := [4, 8, 16].contains width && [8, 16, 32, 64].contains rate

/-- The CXL link has trained (R388, R389); at a width or rate that Table 16.1 does not support no CXL link comes up. -/
def cxlLinkTrained (width rate : Nat) (s : State) : State :=
  if !cxlSupported width rate then s else
  State.linkDegraded ({ s with host := { s.host with linkUp := true, linkWidth := width, linkRate := rate } }.newPools 12).syncPools

def execCxlLinkTrained (width rate : Nat) (s : State) : Out := .next (cxlLinkTrained width rate s)

/-- MBX_HOST_BOOK_SNAP.REQ (R414): the latch is BOOK_LATCH's. -/
def execMbxHostBookSnap (s : State) : Out := .next (s.requestSnap mbxSnapReq 2)

/-! ### CXL.mem (R39, R393, R394, R497) -/

/-- Bytes of the host-visible space H (R337). -/
def State.hostBytes (s : State) : Nat := hsBase + s.hsBytes

/-- The host commits the HDM decoder (R393): only HS_SIZE GiB and 256 MiB is taken. -/
def hdmDecoderCommit (size : Nat) (s : State) : State :=
  if size = s.hsBytes + 2 ^ 28 then { s with host := { s.host with hdmSize := size, hdmCommitted := true, hdmError := false } }
  else { s with host := { s.host with hdmError := true } }

def execHdmDecoderCommit (size : Nat) (s : State) : Out := .next (hdmDecoderCommit size s)

/-- One byte of the state-window partition: the records' slots, then the inventory. -/
def State.windowByte (s : State) (a : Nat) : Byte :=
  if a < 0x4000000 then
    BitVec.ofNat 8 (((s.slot (a / 1024) (a / 512 % 2)).words.getD (a % 512 / 8) 0).toNat / 2 ^ (8 * (a % 8)))
  else s.invBytes.getD (a - 0x4000000) 0

/-- The 64 bytes of a host-visible line. -/
def State.lineBytes (s : State) (line : Nat) : List Byte :=
  (List.range 64).map (fun i =>
    let a := 64 * line + i
    if a < hsBase then s.windowByte a else if a < s.hostBytes then mget s.mem.hostShared (a - hsBase) else 0)

/-- Every copy of a host-visible line is poisoned. -/
def State.linePoisoned (s : State) (line : Nat) : Bool :=
  let c := s.copies line
  !c.isEmpty && c.all (fun d => s.mem.poisoned.contains d)

/-- The host may hold a line: it enters the snoop filter; a full filter evicts its oldest entry (R394). -/
def State.snoopEnter (s : State) (line : Nat) : State :=
  if s.host.snoop.contains line then s else
  let s1 := match s.host.snoop with
    | [] => s
    | old :: _ => if s.host.snoop.length ≥ 262144 then (s.backInv old).bump mbxSfEvict else s
  { s1 with host := { s1.host with snoop := s1.host.snoop ++ [line] } }

/-- The answer to a read. -/
def State.answerRead (s : State) (v : Nat) (poison : Bool) : State := { s with host := { s.host with readData := v, readPoison := poison } }

/-- Before a device unit reads a line the host may hold, BISnpData is issued (R394). -/
def State.backData (s : State) (line : Nat) : State :=
  if line ∈ s.host.snoop then (State.bump { s with host := { s.host with bisnp := s.host.bisnp ++ [line] } } mbxBisnp).syncPools else s

/-- A host read of a line. -/
def State.hostRead (s : State) (off : Nat) : State :=
  let line := off / 64
  if !s.host.memActive then s.answerRead 0 true
  else if off ≥ s.hostBytes then s.answerRead 0 false
  else if s.linePoisoned line then (s.answerRead 0 true).snoopEnter line
  else (s.answerRead (leNat (s.lineBytes line)) false).snoopEnter line

/-- A host write within a line: to the window or the padding it is discarded and counted; a whole line clears poison. -/
def State.hostWrite (s : State) (off : Nat) (b : List Byte) : State :=
  let line := off / 64
  let bs := b.take (64 - off % 64)
  if !s.host.memActive then s
  else if off < hsBase then stateWindowWrite off s
  else if off ≥ s.hostBytes then s.bump mbxSwWriteDiscard
  else
    let whole := off % 64 = 0 && bs.length = 64
    let s1 := { s with mem := { s.mem with hostShared := msetList s.mem.hostShared (off - hsBase) bs } }
    let s2 := if whole then s1.unpoison (fun d => (s.copies line).contains d) else s1
    s2.snoopEnter line

/-- A host CXL.mem access, `offset` from the decoder's base. What lies outside the committed decoder does not reach the device. -/
def cxlMemAccess (offset : Nat) (a : MemAccess) (s : State) : State :=
  if !s.host.hdmCommitted || s.host.hdmSize ≤ offset then s
  else match a with
  | .read => s.hostRead offset
  | .write b => s.hostWrite offset b

def execCxlMemAccess (offset : Nat) (a : MemAccess) (s : State) : Out := .next (cxlMemAccess offset a s)

/-- The host answers a back-invalidate (R394). Each row's device access is whole, so nothing else is left to proceed. -/
def bisnpResponse (line : Nat) (s : State) : State := State.syncPools { s with host := { s.host with bisnp := s.host.bisnp.erase line } }

def execBisnpResponse (line : Nat) (s : State) : Out := .next (bisnpResponse line s)

/-- A host snoop is answered RspIHitI: the device keeps no host line (R395). -/
def execH2dSnoop (_line : Nat) (s : State) : Out := .next { s with host := { s.host with snoopAnswer := true } }

/-! ### Queues (R405, R407-R410) -/

/-- Byte address of Q_CTL of queue q. -/
def qCtlAddr (q : Nat) : Nat := 0x390018 + 0x40 * q

/-- Two byte ranges share a byte. -/
def overlaps (a n b m : Nat) : Bool := decide (a < b + m) && decide (b < a + n)

/-- SQ and CQ of queue q as byte ranges. -/
def State.sqRange (s : State) (q : Nat) : Nat × Nat := (s.rd sqBase q, 64 * s.rd sqSize q)
def State.cqRange (s : State) (q : Nat) : Nat × Nat := (s.rd cqBase q, 32 * s.rd cqSize q)

/-- A command queue may be enabled (R405). -/
def State.queueFits (s : State) (q : Nat) : Bool :=
  let a := s.sqRange q
  let c := s.cqRange q
  let clash := fun (x : Nat) => x != q && s.flag qEn x &&
    (overlaps c.1 c.2 (s.sqRange x).1 (s.sqRange x).2 || overlaps c.1 c.2 (s.cqRange x).1 (s.cqRange x).2)
  decide (a.1 + a.2 ≤ s.hsBytes) && decide (c.1 + c.2 ≤ s.hsBytes) && !overlaps a.1 a.2 c.1 c.2 && !(List.range 64).any clash

/-- A write of Q_CTL that sets EN (R405): the queue starts empty, on its first pass, or ERR is set and EN stays 0. -/
def qCtlEnable (q width v : Nat) (s : State) : State :=
  if !goodAccess (qCtlAddr q) width || writtenTo qEn q 0 (qCtlAddr q) width v != some 1 || s.flag qEn q then s.writeReg (qCtlAddr q) width v
  else
    let s1 := s.writeRegBut (· = qEn) (qCtlAddr q) width v
    if s1.queueFits q then
      (((s1.wr qEn 1 q).wr sqHead 0 q).wr cqTail 0 q).modHq q (fun h => { outstanding := h.outstanding, reserved := h.reserved })
    else s1.wr qErr 1 q

def execQCtlEnable (q : QueueId) (width : Nat) (value : Word64) (s : State) : Out := .next (qCtlEnable q.val width value.toNat s)

/-- A write of Q_CTL that clears EN (R409): fetching stops; what has been taken runs on. -/
def qCtlDisable (q width v : Nat) (s : State) : State :=
  if writtenTo qEn q 0 (qCtlAddr q) width v = some 0 then s.writeReg (qCtlAddr q) width v else qCtlEnable q width v s

def execQCtlDisable (q : QueueId) (width : Nat) (value : Word64) (s : State) : Out := .next (qCtlDisable q.val width value.toNat s)

/-- SQ_TAIL (R392, R407, R409). -/
def sqTail (q width v : Nat) (s : State) : State :=
  if width != 32 then s.bump mbxBadAccess
  else if !s.flag qEn q then s
  else if v % 4096 ≥ s.rd sqSize q then s.wr qErr 1 q
  else s.modHq q (fun h => { h with tail := v % 4096 })

def execSqTail (q : QueueId) (width : Nat) (value : Word64) (s : State) : Out := .next (sqTail q.val width value.toNat s)

/-- CQ_HEAD (R408): room is freed. DEDUCED (log 41): a head of CQ_SIZE or more is refused as a tail is. -/
def cqHead (q width v : Nat) (s : State) : State :=
  if width != 32 then s.bump mbxBadAccess
  else if !s.flag qEn q then s
  else if v % 4096 ≥ s.rd cqSize q then s.wr qErr 1 q
  else s.modHq q (fun h => { h with head := v % 4096 })

def execCqHead (q : QueueId) (width : Nat) (value : Word64) (s : State) : Out := .next (cqHead q.val width value.toNat s)

/-- COAL_TIME µs after the oldest unsignalled completion the interrupt is raised (R410). -/
def cqCoalesceTimeout (q : Nat) (s : State) : State :=
  let h := s.hq q
  if h.unsignalled != 0 && h.oldestAt + us (s.rd qCoalTime q) ≤ s.now then (s.modHq q (fun h => { h with unsignalled := 0 })).msi (s.rd qVec q) else s

def execCqCoalesceTimeout (q : QueueId) (s : State) : Out := .next (cqCoalesceTimeout q.val s)

/-- XQ_HEAD (R412). -/
def xqHead (x width v : Nat) (s : State) : State :=
  if width != 32 then s.bump mbxBadAccess
  else if !s.flag xqEn x then s
  else if v % 131072 ≥ s.rd xqCount x then s.wr xqErr 1 x
  else { s with host := { s.host with xq := tmod s.host.xq x {} (fun r => { r with head := v % 131072 }) } }

def execXqHead (x : Fin 8) (width : Nat) (value : Word64) (s : State) : Out := .next (xqHead x.val width value.toNat s)

/-- NQ_HEAD (R411). -/
def nqHead (width v : Nat) (s : State) : State :=
  if width != 32 then s.bump mbxBadAccess
  else if !s.flag nqEn then s
  else if v % 131072 ≥ s.rd nqCount then s.wr nqErr 1
  else { s with host := { s.host with nq := { s.host.nq with head := v % 131072 } } }

def execNqHead (width : Nat) (value : Word64) (s : State) : Out := .next (nqHead width value.toNat s)

/-! ### Taking commands (R407, R428-R431) -/

/-- The opcodes of Table 17.2. -/
def opcodes : List Nat :=
  [0x10, 0x11, 0x12, 0x13, 0x14, 0x20, 0x21, 0x22, 0x23, 0x24, 0x25, 0x30, 0x31, 0x40, 0x41, 0x50, 0x51, 0x60, 0x61, 0x70, 0x71, 0x80, 0x81, 0xF0]

/-- Word i of an entry of queue q's SQ. -/
def State.sqWord (s : State) (q index i : Nat) : Nat := leNat (mgetList s.mem.hostShared (s.rd sqBase q + 64 * index + 8 * i) 8)

/-- Commands of a queue taken and not yet applied. -/
def State.notApplied (s : State) (q : Nat) : Nat := (s.sup.taken.filter (fun t => t.qid = q && !t.applied)).length

/-- Bister may take an entry of queue q: it is enabled, has one, and its CQ has room for what it will complete. -/
def State.canTake (s : State) (q : Nat) : Bool :=
  let op := s.sqWord q (s.rd sqHead q) 0 % 65536
  s.flag qEn q && s.rd sqHead q != (s.hq q).tail && decide ((if twoStage op then 2 else 1) ≤ s.cqRoom q) && decide (s.notApplied q < 256)

/-- Fetching runs: commands are served, no erasure and no activation of a supervisor image is under way (R481, R487, R504). -/
def State.fetching (s : State) : Bool := s.served && !s.flag secErasing && s.img.activSup.isNone && s.img.supRestartAt = 0

/-- Take the entry at a queue's head. An undefined opcode completes with NOT_SUPPORTED (Table 17.4). -/
def State.takeEntry (s : State) (q : Nat) : State :=
  let i := s.rd sqHead q
  let w0 := s.sqWord q i 0
  let op := w0 % 65536
  let tag := bits w0 32 32
  let s1 := (s.backData ((hsBase + s.rd sqBase q + 64 * i) / 64)).wr sqHead (if i + 1 ≥ s.rd sqSize q then 0 else i + 1) q
  let s2 := State.take { s1 with sup := { s1.sup with lastServed := q } } q tag op (s.sqWord q i 1)
  if opcodes.contains op then s2 else s2.complete q tag op stNOT_SUPPORTED 0 0 0

/-- Bister takes one entry: of the first queue after the one it last served that has an entry and room (R430). -/
def commandFetch (s : State) : State :=
  if !s.fetching then s else
  match ((List.range 64).map (fun i => (s.sup.lastServed + 1 + i) % 64)).find? s.canTake with
  | none => s
  | some q => s.takeEntry q

def execCommandFetch (s : State) : Out := .next (commandFetch s)

end Sys2Proof.Machine
end

