-- ==== Sys2Proof/Machine/Images.lean ====
section
/-! DEFINITION. Images (R483-R489, R498, R499, R502): their format, the checks of Table 20.6, kernel packs, and what the
device checks before it runs one. -/

namespace Sys2Proof.Machine

/-! ### Format (Tables 20.4, 20.5) -/

/-- The number of `n` bytes at an offset. -/
def leAt (l : List Byte) (off n : Nat) : Nat := leNat ((l.drop off).take n)

/-- An image's own signed region boundaries: DESC, BODY, SIG. -/
def imageFits (l : List Byte) : Bool :=
  let len := leAt l 0x10 4
  let sig := leAt l 0x28 4
  let desc := leAt l 0x18 4 + leAt l 0x1C 4
  let body := leAt l 0x20 4 + leAt l 0x24 4
  leAt l 0 4 = 0x4D494E46 && leAt l 4 1 = 1 && decide (leAt l 5 1 ≤ 1) && len = l.length && decide (0x38 + 96 ≤ len) &&
    sig + 96 = len && decide (desc ≤ sig) && decide (body ≤ sig) && decide (len ≤ (if leAt l 5 1 = 0 then 2 ^ 26 else 2 ^ 24))

/-- Entries of a compatibility descriptor at `d`. -/
def descEntries (l : List Byte) (d n : Nat) : List Nat := (List.range n).map (fun i => leAt l (d + 8 + 8 * i) 8)

/-- The image that bytes hold (Tables 20.4, 20.5); `none` where its format is broken. -/
def parseImage (l : List Byte) : Option Image :=
  let d := leAt l 0x18 4
  let kind := leAt l 5 1
  let n := leAt l (d + 4) 2
  if !imageFits l || n = 0 || (if kind = 0 then 256 else 1024) < n || leAt l 0x1C 4 < 8 + 8 * n then none else
  let es := descEntries l d n
  let a := leAt l (d + 2) 1
  let b := leAt l (d + 3) 1
  some { kind := kind, release := leAt l 8 2, svn := leAt l 0xC 2, length := l.length, keyId := leAt l 0x30 1, stepMin := leAt l d 1, stepMax := leAt l (d + 1) 1
         ifLo := if kind = 0 then b else a, ifHi := if kind = 0 then a else b
         accepts := if kind = 0 then es.map (fun w => (bits w 0 16, bits w 16 16, bits w 32 8, bits w 40 8)) else []
         kernels := if kind = 0 then [] else es.map (fun w => (bits w 0 16, bits w 32 8, bits w 40 1))
         descs := if kind = 0 then [] else Config.packDescriptors l
         raw := l, signed := l.take (l.length - 96), body := (l.drop (leAt l 0x20 4)).take (leAt l 0x24 4) }

/-- The base pack of a supervisor image: a KIND 1 image whole, after the body (Table 20.4). -/
def basePackOf (l : List Byte) : Option Image := (parseImage ((l.take (l.length - 96)).drop (leAt l 0x20 4 + leAt l 0x24 4))).filter (fun p => p.kind = 1)

/-! ### Compatibility -/

/-- A kernel is accepted by a supervisor image's table (R485). -/
def kernelAccepted (sup : Image) (k : Nat × Nat × Nat) : Bool :=
  sup.accepts.any (fun a => decide (a.1 ≤ k.1) && decide (k.1 ≤ a.2.1) && decide (a.2.2.1 ≤ k.2.1) && decide (k.2.1 ≤ a.2.2.2))

/-- The first kernel of a pack that a supervisor image does not accept. -/
def firstRefused (sup pack : Image) : Option (Nat × Nat × Nat) := pack.kernels.find? (fun k => !kernelAccepted sup k)

/-- Interface epochs the paired neighbours state in IDENTITY. -/
def State.neighbourEpochs (s : State) : List Nat :=
  if !s.flag rngPaired then [] else
  ((List.range 2).filterMap (fun x => (s.link x).ident)).filterMap (fun i =>
    if i.pos = s.rd rngPosUp || i.pos = s.rd rngPosDown then some i.epoch else none)

/-- The epoch in force (R485): the highest that the supervisor speaks, the pack runs under and every paired neighbour states. -/
def State.epochInForce (s : State) (sup pack : Image) : Option Nat :=
  ((List.range 256).reverse).find? (fun e => decide (sup.ifLo ≤ e) && decide (e ≤ sup.ifHi) && decide (pack.ifLo ≤ e) && decide (e ≤ pack.ifHi) &&
    s.neighbourEpochs.all (· = e))

/-- A pack replaces only the extension region. -/
def extOnly (p : Image) : Bool := !p.kernels.isEmpty && p.kernels.all (fun k => k.2.2 = 1)

/-- A pack after an image of KIND 1 has replaced its regions. DESIGN CHOICE (log 42): a pack's body holds the bundles of its
regions in order. -/
def mergePack (old : Option Image) (new : Image) : Image :=
  match old with
  | none => new
  | some o =>
    let region := fun (r : Nat) => new.kernels.any (fun k => k.2.2 = r)
    let cut := 0x1800 * 16
    let low := if region 0 then new.body.take cut else o.body.take cut
    let high := if !region 1 then o.body.drop cut else if region 0 then new.body.drop cut else new.body
    { new with
      kernels := new.kernels ++ o.kernels.filter (fun k => !region k.2.2)
      descs := if region 1 then new.descs else o.descs
      signed := if extOnly new then o.signed else new.signed
      extSigned := if extOnly new then new.signed else if region 1 then [] else o.extSigned
      body := if high.isEmpty then low else low ++ List.replicate (cut - low.length) 0 ++ high }

/-- Table 12.11 (R304): every extension kernel carries a descriptor within its ranges, and no other does. -/
def descOk (k : Nat × List Nat) : Bool :=
  let d := fun i => k.2.getD i 0
  decide (0xF0 ≤ k.1 / 256) && decide (k.1 / 256 ≤ 0xFE) && decide (d 0 ≤ 255) && decide (0x1800 ≤ d 1) && decide (d 1 ≤ 0x1FFF) && decide (d 2 ≤ 3) && decide (d 3 ≤ 7) &&
    decide (64 ≤ d 4) && decide (d 4 ≤ 65536) && d 4 % 64 = 0 && decide (64 ≤ d 5) && decide (d 5 ≤ 8192) && d 5 % 64 = 0 && decide (d 6 < 64)

def packDescsOk (p : Image) : Bool :=
  p.descs.all descOk && (p.kernels.filter (fun k => k.2.2 = 1)).all (fun k => p.descs.any (fun d => d.1 = k.1))

/-! ### Signature, SVN, stepping (R498, R499, R502) -/

/-- The public key that an image signed with an owner key carries before its signature: 97 bytes and 7 zero bytes, and its SHA-384 is in the
slot's fuses (R498). -/
def ownerKeyOk (k : Nat) (l : List Byte) : Bool :=
  let key := (l.drop (l.length - 200)).take 104
  Config.ownerHash k != 0 && key.drop 97 = List.replicate 7 0 && Config.digest (key.take 97) = Config.ownerHash k

/-- The key slot is accepted for the image in this lifecycle state. -/
def State.keyAccepted (s : State) (p : Image) (l : List Byte) : Bool :=
  let k := p.keyId
  decide (k < 8) && !bit (s.rd secKeyRevoked) k &&
    (match s.rd secLifecycle with
    | 0 => k = 3
    | 1 => decide (k ≤ 2) || (decide (4 ≤ k) && p.kind = 1 && extOnly p && ownerKeyOk k l)
    | 2 => decide (k ≤ 2)
    | _ => false)

/-- Signature and SVN hold. -/
def State.signatureOk (s : State) (p : Image) (l : List Byte) : Bool :=
  s.keyAccepted p l && Config.imageSigned p.keyId l && decide ((if p.kind = 0 then s.rd secSvnFloorSup else s.rd secSvnFloorPack) ≤ p.svn)

/-- Stepping B0 lies in the image's range. -/
def steppingOk (p : Image) : Bool := decide (p.stepMin ≤ 0xB0) && decide (0xB0 ≤ p.stepMax)

/-- Kernels that OPEN and BOUND channels use. -/
def State.kernelsInUse (s : State) : List Nat := (liveChans s).map (fun e => s.kernelOf e.1)

/-- The region of a kernel. -/
def kernelRegion (id : Nat) : Nat := if 0xF0 ≤ id / 256 && id / 256 ≤ 0xFE then 1 else 0

/-- The first check of Table 20.6 that a supervisor image fails: status and the number of the check. -/
def State.supChecks (s : State) (l : List Byte) : Option (Nat × Nat) :=
  match parseImage l, basePackOf l with
  | some p, some b =>
    if p.kind != 0 || (firstRefused p b).isSome || !packDescsOk b then some (stBAD_PARAM, 1)
    else firstFail [(!s.signatureOk p l, stDENIED, 2), (!steppingOk p, stINCOMPATIBLE, 3),
      (s.img.pack.any (fun a => (firstRefused p a).isSome), stINCOMPATIBLE, 4),
      (s.img.pack.any (fun a => (s.epochInForce p a).isNone), stINCOMPATIBLE, 5)]
  | _, _ => some (stBAD_PARAM, 1)

/-- The first check of Table 20.6 that a kernel pack fails. -/
def State.packChecks (s : State) (l : List Byte) : Option (Nat × Nat) :=
  match parseImage l with
  | none => some (stBAD_PARAM, 1)
  | some p =>
    let region := fun (id : Nat) => p.kernels.any (fun k => k.2.2 = kernelRegion id)
    let epoch := s.rd supImgIfInForce
    firstFail [(p.kind != 1 || !packDescsOk p, stBAD_PARAM, 1), (!s.signatureOk p l, stDENIED, 2), (!steppingOk p, stINCOMPATIBLE, 3),
      (decide (epoch < p.ifLo) || decide (p.ifHi < epoch), stINCOMPATIBLE, 4),
      (s.img.running.any (fun r => (firstRefused r p).isSome), stINCOMPATIBLE, 5),
      (s.kernelsInUse.any (fun id => region id && !p.kernels.any (fun k => k.1 = id)), stINCOMPATIBLE, 6)]

/-- An image refused by Bister: IMAGE_REFUSED names KIND and check; a failed signature is counted (R505). -/
def State.imageRefused (s : State) (kind check : Nat) : State :=
  State.raise (if check = 2 then s.bump secSigFail else s) 0x0060 uSUP 0 0xFFFF kind 0 check

end Sys2Proof.Machine
end

