-- ==== Sys2Proof/Machine/Mailbox.lean ====
section
/-! DEFINITION. The mailbox (R399, R400) and the boot wait (R401-R403): which command is served in which state, and what each
answers. Return codes and layouts of the CXL commands are those of CXL 3.1; the spec names the register layout, not the
numbers: PRESUMED (log 43). -/

namespace Sys2Proof.Machine

/-! ### Answers -/

/-- Mailbox return codes. -/
def mbSuccess : Nat := 0
def mbInvalid : Nat := 2
def mbBusy : Nat := 6
def mbHandle : Nat := 14

/-- A mailbox command completes; its doorbell interrupt is vector 73. -/
def State.reply (s : State) (code : Nat) (output : List Byte := []) : State :=
  State.msi { s with host := { s.host with reply := { code := code, output := output } } } 73

/-- A Folnen command returns Success with FSTATUS in byte 0 of its output. -/
def State.fnReply (s : State) (fstatus : Nat) (output : List Byte := []) : State :=
  State.msi { s with host := { s.host with reply := { code := mbSuccess, fstatus := fstatus, output := leBytes 1 fstatus ++ output } } } 73

/-- Commands of the READY group are served (R399). -/
def State.mbReady (s : State) : Bool := s.served

/-- Commands of the BOOT_WAIT group are served: from BOOT_WAIT on, but not during a SUP reset (R481). -/
def State.mbWait (s : State) : Bool := decide (2 ≤ s.rd mbxBootState) && s.rd mbxBootState != 7 && s.rd mbxBootState != 15

/-- The command is answered where it is served, else completes with Busy. -/
def whenServed (served : Bool) (f : State → State) (s : State) : State := if served then f s else s.reply mbBusy

/-! ### Event logs (R400, R495, R496) -/

/-- Event Record Identifier by kind: 0 Folnen vendor (R495), 1 General Media, 2 DRAM. -/
def recordId (kind : Nat) : Nat :=
  match kind with
  | 1 => 0xfbcd0a77c260417f85a9088b1621eba6
  | 2 => 0x601dcbb39c064eabb8af4e9bfb5c9624
  | _ => 0x6f1c0a5293d44b7ea1c82e5d90b34f61

/-- The 128 bytes of an event record: the 48-byte common header, then Table 21.3. A General Media or DRAM record holds its DPA. -/
def recordBytes (sev : Nat) (e : EventRec) : List Byte :=
  let head := beBytes 16 (recordId e.kind) ++ leBytes 1 128 ++ leBytes 3 sev ++ leBytes 2 e.handle ++ leBytes 2 0 ++ leBytes 8 e.tb0 ++ leBytes 16 0
  let own := if e.kind = 0 then
      leBytes 2 e.code ++ leBytes 1 e.unit ++ leBytes 1 e.inst ++ leBytes 2 e.chan ++ leBytes 2 (b2n e.late + 2 * b2n e.rep) ++
        leBytes 8 e.address ++ leBytes 8 e.detail0 ++ leBytes 8 e.detail1 ++ leBytes 8 e.tb0 ++ leBytes 4 e.count ++ leBytes 36 0
    else leBytes 8 e.address ++ leBytes 72 0
  head ++ own

/-- Get Event Records. -/
def getEventRecords (log : Nat) (s : State) : State :=
  whenServed s.mbReady (fun s =>
    let l := tget s.sup.logs log {}
    s.reply mbSuccess (leBytes 1 (if l.overflow = 0 then 0 else 1) ++ leBytes 1 0 ++ leBytes 2 (min l.overflow 65535) ++ leBytes 8 l.firstOvf ++
      leBytes 8 l.lastOvf ++ leBytes 2 l.records.length ++ leBytes 10 0 ++ l.records.flatMap (recordBytes log))) s

def execGetEventRecords (log : Fin 4) (s : State) : Out := .next (getEventRecords log.val s)

/-- Clear Event Records: the records named, or all; a handle of no record clears nothing. The overflow is cleared with them. -/
def clearEventRecords (log : Nat) (handles : List Nat) (all : Bool) (s : State) : State :=
  whenServed s.mbReady (fun s =>
    let l := tget s.sup.logs log {}
    if !all && !handles.all (fun h => l.records.any (fun e => e.handle = h)) then s.reply mbHandle
    else
      let l' : EventLog := { records := if all then [] else l.records.filter (fun e => !handles.contains e.handle) }
      State.reply { s with sup := { s.sup with logs := tset s.sup.logs log l' {} } } mbSuccess) s

def execClearEventRecords (log : Fin 4) (handles : List Nat) (all : Bool) (s : State) : Out := .next (clearEventRecords log.val handles all s)

/-- Get Timestamp: TB0 and the offset (R386). -/
def getTimestamp (s : State) : State :=
  whenServed s.mbReady (fun s => s.reply mbSuccess (leBytes 8 (s.tbVal 0 + s.sup.tsOffset.toNat))) s

def execGetTimestamp (s : State) : Out := .next (getTimestamp s)

/-- Set Timestamp sets the offset only; no time base changes (R386). -/
def setTimestamp (t : Word64) (s : State) : State :=
  whenServed s.mbReady (fun s => State.reply { s with sup := { s.sup with tsOffset := t - (s.tb 0).value } } mbSuccess) s

def execSetTimestamp (t : Word64) (s : State) : Out := .next (setTimestamp t s)

/-- The coalescing second of an event ends (R496). A repeated event is logged in one record. -/
def eventCoalesceFlush (code unit inst chan : Nat) (s : State) : State :=
  let e : EventRec := { code := code, unit := unit, inst := inst, chan := chan }
  if s.sup.coalesce.any (fun c => sameEvent c.ev e && decide (c.since + sec 1 ≤ s.now)) then s.flushEvent e else s

def execEventCoalesceFlush (code unit inst chan : Nat) (s : State) : Out := .next (eventCoalesceFlush code unit inst chan s)

/-! ### Logs, capacities, health, poison -/

/-- The two logs: identifier and content. -/
def logOf (which : Nat) : Nat × List Byte :=
  if which = 0 then (0x0da9c0b5bf414b788f7996b1623b3f17, Config.effectsLog) else (Config.bootLogId, Config.bootLog)

/-- Get Supported Logs. -/
def getSupportedLogs (s : State) : State :=
  whenServed s.mbReady (fun s => s.reply mbSuccess (leBytes 2 2 ++ leBytes 6 0 ++
    [logOf 0, logOf 1].flatMap (fun l => beBytes 16 l.1 ++ leBytes 4 l.2.length))) s

def execGetSupportedLogs (s : State) : Out := .next (getSupportedLogs s)

/-- Get Log: a part of a log; one that is not within it is an invalid input. -/
def getLog (which offset length : Nat) (s : State) : State :=
  whenServed s.mbReady (fun s =>
    let l := (logOf which).2
    if l.length < offset + length || 2 ^ 20 < length then s.reply mbInvalid else s.reply mbSuccess ((l.drop offset).take length)) s

def execGetLog (which : Fin 2) (offset length : Nat) (s : State) : Out := .next (getLog which.val offset length s)

/-- Volatile capacity in units of 256 MiB (R393). -/
def State.volatileUnits (s : State) : Nat := 4 * s.rd memHsSize + 1

/-- Identify Memory Device (R393): volatile capacity 4 x HS_SIZE + 1, persistent 0; logs of 512 records; a poison list of 256;
last the vendor and device IDs (R388). -/
def identifyMemoryDevice (s : State) : State :=
  whenServed s.mbWait (fun s => s.reply mbSuccess (leBytes 16 s.supRelease ++ leBytes 8 s.volatileUnits ++ leBytes 8 s.volatileUnits ++ leBytes 8 0 ++ leBytes 8 0 ++
    leBytes 2 512 ++ leBytes 2 512 ++ leBytes 2 512 ++ leBytes 2 512 ++ leBytes 4 0 ++ leBytes 3 256 ++ leBytes 2 0 ++ leBytes 1 0 ++ leBytes 1 0 ++
    leBytes 2 Config.vendorId ++ leBytes 2 Config.deviceId)) s

def execIdentifyMemoryDevice (s : State) : Out := .next (identifyMemoryDevice s)

/-- The hottest sensor in 0.1 °C; sensors that read 0x8000 are in unpowered domains (R515). -/
def State.hottest (s : State) : Option Int :=
  (((List.range 30).map (fun d => s.rd pwrTjNow d)).filter (· != 0x8000)).foldl (fun (a : Option Int) t =>
    match a with
    | none => some (signed 16 t)
    | some m => some (max m (signed 16 t))) none

/-- A memory channel is in STATE 3, 4 or 5 (R400). -/
def State.maintenance (s : State) : Bool := (List.range 8).any (fun m => decide (3 ≤ s.rd memChState m) && decide (s.rd memChState m ≤ 5))

/-- Get Health Info (R400, R515): Maintenance Needed, Life Used 0, the hottest sensor in °C. -/
def getHealthInfo (s : State) : State :=
  whenServed s.mbReady (fun s =>
    let ce := (List.range 8).foldl (fun a m => a + s.rd memCe m) 0
    s.reply mbSuccess (leBytes 1 (b2n s.maintenance) ++ leBytes 1 0 ++ leBytes 1 0 ++ leBytes 1 0 ++ leBytes 2 (wrapInt 16 ((s.hottest.getD (-32768)) / 10)) ++
      leBytes 4 0 ++ leBytes 4 (min ce (2 ^ 32 - 1)) ++ leBytes 4 0)) s

def execGetHealthInfo (s : State) : Out := .next (getHealthInfo s)

/-- Get Poison List (R497): up to 256 entries of a 64-byte line by DPA, with the list's overflow. -/
def getPoisonList (s : State) : State :=
  whenServed s.mbReady (fun s =>
    s.reply mbSuccess (leBytes 1 (b2n s.sup.poisonOvf * 2) ++ leBytes 1 0 ++ leBytes 8 s.sup.poisonOvfAt ++ leBytes 2 (min 256 s.sup.poison.length) ++ leBytes 20 0 ++
      (s.sup.poison.take 256).flatMap (fun l => leBytes 8 (64 * l) ++ leBytes 4 1 ++ leBytes 4 0))) s

def execGetPoisonList (s : State) : Out := .next (getPoisonList s)

/-! ### Folnen commands (Table 16.3). The layout of their output is not given: fields in the order of the table, DESIGN CHOICE (log
44). -/

/-- FN_BOOT_INFO: state, reason, stepping, ROM version, lifecycle state, largest image in MiB. Served from ROM_INIT; during a SUP
reset it completes with Busy like every other command (R481). -/
def fnBootInfo (s : State) : State :=
  whenServed (s.rd mbxBootState != 7) (fun s =>
    s.fnReply stOK (leBytes 1 (s.rd mbxBootState) ++ leBytes 1 (s.rd mbxBootReason) ++ leBytes 1 0xB0 ++ leBytes 4 Config.romVersion ++ leBytes 1 (s.rd secLifecycle) ++ leBytes 4 64)) s

def execFnBootInfo (s : State) : Out := .next (fnBootInfo s)

/-- FN_CAPACITY: MEM_CAP and the STATE of every channel. -/
def fnCapacity (s : State) : State :=
  whenServed s.mbWait (fun s =>
    s.fnReply stOK (leBytes 2 (s.rd memCapPopulated) ++ leBytes 2 (s.rd memCapOnline) ++ (List.range 8).flatMap (fun m => leBytes 1 (s.rd memChState m)))) s

def execFnCapacity (s : State) : Out := .next (fnCapacity s)

/-! ### Boot wait -/

/-- What FN_IMAGE_LOAD and FN_IMAGE_START come to outside BOOT_WAIT: LIMITED denies them (R399), anything else is Busy. -/
def State.pushRefused (s : State) : State := if s.rd mbxBootState = 6 then s.fnReply stDENIED else s.reply mbBusy

/-- FN_IMAGE_LOAD (R402, R403). -/
def fnImageLoad (offset : Nat) (data : List Byte) (s : State) : State :=
  if s.rd mbxBootState != 2 then s.pushRefused
  else if s.img.memNoFit then s.fnReply stNO_RESOURCE
  else if offset % 4 != 0 || data.length % 4 != 0 || data.length < 4 || 2 ^ 20 < data.length || 2 ^ 26 < offset + data.length then s.fnReply stBAD_PARAM
  else State.fnReply { s with img := { s.img with loadBuf := msetList s.img.loadBuf offset data } } stOK

def execFnImageLoad (offset : Nat) (data : List Byte) (s : State) : Out := .next (fnImageLoad offset data s)

/-- FN_IMAGE_START (R401-R403): the ROM begins to check the loaded image; REASON is that of the new attempt. A SCRAPPED device runs
none (R502). -/
def fnImageStart (length : Nat) (s : State) : State :=
  if s.rd mbxBootState != 2 then s.pushRefused
  else if s.img.memNoFit then s.fnReply stNO_RESOURCE
  else if s.rd secLifecycle = 3 then s.fnReply stDENIED
  else
    let s1 := { s with img := { s.img with verifyLen := length }, host := { s.host with bgStatus := stACCEPTED } }
    ((s1.wr mbxBootReason 0).boot 3).fnReply stOK

def execFnImageStart (length : Nat) (s : State) : Out := .next (fnImageStart length s)

/-- The bytes pushed, up to the length given. Bytes never loaded read as 0 (log 3). -/
def State.pushed (s : State) : List Byte := mgetList s.img.loadBuf 0 s.img.verifyLen

/-- The check of the boot ROM that an image fails: REASON and the background command's FSTATUS (R403, R486, R498, R499). -/
def State.romCheck (s : State) (l : List Byte) : Option (Nat × Nat) :=
  match parseImage l, basePackOf l with
  | some p, some b =>
    if p.kind != 0 || (firstRefused p b).isSome || !packDescsOk b then some (2, stBAD_PARAM)
    else if !s.signatureOk p l then some (3, stDENIED)
    else if !steppingOk p then some (4, stINCOMPATIBLE) else none
  | _, _ => some (2, stBAD_PARAM)

/-- Verification ends (R403): SUP_START, or BOOT_WAIT with the reason and the loaded data discarded. -/
def fnImageVerified (s : State) : State :=
  if s.rd mbxBootState != 3 then s else
  let l := s.pushed
  match s.romCheck l with
  | some (reason, st) =>
    let s1 := if reason = 3 then s.bump secSigFail else s
    let s2 := { s1 with img := { s1.img with loadBuf := [] }, host := { s1.host with bgStatus := st } }
    (s2.wr mbxBootReason reason).boot 2
  | none =>
    State.boot { s with
      img := { s.img with loadBuf := [], running := parseImage l, basePack := basePackOf l, previous := none }
      host := { s.host with bgStatus := stOK } } 4

def execFnImageVerified (s : State) : Out := .next (fnImageVerified s)

/-- ROM self-test and CXL.io bring-up end (R401, R402): MEM_TRAIN, BOOT_WAIT after WARM with memory held, or FAILED. Memory_Active
is set on entering BOOT_WAIT (R393). -/
def romSelfTestDone (passed : Bool) (s : State) : State :=
  if s.rd mbxBootState != 0 then s
  else if !passed then s.boot 15
  else if s.flag mbxBootWarm then State.boot { s with host := { s.host with memActive := true } } 2
  else s.boot 1

def execRomSelfTestDone (passed : Bool) (s : State) : Out := .next (romSelfTestDone passed s)

end Sys2Proof.Machine
end

