-- ==== Sys2Proof/Machine/Boot.lean ====
section
/-! DEFINITION. SUP_START (R486, R521, R522): what Bister does when it has started from a pushed image. -/

namespace Sys2Proof.Machine

/-- The board identity EEPROM holds (Table 22.7, R522): MAGIC "FNBI", FORMAT 1, CHECK, and a unicast BASE_MAC other than 0. -/
def eepromHolds (l : List Byte) : Bool :=
  decide (256 ≤ l.length) && beNat (l.take 4) = 0x464E4249 && leAt l 4 1 = 1 && crc32 (l.take 252) = leAt l 252 4 &&
    leAt l 10 6 != 0 && leAt l 10 1 % 2 = 0

/-- ETH_MAC_ADDR of port p: BASE_MAC + p, formed as a number with the first wire byte most significant and stored with the first wire
byte in bits 7 to 0 (Table 22.7, Table 3.3). -/
def portMac (l : List Byte) (p : Nat) : Nat := leNat (beBytes 6 (beNat ((l.drop 10).take 6) + p))

/-- Bister reads the EEPROM (R521, R522): the MAC addresses, power classes and ring position it gives, or what follows where it is
unreadable: power class 1 in every slot. -/
def State.readBoard (s : State) (l : List Byte) : State :=
  let ok := eepromHolds l
  let s1 := { s with sup := { s.sup with
    eepromOk := ok, eeprom := l.take 256
    modPower := if ok then (List.range 4).map (fun p => leAt l (16 + p) 1) else [1, 1, 1, 1] } }
  if !ok then s1 else
  let s2 := (List.range 4).foldl (fun (s : State) p => s.wr ethMacAddr (portMac l p) p) s1
  if s2.ringPosOk then s2.wr rngPosOwn (leAt l 9 1) else s2

/-- The flow-table seeds of a COLD start come from the vault's random source (R90). -/
def State.drawSeeds : Nat → State → State
  | 0, s => s
  | n + 1, s => State.drawSeeds n (s.draw.wr flwSeed (Config.freeNat s.freeCtr) n)

/-- The checks of Table 20.6 on a held pack under a supervisor (R486): stepping, an epoch in force, accepted kernels, and every kernel in
use; its signature was checked when it was staged, its SVN is checked again. The answer names the failing KERNEL_ID, 0 where none is
concerned. -/
def State.heldPackFails (s : State) (sup pack : Image) : Option Nat :=
  if decide (pack.svn < s.rd secSvnFloorPack) || !steppingOk pack || (s.epochInForce sup pack).isNone then some 0
  else match firstRefused sup pack with
  | some k => some k.1
  | none => s.kernelsInUse.find? (fun id => !pack.kernels.any (fun k => k.1 = id))

/-- PMEM of every engine is loaded from the active pack. -/
def State.loadEngines (s : State) : State :=
  (List.range 96).foldl (fun (s : State) e => s.modEng e (fun x => { x with pmem := s.pmemImage e })) s

/-- The registers that name the images that run (Table 20.8). -/
def State.nameImages (s : State) : State :=
  match s.img.running, s.img.pack with
  | some r, some p => ((s.wr supImgSupRelease r.release).wr supImgPackRelease p.release).wr supImgIfInForce ((s.epochInForce r p).getD 0)
  | _, _ => s

/-- READY, or LIMITED with REASON KERNEL_INCOMPATIBLE and an INCOMPATIBLE event (R486). -/
def State.enterService (s : State) (bad : Option Nat) : State :=
  match bad with
  | none => (((s.wr mbxBootReason 0).wr supServiceLimited 0).wr supServiceReason 0).boot 5
  | some k => ((((s.wr mbxBootReason 6).wr supServiceLimited 1).wr supServiceReason 6).boot 6).raise 0x0007 uSUP 0 0xFFFF k

/-- Bister has started, or has failed to (R401, R486, R521). A failure returns to BOOT_WAIT with REASON SUP_START_FAIL: DEDUCED (log
46). -/
def supStartDone (started : Bool) (eeprom : List Byte) (s : State) : State :=
  if s.rd mbxBootState != 4 then s
  else if !started then ((s.wr mbxBootReason 5).wr supServiceReason 5).boot 2
  else match s.img.running with
  | none => s
  | some r =>
    let cold := !s.flag mbxBootWarm || s.img.pack.isNone
    let s1 := s.readBoard eeprom
    let s2 := if s.flag mbxBootWarm then s1 else State.drawSeeds 4 s1
    let s3 := if cold then { s2 with img := { s2.img with pack := s2.img.basePack } } else s2
    let s4 := s3.nameImages.loadEngines
    let bad := if cold then none else s4.img.pack.bind (s4.heldPackFails r)
    ((s4.readModules.invRebuild).enterService bad).linkDegraded

def execSupStartDone (started : Bool) (eeprom : List Byte) (s : State) : Out := .next (supStartDone started eeprom s)

end Sys2Proof.Machine
end

