-- ==== Sys2Proof/Machine/SupReset.lean ====
section
/-! DEFINITION. The SUP reset (R477, R481, R482), the wardens and cores of the supervisor (R17, R18), and the collection of
counters. -/

namespace Sys2Proof.Machine

/-! ### SUP reset (R481) -/

/-- A warden as PD-SUP's restart leaves it: only one given up stays so, until COLD or WARM (R17). -/
def Warden.restarted (w : Warden) : Warden := { standIn := w.givenUp, givenUp := w.givenUp, collectAt := w.collectAt }

/-- Time bases under discipline are in HOLDOVER while Bister restarts (R371). -/
def State.holdTime (s : State) : State :=
  (List.range 4).foldl (fun (s : State) n => if s.rd timTbSrc n = 0 || s.rd timTbState n = 4 then s else (s.wr timTbState 3 n).modTb n (fun t => { t with lockRun := 0 })) s

/-- PD-SUP restarts (R481): fetching has stopped, MBX_BOOT is SUP_RESTART, wardens and Bister are away; calls run on. -/
def State.supRestart (s : State) : State :=
  let s1 := (s.resetRegs .sup).holdTime
  let s2 := { s1 with
    sup := { s1.sup with restarting := true, restartAt := s.now }
    img := { s1.img with supRestartAt := s.now, fellBack := false } }
  let s3 := (List.range 6).foldl (fun (s : State) w => s.modWarden w Warden.restarted) s2
  (((s3.wr supResetBusy 1).wr supResetLast 2).wr mbxBootReason (s.rd mbxBootReason)).boot 7

/-- A SUP reset is requested (R474, R477). One that meets a reset of its scope or wider is absorbed and counts as taken; where no
image runs there is nothing to restart: DESIGN CHOICE (log 47). -/
def supReset (s : State) : State :=
  let s1 := s.bump supResetsSup
  if s.inReset 2 || !s.served then s1 else s1.supRestart

/-- Late events are stamped when Bister returns (R386). -/
def State.flushLate (s : State) : State :=
  s.sup.lateEvents.foldl (fun (s : State) e => s.raiseRec e.1 e.2) { s with sup := { s.sup with lateEvents := [] } }

/-- Completions and notices that waited for Bister are written (R431). -/
def State.flushDeferred (s : State) : State :=
  let s1 := s.sup.deferred.foldl (fun (s : State) d =>
    if d.final then s.completeFinal d.qid d.tag d.status d.res2 d.res3 else s.complete d.qid d.tag d.opcode d.status d.detail d.res2 d.res3)
    { s with sup := { s.sup with deferred := [] } }
  s.sup.lateNotices.foldl (fun (s : State) n => s.notice n.1 n.2.1 n.2.2.1 n.2.2.2) { s1 with sup := { s1.sup with lateNotices := [] } }

/-- The IMAGE_ACTIVATE that a SUP reset served completes (R482, R487): RESULT is the release now running. -/
def State.endActivation (s : State) : State :=
  match s.img.activSup with
  | none => s
  | some (q, tag) =>
    State.completeFinal { s with img := { s.img with activSup := none } } q tag (if s.img.fellBack then stINTERNAL else stOK) (s.rd supImgSupRelease) 0

/-- Bister returns (R481, R431): the epoch in force and READY or LIMITED are set anew, what waited is written, the inventory is rebuilt
and liveness refreshed. -/
def supReturn (s : State) : State :=
  if !s.sup.restarting then s else
  let s1 := State.nameImages { s with sup := { s.sup with restarting := false }, ring := { s.ring with liveAt := if s.ring.live then s.now else s.ring.liveAt } }
  let bad := match s1.img.running, s1.img.pack with
    | some r, some p => s1.heldPackFails r p
    | _, _ => none
  let s2 := (s1.enterService bad).flushLate.flushDeferred.endActivation
  ({ s2 with img := { s2.img with supRestartAt := 0, fellBack := false } }.readModules).invRebuild

def execSupReturn (s : State) : Out := .next (supReturn s)

/-- 1,000 ms without Bister's return (R482): PD-SUP restarts once more, from the previous image, or from the running image's own
copy where that has been discarded (R499). -/
def supFallback (s : State) : State :=
  if !s.sup.restarting || s.img.fellBack || s.now < s.img.supRestartAt + sec 1 then s else
  let run := match s.img.previous with
    | none => s.img.running
    | some p => some p
  let s1 := { s with img := { s.img with running := run, previous := none, fellBack := true } }
  (s1.bump supFallbacks).raise 0x0004 uSUP 0 0xFFFF ((run.map (·.release)).getD 0)

def execSupFallback (s : State) : Out := .next (supFallback s)

/-! ### Wardens (R15-R17) -/

/-- The clusters of a warden (R15): cluster c belongs to warden c mod 6. -/
def enginesOfWarden (w : Nat) : List Nat := (List.range 96).filter (fun e => e / 8 % 6 = w)

/-- The 100 µs watchdog poll (R17): the third unanswered poll in a row makes Bister stand in, raise WARDEN_FAILED and reset the
warden once. While Bister restarts nobody polls. -/
def wardenWatchdogPoll (w : Nat) (answered : Bool) (s : State) : State :=
  let x := s.warden w
  if s.sup.restarting || !s.served || x.standIn then s
  else if answered then s.modWarden w (fun x => { x with missed := 0 })
  else if x.missed + 1 < 3 then s.modWarden w (fun x => { x with missed := x.missed + 1 })
  else (s.modWarden w (fun x => { x with missed := 0, standIn := true, resetting := true })).raise 0x0002 uSUP w 0xFFFF w

def execWardenWatchdogPoll (w : WardenId) (answered : Bool) (s : State) : Out := .next (wardenWatchdogPoll w.val answered s)

/-- The warden's reset ends (R17): it resumes its duties, or Bister keeps them until COLD or WARM. -/
def wardenResetDone (w : Nat) (restored : Bool) (s : State) : State :=
  if !(s.warden w).resetting then s
  else s.modWarden w (fun x => { x with resetting := false, standIn := !restored, givenUp := !restored })

def execWardenResetDone (w : WardenId) (restored : Bool) (s : State) : Out := .next (wardenResetDone w.val restored s)

/-- One engine's counts are added to its counters (R308). -/
def State.collect (s : State) (e : Nat) : State :=
  let c := (s.eng e).count
  let s1 := ((((s.bumpBy supEngBundles c.bundles e).bumpBy supEngStalls c.stalls e).bumpBy supEngSkeins c.skeins e).bumpBy supEngGov c.gov e)
  let s2 := ((s1.bumpBy supEngFaults c.faults e).bumpBy supEngBudget c.budget e).bumpBy supEngEccCorr c.ecc e
  s2.modEng e (fun x => { x with count := {} })

/-- Counters of a warden's engines are collected every 1 ms, every 4 ms while Bister stands in (R17), never while Bister restarts
(R481). -/
def counterCollection (w : Nat) (s : State) : State :=
  let x := s.warden w
  if s.sup.restarting || s.now < x.collectAt then s else
  let s1 := (enginesOfWarden w).foldl State.collect s
  s1.modWarden w (fun x => { x with collectAt := s.now + ms (if x.standIn then 4 else 1) })

def execCounterCollection (w : WardenId) (s : State) : Out := .next (counterCollection w.val s)

/-! ### Lockstep (R18) -/

/-- The new pair: the spare and the lowest former core that passes; with no spare the passing former cores; one core alone is
DEGRADED. -/
def newCores (l : Lockstep) (low high : Bool) : Lockstep :=
  let a := min l.lead (l.second.getD l.lead)
  let b := max l.lead (l.second.getD l.lead)
  match l.spare with
  | some s =>
    if low then { lead := min s a, second := some (max s a), spare := if high then some b else none }
    else if high then { lead := min s b, second := some (max s b), spare := none }
    else { lead := s, second := none, spare := none }
  | none =>
    if low && high then { lead := a, second := some b, spare := none }
    else if high then { lead := b, second := none, spare := none }
    else { lead := a, second := none, spare := none }

/-- DETAIL0 of a LOCKSTEP event: the cores paired, the lower in [7:0] and the higher in [15:8], 0xFF for none. -/
def coresPaired (l : Lockstep) : Nat := l.lead + (l.second.getD 0xFF) * 256

/-- The lockstep cores disagree (R18): the pair is formed anew and Bister restarts through a SUP reset. A supervisor without lockstep
compares nothing. -/
def lockstepMismatch (low high : Bool) (s : State) : State :=
  if s.sup.cores.second.isNone then s else
  let c := newCores s.sup.cores low high
  let s1 := supReset { s with sup := { s.sup with cores := c } }
  s1.raise 0x0003 uSUP 0 0xFFFF (coresPaired c) 0 (b2n c.second.isNone)

def execLockstepMismatch (lowPasses highPasses : Bool) (s : State) : Out := .next (lockstepMismatch lowPasses highPasses s)

end Sys2Proof.Machine
end

