-- ==== Sys2Proof/Machine/Update.lean ====
section
/-! DEFINITION. In-service update (R485-R489): staging, activation and rollout; SVN commits (R499), SPDM (R501) and service
access (R503, R504). -/

namespace Sys2Proof.Machine

/-! ### IMAGE_STAGE (R425, R427, R485) -/

/-- The read requests of an image, one per line of host memory (R395); the last carries what the host returns. `res2` is the KIND. -/
def lineReads (q tag addr kind : Nat) (image : List Byte) : Nat → List CacheReq
  | 0 => []
  | 1 => [{ serves := 3, qid := q, tag := tag, addr := addr, write := false, last := true, res2 := kind, data := image }]
  | n + 1 => { serves := 3, qid := q, tag := tag, addr := addr, write := false, last := false, res2 := kind } :: lineReads q tag (addr - addr % 64 + 64) kind image n

/-- Lines of host memory that a buffer touches, at least one. -/
def linesOf (addr len : Nat) : Nat := max 1 ((addr % 64 + len + 63) / 64)

/-- A stage of a KIND reads its image. -/
def State.staging (s : State) (kind : Nat) : Bool := (s.host.cacheOut ++ s.host.cacheWait).any (fun r => r.serves = 3 && r.res2 = kind)

/-- An activation of a KIND runs. -/
def State.activating (s : State) (kind : Nat) : Bool := if kind = 0 then s.img.activSup.isSome else s.img.target.isSome

/-- The bytes read of the host's buffer: as many as the command names. -/
def readBytes (len : Nat) (l : List Byte) : List Byte := l.take len ++ List.replicate (len - l.length) 0

/-- IMAGE_STAGE: ACCEPTED, then the image is read through CXL.cache. -/
def applyStage (c : HostCmd) (image : List Byte) (s : State) : Reply :=
  let kind := bits c.w1.toNat 0 2
  let len := c.w4.toNat
  if kind > 1 then .refuse stBAD_PARAM 8
  else if s.staging kind || s.activating kind then .refuse stBUSY 0
  else .accepted (s.cacheIssue (lineReads c.qid.val c.tag.toNat c.w3.toNat kind (readBytes len image) (linesOf c.w3.toNat len)))

def imageStage (c : HostCmd) (image : List Byte) (s : State) : State :=
  runCommand c 0x70 [(1, 3), (3, 0xFFFFFFFFFFFFFFFF), (4, 0xFFFFFFFFFFFFFFFF)] false (applyStage c image) s

def execImageStageSup (c : HostCmd) (image : List Byte) (s : State) : Out := .next (imageStage c image s)
def execImageStagePack (c : HostCmd) (image : List Byte) (s : State) : Out := .next (imageStage c image s)

/-- The whole image has been read: the checks of Table 20.6, and what passes is staged. RESULT: its interface epoch and release. -/
def State.stageEnd (s : State) (q tag kind : Nat) (l : List Byte) : State :=
  match (if kind = 0 then s.supChecks l else s.packChecks l), parseImage l with
  | none, some p =>
    let s1 := if kind = 0 then { s with img := { s.img with stagedSup := some p } }.wr supImgStagedSup 1
      else { s with img := { s.img with stagedPack := some p } }.wr supImgStagedPack 1
    s1.completeFinal q tag stOK p.ifHi p.release
  | some (st, check), _ => (s.imageRefused kind check).completeFinal q tag st 0 0
  | none, none => s.completeFinal q tag stBAD_PARAM 0 0

/-! ### IMAGE_ACTIVATE KIND 0 (R487, R489) -/

/-- The activation waits: an earlier taken command has not completed, or a rollout runs. -/
def State.activateWaits (s : State) (c : HostCmd) : Bool :=
  !(s.sup.taken.takeWhile (fun t => !(t.qid = c.qid.val && t.tag = c.tag.toNat))).isEmpty || s.flag supRolloutActive

/-- The checks are repeated; then the staged image takes the running one's place, which stays the previous copy. -/
def applyActivateSup (c : HostCmd) (s : State) : Reply :=
  match s.img.stagedSup with
  | none => .refuse stBAD_STATE 0
  | some p =>
    match s.supChecks p.raw with
    | some (st, check) => .fail (s.imageRefused 0 check) st 0
    | none => .accepted ({ s with img := { s.img with
        previous := s.img.running, running := some p, stagedSup := none, activSup := some (c.qid.val, c.tag.toNat) } }.wr supImgStagedSup 0)

/-- IMAGE_ACTIVATE KIND 0: it is held, recorded as taken, while it waits; once ACCEPTED it runs a SUP reset. -/
def activateSup (c : HostCmd) (s : State) : State :=
  let s1 := s.taking c.qid.val c.tag.toNat 0x71 c.w1.toNat
  if s.served && s1.activateWaits c && !s.flag secService && !s.flag secErasing then s1
  else
    let t := runCommand c 0x71 [(1, 3)] false (applyActivateSup c) s
    if t.img.activSup.isSome && s.img.activSup.isNone then supReset t else t

/-! ### IMAGE_ACTIVATE KIND 1 and the rollout (R488, R489) -/

/-- The staged pack becomes the pack that a rollout brings. -/
def applyActivatePack (c : HostCmd) (s : State) : Reply :=
  match s.img.stagedPack with
  | none => .refuse stBAD_STATE 0
  | some p =>
    match s.packChecks p.raw with
    | some (st, check) => .fail (s.imageRefused 1 check) st 0
    | none =>
      if s.img.target.isSome then .refuse stBUSY 0
      else .accepted (((({ s with img := { s.img with
        target := some (mergePack s.img.pack p), stagedPack := none, activPack := some (c.qid.val, c.tag.toNat), rolloutNext := 0, rolloutEng := [] } }.wr supImgStagedPack 0).wr supRolloutActive 1).wr supRolloutDomains 0))

def activatePack (c : HostCmd) (s : State) : State := runCommand c 0x71 [(1, 3)] false (applyActivatePack c) s

/-- IMAGE_ACTIVATE by its KIND. -/
def imageActivate (c : HostCmd) (s : State) : State :=
  match bits c.w1.toNat 0 2 with
  | 0 => activateSup c s
  | 1 => activatePack c s
  | _ => runCommand c 0x71 [(1, 3)] false (fun _ => .refuse stBAD_PARAM 8) s

def execImageActivateSup (c : HostCmd) (s : State) : Out := .next (imageActivate c s)
def execImageActivatePack (c : HostCmd) (s : State) : Out := .next (imageActivate c s)

/-- Engines of an engine domain. -/
def enginesOf (d : Nat) : List Nat := (List.range 4).map (fun i => 4 * d + i)

/-- The domain of the turn: the first from `d` on that has an engine in service, or one the rollout has retired. -/
def State.rolloutDomain (s : State) (d : Nat) : Option Nat :=
  ((List.range 24).filter (fun x => decide (d ≤ x))).find? (fun x =>
    bit (s.rd pwrEngOn) x && (enginesOf x).any (fun e => (s.me e).service = 0 || ((s.me e).byRollout && decide ((s.me e).service ≤ 2))))

/-- The rollout has ended: the pack is active, the command completes, and LIMITED service is over (R486). -/
def State.rolloutEnd (s : State) : State :=
  let s1 := State.nameImages { s with img := { s.img with pack := s.img.target, target := none, activPack := none, rolloutEng := [], rolloutNext := 24 } }
  let s2 := (s1.wr supRolloutActive 0).wr supRolloutDomains 24
  let s3 := if s2.rd mbxBootState = 6 then s2.enterService none else s2
  match s.img.activPack with
  | none => s3
  | some (q, tag) => s3.completeFinal q tag stOK (s3.rd supImgPackRelease) 0

/-- The engines of a domain retired by the rollout are reset and return to service (R488, R311). -/
def State.rolloutRestore (s : State) (d : Nat) : State :=
  let mine := (enginesOf d).filter (fun e => (s.me e).byRollout && (s.me e).service = 2)
  let s1 := mine.foldl (fun (s : State) e => ((s.engineReset e).modMe e (fun m => { m with service := 0, byRollout := false, faultTimes := [] })).idle e) s
  { s1 with img := { s1.img with rolloutNext := d + 1 } }.wr supRolloutDomains (d + 1)

/-- The engines in service of a domain are retired for the rollout. -/
def State.rolloutRetire (s : State) (d : Nat) : State :=
  ((enginesOf d).filter (fun e => (s.me e).service = 0)).foldl (fun (s : State) e => s.retire e none true) s

/-- The rollout's engines of a domain are all empty. -/
def State.rolloutReady (s : State) (d : Nat) : Bool := (enginesOf d).all (fun e => (s.me e).service != 0 && !((s.me e).byRollout && (s.me e).service = 1))

/-- The next turn of a rollout (R488): the domain's engines are retired once the load allows, reset once they are empty, and restored; the
last turn ends it. It is suspended while Bister is away (R489). -/
def rolloutDomainTurn (s : State) : State :=
  if !s.flag supRolloutActive || !s.served then s else
  match s.rolloutDomain s.img.rolloutNext with
  | none => s.rolloutEnd
  | some d =>
    let up := ((enginesOf d).filter (fun e => (s.me e).service = 0)).length
    if up != 0 && decide (s.serving.length < s.rd supLoadLimit + up) then s
    else
      let s1 := s.rolloutRetire d
      let s2 := if s1.rolloutReady d then s1.rolloutRestore d else s1
      if s1.rolloutReady d && (s2.rolloutDomain (d + 1)).isNone then s2.rolloutEnd else s2

def execRolloutDomainTurn (s : State) : Out := .next (rolloutDomainTurn s)

/-! ### SVN commits (R499) -/

/-- A write of SEC_SVN_COMMIT: a 1 raises the KIND's floor to the SVN that runs; a previous supervisor copy below it is discarded. -/
def secSvnCommit (width v : Nat) (s : State) : State :=
  let own := fun (d : RegDesc) => d = secSvnCommitSup || d = secSvnCommitPack
  let set := fun (d : RegDesc) => goodAccess 0xE0028 width && decide (writtenTo d 0 0 0xE0028 width v = some 1)
  let s0 := s.writeRegBut own 0xE0028 width v
  let s1 := match s0.img.running with
    | some r => if set secSvnCommitSup then s0.wr secSvnFloorSup (max r.svn (s0.rd secSvnFloorSup)) else s0
    | none => s0
  let s2 := match s1.img.pack with
    | some p => if set secSvnCommitPack then s1.wr secSvnFloorPack (max p.svn (s1.rd secSvnFloorPack)) else s1
    | none => s1
  { s2 with img := { s2.img with previous := s2.img.previous.filter (fun p => decide (s2.rd secSvnFloorSup ≤ p.svn)) } }

def execSecSvnCommit (width : Nat) (value : Word64) (s : State) : Out := .next (secSvnCommit width value.toNat s)

/-! ### SPDM (R397, R501) -/

/-- The bytes of an answer over DOE. -/
def State.spdmAnswer (s : State) (l : List Byte) : State := { s with host := { s.host with spdmReply := l } }

/-- Measurement `index` (R501). -/
def State.measurement (s : State) (index : Nat) : Nat :=
  match index with
  | 1 => Config.romDigest
  | 2 => Config.digest ((s.img.running.map (·.signed)).getD [])
  | 3 => Config.digest ((s.img.pack.map (fun p => p.signed ++ p.extSigned)).getD [])
  | _ => Config.digest (leBytes 1 (s.rd secLifecycle) ++ leBytes 1 (s.rd secKeyRevoked) ++ leBytes 2 (s.rd secSvnFloorSup) ++ leBytes 2 (s.rd secSvnFloorPack))

/-- One measurement block: its index and SHA-384. -/
def State.measureBlock (s : State) (index : Nat) : List Byte := leBytes 1 index ++ beBytes 48 (s.measurement index)

/-- GET_MEASUREMENTS: index 1 to 4 one block, 0 their number, 0xFF all of them, another an empty answer. The framing is SPDM's:
PRESUMED (log 48). -/
def getMeasurements (index : Nat) (s : State) : State :=
  if index = 0 then s.spdmAnswer (leBytes 1 4)
  else if index = 0xFF then s.spdmAnswer ([1, 2, 3, 4].flatMap s.measureBlock)
  else if index ≤ 4 then s.spdmAnswer (s.measureBlock index)
  else s.spdmAnswer []

def execGetMeasurements (index : Nat) (s : State) : Out := .next (getMeasurements index s)

/-- The requests that need the device identity key. -/
def needsIdentity : SpdmRequest → Bool
  | .challenge _ | .keyExchange _ => true
  | _ => false

/-- IDE_KM requests are served inside a session (R397). -/
def needsSession : SpdmRequest → Bool
  | .ideKeyProg _ _ | .ideKeySetGo _ | .ideKeySetStop _ => true
  | _ => false

/-- What a request changes: the session, and the IDE keys of a stream. -/
def State.spdmEffect (s : State) (m : SpdmRequest) : State :=
  let v := s.sup.vault
  match m with
  | .finish => { s with host := { s.host with spdmSession := true } }
  | .endSession => { s with host := { s.host with spdmSession := false } }
  | .ideKeyProg stream key => { s with sup := { s.sup with vault := { v with ideKeys := tins v.ideKeys stream key } } }
  | .ideKeySetGo stream => { s with sup := { s.sup with vault := { v with ideGo := if v.ideGo.contains stream then v.ideGo else v.ideGo ++ [stream] } } }
  | .ideKeySetStop stream => { s with sup := { s.sup with vault := { v with ideGo := v.ideGo.filter (· != stream) } } }
  | _ => s

/-! ### CDAT (R398) -/

/-- An entry of the CDAT as ACPI's table has it, PRESUMED (log 114): the head, DSMAS of the host-visible range as the decoder covers it
(R393), and a DSLBIS of its read latency, write latency, read bandwidth and write bandwidth: 700 ns, and 48 GB/s. -/
def State.cdatEntry (s : State) (i : Nat) : Option (List Byte) :=
  let dslbis := fun (kind unit value : Nat) =>
    leBytes 1 1 ++ leBytes 1 0 ++ leBytes 2 24 ++ leBytes 1 0 ++ leBytes 1 0 ++ leBytes 1 kind ++ leBytes 1 0 ++ leBytes 8 unit ++ leBytes 2 value ++ leBytes 6 0
  match i with
  | 1 => some (leBytes 1 0 ++ leBytes 1 0 ++ leBytes 2 24 ++ leBytes 1 0 ++ leBytes 3 0 ++ leBytes 8 0 ++ leBytes 8 (s.hsBytes + 2 ^ 28))
  | 2 => some (dslbis 1 1000 700)
  | 3 => some (dslbis 2 1000 700)
  | 4 => some (dslbis 4 1000 48)
  | 5 => some (dslbis 5 1000 48)
  | _ => none

/-- The 16-byte head of the CDAT: length, revision 1, a checksum that makes the bytes' sum 0, sequence number 0. -/
def State.cdatHead (s : State) : List Byte :=
  let l := (List.range 5).flatMap (fun i => (s.cdatEntry (i + 1)).getD [])
  let total := 16 + l.length
  let sum := (leBytes 4 total ++ leBytes 1 1 ++ l).foldl (fun a b => a + b.toNat) 0
  leBytes 4 total ++ leBytes 1 1 ++ leBytes 1 (256 - sum % 256) ++ leBytes 6 0 ++ leBytes 4 0

/-- A read of CDAT entry `i` over DOE: the handle of the next entry, 0xFFFF after the last, and the entry; none where it does not exist. -/
def State.cdatRead (s : State) (i : Nat) : List Byte :=
  let entry := if i = 0 then some s.cdatHead else s.cdatEntry i
  (entry.map (fun l => leBytes 2 0 ++ leBytes 2 (if i < 5 then i + 1 else 0xFFFF) ++ l)).getD []

/-- Another SPDM or IDE_KM request, or a read of the CDAT: its answer is SPDM 1.2's; a part of the certificate chain of slot 0 is that part. -/
def spdmMessage (m : SpdmRequest) (s : State) : State :=
  if (needsIdentity m && !s.sup.vault.identity) || (needsSession m && !s.host.spdmSession) then s.spdmAnswer []
  else
    let s1 := (s.spdmEffect m).draw
    match m with
    | .readCdat i => s1.spdmAnswer (s1.cdatRead i)
    | .getCertificate slot off len => s1.spdmAnswer (if slot = 0 then (Config.certificates.drop off).take len else [])
    | _ => s1.spdmAnswer (Config.spdmAnswer m s.freeCtr)

def execSpdmMessage (m : SpdmRequest) (s : State) : Out := .next (spdmMessage m s)

/-! ### Service access (R503, R504) -/

/-- The lifecycle state allows service access (Table 21.7). -/
def State.serviceAllowed (s : State) : Bool :=
  match s.rd secLifecycle with
  | 0 => true
  | 1 => s.flag secServiceAllow
  | 2 => true
  | _ => false

/-- DENIED: UNLOCK_REFUSED and a count. -/
def State.unlockDenied (s : State) : State := (s.bump secUnlockFail).raise 0x0061 uSUP 0 0xFFFF stDENIED

/-- PHASE 0: a challenge is drawn and returned; it is a free value (log 2). -/
def unlockPhase0 (c : HostCmd) (s : State) : Reply :=
  if c.w2 != 0 then .refuse stBAD_PARAM (16 + lowestBit 64 c.w2.toNat / 8)
  else if !s.serviceAllowed then .fail s.unlockDenied stDENIED 0
  else
    let ch := BitVec.ofNat 128 (Config.freeNat s.freeCtr)
    let s1 := s.draw
    .done { s1 with sup := { s1.sup with vault := { s1.sup.vault with challenge := some ch, challengeAt := s.now } } }
      (ch.toNat % 2 ^ 64) (ch.toNat / 2 ^ 64)

/-- Commands taken and not applied complete with BUSY. -/
def State.busyTaken (s : State) : State :=
  (s.sup.taken.filter (fun t => !t.applied)).foldl (fun (s : State) t => s.complete t.qid t.tag t.opcode stBUSY 0 0 0) s

/-- Steps 1 and 2 of R504: ERASING, Memory_Active clear, liveness fails, the grace begins. -/
def State.eraseBegin (s : State) : State :=
  let s1 := (State.wr { s with host := { s.host with memActive := false }, img := { s.img with eraseAt := some (s.now + ms 10) } } secErasing 1).busyTaken
  s1.selfFence

/-- PHASE 1: its challenge serves this once. A part in TEST opens without erasure (Table 21.7). -/
def unlockPhase1 (c : HostCmd) (s0 : State) : Reply :=
  let s := s0.scrub c
  let used : State := { s with sup := { s.sup with vault := { s.sup.vault with challenge := none } } }
  match s0.groupsOf c [15] [15] with
  | .error d => .fail used stBAD_PARAM d
  | .ok gs =>
    if !(liveChans s).isEmpty then .fail used stBAD_STATE 0
    else match s.sup.vault.challenge with
    | none => .fail used stTIMEOUT 0
    | some ch =>
      if s.sup.vault.challengeAt + sec 60 < s.now then .fail used stTIMEOUT 0
      else if !s.serviceAllowed || !Config.serviceSigned ch.toNat (s.rd secSerial) (grp gs 15).ws then .fail used.unlockDenied stDENIED 0
      else .done used 0 0

/-- What follows the OK of a phase 1 that passed. -/
def State.unlocked (s : State) : State :=
  if s.rd secLifecycle = 0 then (State.wr { s with pwr := { s.pwr with testPort := true } } secService 1).raise 0x0062 uSUP
  else s.eraseBegin

/-- SERVICE_UNLOCK by its PHASE. The phase 1 that passes is the one that turns the challenge in with OK. -/
def serviceUnlock (c : HostCmd) (s : State) : State :=
  if bits c.w1.toNat 0 1 = 0 then runCommand c 0xF0 [(1, 1)] true (unlockPhase0 c) s
  else
    let passes := match unlockPhase1 c (s.taking c.qid.val c.tag.toNat 0xF0 c.w1.toNat) with
      | .done _ _ _ => true
      | _ => false
    let t := runCommand c 0xF0 [(1, 1)] true (unlockPhase1 c) s
    if passes && s.sup.vault.challenge.isSome && t.sup.vault.challenge.isNone then t.unlocked else t

def execServiceUnlockChallenge (c : HostCmd) (s : State) : Out := .next (serviceUnlock c s)
def execServiceUnlockResponse (c : HostCmd) (s : State) : Out := .next (serviceUnlock c s)

/-- The vault zeroised: only the fuse secret stays, and the identity key may not be derived until COLD. -/
def erasedVault (v : Vault) : Vault := { partitionGen := v.partitionGen, identity := false, zeroised := true }

/-- A port with nothing in it. -/
def emptyPort (p : Port) : Port :=
  { stage := p.stage, lanes := p.lanes, modInfo := p.modInfo, modReady := p.modReady, modUnread := p.modUnread, modApp := p.modApp,
    modFlags := p.modFlags, monitors := p.monitors, monitorAt := p.monitorAt, lowPower := p.lowPower }

/-- Mordant with nothing to schedule: which engines serve stays. -/
def State.idleMor (s : State) : Mordant :=
  { engines := (List.range 96).foldl (fun t e => tset t e { service := (s.me e).service, idleSince := some s.now } {}) [] }

/-- The grace ends (R504): the vault is zeroised, every on-chip SRAM and every memory whose key is gone is empty, service access
opens. What encrypted partitions still hold cannot be read: the model keeps nothing of them (log 49). -/
def erasureGraceEnd (s : State) : State :=
  if !s.img.eraseAt.any (fun t => decide (t ≤ s.now)) then s else
  let s1 : State := { s with
    sup := { s.sup with vault := erasedVault s.sup.vault }
    ing := {}, chans := [], slots := [], mor := s.idleMor, engines := [], saved := [], weldU := {}, glaze := {}
    mem := { s.mem with hostShared := [], frameMap := [], caches := [] }
    cap := {}
    ring := { s.ring with mirror := [], home := [] }
    img := { s.img with eraseAt := none, stagedSup := none, stagedPack := none, previous := none, target := none }
    pwr := { s.pwr with testPort := true } }
  let s2 := (List.range 4).foldl (fun (s : State) b => (s.wr flwSeed 0 b).modPort b emptyPort) s1
  ((s2.wr secErasing 0).wr secService 1).raise 0x0062 uSUP

def execErasureGraceEnd (s : State) : Out := .next (erasureGraceEnd s)

end Sys2Proof.Machine
end

