-- ==== Sys2Proof/Machine/Capture.lean ====
section
/-! DEFINITION. Capture and Lake (spec/18_capture_compression.md): replay buffers and port captures, exports and their freeze,
the pcapng content, the stream state. -/

namespace Sys2Proof.Machine

/-! ### CAPTURE_START (R434-R439) -/

/-- A source has a capture. -/
def State.captured (s : State) (src : Nat) : Bool := s.cap.caps.any (fun e => e.1 = src)

/-- A capture of `n` bytes begins, in frames of its own where some are free (log 33). -/
def State.startCapture (s : State) (src n : Nat) (c : Capture) : State :=
  let s1 := (State.allocRing ((n + 2 ^ 26 - 1) / 2 ^ 26) s src).getD s
  { s1 with cap := { s1.cap with caps := tins s1.cap.caps src c } }

/-- Bytes reserved for a replay buffer (R434). -/
def replayBytes (c : Chan) (secs : Nat) : Nat :=
  secs * (if cancellerFs c = 1 then 16000 else 8000) * 4 + 16 * (secs * 1000 / periodMs c.rx.period)

/-- KIND 0: a channel's replay buffer. -/
def applyReplayStart (c : HostCmd) (s : State) : Reply :=
  let ch := bits c.w1.toNat 16 16
  let secs := bits c.w1.toNat 32 7
  let x := s.chan ch
  match s.groupsOf c [] [] with
  | .error d => .refuse stBAD_PARAM d
  | .ok _ =>
    if secs = 0 || secs > 120 then .refuse stBAD_PARAM 12
    else if (x.st != .open && x.st != .bound) || s.captured ch then .refuse stBAD_STATE 0
    else if !s.canReserve (replayBytes x secs) then .refuse stNO_RESOURCE 0
    else .done (s.startCapture ch (replayBytes x secs) { capacity := replayBytes x secs }) 0 0

/-- The DETAIL of the first filter whose PORT_LO lies above its PORT_HI (R438). -/
def filterFault (g : Grp) : Option Nat :=
  ((List.range (g.ws.length / 3)).find? (fun i => decide (g.f (3 * i) 32 16 < g.f (3 * i) 16 16))).map (fun i => g.detail (3 * i) 16)

/-- KIND 1: capture on a port. -/
def applyPortStart (c : HostCmd) (s : State) : Reply :=
  let p := bits c.w1.toNat 2 2
  let mib := bits c.w3.toNat 0 32
  let snap := bits c.w3.toNat 32 16
  match s.groupsOf c [16] [] with
  | .error d => .refuse stBAD_PARAM d
  | .ok gs =>
    let g := grpOf gs 16
    if mib = 0 || mib > 65536 then .refuse stBAD_PARAM 24
    else if snap < 64 || snap > 9600 then .refuse stBAD_PARAM 28
    else match g.bind filterFault with
    | some d => .refuse stBAD_PARAM d
    | none =>
      if s.captured (65536 + p) then .refuse stBAD_STATE 0
      else if !s.canReserve (mib * 2 ^ 20) then .refuse stNO_RESOURCE 0
      else .done (s.startCapture (65536 + p) (mib * 2 ^ 20) { capacity := mib * 2 ^ 20, snaplen := snap, filters := (g.map filtersOf).getD [] }) 0 0

/-- KIND 2 and 3: the capture stops. DEDUCED (log 50): where none runs the command is not allowed. -/
def applyStop (src : Nat) (c : HostCmd) (s : State) : Reply :=
  match s.groupsOf c [] [] with
  | .error d => .refuse stBAD_PARAM d
  | .ok _ => if s.cap.caps.any (fun e => e.1 = src && !e.2.stopping) then .done (s.stopCapture src) 0 0 else .refuse stBAD_STATE 0

/-- CAPTURE_START by its KIND. -/
def captureStart (c : HostCmd) (s : State) : State :=
  runCommand c 0x40 [(1, 0x7FFFFF000F), (3, 0xFFFFFFFFFFFF)] true (fun s =>
    match bits c.w1.toNat 0 2 with
    | 0 => applyReplayStart c s
    | 1 => applyPortStart c s
    | 2 => applyStop (bits c.w1.toNat 16 16) c s
    | _ => applyStop (65536 + bits c.w1.toNat 2 2) c s) s

def execReplayStart (c : HostCmd) (s : State) : Out := .next (captureStart c s)
def execPortCaptureStart (c : HostCmd) (s : State) : Out := .next (captureStart c s)
def execReplayStop (c : HostCmd) (s : State) : Out := .next (captureStart c s)
def execPortCaptureStop (c : HostCmd) (s : State) : Out := .next (captureStart c s)

/-! ### CAPTURE_EXPORT (R440, R441, R445, R446) -/

/-- The time of a source's stamps now (R440). -/
def State.sourceTime (s : State) (src : Nat) : Nat :=
  if src ≥ 65536 then s.tbVal (s.rd timPortRxTb (src - 65536)) else s.tbVal (s.chan src).tb

/-- Number of the first record at or after a time; past the last where there is none. -/
def firstFrom (t next : Nat) (l : List CapRec) : Nat := ((l.find? (fun r => decide (t ≤ r.time))).map (·.seq)).getD next

/-- The span of an export taken now: the failed one's within its 10 s, else what SPAN_S or CONTINUE names. -/
def State.exportSpan (s : State) (src secs : Nat) (cont : Bool) (x : Capture) : Nat × Nat :=
  match (if s.now < x.retryUntil then x.retrySpan else none) with
  | some sp => sp
  | none =>
    let lo := if cont then max x.contAt (firstFrom 0 x.nextSeq x.records)
      else firstFrom (if secs = 0 then 0 else s.sourceTime src - sec secs) x.nextSeq x.records
    (lo, x.nextSeq)

/-- Change the capture of a source. -/
def State.modCap (s : State) (src : Nat) (f : Capture → Capture) : State :=
  match s.cap.caps.find? (fun e => e.1 = src) with
  | none => s
  | some (_, c) => { s with cap := { s.cap with caps := tins s.cap.caps src (f c) } }

/-- CAPTURE_EXPORT: the cut is taken, its span frozen and the job queued. -/
def applyExport (c : HostCmd) (s : State) : Reply :=
  let w := c.w1.toNat
  let kind := bits w 0 2
  let level := bits w 32 4
  let wrap := bits w 36 2
  let cont := bit w 38
  let len := c.w4.toNat
  let src := if kind = 1 then 65536 + bits w 2 2 else bits w 16 16
  if kind > 1 then .refuse stBAD_PARAM 8
  else if level > 9 || wrap = 3 || (cont && wrap = 2) then .refuse stBAD_PARAM 12
  else if len < 64 || 2 ^ 40 < len then .refuse stBAD_PARAM 32
  else match s.cap.caps.find? (fun e => e.1 = src) with
  | none => .refuse stBAD_STATE 0
  | some (_, x) =>
    if x.exporting then .refuse stBUSY 0
    else if cont && !x.chained then .refuse stBAD_PARAM 12
    else
      let sp := s.exportSpan src (bits w 40 7) cont x
      let job : LakeJob := { source := src, qid := c.qid.val, tag := c.tag.toNat, level := level, wrap := wrap, cont := cont, addr := c.w3.toNat, length := len, spanLo := sp.1, spanHi := sp.2 }
      let s1 := s.modCap src (fun x => { x with frozen := some sp, exporting := true, retrySpan := none, retryUntil := 0 })
      .accepted { s1 with cap := { s1.cap with queue := s1.cap.queue ++ [job] } }

def captureExport (c : HostCmd) (s : State) : State :=
  runCommand c 0x41 [(1, 0x7F7FFFFF000F), (3, 0xFFFFFFFFFFFFFFFF), (4, 0xFFFFFFFFFFFFFFFF)] false (applyExport c) s

def execCaptureExport (c : HostCmd) (s : State) : Out := .next (captureExport c s)

/-! ### The file (R442) -/

/-- Bytes padded with zeros to a multiple of four. -/
def pad4 (l : List Byte) : List Byte := l ++ List.replicate ((4 - l.length % 4) % 4) 0

/-- Section Header Block. -/
def shb : List Byte := leBytes 4 0x0A0D0D0A ++ leBytes 4 28 ++ leBytes 4 0x1A2B3C4D ++ leBytes 2 1 ++ leBytes 2 0 ++ leBytes 8 0xFFFFFFFFFFFFFFFF ++ leBytes 4 28

/-- Interface Description Block with if_tsresol 9. -/
def idb (link snap : Nat) : List Byte :=
  leBytes 4 1 ++ leBytes 4 32 ++ leBytes 2 link ++ leBytes 2 0 ++ leBytes 4 snap ++ leBytes 2 9 ++ leBytes 2 1 ++ leBytes 4 9 ++ leBytes 4 0 ++ leBytes 4 32

/-- Enhanced Packet Block. -/
def epb (iface time orig : Nat) (data opts : List Byte) : List Byte :=
  let n := 32 + (pad4 data).length + opts.length
  leBytes 4 6 ++ leBytes 4 n ++ leBytes 4 iface ++ leBytes 4 (time / 2 ^ 32) ++ leBytes 4 time ++ leBytes 4 data.length ++ leBytes 4 orig ++ pad4 data ++ opts ++ leBytes 4 n

/-- A record as a block: a port's frame with epb_flags, or a replay frame behind its 8-byte head. -/
def recordBlock (src : Nat) (r : CapRec) : List Byte :=
  if src ≥ 65536 then epb 0 r.time r.orig r.data (leBytes 2 2 ++ leBytes 2 4 ++ leBytes 4 r.dir ++ leBytes 4 0)
  else
    let data := leBytes 8 (r.kind + r.rate * 8 + r.data.length / 2 * 2 ^ 16 + src * 2 ^ 32) ++ r.data
    epb r.dir r.time data.length data []

/-- The uncompressed content of an export; with CONTINUE the header blocks are left out. The snaplen of a replay buffer's interfaces is
not given: 0, no limit (DESIGN CHOICE, log 51). -/
def exportContent (src : Nat) (cont : Bool) (snap : Nat) (l : List CapRec) : List Byte :=
  let head := shb ++ (if src ≥ 65536 then idb 1 snap else idb 147 0 ++ idb 147 0)
  (if cont then [] else head) ++ l.flatMap (recordBlock src)

/-! ### Lake (R444, R445) -/

/-- Adler-32 (RFC 1950). -/
def adler32 (l : List Byte) : Nat :=
  let x := l.foldl (fun (a : Nat × Nat) b => let s1 := (a.1 + b.toNat) % 65521; (s1, (a.2 + s1) % 65521)) (1, 0)
  x.2 * 65536 + x.1

/-- The header of a zlib stream (RFC 1950): CM 8 with a 32 KiB window, FLEVEL, FDICT, and FCHECK, which makes the two bytes a multiple
of 31. -/
def zlibHeader (level : Nat) (fdict : Bool) : List Byte :=
  let h := 0x7800 + (Config.zlibLevel level).toNat * 64 + b2n fdict * 32
  beBytes 2 (h + (31 - h % 31))

/-- The header of a gzip stream (RFC 1952): no optional field (log 51). -/
def gzipHeader (level : Nat) : List Byte := [0x1F, 0x8B, 8, 0] ++ beBytes 6 (Config.gzipRest level).toNat

/-- What a job compresses, and the stream it makes of it. -/
def lakeStream (j : LakeJob) (c : Capture) : List Byte × List Byte :=
  let recs := c.records.filter (fun r => decide (j.spanLo ≤ r.seq) && decide (r.seq < j.spanHi))
  let content := exportContent j.source j.cont c.snaplen recs
  let dict := if j.cont then c.lake.window else []
  let table := if j.cont then c.lake.table else []
  let body := Config.deflate j.level dict table content
  let out := match j.wrap with
    | 1 => zlibHeader j.level j.cont ++ (if j.cont then beBytes 4 (adler32 dict) else []) ++ body ++ beBytes 4 (adler32 content)
    | 2 => gzipHeader j.level ++ body ++ leBytes 4 (crc32 content) ++ leBytes 4 content.length
    | _ => body
  (content, out)

/-- The stream state after a job that succeeded. -/
def lakeAfter (j : LakeJob) (c : Capture) (content : List Byte) : LakeState :=
  let dict := if j.cont then c.lake.window else []
  let all := dict ++ content
  let recs := c.records.filter (fun r => decide (j.spanLo ≤ r.seq) && decide (r.seq < j.spanHi))
  { window := all.drop (all.length - 32768), table := Config.lakeTable j.level dict (if j.cont then c.lake.table else []) content
    lastTime := (recs.getLast?.map (·.time)).getD c.lake.lastTime, exported := c.lake.exported + recs.length }

/-- A Lake unit takes the next job (R28, R444): what it writes goes to host memory, unless it does not fit. -/
def lakeJobStart (u : Nat) (s : State) : State :=
  match s.cap.queue with
  | [] => s
  | j :: rest =>
    if s.cap.running.any (fun e => e.1 = u) then s else
    let s1 := { s with cap := { s.cap with queue := rest, running := tins s.cap.running u j } }
    match s.cap.caps.find? (fun e => e.1 = j.source) with
    | none => s1
    | some (_, c) =>
      let out := (lakeStream j c).2
      if j.length < out.length then s1 else s1.cacheIssue (lineWrites 1 j.qid j.tag j.addr 0 0 (out.length + 1) out)

def execLakeJobStart (u : Fin 2) (s : State) : Out := .next (s.whileOn [28, 29] (lakeJobStart u.val))

/-- An export is over: the unit is free, and a capture that was to stop is gone. -/
def State.exportOver (s : State) (u : Nat) (j : LakeJob) (f : Capture → Capture) : State :=
  let s1 := State.modCap { s with cap := { s.cap with running := terase s.cap.running u } } j.source (fun c => { f c with exporting := false })
  if (s1.cap.caps.find? (fun e => e.1 = j.source)).any (fun e => e.2.stopping) then s1.stopCapture j.source else s1

/-- A failed export: the stream state is as before the job, the freeze stays for 10 s. -/
def State.exportFails (s : State) (u : Nat) (j : LakeJob) : State :=
  (s.exportOver u j (fun c => { c with retrySpan := some (j.spanLo, j.spanHi), retryUntil := s.now + sec 10 })).bump lakJobsFailed

/-- Writes of a command are still to come back from the host. -/
def State.cacheBusy (s : State) (serves q tag : Nat) : Bool :=
  (s.host.cacheOut ++ s.host.cacheWait).any (fun r => r.serves = serves && r.qid = q && r.tag = tag)

/-- An export ends (R443, R446): with OK and the bytes written once the host has returned GO for every write (R396), or with
NO_RESOURCE where its output does not fit. -/
def lakeJobEnd (u : Nat) (s : State) : State :=
  match s.cap.running.find? (fun e => e.1 = u) with
  | none => s
  | some (_, j) =>
    if s.cacheBusy 1 j.qid j.tag then s else
    match s.cap.caps.find? (fun e => e.1 = j.source) with
    | none => ((s.exportOver u j id).bump lakJobsFailed).completeFinal j.qid j.tag stINTERNAL 0 0
    | some (_, c) =>
      let r := lakeStream j c
      if j.length < r.2.length then (s.exportFails u j).completeFinal j.qid j.tag stNO_RESOURCE 0 0
      else
        let s1 := s.exportOver u j (fun c => { c with
          lake := lakeAfter j c r.1, chained := true, contAt := j.spanHi, frozen := none, retrySpan := none, retryUntil := 0 })
        (((s1.bump lakJobs).bumpBy lakBytesIn r.1.length).bumpBy lakBytesOut r.2.length).completeFinal j.qid j.tag stOK r.2.length 0

def execLakeJobEnd (u : Fin 2) (s : State) : Out := .next (s.whileOn [28, 29] (lakeJobEnd u.val))

/-- A host error ends the export of a command with DENIED (R396, R443). -/
def State.exportDenied (s : State) (q tag : Nat) : State :=
  match s.cap.running.find? (fun e => e.2.qid = q && e.2.tag = tag) with
  | none => s
  | some (u, j) => (s.exportFails u j).completeFinal q tag stDENIED 0 0

/-- 10 s after a failed export its freeze ends (R446). -/
def exportFreezeExpiry (src : Nat) (s : State) : State :=
  s.modCap src (fun c => if c.retrySpan.isSome && !c.exporting && c.retryUntil ≤ s.now then { c with frozen := none, retrySpan := none, retryUntil := 0 } else c)

def execExportFreezeExpiry (source : Nat) (s : State) : Out := .next (exportFreezeExpiry source s)

/-- An FLR or WARM reset abandons the exports under way (R446): they fail, and nobody is told. -/
def State.abandonExports (s : State) : State :=
  let s1 := s.cap.running.foldl (fun (s : State) e => (s.exportFails e.1 e.2).completeFinal 64 0 stDENIED 0 0) s
  let s2 := s1.cap.queue.foldl (fun (s : State) j => (s.exportFails 2 j).completeFinal 64 0 stDENIED 0 0) s1
  { s2 with cap := { s2.cap with queue := [] } }

/-! ### Stream states (R447) -/

/-- The source that LAK_STATE_CTL names. -/
def State.lakSourceOf (s : State) : Nat := if s.flag lakSource then 65536 + s.rd lakPort else s.rd lakChanId

/-- The image of a stream state without its CRC. Content shorter than the window lies at its beginning: DESIGN CHOICE (log 51). -/
def State.stateBody (s : State) (src : Nat) (l : LakeState) : List Byte :=
  let fill := fun (n : Nat) (b : List Byte) => b.take n ++ List.replicate (n - b.length) 0
  fill 32768 l.window ++ fill 16320 l.table ++ leBytes 8 l.lastTime ++ leBytes 8 l.exported ++
    leBytes 8 (l.window.length + (if src ≥ 65536 then 2 ^ 16 + (src - 65536) * 2 ^ 17 else src * 2 ^ 32)) ++
    leBytes 8 (0xB0 + s.supRelease * 2 ^ 16) ++ List.replicate 28 0

/-- The image: the state as it stands, and its CRC-32. -/
def State.stateImage (s : State) (src : Nat) (l : LakeState) : List Byte :=
  let b := s.stateBody src l
  b ++ leBytes 4 (crc32 b)

/-- The operation has ended: GO clears. -/
def State.lakEnds (s : State) (d : RegDesc) : State := (s.wr lakGo 0).wr d 1

/-- The source of an operation has no running capture, or an export of it is queued or runs. -/
def State.lakRefused (s : State) (src : Nat) : Bool := !(s.cap.caps.find? (fun e => e.1 = src)).any (fun e => !e.2.stopping && !e.2.exporting)

/-- Tag under which a stream state's requests run: they belong to no command. -/
def lakReads (addr src : Nat) (image : List Byte) : List CacheReq :=
  (lineReads 64 0 addr 0 image 768).map (fun r => { r with serves := 4, res2 := 2, res3 := src })

/-- A write of LAK_STATE_CTL: a GO that is accepted saves the state to host memory or reads an image from there. `image`: what the host
holds at LAK_STATE_ADDR. -/
def lakStateCtl (width v : Nat) (image : List Byte) (s : State) : State :=
  let go := fun (a : Nat) => goodAccess a width && decide (writtenTo lakGo 0 0 a width v = some 1)
  let addr := if width = 64 then 0xD0000 else 0xD0004
  if !go addr || s.flag lakGo then s.writeReg addr width v else
  let s1 := s.writeReg addr width v
  if s1.lakRefused s1.lakSourceOf || (s1.rd lakOp != 1 && s1.rd lakOp != 2) then s1.lakEnds lakErr
  else if s1.rd lakOp = 1 then
    let l := ((s1.cap.caps.find? (fun e => e.1 = s1.lakSourceOf)).map (·.2.lake)).getD {}
    s1.cacheIssue (lineWrites 4 64 0 (s1.rd lakStateAddr) 1 s1.lakSourceOf 768 (s1.stateImage s1.lakSourceOf l))
  else s1.cacheIssue (lakReads (s1.rd lakStateAddr) s1.lakSourceOf (readBytes 49152 image))

def execLakeStateSave (width : Nat) (value : Word64) (s : State) : Out := .next (lakStateCtl width value.toNat [] s)
def execLakeStateRestore (width : Nat) (value : Word64) (image : List Byte) (s : State) : Out := .next (lakStateCtl width value.toNat image s)

/-- A restore image holds: its CRC, stepping and release. -/
def State.imageHolds (s : State) (l : List Byte) : Bool :=
  crc32 (l.take 49148) = leAt l 49148 4 && leAt l 49112 1 = 0xB0 && leAt l 49114 2 = s.supRelease && decide (leAt l 49104 2 ≤ 32768)

/-- The stream state of an image. -/
def lakeOf (l : List Byte) : LakeState :=
  { window := l.take (leAt l 49104 2), table := (l.drop 32768).take 16320, lastTime := leAt l 49088 8, exported := leAt l 49096 8 }

/-- A stream-state operation on a source: its last request has come back. -/
def State.lakDoneOp (s : State) (op src : Nat) (l : List Byte) : State :=
  if op = 1 then s.lakEnds lakDone
  else if s.lakRefused src || !s.imageHolds l then s.lakEnds lakErr
  else
    let k := lakeOf l
    (s.modCap src (fun c => { c with
      lake := k, chained := c.chained || decide (0 < k.exported), contAt := firstFrom (k.lastTime + 1) c.nextSeq c.records })).lakEnds lakDone

/-! ### CXL.cache completions (R395, R396) -/

/-- A request comes back with GO, and the next that waits is issued. -/
def State.cacheTaken (s : State) : State := State.cacheIssue { s with host := { s.host with cacheOut := s.host.cacheOut.tail } } []

/-- The last request of a command has come back. -/
def State.cacheLast (s : State) (r : CacheReq) : State :=
  match r.serves with
  | 0 => s.complete r.qid r.tag 0x80 stOK 0 r.res2 r.res3
  | 2 => s.complete r.qid r.tag 0x81 stOK 0 r.res2 r.res3
  | 3 => s.stageEnd r.qid r.tag r.res2 r.data
  | 4 => s.lakDoneOp r.res2 r.res3 r.data
  | _ => s

/-- The host answers with an error: the command issues nothing more and completes with DENIED. -/
def State.cacheFails (s : State) (r : CacheReq) : State :=
  let mine := fun (x : CacheReq) => x.serves = r.serves && x.qid = r.qid && x.tag = r.tag
  let s1 := State.cacheIssue { s with host := { s.host with cacheOut := s.host.cacheOut.filter (fun x => !mine x), cacheWait := s.host.cacheWait.filter (fun x => !mine x) } } []
  match r.serves with
  | 0 => s1.complete r.qid r.tag 0x80 stDENIED 0 0 0
  | 1 => s1.exportDenied r.qid r.tag
  | 2 => s1.complete r.qid r.tag 0x81 stDENIED 0 0 0
  | 3 => s1.completeFinal r.qid r.tag stDENIED 0 0
  | _ => s1.lakEnds lakErr

/-- The host returns GO, or an error, for the oldest request outstanding. The answers of requests that a failed command had outstanding
change nothing more. -/
def cxlCacheCompletion (ok : Bool) (s : State) : State :=
  match s.host.cacheOut with
  | [] => s
  | r :: _ =>
    if !ok then s.cacheFails r
    else if r.last then (s.cacheTaken).cacheLast r
    else s.cacheTaken

def execCxlCacheCompletion (ok : Bool) (s : State) : Out := .next (cxlCacheCompletion ok s)

end Sys2Proof.Machine
end

