-- ==== Sys2Proof/Machine/Resets.lean ====
section
/-! DEFINITION. Resets of the device (R474-R480, R509-R511, R530): what each kind clears and what it keeps (Table 20.2), the
requests through SUP_RESET_CTL, function-level resets and link-downs (R390, R413, R475), and COLD in all its causes. -/

namespace Sys2Proof.Machine

/-! ### FLR and link-down (R390, R413, R475) -/

/-- The commands whose completion an FLR discards are marked (R413); what waits to be written for them goes nowhere. -/
def State.discardTaken (s : State) : State :=
  let none64 := fun (x : Nat × Nat) => ((64, x.2) : Nat × Nat)
  { s with
    sup := { s.sup with
      taken := s.sup.taken.map (fun t => { t with discard := true })
      deferred := s.sup.deferred.map (fun d => if d.final then { d with qid := 64 } else d)
      lateNotices := [] }
    img := { s.img with activSup := s.img.activSup.map none64, activPack := s.img.activPack.map none64 } }

/-- CXL.cache requests are abandoned (R413): the commands and operations that they serve are over. -/
def State.abandonCache (s : State) : State :=
  let all := s.host.cacheOut ++ s.host.cacheWait
  let serves := fun (k q tag : Nat) => all.any (fun r => r.serves = k && r.qid = q && r.tag = tag)
  let staged := (all.filter (fun r => r.serves = 3 && r.last)).length
  let s1 : State := { s with
    host := { s.host with cacheOut := [], cacheWait := [] }
    sup := { s.sup with
      taken := s.sup.taken.filter (fun t => !(serves 0 t.qid t.tag || serves 2 t.qid t.tag))
      finals := s.sup.finals - staged } }
  let s2 := if all.any (fun r => r.serves = 4) then s1.syncPools.lakEnds lakErr else s1.syncPools
  s2.abandonExports

/-- A function-level reset (R413): queues, doorbells, MSI-X, IDE streams and undelivered exceptions and notices go; what has been
taken is applied without completion. Decoder, snoop filter, window, inventory and calls stay. -/
def State.flrRun (s : State) : State :=
  let s1 := (s.discardTaken.abandonCache).resetRegs .flr
  { s1 with
    host := { s1.host with queues := [], xq := [], nq := {}, msix := [], msixPend := [], reply := {}, bgStatus := 0 }
    sup := { s1.sup with vault := { s1.sup.vault with ideKeys := [], ideGo := [] } } }

/-- FLR is absorbed by a COLD or WARM reset under way (R477). -/
def flr (s : State) : State := if s.inReset 1 then s else s.flrRun

def execFlr (s : State) : Out := .next (flr s)

/-- The CXL link goes down outside a WARM reset (R390): an FLR, and the link has to train again. -/
def State.cxlDown (s : State) : State :=
  let s1 := flr s
  { s1 with host := { s1.host with linkUp := false, linkWidth := 0, linkRate := 0, pools := [] } }

def execCxlLinkDown (s : State) : Out := .next s.cxlDown

/-- PERST_L is asserted: handled as a link-down (R475). -/
def execPerst (s : State) : Out := .next s.cxlDown

/-! ### PORT (R83, R474) -/

/-- A PORT reset: MAC, PCS and SerDes of one port; its link is down until it has trained again. Descriptors queued for it stay queued
(R82). -/
def State.portRun (s : State) (p : Nat) : State :=
  let s1 := (s.portDown p).resetRegs .port p
  (s1.wr ethAnFail 0 p).modPort p (fun x => { x with rxQ := [], txStamps := [], pauseEnd := 0 })

/-- A requested PORT reset, absorbed by any wider reset under way (R477). -/
def State.portRequest (s : State) (p : Nat) : State :=
  let s1 := s.bump supResetsPort
  if s.inReset 2 then s1 else s1.portRun p

/-! ### WARM (R362, R479) -/

/-- What the loss or the reset of PD-ACC leaves of a channel (R136, R154, R180, R216, R245, R267). -/
def accChan (c : Chan) : Chan :=
  { c with
    steep := flushRing c.steep, weld := emptyStores c.weld, ctx := clearLanesOf c.ctx
    tone := toneReset true c.tone, vbd := vbdReset c.vbd, echo := { c.echo with quadrant := none }
    egr := { c.egr with outQ := [] }, home := none, ingressHeld := 0, jobsRunning := 0, job := none, pub := { c.pub with newer := false } }

/-- A channel across a WARM reset: GEN rises (R44). A channel that nothing has ever used has no record whose GEN could rise: DEDUCED
(log 52). -/
def warmChan (c : Chan) : Chan :=
  { accChan c with pub := { c.pub with gen := c.pub.gen + 1, due := c.pub.closing, jobTick := none } }

/-- t0 (R479): HOLD goes downstream and WARM_START is logged, where Bister runs. -/
def State.warmNotice (s : State) : State :=
  if !s.served then s else
  let s1 := { s with ring := { s.ring with holdSent := true } }
  let s2 := if s1.inserted && s1.flag rngPaired then s1.sendTo (s1.rd rngPosDown) (.hold (s1.rd rngHoldMax)) else s1
  s2.raise 0x0005 uSUP

/-- Nothing of a CLOSING channel is under way any more: what egress holds of it has gone out or is let go. -/
def State.drainClosing (s : State) (ch : Nat) : State :=
  let other := fun (d : TxDesc) => decide (d.owner ≠ TxOwner.egress (Fin.ofNat 65536 ch))
  let s1 := s.endJob ch (fun c => { c with jobsRunning := 0, egr := { c.egr with outQ := [] } })
  (List.range 4).foldl (fun (s : State) p => s.modPort p (fun x => { x with
    queues := (x.queues.map (fun q => (q.1, q.2.filter other))).filter (fun q => !q.2.isEmpty), wire := x.wire.filter (fun w => other w.desc)
    parts := x.parts.filter (fun e => other e.2.desc), waiting := x.waiting.filter other })) s1

/-- t1 (R479): applied commands complete after the publications they wait for; commands taken and not applied complete with BUSY. -/
def State.warmComplete (s : State) : State :=
  let wanted := (s.sup.waiting.flatMap (·.chans)).eraseDups
  let s1 : State := { s with sup := { s.sup with restarting := false, waiting := s.sup.waiting.map (fun w => { w with acks := [] }) } }
  let s2 := (s1.flushLate.flushDeferred).finishWaits
  let closing := wanted.filter (fun ch => (s.chan ch).st = .closing)
  let ended := wanted.foldl (fun (s : State) ch => s.endJob ch id) (closing.foldl State.drainClosing s2)
  let s3 := wanted.foldl State.publish ended
  s3.busyTaken

/-- The copy of a fencing channel is cut short (R357, R362): frames not copied are lost, contexts in them with them. -/
def State.cutFence (s : State) (m : Nat) : State :=
  match (s.mc m).migration with
  | none => s
  | some g =>
    let lose := fun (s : State) (f : Nat × Nat) =>
      match tget s.mem.frameMap f.1 none with
      | none => s
      | some e =>
        if e.kind != 0 then s.dropCapture m e.owner
        else
          let from_ := if f.2 = 0 then g.page else 0
          let lost := (s.chans.filter (fun c => c.1 / 1024 = f.1 && decide (from_ ≤ c.1 % 1024 * 16) && decide (c.2.st ≠ .free))).map (·.1)
          let s1 := lost.foldl State.loseCtx s
          State.ctxFrame { s1 with mem := { s1.mem with frameMap := terase s1.mem.frameMap f.1 } } (1024 * f.1)
    let s1 := (g.frames.zipIdx).foldl lose s
    fenceEnd m (s1.modMc m (fun c => { c with migration := some {} }))

/-- t3 (R362): fencing channels are fenced, the others enter self-refresh. -/
def State.holdMemory (s : State) : State :=
  let s1 := ((List.range 8).filter (fun m => s.rd memChState m = 4)).foldl State.cutFence s
  ((List.range 8).filter s1.mcServes).foldl (fun (s : State) m => s.modMc m (fun c => { c with hold := 1, lastReqAt := s.now })) s1

/-- Fields that report the live state of a unit which a WARM reset resets (R478). -/
def warmLive : List RegDesc :=
  [ethLinkUp, ethFecLock, ethAnFail, ethPaused, flwSnapFree, flwSnapHeld, flwSnapTransit, flwSnapClassified, glzFading, glzPending,
   morSnapFree, morSnapHeld, supLoadMeasured, supEngLastFault, mbxCreditSnap, rngStale, rngSnapFree, rngSnapHeld, rngSnapTransit, rngSnapAvail,
   rngSnapOutstanding]

/-- Registers after a WARM reset. -/
def State.warmRegs (s : State) : State :=
  let s1 := s.resetRegs .warm
  { s1 with regs := tkeep s1.regs (fun k => (descOfKey k).all (fun h => !warmLive.contains h.d)) }

/-- PD-HOST is reset or lost: link, queues, decoder, caches. -/
def State.clearHost (s : State) : State := { s with host := {} }

/-- PD-LINK is reset or lost: ports hold nothing; Bister judges their modules again. -/
def State.clearLink (s : State) : State :=
  (List.range 4).foldl (fun (s : State) p => (((s.wr ethLinkUp 0 p).wr ethFecLock 0 p).wr ethAnFail 0 p).modPort p (fun x =>
    { modInfo := x.modInfo, modUnread := s.flag ethModPresent p })) s

/-- PD-ACC is reset or lost: rings, stores, lists, units. Flow entries and local addresses have shadow copies (R114). -/
def State.clearAcc (s : State) (f : Chan → Chan) (engine : Nat → MorEngine) : State :=
  { s with
    ing := { lat := s.ing.lat, flows := s.ing.flows, stash := s.ing.stash }
    chans := s.chans.map (fun e => (e.1, f e.2))
    mor := { engines := (List.range 96).foldl (fun t e => tset t e (engine e) {}) [] }
    engines := [], saved := [], weldU := {}, glaze := {}, mem := { s.mem with caches := [] }
    cap := { s.cap with rateUs := 0, rateBytes := 0 } }

/-- An engine at a WARM reset (R479, Table 20.2): retirement is cleared; one of a domain that was down or gated is self-tested. -/
def State.warmEngine (s : State) (e : Nat) : MorEngine :=
  if (s.me e).service = 4 || !bit (s.rd pwrEngOn) (e / 4)
  then { service := 3, selfTestAt := s.now + us 100, warmTest := true, idleSince := some s.now }
  else { idleSince := some s.now }

/-- PD-SUP is reset: Bister, wardens and what they hold; logs, poison list and vault stay. -/
def clearSup (u : Sup) : Sup :=
  { cores := u.cores, logs := u.logs, coalesce := u.coalesce, nextHandle := u.nextHandle, tsOffset := u.tsOffset, poison := u.poison
    poisonOvf := u.poisonOvf, poisonOvfAt := u.poisonOvfAt, invGen := u.invGen, inventory := u.inventory, eeprom := u.eeprom
    vault := { u.vault with ideKeys := [], ideGo := [], challenge := none } }

/-- The ring keeps its pairing and its fence; the mirror store is empty (Table 20.2). -/
def clearRing (r : RingSt) : RingSt :=
  { token := r.token, fenced := r.fenced, resumeWait := r.resumeWait, holdSent := r.holdSent, hbCount := r.hbCount, queryTok := r.queryTok }

/-- t2 to t5 (R479): link and liveness go, memory is held, the domains reset, and the ROM starts with MBX_BOOT.WARM. -/
def State.warmDomains (s : State) : State :=
  let s1 := ((s.abandonCache).selfFence).holdMemory
  let s2 := ((s1.clearHost).clearLink).clearAcc warmChan s1.warmEngine
  let s3 : State := { s2 with
    sup := clearSup s2.sup, ring := clearRing s2.ring
    img := { pack := s2.img.pack, warmHold := true }
    pwr := { s2.pwr with ethLost := false, domainsOff := s2.pwr.domainsOff.filter (fun d => d = 24 || d = 28) } }
  ((((s3.warmRegs).wr mbxBootWarm 1).wr supResetLast 1).wr supResetBusy 1).boot 0

/-- A requested WARM reset (R477, R479), absorbed by one under way. -/
def State.warmRequest (s : State) : State :=
  let s1 := s.bump supResetsWarm
  if s.inReset 1 then s1 else ((s1.warmNotice).warmComplete).warmDomains

/-! ### COLD (R20, R474, R509) -/

/-- What no reset touches (R478): the modules in their cages and, in fuses, lifecycle, serial, revocations, SVN floors and grade. -/
def fuseRegs : List RegDesc :=
  [secLifecycle, secServiceAllow, secSerial, secKeyRevoked, secSvnFusedSup, secSvnFusedPack, pwrGrade, ethModPresent]

/-- Every domain is reset, PD-AON too: the machine right after reset, with new vault keys, the fuses and the modules as they
are. The vault's own keys are free values (log 2): their generation counts on. In TEST the test access port answers (R530). -/
def State.coldRun (s : State) : State :=
  let s1 : State := { pending := s.pending, now := s.now, freeCtr := s.freeCtr + 1
                      regs := tkeep s.regs (fun k => (descOfKey k).any (fun h => fuseRegs.contains h.d))
                      sup := { vault := { partitionGen := s.sup.vault.partitionGen + 1 } } }
  let s2 := (List.range 4).foldl (fun (s1 : State) p => s1.modPort p (fun x => { x with
    modInfo := (s.port p).modInfo, modUnread := s.flag ethModPresent p })) s1
  let s3 := (s2.wr secSvnFloorSup (s2.rd secSvnFusedSup)).wr secSvnFloorPack (s2.rd secSvnFusedPack)
  let warm := if s3.flag pwrGrade then 10 else 0
  let s4 : State := { s3 with pwr := { s3.pwr with testPort := decide (s3.rd secLifecycle = 0) } }
  ((s4.wr pwrTjWarn (90 + warm)).wr pwrTjTrip (105 + warm)).wr pwrTjCrit (110 + warm)

/-- A requested COLD reset; BUSY until BOOT_WAIT. -/
def State.coldRequest (s : State) : State := if s.inReset 0 then s else s.coldRun.wr supResetBusy 1

/-- Supplies ramp and COLD_RST_L is released (R509): ROM_INIT. -/
def powerOn (s : State) : State := s.coldRun

def execPowerOn (s : State) : Out := .next (powerOn s)

/-- A low of COLD_RST_L (R530): 4 µs or less never, 6 µs or more always a COLD reset; between, a free value says which (log 2). -/
def coldRstL (lowNs : Nat) (s : State) : State :=
  if lowNs ≤ 4000 then s
  else if 6000 ≤ lowNs then s.coldRun
  else if Config.freeNat s.freeCtr % 2 = 0 then s.draw else s.draw.coldRun

def execColdRstL (lowNs : Nat) (s : State) : Out := .next (coldRstL lowNs s)

/-- A rail below its brown-out level for 1 µs (R511): COLD, held. -/
def brownOut (s : State) : State :=
  let t := s.coldRun
  { t with pwr := { t.pwr with brownHold := true } }

def execBrownOut (_rail : Fin 7) (s : State) : Out := .next (brownOut s)

/-- Every rail has been within its window for 1 ms: the held COLD reset is released (R511). -/
def brownOutRelease (s : State) : State := if s.pwr.brownHold then s.coldRun else s

def execBrownOutRelease (s : State) : Out := .next (brownOutRelease s)

/-! ### SUP_RESET_CTL (R476, R477) -/

/-- What a request that is taken does, by its KIND. -/
def State.resetKind (s : State) (kind port : Nat) : State :=
  match kind with
  | 1 => s.warmRequest
  | 2 => Sys2Proof.Machine.supReset s
  | 3 => s.portRequest port
  | _ => s.coldRequest

/-- A write of SUP_RESET_CTL is a request: GO 1 and KEY 0x5AFE in the same access, a used KIND, and under service access KIND 4 alone
(R476, R504). An erasure cannot be stopped (R504). -/
def State.resetAccepted (s : State) (width v : Nat) : Bool :=
  let kind := bits v 0 3
  width = 64 && bit v 32 && bits v 16 16 = 0x5AFE && decide (1 ≤ kind) && decide (kind ≤ 4) &&
    (!s.flag secService || kind = 4) && !s.flag secErasing

/-- A write of SUP_RESET_CTL. -/
def resetCtl (addr width v : Nat) (s : State) : State :=
  if !goodAccess addr width then s.bump mbxBadAccess
  else if addr != 0x10300 || !s.resetAccepted width v then s.wr supResetCfgErr 1
  else ((s.wr supResetKind (bits v 0 3)).wr supResetTarget (bits v 4 2)).resetKind (bits v 0 3) (bits v 4 2)

def execWarmReset (width : Nat) (value : Word64) (s : State) : Out := .next (resetCtl 0x10300 width value.toNat s)
def execSupReset (width : Nat) (value : Word64) (s : State) : Out := .next (resetCtl 0x10300 width value.toNat s)
def execPortReset (width : Nat) (value : Word64) (s : State) : Out := .next (resetCtl 0x10300 width value.toNat s)
def execColdReset (width : Nat) (value : Word64) (s : State) : Out := .next (resetCtl 0x10300 width value.toNat s)

end Sys2Proof.Machine
end

