-- ==== Sys2Proof/Machine/Power.lean ====
section
/-! DEFINITION. Power, temperature and reference clocks (R506-R520, R531). -/

namespace Sys2Proof.Machine

/-! ### Supplies (R511) -/

/-- A rail outside its window, above brown-out, for 10 µs (R511): its bit and SUPPLY_FAULT, nothing else. -/
def supplyFault (rail : Nat) (s : State) : State :=
  (s.wr pwrSupplyFault (s.rd pwrSupplyFault ||| 2 ^ rail)).raise 0x0072 uPWR 0 0xFFFF rail

def execSupplyFault (rail : Fin 7) (s : State) : Out := .next (supplyFault rail.val s)

/-! ### Losses (Table 1.3, R459) -/

/-- A whole-device loss makes liveness fail at once (R459). -/
def State.failLiveness (s : State) : State := if s.ring.live then s.selfFence else s

/-- Mordant and the engines with nothing on them; what was down or retired stays so. -/
def State.emptyEngine (s : State) (e : Nat) : MorEngine := { service := (s.me e).service, idleSince := some s.now }

/-- All DRAM is lost (Table 1.3): contexts with their kernels' state, jitter rings, block stores, records, captures, the mirror store and
the host-shared partition; the controllers hold nothing. -/
def State.clearMem (s : State) : State :=
  { s.unpoison (fun _ => true) with
    chans := s.chans.map (fun e => (e.1, { e.2 with steep := flushRing e.2.steep, weld := emptyStores e.2.weld, ctx := { lost := true, jobs := e.2.ctx.jobs } }))
    slots := [], cap := {}, ring := { s.ring with mirror := [] }, mem := {} }

/-- What a domain other than an engine domain takes with it (Table 1.3). -/
def State.loseDomain (s : State) (d : Nat) : State :=
  match d with
  | 26 => s.clearHost
  | 27 => s.clearLink
  | 28 => s.clearMem
  | 29 => s.clearAcc accChan s.emptyEngine
  | _ => s

/-- Domain d is powered. -/
def State.powered (s : State) (d : Nat) : Bool := if d < 24 then bit (s.rd pwrEngOn) d else !s.pwr.domainsOff.contains d

/-- A domain is switched off by its own protection (R513, R516). Of causes that meet the highest stands, and each is counted (R514).
PD-AON has no switch (R20): DEDUCED (log 53). -/
def State.trip (s : State) (d cause : Nat) (counter : RegDesc) : State :=
  if d = 24 then s
  else if !s.powered d then
    if tget s.pwr.offAt d none = some s.now && decide (s.rd pwrDomCause d < cause) then (s.bump counter).wr pwrDomCause cause d else s
  else if d < 24 then ((s.bump counter).powerOff d cause).domainFail d
  else
    let s1 := (s.bump counter).powerOff d cause
    ({ s1 with pwr := { s1.pwr with domainsOff := s1.pwr.domainsOff ++ [d] } }.loseDomain d).failLiveness

/-- A domain exceeds its current limit (R513). -/
def execOvercurrentTrip (d : DomainId) (s : State) : Out := .next (s.trip d.val 2 pwrOcTrips)

/-! ### Gating (R512, R513) -/

/-- All four engines of a domain read SUP_ENG_STATE.RUN 3. -/
def State.domainRetired (s : State) (d : Nat) : Bool :=
  (List.range 4).all (fun i => decide (s.present supEngRun (4 * d + i) = some 3))

/-- The host gates a domain (R512). -/
def State.gateDomain (s : State) (d : Nat) : State :=
  if bit (s.rd pwrEngGate) d then s
  else if !s.domainRetired d || !s.powered d then s.wr pwrCfgErr 1
  else
    let s1 := (s.wr pwrEngGate (s.rd pwrEngGate + 2 ^ d)).powerOff d 1
    ((List.range 4).map (4 * d + ·)).foldl (fun (s : State) e => s.modEng e (fun x => { count := x.count })) s1

/-- The host powers a domain again (R512): it is self-tested, and its engines stay retired. One that fails stays off with cause 4;
one switched off for cause 2, 3 or 4 stays off (R513). -/
def State.ungateDomain (s : State) (d : Nat) (passed : Bool) : State :=
  if decide (2 ≤ s.rd pwrDomCause d) then s.wr pwrCfgErr 1
  else if !bit (s.rd pwrEngGate) d then s
  else
    let s1 := (s.wr pwrEngGate (s.rd pwrEngGate - 2 ^ d)).wr pwrDomCause 0 d
    if passed then s1.wr pwrEngOn (s.rd pwrEngOn + 2 ^ d) else s1.powerOff d 4

/-- A write of PWR_ENG_GATE, bit by bit. -/
def gateCtl (addr width v : Nat) (passed : Bool) (s : State) : State :=
  if !goodAccess addr width then s.bump mbxBadAccess
  else match writtenTo pwrEngGate 0 0 addr width v with
  | none => s
  | some g => (List.range 24).foldl (fun (s : State) d => if bit g d then s.gateDomain d else s.ungateDomain d passed) s

/-- How the self-test of a domain ends that a write ungates beside those it gates: a free value (log 2). -/
def State.someTest (s : State) : Bool := Config.freeNat s.freeCtr % 2 = 0

def execEngineDomainGate (width : Nat) (value : Word64) (s : State) : Out := .next (gateCtl 0xF0008 width value.toNat s.someTest s.draw)
def execEngineDomainUngate (width : Nat) (value : Word64) (passed : Bool) (s : State) : Out := .next (gateCtl 0xF0008 width value.toNat passed s)

/-! ### Temperature (R515, R516) -/

/-- The readings of powered sensors, by sensor, in 0.1 °C. -/
def State.readings (s : State) (temps : List Word16) : List (Nat × Int) :=
  ((temps.take 30).zipIdx).filterMap (fun t => if s.powered t.2 then some (t.2, t.1.toInt) else none)

/-- WARN (Table 22.3): THERMAL_WARN at most once per sensor in 60 s. -/
def State.warnSensor (s : State) (t : Nat × Int) : State :=
  if decide (t.2 < 10 * ((s.rd pwrTjWarn : Nat) : Int)) || s.now < tget s.pwr.warnAt t.1 0 then s
  else
    let s1 := { s with pwr := { s.pwr with warnAt := tset s.pwr.warnAt t.1 (s.now + sec 60) 0 } }.bump pwrWarnEvents
    s1.raise 0x0070 uPWR t.1 0xFFFF t.1 0 (wrapInt 32 t.2)

/-- SYS_ALERT_L goes low at WARN and high again once every sensor is below WARN − 3 °C. -/
def State.alert (s : State) (l : List (Nat × Int)) : State :=
  let w : Int := 10 * ((s.rd pwrTjWarn : Nat) : Int)
  let hot := l.any (fun t => decide (w ≤ t.2))
  let cool := l.all (fun t => decide (t.2 < w - 30))
  { s with pwr := { s.pwr with sysAlert := hot || (s.pwr.sysAlert && !cool) } }

/-- TRIP and CRITICAL of one sensor. -/
def State.tripSensor (s : State) (t : Nat × Int) : State :=
  let s1 := if 10 * ((s.rd pwrTjTrip : Nat) : Int) ≤ t.2 then s.trip t.1 3 pwrTrips else s
  if decide (10 * ((s.rd pwrTjCrit : Nat) : Int) ≤ t.2) && !s.pwr.thermtrip
  then { s1 with pwr := { s1.pwr with thermtrip := true } }.raise 0x0073 uPWR t.1 0xFFFF t.1 0 (wrapInt 32 t.2) else s1

/-- The thresholds act (Table 22.3); WARN is Bister's and its wardens'. -/
def State.thresholds (s : State) (l : List (Nat × Int)) : State :=
  l.foldl State.tripSensor (if s.served then (l.foldl State.warnSensor s).alert l else s)

/-- Every 10 µs PD-AON compares every sensor (R515). -/
def execTripComparator (temps : List Word16) (s : State) : Out := .next (s.thresholds (s.readings temps))

/-- The band of a temperature (Table 22.12). -/
def bandOf (t : Int) : Nat :=
  if t < 550 then 0 else if t < 650 then 1 else if t < 750 then 2 else if t < 850 then 3 else if t < 950 then 4
  else if t < 1000 then 5 else if t < 1050 then 6 else 7

/-- One millisecond more in a band; PWR_TJ_MINUTES counts whole minutes. -/
def State.bandTime (s : State) (b : Nat) : State :=
  let n := tget s.pwr.bandMs b 0 + 1
  let s1 := { s with pwr := { s.pwr with bandMs := tset s.pwr.bandMs b (if n = 60000 then 0 else n) 0 } }
  if n = 60000 then s1.bump pwrTjMinutes b else s1

/-- PWR_TJ.NOW and MAX of one sensor. -/
def State.storeReading (s : State) (t : Nat × Int) : State :=
  let m := max t.2 (signed 16 (s.rd pwrTjMax t.1))
  (s.wr pwrTjNow (wrapInt 16 t.2) t.1).wr pwrTjMax (wrapInt 16 m) t.1

/-- Every 1 ms Bister and the wardens read the sensors (R17, R515); one that is unpowered reads 0x8000. -/
def sensorRead (temps : List Word16) (s : State) : State :=
  if !s.served then s else
  let l := s.readings temps
  let dark := (List.range 30).filter (fun i => !s.powered i)
  let s1 := l.foldl State.storeReading (dark.foldl (fun (s : State) i => s.wr pwrTjNow 0x8000 i) s)
  let s2 := match l with
    | [] => s1
    | t :: r => s1.bandTime (bandOf (r.foldl (fun (a : Int) (x : Nat × Int) => max a x.2) t.2))
  s2.thresholds l

def execSensorRead (temps : List Word16) (s : State) : Out := .next (sensorRead temps s)

/-! ### Reference clocks (R520) -/

/-- A reference is lost for 1 µs (R520). -/
def referenceClockLoss (r : RefClock) (s : State) : State :=
  match r with
  | .sys => State.failLiveness { s with pwr := { s.pwr with sysLost := true } }
  | .eth => (State.clearLink { s with pwr := { s.pwr with ethLost := true } }).failLiveness
  | .cxl => s.cxlDown

def execReferenceClockLoss (r : RefClock) (s : State) : Out := .next (referenceClockLoss r s)

end Sys2Proof.Machine
end

