-- ==== Sys2Proof/Machine/Stats.lean ====
section
/-! DEFINITION. STATS_READ (R425, R432) and the latches of the conserved quantities' books (R29, R30, R113, R314, R349, R414,
R457). -/

namespace Sys2Proof.Machine

/-! ### STATS_READ -/

/-- The words of a statistics block that are not 0, by their number (Table 17.6), with the figures of the newest record; before any estimate
P1's are bits of the free value `x`. -/
def State.statsWords (s : State) (ch x : Nat) : List (Nat × List Nat) :=
  let r := s.newest ch
  let f := (s.chan ch).pub.figures
  let st := bits r.ident.toNat 33 3
  let head := ch + st * 2 ^ 16 + (if st = 0 then 0 else bits r.vbd.toNat 0 4) * 2 ^ 20 + 2 ^ 60
  if st = 0 then [(0, [head])] else
  let p1 := if f.p1 then 0 else bits x 208 9 + bits x 217 8 * 2 ^ 16
  [(0, [head, r.key, s.tbVal 0])] ++ f.words.map (fun w => if w.1 = 48 then (48, (w.2.headD 0 + p1) :: w.2.tail) else w)

/-- A block of 1,024 bytes. -/
def State.statsBlock (s : State) (ch x : Nat) : List Byte :=
  let l := s.statsWords ch x
  wordBytes ((List.range 128).map (fun i => ((l.find? (fun e => decide (e.1 ≤ i) && decide (i < e.1 + e.2.length))).map (fun e => e.2.getD (i - e.1) 0)).getD 0))

/-- STATS_READ: the blocks of COUNT channels go to host memory; it completes after the last (R425, R432). -/
def applyStats (c : HostCmd) (s : State) : Reply :=
  let first := bits c.w1.toNat 0 16
  let count := bits c.w1.toNat 32 13
  if count = 0 || count > 4096 || first + count > 65536 then .refuse stBAD_PARAM 12
  else if c.w4.toNat < count * 1024 then .refuse stBAD_PARAM 32
  else
    let bytes := (List.range count).flatMap (fun i => s.statsBlock (first + i) (Config.freeNat (s.freeCtr + i)))
    .later (State.cacheIssue { s with freeCtr := s.freeCtr + count } (lineWrites 2 c.qid.val c.tag.toNat c.w3.toNat count 0 (16 * count + 1) bytes))

def statsRead (c : HostCmd) (s : State) : State :=
  runCommand c 0x81 [(1, 0x1FFF0000FFFF), (3, 0xFFFFFFFFFFFFFFFF), (4, 0xFFFFFFFFFFFFFFFF)] false (applyStats c) s

def execStatsRead (c : HostCmd) (s : State) : Out := .next (statsRead c s)

/-! ### Books -/

/-- REQ, DONE and SKIPPED of a book's snapshot. -/
def bookRegs : Book → RegDesc × RegDesc × RegDesc
  | .packetBuffers => (flwSnapReq, flwSnapDone, flwSnapSkipped)
  | .taskSlots => (morSnapReq, morSnapDone, morSnapSkipped)
  | .cxlCredits => (mbxSnapReq, mbxSnapDone, mbxSnapSkipped)
  | .dramCredits => (memSnapReq, memSnapDone, memSnapSkipped)
  | .ringCredits => (rngSnapReq, rngSnapDone, rngSnapSkipped)

/-- Packet buffers (R113). -/
def State.latchBuffers (s : State) : State :=
  let s1 := (List.range 4).foldl (fun (s : State) k => s.wr flwSnapHeld (s.heldOf k) k) s
  ((s1.wr flwSnapFree s.bufFree).wr flwSnapTransit 0).wr flwSnapClassified (s.rd flwClassified)

/-- Task slots of one engine (R314). -/
def State.latchSlots (s : State) (e : Nat) : State := (s.wr morSnapFree (s.slotsFree e) e).wr morSnapHeld (slotsHeld (s.me e)) e

/-- A CXL credit pool (R414). -/
def State.latchPool (s : State) (k : Nat) : State :=
  let p := tget s.host.pools k {}
  s.wr mbxCreditSnap (p.free % 2 ^ 16 + p.held % 2 ^ 16 * 2 ^ 16 + p.transit % 2 ^ 16 * 2 ^ 32 + p.total % 2 ^ 16 * 2 ^ 48) k

/-- DRAM credits of one requester port at one controller (R349). -/
def State.latchCredits (s : State) (m p : Nat) : State :=
  let held := creditsHeld (s.mc m) p
  ((s.wr memSnapFree (portCredits p - held) m p).wr memSnapHeld held m p).wr memSnapTransit 0 m p

/-- The values of a book are latched. -/
def State.latchBook (s : State) (b : Book) : State :=
  match b with
  | .packetBuffers => s.latchBuffers
  | .taskSlots => (List.range 96).foldl State.latchSlots s
  | .cxlCredits => (List.range 12).foldl State.latchPool s
  | .dramCredits => (List.range 8).foldl (fun (s : State) m => (List.range 8).foldl (fun (s : State) p => s.latchCredits m p) s) s
  | .ringCredits => (s.latchRing 0).latchRing 1

/-- A book's row in Table 1.9. -/
def bookNo : Book → Nat
  | .packetBuffers => 0
  | .taskSlots => 1
  | .cxlCredits => 2
  | .dramCredits => 3
  | .ringCredits => 4

/-- The quiescent cycle that a request waits for has come. What outlasts a row keeps a book from it: tasks in transit (R314), a frame
between a MAC and the classifier (R113). -/
def State.quiescent (s : State) (b : Book) : Bool :=
  match b with
  | .taskSlots => s.mor.transit.isEmpty
  | .packetBuffers => (List.range 4).all (fun p => (s.port p).rxQ.isEmpty)
  | _ => true

/-- The sums of a latched book, each with the total it must equal (R113, R314, R349, R414, R457). -/
def State.bookSums (s : State) (b : Book) : List (Nat × Nat) :=
  match b with
  | .packetBuffers => [(s.rd flwSnapFree + ((List.range 4).map (fun k => s.rd flwSnapHeld k)).sum + s.rd flwSnapTransit, 131072)]
  | .taskSlots => (List.range 96).map (fun e => (s.rd morSnapFree e + s.rd morSnapHeld e, 1024))
  | .cxlCredits => (List.range 12).map (fun k => let v := s.rd mbxCreditSnap k; (bits v 0 16 + bits v 16 16 + bits v 32 16, bits v 48 16))
  | .dramCredits => (List.range 64).map (fun i =>
      (s.rd memSnapFree (i / 8) (i % 8) + s.rd memSnapHeld (i / 8) (i % 8) + s.rd memSnapTransit (i / 8) (i % 8), portCredits (i % 8)))
  | .ringCredits => (List.range 2).flatMap s.ringSums

/-- The audit of a latched book (R30): the first sum that misses its total is an INTERNAL event with the difference. -/
def State.audit (s : State) (b : Book) : State :=
  match (s.bookSums b).find? (fun x => x.1 != x.2) with
  | none => s
  | some x => s.auditFail (bookNo b) (wrapInt 32 ((x.1 : Int) - x.2))

/-- A requested latch is taken within 1 µs, and Bister audits what it latched: DONE. -/
def bookLatch (b : Book) (s : State) : State :=
  let r := bookRegs b
  if !s.flag r.1 || !s.quiescent b || tget s.sup.snapAt (bookNo b) 0 + us 1 < s.now then s
  else (((s.latchBook b).wr r.1 0).wr r.2.1 1).audit b

def execBookLatch (b : Book) (s : State) : Out := .next (bookLatch b s)

/-- 1 µs has passed without a quiescent cycle: SKIPPED, nothing latched. -/
def bookSnapSkipped (b : Book) (s : State) : State :=
  let r := bookRegs b
  let due := tget s.sup.snapAt (bookNo b) 0 + us 1
  if !s.flag r.1 || s.now < due || (s.now = due && s.quiescent b) then s else (s.wr r.1 0).wr r.2.2 1

def execBookSnapSkipped (b : Book) (s : State) : Out := .next (bookSnapSkipped b s)

end Sys2Proof.Machine
end

