-- ==== Sys2Proof/Machine/Regs.lean ====
section
/-! DEFINITION. Host accesses to BAR0 (R7-R9, R392, Table 16.2): a write takes effect by access type, with the rules the chapters
give single registers; registers whose write has a row of its own get that row's meaning here too. -/

namespace Sys2Proof.Machine

/-! ### Writes refused whole (R112, R331) -/

/-- The access would put a value outside an RW field's range. -/
def State.outOfRange (s : State) (addr width v : Nat) : Bool :=
  let b := accessBits addr width
  (fieldsAt (addr - addr % 8)).any (fun h =>
    let p := fieldPart h b.1 b.2 v
    let new := (s.rd h.d h.i h.j &&& (2 ^ h.d.width - 1 - p.2)) ||| (p.1 &&& p.2)
    h.d.acc = .rw && p.2 != 0 && !inRange h.d new)

/-- A write that is ignored whole, with CFG_ERR, where a field is out of range or the result does not hold. -/
def State.strictWrite (s : State) (err : RegDesc) (holds : State → Bool) (addr width v : Nat) : State :=
  let t := s.writeReg addr width v
  if s.outOfRange addr width v || !holds t then s.wr err 1 else t

/-- The four classes' RESERVE and LIMIT hold together (R112). -/
def poolHolds (s : State) : Bool :=
  decide (((List.range 4).map s.reserveOf).sum ≤ 131072) && (List.range 4).all (fun c => decide (s.reserveOf c ≤ s.limitOf c))

/-- FAR is not below NEAR (R331). -/
def stealHolds (s : State) : Bool := decide (s.rd morStealNear ≤ s.rd morStealFar)

/-! ### Ethernet (R79, R80) -/

/-- ETH_TX_START: a write below 64 sets 64 (R80). -/
def State.thresholdWrite (s : State) (p addr width v : Nat) : State :=
  let t := s.writeReg addr width v
  if t.rd ethTxThreshold p < 64 then t.wr ethTxThreshold 64 p else t

/-- The bank that a register of the gate lists belongs to, by its offset in the port's block. -/
def bankOf (off : Nat) : Option Nat :=
  if off = 0x38 || off = 0x40 || (0x1000 ≤ off && off < 0x1800) then some 0
  else if off = 0x48 || off = 0x50 || 0x1800 ≤ off then some 1
  else none

/-- A write to a gate list, its LEN or its CYCLE: refused for the inactive bank while SWAP is 1 (R79). -/
def State.bankWrite (s : State) (p bank addr width v : Nat) : State :=
  if s.flag ethGateSwap p && bank != s.rd ethGateActiveBank p then s.wr ethCfgErr 1 p
  else (((s.writeReg addr width v).regate p).dropNever p)

/-- A write in a port's block. -/
def State.ethWrite (s : State) (addr width v : Nat) : State :=
  let p := (addr - 0x30000) / 0x2000
  let off := (addr - 0x30000) % 0x2000 / 8 * 8
  if 4 ≤ p then s
  else if addr = ethBase p then Sys2Proof.Machine.ethCfgWrite p width v s
  else if addr = ethBase p + 0x28 then Sys2Proof.Machine.ethGateCtlWrite p width v s
  else if off = 0x18 then s.thresholdWrite p addr width v
  else if off = 0x30 then ((s.writeReg addr width v).regate p).dropNever p
  else match bankOf off with
  | some b => s.bankWrite p b addr width v
  | none => s.writeReg addr width v

/-! ### Tone definitions (R246) -/

/-- The duration of segment k of a definition. -/
def State.cptSeg (s : State) (d k : Nat) : Nat :=
  s.rd ([cptSegA0, cptSegA1, cptSegA2, cptSegA3, cptSegB0, cptSegB1, cptSegB2, cptSegB3].getD k cptSegA0) d

/-- Every field of a definition lies within its range (Table 10.7); segments beyond NSEG are not in use. -/
def State.cptHolds (s : State) (d : Nat) : Bool :=
  let within := fun (lo hi x : Nat) => decide (lo ≤ x) && decide (x ≤ hi)
  within 300 3400 (s.rd cptF1 d) && (s.rd cptF2 d = 0 || within 300 3400 (s.rd cptF2 d)) && within 1 15 (s.rd cptFtol d) &&
    within 10 50 (s.rd cptMinLevel d) && within 1 8 (s.rd cptNseg d) && within 1 6 (s.rd cptCtol d) && within 1 15 (s.rd cptRepeat d) &&
    (List.range (s.rd cptNseg d)).all (fun k => within 10 10000 (s.cptSeg d k))

/-- A write that sets CPT_VALID is ignored, with CFG_ERR, where a field is out of range (R246). -/
def State.cptWrite (s : State) (addr width v : Nat) : State :=
  let d := (addr - 0x10800) / 0x20
  let t := s.writeReg addr width v
  if writtenTo cptValid d 0 addr width v = some 1 && !t.cptHolds d then s.wr supToneCfgErr 1 else t

/-! ### Queues (R405, R411, R412) -/

/-- Byte ranges of the enabled queues but exception queue `x` (8: the notification queue). -/
def State.ringRanges (s : State) (x : Nat) : List (Nat × Nat) :=
  ((List.range 64).filter (fun q => s.flag qEn q)).flatMap (fun q => [s.sqRange q, s.cqRange q]) ++
  ((List.range 8).filter (fun y => y != x && s.flag xqEn y)).map (fun y => (s.rd xqBase y, s.rd xqCount y * s.xqEsize y)) ++
  (if x != 8 && s.flag nqEn then [(s.rd nqBase, 32 * s.rd nqCount)] else [])

/-- An exception or notification queue may be enabled: DEDUCED (log 55) from "as for command queues". -/
def State.ringFits (s : State) (x base size : Nat) : Bool :=
  decide (base + size ≤ s.hsBytes) && (s.ringRanges x).all (fun r => !overlaps base size r.1 r.2)

/-- XQ_CTL: setting EN starts the queue empty, on its first pass, or sets ERR with EN left 0. -/
def State.xqCtlWrite (s : State) (x addr width v : Nat) : State :=
  if writtenTo xqEn x 0 addr width v != some 1 || s.flag xqEn x then s.writeReg addr width v
  else
    let s1 := s.writeRegBut (· = xqEn) addr width v
    if s1.ringFits x (s1.rd xqBase x) (s1.rd xqCount x * s1.xqEsize x) then
      let s2 := (s1.wr xqEn 1 x).wr xqTail 0 x
      { s2 with host := { s2.host with xq := tset s2.host.xq x {} {} } }
    else s1.wr xqErr 1 x

/-- NQ_CTL. -/
def State.nqCtlWrite (s : State) (addr width v : Nat) : State :=
  if writtenTo nqEn 0 0 addr width v != some 1 || s.flag nqEn then s.writeReg addr width v
  else
    let s1 := s.writeRegBut (· = nqEn) addr width v
    if s1.ringFits 8 (s1.rd nqBase) (32 * s1.rd nqCount) then
      let s2 := s1.wr nqEn 1
      { s2 with host := { s2.host with nq := {} } }
    else s1.wr nqErr 1

/-- Queue registers. -/
def State.queueWrite (s : State) (addr width v : Nat) : State :=
  if addr < 0x391000 then
    if addr % 0x40 = 0x18 then Sys2Proof.Machine.qCtlDisable ((addr - 0x390000) / 0x40) width v s else s.writeReg addr width v
  else if addr = 0x391410 then s.nqCtlWrite addr width v
  else if addr < 0x391200 && addr % 0x40 = 0x10 then s.xqCtlWrite ((addr - 0x391000) / 0x40) addr width v
  else s.writeReg addr width v

/-- Doorbells. -/
def State.doorbell (s : State) (addr width v : Nat) : State :=
  if addr < 0x1040000 then
    let q := (addr - 0x1000000) / 0x1000
    if addr % 0x1000 = 0 then Sys2Proof.Machine.sqTail q width v s
    else if addr % 0x1000 = 4 then Sys2Proof.Machine.cqHead q width v s
    else s
  else if addr = 0x1050000 then Sys2Proof.Machine.nqHead width v s
  else if addr < 0x1048000 && addr % 0x1000 = 0 then Sys2Proof.Machine.xqHead ((addr - 0x1040000) / 0x1000) width v s
  else s

/-! ### MSI-X -/

/-- A write to the MSI-X table: a vector no longer masked is no longer pending. PRESUMED (log 76). -/
def State.msixWrite (s : State) (addr width v : Nat) : State :=
  let t := s.writeReg addr width v
  { t with host := { t.host with msixPend := t.host.msixPend.filter (fun v => t.flag msixMask v) } }

/-! ### The accesses -/

/-- Offsets whose layout the spec leaves to CXL and PCI Express (Table 16.2): component registers, the three 256-byte places from
device capabilities to memory device status, the mailbox with its 1 MiB payload. Other offsets read 0 (R391, R9; log 76). -/
def standardLayout (addr : Nat) : Bool :=
  decide (addr < 0x10000) || (decide (0x200000 ≤ addr) && decide (addr < 0x200300)) || (decide (0x201000 ≤ addr) && decide (addr < 0x301020))

/-- A host write to BAR0 of a good kind. -/
def State.barWrite (s : State) (addr width v : Nat) : State :=
  let w := addr / 8 * 8
  if 0x1000000 ≤ addr then s.doorbell addr width v
  else if 0x390000 ≤ addr && addr < 0x392000 then s.queueWrite addr width v
  else if 0x30000 ≤ addr && addr < 0x40000 then s.ethWrite addr width v
  else if 0x40040 ≤ addr && addr < 0x40060 then s.strictWrite flwCfgErr poolHolds addr width v
  else if 0xA0000 ≤ addr && addr < 0xB0000 then s.strictWrite morCfgErr stealHolds addr width v
  else if 0x10800 ≤ addr && addr < 0x10C00 then s.cptWrite addr width v
  else if 0x90000 ≤ addr && addr < 0x98000 then s.coefWrite (addr - 0x90000) width v
  else if w = 0x20040 then s.ppsWrite addr width v
  else if w = 0x80000 then Sys2Proof.Machine.glzBankWrite addr width v s
  else if addr = 0xB0000 then Sys2Proof.Machine.hsSizeWrite width v s
  else if 0xB1000 ≤ addr && addr < 0xB2000 && addr % 0x200 = 8 then Sys2Proof.Machine.memChCtlReset ((addr - 0xB1000) / 0x200) width v s
  else if w = 0xC0000 && addr = 0xC0000 then Sys2Proof.Machine.ringInsert width v s
  else if addr = 0xD0004 || (addr = 0xD0000 && width = 64) then Sys2Proof.Machine.lakStateCtl width v [] s
  else if w = 0x10300 then Sys2Proof.Machine.resetCtl addr width v s
  else if addr = 0xE0028 then Sys2Proof.Machine.secSvnCommit width v s
  else if 0x100000 ≤ addr && addr < 0x101000 then s.msixWrite addr width v
  else if addr = 0xF0008 then Sys2Proof.Machine.gateCtl addr width v s.someTest s.draw
  else s.writeReg addr width v

/-- Hardware sets W1C bits in the cycle of a host write: the set wins (R8). -/
def State.hwSets (s : State) (addr width v : Nat) : State :=
  if v = 0 then s else
  let b := accessBits addr width
  (fieldsAt (addr - addr % 8)).foldl (fun s h =>
    let p := fieldPart h b.1 b.2 v
    if h.d.acc = .w1c then s.wr h.d (s.rd h.d h.i h.j ||| (p.1 &&& p.2)) h.i h.j else s) s

/-- A write that has set a book's REQ requests its snapshot now. -/
def State.markSnaps (before t : State) : State :=
  [flwSnapReq, morSnapReq, mbxSnapReq, memSnapReq, rngSnapReq].zipIdx.foldl (fun (t : State) r =>
    if !before.flag r.1 && t.flag r.1 then t.requestSnap r.1 r.2 else t) t

/-- A host write to BAR0, and what hardware sets in the same cycle. -/
def registerWrite (addr width : Nat) (w : HostWrite) (s : State) : State :=
  if !goodAccess addr width then s.bump mbxBadAccess
  else s.markSnaps ((s.barWrite addr width w.value.toNat).hwSets addr width w.sets.toNat)

def execRegisterWrite (addr width : Nat) (value : HostWrite) (s : State) : Out := .next (registerWrite addr width value s)

/-- A host read of BAR0: the value, then what the read clears. `event`: what an event of the same cycle leaves for the next read
(R8). What a register of the standard layouts holds is free (log 76). -/
def registerRead (addr width : Nat) (event : Option Nat) (s : State) : State :=
  if goodAccess addr width && 0x90000 ≤ addr && addr < 0x98000 then
    { s with host := { s.host with readData := s.coefRead (addr - 0x90000) width, readPoison := false } }
  else if goodAccess addr width && standardLayout addr then
    State.draw { s with host := { s.host with readData := Config.freeNat s.freeCtr % 2 ^ width, readPoison := false } }
  else s.readReg addr width event

def execRcRegisterRead (addr width : Nat) (event : Option Nat) (s : State) : Out := .next (registerRead addr width event s)

end Sys2Proof.Machine
end

