-- ==== Sys2Proof/Machine/Dispatch.lean ====
section
/-! DEFINITION. One arm per command, each a direct call of its meaning. -/

namespace Sys2Proof.Machine

def exec (i : Instr) (s : State) : Host.Outcome State Fault Refusal :=
  match i with
  | .registerWrite addr width value => Sys2Proof.Machine.execRegisterWrite addr width value s
  | .rcRegisterRead addr width event => Sys2Proof.Machine.execRcRegisterRead addr width event s
  | .wardenWatchdogPoll w answered => Sys2Proof.Machine.execWardenWatchdogPoll w answered s
  | .wardenResetDone w restored => Sys2Proof.Machine.execWardenResetDone w restored s
  | .counterCollection w => Sys2Proof.Machine.execCounterCollection w s
  | .lockstepMismatch lowPasses highPasses => Sys2Proof.Machine.execLockstepMismatch lowPasses highPasses s
  | .tickBoundary tb => Sys2Proof.Machine.execTickBoundary tb s
  | .tickEntryTaken tb => Sys2Proof.Machine.execTickEntryTaken tb s
  | .chanOpen c => Sys2Proof.Machine.execChanOpen c s
  | .chanModify c => Sys2Proof.Machine.execChanModify c s
  | .chanClose c => Sys2Proof.Machine.execChanClose c s
  | .callBind c => Sys2Proof.Machine.execCallBind c s
  | .callUnbind c => Sys2Proof.Machine.execCallUnbind c s
  | .housekeepingPublication ch => Sys2Proof.Machine.execHousekeepingPublication ch s
  | .deferredPublication ch => Sys2Proof.Machine.execDeferredPublication ch s
  | .stateWindowWrite offset => Sys2Proof.Machine.execStateWindowWrite offset s
  | .snapshot c => Sys2Proof.Machine.execSnapshot c s
  | .statsRead c => Sys2Proof.Machine.execStatsRead c s
  | .ethCfgWrite p width value => Sys2Proof.Machine.execEthCfgWrite p width value s
  | .linkUp p => Sys2Proof.Machine.execLinkUp p s
  | .linkStageTimeout p f => Sys2Proof.Machine.execLinkStageTimeout p f s
  | .linkDown p => Sys2Proof.Machine.execLinkDown p s
  | .modPrsFall p info => Sys2Proof.Machine.execModPrsFall p info s
  | .moduleRemoval p => Sys2Proof.Machine.execModuleRemoval p s
  | .modIntFall p flags => Sys2Proof.Machine.execModIntFall p flags s
  | .moduleMonitorPoll p m => Sys2Proof.Machine.execModuleMonitorPoll p m s
  | .frameReceive p f => Sys2Proof.Machine.execFrameReceive p f s
  | .pauseExpiry p => Sys2Proof.Machine.execPauseExpiry p s
  | .transmitDescriptor p d => Sys2Proof.Machine.execTransmitDescriptor p d s
  | .frameTransmitStart p => Sys2Proof.Machine.execFrameTransmitStart p s
  | .frameTransmitEnd p => Sys2Proof.Machine.execFrameTransmitEnd p s
  | .txUnderrun p hostWrite => Sys2Proof.Machine.execTxUnderrun p hostWrite s
  | .gateIntervalEnd p => Sys2Proof.Machine.execGateIntervalEnd p s
  | .ethGateCtlWrite p width value => Sys2Proof.Machine.execEthGateCtlWrite p width value s
  | .gateSwap p => Sys2Proof.Machine.execGateSwap p s
  | .flowLookup p eccBad => Sys2Proof.Machine.execFlowLookup p eccBad s
  | .previousKeyDiscard ch => Sys2Proof.Machine.execPreviousKeyDiscard ch s
  | .excRateWindow => Sys2Proof.Machine.execExcRateWindow s
  | .arpRequest p target solicitation frame => Sys2Proof.Machine.execArpRequest p target solicitation frame s
  | .flowSlotRewrite slot => Sys2Proof.Machine.execFlowSlotRewrite slot s
  | .flwBookSnap => Sys2Proof.Machine.execFlwBookSnap s
  | .bookLatch b => Sys2Proof.Machine.execBookLatch b s
  | .bookSnapSkipped b => Sys2Proof.Machine.execBookSnapSkipped b s
  | .egressPacketBuild ch => Sys2Proof.Machine.execEgressPacketBuild ch s
  | .steepRingWrite => Sys2Proof.Machine.execSteepRingWrite s
  | .transitWindowAge ch => Sys2Proof.Machine.execTransitWindowAge ch s
  | .playoutTick ch => Sys2Proof.Machine.execPlayoutTick ch s
  | .forceAfterExpiry ch => Sys2Proof.Machine.execForceAfterExpiry ch s
  | .ringMove ch => Sys2Proof.Machine.execRingMove ch s
  | .weldOffer ch => Sys2Proof.Machine.execWeldOffer ch s
  | .weldAnswerTimeout ch => Sys2Proof.Machine.execWeldAnswerTimeout ch s
  | .repairSymbolReceive ch r => Sys2Proof.Machine.execRepairSymbolReceive ch r s
  | .decodeJobStart u => Sys2Proof.Machine.execDecodeJobStart u s
  | .decodeJobEnd u => Sys2Proof.Machine.execDecodeJobEnd u s
  | .ffBlockTimeout ch => Sys2Proof.Machine.execFfBlockTimeout ch s
  | .fecSet c => Sys2Proof.Machine.execFecSet c s
  | .ecSet c => Sys2Proof.Machine.execEcSet c s
  | .woadSearch ch q => Sys2Proof.Machine.execWoadSearch ch q s
  | .nlpHoldEnd ch => Sys2Proof.Machine.execNlpHoldEnd ch s
  | .doubleTalkEnd ch => Sys2Proof.Machine.execDoubleTalkEnd ch s
  | .nlpHangEnd ch => Sys2Proof.Machine.execNlpHangEnd ch s
  | .disablerRelease ch => Sys2Proof.Machine.execDisablerRelease ch s
  | .glazeDescriptorStart k => Sys2Proof.Machine.execGlazeDescriptorStart k s
  | .glazeDescriptorComplete k => Sys2Proof.Machine.execGlazeDescriptorComplete k s
  | .glzBankSwap width value => Sys2Proof.Machine.execGlzBankSwap width value s
  | .fadingEnd => Sys2Proof.Machine.execFadingEnd s
  | .toneSet c => Sys2Proof.Machine.execToneSet c s
  | .toneGen c => Sys2Proof.Machine.execToneGen c s
  | .eventTimeout ch => Sys2Proof.Machine.execEventTimeout ch s
  | .faxMode c => Sys2Proof.Machine.execFaxMode c s
  | .vbdReturnIdle ch => Sys2Proof.Machine.execVbdReturnIdle ch s
  | .qualificationTimeout ch => Sys2Proof.Machine.execQualificationTimeout ch s
  | .udptlReorderTimeout ch => Sys2Proof.Machine.execUdptlReorderTimeout ch s
  | .txSigEndTimeout ch => Sys2Proof.Machine.execTxSigEndTimeout ch s
  | .saffronSilenceEnd ch => Sys2Proof.Machine.execSaffronSilenceEnd ch s
  | .textBlockTimeout ch => Sys2Proof.Machine.execTextBlockTimeout ch s
  | .baudotMarkHoldEnd ch => Sys2Proof.Machine.execBaudotMarkHoldEnd ch s
  | .skeinDispatch e => Sys2Proof.Machine.execSkeinDispatch e s
  | .bundleIssue e reports ecc => Sys2Proof.Machine.execBundleIssue e reports ecc s
  | .streamEntryArrival e => Sys2Proof.Machine.execStreamEntryArrival e s
  | .loopCountEnd e loop => Sys2Proof.Machine.execLoopCountEnd e loop s
  | .interruptEntry e ward => Sys2Proof.Machine.execInterruptEntry e ward s
  | .budgetReached e => Sys2Proof.Machine.execBudgetReached e s
  | .pmemReload e => Sys2Proof.Machine.execPmemReload e s
  | .taskOffer cancelledNow => Sys2Proof.Machine.execTaskOffer cancelledNow s
  | .immediateTaskAccept => Sys2Proof.Machine.execImmediateTaskAccept s
  | .immediateHoldReoffer => Sys2Proof.Machine.execImmediateHoldReoffer s
  | .skeinWindowClose e index => Sys2Proof.Machine.execSkeinWindowClose e index s
  | .stealNear e => Sys2Proof.Machine.execStealNear e s
  | .stealFar e => Sys2Proof.Machine.execStealFar e s
  | .taskTransitEnd => Sys2Proof.Machine.execTaskTransitEnd s
  | .jobAbort e lane => Sys2Proof.Machine.execJobAbort e lane s
  | .engineDomainFailure d => Sys2Proof.Machine.execEngineDomainFailure d s
  | .evacuationWindowClose => Sys2Proof.Machine.execEvacuationWindowClose s
  | .morBookSnap => Sys2Proof.Machine.execMorBookSnap s
  | .loadSecond => Sys2Proof.Machine.execLoadSecond s
  | .memoryRequest m r => Sys2Proof.Machine.execMemoryRequest m r s
  | .urgencyRise m index => Sys2Proof.Machine.execUrgencyRise m index s
  | .writeQueueDrain m => Sys2Proof.Machine.execWriteQueueDrain m s
  | .rowIdleClose m bank => Sys2Proof.Machine.execRowIdleClose m bank s
  | .activateTableClear m => Sys2Proof.Machine.execActivateTableClear m s
  | .patrolScrub m line ecc => Sys2Proof.Machine.execPatrolScrub m line ecc s
  | .alertN m => Sys2Proof.Machine.execAlertN m s
  | .writeCrcError m => Sys2Proof.Machine.execWriteCrcError m s
  | .dimmThermalPoll temps => Sys2Proof.Machine.execDimmThermalPoll temps s
  | .periodicRetrain m failed moved => Sys2Proof.Machine.execPeriodicRetrain m failed moved s
  | .migrationPageCopy m lostLine => Sys2Proof.Machine.execMigrationPageCopy m lostLine s
  | .fenceEnd m => Sys2Proof.Machine.execFenceEnd m s
  | .memChCtlReset m width value => Sys2Proof.Machine.execMemChCtlReset m width value s
  | .memchTrainingDone m sweep => Sys2Proof.Machine.execMemchTrainingDone m sweep s
  | .memBookSnap => Sys2Proof.Machine.execMemBookSnap s
  | .hsSizeWrite width value => Sys2Proof.Machine.execHsSizeWrite width value s
  | .memTrainingDone fits => Sys2Proof.Machine.execMemTrainingDone fits s
  | .selfRefreshEntry m => Sys2Proof.Machine.execSelfRefreshEntry m s
  | .selfRefreshExit => Sys2Proof.Machine.execSelfRefreshExit s
  | .timLatch => Sys2Proof.Machine.execTimLatch s
  | .ref10mLock => Sys2Proof.Machine.execRef10mLock s
  | .ref10mLoss => Sys2Proof.Machine.execRef10mLoss s
  | .ptpSync tb t1 t2 correction => Sys2Proof.Machine.execPtpSync tb t1 t2 correction s
  | .ptpDelayResp tb t1 t2 t3 t4 correction => Sys2Proof.Machine.execPtpDelayResp tb t1 t2 t3 t4 correction s
  | .servoHoldover tb => Sys2Proof.Machine.execServoHoldover tb s
  | .ppsInEdge => Sys2Proof.Machine.execPpsInEdge s
  | .ppsOutEdge => Sys2Proof.Machine.execPpsOutEdge s
  | .timestampPop p => Sys2Proof.Machine.execTimestampPop p s
  | .timebaseConfigure c => Sys2Proof.Machine.execTimebaseConfigure c s
  | .timebaseFreq c => Sys2Proof.Machine.execTimebaseFreq c s
  | .timebaseLoad c => Sys2Proof.Machine.execTimebaseLoad c s
  | .timebaseHostSample c => Sys2Proof.Machine.execTimebaseHostSample c s
  | .timebaseStepAccept c => Sys2Proof.Machine.execTimebaseStepAccept c s
  | .cxlLinkDown => Sys2Proof.Machine.execCxlLinkDown s
  | .flr => Sys2Proof.Machine.execFlr s
  | .perst => Sys2Proof.Machine.execPerst s
  | .hdmDecoderCommit size => Sys2Proof.Machine.execHdmDecoderCommit size s
  | .cxlMemAccess offset a => Sys2Proof.Machine.execCxlMemAccess offset a s
  | .bisnpResponse line => Sys2Proof.Machine.execBisnpResponse line s
  | .h2dSnoop line => Sys2Proof.Machine.execH2dSnoop line s
  | .cxlCacheCompletion ok => Sys2Proof.Machine.execCxlCacheCompletion ok s
  | .getEventRecords log => Sys2Proof.Machine.execGetEventRecords log s
  | .clearEventRecords log handles all => Sys2Proof.Machine.execClearEventRecords log handles all s
  | .getTimestamp => Sys2Proof.Machine.execGetTimestamp s
  | .setTimestamp t => Sys2Proof.Machine.execSetTimestamp t s
  | .getSupportedLogs => Sys2Proof.Machine.execGetSupportedLogs s
  | .getLog which offset length => Sys2Proof.Machine.execGetLog which offset length s
  | .identifyMemoryDevice => Sys2Proof.Machine.execIdentifyMemoryDevice s
  | .getHealthInfo => Sys2Proof.Machine.execGetHealthInfo s
  | .getPoisonList => Sys2Proof.Machine.execGetPoisonList s
  | .fnBootInfo => Sys2Proof.Machine.execFnBootInfo s
  | .fnImageLoad offset data => Sys2Proof.Machine.execFnImageLoad offset data s
  | .fnImageStart length => Sys2Proof.Machine.execFnImageStart length s
  | .fnImageVerified => Sys2Proof.Machine.execFnImageVerified s
  | .fnCapacity => Sys2Proof.Machine.execFnCapacity s
  | .romSelfTestDone passed => Sys2Proof.Machine.execRomSelfTestDone passed s
  | .supStartDone started eeprom => Sys2Proof.Machine.execSupStartDone started eeprom s
  | .qCtlEnable q width value => Sys2Proof.Machine.execQCtlEnable q width value s
  | .qCtlDisable q width value => Sys2Proof.Machine.execQCtlDisable q width value s
  | .sqTail q width value => Sys2Proof.Machine.execSqTail q width value s
  | .commandFetch => Sys2Proof.Machine.execCommandFetch s
  | .cqHead q width value => Sys2Proof.Machine.execCqHead q width value s
  | .cqCoalesceTimeout q => Sys2Proof.Machine.execCqCoalesceTimeout q s
  | .xqHead x width value => Sys2Proof.Machine.execXqHead x width value s
  | .nqHead width value => Sys2Proof.Machine.execNqHead width value s
  | .mbxHostBookSnap => Sys2Proof.Machine.execMbxHostBookSnap s
  | .replayStart c => Sys2Proof.Machine.execReplayStart c s
  | .portCaptureStart c => Sys2Proof.Machine.execPortCaptureStart c s
  | .replayStop c => Sys2Proof.Machine.execReplayStop c s
  | .portCaptureStop c => Sys2Proof.Machine.execPortCaptureStop c s
  | .captureExport c => Sys2Proof.Machine.execCaptureExport c s
  | .lakeJobStart u => Sys2Proof.Machine.execLakeJobStart u s
  | .lakeJobEnd u => Sys2Proof.Machine.execLakeJobEnd u s
  | .exportFreezeExpiry source => Sys2Proof.Machine.execExportFreezeExpiry source s
  | .lakeStateSave width value => Sys2Proof.Machine.execLakeStateSave width value s
  | .lakeStateRestore width value image => Sys2Proof.Machine.execLakeStateRestore width value image s
  | .mirrorPair c => Sys2Proof.Machine.execMirrorPair c s
  | .failoverTake c => Sys2Proof.Machine.execFailoverTake c s
  | .engineRetire c => Sys2Proof.Machine.execEngineRetire c s
  | .engineRestore c => Sys2Proof.Machine.execEngineRestore c s
  | .engineSelfTestDone e passed => Sys2Proof.Machine.execEngineSelfTestDone e passed s
  | .imageStageSup c image => Sys2Proof.Machine.execImageStageSup c image s
  | .imageStagePack c image => Sys2Proof.Machine.execImageStagePack c image s
  | .imageActivateSup c => Sys2Proof.Machine.execImageActivateSup c s
  | .imageActivatePack c => Sys2Proof.Machine.execImageActivatePack c s
  | .rolloutDomainTurn => Sys2Proof.Machine.execRolloutDomainTurn s
  | .serviceUnlockChallenge c => Sys2Proof.Machine.execServiceUnlockChallenge c s
  | .serviceUnlockResponse c => Sys2Proof.Machine.execServiceUnlockResponse c s
  | .erasureGraceEnd => Sys2Proof.Machine.execErasureGraceEnd s
  | .rngInsert width value => Sys2Proof.Machine.execRngInsert width value s
  | .ringInsertTimeout => Sys2Proof.Machine.execRingInsertTimeout s
  | .ringLinkTrained x => Sys2Proof.Machine.execRingLinkTrained x s
  | .linkFrame x f => Sys2Proof.Machine.execLinkFrame x f s
  | .ringRetrain x => Sys2Proof.Machine.execRingRetrain x s
  | .heartbeatSend => Sys2Proof.Machine.execHeartbeatSend s
  | .heartbeat x h => Sys2Proof.Machine.execHeartbeat x h s
  | .identity x i1 => Sys2Proof.Machine.execIdentity x i1 s
  | .pairOffer first count token pub => Sys2Proof.Machine.execPairOffer first count token pub s
  | .pairConfirm status token pub => Sys2Proof.Machine.execPairConfirm status token pub s
  | .pairOfferTimeout => Sys2Proof.Machine.execPairOfferTimeout s
  | .settings b => Sys2Proof.Machine.execSettings b s
  | .settingsAckTimeout ch => Sys2Proof.Machine.execSettingsAckTimeout ch s
  | .delta b => Sys2Proof.Machine.execDelta b s
  | .deltaSend ch => Sys2Proof.Machine.execDeltaSend ch s
  | .sync b => Sys2Proof.Machine.execSync b s
  | .syncSend ch => Sys2Proof.Machine.execSyncSend ch s
  | .mirrorLagCheck => Sys2Proof.Machine.execMirrorLagCheck s
  | .ctxRequest ch token => Sys2Proof.Machine.execCtxRequest ch token s
  | .fenceQuery src token => Sys2Proof.Machine.execFenceQuery src token s
  | .fenceAnswer status token => Sys2Proof.Machine.execFenceAnswer status token s
  | .fenceDemand src token => Sys2Proof.Machine.execFenceDemand src token s
  | .fenceDemandTimeout => Sys2Proof.Machine.execFenceDemandTimeout s
  | .hold src maxS => Sys2Proof.Machine.execHold src maxS s
  | .holdExpiry => Sys2Proof.Machine.execHoldExpiry s
  | .resumeQuery src token => Sys2Proof.Machine.execResumeQuery src token s
  | .resumeAnswer adopted => Sys2Proof.Machine.execResumeAnswer adopted s
  | .livenessRefresh => Sys2Proof.Machine.execLivenessRefresh s
  | .livenessFailure => Sys2Proof.Machine.execLivenessFailure s
  | .upstreamSilence => Sys2Proof.Machine.execUpstreamSilence s
  | .adoption => Sys2Proof.Machine.execAdoption s
  | .announcementRepeat => Sys2Proof.Machine.execAnnouncementRepeat s
  | .rngBookSnap => Sys2Proof.Machine.execRngBookSnap s
  | .warmReset width value => Sys2Proof.Machine.execWarmReset width value s
  | .supReset width value => Sys2Proof.Machine.execSupReset width value s
  | .portReset width value => Sys2Proof.Machine.execPortReset width value s
  | .coldReset width value => Sys2Proof.Machine.execColdReset width value s
  | .supReturn => Sys2Proof.Machine.execSupReturn s
  | .supFallback => Sys2Proof.Machine.execSupFallback s
  | .secSvnCommit width value => Sys2Proof.Machine.execSecSvnCommit width value s
  | .eventCoalesceFlush code unit inst chan => Sys2Proof.Machine.execEventCoalesceFlush code unit inst chan s
  | .getMeasurements index => Sys2Proof.Machine.execGetMeasurements index s
  | .spdmMessage m => Sys2Proof.Machine.execSpdmMessage m s
  | .powerOn => Sys2Proof.Machine.execPowerOn s
  | .coldRstL lowNs => Sys2Proof.Machine.execColdRstL lowNs s
  | .supplyFault rail => Sys2Proof.Machine.execSupplyFault rail s
  | .brownOut rail => Sys2Proof.Machine.execBrownOut rail s
  | .engineDomainGate width value => Sys2Proof.Machine.execEngineDomainGate width value s
  | .engineDomainUngate width value passed => Sys2Proof.Machine.execEngineDomainUngate width value passed s
  | .overcurrentTrip d => Sys2Proof.Machine.execOvercurrentTrip d s
  | .sensorRead temps => Sys2Proof.Machine.execSensorRead temps s
  | .tripComparator temps => Sys2Proof.Machine.execTripComparator temps s
  | .referenceClockLoss r => Sys2Proof.Machine.execReferenceClockLoss r s
  | .srtpKeySet c => Sys2Proof.Machine.execSrtpKeySet c s
  | .dramRefresh m rank => Sys2Proof.Machine.execDramRefresh m rank s
  | .cxlLinkTrained width rate => Sys2Proof.Machine.execCxlLinkTrained width rate s
  | .ringLinkDown x => Sys2Proof.Machine.execRingLinkDown x s
  | .tapBlockLock => Sys2Proof.Machine.execTapBlockLock s
  | .brownOutRelease => Sys2Proof.Machine.execBrownOutRelease s
  | .ptpAnnounce tb a => Sys2Proof.Machine.execPtpAnnounce tb a s

end Sys2Proof.Machine
end

