-- ==== Sys2Proof/Safety.lean ====
section
/-! DEFINITION. What a safe state of the block is (its sparse stores are canonical, so that equal states are equal data), and the
conditions in which the statements are made: a row answers a next state of which something holds, and a supervisor command
is one that runs now. -/

namespace Sys2Proof.Safety

open Sys2Proof.Machine

/-- The host-shared bytes and the register file are in canonical form. -/
def Canonical (s : State) : Prop := sorted s.regs = true ∧ memWf s.mem.hostShared = true

/-- Row `i` answers a next state of which `P` holds. -/
def Gives (i : Instr) (s : State) (P : State → Prop) : Prop := ∃ t, exec i s = .next t ∧ P t

/-- A supervisor command that Bister has recorded and that runs now: Bister serves commands (R401), the record of taken commands
holds it and says that it has not been applied (R431), no earlier command holds it back (R429), no service access and no erasure forbids it
(R504), none of its reserved fields is set (R10), and a command of two stages finds a final entry free (R427). -/
def commandRuns (c : HostCmd) (op : Nat) (used : List (Nat × Nat)) (groups : Bool) (s : State) : Bool :=
  s.served && s.sup.taken.any (fun t => t.qid = c.qid.val && t.tag = c.tag.toNat) &&
    !(s.sup.taken.any (fun t => t.qid = c.qid.val && t.tag = c.tag.toNat && t.applied)) &&
    !s.heldBack c.qid.val c.tag.toNat op && !s.flag secService && !s.flag secErasing && (c.rsvd == 0) &&
    (entryBad c used groups).isNone && (!twoStage op || decide (s.sup.finals < 64))

/-- The power domains in which a row's unit lies, where it does nothing without them (Table 1.3): PD-MEM (28) and PD-ACC (29). -/
def domainsOf : Instr → List Nat
  | .steepRingWrite .. | .playoutTick .. | .ringMove .. | .weldOffer .. | .repairSymbolReceive .. | .decodeJobStart .. | .decodeJobEnd ..
  | .ffBlockTimeout .. | .skeinDispatch .. | .streamEntryArrival .. | .lakeJobStart .. | .lakeJobEnd .. => [28, 29]
  | .memoryRequest .. | .urgencyRise .. | .writeQueueDrain .. | .rowIdleClose .. | .activateTableClear .. | .patrolScrub .. | .alertN ..
  | .writeCrcError .. | .periodicRetrain .. | .migrationPageCopy .. | .dramRefresh .. => [28]
  | .flowLookup .. | .previousKeyDiscard .. | .excRateWindow | .flowSlotRewrite .. | .egressPacketBuild .. | .tickEntryTaken ..
  | .transitWindowAge .. | .forceAfterExpiry .. | .weldAnswerTimeout .. | .woadSearch .. | .glazeDescriptorStart ..
  | .glazeDescriptorComplete .. | .taskOffer .. | .immediateTaskAccept .. | .immediateHoldReoffer .. | .skeinWindowClose .. | .stealNear ..
  | .stealFar .. | .taskTransitEnd .. | .evacuationWindowClose .. => [29]
  | _ => []

/-- The domains of row `i` are powered. -/
abbrev unitOn (i : Instr) (s : State) : Prop := (domainsOf i).any s.pwr.domainsOff.contains = false

/-- The channel a channel command names in its word 1. -/
def chanOf (c : HostCmd) : Nat := bits c.w1.toNat 0 16

/-- The completion of command `c`, opcode `op`, with OK. -/
def ok (c : HostCmd) (op res2 res3 : Nat) (s : State) : State := s.complete c.qid.val c.tag.toNat op stOK 0 res2 res3

/-- The completion of command `c`, opcode `op`, with a refusal. -/
def refused (c : HostCmd) (op status detail : Nat) (s : State) : State := s.complete c.qid.val c.tag.toNat op status detail 0 0

end Sys2Proof.Safety
end

