-- ==== Sys2Proof/Certificates/Slice0/Obligations.lean ====
section
/-! DEFINITION. The statements for the provers. -/

open Sys2Proof Sys2Proof.Machine Sys2Proof.Safety

/-- For every command c and state s, step of s with c at the front of its queue is exec of c on s with the queue's rest, and it answers a next state: no command of the block ends in a fault or a refusal of the model. The queue is the model's own field, not the spec's. -/
def Obligations.StepRunsFrontCommand : Prop :=
  ∀ (c : Instr) (rest : List Instr) (s : State), step { s with pending := c :: rest } = exec c { s with pending := rest } ∧
    ∃ t, step { s with pending := c :: rest } = .next t

/-- On an empty queue a step answers a next state in which one TCLK cycle has passed: each time base has advanced by 1 ns plus FREQ and nothing but the clock and the time bases has changed. That the cycle falls in an idle step is the model's choice (assumption log 1). -/
def Obligations.IdleStepIsOneCycle : Prop :=
  ∀ s : State, s.pending = [] → ∃ t, step s = .next t ∧ t.now = s.now + 1 ∧ t = { s with now := s.now + 1, time := t.time } ∧
    (∀ n < 4, t.tb n = tbCycle (s.tb n)) ∧ (∀ n < 4, (s.tb n).freq = 0 → t.tbVal n = (s.tbVal n + 1) % 2 ^ 64)

/-- After reset no command waits, every register field reads its reset value, every channel is FREE, every time base reads 0 with FREQ 0, the boot state is ROM_INIT, no engine or port holds anything, host-shared memory lists no byte, and the stores are canonical. Reset values the spec does not give are the model's (assumption log 57). -/
def Obligations.StateAfterReset : Prop :=
  State.reset.pending = [] ∧ (∀ (d : RegDesc) (i j : Nat), State.reset.rd d i j = d.reset i) ∧ (∀ ch, (State.reset.chan ch).st = .free) ∧
  (∀ n, State.reset.tbVal n = 0 ∧ (State.reset.tb n).freq = 0) ∧ State.reset.rd mbxBootState = 0 ∧ State.reset.engines = [] ∧
  (∀ p, (State.reset.port p).rxQ = [] ∧ (State.reset.port p).queues = []) ∧ State.reset.mem.hostShared = [] ∧ Canonical State.reset

/-- From every state whose register file lists its keys rising and whose host-shared memory is canonical (addresses strictly rising, no byte listed that equals what an unlisted address reads as), a step that answers a next state answers one of the same kind. -/
def Obligations.CanonicalKept : Prop :=
  ∀ s t : State, Canonical s → step s = .next t → Canonical t

/-- TIM_LATCH holds the four values and clears REQ and changes no other register field; lock and loss of TIME_10M_IN switch the reference, a loss also sets REF_LOST and raises TIM_REF_LOST, and one without a lock changes nothing; with EN 1, PPS_OUT rises for WIDTH ms where an edge point above the last one emitted has been reached, TB and OFFSET as written then come into force, and nothing else changes; where none has been reached or EN is 0, nothing changes. -/
def Obligations.TimeReferenceRows : Prop :=
  (∀ s : State, Gives .timLatch s (fun t => (∀ n < 4, t.rd timLatchTb n = s.tbVal n) ∧ t.rd timLatchReq = 0 ∧ t = { s with regs := t.regs } ∧
    ∀ (d : RegDesc) (i j : Nat), d.key i j ≠ timLatchReq.key 0 0 → (∀ n < 4, d.key i j ≠ timLatchTb.key n 0) → t.rd d i j = s.rd d i j)) ∧
  (∀ s : State, exec .ref10mLock s = .next { s with time := { s.time with ref10m := true } }) ∧
  (∀ s : State, s.time.ref10m = true →
    exec .ref10mLoss s = .next (({ s with time := { s.time with ref10m := false } }.wr timRefLost 1).raise 0x0042 uTIM)) ∧
  (∀ s : State, s.time.ref10m = false → exec .ref10mLoss s = .next s) ∧
  (∀ s : State, s.flag timPpsOutEn = true → s.time.ppsOutLast < s.ppsSecond → Gives .ppsOutEdge s (fun t =>
    t.time.ppsOutFall = s.now + ms (s.rd timPpsOutWidth) ∧ t.ppsOut = decide (0 < s.rd timPpsOutWidth) ∧ t.time.ppsTb = s.rd timPpsOutTb ∧
    t.time.ppsOffset = signed 32 (s.rd timPpsOutOffset) ∧ t.ppsSecond ≤ t.time.ppsOutLast ∧
    (s.time.ppsTb = s.rd timPpsOutTb → s.time.ppsOffset = signed 32 (s.rd timPpsOutOffset) → t.time.ppsOutLast = s.ppsSecond) ∧
    t = { s with time := { s.time with ppsOutFall := t.time.ppsOutFall, ppsTb := t.time.ppsTb, ppsOffset := t.time.ppsOffset, ppsOutLast := t.time.ppsOutLast } })) ∧
  (∀ s : State, s.flag timPpsOutEn = false ∨ s.ppsSecond ≤ s.time.ppsOutLast → exec .ppsOutEdge s = .next s)

/-- Where a time base has reached a boundary above the last one emitted, that boundary becomes the newest of at most 16 entries; the oldest leaves a full queue and a missed tick is counted for that base, in no other register; the other time bases and everything else are unchanged. Where none has been reached, nothing changes. -/
def Obligations.TickBoundaryQueued : Prop :=
  ∀ (tb : TbId) (s : State), let n := tb.val; let b := s.tbVal n / 250000
    (¬(s.tb n).lastTick < b → exec (.tickBoundary tb) s = .next s) ∧
    ((s.tb n).lastTick < b → Gives (.tickBoundary tb) s (fun t =>
      (t.tb n).lastTick = b ∧ (t.tb n).tickQ.getLast? = some b ∧ t.tbVal n = s.tbVal n ∧
      ((s.tb n).tickQ.length < 16 → (t.tb n).tickQ = (s.tb n).tickQ ++ [b] ∧ t.regs = s.regs) ∧
      (16 ≤ (s.tb n).tickQ.length → (t.tb n).tickQ = (s.tb n).tickQ.tail ++ [b] ∧ t.rd stpMissedTick n = (s.rd stpMissedTick n + 1) % 2 ^ 64) ∧
      (∀ (d : RegDesc) (i j : Nat), d.key i j ≠ stpMissedTick.key n 0 → t.rd d i j = s.rd d i j) ∧
      (∀ m, m ≠ n → t.tb m = s.tb m) ∧ t = { s with time := t.time, regs := t.regs }))

/-- With no usable sample for 3 s a followed time base whose step is not refused goes to HOLDOVER with FREQ held; a Delay_Resp renews the mean path delay and takes Bister's oldest transmit timestamp on the port of the slave; the first Announce of the slave's domain, one of the present master, one of a better master and one that comes 6 s after the master's last are kept with the time, any other leaves all as it is. While Bister restarts, both messages change nothing. The 6 s are the model's (assumption log 113). -/
def Obligations.ServoRows : Prop :=
  (∀ (tb : TbId) (s : State), s.rd timTbSrc tb.val ≠ 0 → s.flag timTbStepRefused tb.val = false → (s.tb tb.val).sampleAt + sec 3 ≤ s.now →
    exec (.servoHoldover tb) s = .next ((s.wr timTbState 3 tb.val).modTb tb.val (fun t => { t with lockRun := 0 }))) ∧
  (∀ (tb : TbId) (s : State), s.rd timTbSrc tb.val = 0 ∨ s.flag timTbStepRefused tb.val = true ∨ s.now < (s.tb tb.val).sampleAt + sec 3 →
    exec (.servoHoldover tb) s = .next s) ∧
  (∀ (tb : TbId) (t1 t2 t3 t4 corr : Int) (s : State), let n := tb.val; let p := s.rd timTbPort n
    s.rd timTbSrc n = 1 → s.sup.restarting = false → Gives (.ptpDelayResp tb t1 t2 t3 t4 corr) s (fun t =>
      (t.tb n) = { s.tb n with pathDelay := ((t2 - t1) + (t4 - t3) - corr) / 2 } ∧ (∀ m, m ≠ n → t.tb m = s.tb m) ∧
      (∀ e, (s.port p).txStamps.find? (fun x => !x.host) = some e → t.port p = { s.port p with txStamps := (s.port p).txStamps.erase e }) ∧
      ((s.port p).txStamps.find? (fun x => !x.host) = none → t.ports = s.ports) ∧ (∀ k, k ≠ p → t.port k = s.port k) ∧
      t = { s with time := t.time, ports := t.ports })) ∧
  (∀ (tb : TbId) (a : AnnounceMsg) (s : State), let n := tb.val
    let kept := s.modTb n (fun t => { t with master := some a, masterAt := s.now })
    s.rd timTbSrc n = 1 → s.sup.restarting = false → a.domain = s.rd timTbDomain n →
    ((s.tb n).master = none → exec (.ptpAnnounce tb a) s = .next kept) ∧
    (∀ m, (s.tb n).master = some m → exec (.ptpAnnounce tb a) s =
      .next (if m.identity = a.identity ∨ betterMaster a m = true ∨ (s.tb n).masterAt + sec 6 ≤ s.now then kept else s))) ∧
  (∀ (tb : TbId) (a : AnnounceMsg) (s : State), s.rd timTbSrc tb.val ≠ 1 ∨ s.sup.restarting = true ∨ a.domain ≠ s.rd timTbDomain tb.val →
    exec (.ptpAnnounce tb a) s = .next s)

/-- A Sync adds one sample of the offset R370 names; J is the lower middle value of the last eight; beyond STEP_LIMIT the step is refused, shown in PEND_STEP and counted once; an outlier is counted and leaves STATE; a usable sample makes STATE LOCKED after eight in a row with |J| at most 100 ns, else ACQUIRING. Channels, ports and memory are untouched while SET is 1. -/
def Obligations.OffsetSampleJudged : Prop :=
  ∀ (tb : TbId) (t1 t2 corr : Int) (s : State), let n := tb.val
    let x := t1 + (s.tb n).pathDelay + corr - t2
    let j := judged ((x :: (s.tb n).samples).take 8)
    s.rd timTbSrc n = 1 → s.sup.restarting = false → s.flag timTbSet n = true →
    Gives (.ptpSync tb t1 t2 corr) s (fun t =>
      (t.tb n).samples = (x :: (s.tb n).samples).take 8 ∧ t.rd timTbSamples n = (s.rd timTbSamples n + 1) % 2 ^ 64 ∧
      t.chans = s.chans ∧ t.ports = s.ports ∧ t.mem = s.mem ∧ (∀ m, m ≠ n → t.tb m = s.tb m) ∧
      (s.rd timTbStepLimit n < j.natAbs → t.flag timTbStepRefused n = true ∧ t.rd timTbPendStep n = wrapInt 64 j % 2 ^ 64 ∧ (t.tb n).freq = (s.tb n).freq ∧
        (s.flag timTbStepRefused n = false → t.rd timTbState n = 4 ∧ t.rd timTbStepsRefused n = (s.rd timTbStepsRefused n + 1) % 2 ^ 64) ∧
        (s.flag timTbStepRefused n = true → t.rd timTbState n = s.rd timTbState n ∧ t.rd timTbStepsRefused n = s.rd timTbStepsRefused n)) ∧
      (j.natAbs ≤ s.rd timTbStepLimit n → t.flag timTbStepRefused n = false ∧
        (s.rd timTbStepLimit n < x.natAbs → t.rd timTbOutliers n = (s.rd timTbOutliers n + 1) % 2 ^ 64 ∧ t.rd timTbState n = s.rd timTbState n ∧
          (t.tb n).freq = (s.tb n).freq) ∧
        (x.natAbs ≤ s.rd timTbStepLimit n → (t.tb n).lockRun = (if j.natAbs ≤ 100 then (s.tb n).lockRun + 1 else 0) ∧ (t.tb n).sampleAt = s.now ∧
          t.rd timTbOutliers n = s.rd timTbOutliers n ∧ t.rd timTbState n = (if 8 ≤ (t.tb n).lockRun then 2 else 1))))

/-- While SET is 0 and nothing uses the time base, a first Sync applies its offset as a step, sets SET and makes STATE ACQUIRING; an edge of PPS_IN at least 900 ms after the last one is captured on all four time bases where none of them follows it, and an earlier edge only counts as a glitch. -/
def Obligations.FirstOffsetStepsBase : Prop :=
  (∀ (tb : TbId) (t1 t2 corr : Int) (s : State), let n := tb.val; let x := t1 + (s.tb n).pathDelay + corr - t2
    s.rd timTbSrc n = 1 → s.sup.restarting = false → s.flag timTbSet n = false → s.tbUsed n = false → (s.tb n).samples = [] →
    exec (.ptpSync tb t1 t2 corr) s = .next
      (((((((s.modTb n (fun t => { t with samples := [x] })).bump timTbSamples n).wr timTbLastJ (wrapInt 32 (clampInt (-2147483648) 2147483647 x)) n).applyStep n x).wr timTbSet 1 n).wr timTbState 1 n).modTb n
        (fun t => { t with sampleAt := s.now }))) ∧
  (∀ s : State, s.time.ppsInAt.any (fun t => decide (s.now < t + ms 900)) = true → exec .ppsInEdge s = .next (s.bump timPpsGlitch)) ∧
  (∀ s : State, s.time.ppsInAt.any (fun t => decide (s.now < t + ms 900)) = false → (∀ n < 4, s.rd timTbSrc n ≠ 2) →
    Gives .ppsInEdge s (fun t => t.time = { s.time with ppsInAt := some s.now } ∧ (∀ n < 4, t.rd timPpsCap n = s.tbVal n) ∧ t = { s with regs := t.regs, time := t.time }))

/-- An edge of PPS_IN that comes 900 ms or more after the last accepted one is accepted and puts the value of each time base into its TIM_PPS_CAP; an earlier edge changes nothing but TIM_PPS_GLITCH, which counts it. Formalises R384. -/
def Obligations.PpsInEdgeCaptured : Prop :=
  ∀ s : State,
    ((∀ t, s.time.ppsInAt = some t → t + ms 900 ≤ s.now) →
      Gives .ppsInEdge s (fun u => u.time.ppsInAt = some s.now ∧ ∀ n < 4, u.rd timPpsCap n = s.tbVal n)) ∧
    (∀ t, s.time.ppsInAt = some t → s.now < t + ms 900 → exec .ppsInEdge s = .next (s.bump timPpsGlitch))

/-- A TIMEBASE_SET that runs configures source, port, transport, domain and STEP_LIMIT (TRANSPORT 3 or a STEP_LIMIT outside 10 to 1,000,000 is BAD_PARAM; a new source or port also ends a refusal, empties the sample window, drops the master and gives STATE 0 or 1), sets FREQ of a free-running base (BAD_STATE for another, BAD_PARAM beyond 4,294,967), loads an unused base (BAD_STATE for a used one), or takes a host sample (BAD_STATE unless SRC is 3, BUSY from the 129th of a second of the base); a TIMEBASE_STEP_ACCEPT within STEP_LIMIT of the expected step applies the pending step, ends the refusal and gives STATE 1, else it is BAD_STATE. Each that is not refused completes with OK, a load with its value and an accept with the step and the value after it. -/
def Obligations.TimebaseCommands : Prop :=
  (∀ (c : HostCmd) (s : State), let n := bits c.w1.toNat 0 2; let w := c.w3.toNat
    let set := ((((s.wr timTbSrc (bits w 0 2) n).wr timTbPort (bits w 2 2) n).wr timTbTransport (bits w 4 2) n).wr timTbDomain (bits w 8 8) n).wr timTbStepLimit (bits w 32 20) n
    let fresh := fun (t : TimeBase) => { t with samples := [], lockRun := 0, sampleAt := s.now, master := none, pathDelay := 0 }
    commandRuns c 0x30 (tbUse 0x000FFFFF0000FF3F) false s = true →
    exec (.timebaseConfigure c) s = .next (
      if bits w 4 2 = 3 then refused c 0x30 stBAD_PARAM 24 s
      else if bits w 32 20 < 10 ∨ 1000000 < bits w 32 20 then refused c 0x30 stBAD_PARAM 28 s
      else if s.rd timTbSrc n = bits w 0 2 ∧ s.rd timTbPort n = bits w 2 2 then ok c 0x30 0 0 set
      else ok c 0x30 0 0 (((set.clearRefusal n).modTb n fresh).wr timTbState (if bits w 0 2 = 0 then 0 else 1) n))) ∧
  (∀ (c : HostCmd) (s : State), let n := bits c.w1.toNat 0 2; let f := signed 32 (bits c.w3.toNat 0 32)
    commandRuns c 0x30 (tbUse 0xFFFFFFFF) false s = true →
    exec (.timebaseFreq c) s = .next (
      if s.rd timTbSrc n ≠ 0 then refused c 0x30 stBAD_STATE 0 s
      else if 4294967 < f.natAbs then refused c 0x30 stBAD_PARAM 24 s
      else ok c 0x30 0 0 (s.modTb n (fun t => { t with freq := f, tracked := f })))) ∧
  (∀ (c : HostCmd) (s : State), let n := bits c.w1.toNat 0 2
    commandRuns c 0x30 (tbUse 0xFFFFFFFFFFFFFFFF) false s = true →
    exec (.timebaseLoad c) s = .next (if s.tbUsed n = true then refused c 0x30 stBAD_STATE 0 s
      else ok c 0x30 c.w3.toNat 0 ((s.applyStep n ((c.w3.toNat : Int) - s.tbVal n)).wr timTbSet 1 n))) ∧
  (∀ (c : HostCmd) (s : State), let n := bits c.w1.toNat 0 2; let second := s.tbVal n / 1000000000
    let count := if (s.tb n).hostSec = second then (s.tb n).hostCount else 0
    commandRuns c 0x30 (tbUse 0xFFFFFFFFFFFFFFFF) false s = true →
    exec (.timebaseHostSample c) s = .next (if s.rd timTbSrc n ≠ 3 then refused c 0x30 stBAD_STATE 0 s else if 128 ≤ count then refused c 0x30 stBUSY 0 s
      else ok c 0x30 0 0 ((s.modTb n (fun t => { t with hostSec := second, hostCount := count + 1 })).offsetSample n (signed 64 c.w3.toNat)))) ∧
  (∀ (c : HostCmd) (s : State), let n := bits c.w1.toNat 0 2; let pend := signed 64 (s.rd timTbPendStep n)
    commandRuns c 0x31 [(1, 0x3), (3, 0xFFFFFFFFFFFFFFFF)] false s = true →
    exec (.timebaseStepAccept c) s = .next (if s.flag timTbStepRefused n = true ∧ (pend - signed 64 c.w3.toNat).natAbs ≤ s.rd timTbStepLimit n
      then ok c 0x31 (wrapInt 64 pend) ((s.applyStep n pend).tbVal n)
        ((((s.applyStep n pend).wr timTbStepRefused 0 n).wr timTbPendStep 0 n).wr timTbState 1 n)
      else refused c 0x31 stBAD_STATE 0 s))

/-- A write that is neither a naturally aligned 32-bit nor 64-bit access, or a 64-bit one to a doorbell, changes nothing but MBX_BAD_ACCESS, which counts it; such a read answers 0 and is counted too. -/
def Obligations.BadAccessCounted : Prop :=
  (∀ addr width : Nat, goodAccess addr width = true ↔
    (width = 32 ∧ addr % 4 = 0) ∨ (width = 64 ∧ addr % 8 = 0 ∧ ¬(0x1000000 ≤ addr ∧ addr < 0x1051000))) ∧
  (∀ (addr width : Nat) (v : HostWrite) (s : State), goodAccess addr width = false →
    exec (.registerWrite addr width v) s = .next (s.bump mbxBadAccess)) ∧
  (∀ (addr width : Nat) (event : Option Nat) (s : State), goodAccess addr width = false →
    exec (.rcRegisterRead addr width event) s =
      .next (State.bump { s with host := { s.host with readData := 0, readPoison := false } } mbxBadAccess))

/-- A 64-bit write of TIM_PPS_OUT gives each of its RW fields its bits where they lie in its range, leaves a field out of range as it was and then sets CFG_ERR; where it takes EN from 0 to 1, TB and OFFSET are in force from then on, and else the outputs go on by the old ones. A write of TIM_STATUS clears the W1C bits written as 1, but one that hardware sets in the same cycle stays 1, and leaves REF_10M; a write of 1 to the W1S bit TIM_LATCH.REQ sets it and a 0 leaves it. Every other register field and everything else is unchanged. -/
def Obligations.FieldsWriteByAccessType : Prop :=
  (∀ (v : HostWrite) (s : State), let w := v.value.toNat; let okW := decide (1 ≤ bits w 4 9) && decide (bits w 4 9 ≤ 500)
    let okO := decide (-500000 ≤ signed 32 (bits w 32 32)) && decide (signed 32 (bits w 32 32) ≤ 500000)
    Gives (.registerWrite 0x20040 64 v) s (fun t =>
      t.rd timPpsOutEn = bits w 0 1 ∧ t.rd timPpsOutTb = bits w 1 2 ∧ t.rd timPpsOutWidth = (if okW then bits w 4 9 else s.rd timPpsOutWidth) ∧
      t.rd timPpsOutOffset = (if okO then bits w 32 32 else s.rd timPpsOutOffset) ∧ t.rd timCfgErr = (if okW && okO then s.rd timCfgErr else 1) ∧
      (∀ (d : RegDesc) (i j : Nat), (∀ f ∈ [timPpsOutEn, timPpsOutTb, timPpsOutWidth, timPpsOutOffset, timCfgErr], d.key i j ≠ f.key 0 0) →
        t.rd d i j = s.rd d i j) ∧
      (s.flag timPpsOutEn = true ∨ bits w 0 1 = 0 → t.time = s.time) ∧
      (s.flag timPpsOutEn = false → bits w 0 1 = 1 → t.time.ppsTb = t.rd timPpsOutTb ∧ t.time.ppsOffset = signed 32 (t.rd timPpsOutOffset) ∧
        t.time = { s.time with ppsTb := t.time.ppsTb, ppsOffset := t.time.ppsOffset, ppsOutLast := t.time.ppsOutLast }) ∧
      t = { s with regs := t.regs, time := t.time })) ∧
  (∀ (v : HostWrite) (s : State), s.rd timRefLost < 2 → s.rd timCfgErr < 2 →
    Gives (.registerWrite 0x20008 64 v) s (fun t =>
      t.rd timRefLost = (if bit v.sets.toNat 2 then 1 else if bit v.value.toNat 2 then 0 else s.rd timRefLost) ∧
      t.rd timCfgErr = (if bit v.sets.toNat 0 then 1 else if bit v.value.toNat 0 then 0 else s.rd timCfgErr) ∧
      (∀ (d : RegDesc) (i j : Nat), d.key i j ≠ timRefLost.key 0 0 → d.key i j ≠ timCfgErr.key 0 0 → t.rd d i j = s.rd d i j) ∧
      t = { s with regs := t.regs })) ∧
  (∀ (v : HostWrite) (s : State), s.rd timLatchReq < 2 →
    Gives (.registerWrite 0x20010 64 v) s (fun t => t.rd timLatchReq = (if bit v.value.toNat 0 then 1 else s.rd timLatchReq) ∧
      (∀ (d : RegDesc) (i j : Nat), d.key i j ≠ timLatchReq.key 0 0 → t.rd d i j = s.rd d i j) ∧ t = { s with regs := t.regs }))

/-- A 64-bit read of STP_RELQ_HWM answers the high-water mark and leaves it at 0, or at what an event of the same cycle brings; a read of TIM_TXTS_TIME answers the time of the oldest host entry of the port's transmit timestamp queue and pops that entry alone. -/
def Obligations.RcFieldClearsOnRead : Prop :=
  (∀ (event : Option Nat) (s : State), s.rd stpRelqHwm < 2 ^ 14 → event.all (fun e => decide (e < 2 ^ 14)) = true →
    Gives (.rcRegisterRead 0x50018 64 event) s (fun t => t.host = { s.host with readData := s.rd stpRelqHwm, readPoison := false } ∧
      t.rd stpRelqHwm = event.getD 0 ∧ t = { s with host := t.host, regs := t.regs })) ∧
  (∀ (p : PortId) (e : TxStamp) (s : State), (s.port p.val).txStamps.find? (·.host) = some e → e.time < 2 ^ 64 →
    Gives (.timestampPop p) s (fun t => t.host = { s.host with readData := e.time, readPoison := false } ∧
      (t.port p.val).txStamps = (s.port p.val).txStamps.erase e ∧ (∀ k, k ≠ p.val → t.port k = s.port k) ∧
      t = { s with host := t.host, ports := t.ports }))

/-- A write of a RESERVE or LIMIT register is ignored and sets FLW_STATUS.CFG_ERR if it would put a value above 131,072, make the four RESERVE values sum to more than 131,072, or make RESERVE exceed LIMIT in a class; any other is taken. Formalises R112. -/
def Obligations.PoolWriteRefusedWhole : Prop :=
  ∀ (k : Fin 4) (r l : Nat) (sets : Word64) (s : State), r < 2 ^ 18 → l < 2 ^ 18 →
    let v : HostWrite := { value := BitVec.ofNat 64 (r + l * 2 ^ 32), sets := sets }
    let sum := ((List.range 4).map (fun c => if c = k.val then r else s.reserveOf c)).sum
    (r ≤ 131072 ∧ l ≤ 131072 ∧ sum ≤ 131072 ∧ r ≤ l ∧ (∀ c < 4, c ≠ k.val → s.reserveOf c ≤ s.limitOf c) →
      Gives (.registerWrite (0x40040 + 8 * k.val) 64 v) s (fun t => t.reserveOf k.val = r ∧ t.limitOf k.val = l ∧
        (∀ c < 4, c ≠ k.val → t.reserveOf c = s.reserveOf c ∧ t.limitOf c = s.limitOf c) ∧ t = { s with regs := t.regs })) ∧
    (131072 < r ∨ 131072 < l ∨ 131072 < sum ∨ l < r → exec (.registerWrite (0x40040 + 8 * k.val) 64 v) s = .next (s.wr flwCfgErr 1))

/-- Outside service access and erasure, a write of SUP_RESET_CTL with GO 1, KEY 0x5AFE and KIND 1 to 4 makes the request of its KIND, for the port in TARGET where KIND is 3; any other write, KIND 0 or an unused one among them, leaves everything unchanged but SUP_RESET_STATUS.CFG_ERR, which it sets. The four reset rows are this one write. Formalises R476. -/
def Obligations.ResetControlTaken : Prop :=
  ∀ (width : Nat) (v : Word64) (s : State), let w := v.toNat; let kind := bits w 0 3
    let acts := width = 64 ∧ bit w 32 = true ∧ bits w 16 16 = 0x5AFE ∧ 1 ≤ kind ∧ kind ≤ 4
    let t := (s.wr supResetKind kind).wr supResetTarget (bits w 4 2)
    goodAccess 0x10300 width = true → s.flag secService = false → s.flag secErasing = false →
    (acts → kind = 1 → exec (.warmReset width v) s = .next t.warmRequest) ∧
    (acts → kind = 2 → exec (.supReset width v) s = .next (supReset t)) ∧
    (acts → kind = 3 → exec (.portReset width v) s = .next (t.portRequest (bits w 4 2))) ∧
    (acts → kind = 4 → exec (.coldReset width v) s = .next t.coldRequest) ∧
    (¬acts → ∀ i, i = Instr.warmReset width v ∨ i = Instr.supReset width v ∨ i = Instr.portReset width v ∨ i = Instr.coldReset width v →
      exec i s = .next (s.wr supResetCfgErr 1))

/-- A PORT reset that no wider reset absorbs, with nothing on the wire, empties the receive buffer and the timestamp queue of its port and touches no other port, no channel, engine, memory or time base; while Bister serves, a SUP reset that nothing absorbs puts Bister into its restart and leaves channels, engines, ports and host-shared memory; a WARM reset starts the ROM with MBX_BOOT.WARM, empties engines, units and the host's queues, takes the host link down and leaves the time bases; a COLD reset clears every store and time base, leaves the fuses of lifecycle and SVN and shows BUSY. A request that a reset under way absorbs leaves its KIND and TARGET and counts in its counter, COLD having none, and does nothing else. -/
def Obligations.ResetRequestsAct : Prop :=
  (∀ (v : Word64) (s : State), let w := v.toNat; let p := bits w 4 2
    bit w 32 = true → bits w 16 16 = 0x5AFE → bits w 0 3 = 3 → s.flag secService = false → s.flag secErasing = false → s.inReset 2 = false → (s.port p).wire = none →
    Gives (.portReset 64 v) s (fun t => (t.port p).rxQ = [] ∧ (t.port p).txStamps = [] ∧ (t.port p).wire = none ∧ (∀ q, q ≠ p → t.port q = s.port q) ∧
      t.chans = s.chans ∧ t.engines = s.engines ∧ t.mor = s.mor ∧ t.mem = s.mem ∧ t.time = s.time ∧ t.ring = s.ring)) ∧
  (∀ (v : Word64) (s : State), let w := v.toNat
    bit w 32 = true → bits w 16 16 = 0x5AFE → bits w 0 3 = 2 → s.flag secService = false → s.flag secErasing = false → s.inReset 2 = false →
    s.served = true → s.sup.restarting = false →
    Gives (.supReset 64 v) s (fun t => t.sup.restarting = true ∧ t.engines = s.engines ∧ t.chans = s.chans ∧ t.ports = s.ports ∧ t.mem.hostShared = s.mem.hostShared)) ∧
  (∀ (v : Word64) (s : State), let w := v.toNat
    bit w 32 = true → bits w 16 16 = 0x5AFE → bits w 0 3 = 1 → s.flag secService = false → s.flag secErasing = false → s.inReset 1 = false →
    Gives (.warmReset 64 v) s (fun t => t.rd mbxBootState = 0 ∧ t.flag mbxBootWarm = true ∧ t.flag supResetBusy = true ∧ t.rd supResetLast = 1 ∧
      t.engines = [] ∧ t.weldU = {} ∧ t.glaze = {} ∧ t.host.queues = [] ∧ t.host.linkUp = false ∧ t.sup.taken = [] ∧ t.time = s.time)) ∧
  (∀ (v : Word64) (s : State), let w := v.toNat
    bit w 32 = true → bits w 16 16 = 0x5AFE → bits w 0 3 = 4 → s.flag secErasing = false → s.inReset 0 = false →
    Gives (.coldReset 64 v) s (fun t => t.flag supResetBusy = true ∧ t.rd mbxBootState = 0 ∧ t.chans = [] ∧ t.engines = [] ∧ t.mor = {} ∧ t.mem = {} ∧
      t.time = {} ∧ t.ring = {} ∧ t.host = {} ∧ t.ing = {} ∧ t.rd secLifecycle = s.rd secLifecycle ∧ t.rd secSvnFusedSup = s.rd secSvnFusedSup)) ∧
  (∀ (v : Word64) (s : State), let w := v.toNat; let u := (s.wr supResetKind (bits w 0 3)).wr supResetTarget (bits w 4 2)
    bit w 32 = true → bits w 16 16 = 0x5AFE → s.flag secService = false → s.flag secErasing = false →
    (bits w 0 3 = 3 → s.inReset 2 = true → exec (.portReset 64 v) s = .next (u.bump supResetsPort)) ∧
    (bits w 0 3 = 2 → s.inReset 2 = true → exec (.supReset 64 v) s = .next (u.bump supResetsSup)) ∧
    (bits w 0 3 = 1 → s.inReset 1 = true → exec (.warmReset 64 v) s = .next (u.bump supResetsWarm)) ∧
    (bits w 0 3 = 4 → s.inReset 0 = true → exec (.coldReset 64 v) s = .next u))

/-- Power on, a low of COLD_RST_L of 6 µs or more and a brown-out are each a COLD reset: every store and time base is cleared, the boot ROM starts, the vault draws new keys and fuses stay; a brown-out also holds it until its release, which runs it; a low of 4 µs or less does nothing and one between them does either, by a free value; a release with nothing held does nothing. In TEST the test access port answers after it. -/
def Obligations.PowerRows : Prop :=
  (∀ s : State, exec .powerOn s = .next s.coldRun) ∧
  (∀ (n : Nat) (s : State), (n ≤ 4000 → exec (.coldRstL n) s = .next s) ∧ (6000 ≤ n → exec (.coldRstL n) s = .next s.coldRun) ∧
    (4000 < n → n < 6000 → exec (.coldRstL n) s = .next (if Config.freeNat s.freeCtr % 2 = 0 then s.draw else s.draw.coldRun))) ∧
  (∀ (r : Fin 7) (s : State), Gives (.brownOut r) s (fun t => t = { s.coldRun with pwr := { s.coldRun.pwr with brownHold := true } })) ∧
  (∀ s : State, exec .brownOutRelease s = .next (if s.pwr.brownHold then s.coldRun else s)) ∧
  (∀ s : State, let t := s.coldRun
    t.pending = s.pending ∧ t.now = s.now ∧ t.rd mbxBootState = 0 ∧ t.flag mbxBootWarm = false ∧ t.chans = [] ∧ t.slots = [] ∧ t.engines = [] ∧ t.mor = {} ∧
    t.mem = {} ∧ t.time = {} ∧ t.ring = {} ∧ t.host = {} ∧ t.ing = {} ∧ t.cap = {} ∧ t.img = {} ∧ t.pwr = { testPort := decide (s.rd secLifecycle = 0) } ∧ t.weldU = {} ∧ t.glaze = {} ∧
    t.sup.vault.partitionGen = s.sup.vault.partitionGen + 1 ∧ t.sup.taken = [] ∧ t.rd secLifecycle = s.rd secLifecycle ∧ t.rd secSvnFusedSup = s.rd secSvnFusedSup)

/-- A rail outside its window sets its bit and raises SUPPLY_FAULT; a powered domain over its current limit is counted and switched off with cause 2, with its engines lost where it is an engine domain, but PD-AON, which has no switch (log 53); one that went off earlier is left; PD-AON compares each reading with the thresholds, and where no reading reaches WARN or TRIP nothing changes but SYS_ALERT_L; a lost REFCLK_SYS or REFCLK_ETH is recorded, REFCLK_ETH takes the ports down, and either fences a live member; a lost CXL clock is a link-down. -/
def Obligations.SupplyAndSensorRows : Prop :=
  (∀ (r : Fin 7) (s : State), exec (.supplyFault r) s = .next ((s.wr pwrSupplyFault (s.rd pwrSupplyFault ||| 2 ^ r.val)).raise 0x0072 uPWR 0 0xFFFF r.val)) ∧
  (∀ (d : DomainId) (s : State), (d.val = 24 → exec (.overcurrentTrip d) s = .next s) ∧
    (s.powered d.val = false → tget s.pwr.offAt d.val none ≠ some s.now → exec (.overcurrentTrip d) s = .next s) ∧
    (d.val < 24 → s.powered d.val = true → exec (.overcurrentTrip d) s = .next (((s.bump pwrOcTrips).powerOff d.val 2).domainFail d.val)) ∧
    (24 < d.val → s.powered d.val = true → Gives (.overcurrentTrip d) s (fun t => t.powered d.val = false))) ∧
  (∀ (temps : List Word16) (s : State), s.served = true →
    (∀ t ∈ s.readings temps, t.2 < 10 * ((s.rd pwrTjWarn : Nat) : Int) ∧ t.2 < 10 * ((s.rd pwrTjTrip : Nat) : Int) ∧ t.2 < 10 * ((s.rd pwrTjCrit : Nat) : Int)) →
    exec (.tripComparator temps) s = .next (s.alert (s.readings temps))) ∧
  (∀ s : State, exec (.referenceClockLoss .cxl) s = exec .cxlLinkDown s ∧
    (s.ring.live = false → exec (.referenceClockLoss .sys) s = .next { s with pwr := { s.pwr with sysLost := true } } ∧
      exec (.referenceClockLoss .eth) s = .next (State.clearLink { s with pwr := { s.pwr with ethLost := true } })) ∧
    (s.ring.live = true → Gives (.referenceClockLoss .sys) s (fun t => t.ring.live = false ∧ t.ring.fenced = true ∧ t.pwr.sysLost = true ∧ t.chans = s.chans ∧ t.ports = s.ports) ∧
      Gives (.referenceClockLoss .eth) s (fun t => t.ring.live = false ∧ t.ring.fenced = true ∧ t.pwr.ethLost = true ∧ (∀ p < 4, t.flag ethLinkUp p = false ∧ (t.port p).rxQ = [] ∧
        (t.port p).queues = [] ∧ (t.port p).wire = none))))

/-- While Bister serves and no threshold is reached, a sensor of a powered domain shows its reading in NOW and the highest so far in MAX, a sensor of an unpowered domain shows 0x8000, and channels, engines, memory and time are untouched. -/
def Obligations.SensorReadStores : Prop :=
  ∀ (temps : List Word16) (i : Nat) (x : Word16) (s : State), s.served = true → temps[i]? = some x → i < 30 →
    (∀ t ∈ s.readings temps, t.2 < 10 * ((s.rd pwrTjWarn : Nat) : Int) ∧ t.2 < 10 * ((s.rd pwrTjTrip : Nat) : Int) ∧ t.2 < 10 * ((s.rd pwrTjCrit : Nat) : Int)) →
    Gives (.sensorRead temps) s (fun t => t.rd pwrTjNow i = (if s.powered i then x.toNat else 0x8000) ∧
      (s.powered i = true → signed 16 (t.rd pwrTjMax i) = max x.toInt (signed 16 (s.rd pwrTjMax i))) ∧
      t.chans = s.chans ∧ t.engines = s.engines ∧ t.mem = s.mem ∧ t.time = s.time ∧ t.ports = s.ports)

/-- A write that sets the gate bit of a domain whose four engines are retired and that is powered gates it with cause 1 and empties its engines; for a domain still in service it only sets CFG_ERR; a write that clears the bit of a domain gated by the host powers it again if its self-test passes and leaves it off with cause 4 if not. The clauses take one bit at a time: every other bit is written as it stands. A row whose unit lies in PD-MEM or PD-ACC does nothing while that domain is off. -/
def Obligations.DomainGating : Prop :=
  (∀ (d : Fin 24) (s : State), s.rd pwrEngGate = 0 → (∀ k < 24, s.rd pwrDomCause k < 2) → s.domainRetired d.val = true → s.powered d.val = true →
    Gives (.engineDomainGate 64 (BitVec.ofNat 64 (2 ^ d.val))) s (fun t => t.rd pwrEngGate = 2 ^ d.val ∧ t.powered d.val = false ∧ t.rd pwrDomCause d.val = 1 ∧
      (∀ e, e / 4 = d.val → t.eng e = { count := (s.eng e).count }) ∧ (∀ e, e / 4 ≠ d.val → t.eng e = s.eng e) ∧ t.chans = s.chans ∧ t.mem = s.mem)) ∧
  (∀ (d : Fin 24) (s : State), s.rd pwrEngGate = 0 → (∀ k < 24, s.rd pwrDomCause k < 2) → s.domainRetired d.val = false →
    exec (.engineDomainGate 64 (BitVec.ofNat 64 (2 ^ d.val))) s = .next (s.draw.wr pwrCfgErr 1)) ∧
  (∀ (d : Fin 24) (passed : Bool) (s : State), s.rd pwrEngGate = 2 ^ d.val → s.rd pwrEngOn < 2 ^ 24 → bit (s.rd pwrEngOn) d.val = false →
    (∀ k < 24, s.rd pwrDomCause k < 2) →
    Gives (.engineDomainUngate 64 0 passed) s (fun t => t.rd pwrEngGate = 0 ∧ t.powered d.val = passed ∧ (passed = false → t.rd pwrDomCause d.val = 4) ∧
      (∀ k < 24, k ≠ d.val → t.powered k = s.powered k) ∧ t.chans = s.chans ∧ t.engines = s.engines ∧ t.mem = s.mem)) ∧
  (∀ (i : Instr) (s : State), ¬unitOn i s → exec i s = .next s)

/-- An assertion of PERST_L answers exactly what a CXL link-down answers: it resets the host's domain alone. Channels, ports, engines, time bases and the boot state are those before it, so it is neither a COLD nor a WARM reset, and the link is down. Formalises R475. -/
def Obligations.LinkDownRows : Prop :=
  ∀ s : State, exec .perst s = exec .cxlLinkDown s ∧
    Gives .perst s (fun t => t.host.linkUp = false ∧ t.host.pools = [] ∧ t.chans = s.chans ∧ t.ports = s.ports ∧ t.engines = s.engines ∧ t.time = s.time ∧
      t.slots = s.slots ∧ t.mor = s.mor ∧ t.ing = s.ing ∧ t.weldU = s.weldU ∧ t.glaze = s.glaze ∧ t.rd mbxBootState = s.rd mbxBootState ∧ t.now = s.now)

/-- An FLR outside a COLD or WARM reset empties the queues, doorbells and MSI-X, discards the completions of taken commands and abandons the CXL.cache requests; of the commands taken, those a request served are over and the others apply without a completion; exports under way fail, which may free the ring of a capture that stops; channels, ports, engines, the rest of memory, the window's decoder, the snoop filter and the link stay. One inside such a reset does nothing. A CXL link-down is an FLR after which the link must train again. -/
def Obligations.FlrDiscards : Prop :=
  ∀ s : State, (s.inReset 1 = true → exec .flr s = .next s) ∧
    (s.inReset 1 = false → Gives .flr s (fun t => t.host.queues = [] ∧ t.host.xq = [] ∧ t.host.nq = {} ∧ t.host.msix = [] ∧ t.host.cacheOut = [] ∧
      t.host.cacheWait = [] ∧ (∀ k ∈ t.sup.taken, k.discard = true) ∧ t.host.linkUp = s.host.linkUp ∧ t.host.snoop = s.host.snoop ∧ t.host.hdmSize = s.host.hdmSize ∧
      t.chans = s.chans ∧ t.ports = s.ports ∧ t.engines = s.engines ∧ t.mem = { s.mem with frameMap := t.mem.frameMap } ∧ t.time = s.time)) ∧
    Gives .cxlLinkDown s (fun t => exec .flr s = .next (flr s) ∧ t = { flr s with host := { (flr s).host with linkUp := false, linkWidth := 0, linkRate := 0, pools := [] } })

/-- While Bister serves, an answered poll clears the count of a warden that is not stood in for, a first or second poll without an answer is counted, and a third makes Bister stand in and starts the warden's one reset with its event; the reset ends as restored or given up, and the end of none changes nothing. Bister, restarting or not serving, polls nobody, and a stood-in warden is not polled. An early collection of counters does nothing. A mismatch of paired cores forms the pair anew, counts a SUP reset and, while Bister serves outside a reset, restarts it; where no cores are paired it does nothing. Bister's return ends its restart, and outside one does nothing. A fallback during a restart, a second or more old, runs the previous image, once, and the running one's own copy where there is none; before that second and outside a restart it does nothing. -/
def Obligations.SupervisorRows : Prop :=
  (∀ (w : Fin 6) (s : State), s.sup.restarting = false → s.served = true → (s.warden w.val).standIn = false →
    exec (.wardenWatchdogPoll w true) s = .next (s.modWarden w.val (fun x => { x with missed := 0 })) ∧
    ((s.warden w.val).missed < 2 → exec (.wardenWatchdogPoll w false) s = .next (s.modWarden w.val (fun x => { x with missed := x.missed + 1 }))) ∧
    (2 ≤ (s.warden w.val).missed → exec (.wardenWatchdogPoll w false) s =
      .next ((s.modWarden w.val (fun x => { x with missed := 0, standIn := true, resetting := true })).raise 0x0002 uSUP w.val 0xFFFF w.val))) ∧
  (∀ (w : Fin 6) (a : Bool) (s : State), s.sup.restarting = true ∨ s.served = false ∨ (s.warden w.val).standIn = true → exec (.wardenWatchdogPoll w a) s = .next s) ∧
  (∀ (w : Fin 6) (restored : Bool) (s : State), exec (.wardenResetDone w restored) s = .next (if (s.warden w.val).resetting
    then s.modWarden w.val (fun x => { x with resetting := false, standIn := !restored, givenUp := !restored }) else s)) ∧
  (∀ (w : Fin 6) (s : State), s.sup.restarting = false →
    (s.now < (s.warden w.val).collectAt → exec (.counterCollection w) s = .next s) ∧
    ((s.warden w.val).collectAt ≤ s.now → Gives (.counterCollection w) s (fun t =>
      (t.warden w.val).collectAt = s.now + ms (if (s.warden w.val).standIn then 4 else 1) ∧ t.chans = s.chans ∧ t.mem = s.mem ∧ t.ports = s.ports))) ∧
  (∀ (low high : Bool) (s : State), s.sup.cores.second = none → exec (.lockstepMismatch low high) s = .next s) ∧
  (∀ (low high : Bool) (s : State), s.sup.cores.second ≠ none → Gives (.lockstepMismatch low high) s (fun t =>
    t.sup.cores = newCores s.sup.cores low high ∧ t.rd supResetsSup = (s.rd supResetsSup + 1) % 2 ^ 64 ∧ t.engines = s.engines ∧ t.chans = s.chans ∧
    (s.inReset 2 = false → s.served = true → t.sup.restarting = true))) ∧
  (∀ s : State, (s.sup.restarting = false → exec .supReturn s = .next s) ∧ ((s.sup.restarting = false ∨ s.now < s.img.supRestartAt + sec 1) → exec .supFallback s = .next s)) ∧
  (∀ s : State, s.sup.restarting = true → Gives .supReturn s (fun t => t.sup.restarting = false ∧ t.img.supRestartAt = 0 ∧ t.img.fellBack = false)) ∧
  (∀ (p : Image) (s : State), s.sup.restarting = true → s.img.fellBack = false → s.img.supRestartAt + sec 1 ≤ s.now →
    (s.img.previous = none → s.img.running = some p → exec .supFallback s = .next ((State.bump { s with img := { s.img with fellBack := true } } supFallbacks).raise 0x0004 uSUP 0 0xFFFF p.release)) ∧
    (s.img.previous = some p → exec .supFallback s = .next ((State.bump { s with img := { s.img with running := some p, previous := none, fellBack := true } } supFallbacks).raise 0x0004 uSUP 0 0xFFFF p.release)))

/-- A 32-bit write of a doorbell of an enabled queue with an index inside the ring moves that tail or head alone; an index outside the ring sets ERR of its queue alone; a doorbell of a disabled queue is ignored; another width is a bad access that is counted. -/
def Obligations.DoorbellRows : Prop :=
  (∀ (q : QueueId) (v : Word64) (s : State), s.flag qEn q.val = true →
    exec (.sqTail q 32 v) s = .next (if s.rd sqSize q.val ≤ v.toNat % 4096 then s.wr qErr 1 q.val else s.modHq q.val (fun h => { h with tail := v.toNat % 4096 })) ∧
    exec (.cqHead q 32 v) s = .next (if s.rd cqSize q.val ≤ v.toNat % 4096 then s.wr qErr 1 q.val else s.modHq q.val (fun h => { h with head := v.toNat % 4096 }))) ∧
  (∀ (x : Fin 8) (v : Word64) (s : State), s.flag xqEn x.val = true →
    exec (.xqHead x 32 v) s = .next (if s.rd xqCount x.val ≤ v.toNat % 131072 then s.wr xqErr 1 x.val
      else { s with host := { s.host with xq := tmod s.host.xq x.val {} (fun r => { r with head := v.toNat % 131072 }) } })) ∧
  (∀ (v : Word64) (s : State), s.flag nqEn = true →
    exec (.nqHead 32 v) s = .next (if s.rd nqCount ≤ v.toNat % 131072 then s.wr nqErr 1
      else { s with host := { s.host with nq := { s.host.nq with head := v.toNat % 131072 } } })) ∧
  (∀ (q : QueueId) (x : Fin 8) (w : Nat) (v : Word64) (s : State), w ≠ 32 →
    exec (.sqTail q w v) s = .next (s.bump mbxBadAccess) ∧ exec (.cqHead q w v) s = .next (s.bump mbxBadAccess) ∧
    exec (.xqHead x w v) s = .next (s.bump mbxBadAccess) ∧ exec (.nqHead w v) s = .next (s.bump mbxBadAccess)) ∧
  (∀ (q : QueueId) (v : Word64) (s : State), s.flag qEn q.val = false → exec (.sqTail q 32 v) s = .next s ∧ exec (.cqHead q 32 v) s = .next s)

/-- A 64-bit write of 1 to Q_CTL.EN of a disabled queue whose rings fit starts it empty: EN 1, SQ_HEAD and CQ_TAIL 0, the doorbell values 0 and PHASE at its first pass; one whose rings do not fit leaves EN 0 and sets ERR; a write of 0 to EN clears it. No channel, port or byte of memory changes. An interrupt held back for coalescing is raised once COAL_TIME has passed. -/
def Obligations.QueueEnableRows : Prop :=
  (∀ (q : QueueId) (v : Word64) (s : State), let n := q.val; let u := s.writeRegBut (· = qEn) (qCtlAddr n) 64 v.toNat
    writtenTo qEn n 0 (qCtlAddr n) 64 v.toNat = some 1 → goodAccess (qCtlAddr n) 64 = true → s.flag qEn n = false →
    (u.queueFits n = true → Gives (.qCtlEnable q 64 v) s (fun t => t.flag qEn n = true ∧ t.rd sqHead n = 0 ∧ t.rd cqTail n = 0 ∧ (t.hq n).tail = 0 ∧ (t.hq n).head = 0 ∧
      (t.hq n).phase = true ∧ t.chans = s.chans ∧ t.ports = s.ports ∧ t.mem = s.mem ∧ (∀ k, k ≠ n → t.hq k = s.hq k))) ∧
    (u.queueFits n = false → exec (.qCtlEnable q 64 v) s = .next (u.wr qErr 1 n))) ∧
  (∀ (q : QueueId) (v : Word64) (s : State), writtenTo qEn q.val 0 (qCtlAddr q.val) 64 v.toNat = some 0 →
    exec (.qCtlDisable q 64 v) s = .next (s.writeReg (qCtlAddr q.val) 64 v.toNat)) ∧
  (∀ (q : QueueId) (s : State), (s.hq q.val).unsignalled ≠ 0 → (s.hq q.val).oldestAt + us (s.rd qCoalTime q.val) ≤ s.now →
    Gives (.cqCoalesceTimeout q) s (fun t => (t.hq q.val).unsignalled = 0 ∧ s.rd qVec q.val ∈ t.host.msix ∧ (s.flag msixMask (s.rd qVec q.val) = true → s.rd qVec q.val ∈ t.host.msixPend) ∧ t = { s with host := t.host }))

/-- While Bister serves and no erasure or activation is under way, a fetch takes the entry at SQ_HEAD of the first queue after the one served last that is enabled, holds an entry, has room in its completion queue and has fewer than 256 commands outstanding: SQ_HEAD moves on, the command is recorded as taken and not applied, and nothing of the channels, ports, engines, memory and time changes; where its opcode is none of the table it then completes with NOT_SUPPORTED at once; with no such queue, or while Bister is away, nothing changes. -/
def Obligations.CommandFetchTakes : Prop :=
  (∀ s : State, s.fetching = false → exec .commandFetch s = .next s) ∧
  (∀ s : State, (∀ q < 64, s.canTake q = false) → exec .commandFetch s = .next s) ∧
  (∀ (k : Nat) (s : State), let q := (s.sup.lastServed + 1 + k) % 64
    let i := s.rd sqHead q; let w0 := s.sqWord q i 0
    k < 64 → s.fetching = true → s.canTake q = true → (∀ j < k, s.canTake ((s.sup.lastServed + 1 + j) % 64) = false) → i + 1 < 2 ^ 12 →
    ∃ t, (t.rd sqHead q = (if s.rd sqSize q ≤ i + 1 then 0 else i + 1) ∧ t.sup.lastServed = q ∧
      t.sup.taken = s.sup.taken ++ [{ qid := q, tag := bits w0 32 32, opcode := w0 % 65536, chans := s.chanSet (w0 % 65536) (s.sqWord q i 1) }] ∧
      t.chans = s.chans ∧ t.mem = s.mem ∧ t.ports = s.ports ∧ t.time = s.time ∧ t.engines = s.engines) ∧
      exec .commandFetch s = .next (if opcodes.contains (w0 % 65536) then t else t.complete q (bits w0 32 32) (w0 % 65536) stNOT_SUPPORTED 0 0 0))

/-- While Bister is away, training at a supported width and rate brings the link up at them with twelve credit pools, whose credits are all free where no request and no back-invalidate is outstanding, and changes nothing else; at another it changes nothing. A decoder of the size the device needs is committed and any other sets its error; a back-invalidate answer takes its line off the list of those awaited and gives its credit back; a host snoop is answered RspIHitI and changes nothing else; a write of the host's book snapshot sets its request with its time and nothing else. -/
def Obligations.CxlLinkRows : Prop :=
  (∀ (width rate : Nat) (s : State), cxlSupported width rate = false → exec (.cxlLinkTrained width rate) s = .next s) ∧
  (∀ (width rate : Nat) (s : State), cxlSupported width rate = true → s.served = false →
    Gives (.cxlLinkTrained width rate) s (fun t => t.host.linkUp = true ∧ t.host.linkWidth = width ∧ t.host.linkRate = rate ∧ t.freeCtr = s.freeCtr + 12 ∧
      (s.host.cacheOut = [] → s.host.bisnp = [] → ∀ n < 12, (tget t.host.pools n {}).free = (tget t.host.pools n {}).total ∧ (tget t.host.pools n {}).held = 0) ∧ t = { s with host := t.host, freeCtr := t.freeCtr })) ∧
  (∀ (size : Nat) (s : State), exec (.hdmDecoderCommit size) s = .next (if size = s.hsBytes + 2 ^ 28
    then { s with host := { s.host with hdmSize := size, hdmCommitted := true, hdmError := false } } else { s with host := { s.host with hdmError := true } })) ∧
  (∀ (line : Nat) (s : State), exec (.bisnpResponse line) s = .next (State.syncPools { s with host := { s.host with bisnp := s.host.bisnp.erase line } }) ∧
    Gives (.bisnpResponse line) s (fun t => let p := tget t.host.pools 11 {}
      t.host.bisnp = s.host.bisnp.erase line ∧ p.held = min t.host.bisnp.length p.total ∧ p.free = p.total - p.held ∧ t = { s with host := t.host })) ∧
  (∀ (line : Nat) (s : State), exec (.h2dSnoop line) s = .next { s with host := { s.host with snoopAnswer := true } }) ∧
  (∀ s : State, exec .mbxHostBookSnap s = .next (s.requestSnap mbxSnapReq 2) ∧ Gives .mbxHostBookSnap s (fun t => t.flag mbxSnapReq = true ∧ t = { s with regs := t.regs, sup := { s.sup with snapAt := tset s.sup.snapAt 2 s.now 0 } }))

/-- While memory is active, a host write inside a line of the host-shared partition stores its bytes there and no other byte changes, and the line enters the snoop filter; a write to the state window is discarded with its count and event, one beyond the partition with its count; a read changes no byte of memory, and answers the line's bytes or the poison a poisoned line holds, and zeros beyond the partition. While memory is not active a write does nothing and a read answers poison. Outside the committed decoder nothing happens. -/
def Obligations.HostMemoryAccess : Prop :=
  (∀ (off : Nat) (b : List Byte) (s : State), s.host.hdmCommitted = true → off < s.host.hdmSize → s.host.memActive = true →
    hsBase ≤ off → off < s.hostBytes → off % 64 + b.length ≤ 64 →
    Gives (.cxlMemAccess off (.write b)) s (fun t =>
      (∀ i < b.length, mget t.mem.hostShared (off - hsBase + i) = b.getD i 0) ∧
      (∀ a, a < off - hsBase ∨ off - hsBase + b.length ≤ a → mget t.mem.hostShared a = mget s.mem.hostShared a) ∧
      off / 64 ∈ t.host.snoop ∧ t.chans = s.chans ∧ t.slots = s.slots ∧ t.ports = s.ports ∧ t.time = s.time)) ∧
  (∀ (off : Nat) (b : List Byte) (s : State), s.host.hdmCommitted = true → off < s.host.hdmSize → s.host.memActive = true → off < hsBase →
    exec (.cxlMemAccess off (.write b)) s = .next ((s.bump mbxSwWriteDiscard).raise 0x0009 uMBX 0 0xFFFF 0 off)) ∧
  (∀ (off : Nat) (b : List Byte) (s : State), s.host.hdmCommitted = true → off < s.host.hdmSize → s.host.memActive = true → hsBase ≤ off → s.hostBytes ≤ off →
    exec (.cxlMemAccess off (.write b)) s = .next (s.bump mbxSwWriteDiscard) ∧
    exec (.cxlMemAccess off .read) s = .next { s with host := { s.host with readData := 0, readPoison := false } }) ∧
  (∀ (off : Nat) (b : List Byte) (s : State), s.host.hdmCommitted = true → off < s.host.hdmSize → s.host.memActive = false →
    exec (.cxlMemAccess off (.write b)) s = .next s ∧ exec (.cxlMemAccess off .read) s = .next { s with host := { s.host with readData := 0, readPoison := true } }) ∧
  (∀ (off : Nat) (a : MemAccess) (s : State), s.host.hdmCommitted = false ∨ s.host.hdmSize ≤ off → exec (.cxlMemAccess off a) s = .next s) ∧
  (∀ (off : Nat) (s : State), s.host.hdmCommitted = true → off < s.host.hdmSize → s.host.memActive = true → off < s.hostBytes →
    Gives (.cxlMemAccess off .read) s (fun t => t.mem = s.mem ∧ t.host.readPoison = s.linePoisoned (off / 64) ∧
      (s.linePoisoned (off / 64) = false → t.host.readData = leNat (s.lineBytes (off / 64))) ∧ off / 64 ∈ t.host.snoop)) ∧
  (∀ (off : Nat) (s : State), exec (.stateWindowWrite off) s = .next ((s.bump mbxSwWriteDiscard).raise 0x0009 uMBX 0 0xFFFF 0 off))

/-- While Bister serves, each of these mailbox commands answers with Success, raises vector 73 and leaves all but the host interface and what it names as it was: Clear Event Records empties a log or takes the named records out, Set Timestamp sets the offset, the others change nothing; Clear with a handle the log does not hold is refused and changes no log; while Bister is away each answers that it is busy. -/
def Obligations.MailboxLogRows : Prop :=
  (∀ (log : Fin 4) (s : State), s.served = true → Gives (.getEventRecords log) s (fun t => t.host.reply.code = mbSuccess ∧ 73 ∈ t.host.msix ∧ t = { s with host := t.host })) ∧
  (∀ (log : Fin 4) (s : State), s.served = true → Gives (.clearEventRecords log [] true) s (fun t => t.host.reply.code = mbSuccess ∧
    (tget t.sup.logs log.val {}).records = [] ∧ (tget t.sup.logs log.val {}).overflow = 0 ∧ (∀ k, k ≠ log.val → tget t.sup.logs k {} = tget s.sup.logs k {}) ∧
    t = { s with host := t.host, sup := { s.sup with logs := t.sup.logs } })) ∧
  (∀ (log : Fin 4) (h : Nat) (s : State), s.served = true → (tget s.sup.logs log.val {}).records.any (fun e => e.handle = h) = false →
    Gives (.clearEventRecords log [h] false) s (fun t => t.host.reply.code = mbHandle ∧ t.sup = s.sup)) ∧
  (∀ s : State, s.served = true → Gives .getTimestamp s (fun t => t.host.reply = { code := mbSuccess, output := leBytes 8 (s.tbVal 0 + s.sup.tsOffset.toNat) } ∧ t = { s with host := t.host })) ∧
  (∀ (x : Word64) (s : State), s.served = true → Gives (.setTimestamp x) s (fun t => t.host.reply.code = mbSuccess ∧ t.sup = { s.sup with tsOffset := x - (s.tb 0).value } ∧
    t = { s with host := t.host, sup := t.sup })) ∧
  (∀ s : State, s.served = true → Gives .getPoisonList s (fun t => t.host.reply.code = mbSuccess ∧ t = { s with host := t.host })) ∧
  (∀ s : State, s.served = true → Gives .getHealthInfo s (fun t => t.host.reply.code = mbSuccess ∧ t = { s with host := t.host })) ∧
  (∀ s : State, s.served = true → Gives .getSupportedLogs s (fun t => t.host.reply.code = mbSuccess ∧ t = { s with host := t.host })) ∧
  (∀ (which : Fin 2) (s : State), s.served = true → Gives (.getLog which 0 0) s (fun t => t.host.reply = { code := mbSuccess } ∧ t = { s with host := t.host })) ∧
  (∀ (log : Fin 4) (s : State), s.served = false → Gives (.getEventRecords log) s (fun t => t.host.reply.code = mbBusy ∧ t = { s with host := t.host })) ∧
  (∀ (code unit inst ch : Nat) (s : State), let e : EventRec := { code := code, unit := unit, inst := inst, chan := ch }
    s.sup.coalesce.any (fun c => sameEvent c.ev e && decide (c.since + sec 1 ≤ s.now)) = true → exec (.eventCoalesceFlush code unit inst ch) s = .next (s.flushEvent e))

/-- In ROM_INIT a failed self-test ends in FAILED, a passed one goes to MEM_TRAIN, or after WARM to BOOT_WAIT with memory active; in BOOT_WAIT a load stores its words in the image buffer at its offset, and a start begins verification; a verification that fails returns to BOOT_WAIT with its reason and the data discarded, one that passes goes to SUP_START with the image running; a supervisor that does not start returns to BOOT_WAIT with REASON 5; FN_BOOT_INFO and FN_CAPACITY answer OK and change nothing else. IMAGE_STAGE of a KIND that nothing stages or activates is ACCEPTED and reads its lines; IMAGE_ACTIVATE without a staged image is refused, waits behind earlier commands and a rollout, and else puts the staged image in place and restarts Bister, or begins a rollout; a KIND of 2 or 3 is refused, and so is an image whose repeated checks fail; a rollout turn ends the rollout when no domain is left and waits while too few engines serve. -/
def Obligations.BootAndImageRows : Prop :=
  (∀ s : State, s.rd mbxBootState = 0 → exec (.romSelfTestDone false) s = .next (s.boot 15) ∧
    (s.flag mbxBootWarm = false → exec (.romSelfTestDone true) s = .next (s.boot 1)) ∧
    (s.flag mbxBootWarm = true → exec (.romSelfTestDone true) s = .next (State.boot { s with host := { s.host with memActive := true } } 2))) ∧
  (∀ (off : Nat) (data : List Byte) (s : State), s.rd mbxBootState = 2 → s.img.memNoFit = false → off % 4 = 0 → data.length % 4 = 0 → 4 ≤ data.length → data.length ≤ 2 ^ 20 →
    off + data.length ≤ 2 ^ 26 →
    Gives (.fnImageLoad off data) s (fun t => t.host.reply.fstatus = stOK ∧ t.img = { s.img with loadBuf := msetList s.img.loadBuf off data } ∧
      t = { s with img := t.img, host := t.host })) ∧
  (∀ (length : Nat) (s : State), s.rd mbxBootState = 2 → s.img.memNoFit = false → s.rd secLifecycle ≠ 3 →
    Gives (.fnImageStart length) s (fun t => t.rd mbxBootState = 3 ∧ t.host.reply.fstatus = stOK ∧ t.host.bgStatus = stACCEPTED ∧ t.img.verifyLen = length ∧ t.chans = s.chans)) ∧
  (∀ s : State, s.rd mbxBootState = 3 →
    (∀ r st, s.romCheck s.pushed = some (r, st) → r < 16 → Gives .fnImageVerified s (fun t => t.rd mbxBootState = 2 ∧ t.rd mbxBootReason = r ∧ t.img.loadBuf = [] ∧ t.host.bgStatus = st)) ∧
    (s.romCheck s.pushed = none → Gives .fnImageVerified s (fun t => t.rd mbxBootState = 4 ∧ t.img.running = parseImage s.pushed ∧ t.img.loadBuf = [] ∧ t.host.bgStatus = stOK))) ∧
  (∀ (eeprom : List Byte) (s : State), s.rd mbxBootState = 4 → Gives (.supStartDone false eeprom) s (fun t => t.rd mbxBootState = 2 ∧ t.rd mbxBootReason = 5)) ∧
  (∀ (eeprom : List Byte) (r : Image) (s : State), s.rd mbxBootState = 4 → s.img.running = some r → s.flag mbxBootWarm = false →
    Gives (.supStartDone true eeprom) s (fun t => t.rd mbxBootState = 5 ∧ t.rd mbxBootReason = 0 ∧ t.img.pack = s.img.basePack ∧ t.img.running = some r)) ∧
  (∀ s : State, s.rd mbxBootState ≠ 7 → Gives .fnBootInfo s (fun t => t.host.reply.fstatus = stOK ∧ t = { s with host := t.host })) ∧
  (∀ s : State, s.mbWait = true → Gives .fnCapacity s (fun t => t.host.reply.fstatus = stOK ∧ t = { s with host := t.host }) ∧
    Gives .identifyMemoryDevice s (fun t => t.host.reply.code = mbSuccess ∧ t = { s with host := t.host })) ∧
  (∀ (c : HostCmd) (image : List Byte) (s : State), let kind := bits c.w1.toNat 0 2
    commandRuns c 0x70 [(1, 3), (3, 0xFFFFFFFFFFFFFFFF), (4, 0xFFFFFFFFFFFFFFFF)] false s = true → 1 < kind →
    exec (.imageStageSup c image) s = .next (refused c 0x70 stBAD_PARAM 8 s) ∧ exec (.imageStagePack c image) s = .next (refused c 0x70 stBAD_PARAM 8 s)) ∧
  (∀ (c : HostCmd) (image : List Byte) (s : State), let kind := bits c.w1.toNat 0 2
    commandRuns c 0x70 [(1, 3), (3, 0xFFFFFFFFFFFFFFFF), (4, 0xFFFFFFFFFFFFFFFF)] false s = true → kind ≤ 1 →
    ((s.staging kind = true ∨ s.activating kind = true) → exec (.imageStageSup c image) s = .next (refused c 0x70 stBUSY 0 s) ∧ exec (.imageStagePack c image) s = .next (refused c 0x70 stBUSY 0 s)) ∧
    (s.staging kind = false → s.activating kind = false →
      let t := (s.cacheIssue (lineReads c.qid.val c.tag.toNat c.w3.toNat kind (readBytes c.w4.toNat image) (linesOf c.w3.toNat c.w4.toNat))).complete c.qid.val c.tag.toNat 0x70 stACCEPTED 0 0 0
      let u := { t with sup := { t.sup with finals := t.sup.finals + 1 } }
      exec (.imageStageSup c image) s = .next u ∧ exec (.imageStagePack c image) s = .next u)) ∧
  (∀ (c : HostCmd) (s : State), commandRuns c 0x71 [(1, 3)] false s = true → 1 < bits c.w1.toNat 0 2 →
    exec (.imageActivateSup c) s = .next (refused c 0x71 stBAD_PARAM 8 s) ∧ exec (.imageActivatePack c) s = .next (refused c 0x71 stBAD_PARAM 8 s)) ∧
  (∀ (c : HostCmd) (s : State), commandRuns c 0x71 [(1, 3)] false s = true → bits c.w1.toNat 0 2 = 0 →
    (∀ p st check, s.activateWaits c = false → s.img.stagedSup = some p → s.supChecks p.raw = some (st, check) →
      exec (.imageActivateSup c) s = .next (refused c 0x71 st 0 (s.imageRefused 0 check))) ∧
    (s.activateWaits c = true → exec (.imageActivateSup c) s = .next s) ∧
    (s.activateWaits c = false → s.img.stagedSup = none → exec (.imageActivateSup c) s = .next (refused c 0x71 stBAD_STATE 0 s)) ∧
    (∀ p, s.activateWaits c = false → s.img.stagedSup = some p → s.supChecks p.raw = none → s.img.activSup = none →
      let t := (State.wr { s with img := { s.img with previous := s.img.running, running := some p, stagedSup := none, activSup := some (c.qid.val, c.tag.toNat) } } supImgStagedSup 0).complete c.qid.val c.tag.toNat 0x71 stACCEPTED 0 0 0
      exec (.imageActivateSup c) s = .next (supReset { t with sup := { t.sup with finals := t.sup.finals + 1 } }))) ∧
  (∀ (c : HostCmd) (s : State), commandRuns c 0x71 [(1, 3)] false s = true → bits c.w1.toNat 0 2 = 1 →
    (s.img.stagedPack = none → exec (.imageActivatePack c) s = .next (refused c 0x71 stBAD_STATE 0 s)) ∧
    (∀ p st check, s.img.stagedPack = some p → s.packChecks p.raw = some (st, check) → exec (.imageActivatePack c) s = .next (refused c 0x71 st 0 (s.imageRefused 1 check))) ∧
    (∀ p, s.img.stagedPack = some p → s.packChecks p.raw = none →
      (s.img.target ≠ none → exec (.imageActivatePack c) s = .next (refused c 0x71 stBUSY 0 s)) ∧
      (s.img.target = none → Gives (.imageActivatePack c) s (fun t => t.img.target = some (mergePack s.img.pack p) ∧ t.img.stagedPack = none ∧ t.img.rolloutNext = 0 ∧ t.flag supRolloutActive = true ∧
        t.sup.finals = s.sup.finals + 1 ∧ t.chans = s.chans ∧ t.engines = s.engines ∧ t.mor = s.mor)))) ∧
  (∀ s : State, ((s.flag supRolloutActive = false ∨ s.served = false) → exec .rolloutDomainTurn s = .next s) ∧
    (s.flag supRolloutActive = true → s.served = true → (s.rolloutDomain s.img.rolloutNext = none → exec .rolloutDomainTurn s = .next s.rolloutEnd) ∧
      (∀ d, s.rolloutDomain s.img.rolloutNext = some d → let up := ((enginesOf d).filter (fun e => (s.me e).service = 0)).length
        (up ≠ 0 → s.serving.length < s.rd supLoadLimit + up → exec .rolloutDomainTurn s = .next s) ∧
        (up = 0 ∨ s.rd supLoadLimit + up ≤ s.serving.length → (s.rolloutRetire d).rolloutReady d = false → exec .rolloutDomainTurn s = .next (s.rolloutRetire d)) ∧
        (up = 0 ∨ s.rd supLoadLimit + up ≤ s.serving.length → (s.rolloutRetire d).rolloutReady d = true → ((s.rolloutRetire d).rolloutRestore d).rolloutDomain (d + 1) ≠ none →
          exec .rolloutDomainTurn s = .next ((s.rolloutRetire d).rolloutRestore d)) ∧
        (up = 0 ∨ s.rd supLoadLimit + up ≤ s.serving.length → (s.rolloutRetire d).rolloutReady d = true → ((s.rolloutRetire d).rolloutRestore d).rolloutDomain (d + 1) = none →
          exec .rolloutDomainTurn s = .next ((s.rolloutRetire d).rolloutRestore d).rolloutEnd))))

/-- A measurement request answers and changes nothing else; an SPDM request that needs a session or the identity key where there is none is answered with nothing and changes nothing, and one of IDE_KM in a session sets, starts or stops the keys of its stream; a read of the CDAT answers its entry; an SVN commit of the supervisor raises its floor to the SVN that runs and never lowers it; a challenge that may be given is drawn, kept with its time and returned, and one that may not is denied; phase 1 uses up the challenge, and is refused with a malformed group, with live channels, without a challenge or 60 s after it, where the lifecycle forbids it and where its signature fails; one that passes opens service access in TEST and starts the erasure elsewhere; at the end of the grace channels, engines, host-shared bytes and keys are gone and service access opens. -/
def Obligations.SecurityRows : Prop :=
  (∀ (index : Nat) (s : State), Gives (.getMeasurements index) s (fun t => t = { s with host := { s.host with spdmReply := t.host.spdmReply } } ∧
    (1 ≤ index → index ≤ 4 → t.host.spdmReply = s.measureBlock index))) ∧
  (∀ (m : SpdmRequest) (s : State), (needsIdentity m = true ∧ s.sup.vault.identity = false) ∨ (needsSession m = true ∧ s.host.spdmSession = false) →
    exec (.spdmMessage m) s = .next (s.spdmAnswer [])) ∧
  (∀ (stream : Nat) (key : BitVec 256) (s : State), s.host.spdmSession = true → Gives (.spdmMessage (.ideKeyProg stream key)) s (fun t =>
    tget t.sup.vault.ideKeys stream 0 = key ∧ t.chans = s.chans ∧ t.regs = s.regs ∧ t.mem = s.mem)) ∧
  (∀ (stream : Nat) (s : State), s.host.spdmSession = true →
    Gives (.spdmMessage (.ideKeySetGo stream)) s (fun t => stream ∈ t.sup.vault.ideGo ∧ t.sup.vault.ideKeys = s.sup.vault.ideKeys ∧ t.chans = s.chans ∧ t.regs = s.regs ∧ t.mem = s.mem) ∧
    Gives (.spdmMessage (.ideKeySetStop stream)) s (fun t => stream ∉ t.sup.vault.ideGo ∧ t.sup.vault.ideKeys = s.sup.vault.ideKeys ∧ t.chans = s.chans ∧ t.regs = s.regs ∧ t.mem = s.mem)) ∧
  (∀ (i : Nat) (s : State), exec (.spdmMessage (.readCdat i)) s = .next (s.draw.spdmAnswer (s.cdatRead i))) ∧
  (∀ s : State, Gives (.spdmMessage .finish) s (fun t => t.host.spdmSession = true ∧ t.regs = s.regs)) ∧
  (∀ (r : Image) (s : State), s.img.running = some r → r.svn < 2 ^ 16 → s.rd secSvnFloorSup < 2 ^ 16 → Gives (.secSvnCommit 64 1) s (fun t =>
    t.rd secSvnFloorSup = max r.svn (s.rd secSvnFloorSup) ∧ t.rd secSvnFloorPack = s.rd secSvnFloorPack ∧ t.img.running = some r ∧ t.img.previous = s.img.previous.filter (fun p => decide (t.rd secSvnFloorSup ≤ p.svn)) ∧ t.chans = s.chans)) ∧
  (∀ (c : HostCmd) (s : State), commandRuns c 0xF0 [(1, 1)] true s = true → bits c.w1.toNat 0 1 = 0 → c.w2 = 0 → s.serviceAllowed = true →
    let ch := BitVec.ofNat 128 (Config.freeNat s.freeCtr)
    exec (.serviceUnlockChallenge c) s = .next (ok c 0xF0 (ch.toNat % 2 ^ 64) (ch.toNat / 2 ^ 64)
      { s with freeCtr := s.freeCtr + 1, sup := { s.sup with vault := { s.sup.vault with challenge := some ch, challengeAt := s.now } } })) ∧
  (∀ (c : HostCmd) (s : State), commandRuns c 0xF0 [(1, 1)] true s = true → bits c.w1.toNat 0 1 = 0 → c.w2 = 0 → s.serviceAllowed = false →
    exec (.serviceUnlockChallenge c) s = .next (refused c 0xF0 stDENIED 0 s.unlockDenied)) ∧
  (∀ (c : HostCmd) (s : State), commandRuns c 0xF0 [(1, 1)] true s = true → bits c.w1.toNat 0 1 = 1 → let u := s.scrub c
    let used : State := { u with sup := { u.sup with vault := { u.sup.vault with challenge := none } } }
    (∀ d, s.groupsOf c [15] [15] = .error d → exec (.serviceUnlockResponse c) s = .next (refused c 0xF0 stBAD_PARAM d used)) ∧
    (∀ gs, s.groupsOf c [15] [15] = .ok gs →
      (liveChans u ≠ [] → exec (.serviceUnlockResponse c) s = .next (refused c 0xF0 stBAD_STATE 0 used)) ∧
      (liveChans u = [] → u.sup.vault.challenge = none → exec (.serviceUnlockResponse c) s = .next (refused c 0xF0 stTIMEOUT 0 used)) ∧
      (∀ ch, liveChans u = [] → u.sup.vault.challenge = some ch →
        exec (.serviceUnlockResponse c) s = .next (if u.sup.vault.challengeAt + sec 60 < s.now then refused c 0xF0 stTIMEOUT 0 used
          else if u.serviceAllowed && Config.serviceSigned ch.toNat (u.rd secSerial) (grp gs 15).ws then (ok c 0xF0 0 0 used).unlocked
          else refused c 0xF0 stDENIED 0 used.unlockDenied)))) ∧
  (∀ s : State, s.unlocked = if s.rd secLifecycle = 0 then (State.wr { s with pwr := { s.pwr with testPort := true } } secService 1).raise 0x0062 uSUP else s.eraseBegin) ∧
  (∀ (s : State) (a : Nat), s.img.eraseAt = some a → a ≤ s.now → Gives .erasureGraceEnd s (fun t => t.chans = [] ∧ t.slots = [] ∧ t.engines = [] ∧ t.mem.hostShared = [] ∧ t.mem.frameMap = [] ∧ t.mem.caches = [] ∧
    t.sup.vault.zeroised = true ∧ t.sup.vault.identity = false ∧ t.sup.vault.ideKeys = [] ∧ t.ring.mirror = [] ∧ t.flag secErasing = false ∧ t.flag secService = true ∧ t.img.eraseAt = none)) ∧
  (∀ s : State, (∀ a, s.img.eraseAt = some a → s.now < a) → exec .erasureGraceEnd s = .next s)

/-- A link that may come up shows LINK_UP and FEC_LOCK, and one that may not stays as it is. A stage of the mode's bring-up that fails clears FEC_LOCK, shows AN_FAIL exactly where it is auto-negotiation without a matching ability, and starts again from auto-negotiation, in mode 3 from block lock; a failure of any other stage, or with the link up or kept down, changes nothing. A link-down with no frame on the wire clears both flags and starts the bring-up again. A module that comes while Bister serves and suits the port's mode and power class leaves low power with its application selected, one that goes takes the link with it. Flags read of a present module are kept, and raise MODULE_ALARM unless they are 0; a monitor poll also keeps the values and comes once a second. A write of ETH_CFG that changes neither mode nor polarity is a plain write; one that changes a polarity alone takes the link down and clears AN_FAIL. -/
def Obligations.PortLinkRows : Prop :=
  (∀ (p : PortId) (s : State), s.mayLink p.val = true → exec (.linkUp p) s =
    .next ((((s.wr ethLinkUp 1 p.val).wr ethFecLock 1 p.val).wr ethAnFail 0 p.val).modPort p.val (fun x => { x with stage := some .up }))) ∧
  (∀ (p : PortId) (s : State), s.mayLink p.val = false → exec (.linkUp p) s = .next s) ∧
  (∀ (p : PortId) (f : StageFail) (s : State), let m := s.rd ethMode p.val
    s.mayLink p.val = true → s.flag ethLinkUp p.val = false → f.stage ∈ bringUpStages m → Gives (.linkStageTimeout p f) s (fun t =>
      t.flag ethFecLock p.val = false ∧ t.flag ethAnFail p.val = (decide (f.stage = .autoNeg) && !matchingAbility m f.offered) ∧
      t.port p.val = { s.port p.val with lanes := serdesOf m p.val, stage := some (if m = 3 then .blockLock else .autoNeg) } ∧
      (∀ k, k ≠ p.val → t.port k = s.port k) ∧
      (∀ (d : RegDesc) (i j : Nat), d.key i j ≠ ethFecLock.key p.val 0 → d.key i j ≠ ethAnFail.key p.val 0 → t.rd d i j = s.rd d i j) ∧
      t = { s with ports := t.ports, regs := t.regs })) ∧
  (∀ (p : PortId) (f : StageFail) (s : State), s.mayLink p.val = false ∨ s.flag ethLinkUp p.val = true ∨ f.stage ∉ bringUpStages (s.rd ethMode p.val) →
    exec (.linkStageTimeout p f) s = .next s) ∧
  (∀ (p : PortId) (s : State), (s.port p.val).wire = none →
    exec (.linkDown p) s = .next (State.bringUp ((s.wr ethLinkUp 0 p.val).wr ethFecLock 0 p.val) p.val)) ∧
  (∀ (p : PortId) (m : ModuleInfo) (a : Byte × Nat) (s : State), s.served = true → (s.port p.val).wire = none → m.spec ≠ .unsupported →
    m.powerClass ≤ s.sup.modPower.getD p.val 0 → m.apps.find? (fun e => e.2 = s.rd ethMode p.val) = some a →
    Gives (.modPrsFall p (some m)) s (fun t => t.flag ethModPresent p.val = true ∧ t.flag ethLinkUp p.val = false ∧ (t.port p.val).modInfo = some m ∧
      (t.port p.val).modReady = true ∧ (t.port p.val).modApp = some a.1 ∧ (t.port p.val).lowPower = false ∧ (∀ k, k ≠ p.val → t.port k = s.port k) ∧
      t.chans = s.chans ∧ t.engines = s.engines ∧ t.time = s.time)) ∧
  (∀ (p : PortId) (s : State), (s.port p.val).wire = none → Gives (.moduleRemoval p) s (fun t => t.flag ethModPresent p.val = false ∧
    t.flag ethLinkUp p.val = false ∧ (t.port p.val).modInfo = none ∧ (t.port p.val).modApp = none ∧ (t.port p.val).lowPower = true ∧
    (∀ k, k ≠ p.val → t.port k = s.port k) ∧ t.rd ethMode p.val = s.rd ethMode p.val ∧ t.chans = s.chans ∧ t.engines = s.engines ∧ t.time = s.time)) ∧
  (∀ (p : PortId) (f : Byte) (s : State), s.served = true → s.flag ethModPresent p.val = true →
    exec (.modIntFall p f) s = .next (let u := s.modPort p.val (fun x => { x with modFlags := f })
      if f = 0 then u else u.raise 0x0011 uETH p.val 0xFFFF p.val 0 f.toNat)) ∧
  (∀ (p : PortId) (m : ModuleMonitor) (s : State), s.served = true → s.flag ethModPresent p.val = true →
    (s.now < (s.port p.val).monitorAt → exec (.moduleMonitorPoll p m) s = .next s) ∧
    ((s.port p.val).monitorAt ≤ s.now → Gives (.moduleMonitorPoll p m) s (fun t =>
      exec (.modIntFall p m.flags) (s.modPort p.val (fun x => { x with monitors := m.values, monitorAt := s.now + sec 1 })) = .next t))) ∧
  (∀ (p : PortId) (w : Nat) (v : Word64) (s : State), let u := s.writeReg (ethBase p.val) w v.toNat
    u.rd ethMode p.val = s.rd ethMode p.val →
    (u.rd ethRxPol p.val = s.rd ethRxPol p.val → u.rd ethTxPol p.val = s.rd ethTxPol p.val → exec (.ethCfgWrite p w v) s = .next u) ∧
    (u.rd ethRxPol p.val ≠ s.rd ethRxPol p.val ∨ u.rd ethTxPol p.val ≠ s.rd ethTxPol p.val →
      exec (.ethCfgWrite p w v) s = .next ((u.wr ethAnFail 0 p.val).portDown p.val)))

/-- With the link up and reception enabled, a frame that a check drops changes nothing but the counters of the port, and no part of it reaches the classifier; an unsupported MAC control frame is only counted; a PAUSE is counted and, where honoured, replaces the port's remaining pause, 0 quanta ending it; a frame that passes every check, meets no filter and no capture enters the receive buffer of its port alone, without its FCS and tag, and is counted with its octets; one that packet memory then finds an uncorrectable error in is dropped whole and counted. With reception off, and for codewords that carry no frame, only codewords are counted; with the link down nothing is. A frame with an uncorrectable codeword is dropped as a code error. -/
def Obligations.FrameReceiveVerdicts : Prop :=
  ∀ (p : PortId) (f : RxFrame) (s : State), let s0 := (s.bumpBy fecCorrected f.fecCorr p.val).bumpBy fecUncorrectable f.fecUncorr p.val
    let body := f.data.take (f.data.length - 4)
    let plain := f.oldFilters = none ∧ firstHit ((List.range 32).map (s0.filterCfg p.val)) body = none ∧ s.cap.caps.find? (fun e => e.1 = 65536 + p.val) = none
    (s.flag ethLinkUp p.val = false → exec (.frameReceive p f) s = .next s) ∧
    (s.flag ethLinkUp p.val = true → s.flag ethRxEn p.val = false ∨ f.data = [] → exec (.frameReceive p f) s = .next s0) ∧
    (s.flag ethLinkUp p.val = true → s.flag ethRxEn p.val = true → f.data ≠ [] →
      (f.codeErr = true ∨ f.fecUncorr ≠ 0 → exec (.frameReceive p f) s = .next (s0.bump rxCodeErr p.val)) ∧
      (∀ c, s0.rxVerdict p.val f = .drop c → exec (.frameReceive p f) s = .next (s0.bump c p.val)) ∧
      (s0.rxVerdict p.val f = .unsup → exec (.frameReceive p f) s = .next (s0.bump rxMacctlUnsup p.val)) ∧
      (∀ q, s0.rxVerdict p.val f = .pause false q → exec (.frameReceive p f) s = .next (s0.bump rxPause p.val)) ∧
      (∀ q, s0.rxVerdict p.val f = .pause true q → exec (.frameReceive p f) s = .next ((s0.bump rxPause p.val).modPort p.val (fun x =>
        { x with pauseEnd := if q = 0 then 0 else s.now + (q * 512 + 99) / 100 }))) ∧
      (s0.rxVerdict p.val f = .accept → plain → f.packetUe = false →
        Gives (.frameReceive p f) s (fun t => (∃ m : RxMeta, t.port p.val = { s.port p.val with rxQ := (s.port p.val).rxQ ++ [m] } ∧ m.data = stripTag body ∧
            m.size = f.data.length) ∧
          t.rd rxFramesOk p.val = (s.rd rxFramesOk p.val + 1) % 2 ^ 64 ∧ t.rd rxOctetsOk p.val = (s.rd rxOctetsOk p.val + f.data.length) % 2 ^ 64 ∧
          (∀ k, k ≠ p.val → t.port k = s.port k) ∧ t = { s with ports := t.ports, regs := t.regs })) ∧
      (s0.rxVerdict p.val f = .accept → plain → f.packetUe = true →
        Gives (.frameReceive p f) s (fun t => t.rd secPktmemUe = (s.rd secPktmemUe + 1) % 2 ^ 64 ∧ t.rd secPktmemCe = (s.rd secPktmemCe + f.packetCe) % 2 ^ 64 ∧
          t.rd rxFramesOk p.val = (s.rd rxFramesOk p.val + 1) % 2 ^ 64 ∧ t.rd rxOctetsOk p.val = (s.rd rxOctetsOk p.val + f.data.length) % 2 ^ 64 ∧
          t = { s with regs := t.regs })))

/-- The end of a gate interval sets the gates as the active bank has them; a write of ETH_GATE_CTL that sets SWAP to a bank, or GATE_EN with an active bank, that holds an interval below 8 ns sets CFG_ERR alone; one that sets neither is a plain write, after which the gates follow the register; a swap that is due on the gates' time base clears SWAP and makes the other bank active, one that is not due or not requested changes nothing; a pause whose time has passed ends, and another stays. -/
def Obligations.GateAndPauseRows : Prop :=
  (∀ (p : PortId) (s : State), exec (.gateIntervalEnd p) s = .next (s.modPort p.val (fun x => { x with gates := s.gatesNow p.val }))) ∧
  (∀ (p : PortId) (v : Word64) (s : State),
    (bit v.toNat 3 = true ∧ s.bankOk p.val (1 - s.rd ethGateActiveBank p.val) = false) ∨ (bit v.toNat 2 = true ∧ s.bankOk p.val (s.rd ethGateActiveBank p.val) = false) →
    exec (.ethGateCtlWrite p 64 v) s = .next (s.wr ethCfgErr 1 p.val)) ∧
  (∀ (p : PortId) (v : Word64) (s : State), bit v.toNat 3 = false → bit v.toNat 2 = false →
    exec (.ethGateCtlWrite p 64 v) s = .next (((s.writeReg (ethBase p.val + 0x28) 64 v.toNat).regate p.val).dropNever p.val)) ∧
  (∀ (p : PortId) (v : Word64) (s : State), bit v.toNat 3 = true → s.flag ethGateSwap p.val = false → s.bankOk p.val (1 - s.rd ethGateActiveBank p.val) = true →
    (bit v.toNat 2 = true → s.bankOk p.val (s.rd ethGateActiveBank p.val) = true) →
    let u := s.writeReg (ethBase p.val + 0x28) 64 v.toNat
    exec (.ethGateCtlWrite p 64 v) s = .next (((u.modPort p.val (fun x => { x with swapAt := u.swapDue p.val })).regate p.val).dropNever p.val)) ∧
  (∀ (p : PortId) (s : State), s.flag ethGateSwap p.val = true → (s.port p.val).swapAt ≤ s.tbVal (s.rd ethGateTb p.val) →
    (∀ q < 8, s.txq p.val q = []) → (s.port p.val).parts = [] →
    Gives (.gateSwap p) s (fun t => t.flag ethGateSwap p.val = false ∧ t.rd ethGateActiveBank p.val = (1 - s.rd ethGateActiveBank p.val) % 2 ∧
      t.port p.val = { s.port p.val with gates := t.gatesNow p.val } ∧ (∀ k, k ≠ p.val → t.port k = s.port k) ∧
      (∀ (d : RegDesc) (i j : Nat), d.key i j ≠ ethGateSwap.key p.val 0 → d.key i j ≠ ethGateActiveBank.key p.val 0 → t.rd d i j = s.rd d i j) ∧
      t = { s with ports := t.ports, regs := t.regs })) ∧
  (∀ (p : PortId) (s : State), s.flag ethGateSwap p.val = false ∨ s.tbVal (s.rd ethGateTb p.val) < (s.port p.val).swapAt → exec (.gateSwap p) s = .next s) ∧
  (∀ (p : PortId) (s : State), exec (.pauseExpiry p) s = .next (if (s.port p.val).pauseEnd ≤ s.now then s.modPort p.val (fun x => { x with pauseEnd := 0 }) else s))

/-- A host descriptor that finds none waiting, whose buffers EGR admits and whose launch time is at most 2 s ahead becomes the last of its queue, its buffers held; one with a launch time further ahead completes with LAUNCH_FAR and holds nothing; one that is not admitted, or that finds others waiting, becomes the last that waits and holds nothing. The buffers of a descriptor are those its bytes fill. Nothing else changes. -/
def Obligations.TransmitDescriptorQueued : Prop :=
  ∀ (p : PortId) (d0 : TxDesc) (s : State), let d := { d0 with buffers := buffersOf d0.data.length }
    let far := d.launch.any (fun l => decide ((l.2.toNat : Int) - s.tbVal l.1.val > 2000000000))
    d0.owner = .host →
    ((s.port p.val).waiting ≠ [] ∨ s.admits 3 d.buffers = false →
      exec (.transmitDescriptor p d0) s = .next (s.modPort p.val (fun x => { x with waiting := x.waiting ++ [d] }))) ∧
    ((s.port p.val).waiting = [] → s.admits 3 d.buffers = true → far = false → Gives (.transmitDescriptor p d0) s (fun t =>
      t.txq p.val d.queue.val = s.txq p.val d.queue.val ++ [d] ∧ (∀ q, q ≠ d.queue.val → t.txq p.val q = s.txq p.val q) ∧
      t.port p.val = { s.port p.val with queues := (t.port p.val).queues } ∧ (∀ k, k ≠ p.val → t.port k = s.port k) ∧
      t.heldOf 3 = s.heldOf 3 + d.buffers ∧ (∀ c, c ≠ 3 → t.heldOf c = s.heldOf c) ∧ t = { s with ports := t.ports, ing := t.ing })) ∧
    ((s.port p.val).waiting = [] → s.admits 3 d.buffers = true → far = true → Gives (.transmitDescriptor p d0) s (fun t =>
      t.port p.val = { s.port p.val with done := (s.port p.val).done ++ [{ owner := .host, fate := .launchFar }] } ∧ (∀ k, k ≠ p.val → t.port k = s.port k) ∧
      (∀ c, t.heldOf c = s.heldOf c) ∧ t = { s with ports := t.ports, ing := t.ing }))

/-- With no descriptor waiting for buffers, and while the link is down or TX_EN is 0, a start puts no frame on the wire: the first head, queue 7 first, whose launch time has come or that has none leaves its queue with TX_LINK_DOWN, which is counted; with no such head nothing changes. A link that goes down cuts off the frame on the wire, which completes with TX_LINK_DOWN and is not counted as sent. -/
def Obligations.LinkDownDiscards : Prop :=
  (∀ (p : PortId) (s : State), (s.flag ethLinkUp p.val = false ∨ s.flag ethTxEn p.val = false) → (s.port p.val).wire = none → s.ring.fenced = false →
    (s.port p.val).waiting = [] → let launched := fun (h : TxHead) => s.launched h.desc
    (s.pickQ p.val launched = none → exec (.frameTransmitStart p) s = .next s) ∧
    (∀ q d, s.pickQ p.val launched = some (q, { desc := d, len := txFrameLen d }) → d.owner = .host →
      Gives (.frameTransmitStart p) s (fun t => (t.port p.val).wire = none ∧ t.txq p.val q = (s.txq p.val q).tail ∧ (∀ k, k ≠ q → t.txq p.val k = s.txq p.val k) ∧
        (t.port p.val).done = (s.port p.val).done ++ [{ owner := .host, fate := .linkDown }] ∧ t.rd txLinkDown p.val = (s.rd txLinkDown p.val + 1) % 2 ^ 64 ∧
        (∀ (r : RegDesc) (i j : Nat), r.key i j ≠ txLinkDown.key p.val 0 → t.rd r i j = s.rd r i j) ∧ (∀ k, k ≠ p.val → t.port k = s.port k) ∧
        t = { s with ports := t.ports, regs := t.regs, ing := t.ing }))) ∧
  (∀ (p : PortId) (w : Wire) (s : State), (s.port p.val).wire = some w → w.desc.owner = .host →
    Gives (.linkDown p) s (fun t => (t.port p.val).wire = none ∧ t.flag ethLinkUp p.val = false ∧ t.rd txLinkDown p.val = (s.rd txLinkDown p.val + 1) % 2 ^ 64 ∧
      t.rd txFramesOk p.val = s.rd txFramesOk p.val ∧ (t.port p.val).done = (s.port p.val).done ++ [{ owner := .host, fate := .linkDown }] ∧
      (∀ q, t.txq p.val q = s.txq p.val q) ∧ (∀ k, k ≠ p.val → t.port k = s.port k) ∧ t = { s with ports := t.ports, regs := t.regs, ing := t.ing }))

/-- With the link up, transmission on, no pause, the wire free, no descriptor waiting for buffers and no head that never fits its gate, a start takes the first eligible head, queue 7 first, off its queue and puts it on the wire; in a pause, or with a frame on the wire, it changes nothing. The end of a frame counts it with its octets and frees the wire; a descriptor with segments left stands at the head of its queue with the next of them, and one with none completes. An underrun of a frame longer than THRESHOLD, outside compatibility mode, is counted, raises THRESHOLD by 256 up to MAX_FRAME, ends the frame after the bytes that have gone out with the inverse of their FCS and completes it as underrun; else it changes nothing. -/
def Obligations.FrameTransmitRows : Prop :=
  (∀ (p : PortId) (q : Nat) (d : TxDesc) (s : State), s.flag ethLinkUp p.val = true → s.flag ethTxEn p.val = true → (s.port p.val).wire = none → s.ring.fenced = false →
    (s.port p.val).waiting = [] → (s.port p.val).pauseEnd ≤ s.now → s.dropNever p.val = s → s.tooLong p.val d = false →
    s.pickQ p.val (fun h => (h.part.isNone && s.tooLong p.val h.desc) || s.eligible p.val h) = some (q, { desc := d, len := txFrameLen d }) →
    Gives (.frameTransmitStart p) s (fun t => (∃ w, (t.port p.val).wire = some w ∧ w.desc = d ∧ w.startedAt = s.now ∧ w.segsLeft = (txImages d).tail) ∧
      t.txq p.val q = (s.txq p.val q).tail ∧ (∀ k, k ≠ q → t.txq p.val k = s.txq p.val k) ∧ (∀ k, k ≠ p.val → t.port k = s.port k) ∧
      t = { s with ports := t.ports, regs := t.regs })) ∧
  (∀ (p : PortId) (s : State), s.flag ethLinkUp p.val = true → s.flag ethTxEn p.val = true → (s.port p.val).waiting = [] →
    (s.now < (s.port p.val).pauseEnd ∨ (s.port p.val).wire ≠ none) → exec (.frameTransmitStart p) s = .next s) ∧
  (∀ (p : PortId) (w : Wire) (s : State), (s.port p.val).wire = some w → w.desc.owner = .host → (s.cap.caps.find? (fun e => e.1 = 65536 + p.val)) = none →
    Gives (.frameTransmitEnd p) s (fun t => (t.port p.val).wire = none ∧ (t.port p.val).lastSent = w.bytes ∧ t.rd txFramesOk p.val = (s.rd txFramesOk p.val + 1) % 2 ^ 64 ∧
      t.rd txOctetsOk p.val = (s.rd txOctetsOk p.val + w.bytes.length) % 2 ^ 64 ∧
      (w.segsLeft = [] → (t.port p.val).done = (s.port p.val).done ++ [{ owner := .host, fate := w.fate, tsLost := w.tsLost }] ∧ (t.port p.val).parts = (s.port p.val).parts) ∧
      (∀ x r, w.segsLeft = x :: r → (t.port p.val).done = (s.port p.val).done ∧
        (t.port p.val).parts = tins (s.port p.val).parts w.desc.queue.val { w with bytes := [] }) ∧
      (∀ q, t.txq p.val q = s.txq p.val q) ∧ (∀ k, k ≠ p.val → t.port k = s.port k) ∧ t = { s with ports := t.ports, regs := t.regs, ing := t.ing })) ∧
  (∀ (p : PortId) (w : Wire) (s : State), (s.port p.val).wire = some w → w.segsLeft = [] → w.desc.owner = .host → s.flag ethGu12Compat p.val = false →
    s.rd ethTxThreshold p.val < w.bytes.length → s.rd ethMaxFrame p.val < 2 ^ 14 → let out := w.bytes.take (s.sentBytes w)
    Gives (.txUnderrun p none) s (fun t => (t.port p.val).wire = none ∧ t.rd ethTxThreshold p.val = min (s.rd ethTxThreshold p.val + 256) (s.rd ethMaxFrame p.val) ∧
      (t.port p.val).lastSent = out ++ (leBytes 4 (crc32 out)).map (fun b => ~~~b) ∧ t.rd txUnderrunCnt p.val = (s.rd txUnderrunCnt p.val + 1) % 2 ^ 64 ∧
      t.rd txFramesOk p.val = s.rd txFramesOk p.val ∧
      (t.port p.val).done = (s.port p.val).done ++ [{ owner := .host, fate := .underrun, tsLost := w.tsLost }] ∧ (∀ k, k ≠ p.val → t.port k = s.port k) ∧
      t = { s with ports := t.ports, regs := t.regs, ing := t.ing })) ∧
  (∀ (p : PortId) (w : Wire) (s : State), (s.port p.val).wire = some w → (s.flag ethGu12Compat p.val = true ∨ w.bytes.length ≤ s.rd ethTxThreshold p.val) →
    exec (.txUnderrun p none) s = .next s)

/-- With PD-ACC powered a lookup takes the oldest frame off the port's receive buffer and counts it as classified; a frame for an inactive address counts as NOADDR, one that no flow matches as NOFLOW, and one that is no UDP as NONUDP, each going no further where its class does not act and Bister does not take it as PTP; with no frame waiting nothing changes. A frame whose flow is found but whose class has no buffers counts in FLW_NOBUF alone; an admitted valid RTP packet of an unprotected media flow goes to Steep and an admitted packet of an unprotected immediate flow to Mordant, each holding its buffers in its class and its channel. -/
def Obligations.FlowLookupClasses : Prop :=
  (∀ (p : PortId) (bad : List Nat) (s : State), (s.port p.val).rxQ = [] → exec (.flowLookup p bad) s = .next s) ∧
  (∀ (p : PortId) (cls : Nat) (m : RxMeta) (rest : List RxMeta) (s : State), unitOn (.flowLookup p []) s → (s.port p.val).rxQ = m :: rest → m.mark = none →
    s.ing.eccSlots = [] → cls < 3 → s.classify p.val m [] = .exc cls → s.takesPtp p.val m.data = false → s.excAction cls = 0 →
    exec (.flowLookup p []) s = .next (((s.modPort p.val (fun x => { x with rxQ := rest })).bump flwClassified).bump
      (if cls = 0 then flwNoaddr else if cls = 1 then flwNoflow else flwNonudp))) ∧
  (∀ (p : PortId) (m : RxMeta) (rest : List RxMeta) (e : FlowEntry) (pay : List Byte) (s : State), unitOn (.flowLookup p []) s → (s.port p.val).rxQ = m :: rest →
    m.mark = none → s.ing.eccSlots = [] → s.classify p.val m [] = .flow e pay → e.immediate = true → s.admits 1 (buffersOf m.data.length) = false →
    exec (.flowLookup p []) s = .next (((s.modPort p.val (fun x => { x with rxQ := rest })).bump flwClassified).bump flwNobuf 1)) ∧
  (∀ (p : PortId) (m : RxMeta) (rest : List RxMeta) (e : FlowEntry) (pay : List Byte) (s : State), let n := buffersOf m.data.length; let w := (s.chan e.ch).weld
    unitOn (.flowLookup p []) s → (s.port p.val).rxQ = m :: rest → m.mark = none → s.ing.eccSlots = [] → s.classify p.val m [] = .flow e pay →
    e.rtcpMux = false → e.srtp = false → (s.chan e.ch).ingressHeld + n ≤ e.quota →
    (e.immediate = true → e.kind = 1 → s.admits 1 n = true → Gives (.flowLookup p []) s (fun t => (t.port p.val).rxQ = rest ∧ t.heldOf 1 = s.heldOf 1 + n ∧
      t.chan e.ch = { s.chan e.ch with ingressHeld := (s.chan e.ch).ingressHeld + n } ∧
      t.ing.immIn = s.ing.immIn ++ [{ ch := e.ch, flowKind := 1, pt := 0, marker := false, ts := 0, payload := pay, buffers := n }] ∧
      t.rd flwClassified = (s.rd flwClassified + 1) % 2 ^ 64 ∧ (∀ k, k ≠ e.ch → t.chan k = s.chan k) ∧ (∀ k, k ≠ p.val → t.port k = s.port k) ∧
      t = { s with ports := t.ports, regs := t.regs, ing := t.ing, chans := t.chans })) ∧
    (e.immediate = false → e.eventEn = false → e.kind = 0 → w.blocks = [] → (w.rxNext.getD w.rxFf).rxFec < 2 → rtpValid pay = true → s.admits 0 n = true →
      Gives (.flowLookup p []) s (fun t => (t.port p.val).rxQ = rest ∧ t.heldOf 0 = s.heldOf 0 + n ∧
        t.chan e.ch = { s.chan e.ch with ingressHeld := (s.chan e.ch).ingressHeld + n } ∧
        (∃ k : MediaPkt, t.ing.steepIn = s.ing.steepIn ++ [k] ∧ k.ch = e.ch ∧ k.seq = rtpSeq pay ∧ k.ts = rtpTsOf pay ∧ k.pt = rtpPt pay ∧
          k.payload = rtpPayload pay ∧ k.buffers = n) ∧
        t.rd flwClassified = (s.rd flwClassified + 1) % 2 ^ 64 ∧ (∀ k, k ≠ e.ch → t.chan k = s.chan k) ∧ (∀ k, k ≠ p.val → t.port k = s.port k) ∧
        t = { s with ports := t.ports, regs := t.regs, ing := t.ing, chans := t.chans })))

/-- With PD-ACC powered: the old key of a channel goes once its time has come and stays before; a new 1 ms window of TB0 sets the counts of the exception queues to nothing, and within a window nothing changes; a rewritten flow slot is no longer in error. A request for an active address is answered from the port's MAC address in queue 0, with the buffers of the answer held, and one for any other address changes nothing; a request of FLW_SNAP sets it with its time. -/
def Obligations.IngressHousekeeping : Prop :=
  (∀ (ch : ChanId) (s : State), unitOn (.previousKeyDiscard ch) s → let r := (s.chan ch.val).srx
    (r.previous ≠ none → r.discardAt ≤ s.now →
      exec (.previousKeyDiscard ch) s = .next (s.modChan ch.val (fun c => { c with srx := { c.srx with previous := none } }))) ∧
    (r.previous = none ∨ s.now < r.discardAt → exec (.previousKeyDiscard ch) s = .next s)) ∧
  (∀ s : State, unitOn .excRateWindow s → let w := s.tbVal 0 / 1000000
    exec .excRateWindow s = .next (if w = s.ing.excWindow then s else { s with ing := { s.ing with excWindow := w, excCount := [] } })) ∧
  (∀ (slot : Nat) (s : State), unitOn (.flowSlotRewrite slot) s →
    exec (.flowSlotRewrite slot) s = .next { s with ing := { s.ing with eccSlots := s.ing.eccSlots.filter (· != slot) } }) ∧
  (∀ (p : PortId) (a : BitVec 128) (sol : Bool) (f : List Byte) (s : State), let reply := arpReply (s.rd ethMacAddr p.val) a sol f; let n := buffersOf reply.length
    s.latIndex a ≠ none → (s.port p.val).waiting = [] → s.admits 3 n = true → Gives (.arpRequest p a sol f) s (fun t =>
      t.txq p.val 0 = s.txq p.val 0 ++ [{ queue := 0, data := reply, owner := .bister, buffers := n }] ∧ (∀ q, q ≠ 0 → t.txq p.val q = s.txq p.val q) ∧
      t.heldOf 3 = s.heldOf 3 + n ∧ (∀ k, k ≠ p.val → t.port k = s.port k) ∧ t = { s with ports := t.ports, ing := t.ing })) ∧
  (∀ (p : PortId) (a : BitVec 128) (sol : Bool) (f : List Byte) (s : State), s.latIndex a = none → exec (.arpRequest p a sol f) s = .next s) ∧
  (∀ s : State, Gives .flwBookSnap s (fun t => t.flag flwSnapReq = true ∧ tget t.sup.snapAt 0 0 = s.now ∧
    (∀ (d : RegDesc) (i j : Nat), d.key i j ≠ flwSnapReq.key 0 0 → t.rd d i j = s.rd d i j) ∧ t = { s with regs := t.regs, sup := { s.sup with snapAt := t.sup.snapAt } }))

/-- With PD-ACC powered: a channel with nothing to send is left as it is; a frame that is not sent leaves the head of the channel's queue, is counted in the time since the last packet, ends the talkspurt and posts nothing; frames that make up a packet leave together, with the timestamp moved on by the time since the last packet at the clock of their codec and the marker where a talkspurt begins; an event takes its own timestamp. Where EGR has no room for what a packet takes, the channel waits unchanged. -/
def Obligations.EgressPacketBuilt : Prop :=
  (∀ (ch : ChanId) (s : State), (s.chan ch.val).egr.outQ = [] → exec (.egressPacketBuild ch) s = .next s) ∧
  (∀ (ch : ChanId) (f : OutFrame) (rest : List OutFrame) (s : State), unitOn (.egressPacketBuild ch) s → (s.chan ch.val).egr.outQ = f :: rest → f.sent = false →
    f.raw = false → f.eventTs = none → s.admits 3 0 = true → Gives (.egressPacketBuild ch) s (fun t => let c := s.chan ch.val
      t.chan ch.val = { c with weld := { c.weld with lastFrames := [] }, egr := { c.egr with outQ := rest, elapsed := c.egr.elapsed + f.span, markNext := true } } ∧
      (∀ k, k ≠ ch.val → t.chan k = s.chan k) ∧ t = { s with chans := t.chans })) ∧
  (∀ (ch : ChanId) (f : OutFrame) (rest fs left : List OutFrame) (s : State), let c := s.chan ch.val; let ts := nextTs c f.codec
    let primary := fs.flatMap (·.payload); let kept := c.weld.lastFrames ++ [(ts, f.pt, primary)]
    let c1 := { c with weld := { c.weld with lastFrames := kept.drop (kept.length - 3) }, egr := { c.egr with outQ := left, rtpTs := BitVec.ofNat 32 ts, elapsed := fs.foldl (fun a x => a + x.span) 0, markNext := false } }
    let t := (s.setChan ch.val c1).sendRtp ch.val f.pt ts c.egr.markNext primary (s.launchOf f)
    unitOn (.egressPacketBuild ch) s → c.egr.outQ = f :: rest → f.raw = false → f.eventTs = none → f.sent = true → f.sid = false → redSent c = false →
    nextPacket (f :: rest) = some (fs, left) → exec (.egressPacketBuild ch) s = .next (if s.admits 3 (t.heldOf 3 - s.heldOf 3) then t else s)) ∧
  (∀ (ch : ChanId) (f : OutFrame) (ts : Nat) (rest : List OutFrame) (s : State), unitOn (.egressPacketBuild ch) s → (s.chan ch.val).egr.outQ = f :: rest →
    f.raw = false → f.eventTs = some ts →
    let t := (s.modChan ch.val (fun c => { c with egr := { c.egr with outQ := rest } })).sendRtp ch.val f.pt ts f.mark f.payload (s.launchOf f)
    exec (.egressPacketBuild ch) s = .next (if s.admits 3 (t.heldOf 3 - s.heldOf 3) then t else s))

/-- A book whose snapshot is requested is latched at a quiescent point up to 1 µs after the request: its request clears, its DONE sets, and Bister's audit raises INTERNAL with the book and the difference for the first sum that misses its total, and nothing where every sum agrees. One still waiting 1 µs after its request without a quiescent point clears the request and sets the skip flag. A book whose snapshot nobody asked for is left by both rows, and outside those times each leaves all as it is. -/
def Obligations.BooksLatched : Prop :=
  (∀ (b : Book) (s : State), s.flag (bookRegs b).1 = false → exec (.bookLatch b) s = .next s ∧ exec (.bookSnapSkipped b) s = .next s) ∧
  (∀ (b : Book) (s : State), let due := tget s.sup.snapAt (bookNo b) 0 + us 1; let r := bookRegs b; let u := ((s.latchBook b).wr r.1 0).wr r.2.1 1
    s.flag r.1 = true →
    (s.quiescent b = true → s.now ≤ due → (∀ x ∈ u.bookSums b, x.1 = x.2) → exec (.bookLatch b) s = .next u) ∧
    (∀ x, s.quiescent b = true → s.now ≤ due → (u.bookSums b).find? (fun x => x.1 != x.2) = some x →
      exec (.bookLatch b) s = .next (u.raise 0x0001 uSUP 0 0xFFFF (bookNo b) 0 (wrapInt 32 ((x.1 : Int) - x.2)))) ∧
    (s.quiescent b = true → s.now ≤ due → Gives (.bookLatch b) s (fun t => t.flag r.1 = false ∧ t.flag r.2.1 = true ∧
      t.chans = s.chans ∧ t.ports = s.ports ∧ t.engines = s.engines ∧ t.mor = s.mor ∧ t.mem = s.mem ∧ t.ring = s.ring ∧ t.ing = s.ing)) ∧
    (s.quiescent b = false ∨ due < s.now → exec (.bookLatch b) s = .next s) ∧
    (due < s.now ∨ (s.now = due ∧ s.quiescent b = false) → exec (.bookSnapSkipped b) s = .next ((s.wr r.1 0).wr r.2.2 1)) ∧
    (s.now < due ∨ (s.now = due ∧ s.quiescent b = true) → exec (.bookSnapSkipped b) s = .next s))

/-- With PD-ACC and PD-MEM powered, Steep takes the oldest packet handed to it. One of a channel that is neither OPEN nor BOUND, or that comes before media resumes after WARM, only frees its buffers; word of a restart that carries no packet flushes the channel's ring and is not counted. Any other is counted in RX_PACKETS and RX_OCTETS whatever its fate. On an anchored channel without an outstanding jump and without FECFRAME, a packet of the payload-type set that fits its slot is stored where it lies 0 to 511 ahead of PLAY_SEQ and its slot is free of it, counted as a duplicate where it is stored already, and counted late where it lies up to 512 behind and was not received; each frees its buffers. -/
def Obligations.SteepRingWriteFates : Prop :=
  (∀ s : State, s.ing.steepIn = [] → exec .steepRingWrite s = .next s) ∧
  (∀ (k : MediaPkt) (rest : List MediaPkt) (s : State), unitOn .steepRingWrite s → s.ing.steepIn = k :: rest →
    (((s.chan k.ch).st ≠ .open ∧ (s.chan k.ch).st ≠ .bound) ∨ s.img.warmHold = true) →
    exec .steepRingWrite s = .next (State.chanFree { s with ing := { s.ing with steepIn := rest } } 0 k.ch k.buffers)) ∧
  (∀ (k : MediaPkt) (rest : List MediaPkt) (s : State), unitOn .steepRingWrite s → s.ing.steepIn = k :: rest →
    ((s.chan k.ch).st = .open ∨ (s.chan k.ch).st = .bound) → s.img.warmHold = false → k.notice = true → k.restart = true →
    exec .steepRingWrite s = .next (State.restartStream { s with ing := { s.ing with steepIn := rest } } k.ch k.seq)) ∧
  (∀ (k : MediaPkt) (rest : List MediaPkt) (s : State), unitOn .steepRingWrite s → s.ing.steepIn = k :: rest →
    ((s.chan k.ch).st = .open ∨ (s.chan k.ch).st = .bound) → s.img.warmHold = false → k.notice = false →
    Gives .steepRingWrite s (fun t => t.ing.steepIn = rest ∧ (t.chan k.ch).ctr.rxPackets = (s.chan k.ch).ctr.rxPackets + 1 ∧
      (t.chan k.ch).ctr.rxOctets = (s.chan k.ch).ctr.rxOctets + k.payload.length ∧ (t.chan k.ch).rxSsrc = BitVec.ofNat 32 k.ssrc ∧
      (∀ m, m ≠ k.ch → t.chan m = s.chan m) ∧ t.ports = s.ports ∧ t.time = s.time ∧ t.engines = s.engines ∧ t.mem = s.mem)) ∧
  (∀ (k : MediaPkt) (rest : List MediaPkt) (s : State), let c := s.chan k.ch; let d := signed 16 (k.seq + 65536 - c.steep.playSeq % 65536)
    let seq := c.steep.playSeq + d.toNat
    unitOn .steepRingWrite s → s.ing.steepIn = k :: rest → c.st = .open → s.img.warmHold = false → k.notice = false → k.restart = false → c.vbd.state = 0 →
    redRead c = false → inPtSet c k.pt = true → c.weld.blocks = [] → (c.weld.rxNext.getD c.weld.rxFf).rxFec < 2 →
    32 + k.payload.length ≤ c.steep.moving.getD c.steep.slotSize → c.steep.anchored = true → c.steep.jumpPkt = none →
    (0 ≤ d → d < 512 → c.steep.ring.any (fun e => e.2.seq = seq) = false →
      Gives .steepRingWrite s (fun t => (∃ r : RingSlot, (seq % 512, r) ∈ (t.chan k.ch).steep.ring ∧ r.seq = seq ∧ r.ts = extendTs c.steep.lastTs k.ts ∧
          r.pt = k.pt ∧ r.payload = k.payload) ∧ t.rd stpRingWrites = (s.rd stpRingWrites + 1) % 2 ^ 64 ∧
        (t.chan k.ch).ctr.duplicates = c.ctr.duplicates ∧ (t.chan k.ch).ctr.late = c.ctr.late ∧ t.heldOf 0 = s.heldOf 0 - k.buffers)) ∧
    (0 ≤ d → d < 512 → c.steep.ring.any (fun e => e.2.seq = seq) = true →
      Gives .steepRingWrite s (fun t => (t.chan k.ch).ctr.duplicates = c.ctr.duplicates + 1 ∧ (t.chan k.ch).steep.ring = c.steep.ring ∧ t.heldOf 0 = s.heldOf 0 - k.buffers)) ∧
    (-512 ≤ d → d < 0 → c.steep.recvBits.getLsbD (-d - 1).toNat = false →
      Gives .steepRingWrite s (fun t => (t.chan k.ch).ctr.late = c.ctr.late + 1 ∧ t.rd stpLate = (s.rd stpLate + 1) % 2 ^ 64 ∧
        (t.chan k.ch).steep.ring = c.steep.ring ∧ t.heldOf 0 = s.heldOf 0 - k.buffers)))

/-- With their domains powered: a tick entry is taken only while the release queue has room for what a tick can add and for the offers Weld has not answered; before media resumes after WARM it is let go; else the ticks at or before it are released in order of time while there is room, and the entry leaves the queue once none is left. A playout tick of a channel that has none due, without room, or before media resumes changes nothing; on a channel that anchors again it releases one gap task at the tick and moves the next tick on by the grid; on an anchored channel inside its depth band it plays the packet stored for PLAY_SEQ where Table 5.2 finds its frame. Ageing drops the transits that have left the window and looks at the depth band again; an expired FORCE_AFTER makes a forced step due, and before its time nothing happens; a ring moves to its new slot size. -/
def Obligations.PlayoutRows : Prop :=
  (∀ (tb : TbId) (b : Nat) (rest : List Nat) (s : State), unitOn (.tickEntryTaken tb) s → (s.tb tb.val).tickQ = b :: rest →
    let pop := fun (s : State) => s.modTb tb.val (fun t => { t with tickQ := rest })
    let u := State.runTicks (s.tickTotal tb.val (b * 250000)) tb.val (b * 250000) s
    (s.relRoom = false → exec (.tickEntryTaken tb) s = .next s) ∧
    (s.relRoom = true → s.img.warmHold = true ∨ s.nextTicker tb.val (b * 250000) = none → exec (.tickEntryTaken tb) s = .next (pop s)) ∧
    (s.relRoom = true → s.img.warmHold = false →
      exec (.tickEntryTaken tb) s = .next (if (u.nextTicker tb.val (b * 250000)).isSome = true then u else pop u))) ∧
  (∀ (ch : ChanId) (s : State), let c := s.chan ch.val; let due := hasTick c c.tb ((s.tb c.tb).lastTick * 250000)
    (due = false ∨ s.relRoom = false ∨ s.img.warmHold = true → exec (.playoutTick ch) s = .next s) ∧
    (unitOn (.playoutTick ch) s → due = true → s.relRoom = true → s.img.warmHold = false → c.steep.offered = none → c.steep.rephase = false →
      saffronAudio c = false → s.mor.relQ.any (fun t => t.ch = ch.val) = false →
      (c.steep.anchored = false → Gives (.playoutTick ch) s (fun t => (t.chan ch.val).steep.nextTick = c.steep.nextTick + gridNs c.steep ∧
        (t.chan ch.val).steep.tickCount = c.steep.tickCount + 1 ∧ (t.chan ch.val).steep.lastTask = .gap ∧
        (∃ k : Task, t.mor.relQ = insertTask s.tickAge k s.mor.relQ ∧ k.ch = ch.val ∧ k.kind = .gap ∧ k.tick = c.steep.nextTick ∧ k.tickNo = c.steep.tickCount) ∧
        (∀ m, m ≠ ch.val → t.chan m = s.chan m) ∧ t = { s with chans := t.chans, mor := t.mor, regs := t.regs })) ∧
      (∀ r, c.steep.anchored = true → band c = .eq → lookAt c c.steep.nextTick = .frame r → Gives (.playoutTick ch) s (fun t =>
        (t.chan ch.val).steep.nextTick = c.steep.nextTick + gridNs c.steep ∧ (t.chan ch.val).steep.playSeq = c.steep.playSeq + 1 ∧
        (t.chan ch.val).steep.lastTask = .frame ∧ (t.chan ch.val).ctr.played = c.ctr.played + 1 ∧
        (∃ k : Task, t.mor.relQ = insertTask s.tickAge k s.mor.relQ ∧ k.ch = ch.val ∧ k.kind = .frame ∧ k.tick = c.steep.nextTick ∧
          k.pt = (playedFrame r).1 ∧ k.payload = (playedFrame r).2 ∧ k.ts = r.ts) ∧
        (∀ m, m ≠ ch.val → t.chan m = s.chan m) ∧ t = { s with chans := t.chans, mor := t.mor, regs := t.regs })))) ∧
  (∀ (ch : ChanId) (s : State), unitOn (.transitWindowAge ch) s → let c := s.chan ch.val
    let a := { c with steep := { c.steep with transits := c.steep.transits.filter (fun e => decide (s.tbVal c.tb < e.1 + sec c.jit.window)) } }
    exec (.transitWindowAge ch) s = .next (s.setChan ch.val (if band a = .eq then { a with steep := { a.steep with outSince := none, forceDue := false } }
      else { a with steep := { a.steep with outSince := some (a.steep.outSince.getD s.now) } }))) ∧
  (∀ (ch : ChanId) (s : State), unitOn (.forceAfterExpiry ch) s → let c := s.chan ch.val
    let outlasted := c.jit.forceAfter ≠ 0 ∧ ∃ a, c.steep.outSince = some a ∧ a + sec c.jit.forceAfter ≤ s.now
    (outlasted → exec (.forceAfterExpiry ch) s = .next (s.modSteep ch.val (fun t => { t with forceDue := true }))) ∧ (¬outlasted → exec (.forceAfterExpiry ch) s = .next s)) ∧
  (∀ (ch : ChanId) (s : State), unitOn (.ringMove ch) s →
    exec (.ringMove ch) s = .next (s.modSteep ch.val (fun t => { t with slotSize := t.moving.getD t.slotSize, moving := none })))

/-- With their domains powered: an offer that comes within 8 µs of its tick is counted; one that a redundant block of the next three packets answers, or else the recovery store, is released as recovered with that payload and type, counted as missing and recovered, and one that neither answers is released as a concealment, counted as missing and concealed. One that is 8 µs old without an answer is concealed so. Each is released at its tick and frees the store entry of its number; with no offer outstanding, and before the 8 µs have passed, nothing changes. -/
def Obligations.WeldOfferRows : Prop :=
  (∀ (ch : ChanId) (s : State), (s.chan ch.val).steep.offered = none → exec (.weldOffer ch) s = .next s ∧ exec (.weldAnswerTimeout ch) s = .next s) ∧
  (∀ (ch : ChanId) (seq ts tick : Nat) (s : State), let c := s.chan ch.val
    let red := redSearch c ts ([1, 2, 3].flatMap (fun k => storedBlocks c (seq + k))) 0; let kept := c.weld.store.find? (fun e => e.1 = seq)
    let after := fun (t : State) (last : TaskKind) => (t.chan ch.val).steep.offered = none ∧ (t.chan ch.val).steep.lastTask = last ∧
      (t.chan ch.val).ctr.missing = c.ctr.missing + 1 ∧ (t.chan ch.val).weld.store = terase c.weld.store seq ∧ t.rd wldOffers = (s.rd wldOffers + 1) % 2 ^ 64 ∧
      (∀ m, m ≠ ch.val → t.chan m = s.chan m) ∧ t = { s with chans := t.chans, mor := t.mor, regs := t.regs }
    let gave := fun (t : State) (pt : Nat) (body : List Byte) => (t.chan ch.val).ctr.recovered = c.ctr.recovered + 1 ∧
      (t.chan ch.val).ctr.concealed = c.ctr.concealed ∧
      (∃ k : Task, t.mor.relQ = insertTask s.tickAge k s.mor.relQ ∧ k.ch = ch.val ∧ k.kind = .recovered ∧ k.tick = tick ∧ k.payload = body ∧ k.pt = pt)
    unitOn (.weldOffer ch) s → c.steep.offered = some (seq, ts, tick) → s.tbVal c.tb ≤ tick + 8000 → saffronAudio c = false →
    (∀ pt body, red.1 = some (pt, body) → Gives (.weldOffer ch) s (fun t => after t .recovered ∧ gave t pt body ∧
      t.rd wldRedRecovered = (s.rd wldRedRecovered + 1) % 2 ^ 64)) ∧
    (∀ body pt, red.1 = none → kept = some (seq, (body, pt)) → Gives (.weldOffer ch) s (fun t => after t .recovered ∧ gave t pt body ∧
      t.rd wldFfRecovered = (s.rd wldFfRecovered + 1) % 2 ^ 64)) ∧
    (red.1 = none → kept = none → Gives (.weldOffer ch) s (fun t => after t .conceal ∧ (t.chan ch.val).ctr.concealed = c.ctr.concealed + 1 ∧
      (t.chan ch.val).ctr.recovered = c.ctr.recovered ∧
      (∃ k : Task, t.mor.relQ = insertTask s.tickAge k s.mor.relQ ∧ k.ch = ch.val ∧ k.kind = .conceal ∧ k.tick = tick)))) ∧
  (∀ (ch : ChanId) (seq ts tick : Nat) (s : State), let c := s.chan ch.val
    unitOn (.weldAnswerTimeout ch) s → c.steep.offered = some (seq, ts, tick) →
    (s.tbVal c.tb < tick + 8000 → exec (.weldAnswerTimeout ch) s = .next s) ∧
    (tick + 8000 ≤ s.tbVal c.tb → Gives (.weldAnswerTimeout ch) s (fun t => (t.chan ch.val).steep.offered = none ∧ (t.chan ch.val).steep.lastTask = .conceal ∧
      (t.chan ch.val).ctr.missing = c.ctr.missing + 1 ∧ (t.chan ch.val).ctr.concealed = c.ctr.concealed + 1 ∧ (t.chan ch.val).weld.store = terase c.weld.store seq ∧
      (∃ k : Task, t.mor.relQ = insertTask s.tickAge k s.mor.relQ ∧ k.ch = ch.val ∧ k.kind = .conceal ∧ k.tick = tick) ∧
      (∀ m, m ≠ ch.val → t.chan m = s.chan m) ∧ t = { s with chans := t.chans, mor := t.mor, regs := t.regs })))

/-- With their domains powered: the oldest packet of a channel's repair flow leaves Weld's input and frees its buffers; a repair symbol of the block's size that it carries is kept under its ESI in a block open for its SBN, and one on a channel that does not receive FECFRAME is let go; with none waiting nothing changes. A unit that runs nothing takes the oldest queued job, counts it and leaves the channels as they are; a job whose block is gone is let go; a unit that already runs one takes none. The end of a job frees its unit and notes its passes, and a source packet it has solved, valid and ahead of its tick, enters the recovery store of an unprotected channel. A transmit block whose time has come closes with the next SBN, one whose time has not come stays. FEC_SET that runs puts the settings in force for an OPEN or BOUND channel, and on any other is BAD_STATE. -/
def Obligations.BlockDecodeRows : Prop :=
  (∀ (ch : ChanId) (r : RepairPacket) (s : State), s.ing.weldIn.find? (fun k => k.ch = ch.val) = none → exec (.repairSymbolReceive ch r) s = .next s) ∧
  (∀ (ch : ChanId) (r : RepairPacket) (k : RepairIn) (s : State), let c := s.chan ch.val; let f := fecFor c.weld r.sbn.toNat
    let freed := State.chanFree { s with ing := { s.ing with weldIn := s.ing.weldIn.erase k } } 0 ch.val k.buffers
    unitOn (.repairSymbolReceive ch r) s → s.ing.weldIn.find? (fun k => k.ch = ch.val) = some k → repairParse k.payload = some r →
    (f.rxFec < 2 → exec (.repairSymbolReceive ch r) s = .next freed) ∧
    (∀ b, (c.st = .open ∨ c.st = .bound) → 2 ≤ f.rxFec → r.symbol.length = f.ffE → r.k ≤ r.esi → r.k ≤ f.ffK →
      c.weld.blocks.find? (fun x => x.sbn = r.sbn.toNat) = some b → b.symbols.any (fun e => e.1 = r.esi) = false →
      Gives (.repairSymbolReceive ch r) s (fun t =>
        ((t.chan ch.val).weld.blocks.find? (fun x => x.sbn = r.sbn.toNat)).any (fun x => decide (tget x.symbols r.esi [] = r.symbol ∧ x.k = r.k)) = true ∧
        t.ing.weldIn = s.ing.weldIn.erase k ∧ t.heldOf 0 = s.heldOf 0 - k.buffers ∧ (∀ m, m ≠ ch.val → t.chan m = s.chan m) ∧
        t = { s with chans := t.chans, ing := t.ing, weldU := t.weldU, regs := t.regs }))) ∧
  (∀ (u : Fin 2) (j : DecodeJob) (rest : List DecodeJob) (s : State), unitOn (.decodeJobStart u) s → s.weldU.queue = j :: rest →
    s.weldU.running.any (fun e => e.1 = u.val) = false → let blk := (s.chan j.ch).weld.blocks.find? (fun b => b.sbn = j.sbn)
    (blk = none → exec (.decodeJobStart u) s = .next { s with weldU := { s.weldU with queue := rest } }) ∧
    (blk ≠ none → Gives (.decodeJobStart u) s (fun t => t.weldU.queue = rest ∧
      t.weldU.running.any (fun e => e.1 = u.val && e.2.ch = j.ch && e.2.sbn = j.sbn) = true ∧ t.rd wldDecodeJobs = (s.rd wldDecodeJobs + 1) % 2 ^ 64 ∧
      t = { s with weldU := t.weldU, regs := t.regs }))) ∧
  (∀ (u : Fin 2) (s : State), s.weldU.queue = [] ∨ s.weldU.running.any (fun e => e.1 = u.val) = true → exec (.decodeJobStart u) s = .next s) ∧
  (∀ (u : Fin 2) (j : DecodeJob) (s : State), unitOn (.decodeJobEnd u) s → s.weldU.running.find? (fun e => e.1 = u.val) = some (u.val, j) →
    let blk := (s.chan j.ch).weld.blocks.find? (fun b => b.sbn = j.sbn); let freed := { s.weldU with running := terase s.weldU.running u.val }
    (blk = none → exec (.decodeJobEnd u) s = .next { s with weldU := freed }) ∧
    (blk ≠ none → j.solved = [] → Gives (.decodeJobEnd u) s (fun t => t.weldU = freed ∧
      (t.chan j.ch).stats.maxPasses = max (s.chan j.ch).stats.maxPasses j.passes ∧ (t.chan j.ch).weld.store = (s.chan j.ch).weld.store ∧
      (∀ m, m ≠ j.ch → t.chan m = s.chan m) ∧ t = { s with weldU := t.weldU, chans := t.chans })) ∧
    (∀ b e q sym, blk = some b → j.solved = [(e, sym)] → b.symbols.any (fun x => x.1 = e) = false → b.firstSeq = some q →
      let c := s.chan j.ch; let pkt := (sym.drop 3).take (be16 sym 1)
      c.srx.current = none → rtpValid pkt = true → tickAhead c (q + e) = true → c.steep.ring.any (fun x => x.2.seq = q + e) = false → redRead c = false →
      Gives (.decodeJobEnd u) s (fun t => t.weldU = freed ∧ (t.chan j.ch).weld.store = tins c.weld.store (q + e) (rtpPayload pkt, rtpPt pkt) ∧
        (∀ m, m ≠ j.ch → t.chan m = s.chan m) ∧ t = { s with weldU := t.weldU, chans := t.chans }))) ∧
  (∀ (ch : ChanId) (s : State), let w := (s.chan ch.val).weld
    (w.txBlock = [] ∨ s.now < w.txFirstAt + ms w.txFf.timeout → exec (.ffBlockTimeout ch) s = .next s) ∧
    (unitOn (.ffBlockTimeout ch) s → w.txBlock ≠ [] → w.txFirstAt + ms w.txFf.timeout ≤ s.now → w.txRepair = none → s.admits 3 0 = true →
      Gives (.ffBlockTimeout ch) s (fun t => (t.chan ch.val).weld.txBlock = [] ∧ (t.chan ch.val).weld.txSbn = w.txSbn + 1 ∧
        (t.chan ch.val).weld.txFf = w.txNext.getD w.txFf ∧ (t.chan ch.val).weld.txNext = none ∧ (∀ m, m ≠ ch.val → t.chan m = s.chan m) ∧ t = { s with chans := t.chans }))) ∧
  (∀ (c : HostCmd) (gs : List Grp) (s : State), let ch := chanOf c; let f := fecOf (grp gs 10); let old := s.chan ch
    commandRuns c 0x21 [(1, 0xFFFF)] true s = true → s.groupsOf c [10, 11] [10] = .ok gs → grpOf gs 11 = none → f.txFec < 2 →
    (old.st ≠ .open → old.st ≠ .bound → exec (.fecSet c) s = .next (refused c 0x21 stBAD_STATE 0 s)) ∧
    (f.rxFec < 2 → (old.st = .open ∨ old.st = .bound) → s.canReserve (blockStoreBytes f - old.weld.reserved) = true →
      (s.flowsOfChan ch).filter (fun e => e.kind = 2) = [] → s.installFlows [] [] = some s →
      exec (.fecSet c) s = .next ((s.modChan ch (withFec f none)).publishing c 0x21 [ch])))

/-- Each end of a hold, of double talk, of the NLP's hang and of a trip acts once its time has come on the channel's time base and does nothing before; it changes nothing but that channel's canceller, whose NLP flag is then as R175 says. While adaptation does not run, a sample leaves the coefficients as they are. A search before its time, of a channel without a canceller or by another quadrant's searcher does nothing; one that is due, with PD-ACC powered, is counted and sets the next one, counts NO_EST where it yields no estimate, and else leaves its peaks, confirmed for placement where the highest agrees with the one before. EC_SET that runs puts its settings in force on an OPEN or BOUND channel, and is refused for a field out of range or with BAD_STATE. -/
def Obligations.EchoTimerRows : Prop :=
  (∀ (ch : ChanId) (s : State), let c := s.chan ch.val; let at_ := s.tbVal c.tb
    exec (.nlpHoldEnd ch) s = .next (if c.echo.holdUntil.any (fun t => decide (t ≤ at_)) = true
      then (s.modEcho ch.val (fun e => { e with holdUntil := none })).nlpUpdate ch.val else s) ∧
    exec (.doubleTalkEnd ch) s = .next (if c.echo.doubleTalk = true ∧ c.echo.dtUntil ≤ at_
      then (s.modEcho ch.val (fun e => { e with doubleTalk := false })).nlpUpdate ch.val else s) ∧
    exec (.nlpHangEnd ch) s = .next (if c.echo.nlp = true ∧ c.echo.rinActive = false ∧ c.echo.nlpUntil ≤ at_ then s.nlpUpdate ch.val else s) ∧
    exec (.disablerRelease ch) s = .next (if c.echo.quietSince.any (fun q => decide (q + ms 250 ≤ at_)) = true
      then (s.modEcho ch.val (fun e => { e with disabled := false, quietSince := none })).nlpUpdate ch.val else s)) ∧
  (∀ (ch : ChanId) (s : State), let t := s.nlpUpdate ch.val; let c := s.chan ch.val
    t.chan ch.val = { c with echo := { c.echo with nlp := nlpActs c (s.tbVal c.tb) } } ∧ (∀ k, k ≠ ch.val → t.chan k = s.chan k) ∧ t = { s with chans := t.chans }) ∧
  (∀ (j : EchoJob) (e : Echo) (f : Filter) (x : Int × Nat), let g := j.sample e false f x; g.c0 = f.c0 ∧ g.c1 = f.c1) ∧
  (∀ (ch : ChanId) (q : Fin 4) (s : State), (s.chan ch.val).echo.quadrant ≠ some q.val ∨ (s.chan ch.val).ecs.ecOn = false ∨
      s.tbVal (s.chan ch.val).tb < (s.chan ch.val).echo.nextSearch → exec (.woadSearch ch q) s = .next s) ∧
  (∀ (ch : ChanId) (q : Fin 4) (s : State), let c := s.chan ch.val; let r := searchResult c (s.rd wodThresh) c.echo.nextSearch
    unitOn (.woadSearch ch q) s → c.echo.quadrant = some q.val → c.ecs.ecOn = true → c.echo.nextSearch ≤ s.tbVal c.tb →
    Gives (.woadSearch ch q) s (fun t => let d := t.chan ch.val
      d.echo.nextSearch = c.echo.nextSearch + searchInterval (s.woadLoad q.val) ∧ d.stats.searches = c.stats.searches + 1 ∧
      t.rd wodSearches q.val = (s.rd wodSearches q.val + 1) % 2 ^ 64 ∧
      (r = none → d.echo = { c.echo with nextSearch := d.echo.nextSearch } ∧ t.rd wodNoEst q.val = (s.rd wodNoEst q.val + 1) % 2 ^ 64) ∧
      (∀ p1 p2, r = some (p1, p2) → d.echo.lastP1 = some p1.1 ∧ d.echo.lastP2 = p2.map (·.1) ∧ d.echo.p1Corr = p1.2 ∧ t.rd wodNoEst q.val = s.rd wodNoEst q.val ∧
        d.echo.confirmed = if c.echo.lastP1.any (fun p => decide (apart p p1.1 ≤ s.rd wodConfirmTol)) = true then some (p1.1, p2.map (·.1), c.echo.placeGen) else c.echo.confirmed) ∧
      (∀ k, k ≠ ch.val → t.chan k = s.chan k) ∧ t = { s with chans := t.chans, regs := t.regs })) ∧
  (∀ (c : HostCmd) (gs : List Grp) (s : State), let ch := chanOf c; let g := grp gs 7
    commandRuns c 0x22 [(1, 0xFFFF)] true s = true → s.groupsOf c [7] [7] = .ok gs →
    (((s.chan ch).st = .open ∨ (s.chan ch).st = .bound) → firstFail (echoChecks g) = none →
      exec (.ecSet c) s = .next ((((s.modChan ch (withEcho (echoOf g) (g.f 0 3 1 = 1))).settleEcho ch).replan).publishing c 0x22 [ch])) ∧
    ((s.chan ch).st ≠ .open → (s.chan ch).st ≠ .bound → firstFail (echoChecks g) = none → exec (.ecSet c) s = .next (refused c 0x22 stBAD_STATE 0 s)) ∧
    (∀ e d, firstFail (echoChecks g) = some (e, d) → exec (.ecSet c) s = .next (refused c 0x22 e d s)))

/-- With PD-ACC powered, the oldest descriptor of a cluster's queue starts with the bank in force and the fade then under way, its engine, address and skein as issued, and is marked started, once; a started one leaves the queue when it completes, is counted, and frees its engine to issue another, memory, ports and ring as before; with an empty queue, or none started, nothing changes. A swap outside a fade puts the target bank in force, starts a fade of 128 ms and is counted, or, where the target is in force already, only sets SWAP_DONE; during a fade it is held, a newer one replacing it, and the end of the fade lets the held one take effect; before its end, or with no fade, nothing happens. A write of GLZ_BANK_CTL that asks for no swap, or whose XFADE is out of range, makes none (for XFADE the model's reading, log 23). -/
def Obligations.GlazeRows : Prop :=
  (∀ (k : Fin 12) (j : GlzJob) (r : List GlzJob) (s : State), unitOn (.glazeDescriptorStart k) s → tget s.glaze.queues k.val [] = j :: r →
    (j.started = true → exec (.glazeDescriptorStart k) s = .next s) ∧
    (j.started = false → Gives (.glazeDescriptorStart k) s (fun t =>
      (∃ l, tget t.glaze.queues k.val [] = { j with started := true, lanes := l, bank := s.rd glzActiveBank, swaps := s.glaze.swaps
                                                    fade := if s.glaze.fadeEnd.isSome = true then some s.glaze.xfade else none } :: r) ∧
      (∀ m, m ≠ k.val → tget t.glaze.queues m [] = tget s.glaze.queues m []) ∧ t = { s with glaze := { s.glaze with queues := t.glaze.queues } }))) ∧
  (∀ (k : Fin 12) (s : State), tget s.glaze.queues k.val [] = [] → exec (.glazeDescriptorStart k) s = .next s ∧ exec (.glazeDescriptorComplete k) s = .next s) ∧
  (∀ (k : Fin 12) (j : GlzJob) (r : List GlzJob) (s : State), unitOn (.glazeDescriptorComplete k) s → tget s.glaze.queues k.val [] = j :: r →
    (j.started = false → exec (.glazeDescriptorComplete k) s = .next s) ∧
    (j.started = true → Gives (.glazeDescriptorComplete k) s (fun t => tget t.glaze.queues k.val [] = r ∧ (∀ m, m ≠ k.val → tget t.glaze.queues m [] = tget s.glaze.queues m []) ∧
      t.rd glzDescriptors k.val = (s.rd glzDescriptors k.val + 1) % 2 ^ 64 ∧ (t.eng j.engine).glzBusy = false ∧ (∀ m, m ≠ j.engine → t.eng m = s.eng m) ∧
      t = { s with glaze := { s.glaze with queues := t.glaze.queues }, regs := t.regs, engines := t.engines, saved := t.saved, freeCtr := t.freeCtr }))) ∧
  (∀ (target xfade : Nat) (s : State), target < 2 → s.rd glzActiveBank < 2 →
    (target = s.rd glzActiveBank → s.swapNow target xfade = s.wr glzSwapDone 1) ∧
    (target ≠ s.rd glzActiveBank → let t := s.swapNow target xfade
      t.rd glzActiveBank = target ∧ t.flag glzSwapDone = true ∧ t.rd glzSwaps = (s.rd glzSwaps + 1) % 2 ^ 64 ∧
        t.glaze = { s.glaze with fadeEnd := some (s.now + ms 128), xfade := xfade, swaps := s.glaze.swaps + 1 } ∧ t = { s with regs := t.regs, glaze := t.glaze })) ∧
  (∀ (width : Nat) (v : Word64) (s : State), let w := v.toNat; let u := (s.writeReg 0x80000 width w).wr glzSwap 0
    exec (.glzBankSwap width v) s = .next (if goodAccess 0x80000 width = true ∧ bit w 4 = true ∧ bits w 16 9 ≤ 256 then
      (if s.glaze.fadeEnd.isSome = true then { u with glaze := { s.glaze with heldReq := some (bits w 5 1, bits w 16 9) } }
      else u.swapNow (bits w 5 1) (bits w 16 9)) else u) ∧ u.glaze = s.glaze) ∧
  (∀ s : State, let u : State := { s with glaze := { s.glaze with fadeEnd := none, heldReq := none } }
    (s.glaze.fadeEnd = none → exec .fadingEnd s = .next s) ∧
    (∀ t, s.glaze.fadeEnd = some t → (s.now < t → exec .fadingEnd s = .next s) ∧
      (t ≤ s.now → s.glaze.heldReq = none → exec .fadingEnd s = .next u) ∧
      (∀ b x, t ≤ s.now → s.glaze.heldReq = some (b, x) → exec .fadingEnd s = .next (u.swapNow b x))))

/-- A received event that nothing has renewed for 200 ms ends: it is no longer the event received, its timestamp is the last one ended, and no other channel, port, engine or scheduler state changes; before that, or with none, nothing changes. TONE_SET that runs puts its settings in force for an OPEN or BOUND channel alone, and is refused with BAD_STATE for another channel or for a setting out of range. TONE_GEN on a BOUND channel puts its entries into the queue of its direction (a first entry without APPEND stops what was being generated), and is refused with BAD_STATE on a channel not BOUND or for a code that VBD_STATE forbids, for a code or stop code that is none, and with NO_RESOURCE for a seventeenth entry. -/
def Obligations.ToneRows : Prop :=
  (∀ (ch : ChanId) (s : State), (∀ e, (s.chan ch.val).tone.rxEvent = some e → s.now < e.lastAt + ms 200) → exec (.eventTimeout ch) s = .next s) ∧
  (∀ (ch : ChanId) (e : RxEvent) (s : State), (s.chan ch.val).tone.rxEvent = some e → e.lastAt + ms 200 ≤ s.now →
    Gives (.eventTimeout ch) s (fun t => (t.chan ch.val).tone.rxEvent = none ∧ (t.chan ch.val).tone.lastEndedTs = some e.ts ∧
      (t.chan ch.val).tone.declared = (s.chan ch.val).tone.declared ∧ (∀ k, k ≠ ch.val → t.chan k = s.chan k) ∧
      t.ports = s.ports ∧ t.engines = s.engines ∧ t.mor = s.mor)) ∧
  (∀ (c : HostCmd) (gs : List Grp) (s : State), let ch := chanOf c; let g := grp gs 8
    let checks := toneChecks g s (s.chan ch).rx (s.chan ch).fec.redPt
    commandRuns c 0x23 [(1, 0xFFFF)] true s = true → s.groupsOf c [8] [8] = .ok gs →
    (((s.chan ch).st = .open ∨ (s.chan ch).st = .bound) → firstFail checks = none →
      exec (.toneSet c) s = .next ((s.modChan ch (fun x => { x with tns := toneOf g })).publishing c 0x23 [ch])) ∧
    (∀ e d, ((s.chan ch).st = .open ∨ (s.chan ch).st = .bound) → firstFail checks = some (e, d) → exec (.toneSet c) s = .next (refused c 0x23 e d s)) ∧
    ((s.chan ch).st ≠ .open → (s.chan ch).st ≠ .bound → exec (.toneSet c) s = .next (refused c 0x23 stBAD_STATE 0 s))) ∧
  (∀ (c : HostCmd) (s : State), commandRuns c 0x24 [(1, 0x1FFFF)] true s = true → (s.chan (chanOf c)).st ≠ .bound →
    exec (.toneGen c) s = .next (refused c 0x24 stBAD_STATE 0 s)) ∧
  (∀ (c : HostCmd) (gs : List Grp) (s : State), let ch := chanOf c; let es := toneEntriesOf (grp gs 14); let dir := bits c.w1.toNat 16 1
    let old := (s.chan ch).tone; let place := if dir = 0 then old.pos0 else old.pos1
    let allowed := fun (e : ToneEntry) => (s.chan ch).vbd.state = 0 ∨ toneClass e.code = 5 ∨ toneClass e.code = 6 ∨ toneClass e.code = 7
    commandRuns c 0x24 [(1, 0x1FFFF)] true s = true → (s.chan ch).st = .bound → s.groupsOf c [14] [14] = .ok gs →
    ((∃ e ∈ es, ¬ allowed e) → exec (.toneGen c) s = .next (refused c 0x24 stBAD_STATE 0 s)) ∧
    ((∀ e ∈ es, allowed e) → (∃ e ∈ es, isGenerated e.code = false ∨ (e.stopCode ≠ 0xFF ∧ isDetected e.stopCode = false)) →
      ∃ d, exec (.toneGen c) s = .next (refused c 0x24 stBAD_PARAM d s)) ∧
    ((∀ e ∈ es, allowed e ∧ isGenerated e.code = true ∧ (e.stopCode = 0xFF ∨ isDetected e.stopCode = true)) →
      (queueEntries (genQ old dir) false es = none → exec (.toneGen c) s = .next (refused c 0x24 stNO_RESOURCE 0 s)) ∧
      (∀ q, queueEntries (genQ old dir) false es = some (q, false) →
        exec (.toneGen c) s = .next ((s.modTone ch (fun t => setGen t dir q place)).publishing c 0x24 [ch])) ∧
      (∀ q, queueEntries (genQ old dir) false es = some (q, true) →
        exec (.toneGen c) s = .next ((s.modTone ch (fun t => { setGen t dir q 0 with
          cuts := t.cuts ++ ((genQ old dir).head?.map (fun e => ({ dir := dir, entry := e, pos := place, till := none } : ToneCut))).toList })).publishing c 0x24 [ch]))))

/-- Each of these rows acts once its time has come and does nothing before: a qualification that has run out counts a false detection and restarts the reception; a gap in UDPTL that has stood for the reorder time is counted as lost IFPs and the IFP behind it goes to the modulator (shown for image data); a transmission whose data has ended 200 ms ago without sig-end falls, and one that waits starts when its silence ends; a Baudot mark that has been held ends; a text block leaves as one packet for egress, its characters gone from the queue; the return to IDLE, RETURN_IDLE seconds after the last declaration on either leg, leaves VBD_STATE 0 on both legs and no other channel changed. -/
def Obligations.VoicebandTimerRows : Prop :=
  (∀ (ch : ChanId) (s : State), let r := (s.chan ch.val).vbd.rx
    exec (.qualificationTimeout ch) s = .next (if (r.phase = 2 ∨ r.phase = 3) ∧ r.detected + abortWin (s.chan ch.val) ≤ s.now
      then (s.bump supVbdFalseDetect).modVbd ch.val (fun v => { v with rx := { count := 0 } }) else s)) ∧
  (∀ (ch : ChanId) (s : State), let c := s.chan ch.val; let v := c.vbd
    ((∀ t, v.gapSince = some t → s.now < t + ms c.fax.reorder) ∨ v.ifpQ = [] → exec (.udptlReorderTimeout ch) s = .next s) ∧
    (∀ t k p, v.gapSince = some t → v.ifpQ = [(k, p)] → t + ms c.fax.reorder ≤ s.now → Gives (.udptlReorderTimeout ch) s (fun u =>
      (u.chan ch.val).vbd.nextRx = k + 1 ∧ (u.chan ch.val).vbd.ifpQ = [] ∧ (u.chan ch.val).vbd.gapSince = none ∧
      u.rd supVbdIfpLost = (s.rd supVbdIfpLost + (k - v.nextRx)) % 2 ^ 64 ∧
      (∀ r rate o l, Config.ifpRead c.fax.version p = .image r rate o l → (u.chan ch.val).vbd.toModem = v.toModem ++ [.image r rate o l] ∧
        (∀ m, m ≠ ch.val → u.chan m = s.chan m) ∧ u = { s with chans := u.chans, regs := u.regs })))) ∧
  (∀ (ch : ChanId) (s : State), let v := (s.chan ch.val).vbd
    exec (.txSigEndTimeout ch) s = .next (if v.state = 2 ∧ v.transmitting = true ∧ v.toModem = [] ∧ v.txLastData + ms 200 ≤ s.now
      then s.modVbd ch.val (vbdFall s.now) else s) ∧
    exec (.saffronSilenceEnd ch) s = .next (if v.txWaiting = true ∧ v.silentUntil ≤ s.now then s.modVbd ch.val (vbdRise s.now) else s) ∧
    exec (.baudotMarkHoldEnd ch) s = .next (if v.markUntil.any (fun t => decide (t ≤ s.now)) = true then s.modVbd ch.val (vbdFall s.now) else s)) ∧
  (∀ (ch : ChanId) (s : State), let c := s.chan ch.val
    ((∀ t, c.vbd.textFirst = some t → s.now < t + ms 300) → exec (.textBlockTimeout ch) s = .next s) ∧
    (∀ t, c.vbd.textFirst = some t → t + ms 300 ≤ s.now → Gives (.textBlockTimeout ch) s (fun u => (u.chan ch.val).vbd.textOut = [] ∧ (u.chan ch.val).vbd.textFirst = none ∧
      (∃ f : OutFrame, (u.chan ch.val).egr.outQ = c.egr.outQ ++ [f] ∧ f.pt = c.fax.textPt ∧ (c.fax.textRed = 0 → f.payload = c.vbd.textOut)) ∧
      (∀ m, m ≠ ch.val → u.chan m = s.chan m) ∧ u = { s with chans := u.chans }))) ∧
  (∀ (ch : ChanId) (s : State), let c := s.chan ch.val; let d := s.chan c.peer
    let since := if c.st = .bound then max c.vbd.lastDecl d.vbd.lastDecl else c.vbd.lastDecl
    let due := (c.vbd.state = 1 ∨ c.vbd.state = 4) ∧ c.fax.returnIdle ≠ 0 ∧ since + sec c.fax.returnIdle ≤ s.now
    (due → Gives (.vbdReturnIdle ch) s (fun t => (t.chan ch.val).vbd.state = 0 ∧ (c.st = .bound → (t.chan c.peer).vbd.state = 0) ∧
      (∀ m, m ≠ ch.val → (c.st = .bound → m ≠ c.peer) → t.chan m = s.chan m) ∧ t = { s with chans := t.chans })) ∧
    (¬ due → exec (.vbdReturnIdle ch) s = .next s))

/-- A supervisor command that runs and passes its checks puts its new settings in force and publishes its channels. CHAN_OPEN of a FREE channel draws its three free values, installs the flow entries of its media ports and re-plans; it is BAD_STATE for an OPEN or BOUND channel and BUSY for a CLOSING one. CHAN_MODIFY of an OPEN or BOUND channel puts its groups in force and re-plans, with new flow entries where it carries FLOWS; it is BAD_STATE for any other. CALL_BIND of two OPEN channels whose periods suit makes each the other's peer; it is BAD_PARAM for one channel with itself or for periods that do not suit, BAD_STATE for a channel not OPEN. CALL_UNBIND makes both OPEN and is BAD_STATE for a channel not BOUND. SRTP_KEY_SET clears the secrets in the host's block and gives the keys to an OPEN or BOUND channel; it is BAD_STATE for any other. CHAN_CLOSE takes flow entries, local address and waiting tasks away and its peer becomes OPEN; it is BAD_STATE for a FREE channel and BUSY for a CLOSING one. A load too high is NO_RESOURCE and is counted. -/
def Obligations.ChannelCommands : Prop :=
  (∀ (c : HostCmd) (gs : List Grp) (s : State), let ch := chanOf c; let n := s.openedChan ch gs; let st := (s.chan ch).st
    let claim := s.claimFlows n.flows.localAddr [] (fun lat => portDetails (grp gs 4) (mediaFlows ch lat n.flows false))
    commandRuns c 0x10 [(1, 0xFFFF)] true s = true → s.groupsOf c [1, 2, 3, 4, 5, 6, 7, 8, 9] [1, 2, 3, 4, 5] = .ok gs → firstFail (groupChecks s n gs) = none →
    (st = .closing → exec (.chanOpen c) s = .next (refused c 0x10 stBUSY 0 s)) ∧
    ((st = .open ∨ st = .bound) → exec (.chanOpen c) s = .next (refused c 0x10 stBAD_STATE 0 s)) ∧
    (∀ s1 es, st = .free → s.rd mbxBootState ≠ 6 → s.homeOk ch = true → s.extOk n = true → claim = .ok (some (s1, es)) → s.frameFits n = true →
      let t := s1.draw.draw.draw.setChan ch n
      (overLoad s t = true → exec (.chanOpen c) s = .next (refused c 0x10 stNO_RESOURCE 0 (s.bump supLoadRefused))) ∧
      (∀ u, overLoad s t = false → t.installFlows [] es = some u →
        n.st = .open ∧ exec (.chanOpen c) s = .next (((u.ctxFrame ch).replan).publishing c 0x10 [ch])))) ∧
  (∀ (c : HostCmd) (gs : List Grp) (s : State), let ch := chanOf c; let old := s.chan ch; let n := modifiedChan old gs
    let t := ((((s.setChan ch n).letJumpGo s ch).settleEcho ch).rephaseIf s ch).rephaseIf s (if old.st = .bound then old.peer else ch)
    commandRuns c 0x11 [(1, 0xFFFF)] true s = true → s.groupsOf c [2, 3, 4, 5, 6, 7, 8, 9] [] = .ok gs → gs ≠ [] → firstFail (groupChecks s n gs) = none →
    ((old.st = .free ∨ old.st = .closing) → exec (.chanModify c) s = .next (refused c 0x11 stBAD_STATE 0 s)) ∧
    ((old.st = .open ∨ (old.st = .bound ∧ (callFits n (s.chan old.peer) = true ∨ (grpOf gs 2 = none ∧ grpOf gs 3 = none)))) →
      (old.vbd.state < 2 ∨ old.vbd.relay = false ∨ (grpOf gs 2 = none ∧ grpOf gs 3 = none ∧ grpOf gs 4 = none)) → s.frameFits n = true →
      (grpOf gs 4 = none → overLoad s t = false → exec (.chanModify c) s = .next (t.replan.publishing c 0x11 [ch])) ∧
      (grpOf gs 4 = none → overLoad s t = true → exec (.chanModify c) s = .next (refused c 0x11 stNO_RESOURCE 0 (s.bump supLoadRefused))) ∧
      (∀ g u, grpOf gs 4 = some g → t.reflow s ch g n = .ok u → exec (.chanModify c) s = .next (u.replan.publishing c 0x11 [ch])) ∧
      (∀ g e, grpOf gs 4 = some g → t.reflow s ch g n = .error e → exec (.chanModify c) s = .next (refused c 0x11 e.2.1 e.2.2 e.1)))) ∧
  (∀ (c : HostCmd) (s : State), let a := bits c.w1.toNat 0 16; let b := bits c.w1.toNat 16 16
    let t := (s.modChan a (fun x => { noReference x with st := .bound, peer := b })).modChan b (fun x => { noReference x with st := .bound, peer := a })
    commandRuns c 0x13 [(1, 0xFFFFFFFF)] false s = true →
    (a = b → exec (.callBind c) s = .next (refused c 0x13 stBAD_PARAM 10 s)) ∧
    (a ≠ b → ((s.chan a).st ≠ .open ∨ (s.chan b).st ≠ .open) → exec (.callBind c) s = .next (refused c 0x13 stBAD_STATE 0 s)) ∧
    (a ≠ b → (s.chan a).st = .open → (s.chan b).st = .open →
      (callFits (s.chan a) (s.chan b) = false → exec (.callBind c) s = .next (refused c 0x13 stBAD_PARAM 10 s)) ∧
      (callFits (s.chan a) (s.chan b) = true → overLoad s t = true → exec (.callBind c) s = .next (refused c 0x13 stNO_RESOURCE 0 (s.bump supLoadRefused))) ∧
      (callFits (s.chan a) (s.chan b) = true → overLoad s t = false → (t.chan a).st = .bound ∧ (t.chan a).peer = b ∧ (t.chan b).st = .bound ∧ (t.chan b).peer = a ∧
        (∀ m, m ≠ a → m ≠ b → t.chan m = s.chan m) ∧ exec (.callBind c) s = .next (t.replan.publishing c 0x13 [a, b])))) ∧
  (∀ (c : HostCmd) (s : State), let ch := chanOf c; let p := (s.chan ch).peer; let f := fun (x : Chan) => { noReference x with st := .open, peer := 0 }
    let t := (s.modChan ch f).modChan p f
    commandRuns c 0x14 [(1, 0xFFFF)] false s = true →
    ((s.chan ch).st = .bound → (t.chan ch).st = .open ∧ (t.chan p).st = .open ∧ (∀ m, m ≠ ch → m ≠ p → t.chan m = s.chan m) ∧
      exec (.callUnbind c) s = .next (t.replan.publishing c 0x14 [ch, p])) ∧
    ((s.chan ch).st ≠ .bound → exec (.callUnbind c) s = .next (refused c 0x14 stBAD_STATE 0 s))) ∧
  (∀ (c : HostCmd) (gs : List Grp) (s : State), let ch := chanOf c; let t := s.scrub c
    commandRuns c 0x20 [(1, 0xFFFF)] true s = true → s.groupsOf c [12] [12] = .ok gs → (∀ g ∈ gs, g.f 0 32 32 < 2 ^ (8 * g.f 0 4 3)) →
    (((s.chan ch).st = .open ∨ (s.chan ch).st = .bound) → (∀ g ∈ gs, g.f 0 1 3 ≤ 4 ∧ g.f 0 24 8 = 0) →
      exec (.srtpKeySet c) s = .next ((gs.foldl (fun s g => s.setKey ch g) t).publishing c 0x20 [ch])) ∧
    ((s.chan ch).st ≠ .open → (s.chan ch).st ≠ .bound → exec (.srtpKeySet c) s = .next (refused c 0x20 stBAD_STATE 0 t))) ∧
  (∀ (c : HostCmd) (s : State), let ch := chanOf c; let old := s.chan ch
    let s1 := ((s.removeFlows ((s.flowsOfChan ch).map flowKey)).latLeave old.flows.localAddr).cancelTasks ch 2 true
    let s2 := s1.modChan ch (fun x => { x with st := .closing, pub := { x.pub with closing := true, lastState := shownState old false, lastPeer := old.peer } })
    commandRuns c 0x12 [(1, 0xFFFF)] false s = true →
    (old.st = .open → exec (.chanClose c) s = .next ((s2.replan.dropFar ch).publishing c 0x12 [ch])) ∧
    (old.st = .bound → exec (.chanClose c) s =
      .next (((s2.modChan old.peer (fun p => { p with st := .open, peer := 0 })).replan.dropFar ch).publishing c 0x12 [ch, old.peer])) ∧
    (old.st = .free → exec (.chanClose c) s = .next (refused c 0x12 stBAD_STATE 0 s)) ∧ (old.st = .closing → exec (.chanClose c) s = .next (refused c 0x12 stBUSY 0 s)))

/-- An OPEN or BOUND channel whose last publication began 20 ms ago or more, and that is not held for an update, publishes at its housekeeping; any other does nothing there. A deferred publication begins once it is due, no older job's settings stand before it, it is spaced and the channel is not held for an update (shown for channels not CLOSING), and else does nothing. A write of the state window is discarded, counted and raises an event. SNAPSHOT and STATS_READ refuse a count of 0, beyond its maximum or past the last channel, and a short buffer, and otherwise queue their line writes; SNAPSHOT's buffer lies on 64 bytes and one SNAPSHOT is served at a time. FAX_MODE of a channel that is not BOUND is BAD_STATE; one that passes its checks makes its state and publishes both channels, with the flow entries that modes 0 and 2 change; a load too high is NO_RESOURCE and is counted. -/
def Obligations.ReadAndPublishRows : Prop :=
  (∀ (ch : ChanId) (s : State), let c := s.chan ch.val
    exec (.housekeepingPublication ch) s = .next (if (c.st = .open ∨ c.st = .bound) ∧ (∀ e, c.pub.lastEnd = some e → e + ms 20 ≤ s.now) ∧ s.heldForUp ch.val = false
      then s.publish ch.val else s)) ∧
  (∀ (ch : ChanId) (s : State), let c := s.chan ch.val
    (c.st ≠ .closing → exec (.deferredPublication ch) s = .next (if c.pub.due = true ∧ c.pub.newer = false ∧ spaced c.pub s.now = true ∧ s.heldForUp ch.val = false
      then s.publish ch.val else s)) ∧
    (c.pub.due = false → exec (.deferredPublication ch) s = .next s)) ∧
  (∀ (offset : Nat) (s : State), exec (.stateWindowWrite offset) s = .next ((s.bump mbxSwWriteDiscard).raise 0x0009 uMBX 0 0xFFFF 0 offset)) ∧
  (∀ (c : HostCmd) (s : State), let first := bits c.w1.toNat 0 16; let count := bits c.w1.toNat 32 17
    commandRuns c 0x80 [(1, 0x1FFFF0000FFFF), (3, 0xFFFFFFFFFFFFFFFF), (4, 0xFFFFFFFFFFFFFFFF)] false s = true →
    ((count = 0 ∨ 65536 < count ∨ 65536 < first + count) → exec (.snapshot c) s = .next (refused c 0x80 stBAD_PARAM 12 s)) ∧
    (count ≠ 0 → first + count ≤ 65536 → c.w4.toNat < count * 512 → exec (.snapshot c) s = .next (refused c 0x80 stBAD_PARAM 32 s)) ∧
    (count ≠ 0 → first + count ≤ 65536 → count * 512 ≤ c.w4.toNat → c.w3.toNat % 64 ≠ 0 → exec (.snapshot c) s = .next (refused c 0x80 stBAD_PARAM 24 s)) ∧
    (count ≠ 0 → first + count ≤ 65536 → count * 512 ≤ c.w4.toNat → c.w3.toNat % 64 = 0 →
      ((∃ r ∈ s.host.cacheOut ++ s.host.cacheWait, r.serves = 0) → exec (.snapshot c) s = .next (refused c 0x80 stBUSY 0 s)) ∧
      ((∀ r ∈ s.host.cacheOut ++ s.host.cacheWait, r.serves ≠ 0) →
        exec (.snapshot c) s = .next ((s.cacheIssue (lineWrites 0 c.qid.val c.tag.toNat c.w3.toNat (s.tbVal 0) count (8 * count)
          ((List.range count).flatMap (fun i => s.recordBytes (first + i))))).markApplied c.qid.val c.tag.toNat)))) ∧
  (∀ (c : HostCmd) (s : State), let first := bits c.w1.toNat 0 16; let count := bits c.w1.toNat 32 13
    commandRuns c 0x81 [(1, 0x1FFF0000FFFF), (3, 0xFFFFFFFFFFFFFFFF), (4, 0xFFFFFFFFFFFFFFFF)] false s = true →
    ((count = 0 ∨ 4096 < count ∨ 65536 < first + count) → exec (.statsRead c) s = .next (refused c 0x81 stBAD_PARAM 12 s)) ∧
    (count ≠ 0 → count ≤ 4096 → first + count ≤ 65536 → c.w4.toNat < count * 1024 → exec (.statsRead c) s = .next (refused c 0x81 stBAD_PARAM 32 s)) ∧
    (count ≠ 0 → count ≤ 4096 → first + count ≤ 65536 → count * 1024 ≤ c.w4.toNat →
      exec (.statsRead c) s = .next ((State.cacheIssue { s with freeCtr := s.freeCtr + count } (lineWrites 2 c.qid.val c.tag.toNat c.w3.toNat count 0 (16 * count + 1)
        ((List.range count).flatMap (fun i => s.statsBlock (first + i) (Config.freeNat (s.freeCtr + i)))))).markApplied c.qid.val c.tag.toNat))) ∧
  (∀ (c : HostCmd) (s : State), commandRuns c 0x25 [(1, 0xFFFF)] true s = true → (s.chan (chanOf c)).st ≠ .bound →
    exec (.faxMode c) s = .next (refused c 0x25 stBAD_STATE 0 s)) ∧
  (∀ (c : HostCmd) (g : Grp) (s : State), let ch := chanOf c; let old := s.chan ch; let f := faxOf g; let t := s.faxEffect ch [g] f
    commandRuns c 0x25 [(1, 0xFFFF)] true s = true → old.st = .bound → s.groupsOf c [13, 2, 3, 4, 6] [13] = .ok [g] → g.type = 13 → f.mode ≠ 0 →
    (f.mode = 1 → isG711 old = true ∧ isG711 (s.chan old.peer) = true) → (f.errRec = true → f.version ≠ 0) →
    (modeAllowed old f.mode = false → exec (.faxMode c) s = .next (refused c 0x25 stBAD_STATE 0 s)) ∧
    (modeAllowed old f.mode = true → (f.mode ≠ 2 ∨ old.vbd.state = 2) →
      exec (.faxMode c) s = .next (if overLoad s t = true then refused c 0x25 stNO_RESOURCE 0 (s.bump supLoadRefused) else t.replan.publishing c 0x25 [ch, old.peer])) ∧
    (modeAllowed old f.mode = true → f.mode = 2 → old.vbd.state < 2 → let lat := (s.latIndex old.flows.localAddr).getD 0
      let olds := ((s.flowsOfChan ch).filter (fun e => e.kind = 0)).map flowKey; let news := [udptlFlow ch lat old.flows f.port]
      s.keyClash olds (news.map (fun e => (e, g.detail 1 0))) = none →
      (overLoad s t = true → exec (.faxMode c) s = .next (refused c 0x25 stNO_RESOURCE 0 (s.bump supLoadRefused))) ∧
      (∀ u, overLoad s t = false → t.installFlows olds news = some u → exec (.faxMode c) s = .next (u.replan.publishing c 0x25 [ch, old.peer])))) ∧
  (∀ (c : HostCmd) (gs : List Grp) (s : State), let ch := chanOf c; let old := s.chan ch; let f := faxOf (grp gs 13)
    let subject := if old.vbd.state = 2 ∨ old.vbd.state = 3 then s.relayLeg ch else ch; let n := restored gs 0 (s.chan subject); let t := s.faxEffect ch gs f
    commandRuns c 0x25 [(1, 0xFFFF)] true s = true → old.st = .bound → s.groupsOf c [13, 2, 3, 4, 6] [13] = .ok gs → f.mode = 0 → (f.errRec = true → f.version ≠ 0) →
    firstFail (groupChecks s n (gs.filter (fun g => g.type != 13))) = none → modeAllowed old 0 = true → (grpOf gs 2 = none ∧ grpOf gs 3 = none ∨ callFits n (s.chan n.peer) = true) →
    ((s.chan subject).vbd.state ≠ 2 → grpOf gs 4 = none →
      exec (.faxMode c) s = .next (if overLoad s t = true then refused c 0x25 stNO_RESOURCE 0 (s.bump supLoadRefused) else t.replan.publishing c 0x25 [ch, old.peer])) ∧
    (((s.chan subject).vbd.state = 2 ∨ grpOf gs 4 ≠ none) →
      (∀ u, t.reflow s subject (grp gs 4) (t.chan subject) = .ok u → exec (.faxMode c) s = .next (u.replan.publishing c 0x25 [ch, old.peer])) ∧
      (∀ e, t.reflow s subject (grp gs 4) (t.chan subject) = .error e → exec (.faxMode c) s = .next (refused c 0x25 e.2.1 e.2.2 e.1))))

/-- With PD-ACC powered: with nothing offered TASK_OFFER changes nothing; a task that a cancel meets is counted and gone; one whose home list has no more than IMM_RESERVE free slots stays in the release queue and is refused; any other supersedes and enters the list. An immediate task of a closed channel only frees its buffers, when it comes and when it is held; one that finds no slot is held, and with 256 held is dropped; a held one that finds a slot is placed. A forming skein closes once its window has passed and not before. An engine that may not steal does nothing; one that finds no skein starts its idleness again; else it takes the whole skein that closed first into transit. The oldest transit that fits its list arrives there, and with none nothing changes. -/
def Obligations.MordantTaskRows : Prop :=
  (∀ (b : Bool) (s : State), s.mor.relQ = [] → exec (.taskOffer b) s = .next s) ∧
  (∀ (t0 : Task) (rest : List Task) (e : Nat) (s : State), let t := s.accepted t0; let s1 := s.assignHome t0.ch t
    unitOn (.taskOffer true) s → s.mor.relQ = t0 :: rest → t0.refused = false → (s1.chan t0.ch).home = some e →
    exec (.taskOffer true) s = .next (((s1.setRelQ rest).bump morCancelPre e).traceTask 5 e 0xFF 0 t) ∧
    (s1.freeSlots e ≤ s1.rd morImmReserve →
      exec (.taskOffer false) s = .next (((s1.setRelQ ({ t0 with refused := true } :: rest)).bump morRefused).traceTask 1 e 0xFF 0 t)) ∧
    (s1.rd morImmReserve < s1.freeSlots e →
      exec (.taskOffer false) s = .next (((((s1.setRelQ rest).supersede t0.ch).bump morAccepted e).enlist e t).traceTask 0 e 0xFF 0 t))) ∧
  (∀ s : State, (s.ing.immIn = [] → exec .immediateTaskAccept s = .next s) ∧ (s.ing.immHold = [] → exec .immediateHoldReoffer s = .next s)) ∧
  (∀ (i : ImmTask) (rest : List ImmTask) (s : State), let s1 := { s with ing := { s.ing with immIn := rest } }
    unitOn .immediateTaskAccept s → s.ing.immIn = i :: rest →
    (((s.chan i.ch).st = .free ∨ (s.chan i.ch).st = .closing) → exec .immediateTaskAccept s = .next (s1.dropImm i)) ∧
    (((s.chan i.ch).st = .open ∨ (s.chan i.ch).st = .bound) →
      (∀ t, s1.placeImm i = some t → exec .immediateTaskAccept s = .next t) ∧
      (s1.placeImm i = none → s.ing.immHold.length < 256 →
        exec .immediateTaskAccept s = .next { s with ing := { s.ing with immIn := rest, immHold := s.ing.immHold ++ [i] } }) ∧
      (s1.placeImm i = none → 256 ≤ s.ing.immHold.length → exec .immediateTaskAccept s = .next ((s1.dropImm i).bump morImmDrop)))) ∧
  (∀ (i : ImmTask) (rest : List ImmTask) (s : State), let s1 := { s with ing := { s.ing with immHold := rest } }
    unitOn .immediateHoldReoffer s → s.ing.immHold = i :: rest →
    (((s.chan i.ch).st = .free ∨ (s.chan i.ch).st = .closing) → exec .immediateHoldReoffer s = .next (s1.dropImm i)) ∧
    (((s.chan i.ch).st = .open ∨ (s.chan i.ch).st = .bound) →
      (s1.placeImm i = none → exec .immediateHoldReoffer s = .next s) ∧ (∀ t, s1.placeImm i = some t → exec .immediateHoldReoffer s = .next t))) ∧
  (∀ (e : EngineId) (index : Nat) (s : State), unitOn (.skeinWindowClose e index) s →
    ((s.me e.val).forming[index]? = none → exec (.skeinWindowClose e index) s = .next s) ∧
    (∀ k, (s.me e.val).forming[index]? = some k →
      (s.now < k.openedAt + s.window k.cls → exec (.skeinWindowClose e index) s = .next s) ∧
      (k.openedAt + s.window k.cls ≤ s.now → (s.me e.val).forming.find? (fun x => x.num = k.num) = some k → (∀ x ∈ (s.me e.val).due ++ [k], x.cls ≠ 0) →
        Gives (.skeinWindowClose e index) s (fun t => (t.me e.val).forming = (s.me e.val).forming.filter (fun x => x.num != k.num) ∧
          (t.me e.val).due = (s.me e.val).due ++ [{ k with closedAt := s.now }] ∧ (t.me e.val).running = (s.me e.val).running ∧ (t.me e.val).dq = (s.me e.val).dq ∧
          (∀ x, x ≠ e.val → t.me x = s.me x) ∧ t.chans = s.chans ∧ t.engines = s.engines ∧ t.ports = s.ports)))) ∧
  (∀ (e : EngineId) (s : State), (s.flag morStealEn = false ∨ (s.me e.val).service ≠ 0 ∨ (s.me e.val).idleSince = none ∨ s.mor.transit.any (fun x => x.dest = e.val) = true) →
    exec (.stealNear e) s = .next s ∧ exec (.stealFar e) s = .next s) ∧
  (∀ (e : EngineId) (i : Nat) (s : State), let from_ := fun (l : List Nat) => (l.filter (· != e.val)).flatMap (fun v => (s.me v).due.map (fun k => (v, k)))
    let all := if s.mor.evacEnd = [] then (List.range 24).map (fun i => e.val / 24 * 24 + i) else List.range 96
    let again := s.modMe e.val (fun m => { m with idleSince := some s.now })
    let took := fun (v : Nat) (k : Skein) (t : State) => t.mor.transit = s.mor.transit ++ [{ src := v, dest := e.val, kind := 1, skein := k }] ∧
      (t.me v).due = (s.me v).due.filter (fun x => x.num != k.num) ∧ (∀ x, x ≠ v → t.me x = s.me x) ∧ t.chans = s.chans ∧ t.engines = s.engines
    unitOn (.stealNear e) s → s.flag morStealEn = true → (s.me e.val).service = 0 → (s.me e.val).idleSince = some i → s.mor.transit.any (fun x => x.dest = e.val) = false →
    (s.now < i + s.rd morStealNear → exec (.stealNear e) s = .next s) ∧ (s.now < i + s.rd morStealFar → exec (.stealFar e) s = .next s) ∧
    (i + s.rd morStealNear ≤ s.now →
      (bestSteal (from_ (clusterOf e.val)) = none → exec (.stealNear e) s = .next again) ∧
      (∀ v k, bestSteal (from_ (clusterOf e.val)) = some (v, k) →
        (s.freeSlots e.val < k.tasks.length → exec (.stealNear e) s = .next again) ∧ (k.tasks.length ≤ s.freeSlots e.val → Gives (.stealNear e) s (took v k)))) ∧
    (i + s.rd morStealFar ≤ s.now →
      (bestSteal (from_ all) = none → exec (.stealFar e) s = .next again) ∧
      (∀ v k, bestSteal (from_ all) = some (v, k) →
        (s.freeSlots e.val < k.tasks.length → exec (.stealFar e) s = .next again) ∧ (k.tasks.length ≤ s.freeSlots e.val → Gives (.stealFar e) s (took v k))))) ∧
  (∀ s : State, unitOn .taskTransitEnd s →
    (s.mor.transit.find? s.fits = none → exec .taskTransitEnd s = .next s) ∧
    (∀ x, s.mor.transit.find? s.fits = some x → let u : State := { s with mor := { s.mor with transit := s.mor.transit.erase x } }
      exec .taskTransitEnd s = .next (u.arrive x) ∧ (u.arrive x).mor.transit = s.mor.transit.erase x ∧
      (x.kind = 1 → (∀ k ∈ (s.me x.dest).due ++ [x.skein], k.cls ≠ 0) → ((u.arrive x).me x.dest).due = (s.me x.dest).due ++ [x.skein] ∧
        ((u.arrive x).me x.dest).idleSince = none ∧ (∀ e, e ≠ x.dest → (u.arrive x).me e = s.me e) ∧ (u.arrive x).chans = s.chans ∧ (u.arrive x).engines = s.engines ∧ (u.arrive x).mem = s.mem)))

/-- ENGINE_RETIRE and ENGINE_RESTORE refuse an engine beyond 95 with BAD_PARAM and one in the wrong service state with BAD_STATE; a retirement that would leave fewer engines than the load limit needs with NO_RESOURCE; else the engine is retired, or reset and tested for 100 us. A self-test that ends before its time does nothing; one that passes returns the engine to service and completes its ENGINE_RESTORE. A domain whose engines are lost already loses nothing; one whose four engines are empty loses them and opens an evacuation window. With ABORT 0 no running job is cancelled; an overdue lane's cancel is recorded and counted. An evacuation window closes once its time has passed. -/
def Obligations.EngineServiceRows : Prop :=
  (∀ (c : HostCmd) (s : State), let e := bits c.w1.toNat 0 7
    commandRuns c 0x60 [(1, 0x7F)] false s = true →
    (95 < e → exec (.engineRetire c) s = .next (refused c 0x60 stBAD_PARAM 8 s)) ∧
    (e ≤ 95 → (s.me e).service ≠ 0 → exec (.engineRetire c) s = .next (refused c 0x60 stBAD_STATE 0 s)) ∧
    (e ≤ 95 → (s.me e).service = 0 → s.serving.length ≤ s.rd supLoadLimit → exec (.engineRetire c) s = .next (refused c 0x60 stNO_RESOURCE 0 s)) ∧
    (e ≤ 95 → (s.me e).service = 0 → s.rd supLoadLimit < s.serving.length →
      exec (.engineRetire c) s = .next ((s.retire e (some (c.qid.val, c.tag.toNat)) false).markApplied c.qid.val c.tag.toNat))) ∧
  (∀ (c : HostCmd) (s : State), let e := bits c.w1.toNat 0 7
    commandRuns c 0x61 [(1, 0x7F)] false s = true →
    (95 < e → exec (.engineRestore c) s = .next (refused c 0x61 stBAD_PARAM 8 s)) ∧
    (e ≤ 95 → ((s.me e).service ≠ 2 ∨ bit (s.rd pwrEngOn) (e / 4) = false) → exec (.engineRestore c) s = .next (refused c 0x61 stBAD_STATE 0 s)) ∧
    (e ≤ 95 → (s.me e).service = 2 → bit (s.rd pwrEngOn) (e / 4) = true → Gives (.engineRestore c) s (fun t =>
      (t.me e).service = 3 ∧ (t.me e).selfTestAt = s.now + us 100 ∧ (t.me e).restoreQ = some (c.qid.val, c.tag.toNat) ∧ (t.eng e).xmem = [] ∧ (t.eng e).ymem = [] ∧
      (s.img.target = none → (t.eng e).pmem = s.pmemImage e) ∧ (t.eng e).pc = 0 ∧ (∀ x, x ≠ e → t.me x = s.me x ∧ t.eng x = s.eng x) ∧ t.chans = s.chans ∧ t.mem = s.mem ∧ t.ports = s.ports))) ∧
  (∀ (e : EngineId) (b : Bool) (s : State), ((s.me e.val).service ≠ 3 ∨ s.now < (s.me e.val).selfTestAt) → exec (.engineSelfTestDone e b) s = .next s) ∧
  (∀ (e : EngineId) (s : State), (s.me e.val).service = 3 → (s.me e.val).selfTestAt ≤ s.now → (s.me e.val).restoreQ = none →
    Gives (.engineSelfTestDone e true) s (fun t => (t.me e.val).service = 0 ∧ (t.me e.val).faultTimes = [] ∧ (∀ x, x ≠ e.val → t.me x = s.me x) ∧ t = { s with mor := t.mor })) ∧
  (∀ (e : EngineId) (q tag : Nat) (s : State), (s.me e.val).service = 3 → (s.me e.val).selfTestAt ≤ s.now → (s.me e.val).restoreQ = some (q, tag) →
    exec (.engineSelfTestDone e true) s = .next (((s.modMe e.val (fun m => { m with service := 0, restoreQ := none, warmTest := false, faultTimes := [], byRollout := false })).idle e.val).complete
      q tag 0x61 stOK 0 0 0)) ∧
  (∀ (e : EngineId) (s : State), let u := (s.modMe e.val (fun m => { m with service := 2, restoreQ := none, warmTest := false, faultTimes := [] })).idle e.val
    (s.me e.val).service = 3 → (s.me e.val).selfTestAt ≤ s.now → (s.me e.val).warmTest = false →
    ((s.me e.val).restoreQ = none → exec (.engineSelfTestDone e false) s = .next (u.raise 0x0006 uSUP e.val 0xFFFF e.val)) ∧
    (∀ q tag, (s.me e.val).restoreQ = some (q, tag) →
      exec (.engineSelfTestDone e false) s = .next ((u.raise 0x0006 uSUP e.val 0xFFFF e.val).complete q tag 0x61 stINTERNAL 0 0 0))) ∧
  (∀ (d : Fin 24) (s : State), (∀ i < 4, (s.me (4 * d.val + i)).service = 4) → exec (.engineDomainFailure d) s = .next s) ∧
  (∀ (d : Fin 24) (s : State), s.mor.transit = [] → s.chans = [] →
    (∀ i < 4, let m := s.me (4 * d.val + i); m.service = 0 ∧ m.running = none ∧ m.suspended = none ∧ m.dq = [] ∧ m.due = [] ∧ m.forming = [] ∧ m.waiting = [] ∧ m.retireQ = none ∧ m.restoreQ = none) →
    Gives (.engineDomainFailure d) s (fun t => (∀ i < 4, (t.me (4 * d.val + i)).service = 4) ∧ (∀ e, e / 4 ≠ d.val → t.me e = s.me e ∧ t.eng e = s.eng e) ∧
      t.mor.evacEnd = s.mor.evacEnd ++ [s.now + ms 100] ∧ t.rd morEvacuations = (s.rd morEvacuations + 1) % 2 ^ 64 ∧ t.chans = s.chans ∧ t.mem = s.mem ∧ t.ports = s.ports)) ∧
  (∀ (e : EngineId) (lane : Fin 16) (s : State), s.rd morAbort = 0 → exec (.jobAbort e lane) s = .next s) ∧
  (∀ (e : EngineId) (lane : Fin 16) (k : Skein) (x : Task) (s : State), s.rd morAbort ≠ 0 → s.rd morTraceRate = 0 → (s.me e.val).running = some k → k.tasks[lane.val]? = some x →
    k.mask.getLsbD lane.val = true → k.cancels.getLsbD lane.val = false → x.deadline + ms (s.rd morAbort) ≤ s.now →
    Gives (.jobAbort e lane) s (fun t => (t.me e.val).running = some { k with cancels := k.cancels ||| ((1 : Word16) <<< lane.val) } ∧
      t.rd morCancelYield e.val = (s.rd morCancelYield e.val + 1) % 2 ^ 64 ∧ (∀ y, y ≠ e.val → t.me y = s.me y) ∧ t = { s with mor := t.mor, regs := t.regs })) ∧
  (∀ s : State, unitOn .evacuationWindowClose s → exec .evacuationWindowClose s = .next { s with mor := { s.mor with evacEnd := s.mor.evacEnd.filter (fun t => decide (s.now < t)) } }) ∧
  (∀ s : State, exec .morBookSnap s = .next (s.requestSnap morSnapReq 1)) ∧
  (∀ s : State, Gives .loadSecond s (fun t => t.rd supLoadMeasured = (s.busySum - s.mor.busyMark) / 1600 % 2 ^ 40 ∧ t.mor.busyMark = s.busySum ∧ t.chans = s.chans ∧ t.engines = s.engines ∧
    ∀ (d : RegDesc) (i j : Nat), d.key i j ≠ supLoadMeasured.key 0 0 → t.rd d i j = s.rd d i j))

/-- A free engine in service starts the skein at the head of its dispatch queue: its registers are set as R297 says and MOR_DISPATCHED counts it. An engine with nothing to do issues nothing. A bundle of which every slot is empty costs one cycle, counts one bundle and goes on to the next; an illegal one has no effect but the ILLEGAL fault. A stream entry is taken while the FIFO has room; a loop's END bundle with its count at 1 issues. A pending interrupt saves the next bundle and K1 to K7, clears GIE and goes to its vector; without a cause nothing happens. A job that has used its budget gets the TIMER interrupt. A PMEM error of an engine that runs nothing only reloads PMEM. An error that the SECDED of the engine's memories cannot correct is the MEM_UE fault in place of the bundle, one in PMEM holds dispatches back until the reload, and one that it corrects is counted. -/
def Obligations.EngineRunRows : Prop :=
  (∀ (e : EngineId) (k : Skein) (r : List Skein) (s : State), unitOn (.skeinDispatch e) s → (s.me e.val).service < 2 → (s.eng e.val).irqFault = false → (s.eng e.val).pmemBad = false → (s.me e.val).running = none → (s.me e.val).dq = k :: r →
    (∀ x ∈ runningTasks k, (s.chan x.ch).jobsRunning = 0) → k.mask ≠ 0 → k.tasks.length ≤ 16 →
    Gives (.skeinDispatch e) s (fun t => (t.me e.val).running = some { k with fill := laneCount k.mask, cancels := 0 } ∧ (t.me e.val).dq = r ∧
      t.eng e.val = engineStart (s.kernelDesc e.val k.key.kernel) { k with fill := laneCount k.mask, cancels := 0 } (s.eng e.val) ∧
      (t.eng e.val).gie = true ∧ (t.eng e.val).live = k.mask ∧ t.rd morDispatched e.val = (s.rd morDispatched e.val + 1) % 2 ^ 64 ∧
      (∀ x, x ≠ e.val → t.me x = s.me x ∧ t.eng x = s.eng x) ∧ t.ports = s.ports)) ∧
  (∀ (e : EngineId) (s : State), (2 ≤ (s.me e.val).service ∨ (s.eng e.val).irqFault = true ∨ (s.eng e.val).pmemBad = true) → exec (.skeinDispatch e) s = .next s) ∧
  (∀ (e : EngineId) (l : List JobReport) (x : EngineEcc) (s : State), (4 ≤ (s.me e.val).service ∨ (s.eng e.val).deliver.irqFault = true ∨ ((s.me e.val).running = none ∧ (s.eng e.val).deliver.gie = true)) →
    exec (.bundleIssue e l x) s = .next s) ∧
  (∀ (e : EngineId) (l : List JobReport) (k : Skein) (s : State), let x := (s.eng e.val).deliver
    (s.me e.val).service < 4 → x.irqFault = false → (s.me e.val).running = some k → tget x.pmem x.pc.toNat 0 = 0 → x.delay = 0 → x.lc0 = 0 → x.lc1 = 0 →
    Gives (.bundleIssue e l .clean) s (fun t => (t.eng e.val).pc = x.pc + 1 ∧ (t.eng e.val).cyc = x.cyc + 1 ∧ (t.eng e.val).count.bundles = x.count.bundles + 1 ∧
      (t.eng e.val).v = x.v ∧ (t.eng e.val).a = x.a ∧ (t.eng e.val).p = x.p ∧ (t.eng e.val).s = x.s ∧ (t.eng e.val).k = x.k ∧ (t.eng e.val).xmem = x.xmem ∧ (t.eng e.val).ymem = x.ymem ∧
      (t.eng e.val).writes = x.writes ∧ t.rd morBusy e.val = (s.rd morBusy e.val + 1) % 2 ^ 64 ∧ (∀ y, y ≠ e.val → t.eng y = s.eng y) ∧ t.mor = s.mor ∧ t.chans = s.chans ∧ t.mem = s.mem)) ∧
  (∀ (e : EngineId) (l : List JobReport) (k : Skein) (s : State), let x := (s.eng e.val).deliver; let w := (tget x.pmem x.pc.toNat 0).toNat
    (s.me e.val).service < 4 → x.irqFault = false → (s.me e.val).running = some k → slotOk (memUses (w / 2 ^ 96)) (w / 2 ^ 96) = false →
    exec (.bundleIssue e l .clean) s = .next ((s.busy e.val 1).engineFault e.val 1)) ∧
  (∀ (e : EngineId) (k : Skein) (s : State), let x := s.eng e.val
    unitOn (.streamEntryArrival e) s → x.stream.opened = true → 4 * x.stream.fetched < x.stream.len → x.fifo.length < 32 → (s.me e.val).running = some k → x.stalled = false →
    exec (.streamEntryArrival e) s = .next ((s.fillEntry e.val x.stream.fetched).modEng e.val (fun y => { y with fifo := y.fifo ++ [s.streamEntry e.val y.stream.fetched], stream := { y.stream with fetched := y.stream.fetched + 1 } }))) ∧
  (∀ (e : EngineId) (s : State), ((s.eng e.val).stream.opened = false ∨ 32 ≤ (s.eng e.val).fifo.length) → exec (.streamEntryArrival e) s = .next s) ∧
  (∀ (e : EngineId) (loop : Fin 2) (s : State), let x := (s.eng e.val).deliver
    ((x.gie = false ∨ (x.lc0 ≠ 1 ∧ x.lc1 ≠ 1)) → exec (.loopCountEnd e loop) s = .next s) ∧
    (x.gie = true → (loop = 0 ∧ x.lc0 = 1 ∧ x.pc = x.le0 ∨ loop = 1 ∧ x.lc1 = 1 ∧ x.pc = x.le1) → Gives (.loopCountEnd e loop) s (fun t => exec (.bundleIssue e [] .clean) s = .next t))) ∧
  (∀ (e : EngineId) (ward : Bool) (s : State), let x := s.eng e.val
    (s.me e.val).service < 4 → x.delay = 0 →
    (pendingCause x (s.me e.val).running.isSome ward = none → exec (.interruptEntry e ward) s = .next s) ∧
    (∀ c, pendingCause x (s.me e.val).running.isSome ward = some c → 2 ≤ c → Gives (.interruptEntry e ward) s (fun t =>
      (t.eng e.val).ipc = x.settle.pc ∧ (t.eng e.val).ik = x.settle.k ∧ (t.eng e.val).gie = false ∧ (t.eng e.val).cause = c ∧ (t.eng e.val).pc = BitVec.ofNat 13 (4 * c) ∧
      (t.eng e.val).cyc = x.cyc + 4 ∧ (t.eng e.val).writes = [] ∧ t.mor = s.mor ∧ (∀ y, y ≠ e.val → t.eng y = s.eng y) ∧ t.chans = s.chans)) ∧
    (pendingCause x (s.me e.val).running.isSome ward = some 1 → exec (.interruptEntry e ward) s = .next (s.timerEntry e.val)) ∧
    (pendingCause x (s.me e.val).running.isSome ward = some 0 → exec (.interruptEntry e ward) s = .next (((s.busy e.val 4).modEng e.val (fun x => x.enter 0)).faultCount e.val))) ∧
  (∀ (e : EngineId) (s : State), ((s.me e.val).running = none ∨ (s.eng e.val).cyc < (s.eng e.val).budget) → exec (.budgetReached e) s = .next s) ∧
  (∀ (e : EngineId) (k : Skein) (s : State), (s.me e.val).service < 4 → (s.eng e.val).delay = 0 → (s.eng e.val).irqFault = false → (s.me e.val).running = some k →
    (s.eng e.val).budget ≤ (s.eng e.val).cyc → exec (.budgetReached e) s = .next (s.timerEntry e.val)) ∧
  (∀ (e : EngineId) (s : State), (4 ≤ (s.me e.val).service → exec (.pmemReload e) s = .next s) ∧
    ((s.me e.val).service < 4 → (s.me e.val).running = none → exec (.pmemReload e) s = .next (s.modEng e.val (fun x => { x with pmem := s.pmemImage e.val, captured := none, pmemBad := false })))) ∧
  (∀ (e : EngineId) (l : List JobReport) (s : State), s.issues e.val = true →
    exec (.bundleIssue e l .data) s = .next ((s.busy e.val 1).engineFault e.val 2) ∧
    exec (.bundleIssue e l .program) s = .next (((s.busy e.val 1).engineFault e.val 2).modEng e.val (fun x => { x with pmemBad := true })) ∧
    exec (.bundleIssue e l .corrected) s = exec (.bundleIssue e l .clean) (s.modEng e.val (fun x => { x with count := { x.count with ecc := x.count.ecc + 1 } })))

/-- With PD-MEM powered: a request finds no entry while its port has no credit or the channel is not in use. A clean read that finds the queue empty is served at once; where the fabric finds a parity error in its data, a reader that is neither an engine nor the host discards it and the error is counted; a write enters the write queue. Urgency rises with the wait, and a buffered write that reaches the highest is performed at once. Writes drain in self-refresh never. An idle bank's row closes after 64 cycles; the activate counts clear after 32 ms; a refresh closes the rows of its rank, not before its interval. A CA parity error closes every row and is counted; a write CRC error without a buffered write does nothing. A DIMM above 85 °C has its refresh doubled until below 83 °C. Self-refresh is entered under hold after 1 us without a request, the buffered writes performed, and left with the tables cleared. -/
def Obligations.MemoryTrafficRows : Prop :=
  (∀ (m : McId) (r : MemReq) (s : State), ((s.rd memChState m.val ≠ 2 ∧ s.rd memChState m.val ≠ 3 ∧ s.rd memChState m.val ≠ 4) ∨ portCredits r.port.val ≤ creditsHeld (s.mc m.val) r.port.val) →
    exec (.memoryRequest m r) s = .next s) ∧
  (∀ (m : McId) (r : MemReq) (s : State), unitOn (.memoryRequest m r) s → (s.rd memChState m.val = 2 ∨ s.rd memChState m.val = 3 ∨ s.rd memChState m.val = 4) → (s.mc m.val).reads = [] → 0 < portCredits r.port.val →
    (r.write = false → r.ecc = .clean → r.sram = .clean → r.parity = false → (s.mc m.val).hold ≠ 2 → Gives (.memoryRequest m r) s (fun t =>
      (t.mc m.val).reads = [] ∧ (t.mc m.val).writes = (s.mc m.val).writes ∧ (t.mc m.val).lastReqAt = s.now ∧ (t.mc m.val).retry.getLast? = some r ∧
      (tget (t.mc m.val).banks r.bank {}).idleAt = s.now ∧ (∀ x, x ≠ m.val → t.mc x = s.mc x) ∧ t.mem.hostShared = s.mem.hostShared ∧ t.chans = s.chans ∧ t.ports = s.ports)) ∧
    (r.write = true → s.onPage m.val r = false → (s.mc m.val).writes.length < 64 → Gives (.memoryRequest m r) s (fun t =>
      (t.mc m.val).reads = [] ∧ (t.mc m.val).writes = (s.mc m.val).writes ++ [{ req := r, entered := s.now }] ∧ (∀ x, x ≠ m.val → t.mc x = s.mc x) ∧ t = { s with mem := t.mem }))) ∧
  (∀ (m : McId) (index : Nat) (s : State), let c := s.mc m.val
    let up := fun (q : QueuedReq) => { q with urgency := max q.urgency (urgencyAt q.req.port.val (s.now - q.entered)) }
    unitOn (.urgencyRise m index) s →
    (c.reads.length + c.writes.length ≤ index → exec (.urgencyRise m index) s = .next s) ∧
    (∀ q, c.reads[index]? = some q → Gives (.urgencyRise m index) s (fun t =>
      (t.mc m.val).reads[index]? = some (up q) ∧ (t.mc m.val).reads.length = c.reads.length ∧
      (t.mc m.val).writes = c.writes ∧ (∀ x, x ≠ m.val → t.mc x = s.mc x) ∧ t = { s with mem := t.mem })) ∧
    (∀ q, c.reads.length ≤ index → c.writes[index - c.reads.length]? = some q →
      let s1 := s.modMc m.val (fun c => { c with writes := c.writes.modify (index - (s.mc m.val).reads.length) up })
      exec (.urgencyRise m index) s = .next (if (up q).urgency = 3 ∧ c.hold ≠ 2 then s1.performWrite m.val (up q) else s1))) ∧
  (∀ (m : McId) (s : State), let c := s.mc m.val
    unitOn (.writeQueueDrain m) s →
    (c.hold = 2 ∨ (c.writes.length < 48 ∧ ∃ q ∈ c.reads, q.req.write = false) → exec (.writeQueueDrain m) s = .next s) ∧
    (c.hold ≠ 2 → 48 ≤ c.writes.length → exec (.writeQueueDrain m) s = .next ((s.drainTo 64 m.val 16).modMc m.val acceptWrites)) ∧
    (c.hold ≠ 2 → c.writes.length ≤ 16 → (∀ q ∈ c.reads, q.req.write = true) → exec (.writeQueueDrain m) s = .next (s.modMc m.val acceptWrites))) ∧
  (∀ (m : McId) (bank : Nat) (s : State), let b := tget (s.mc m.val).banks bank {}
    unitOn (.rowIdleClose m bank) s →
    (b.openRow = none ∨ s.now < b.idleAt + idleNs s → exec (.rowIdleClose m bank) s = .next s) ∧
    (b.openRow ≠ none → b.idleAt + idleNs s ≤ s.now → Gives (.rowIdleClose m bank) s (fun t =>
      tget (t.mc m.val).banks bank {} = { b with openRow := none } ∧ (∀ x, x ≠ bank → tget (t.mc m.val).banks x {} = tget (s.mc m.val).banks x {}) ∧ t = { s with mem := t.mem }))) ∧
  (∀ (m : McId) (s : State), unitOn (.activateTableClear m) s → (s.now < (s.mc m.val).clearAt + ms 32 → exec (.activateTableClear m) s = .next s) ∧
    ((s.mc m.val).clearAt + ms 32 ≤ s.now → sorted (s.mc m.val).banks = true → Gives (.activateTableClear m) s (fun t => (t.mc m.val).clearAt = s.now ∧
      (∀ x, tget (t.mc m.val).banks x {} = { tget (s.mc m.val).banks x {} with counts := [], total := 0 }) ∧ t = { s with mem := t.mem }))) ∧
  (∀ (m : McId) (rank : Nat) (s : State), let gap := if (s.mc m.val).refresh2.contains (rank / 8) then 1950 else 3900
    unitOn (.dramRefresh m rank) s →
    (∀ l, (s.mc m.val).refreshAt.find? (fun e => e.1 = rank) = some (rank, l) → s.now < l + gap → exec (.dramRefresh m rank) s = .next s) ∧
    ((∀ l, (s.mc m.val).refreshAt.find? (fun e => e.1 = rank) = some (rank, l) → l + gap ≤ s.now) → sorted (s.mc m.val).refreshAt = true → sorted (s.mc m.val).banks = true → Gives (.dramRefresh m rank) s (fun t => tget (t.mc m.val).refreshAt rank 0 = s.now ∧
      (∀ x, tget (t.mc m.val).banks x {} = if x / 64 = rank then { tget (s.mc m.val).banks x {} with openRow := none, hist := 0 } else tget (s.mc m.val).banks x {}) ∧
      (∀ x, x ≠ m.val → t.mc x = s.mc x) ∧ t = { s with mem := t.mem }))) ∧
  (∀ (m : McId) (s : State), unitOn (.alertN m) s → (s.mcServes m.val = false → s.rd memChState m.val ≠ 4 → exec (.alertN m) s = .next s) ∧
    ((s.mcServes m.val = true ∨ s.rd memChState m.val = 4) → (within s.now (ms 1) (s.mc m.val).caTimes).length < 2 → sorted (s.mc m.val).banks = true → Gives (.alertN m) s (fun t =>
      t.rd memCaRetry m.val = (s.rd memCaRetry m.val + 1) % 2 ^ 64 ∧ (∀ x, (tget (t.mc m.val).banks x {}).openRow = none) ∧ t.rd memChState m.val = s.rd memChState m.val ∧
      (t.mc m.val).reads = (s.mc m.val).reads ∧ (∀ x, x ≠ m.val → t.mc x = s.mc x) ∧ t = { s with mem := t.mem, regs := t.regs }))) ∧
  (∀ (m : McId) (s : State), unitOn (.writeCrcError m) s →
    ((∀ r ∈ (s.mc m.val).retry, r.write = false) ∨ s.flag memWcrcEn = false → exec (.writeCrcError m) s = .next s) ∧
    (∀ r, (s.mc m.val).retry.reverse.find? (fun r => r.write) = some r → s.flag memWcrcEn = true →
      exec (.writeCrcError m) s = .next ((s.bump memWcrcRetry m.val).bankAccess m.val r.bank r.row))) ∧
  (∀ (d : Nat) (c : Int) (s : State), Gives (.dimmThermalPoll [(d, c)]) s (fun t => (85 < c → (t.mc (d / 2)).refresh2.contains (d % 2) = true) ∧ (c < 83 → (t.mc (d / 2)).refresh2.contains (d % 2) = false) ∧
    (83 ≤ c → c ≤ 85 → t = s) ∧ (∀ x, x ≠ d / 2 → t.mc x = s.mc x) ∧ t = { s with mem := t.mem })) ∧
  (∀ s : State, exec (.dimmThermalPoll []) s = .next s) ∧
  (∀ (x : Nat × Int) (l : List (Nat × Int)) (s : State), Gives (.dimmThermalPoll [x]) s (fun t => exec (.dimmThermalPoll (x :: l)) s = exec (.dimmThermalPoll l) t)) ∧
  (∀ (m : McId) (s : State), ((s.mc m.val).hold ≠ 1 ∨ (s.mc m.val).reads ≠ [] ∨ s.now < (s.mc m.val).lastReqAt + us 1 → exec (.selfRefreshEntry m) s = .next s) ∧
    ((s.mc m.val).hold = 1 → (s.mc m.val).reads = [] → (s.mc m.val).lastReqAt + us 1 ≤ s.now →
      exec (.selfRefreshEntry m) s = .next ((s.drainTo 64 m.val 0).modMc m.val (fun c => { c with hold := 2 })))) ∧
  (∀ s : State, (∀ m < 8, (s.mc m).reads = [] ∧ (s.mc m).writes = []) → Gives .selfRefreshExit s (fun t => ∀ m < 8, (t.mc m).hold = (if (s.mc m).hold = 2 then 0 else (s.mc m).hold) ∧
    ((s.mc m).hold = 2 → (t.mc m).banks = [] ∧ (t.mc m).passAt = s.now ∧ t.rd memTrainPasses m = (s.rd memTrainPasses m + 1) % 2 ^ 64) ∧ t.chans = s.chans ∧ t.mem.hostShared = s.mem.hostShared)) ∧
  (∀ (m : McId) (r : MemReq) (s : State), unitOn (.memoryRequest m r) s → (s.rd memChState m.val = 2 ∨ s.rd memChState m.val = 3 ∨ s.rd memChState m.val = 4) → (s.mc m.val).reads = [] → 0 < portCredits r.port.val →
    r.write = false → r.ecc = .clean → r.sram = .clean → r.parity = true → 108 ≤ r.source → r.port ≠ 4 → (s.mc m.val).hold ≠ 2 → Gives (.memoryRequest m r) s (fun t =>
      t.rd secFabricParity = (s.rd secFabricParity + 1) % 2 ^ 64 ∧ (t.mc m.val).reads = [] ∧ (t.mc m.val).retry.getLast? = some r ∧ t.chans = s.chans ∧ t.ports = s.ports ∧ t.engines = s.engines))

/-- With PD-MEM powered: the patrol scrub of a channel in use lists an uncorrectable line and counts a corrected one; a retraining pass comes no earlier than its interval, degrades a channel with a failed lane and restores one that passes; a migration copies one page at its rate; a fence ends with its migration, the contexts lost on the way rebuilt, in a MEMCH reset and FENCED; the host may reset a fenced or refused channel, whose training then puts it in service empty, or where a lane fails leaves it as it was; HS_SIZE and XTS_EN change in boot wait only; boot training ends in BOOT_WAIT with memory active, with MEM_NO_FIT where fewer than two pairs are usable; a write of MEM_BOOK_SNAP requests the snapshot of the credit book. -/
def Obligations.MemoryServiceRows : Prop :=
  (∀ (m : McId) (line : Nat) (x : EccResult) (s : State), unitOn (.patrolScrub m line x) s → (s.mcServes m.val = false ∨ x = .clean → exec (.patrolScrub m line x) s = .next s) ∧
    (s.mcServes m.val = true → exec (.patrolScrub m line .uncorrectable) s = .next (s.addPoison (dpaLine m.val line))) ∧
    (s.mcServes m.val = true → (within s.now (sec 10) (s.mc m.val).ceTimes).length < s.rd memCeLimit → Gives (.patrolScrub m line .corrected) s (fun t =>
      t.rd memScrubCe m.val = (s.rd memScrubCe m.val + 1) % 2 ^ 64 ∧ (t.mc m.val).ceTimes = within s.now (sec 10) (s.mc m.val).ceTimes ++ [s.now] ∧
      (∀ y, y ≠ m.val → t.mc y = s.mc y) ∧ t = { s with mem := t.mem, regs := t.regs }))) ∧
  (∀ (m : McId) (b : Bool) (l : List (Nat × Nat)) (s : State), let gap := if s.rd memChState m.val = 3 then 62500000 else ms 250
    let s1 := (s.bump memTrainPasses m.val).modMc m.val (fun c => { c with passAt := s.now, newCentres := c.newCentres ++ l.filter (fun x => decide (tget c.centres x.1 0 ≠ x.2)) })
    unitOn (.periodicRetrain m b l) s →
    (((s.rd memChState m.val ≠ 2 ∧ s.rd memChState m.val ≠ 3) ∨ s.flag memPeriodic = false ∨ s.now < (s.mc m.val).passAt + gap) → exec (.periodicRetrain m b l) s = .next s) ∧
    (s.flag memPeriodic = true → (s.mc m.val).passAt + gap ≤ s.now →
      (s.rd memChState m.val = 2 → exec (.periodicRetrain m false l) s = .next s1 ∧
        exec (.periodicRetrain m true l) s = .next ((((s1.bump memTrainFail m.val).wr memChState 3 m.val).raise 0x0030 uMEM m.val 0xFFFF m.val).invRebuild)) ∧
      (s.rd memChState m.val = 3 → exec (.periodicRetrain m false l) s = .next (((s1.wr memChState 2 m.val).raise 0x0031 uMEM m.val 0xFFFF m.val).invRebuild) ∧
        exec (.periodicRetrain m true l) s = .next (s1.bump memTrainFail m.val)))) ∧
  (∀ (m : McId) (b : Bool) (s : State), (s.mc m.val).migration = none → exec (.migrationPageCopy m b) s = .next s) ∧
  (∀ (m : McId) (g : Migration) (f : Nat) (rest : List Nat) (place : Nat × Nat) (b : Bool) (s : State), let rate := max 1 (s.rd memMigrateRate)
    let e := (tget s.mem.frameMap f none).getD { mc := m.val, frame := 0 }; let ch := ctxOnPage f g.page
    let bad := s.mem.poisoned.any (fun d => decide (d / 64 = dpaLine m.val (e.frame * 2 ^ 20) / 64 + g.page))
    let s0 := if (b = true ∨ bad = true) ∧ e.kind = 0 ∧ (s.chan ch).st ≠ .free then s.loseCtx ch else s
    let s1 := g.held.foldl (fun s r => s.performHeld place r) s0
    unitOn (.migrationPageCopy m b) s → (s.mc m.val).migration = some g → g.frames = f :: rest → g.target = some place →
    (s.now < g.pageAt + (4096 + rate - 1) / rate → exec (.migrationPageCopy m b) s = .next s) ∧
    (g.pageAt + (4096 + rate - 1) / rate ≤ s.now → g.page + 1 < 16384 →
      exec (.migrationPageCopy m b) s = .next (s1.modMc m.val (fun c => { c with migration := some { g with page := g.page + 1, pageAt := s.now, held := [] } }))) ∧
    (g.pageAt + (4096 + rate - 1) / rate ≤ s.now → g.page + 1 = 16384 → rest = [] → Gives (.migrationPageCopy m b) s (fun t =>
      (t.mc m.val).migration = some {} ∧ (tget t.mem.frameMap f none).any (fun x => x.mc = place.1 && x.frame = place.2) = true ∧
      (∀ x, x ≠ f → tget t.mem.frameMap x none = tget s1.mem.frameMap x none) ∧ (∀ x, x ≠ m.val → t.mc x = s1.mc x) ∧ t = { s1 with mem := t.mem }))) ∧
  (∀ (m : McId) (s : State), (s.rd memChState m.val ≠ 4 → exec (.fenceEnd m) s = .next s) ∧
    (∀ g, s.rd memChState m.val = 4 → (s.mc m.val).migration = some g → (g.frames ≠ [] → exec (.fenceEnd m) s = .next s) ∧
      (g.frames = [] → let s2 := ((((s.chans.filter (fun e => e.2.ctx.lost)).map (·.1)).foldl State.recoverCtx s).memchReset m.val).wr memChState 5 m.val
        exec (.fenceEnd m) s = .next (((s2.wr memCapOnline s2.onlineGb).raise 0x0032 uMEM m.val 0xFFFF m.val 0 s2.onlineGb).invRebuild)))) ∧
  (∀ (m : McId) (w : Nat) (v : Word64) (s : State), let a := memChReset.addr + m.val * memChReset.s1
    (goodAccess a w = false → exec (.memChCtlReset m w v) s = .next (s.bump mbxBadAccess)) ∧
    (goodAccess a w = true → (v.toNat % 2 = 0 ∨ s.inReset 2 = true) → exec (.memChCtlReset m w v) s = .next s) ∧
    (goodAccess a w = true → v.toNat % 2 = 1 → s.inReset 2 = false → (s.rd memChState m.val = 5 ∨ s.rd memChState m.val = 1) → Gives (.memChCtlReset m w v) s (fun t =>
      t.rd memChState m.val = s.rd memChState m.val ∧ (t.mc m.val).training = true ∧ (t.mc m.val).banks = [] ∧ (t.mc m.val).reads = [] ∧ (∀ x, x ≠ m.val → t.mc x = s.mc x) ∧
      t = { s with mem := t.mem, regs := t.regs })) ∧
    (goodAccess a w = true → v.toNat % 2 = 1 → s.inReset 2 = false → s.rd memChState m.val ≠ 5 → s.rd memChState m.val ≠ 1 → exec (.memChCtlReset m w v) s = .next (s.wr memCfgErr 1))) ∧
  (∀ (m : McId) (sweep : Option (List (Nat × Nat))) (s : State), let s1 := s.modMc m.val (fun c => { c with training := false, passAt := s.now, clearAt := s.now, centres := (sweep.getD []).foldl (fun (t : Tbl Nat) x => tins t x.1 x.2) [] })
    let s2 := s1.wr memChState 2 m.val
    ((s.mc m.val).training = false → exec (.memchTrainingDone m sweep) s = .next s) ∧
    ((s.mc m.val).training = true → exec (.memchTrainingDone m sweep) s = .next (if sweep = none then s1 else (s2.wr memCapOnline s2.onlineGb).invRebuild))) ∧
  (∀ s : State, exec .memBookSnap s = .next (s.requestSnap memSnapReq 3)) ∧
  (∀ (w : Nat) (v : Word64) (s : State), (s.rd mbxBootState = 2 → exec (.hsSizeWrite w v) s = .next (s.writeReg 0xB0000 w v.toNat)) ∧
    (s.rd mbxBootState ≠ 2 → goodAccess 0xB0000 w = false → exec (.hsSizeWrite w v) s = .next (s.bump mbxBadAccess)) ∧
    (s.rd mbxBootState ≠ 2 → goodAccess 0xB0000 w = true → Gives (.hsSizeWrite w v) s (fun t =>
      t.rd memHsSize = s.rd memHsSize ∧ t.rd memXtsEn = s.rd memXtsEn ∧ t.rd memCfgErr = 1 ∧ t = { s with regs := t.regs }))) ∧
  (∀ (l : List ChannelFit) (s : State), (s.rd mbxBootState ≠ 1 → exec (.memTrainingDone l) s = .next s) ∧
    (s.rd mbxBootState = 1 → Gives (.memTrainingDone l) s (fun t => t.rd mbxBootState = 2 ∧ t.mem.pairs = keptPairs l (s.rd memMinEye) ∧ t.host.memActive = true ∧ t.img.memNoFit = t.mem.pairs.isEmpty ∧
      (t.mem.pairs = [] → t.rd mbxBootReason = 1) ∧ t.mem.hostShared = s.mem.hostShared ∧ t.chans = s.chans ∧ t.ports = s.ports ∧ t.engines = s.engines)))

/-- CAPTURE_START refuses a length, SNAPLEN or span out of its range and a source that is captured already; else it opens the capture with its storage reserved. A stop ends a capture that runs and is refused where none does. CAPTURE_EXPORT of a source that is not captured is refused, of one under export is BUSY, else it freezes the span and queues a job. With PD-MEM and PD-ACC powered, a Lake unit that runs nothing takes the oldest job; a job ends only when host memory has answered every write, with OK and its counts where its output fits and with NO_RESOURCE and the freeze kept where it does not. The freeze of a failed export ends after 10 s and not before. A write of LAK_STATE_CTL without GO is an ordinary register write; one that is refused sets ERR. An answer of host memory frees its place for the next request; an error ends the command with DENIED. -/
def Obligations.CaptureRows : Prop :=
  (∀ (c : HostCmd) (s : State), let ch := bits c.w1.toNat 16 16; let secs := bits c.w1.toNat 32 7
    commandRuns c 0x40 [(1, 0x7FFFFF000F), (3, 0xFFFFFFFFFFFF)] true s = true → bits c.w1.toNat 0 2 = 0 → s.groupsOf c [] [] = .ok [] →
    ((secs = 0 ∨ 120 < secs) → exec (.replayStart c) s = .next (refused c 0x40 stBAD_PARAM 12 s)) ∧
    (1 ≤ secs → secs ≤ 120 → (((s.chan ch).st ≠ .open ∧ (s.chan ch).st ≠ .bound) ∨ s.captured ch = true) → exec (.replayStart c) s = .next (refused c 0x40 stBAD_STATE 0 s)) ∧
    (1 ≤ secs → secs ≤ 120 → ((s.chan ch).st = .open ∨ (s.chan ch).st = .bound) → s.captured ch = false →
      (s.canReserve (replayBytes (s.chan ch) secs) = false → exec (.replayStart c) s = .next (refused c 0x40 stNO_RESOURCE 0 s)) ∧
      (s.canReserve (replayBytes (s.chan ch) secs) = true →
        exec (.replayStart c) s = .next (ok c 0x40 0 0 (s.startCapture ch (replayBytes (s.chan ch) secs) { capacity := replayBytes (s.chan ch) secs }))))) ∧
  (∀ (c : HostCmd) (gs : List Grp) (s : State), let p := bits c.w1.toNat 2 2; let mib := bits c.w3.toNat 0 32; let snap := bits c.w3.toNat 32 16
    commandRuns c 0x40 [(1, 0x7FFFFF000F), (3, 0xFFFFFFFFFFFF)] true s = true → bits c.w1.toNat 0 2 = 1 → s.groupsOf c [16] [] = .ok gs →
    ((mib = 0 ∨ 65536 < mib) → exec (.portCaptureStart c) s = .next (refused c 0x40 stBAD_PARAM 24 s)) ∧
    (1 ≤ mib → mib ≤ 65536 → (snap < 64 ∨ 9600 < snap) → exec (.portCaptureStart c) s = .next (refused c 0x40 stBAD_PARAM 28 s)) ∧
    (1 ≤ mib → mib ≤ 65536 → 64 ≤ snap → snap ≤ 9600 → (grpOf gs 16).bind filterFault = none →
      (s.captured (65536 + p) = true → exec (.portCaptureStart c) s = .next (refused c 0x40 stBAD_STATE 0 s)) ∧
      (s.captured (65536 + p) = false → s.canReserve (mib * 2 ^ 20) = true → exec (.portCaptureStart c) s =
        .next (ok c 0x40 0 0 (s.startCapture (65536 + p) (mib * 2 ^ 20) { capacity := mib * 2 ^ 20, snaplen := snap, filters := ((grpOf gs 16).map filtersOf).getD [] }))))) ∧
  (∀ (c : HostCmd) (s : State), commandRuns c 0x40 [(1, 0x7FFFFF000F), (3, 0xFFFFFFFFFFFF)] true s = true → s.groupsOf c [] [] = .ok [] →
    (bits c.w1.toNat 0 2 = 2 → exec (.replayStop c) s = .next (if s.captured (bits c.w1.toNat 16 16) = true
      then ok c 0x40 0 0 (s.stopCapture (bits c.w1.toNat 16 16)) else refused c 0x40 stBAD_STATE 0 s)) ∧
    (bits c.w1.toNat 0 2 = 3 → exec (.portCaptureStop c) s = .next (if s.captured (65536 + bits c.w1.toNat 2 2) = true
      then ok c 0x40 0 0 (s.stopCapture (65536 + bits c.w1.toNat 2 2)) else refused c 0x40 stBAD_STATE 0 s))) ∧
  (∀ (c : HostCmd) (s : State), let w := c.w1.toNat; let src := if bits w 0 2 = 1 then 65536 + bits w 2 2 else bits w 16 16
    commandRuns c 0x41 [(1, 0x7F7FFFFF000F), (3, 0xFFFFFFFFFFFFFFFF), (4, 0xFFFFFFFFFFFFFFFF)] false s = true →
    bits w 0 2 ≤ 1 → bits w 32 4 ≤ 9 → bits w 36 2 ≠ 3 → (bit w 38 = true → bits w 36 2 ≠ 2) → 64 ≤ c.w4.toNat → c.w4.toNat ≤ 2 ^ 40 →
    (s.cap.caps.find? (fun e => e.1 = src) = none → exec (.captureExport c) s = .next (refused c 0x41 stBAD_STATE 0 s)) ∧
    (∀ x, s.cap.caps.find? (fun e => e.1 = src) = some (src, x) →
      (x.exporting = true → exec (.captureExport c) s = .next (refused c 0x41 stBUSY 0 s)) ∧
      (x.exporting = false → bit w 38 = true → x.chained = false → exec (.captureExport c) s = .next (refused c 0x41 stBAD_PARAM 12 s)) ∧
      (x.exporting = false → (bit w 38 = true → x.chained = true) → Gives (.captureExport c) s (fun t =>
        (∃ j : LakeJob, t.cap.queue = s.cap.queue ++ [j] ∧ j.source = src ∧ j.qid = c.qid.val ∧ j.tag = c.tag.toNat ∧ (j.spanLo, j.spanHi) = s.exportSpan src (bits w 40 7) (bit w 38) x) ∧
        (t.cap.caps.find? (fun e => e.1 = src)).any (fun e => e.2.exporting) = true ∧ t.sup.finals = s.sup.finals + 1 ∧ t.chans = s.chans ∧ t.ports = s.ports)))) ∧
  (∀ (u : Fin 2) (s : State), (s.cap.queue = [] ∨ s.cap.running.any (fun e => e.1 = u.val) = true) → exec (.lakeJobStart u) s = .next s) ∧
  (∀ (u : Fin 2) (j : LakeJob) (rest : List LakeJob) (s : State), unitOn (.lakeJobStart u) s → s.cap.queue = j :: rest → s.cap.running.any (fun e => e.1 = u.val) = false →
    Gives (.lakeJobStart u) s (fun t => t.cap.queue = rest ∧ t.cap.running.find? (fun e => e.1 = u.val) = some (u.val, j) ∧ t.cap.caps = s.cap.caps ∧ t = { s with cap := t.cap, host := t.host })) ∧
  (∀ (u : Fin 2) (s : State), s.cap.running.find? (fun e => e.1 = u.val) = none → exec (.lakeJobEnd u) s = .next s) ∧
  (∀ (u : Fin 2) (j : LakeJob) (x : Capture) (s : State), unitOn (.lakeJobEnd u) s → s.cap.running.find? (fun e => e.1 = u.val) = some (u.val, j) →
    (s.cacheBusy 1 j.qid j.tag = true → exec (.lakeJobEnd u) s = .next s) ∧
    (s.cacheBusy 1 j.qid j.tag = false → s.cap.caps.find? (fun e => e.1 = j.source) = some (j.source, x) → let r := lakeStream j x
      (j.length < r.2.length → exec (.lakeJobEnd u) s = .next ((s.exportFails u.val j).completeFinal j.qid j.tag stNO_RESOURCE 0 0)) ∧
      (r.2.length ≤ j.length → exec (.lakeJobEnd u) s = .next (((((s.exportOver u.val j (fun c => { c with
        lake := lakeAfter j c r.1, chained := true, contAt := j.spanHi, frozen := none, retrySpan := none, retryUntil := 0 })).bump lakJobs).bumpBy lakBytesIn r.1.length).bumpBy lakBytesOut
          r.2.length).completeFinal j.qid j.tag stOK r.2.length 0)))) ∧
  (∀ (src : Nat) (s : State), (s.cap.caps.find? (fun e => e.1 = src) = none → exec (.exportFreezeExpiry src) s = .next s) ∧
    (∀ x, s.cap.caps.find? (fun e => e.1 = src) = some (src, x) → x.retrySpan = none ∨ x.exporting = true ∨ s.now < x.retryUntil →
      exec (.exportFreezeExpiry src) s = .next { s with cap := { s.cap with caps := tins s.cap.caps src x } }) ∧
    (∀ x sp, s.cap.caps.find? (fun e => e.1 = src) = some (src, x) → x.retrySpan = some sp → x.exporting = false → x.retryUntil ≤ s.now →
      exec (.exportFreezeExpiry src) s = .next { s with cap := { s.cap with caps := tins s.cap.caps src { x with frozen := none, retrySpan := none, retryUntil := 0 } } })) ∧
  (∀ (w : Nat) (v : Word64) (image : List Byte) (s : State), let a := if w = 64 then 0xD0000 else 0xD0004
    ((s.flag lakGo = true ∨ goodAccess a w = false ∨ writtenTo lakGo 0 0 a w v.toNat ≠ some 1) → exec (.lakeStateSave w v) s = .next (s.writeReg a w v.toNat) ∧ exec (.lakeStateRestore w v image) s = .next (s.writeReg a w v.toNat)) ∧
    (s.flag lakGo = false → goodAccess a w = true → writtenTo lakGo 0 0 a w v.toNat = some 1 → let s1 := s.writeReg a w v.toNat
      (s1.lakRefused s1.lakSourceOf = true → exec (.lakeStateSave w v) s = .next (s1.lakEnds lakErr) ∧ exec (.lakeStateRestore w v image) s = .next (s1.lakEnds lakErr)) ∧
      (∀ x, s1.lakRefused s1.lakSourceOf = false → s1.rd lakOp = 1 → s1.cap.caps.find? (fun e => e.1 = s1.lakSourceOf) = some (s1.lakSourceOf, x) →
        exec (.lakeStateSave w v) s = .next (s1.cacheIssue (lineWrites 4 64 0 (s1.rd lakStateAddr) 1 s1.lakSourceOf 768 (s1.stateImage s1.lakSourceOf x.lake)))) ∧
      (s1.lakRefused s1.lakSourceOf = false → s1.rd lakOp = 2 →
        exec (.lakeStateRestore w v image) s = .next (s1.cacheIssue (lakReads (s1.rd lakStateAddr) s1.lakSourceOf (readBytes 49152 image)))))) ∧
  (∀ (b : Bool) (s : State), s.host.cacheOut = [] → exec (.cxlCacheCompletion b) s = .next s) ∧
  (∀ (r : CacheReq) (l : List CacheReq) (s : State), s.host.cacheOut = r :: l →
    (r.last = false → Gives (.cxlCacheCompletion true) s (fun t => t.host.cacheOut = l ++ s.host.cacheWait.take (256 - l.length) ∧ t.host.cacheWait = s.host.cacheWait.drop (256 - l.length) ∧
      t = { s with host := t.host })) ∧
    (r.last = true → exec (.cxlCacheCompletion true) s = .next (s.cacheTaken.cacheLast r)) ∧
    (r.last = true → r.serves = 0 → exec (.cxlCacheCompletion true) s = .next (s.cacheTaken.complete r.qid r.tag 0x80 stOK 0 r.res2 r.res3)) ∧
    (r.serves = 0 → exec (.cxlCacheCompletion false) s = .next (State.complete (State.cacheIssue { s with host := { s.host with
      cacheOut := s.host.cacheOut.filter (fun x => !(decide (x.serves = r.serves) && decide (x.qid = r.qid) && decide (x.tag = r.tag)))
      cacheWait := s.host.cacheWait.filter (fun x => !(decide (x.serves = r.serves) && decide (x.qid = r.qid) && decide (x.tag = r.tag))) } } []) r.qid r.tag 0x80 stDENIED 0 0 0)) ∧
    exec (.cxlCacheCompletion false) s = .next (s.cacheFails r))

/-- INSERT is refused with RING_INSERT_FAIL without a ring position; block lock of both taps opens the switches of a listening, live member; untrained links close them after 10 ms. A link that trains is up with every lane locked, one that goes down leaves its port empty; behind the bypass nothing trains. A frame on a link that is down does nothing, one with a wrong CRC is only counted. Sixteen replays within 1 ms retrain the link. A heartbeat is due every 250 us while live, and is sent on both trained ports. Both links trained make an opened member inserted. Liveness that fails fences the member and closes the bypass; one that is refreshed stands and, without a pairing, ends a self-fence (the model's reading, log 37). -/
def Obligations.RingLinkRows : Prop :=
  (∀ (w : Nat) (v : Word64) (s : State), (goodAccess 0xC0000 w = false ∨ writtenTo rngInsert 0 0 0xC0000 w v.toNat ≠ some 1 → exec (.rngInsert w v) s = .next (s.writeReg 0xC0000 w v.toNat)) ∧
    (goodAccess 0xC0000 w = true → writtenTo rngInsert 0 0 0xC0000 w v.toNat = some 1 → let s1 := s.writeReg 0xC0000 w v.toNat
      (s.ringPosOk = false → exec (.rngInsert w v) s = .next ((s.writeRegBut (· = rngInsert) 0xC0000 w v.toNat).raise 0x0051 uRNG 0 0xFFFF (s.rd rngPosOwn))) ∧
      (s.ringPosOk = true → (s1.rd rngState = 0 ∨ s1.rd rngState = 4) → exec (.rngInsert w v) s = .next (s1.wr rngState 1).tryInsert) ∧
      (s.ringPosOk = true → s1.rd rngState ≠ 0 → s1.rd rngState ≠ 4 → exec (.rngInsert w v) s = .next s1))) ∧
  (∀ s : State, Gives .tapBlockLock s (fun t => (t.link 0).tapLock = true ∧ (t.link 1).tapLock = true ∧ t.chans = s.chans ∧ t.engines = s.engines ∧
    (s.rd rngState = 1 → s.ring.live = true → t.rd rngState = 2 ∧ t.rd rngBypass = 0 ∧ t.ring.insertAt = some s.now) ∧ (s.rd rngState ≠ 1 → t.regs = s.regs))) ∧
  (∀ s : State, (s.rd rngState ≠ 2 ∨ s.ring.insertAt = none → exec .ringInsertTimeout s = .next s) ∧
    (∀ a, s.rd rngState = 2 → s.ring.insertAt = some a → (s.now < a + ms 10 → exec .ringInsertTimeout s = .next s) ∧
      (a + ms 10 ≤ s.now → let s1 := (s.bypass 0).wr rngInsert 0
        exec .ringInsertTimeout s = .next (State.raise { s1 with ring := { s1.ring with insertAt := none } } 0x0051 uRNG 0 0xFFFF (s.rd rngPosOwn))))) ∧
  (∀ (x : RingPort) (s : State), (s.flag rngBypass = true → exec (.ringLinkTrained x) s = .next s) ∧
    (s.flag rngBypass = false → s.rd rngState ≠ 2 → Gives (.ringLinkTrained x) s (fun t => t.rd rngPortLinkUp x.val = 1 ∧ t.rd rngPortLock x.val = 15 ∧
      (∀ y, y ≠ x.val → t.link y = s.link y) ∧ t.chans = s.chans ∧ t.engines = s.engines ∧ t.rd rngState = s.rd rngState)) ∧
    (s.flag rngBypass = false → s.rd rngState = 2 → s.flag rngPortLinkUp (1 - x.val) = true → Gives (.ringLinkTrained x) s (fun t => t.rd rngPortLinkUp x.val = 1 ∧
      t.rd rngState = 3 ∧ t.ring.insertAt = none ∧ t.chans = s.chans ∧ t.engines = s.engines))) ∧
  (∀ (x : RingPort) (s : State), s.inserted = false → Gives (.ringLinkDown x) s (fun t => t.rd rngPortLinkUp x.val = 0 ∧ t.rd rngPortLock x.val = 0 ∧ t.rd rngPortAdjPos x.val = 15 ∧ t.link x.val = {} ∧
    (∀ y, y ≠ x.val → t.link y = s.link y) ∧ t.chans = s.chans ∧ t.engines = s.engines)) ∧
  (∀ (x : RingPort) (s : State), s.inserted = true → exec (.ringLinkDown x) s = .next (if s.flag rngPortLinkUp x.val = true
    then ((s.dropLink x.val).invRebuild).raise 0x0057 uRNG x.val 0xFFFF (s.rd rngPosOwn) else (s.dropLink x.val).invRebuild)) ∧
  (∀ (x : RingPort) (f : RingFrame) (s : State), (s.flag rngPortLinkUp x.val = false → exec (.linkFrame x f) s = .next s) ∧
    (s.flag rngPortLinkUp x.val = true → f.crcOk = false → exec (.linkFrame x f) s = .next (s.bump rngCrcErr x.val)) ∧
    (s.flag rngPortLinkUp x.val = true → f.crcOk = true → f.nak = false → f.type = 3 → (s.link x.val).unacked = [] → (s.link x.val).waiting = [] → (s.link x.val).sending = none →
      (f.seq = (s.link x.val).rxAck + 1 → Gives (.linkFrame x f) s (fun t => (t.link x.val).rxAck = f.seq ∧ (t.link x.val).dataDue = 0 ∧ (t.link x.val).sendNak = false ∧
        t.rd rngFramesRx x.val = (s.rd rngFramesRx x.val + 1) % 2 ^ 64 ∧ (∀ y, y ≠ x.val → t.link y = s.link y) ∧ t.chans = s.chans)) ∧
      (f.seq ≠ (s.link x.val).rxAck + 1 → Gives (.linkFrame x f) s (fun t => (t.link x.val).rxAck = (s.link x.val).rxAck ∧
        t.rd rngFramesRx x.val = (s.rd rngFramesRx x.val + 1) % 2 ^ 64 ∧ (∀ y, y ≠ x.val → t.link y = s.link y) ∧ t.chans = s.chans)))) ∧
  (∀ (x : RingPort) (s : State), ((within s.now (ms 1) (s.link x.val).replays).length < 16 → exec (.ringRetrain x) s = .next s) ∧
    (16 ≤ (within s.now (ms 1) (s.link x.val).replays).length → Gives (.ringRetrain x) s (fun t => t.rd rngPortLinkUp x.val = 0 ∧ t.rd rngPortLock x.val = 0 ∧ (t.link x.val).retraining = true ∧
      (t.link x.val).unacked = (s.link x.val).unacked ∧ t.rd rngRetrains x.val = (s.rd rngRetrains x.val + 1) % 2 ^ 64 ∧ t = { s with ring := t.ring, regs := t.regs }))) ∧
  (∀ s : State, exec .rngBookSnap s = .next (s.requestSnap rngSnapReq 4)) ∧
  (∀ s : State, (s.inserted = false ∨ s.ring.live = false ∨ s.now < s.ring.hbNextAt → exec .heartbeatSend s = .next s) ∧
    (s.inserted = true → s.ring.live = true → s.ring.hbNextAt ≤ s.now → s.flag rngPortLinkUp 0 = true → s.flag rngPortLinkUp 1 = true → Gives .heartbeatSend s (fun t =>
      (t.link 0).heartbeat = some s.ownHeartbeat ∧ (t.link 1).heartbeat = some s.ownHeartbeat ∧ t.ring.hbNextAt = s.now + us 250 ∧ t.ring.hbCount = s.ring.hbCount + 1 ∧
      t = { s with ring := t.ring, regs := t.regs }))) ∧
  (∀ (x : RingPort) (h : HeartbeatMsg) (s : State), (s.flag rngPortLinkUp x.val = false → exec (.heartbeat x h) s = .next s) ∧
    (s.flag rngPortLinkUp x.val = true → s.flag rngPaired = false → h.hops = 0 → h.srcPos ≠ s.rd rngPosOwn → h.srcPos < 8 → s.rd rngPosOwn < 8 → Gives (.heartbeat x h) s (fun t =>
      t.rd rngPortAdjPos x.val = h.srcPos ∧ (x.val = 0 → t.rd rngPosDown = h.srcPos) ∧ (x.val = 1 → t.rd rngPosUp = h.srcPos) ∧
      (s.flag rngPortLinkUp (1 - x.val) = true → (t.link (1 - x.val)).heartbeat = some { h with hops := 1 }) ∧ t.chans = s.chans ∧ t.mem = s.mem))) ∧
  (∀ (x : RingPort) (i : IdentityMsg) (s : State), (s.flag rngPortLinkUp x.val = false → exec (.identity x i) s = .next s) ∧
    (s.flag rngPortLinkUp x.val = true → s.flag rngPaired = true → i.pos ≠ s.rd rngPosOwn → Gives (.identity x i) s (fun t => (t.link x.val).ident = some i ∧
      (∀ y, y ≠ x.val → t.link y = s.link y) ∧ t.rd rngPosDown = s.rd rngPosDown ∧ t.rd rngPosUp = s.rd rngPosUp ∧ t.chans = s.chans))) ∧
  (∀ s : State, (s.sup.restarting = true ∨ s.served = false ∨ s.pwr.domainsOff ≠ [] ∨ s.pwr.sysLost = true ∨ s.pwr.ethLost = true → exec .livenessRefresh s = .next s) ∧
    (s.sup.restarting = false → s.served = true → s.pwr.domainsOff = [] → s.pwr.sysLost = false → s.pwr.ethLost = false → s.ring.fenced = true → s.flag rngPaired = false →
      let u := State.resumeMedia { s with ring := { s.ring with live := true, liveAt := s.now } }
      exec .livenessRefresh s = .next (if u.rd rngState = 4 then u.wr rngState 0 else u)) ∧
    (s.sup.restarting = false → s.served = true → s.pwr.domainsOff = [] → s.pwr.sysLost = false → s.pwr.ethLost = false → (s.ring.fenced = false ∨ s.flag rngPaired = true) →
      exec .livenessRefresh s = .next { s with ring := { s.ring with live := true, liveAt := s.now } })) ∧
  (∀ s : State, (s.ring.live = false ∨ s.livenessOver = false → exec .livenessFailure s = .next s) ∧
    (s.ring.live = true → s.livenessOver = true → Gives .livenessFailure s (fun t => t.ring.live = false ∧ t.ring.fenced = true ∧ t.rd rngState = 4 ∧ t.rd rngBypass = 1 ∧
      t.rd rngPortLinkUp 0 = 0 ∧ t.rd rngPortLinkUp 1 = 0 ∧ t.chans = s.chans ∧ t.engines = s.engines ∧ t.ports = s.ports ∧ t.mem = s.mem)))

/-- MIRROR_PAIR refuses overlapping ranges and ranges past the last channel; with both counts 0 it dissolves the pairing; an offer that is confirmed puts the pairing in force and one that is refused or not confirmed within 1 s gives the ranges back. A body of a channel outside the UP range is ignored, but for the SYNC body that brings back a lost context; one of the range is kept where its key is above the one held. A SETTINGS body that does not unwrap raises an event, one whose flows cannot be installed is kept as not adoptable with its event; an acknowledgement 1 ms late is given up. Lag is told of at most once a second. Silence of 3 ms makes the upstream member SUSPECT with FENCE_QUERY on both ports; queries and demands are answered only while inserted and live; a demand that YIELD_ON_DEMAND grants fences the member; FAILOVER_TAKE is BAD_STATE without a pairing, OK at once where adoption has been, and else demands; during HOLD it is DENIED (the model's reading, log 40) and HOLD stops adoption until it expires; a member that was adopted loses its home channels quietly and one that was not resumes. -/
def Obligations.MirrorAndFailoverRows : Prop :=
  (∀ (c : HostCmd) (s : State), let hf := bits c.w1.toNat 0 16; let hc := bits c.w1.toNat 32 1 * 65536 + bits c.w1.toNat 16 16
    let uf := bits c.w3.toNat 0 16; let uc := bits c.w3.toNat 32 1 * 65536 + bits c.w3.toNat 16 16
    commandRuns c 0x50 [(1, 0x1FFFFFFFF), (3, 0x1FFFFFFFF)] false s = true →
    (65536 < hf + hc → exec (.mirrorPair c) s = .next (refused c 0x50 stBAD_PARAM 10 s)) ∧
    (hf + hc ≤ 65536 → 65536 < uf + uc → exec (.mirrorPair c) s = .next (refused c 0x50 stBAD_PARAM 26 s)) ∧
    (hf + hc ≤ 65536 → uf + uc ≤ 65536 → hf < uf + uc → uf < hf + hc → exec (.mirrorPair c) s = .next (refused c 0x50 stBAD_PARAM 24 s)) ∧
    (hc = 0 → uc = 0 → s.posConflict = false → s.ring.offerCmd = none → exec (.mirrorPair c) s = .next (ok c 0x50 (s.rd rngPosDown) (s.rd rngPosUp) s.unpair)) ∧
    (∀ u, hf + hc ≤ 65536 → uf + uc ≤ 65536 → (uf + uc ≤ hf ∨ hf + hc ≤ uf) → (hc ≠ 0 ∨ uc ≠ 0) → s.posConflict = false → (∀ e ∈ liveChans s, hf ≤ e.1 ∧ e.1 < hf + hc) → s.ring.offerCmd = none →
      (s.link 0).ident = none → (s.link 1).ident = none → s.reserveUp uf uc = some u → Gives (.mirrorPair c) s (fun t =>
        t.rd rngHomeFirst = hf ∧ t.rd rngUpFirst = uf ∧ t.ring.offerCmd = some (c.qid.val, c.tag.toNat) ∧ t.ring.offerAt = some s.now ∧ t.ring.offerTok = s.ring.token + 1 ∧ t.chans = s.chans))) ∧
  (∀ (status : Nat) (token : Word32) (pub : List Byte) (s : State), (s.ring.offerAt = none ∨ token ≠ s.ring.offerTok → exec (.pairConfirm status token pub) s = .next s) ∧
    (s.ring.offerAt ≠ none → token = s.ring.offerTok →
      (status = 0 → exec (.pairConfirm status token pub) s = .next ((s.pairInForce pub).offerEnds stOK (s.rd rngPosDown) (s.rd rngPosUp))) ∧
      (status ≠ 0 → exec (.pairConfirm status token pub) s = .next (((s.setRanges s.ring.offerOld).releaseUp).offerEnds status 0 0)))) ∧
  (∀ s : State, (s.ring.offerAt = none → exec .pairOfferTimeout s = .next s) ∧ (∀ a, s.ring.offerAt = some a → (s.now < a + sec 1 → exec .pairOfferTimeout s = .next s) ∧
    (a + sec 1 ≤ s.now → exec .pairOfferTimeout s = .next (((s.setRanges s.ring.offerOld).releaseUp).offerEnds stTIMEOUT 0 0)))) ∧
  (∀ (first count : Nat) (token : Word32) (pub : List Byte) (s : State), (s.inserted = false → exec (.pairOffer first count token pub) s = .next s) ∧
    (s.inserted = true → first ≠ s.rd rngUpFirst → exec (.pairOffer first count token pub) s = .next { s with ring := { s.ring with heldOffer := some (first, count, token, pub, s.now) } }) ∧
    (s.inserted = true → first = s.rd rngUpFirst → count = s.rd rngUpCount → Gives (.pairOffer first count token pub) s (fun t => t.ring.heldOffer = none ∧ t.freeCtr = s.freeCtr + 1 ∧
      t.sup.vault.upKey = some (Config.pairingSecret (Config.freeNat s.freeCtr) pub) ∧ t.chans = s.chans ∧ t.mem = s.mem))) ∧
  (∀ (b : DeltaBody) (s : State), (s.inserted = false → exec (.delta b) s = .next s ∧ exec (.sync b) s = .next s) ∧ (s.inUp b.ch.val = false → exec (.delta b) s = .next s) ∧
    (s.inserted = true → s.inUp b.ch.val = false → let c := s.chan b.ch.val
      exec (.sync b) s = .next (if c.ctx.lost = true ∧ c.st ≠ .free then s.ctxBack b.ch.val (restoreCtx (s.tbVal c.tb) b) else s)) ∧
    (s.inserted = true → s.inUp b.ch.val = true → Gives (.delta b) s (fun t => exec (.sync b) s = .next t ∧
      ((s.mir b.ch.val).delta = none → (t.mir b.ch.val).delta = some b) ∧
      (∀ old, (s.mir b.ch.val).delta = some old → (t.mir b.ch.val).delta = some (if bodyKey old < bodyKey b then mergeBody old b else old)) ∧
      (∀ m, m ≠ b.ch.val → t.mir m = s.mir m) ∧ t = { s with ring := t.ring }))) ∧
  (∀ (b : SettingsBody) (s : State), let ch := b.ch.val
    (s.inserted = false ∨ s.inUp ch = false → exec (.settings b) s = .next s) ∧
    (s.inserted = true → s.inUp ch = true →
      (unwrapGroups s.sup.vault.upKey (b.groups.length + 1) b.groups = none → exec (.settings b) s = .next (s.raise 0x0052 uRNG 1 ch (s.rd rngPosUp))) ∧
      (∀ plain, unwrapGroups s.sup.vault.upKey (b.groups.length + 1) b.groups = some plain →
        (b.state = 0 → exec (.settings b) s = .next (s.dropMirror ch)) ∧
        (b.state ≠ 0 → ∀ t, s.installMirror ch { b with groups := plain } = some t →
          exec (.settings b) s = .next (t.setMir ch { s.mir ch with settings := some { b with groups := plain }, adoptable := true })) ∧
        (b.state ≠ 0 → s.installMirror ch { b with groups := plain } = none → exec (.settings b) s =
          .next ((s.setMir ch { s.mir ch with settings := some { b with groups := plain }, adoptable := false }).raise 0x0054 uRNG 1 ch (s.rd rngPosUp)))))) ∧
  (∀ (ch : ChanId) (s : State), ((s.hm ch.val).settingsAt = none → exec (.settingsAckTimeout ch) s = .next s) ∧ (∀ a, (s.hm ch.val).settingsAt = some a →
    (s.now < a + ms 1 → exec (.settingsAckTimeout ch) s = .next s) ∧
    (a + ms 1 ≤ s.now → exec (.settingsAckTimeout ch) s = .next (((s.modHm ch.val (fun h => { h with settingsAt := none })).raise 0x0053 uRNG 0 ch.val (s.rd rngPosDown)).settingsDone ch.val)))) ∧
  (∀ (ch : ChanId) (s : State), ((s.hm ch.val).queued = none ∨ s.mirrored ch.val = false → exec (.deltaSend ch) s = .next s) ∧
    (∀ b, (s.hm ch.val).queued = some b → s.inserted = true → s.mirrored ch.val = true → s.bodyRoom (deltaLen b) = true → exec (.deltaSend ch) s =
      .next (((s.modHm ch.val (fun h => { h with queued := none })).ringSend 0 (s.rd rngPosDown) (.delta b (s.hm ch.val).queuedAt)).bump rngDeltasTx)) ∧
    ((s.hm ch.val).syncWant = false ∨ s.now < s.ring.syncNextAt → exec (.syncSend ch) s = .next s) ∧
    (let b := s.deltaOf ch.val true
     s.inserted = true → s.mirrored ch.val = true → (s.hm ch.val).syncWant = true → s.ring.syncNextAt ≤ s.now → s.bodyRoom (deltaLen b) = true →
      Gives (.syncSend ch) s (fun t => t.ring.syncNextAt = s.now + deltaLen b / s.rd rngSyncRate ∧ t.chans = s.chans ∧ t.mem = s.mem ∧ t.engines = s.engines))) ∧
  (∀ s : State, (s.flag rngPaired = false ∨ s.now < s.ring.lagAt → exec .mirrorLagCheck s = .next s) ∧
    (s.flag rngPaired = true → s.ring.lagAt ≤ s.now → let u : State := { s with ring := { s.ring with lagAt := s.now + sec 1 } }
      exec .mirrorLagCheck s = .next (if s.stale = 0 then u else u.raise 0x0055 uRNG 0 0xFFFF (s.rd rngPosDown) 0 s.stale))) ∧
  (∀ (ch : ChanId) (token : Word32) (s : State), (s.inserted = false ∨ s.inUp ch.val = false ∨ (s.mir ch.val).delta = none → exec (.ctxRequest ch token) s = .next s) ∧
    (∀ b, s.inserted = true → s.inUp ch.val = true → (s.mir ch.val).delta = some b → exec (.ctxRequest ch token) s = .next (s.ringSend 1 (s.rd rngPosUp) (.sync b s.now)))) ∧
  (∀ s : State, (s.rd rngUpState ≠ 1 ∨ s.now < s.ring.upSeenAt + ms 3 → exec .upstreamSilence s = .next s) ∧
    (s.flag rngPaired = true → s.inserted = true → s.rd rngUpState = 1 → s.ring.upSeenAt + ms 3 ≤ s.now → s.flag rngAutoTake = true → s.firstProof = true → Gives .upstreamSilence s (fun t =>
      t.rd rngUpState = 2 ∧ t.rd rngSuspects = (s.rd rngSuspects + 1) % 2 ^ 64 ∧ t.ring.queryTok = s.ring.token + 1 ∧ t.chans = s.chans ∧ t.mem = s.mem))) ∧
  (∀ s : State, (s.rd rngUpState ≠ 2 ∨ s.flag rngAutoTake = false → exec .adoption s = .next s) ∧
    (s.flag rngPaired = true → s.inserted = true → s.rd rngUpState = 2 → s.flag rngAutoTake = true → s.firstProof = true → s.ring.mirror = [] → s.ring.demandCmd = none → s.chans = [] → s.ing.lat = [] →
      Gives .adoption s (fun t => t.rd rngUpState = 5 ∧ t.rd rngAdoptions = (s.rd rngAdoptions + 1) % 2 ^ 64 ∧ t.ring.adoptedCount = 0 ∧ t.ring.announceAt = [s.now + ms 20, s.now + ms 40] ∧ t.chans = s.chans))) ∧
  (∀ s : State, s.ring.announceAt = [] → exec .announcementRepeat s = .next s) ∧
  (∀ (a : Nat) (r : List Nat) (s : State), s.ring.announceAt = a :: r → (s.now < a → exec .announcementRepeat s = .next s) ∧
    (a ≤ s.now → exec .announcementRepeat s = .next (State.announce { s with ring := { s.ring with announceAt := r } }))) ∧
  (∀ (src : Nat) (token : Word32) (s : State), (s.inserted = false ∨ s.ring.live = false → exec (.fenceQuery src token) s = .next s ∧ exec (.fenceDemand src token) s = .next s ∧ exec (.resumeQuery src token) s = .next s) ∧
    (s.inserted = true → s.ring.live = true → exec (.fenceQuery src token) s = .next (s.sendTo src (.fenceAnswer 0 token)) ∧
      (s.flag rngYieldOnDemand = true → exec (.fenceDemand src token) s = .next (s.sendTo src (.fenceAnswer 1 token)).selfFence) ∧
      (s.flag rngYieldOnDemand = false → exec (.fenceDemand src token) s = .next (s.sendTo src (.fenceAnswer 2 token))) ∧
      (src ≠ s.rd rngPosUp → exec (.resumeQuery src token) s = .next (s.sendTo src (.resumeAnswer false token))) ∧
      (src = s.rd rngPosUp → s.rd rngUpState ≠ 5 → exec (.resumeQuery src token) s =
        .next ((State.holdOver { s with ring := { s.ring with upSeenAt := s.now } }).sendTo src (.resumeAnswer false token))) ∧
      (src = s.rd rngPosUp → s.rd rngUpState = 5 → exec (.resumeQuery src token) s = .next (s.sendTo src (.resumeAnswer true token))))) ∧
  (∀ (status : FenceStatus) (token : Word32) (s : State), (s.ring.demandAt = none → (status ≠ .alive ∨ token ≠ s.ring.queryTok) → exec (.fenceAnswer status token) s = .next s) ∧
    (s.ring.demandAt = none → token = s.ring.queryTok → exec (.fenceAnswer .alive token) s = .next s.upAlive) ∧
    (s.ring.demandAt ≠ none → token = s.ring.demandTok → exec (.fenceAnswer .refused token) s = .next (s.demandEnds stDENIED 0) ∧
      exec (.fenceAnswer .alive token) s = .next (s.upAlive.demandEnds stDENIED 0) ∧
      exec (.fenceAnswer .released token) s = .next (s.adopt.demandEnds stOK s.adopt.ring.adoptedCount))) ∧
  (∀ s : State, (s.ring.demandAt = none → exec .fenceDemandTimeout s = .next s) ∧ (∀ a, s.ring.demandAt = some a → (s.now < a + ms 2 → exec .fenceDemandTimeout s = .next s) ∧
    (a + ms 2 ≤ s.now → (s.inserted = true → exec .fenceDemandTimeout s = .next (s.adopt.demandEnds stOK s.adopt.ring.adoptedCount)) ∧
      (s.inserted = false → exec .fenceDemandTimeout s = .next (s.demandEnds stBAD_STATE 0))))) ∧
  (∀ (c : HostCmd) (s : State), commandRuns c 0x51 [(1, 7)] false s = true →
    ((s.flag rngPaired = false ∨ bits c.w1.toNat 0 3 ≠ s.rd rngPosUp ∨ s.inserted = false) → exec (.failoverTake c) s = .next (refused c 0x51 stBAD_STATE 0 s)) ∧
    (s.flag rngPaired = true → bits c.w1.toNat 0 3 = s.rd rngPosUp → s.inserted = true →
      (s.rd rngUpState = 5 → exec (.failoverTake c) s = .next (ok c 0x51 s.ring.adoptedCount 0 s)) ∧
      (s.rd rngUpState = 3 → exec (.failoverTake c) s = .next (refused c 0x51 stDENIED 0 s)) ∧
      (s.rd rngUpState ≠ 5 → s.rd rngUpState ≠ 3 → s.ring.demandAt ≠ none → exec (.failoverTake c) s = .next (refused c 0x51 stBUSY 0 s)) ∧
      (s.rd rngUpState ≠ 5 → s.rd rngUpState ≠ 3 → s.ring.demandAt = none → Gives (.failoverTake c) s (fun t => t.ring.demandAt = some s.now ∧ t.ring.demandTok = s.ring.token + 1 ∧
        t.ring.demandCmd = some (c.qid.val, c.tag.toNat) ∧ t.chans = s.chans ∧ t.mem = s.mem)))) ∧
  (∀ (src maxS : Nat) (s : State), (src ≠ s.rd rngPosUp ∨ s.inserted = false ∨ s.flag rngPaired = false ∨ s.rd rngUpState = 5 → exec (.hold src maxS) s = .next s) ∧
    (src = s.rd rngPosUp → s.inserted = true → s.flag rngPaired = true → s.rd rngUpState ≠ 5 →
      let u := State.wr { s with ring := { s.ring with holdUntil := some (s.now + sec maxS) } } rngUpState 3
      u.rd rngUpState = 3 ∧ exec (.hold src maxS) s = .next (if s.ring.demandAt.isSome = true then u.demandEnds stDENIED 0 else u))) ∧
  (∀ s : State, ((∀ a, s.ring.holdUntil = some a → s.now < a) → exec .holdExpiry s = .next s) ∧ (∀ a, s.ring.holdUntil = some a → a ≤ s.now → Gives .holdExpiry s (fun t => t.ring.holdUntil = none ∧
    (s.rd rngUpState = 3 → t.rd rngUpState = 1) ∧ t = { s with ring := t.ring, regs := t.regs }))) ∧
  (∀ (b : Bool) (s : State), (s.ring.resumeWait = false → exec (.resumeAnswer b) s = .next s) ∧
    (s.ring.resumeWait = true → exec (.resumeAnswer false) s = .next s.resumeMedia ∧ exec (.resumeAnswer true) s =
      .next (((s.chans.filter (fun e => e.2.st != .free && s.mirrored e.1)).foldl (fun (s : State) e => s.freeQuietly e.1) s).replan).resumeMedia) ∧ (s.ring.resumeWait = true → s.img.warmHold = false → Gives (.resumeAnswer false) s (fun t =>
    t.ring.fenced = false ∧ t.ring.resumeWait = false ∧ t.ring.holdSent = false ∧ t = { s with ring := t.ring, img := t.img })))
end

