-- ==== Sys2Proof/Laws/Table.lean ====
section
/-! SUPPORT. Laws of the sparse tables and of the host-shared bytes: what a read finds after a write, and that every
operation keeps the canonical form. -/

namespace Sys2Proof.Machine

variable {α : Type}

/-! ### Reads after writes -/

@[simp] theorem tget_terase_self (t : Tbl α) (k : Nat) (d : α) : tget (terase t k) k d = d := by
  induction t with
  | nil => rfl
  | cons e r ih => obtain ⟨k', v⟩ := e; by_cases h : k' = k <;> simp [terase, tget, h, ih]

@[simp] theorem tget_terase_ne (t : Tbl α) {k j : Nat} (d : α) (h : j ≠ k) : tget (terase t k) j d = tget t j d := by
  induction t with
  | nil => rfl
  | cons e r ih =>
    obtain ⟨k', v⟩ := e
    by_cases h1 : k' = k
    · subst h1; simp [terase, tget, Ne.symm h, ih]
    · simp [terase, tget, h1, ih]

@[simp] theorem tget_tins_self (t : Tbl α) (k : Nat) (v d : α) : tget (tins t k v) k d = v := by
  induction t with
  | nil => simp [tins, tget]
  | cons e r ih =>
    obtain ⟨k', w⟩ := e
    by_cases h1 : k < k'
    · simp [tins, tget, h1]
    · by_cases h2 : k' = k <;> simp [tins, tget, h1, h2, ih]

@[simp] theorem tget_tins_ne (t : Tbl α) {k j : Nat} (v d : α) (h : j ≠ k) : tget (tins t k v) j d = tget t j d := by
  induction t with
  | nil => simp [tins, tget, Ne.symm h]
  | cons e r ih =>
    obtain ⟨k', w⟩ := e
    by_cases h1 : k < k'
    · simp [tins, tget, h1, Ne.symm h]
    · by_cases h2 : k' = k
      · subst h2; simp [tins, tget, Ne.symm h]
      · simp [tins, tget, h1, h2, ih]

/-- A key reads as it was last written. -/
@[simp] theorem tget_tset_self [DecidableEq α] (t : Tbl α) (k : Nat) (v d : α) : tget (tset t k v d) k d = v := by
  by_cases h : v = d <;> simp [tset, h]

/-- A write leaves every other key alone, whatever it reads as where it is not listed. -/
@[simp] theorem tget_tset_ne [DecidableEq α] (t : Tbl α) {k j : Nat} (v d e : α) (h : j ≠ k) :
    tget (tset t k v d) j e = tget t j e := by
  by_cases hv : v = d <;> simp [tset, hv, h]

@[simp] theorem tget_tmod_self [DecidableEq α] (t : Tbl α) (k : Nat) (d : α) (f : α → α) :
    tget (tmod t k d f) k d = f (tget t k d) := by simp [tmod]

@[simp] theorem tget_tmod_ne [DecidableEq α] (t : Tbl α) {k j : Nat} (d : α) (f : α → α) (h : j ≠ k) :
    tget (tmod t k d f) j d = tget t j d := by simp [tmod, h]

/-! ### The canonical form -/

theorem sortedFrom_mono {lo lo' : Nat} {t : Tbl α} (h : sortedFrom lo t = true) (hl : lo' ≤ lo) : sortedFrom lo' t = true := by
  cases t with
  | nil => rfl
  | cons e r =>
    obtain ⟨k, v⟩ := e
    simp only [sortedFrom, Bool.and_eq_true, decide_eq_true_eq] at *
    exact ⟨by omega, h.2⟩

theorem sortedFrom_terase {t : Tbl α} {lo : Nat} (k : Nat) (h : sortedFrom lo t = true) : sortedFrom lo (terase t k) = true := by
  induction t generalizing lo with
  | nil => rfl
  | cons e r ih =>
    obtain ⟨k', v⟩ := e
    simp only [sortedFrom, Bool.and_eq_true, decide_eq_true_eq] at h
    by_cases h1 : k' = k
    · simp only [terase, h1, if_true]
      exact ih (sortedFrom_mono h.2 (by omega))
    · simp only [terase, h1, if_false, sortedFrom, Bool.and_eq_true, decide_eq_true_eq]
      exact ⟨h.1, ih h.2⟩

theorem sortedFrom_tins {t : Tbl α} {lo k : Nat} (v : α) (hk : lo ≤ k) (h : sortedFrom lo t = true) :
    sortedFrom lo (tins t k v) = true := by
  induction t generalizing lo with
  | nil => simp [tins, sortedFrom, hk]
  | cons e r ih =>
    obtain ⟨k', w⟩ := e
    simp only [sortedFrom, Bool.and_eq_true, decide_eq_true_eq] at h
    by_cases h1 : k < k'
    · simp only [tins, h1, if_true, sortedFrom, Bool.and_eq_true, decide_eq_true_eq]
      exact ⟨hk, by omega, h.2⟩
    · by_cases h2 : k' = k
      · subst h2
        simp only [tins, h1, if_false, if_true, sortedFrom, Bool.and_eq_true, decide_eq_true_eq]
        exact ⟨hk, h.2⟩
      · simp only [tins, h1, h2, if_false, sortedFrom, Bool.and_eq_true, decide_eq_true_eq]
        exact ⟨h.1, ih (by omega) h.2⟩

theorem sorted_terase {t : Tbl α} (k : Nat) (h : sorted t = true) : sorted (terase t k) = true := sortedFrom_terase k h

theorem sorted_tins {t : Tbl α} (k : Nat) (v : α) (h : sorted t = true) : sorted (tins t k v) = true :=
  sortedFrom_tins v (Nat.zero_le k) h

/-- A write keeps the keys rising. -/
theorem sorted_tset [DecidableEq α] {t : Tbl α} (k : Nat) (v d : α) (h : sorted t = true) : sorted (tset t k v d) = true := by
  by_cases hv : v = d
  · simp [tset, hv, sorted_terase k h]
  · simp [tset, hv, sorted_tins k v h]

theorem sorted_tmod [DecidableEq α] {t : Tbl α} (k : Nat) (d : α) (f : α → α) (h : sorted t = true) :
    sorted (tmod t k d f) = true := sorted_tset k _ d h

/-- Dropping entries keeps the keys rising. -/
theorem sorted_tkeep {t : Tbl α} (p : Nat → Bool) (h : sorted t = true) : sorted (tkeep t p) = true := by
  suffices ∀ lo, sortedFrom lo t = true → sortedFrom lo (tkeep t p) = true from this 0 h
  intro lo h
  induction t generalizing lo with
  | nil => rfl
  | cons e r ih =>
    obtain ⟨k, v⟩ := e
    simp only [sortedFrom, Bool.and_eq_true, decide_eq_true_eq] at h
    have hr := ih (sortedFrom_mono h.2 (Nat.zero_le _)) (k + 1) h.2
    by_cases hp : p k = true
    · simpa [tkeep, hp, sortedFrom, h.1] using hr
    · simpa [tkeep, hp] using sortedFrom_mono hr (by omega)

/-! ### Host-shared bytes -/

theorem all_terase {t : Tbl α} (q : Nat × α → Bool) (k : Nat) (h : t.all q = true) : (terase t k).all q = true := by
  induction t with
  | nil => rfl
  | cons e r ih =>
    obtain ⟨k', v⟩ := e
    simp only [List.all_cons, Bool.and_eq_true] at h
    by_cases h1 : k' = k <;> simp_all [terase]

theorem all_tins {t : Tbl α} (q : Nat × α → Bool) (k : Nat) (v : α) (h : t.all q = true) (hv : q (k, v) = true) :
    (tins t k v).all q = true := by
  induction t with
  | nil => simp [tins, hv]
  | cons e r ih =>
    obtain ⟨k', w⟩ := e
    simp only [List.all_cons, Bool.and_eq_true] at h
    by_cases h1 : k < k'
    · simp only [tins, if_pos h1, List.all_cons, Bool.and_eq_true]; exact ⟨hv, h.1, h.2⟩
    · by_cases h2 : k' = k
      · simp only [tins, if_neg h1, if_pos h2, List.all_cons, Bool.and_eq_true]; exact ⟨hv, h.2⟩
      · simp only [tins, if_neg h1, if_neg h2, List.all_cons, Bool.and_eq_true]; exact ⟨h.1, ih h.2⟩

/-- Writing a byte keeps the memory canonical. -/
theorem memWf_mset {m : List Host.Cell} (a : Nat) (v : Byte) (h : memWf m = true) : memWf (mset m a v) = true := by
  simp only [memWf, Bool.and_eq_true] at *
  refine ⟨sorted_tset _ _ _ h.1, ?_⟩
  by_cases hv : v = unwrittenByte
  · simpa [mset, tset, hv] using all_terase _ a h.2
  · simpa [mset, tset, hv] using all_tins _ a v h.2 (by simp [hv])

/-- Writing bytes keeps the memory canonical. -/
theorem memWf_msetList {m : List Host.Cell} (a : Nat) (bs : List Byte) (h : memWf m = true) : memWf (msetList m a bs) = true := by
  induction bs generalizing m a with
  | nil => exact h
  | cons b r ih => exact ih (a + 1) (memWf_mset a b h)

@[simp] theorem mget_mset_self (m : List Host.Cell) (a : Nat) (v : Byte) : mget (mset m a v) a = v := by simp [mget, mset]

@[simp] theorem mget_mset_ne (m : List Host.Cell) {a b : Nat} (v : Byte) (h : b ≠ a) : mget (mset m a v) b = mget m b := by
  simp [mget, mset, h]

/-- A write of bytes leaves every byte outside them alone. -/
theorem mget_msetList_out (m : List Host.Cell) (a : Nat) (bs : List Byte) (b : Nat) (h : b < a ∨ a + bs.length ≤ b) :
    mget (msetList m a bs) b = mget m b := by
  induction bs generalizing m a with
  | nil => rfl
  | cons x r ih =>
    simp only [List.length_cons] at h
    rw [msetList, ih (mset m a x) (a + 1) (by omega), mget_mset_ne _ _ (by omega)]

/-- A written byte reads as it was written. -/
theorem mget_msetList_in (m : List Host.Cell) (a : Nat) (bs : List Byte) (i : Nat) (h : i < bs.length) :
    mget (msetList m a bs) (a + i) = bs.getD i 0 := by
  induction bs generalizing m a i with
  | nil => simp at h
  | cons x r ih =>
    cases i with
    | zero => rw [msetList, mget_msetList_out _ _ _ _ (by omega)]; simp
    | succ i =>
      have := ih (mset m a x) (a + 1) i (by simpa using h)
      rw [msetList, show a + (i + 1) = a + 1 + i by omega, this]; simp

end Sys2Proof.Machine
end

