-- ==== Sys2Proof/Laws/State.lean ====
section
/-! SUPPORT. Laws of the state's updates: what each named update leaves alone, and what a part reads as after it. Every later
proof rewrites with these and unfolds no record update. -/

namespace Sys2Proof.Machine

namespace State

variable (s : State)

/-! ### wr -/

@[simp] theorem wr_pending (d : RegDesc) (v i j : Nat) : (s.wr d v i j).pending = s.pending := rfl
@[simp] theorem wr_now (d : RegDesc) (v i j : Nat) : (s.wr d v i j).now = s.now := rfl
@[simp] theorem wr_freeCtr (d : RegDesc) (v i j : Nat) : (s.wr d v i j).freeCtr = s.freeCtr := rfl
@[simp] theorem wr_sup (d : RegDesc) (v i j : Nat) : (s.wr d v i j).sup = s.sup := rfl
@[simp] theorem wr_time (d : RegDesc) (v i j : Nat) : (s.wr d v i j).time = s.time := rfl
@[simp] theorem wr_ports (d : RegDesc) (v i j : Nat) : (s.wr d v i j).ports = s.ports := rfl
@[simp] theorem wr_ing (d : RegDesc) (v i j : Nat) : (s.wr d v i j).ing = s.ing := rfl
@[simp] theorem wr_chans (d : RegDesc) (v i j : Nat) : (s.wr d v i j).chans = s.chans := rfl
@[simp] theorem wr_slots (d : RegDesc) (v i j : Nat) : (s.wr d v i j).slots = s.slots := rfl
@[simp] theorem wr_mor (d : RegDesc) (v i j : Nat) : (s.wr d v i j).mor = s.mor := rfl
@[simp] theorem wr_engines (d : RegDesc) (v i j : Nat) : (s.wr d v i j).engines = s.engines := rfl
@[simp] theorem wr_saved (d : RegDesc) (v i j : Nat) : (s.wr d v i j).saved = s.saved := rfl
@[simp] theorem wr_weldU (d : RegDesc) (v i j : Nat) : (s.wr d v i j).weldU = s.weldU := rfl
@[simp] theorem wr_glaze (d : RegDesc) (v i j : Nat) : (s.wr d v i j).glaze = s.glaze := rfl
@[simp] theorem wr_mem (d : RegDesc) (v i j : Nat) : (s.wr d v i j).mem = s.mem := rfl
@[simp] theorem wr_host (d : RegDesc) (v i j : Nat) : (s.wr d v i j).host = s.host := rfl
@[simp] theorem wr_cap (d : RegDesc) (v i j : Nat) : (s.wr d v i j).cap = s.cap := rfl
@[simp] theorem wr_ring (d : RegDesc) (v i j : Nat) : (s.wr d v i j).ring = s.ring := rfl
@[simp] theorem wr_img (d : RegDesc) (v i j : Nat) : (s.wr d v i j).img = s.img := rfl
@[simp] theorem wr_pwr (d : RegDesc) (v i j : Nat) : (s.wr d v i j).pwr = s.pwr := rfl
@[simp] theorem wr_chan (d : RegDesc) (v i j : Nat) (k : Nat) : (s.wr d v i j).chan k = s.chan k := rfl
@[simp] theorem wr_port (d : RegDesc) (v i j : Nat) (k : Nat) : (s.wr d v i j).port k = s.port k := rfl
@[simp] theorem wr_tb (d : RegDesc) (v i j : Nat) (k : Nat) : (s.wr d v i j).tb k = s.tb k := rfl
@[simp] theorem wr_tbVal (d : RegDesc) (v i j : Nat) (k : Nat) : (s.wr d v i j).tbVal k = s.tbVal k := rfl
@[simp] theorem wr_eng (d : RegDesc) (v i j : Nat) (k : Nat) : (s.wr d v i j).eng k = s.eng k := rfl
@[simp] theorem wr_me (d : RegDesc) (v i j : Nat) (k : Nat) : (s.wr d v i j).me k = s.me k := rfl
@[simp] theorem wr_mc (d : RegDesc) (v i j : Nat) (k : Nat) : (s.wr d v i j).mc k = s.mc k := rfl
@[simp] theorem wr_hq (d : RegDesc) (v i j : Nat) (k : Nat) : (s.wr d v i j).hq k = s.hq k := rfl
@[simp] theorem wr_link (d : RegDesc) (v i j : Nat) (k : Nat) : (s.wr d v i j).link k = s.link k := rfl
@[simp] theorem wr_warden (d : RegDesc) (v i j : Nat) (k : Nat) : (s.wr d v i j).warden k = s.warden k := rfl

/-! ### setChan -/

@[simp] theorem setChan_pending (ch : Nat) (c : Chan) : (s.setChan ch c).pending = s.pending := rfl
@[simp] theorem setChan_now (ch : Nat) (c : Chan) : (s.setChan ch c).now = s.now := rfl
@[simp] theorem setChan_freeCtr (ch : Nat) (c : Chan) : (s.setChan ch c).freeCtr = s.freeCtr := rfl
@[simp] theorem setChan_regs (ch : Nat) (c : Chan) : (s.setChan ch c).regs = s.regs := rfl
@[simp] theorem setChan_sup (ch : Nat) (c : Chan) : (s.setChan ch c).sup = s.sup := rfl
@[simp] theorem setChan_time (ch : Nat) (c : Chan) : (s.setChan ch c).time = s.time := rfl
@[simp] theorem setChan_ports (ch : Nat) (c : Chan) : (s.setChan ch c).ports = s.ports := rfl
@[simp] theorem setChan_ing (ch : Nat) (c : Chan) : (s.setChan ch c).ing = s.ing := rfl
@[simp] theorem setChan_slots (ch : Nat) (c : Chan) : (s.setChan ch c).slots = s.slots := rfl
@[simp] theorem setChan_mor (ch : Nat) (c : Chan) : (s.setChan ch c).mor = s.mor := rfl
@[simp] theorem setChan_engines (ch : Nat) (c : Chan) : (s.setChan ch c).engines = s.engines := rfl
@[simp] theorem setChan_saved (ch : Nat) (c : Chan) : (s.setChan ch c).saved = s.saved := rfl
@[simp] theorem setChan_weldU (ch : Nat) (c : Chan) : (s.setChan ch c).weldU = s.weldU := rfl
@[simp] theorem setChan_glaze (ch : Nat) (c : Chan) : (s.setChan ch c).glaze = s.glaze := rfl
@[simp] theorem setChan_mem (ch : Nat) (c : Chan) : (s.setChan ch c).mem = s.mem := rfl
@[simp] theorem setChan_host (ch : Nat) (c : Chan) : (s.setChan ch c).host = s.host := rfl
@[simp] theorem setChan_cap (ch : Nat) (c : Chan) : (s.setChan ch c).cap = s.cap := rfl
@[simp] theorem setChan_ring (ch : Nat) (c : Chan) : (s.setChan ch c).ring = s.ring := rfl
@[simp] theorem setChan_img (ch : Nat) (c : Chan) : (s.setChan ch c).img = s.img := rfl
@[simp] theorem setChan_pwr (ch : Nat) (c : Chan) : (s.setChan ch c).pwr = s.pwr := rfl
@[simp] theorem setChan_rd (ch : Nat) (c : Chan) (d' : RegDesc) (i' j' : Nat) : (s.setChan ch c).rd d' i' j' = s.rd d' i' j' := rfl
@[simp] theorem setChan_port (ch : Nat) (c : Chan) (k : Nat) : (s.setChan ch c).port k = s.port k := rfl
@[simp] theorem setChan_tb (ch : Nat) (c : Chan) (k : Nat) : (s.setChan ch c).tb k = s.tb k := rfl
@[simp] theorem setChan_tbVal (ch : Nat) (c : Chan) (k : Nat) : (s.setChan ch c).tbVal k = s.tbVal k := rfl
@[simp] theorem setChan_eng (ch : Nat) (c : Chan) (k : Nat) : (s.setChan ch c).eng k = s.eng k := rfl
@[simp] theorem setChan_me (ch : Nat) (c : Chan) (k : Nat) : (s.setChan ch c).me k = s.me k := rfl
@[simp] theorem setChan_mc (ch : Nat) (c : Chan) (k : Nat) : (s.setChan ch c).mc k = s.mc k := rfl
@[simp] theorem setChan_hq (ch : Nat) (c : Chan) (k : Nat) : (s.setChan ch c).hq k = s.hq k := rfl
@[simp] theorem setChan_link (ch : Nat) (c : Chan) (k : Nat) : (s.setChan ch c).link k = s.link k := rfl
@[simp] theorem setChan_warden (ch : Nat) (c : Chan) (k : Nat) : (s.setChan ch c).warden k = s.warden k := rfl
@[simp] theorem setChan_flag (ch : Nat) (c : Chan) (d' : RegDesc) (i' j' : Nat) : (s.setChan ch c).flag d' i' j' = s.flag d' i' j' := rfl

/-! ### modChan -/

@[simp] theorem modChan_pending (ch : Nat) (f : Chan → Chan) : (s.modChan ch f).pending = s.pending := rfl
@[simp] theorem modChan_now (ch : Nat) (f : Chan → Chan) : (s.modChan ch f).now = s.now := rfl
@[simp] theorem modChan_freeCtr (ch : Nat) (f : Chan → Chan) : (s.modChan ch f).freeCtr = s.freeCtr := rfl
@[simp] theorem modChan_regs (ch : Nat) (f : Chan → Chan) : (s.modChan ch f).regs = s.regs := rfl
@[simp] theorem modChan_sup (ch : Nat) (f : Chan → Chan) : (s.modChan ch f).sup = s.sup := rfl
@[simp] theorem modChan_time (ch : Nat) (f : Chan → Chan) : (s.modChan ch f).time = s.time := rfl
@[simp] theorem modChan_ports (ch : Nat) (f : Chan → Chan) : (s.modChan ch f).ports = s.ports := rfl
@[simp] theorem modChan_ing (ch : Nat) (f : Chan → Chan) : (s.modChan ch f).ing = s.ing := rfl
@[simp] theorem modChan_slots (ch : Nat) (f : Chan → Chan) : (s.modChan ch f).slots = s.slots := rfl
@[simp] theorem modChan_mor (ch : Nat) (f : Chan → Chan) : (s.modChan ch f).mor = s.mor := rfl
@[simp] theorem modChan_engines (ch : Nat) (f : Chan → Chan) : (s.modChan ch f).engines = s.engines := rfl
@[simp] theorem modChan_saved (ch : Nat) (f : Chan → Chan) : (s.modChan ch f).saved = s.saved := rfl
@[simp] theorem modChan_weldU (ch : Nat) (f : Chan → Chan) : (s.modChan ch f).weldU = s.weldU := rfl
@[simp] theorem modChan_glaze (ch : Nat) (f : Chan → Chan) : (s.modChan ch f).glaze = s.glaze := rfl
@[simp] theorem modChan_mem (ch : Nat) (f : Chan → Chan) : (s.modChan ch f).mem = s.mem := rfl
@[simp] theorem modChan_host (ch : Nat) (f : Chan → Chan) : (s.modChan ch f).host = s.host := rfl
@[simp] theorem modChan_cap (ch : Nat) (f : Chan → Chan) : (s.modChan ch f).cap = s.cap := rfl
@[simp] theorem modChan_ring (ch : Nat) (f : Chan → Chan) : (s.modChan ch f).ring = s.ring := rfl
@[simp] theorem modChan_img (ch : Nat) (f : Chan → Chan) : (s.modChan ch f).img = s.img := rfl
@[simp] theorem modChan_pwr (ch : Nat) (f : Chan → Chan) : (s.modChan ch f).pwr = s.pwr := rfl
@[simp] theorem modChan_rd (ch : Nat) (f : Chan → Chan) (d' : RegDesc) (i' j' : Nat) : (s.modChan ch f).rd d' i' j' = s.rd d' i' j' := rfl
@[simp] theorem modChan_port (ch : Nat) (f : Chan → Chan) (k : Nat) : (s.modChan ch f).port k = s.port k := rfl
@[simp] theorem modChan_tb (ch : Nat) (f : Chan → Chan) (k : Nat) : (s.modChan ch f).tb k = s.tb k := rfl
@[simp] theorem modChan_tbVal (ch : Nat) (f : Chan → Chan) (k : Nat) : (s.modChan ch f).tbVal k = s.tbVal k := rfl
@[simp] theorem modChan_eng (ch : Nat) (f : Chan → Chan) (k : Nat) : (s.modChan ch f).eng k = s.eng k := rfl
@[simp] theorem modChan_me (ch : Nat) (f : Chan → Chan) (k : Nat) : (s.modChan ch f).me k = s.me k := rfl
@[simp] theorem modChan_mc (ch : Nat) (f : Chan → Chan) (k : Nat) : (s.modChan ch f).mc k = s.mc k := rfl
@[simp] theorem modChan_hq (ch : Nat) (f : Chan → Chan) (k : Nat) : (s.modChan ch f).hq k = s.hq k := rfl
@[simp] theorem modChan_link (ch : Nat) (f : Chan → Chan) (k : Nat) : (s.modChan ch f).link k = s.link k := rfl
@[simp] theorem modChan_warden (ch : Nat) (f : Chan → Chan) (k : Nat) : (s.modChan ch f).warden k = s.warden k := rfl
@[simp] theorem modChan_flag (ch : Nat) (f : Chan → Chan) (d' : RegDesc) (i' j' : Nat) : (s.modChan ch f).flag d' i' j' = s.flag d' i' j' := rfl

/-! ### modPort -/

@[simp] theorem modPort_pending (p : Nat) (f : Port → Port) : (s.modPort p f).pending = s.pending := rfl
@[simp] theorem modPort_now (p : Nat) (f : Port → Port) : (s.modPort p f).now = s.now := rfl
@[simp] theorem modPort_freeCtr (p : Nat) (f : Port → Port) : (s.modPort p f).freeCtr = s.freeCtr := rfl
@[simp] theorem modPort_regs (p : Nat) (f : Port → Port) : (s.modPort p f).regs = s.regs := rfl
@[simp] theorem modPort_sup (p : Nat) (f : Port → Port) : (s.modPort p f).sup = s.sup := rfl
@[simp] theorem modPort_time (p : Nat) (f : Port → Port) : (s.modPort p f).time = s.time := rfl
@[simp] theorem modPort_ing (p : Nat) (f : Port → Port) : (s.modPort p f).ing = s.ing := rfl
@[simp] theorem modPort_chans (p : Nat) (f : Port → Port) : (s.modPort p f).chans = s.chans := rfl
@[simp] theorem modPort_slots (p : Nat) (f : Port → Port) : (s.modPort p f).slots = s.slots := rfl
@[simp] theorem modPort_mor (p : Nat) (f : Port → Port) : (s.modPort p f).mor = s.mor := rfl
@[simp] theorem modPort_engines (p : Nat) (f : Port → Port) : (s.modPort p f).engines = s.engines := rfl
@[simp] theorem modPort_saved (p : Nat) (f : Port → Port) : (s.modPort p f).saved = s.saved := rfl
@[simp] theorem modPort_weldU (p : Nat) (f : Port → Port) : (s.modPort p f).weldU = s.weldU := rfl
@[simp] theorem modPort_glaze (p : Nat) (f : Port → Port) : (s.modPort p f).glaze = s.glaze := rfl
@[simp] theorem modPort_mem (p : Nat) (f : Port → Port) : (s.modPort p f).mem = s.mem := rfl
@[simp] theorem modPort_host (p : Nat) (f : Port → Port) : (s.modPort p f).host = s.host := rfl
@[simp] theorem modPort_cap (p : Nat) (f : Port → Port) : (s.modPort p f).cap = s.cap := rfl
@[simp] theorem modPort_ring (p : Nat) (f : Port → Port) : (s.modPort p f).ring = s.ring := rfl
@[simp] theorem modPort_img (p : Nat) (f : Port → Port) : (s.modPort p f).img = s.img := rfl
@[simp] theorem modPort_pwr (p : Nat) (f : Port → Port) : (s.modPort p f).pwr = s.pwr := rfl
@[simp] theorem modPort_rd (p : Nat) (f : Port → Port) (d' : RegDesc) (i' j' : Nat) : (s.modPort p f).rd d' i' j' = s.rd d' i' j' := rfl
@[simp] theorem modPort_chan (p : Nat) (f : Port → Port) (k : Nat) : (s.modPort p f).chan k = s.chan k := rfl
@[simp] theorem modPort_tb (p : Nat) (f : Port → Port) (k : Nat) : (s.modPort p f).tb k = s.tb k := rfl
@[simp] theorem modPort_tbVal (p : Nat) (f : Port → Port) (k : Nat) : (s.modPort p f).tbVal k = s.tbVal k := rfl
@[simp] theorem modPort_eng (p : Nat) (f : Port → Port) (k : Nat) : (s.modPort p f).eng k = s.eng k := rfl
@[simp] theorem modPort_me (p : Nat) (f : Port → Port) (k : Nat) : (s.modPort p f).me k = s.me k := rfl
@[simp] theorem modPort_mc (p : Nat) (f : Port → Port) (k : Nat) : (s.modPort p f).mc k = s.mc k := rfl
@[simp] theorem modPort_hq (p : Nat) (f : Port → Port) (k : Nat) : (s.modPort p f).hq k = s.hq k := rfl
@[simp] theorem modPort_link (p : Nat) (f : Port → Port) (k : Nat) : (s.modPort p f).link k = s.link k := rfl
@[simp] theorem modPort_warden (p : Nat) (f : Port → Port) (k : Nat) : (s.modPort p f).warden k = s.warden k := rfl
@[simp] theorem modPort_flag (p : Nat) (f : Port → Port) (d' : RegDesc) (i' j' : Nat) : (s.modPort p f).flag d' i' j' = s.flag d' i' j' := rfl

/-! ### modTb -/

@[simp] theorem modTb_pending (n : Nat) (f : TimeBase → TimeBase) : (s.modTb n f).pending = s.pending := rfl
@[simp] theorem modTb_now (n : Nat) (f : TimeBase → TimeBase) : (s.modTb n f).now = s.now := rfl
@[simp] theorem modTb_freeCtr (n : Nat) (f : TimeBase → TimeBase) : (s.modTb n f).freeCtr = s.freeCtr := rfl
@[simp] theorem modTb_regs (n : Nat) (f : TimeBase → TimeBase) : (s.modTb n f).regs = s.regs := rfl
@[simp] theorem modTb_sup (n : Nat) (f : TimeBase → TimeBase) : (s.modTb n f).sup = s.sup := rfl
@[simp] theorem modTb_ports (n : Nat) (f : TimeBase → TimeBase) : (s.modTb n f).ports = s.ports := rfl
@[simp] theorem modTb_ing (n : Nat) (f : TimeBase → TimeBase) : (s.modTb n f).ing = s.ing := rfl
@[simp] theorem modTb_chans (n : Nat) (f : TimeBase → TimeBase) : (s.modTb n f).chans = s.chans := rfl
@[simp] theorem modTb_slots (n : Nat) (f : TimeBase → TimeBase) : (s.modTb n f).slots = s.slots := rfl
@[simp] theorem modTb_mor (n : Nat) (f : TimeBase → TimeBase) : (s.modTb n f).mor = s.mor := rfl
@[simp] theorem modTb_engines (n : Nat) (f : TimeBase → TimeBase) : (s.modTb n f).engines = s.engines := rfl
@[simp] theorem modTb_saved (n : Nat) (f : TimeBase → TimeBase) : (s.modTb n f).saved = s.saved := rfl
@[simp] theorem modTb_weldU (n : Nat) (f : TimeBase → TimeBase) : (s.modTb n f).weldU = s.weldU := rfl
@[simp] theorem modTb_glaze (n : Nat) (f : TimeBase → TimeBase) : (s.modTb n f).glaze = s.glaze := rfl
@[simp] theorem modTb_mem (n : Nat) (f : TimeBase → TimeBase) : (s.modTb n f).mem = s.mem := rfl
@[simp] theorem modTb_host (n : Nat) (f : TimeBase → TimeBase) : (s.modTb n f).host = s.host := rfl
@[simp] theorem modTb_cap (n : Nat) (f : TimeBase → TimeBase) : (s.modTb n f).cap = s.cap := rfl
@[simp] theorem modTb_ring (n : Nat) (f : TimeBase → TimeBase) : (s.modTb n f).ring = s.ring := rfl
@[simp] theorem modTb_img (n : Nat) (f : TimeBase → TimeBase) : (s.modTb n f).img = s.img := rfl
@[simp] theorem modTb_pwr (n : Nat) (f : TimeBase → TimeBase) : (s.modTb n f).pwr = s.pwr := rfl
@[simp] theorem modTb_rd (n : Nat) (f : TimeBase → TimeBase) (d' : RegDesc) (i' j' : Nat) : (s.modTb n f).rd d' i' j' = s.rd d' i' j' := rfl
@[simp] theorem modTb_chan (n : Nat) (f : TimeBase → TimeBase) (k : Nat) : (s.modTb n f).chan k = s.chan k := rfl
@[simp] theorem modTb_port (n : Nat) (f : TimeBase → TimeBase) (k : Nat) : (s.modTb n f).port k = s.port k := rfl
@[simp] theorem modTb_eng (n : Nat) (f : TimeBase → TimeBase) (k : Nat) : (s.modTb n f).eng k = s.eng k := rfl
@[simp] theorem modTb_me (n : Nat) (f : TimeBase → TimeBase) (k : Nat) : (s.modTb n f).me k = s.me k := rfl
@[simp] theorem modTb_mc (n : Nat) (f : TimeBase → TimeBase) (k : Nat) : (s.modTb n f).mc k = s.mc k := rfl
@[simp] theorem modTb_hq (n : Nat) (f : TimeBase → TimeBase) (k : Nat) : (s.modTb n f).hq k = s.hq k := rfl
@[simp] theorem modTb_link (n : Nat) (f : TimeBase → TimeBase) (k : Nat) : (s.modTb n f).link k = s.link k := rfl
@[simp] theorem modTb_warden (n : Nat) (f : TimeBase → TimeBase) (k : Nat) : (s.modTb n f).warden k = s.warden k := rfl
@[simp] theorem modTb_flag (n : Nat) (f : TimeBase → TimeBase) (d' : RegDesc) (i' j' : Nat) : (s.modTb n f).flag d' i' j' = s.flag d' i' j' := rfl

/-! ### modEng -/

@[simp] theorem modEng_pending (e : Nat) (f : Engine → Engine) : (s.modEng e f).pending = s.pending := rfl
@[simp] theorem modEng_now (e : Nat) (f : Engine → Engine) : (s.modEng e f).now = s.now := rfl
@[simp] theorem modEng_freeCtr (e : Nat) (f : Engine → Engine) : (s.modEng e f).freeCtr = s.freeCtr := rfl
@[simp] theorem modEng_regs (e : Nat) (f : Engine → Engine) : (s.modEng e f).regs = s.regs := rfl
@[simp] theorem modEng_sup (e : Nat) (f : Engine → Engine) : (s.modEng e f).sup = s.sup := rfl
@[simp] theorem modEng_time (e : Nat) (f : Engine → Engine) : (s.modEng e f).time = s.time := rfl
@[simp] theorem modEng_ports (e : Nat) (f : Engine → Engine) : (s.modEng e f).ports = s.ports := rfl
@[simp] theorem modEng_ing (e : Nat) (f : Engine → Engine) : (s.modEng e f).ing = s.ing := rfl
@[simp] theorem modEng_chans (e : Nat) (f : Engine → Engine) : (s.modEng e f).chans = s.chans := rfl
@[simp] theorem modEng_slots (e : Nat) (f : Engine → Engine) : (s.modEng e f).slots = s.slots := rfl
@[simp] theorem modEng_mor (e : Nat) (f : Engine → Engine) : (s.modEng e f).mor = s.mor := rfl
@[simp] theorem modEng_saved (e : Nat) (f : Engine → Engine) : (s.modEng e f).saved = s.saved := rfl
@[simp] theorem modEng_weldU (e : Nat) (f : Engine → Engine) : (s.modEng e f).weldU = s.weldU := rfl
@[simp] theorem modEng_glaze (e : Nat) (f : Engine → Engine) : (s.modEng e f).glaze = s.glaze := rfl
@[simp] theorem modEng_mem (e : Nat) (f : Engine → Engine) : (s.modEng e f).mem = s.mem := rfl
@[simp] theorem modEng_host (e : Nat) (f : Engine → Engine) : (s.modEng e f).host = s.host := rfl
@[simp] theorem modEng_cap (e : Nat) (f : Engine → Engine) : (s.modEng e f).cap = s.cap := rfl
@[simp] theorem modEng_ring (e : Nat) (f : Engine → Engine) : (s.modEng e f).ring = s.ring := rfl
@[simp] theorem modEng_img (e : Nat) (f : Engine → Engine) : (s.modEng e f).img = s.img := rfl
@[simp] theorem modEng_pwr (e : Nat) (f : Engine → Engine) : (s.modEng e f).pwr = s.pwr := rfl
@[simp] theorem modEng_rd (e : Nat) (f : Engine → Engine) (d' : RegDesc) (i' j' : Nat) : (s.modEng e f).rd d' i' j' = s.rd d' i' j' := rfl
@[simp] theorem modEng_chan (e : Nat) (f : Engine → Engine) (k : Nat) : (s.modEng e f).chan k = s.chan k := rfl
@[simp] theorem modEng_port (e : Nat) (f : Engine → Engine) (k : Nat) : (s.modEng e f).port k = s.port k := rfl
@[simp] theorem modEng_tb (e : Nat) (f : Engine → Engine) (k : Nat) : (s.modEng e f).tb k = s.tb k := rfl
@[simp] theorem modEng_tbVal (e : Nat) (f : Engine → Engine) (k : Nat) : (s.modEng e f).tbVal k = s.tbVal k := rfl
@[simp] theorem modEng_me (e : Nat) (f : Engine → Engine) (k : Nat) : (s.modEng e f).me k = s.me k := rfl
@[simp] theorem modEng_mc (e : Nat) (f : Engine → Engine) (k : Nat) : (s.modEng e f).mc k = s.mc k := rfl
@[simp] theorem modEng_hq (e : Nat) (f : Engine → Engine) (k : Nat) : (s.modEng e f).hq k = s.hq k := rfl
@[simp] theorem modEng_link (e : Nat) (f : Engine → Engine) (k : Nat) : (s.modEng e f).link k = s.link k := rfl
@[simp] theorem modEng_warden (e : Nat) (f : Engine → Engine) (k : Nat) : (s.modEng e f).warden k = s.warden k := rfl
@[simp] theorem modEng_flag (e : Nat) (f : Engine → Engine) (d' : RegDesc) (i' j' : Nat) : (s.modEng e f).flag d' i' j' = s.flag d' i' j' := rfl

/-! ### modMe -/

@[simp] theorem modMe_pending (e : Nat) (f : MorEngine → MorEngine) : (s.modMe e f).pending = s.pending := rfl
@[simp] theorem modMe_now (e : Nat) (f : MorEngine → MorEngine) : (s.modMe e f).now = s.now := rfl
@[simp] theorem modMe_freeCtr (e : Nat) (f : MorEngine → MorEngine) : (s.modMe e f).freeCtr = s.freeCtr := rfl
@[simp] theorem modMe_regs (e : Nat) (f : MorEngine → MorEngine) : (s.modMe e f).regs = s.regs := rfl
@[simp] theorem modMe_sup (e : Nat) (f : MorEngine → MorEngine) : (s.modMe e f).sup = s.sup := rfl
@[simp] theorem modMe_time (e : Nat) (f : MorEngine → MorEngine) : (s.modMe e f).time = s.time := rfl
@[simp] theorem modMe_ports (e : Nat) (f : MorEngine → MorEngine) : (s.modMe e f).ports = s.ports := rfl
@[simp] theorem modMe_ing (e : Nat) (f : MorEngine → MorEngine) : (s.modMe e f).ing = s.ing := rfl
@[simp] theorem modMe_chans (e : Nat) (f : MorEngine → MorEngine) : (s.modMe e f).chans = s.chans := rfl
@[simp] theorem modMe_slots (e : Nat) (f : MorEngine → MorEngine) : (s.modMe e f).slots = s.slots := rfl
@[simp] theorem modMe_engines (e : Nat) (f : MorEngine → MorEngine) : (s.modMe e f).engines = s.engines := rfl
@[simp] theorem modMe_saved (e : Nat) (f : MorEngine → MorEngine) : (s.modMe e f).saved = s.saved := rfl
@[simp] theorem modMe_weldU (e : Nat) (f : MorEngine → MorEngine) : (s.modMe e f).weldU = s.weldU := rfl
@[simp] theorem modMe_glaze (e : Nat) (f : MorEngine → MorEngine) : (s.modMe e f).glaze = s.glaze := rfl
@[simp] theorem modMe_mem (e : Nat) (f : MorEngine → MorEngine) : (s.modMe e f).mem = s.mem := rfl
@[simp] theorem modMe_host (e : Nat) (f : MorEngine → MorEngine) : (s.modMe e f).host = s.host := rfl
@[simp] theorem modMe_cap (e : Nat) (f : MorEngine → MorEngine) : (s.modMe e f).cap = s.cap := rfl
@[simp] theorem modMe_ring (e : Nat) (f : MorEngine → MorEngine) : (s.modMe e f).ring = s.ring := rfl
@[simp] theorem modMe_img (e : Nat) (f : MorEngine → MorEngine) : (s.modMe e f).img = s.img := rfl
@[simp] theorem modMe_pwr (e : Nat) (f : MorEngine → MorEngine) : (s.modMe e f).pwr = s.pwr := rfl
@[simp] theorem modMe_rd (e : Nat) (f : MorEngine → MorEngine) (d' : RegDesc) (i' j' : Nat) : (s.modMe e f).rd d' i' j' = s.rd d' i' j' := rfl
@[simp] theorem modMe_chan (e : Nat) (f : MorEngine → MorEngine) (k : Nat) : (s.modMe e f).chan k = s.chan k := rfl
@[simp] theorem modMe_port (e : Nat) (f : MorEngine → MorEngine) (k : Nat) : (s.modMe e f).port k = s.port k := rfl
@[simp] theorem modMe_tb (e : Nat) (f : MorEngine → MorEngine) (k : Nat) : (s.modMe e f).tb k = s.tb k := rfl
@[simp] theorem modMe_tbVal (e : Nat) (f : MorEngine → MorEngine) (k : Nat) : (s.modMe e f).tbVal k = s.tbVal k := rfl
@[simp] theorem modMe_eng (e : Nat) (f : MorEngine → MorEngine) (k : Nat) : (s.modMe e f).eng k = s.eng k := rfl
@[simp] theorem modMe_mc (e : Nat) (f : MorEngine → MorEngine) (k : Nat) : (s.modMe e f).mc k = s.mc k := rfl
@[simp] theorem modMe_hq (e : Nat) (f : MorEngine → MorEngine) (k : Nat) : (s.modMe e f).hq k = s.hq k := rfl
@[simp] theorem modMe_link (e : Nat) (f : MorEngine → MorEngine) (k : Nat) : (s.modMe e f).link k = s.link k := rfl
@[simp] theorem modMe_warden (e : Nat) (f : MorEngine → MorEngine) (k : Nat) : (s.modMe e f).warden k = s.warden k := rfl
@[simp] theorem modMe_flag (e : Nat) (f : MorEngine → MorEngine) (d' : RegDesc) (i' j' : Nat) : (s.modMe e f).flag d' i' j' = s.flag d' i' j' := rfl

/-! ### modMc -/

@[simp] theorem modMc_pending (m : Nat) (f : Mc → Mc) : (s.modMc m f).pending = s.pending := rfl
@[simp] theorem modMc_now (m : Nat) (f : Mc → Mc) : (s.modMc m f).now = s.now := rfl
@[simp] theorem modMc_freeCtr (m : Nat) (f : Mc → Mc) : (s.modMc m f).freeCtr = s.freeCtr := rfl
@[simp] theorem modMc_regs (m : Nat) (f : Mc → Mc) : (s.modMc m f).regs = s.regs := rfl
@[simp] theorem modMc_sup (m : Nat) (f : Mc → Mc) : (s.modMc m f).sup = s.sup := rfl
@[simp] theorem modMc_time (m : Nat) (f : Mc → Mc) : (s.modMc m f).time = s.time := rfl
@[simp] theorem modMc_ports (m : Nat) (f : Mc → Mc) : (s.modMc m f).ports = s.ports := rfl
@[simp] theorem modMc_ing (m : Nat) (f : Mc → Mc) : (s.modMc m f).ing = s.ing := rfl
@[simp] theorem modMc_chans (m : Nat) (f : Mc → Mc) : (s.modMc m f).chans = s.chans := rfl
@[simp] theorem modMc_slots (m : Nat) (f : Mc → Mc) : (s.modMc m f).slots = s.slots := rfl
@[simp] theorem modMc_mor (m : Nat) (f : Mc → Mc) : (s.modMc m f).mor = s.mor := rfl
@[simp] theorem modMc_engines (m : Nat) (f : Mc → Mc) : (s.modMc m f).engines = s.engines := rfl
@[simp] theorem modMc_saved (m : Nat) (f : Mc → Mc) : (s.modMc m f).saved = s.saved := rfl
@[simp] theorem modMc_weldU (m : Nat) (f : Mc → Mc) : (s.modMc m f).weldU = s.weldU := rfl
@[simp] theorem modMc_glaze (m : Nat) (f : Mc → Mc) : (s.modMc m f).glaze = s.glaze := rfl
@[simp] theorem modMc_host (m : Nat) (f : Mc → Mc) : (s.modMc m f).host = s.host := rfl
@[simp] theorem modMc_cap (m : Nat) (f : Mc → Mc) : (s.modMc m f).cap = s.cap := rfl
@[simp] theorem modMc_ring (m : Nat) (f : Mc → Mc) : (s.modMc m f).ring = s.ring := rfl
@[simp] theorem modMc_img (m : Nat) (f : Mc → Mc) : (s.modMc m f).img = s.img := rfl
@[simp] theorem modMc_pwr (m : Nat) (f : Mc → Mc) : (s.modMc m f).pwr = s.pwr := rfl
@[simp] theorem modMc_rd (m : Nat) (f : Mc → Mc) (d' : RegDesc) (i' j' : Nat) : (s.modMc m f).rd d' i' j' = s.rd d' i' j' := rfl
@[simp] theorem modMc_chan (m : Nat) (f : Mc → Mc) (k : Nat) : (s.modMc m f).chan k = s.chan k := rfl
@[simp] theorem modMc_port (m : Nat) (f : Mc → Mc) (k : Nat) : (s.modMc m f).port k = s.port k := rfl
@[simp] theorem modMc_tb (m : Nat) (f : Mc → Mc) (k : Nat) : (s.modMc m f).tb k = s.tb k := rfl
@[simp] theorem modMc_tbVal (m : Nat) (f : Mc → Mc) (k : Nat) : (s.modMc m f).tbVal k = s.tbVal k := rfl
@[simp] theorem modMc_eng (m : Nat) (f : Mc → Mc) (k : Nat) : (s.modMc m f).eng k = s.eng k := rfl
@[simp] theorem modMc_me (m : Nat) (f : Mc → Mc) (k : Nat) : (s.modMc m f).me k = s.me k := rfl
@[simp] theorem modMc_hq (m : Nat) (f : Mc → Mc) (k : Nat) : (s.modMc m f).hq k = s.hq k := rfl
@[simp] theorem modMc_link (m : Nat) (f : Mc → Mc) (k : Nat) : (s.modMc m f).link k = s.link k := rfl
@[simp] theorem modMc_warden (m : Nat) (f : Mc → Mc) (k : Nat) : (s.modMc m f).warden k = s.warden k := rfl
@[simp] theorem modMc_flag (m : Nat) (f : Mc → Mc) (d' : RegDesc) (i' j' : Nat) : (s.modMc m f).flag d' i' j' = s.flag d' i' j' := rfl

/-! ### modHq -/

@[simp] theorem modHq_pending (q : Nat) (f : HostQ → HostQ) : (s.modHq q f).pending = s.pending := rfl
@[simp] theorem modHq_now (q : Nat) (f : HostQ → HostQ) : (s.modHq q f).now = s.now := rfl
@[simp] theorem modHq_freeCtr (q : Nat) (f : HostQ → HostQ) : (s.modHq q f).freeCtr = s.freeCtr := rfl
@[simp] theorem modHq_regs (q : Nat) (f : HostQ → HostQ) : (s.modHq q f).regs = s.regs := rfl
@[simp] theorem modHq_sup (q : Nat) (f : HostQ → HostQ) : (s.modHq q f).sup = s.sup := rfl
@[simp] theorem modHq_time (q : Nat) (f : HostQ → HostQ) : (s.modHq q f).time = s.time := rfl
@[simp] theorem modHq_ports (q : Nat) (f : HostQ → HostQ) : (s.modHq q f).ports = s.ports := rfl
@[simp] theorem modHq_ing (q : Nat) (f : HostQ → HostQ) : (s.modHq q f).ing = s.ing := rfl
@[simp] theorem modHq_chans (q : Nat) (f : HostQ → HostQ) : (s.modHq q f).chans = s.chans := rfl
@[simp] theorem modHq_slots (q : Nat) (f : HostQ → HostQ) : (s.modHq q f).slots = s.slots := rfl
@[simp] theorem modHq_mor (q : Nat) (f : HostQ → HostQ) : (s.modHq q f).mor = s.mor := rfl
@[simp] theorem modHq_engines (q : Nat) (f : HostQ → HostQ) : (s.modHq q f).engines = s.engines := rfl
@[simp] theorem modHq_saved (q : Nat) (f : HostQ → HostQ) : (s.modHq q f).saved = s.saved := rfl
@[simp] theorem modHq_weldU (q : Nat) (f : HostQ → HostQ) : (s.modHq q f).weldU = s.weldU := rfl
@[simp] theorem modHq_glaze (q : Nat) (f : HostQ → HostQ) : (s.modHq q f).glaze = s.glaze := rfl
@[simp] theorem modHq_mem (q : Nat) (f : HostQ → HostQ) : (s.modHq q f).mem = s.mem := rfl
@[simp] theorem modHq_cap (q : Nat) (f : HostQ → HostQ) : (s.modHq q f).cap = s.cap := rfl
@[simp] theorem modHq_ring (q : Nat) (f : HostQ → HostQ) : (s.modHq q f).ring = s.ring := rfl
@[simp] theorem modHq_img (q : Nat) (f : HostQ → HostQ) : (s.modHq q f).img = s.img := rfl
@[simp] theorem modHq_pwr (q : Nat) (f : HostQ → HostQ) : (s.modHq q f).pwr = s.pwr := rfl
@[simp] theorem modHq_rd (q : Nat) (f : HostQ → HostQ) (d' : RegDesc) (i' j' : Nat) : (s.modHq q f).rd d' i' j' = s.rd d' i' j' := rfl
@[simp] theorem modHq_chan (q : Nat) (f : HostQ → HostQ) (k : Nat) : (s.modHq q f).chan k = s.chan k := rfl
@[simp] theorem modHq_port (q : Nat) (f : HostQ → HostQ) (k : Nat) : (s.modHq q f).port k = s.port k := rfl
@[simp] theorem modHq_tb (q : Nat) (f : HostQ → HostQ) (k : Nat) : (s.modHq q f).tb k = s.tb k := rfl
@[simp] theorem modHq_tbVal (q : Nat) (f : HostQ → HostQ) (k : Nat) : (s.modHq q f).tbVal k = s.tbVal k := rfl
@[simp] theorem modHq_eng (q : Nat) (f : HostQ → HostQ) (k : Nat) : (s.modHq q f).eng k = s.eng k := rfl
@[simp] theorem modHq_me (q : Nat) (f : HostQ → HostQ) (k : Nat) : (s.modHq q f).me k = s.me k := rfl
@[simp] theorem modHq_mc (q : Nat) (f : HostQ → HostQ) (k : Nat) : (s.modHq q f).mc k = s.mc k := rfl
@[simp] theorem modHq_link (q : Nat) (f : HostQ → HostQ) (k : Nat) : (s.modHq q f).link k = s.link k := rfl
@[simp] theorem modHq_warden (q : Nat) (f : HostQ → HostQ) (k : Nat) : (s.modHq q f).warden k = s.warden k := rfl
@[simp] theorem modHq_flag (q : Nat) (f : HostQ → HostQ) (d' : RegDesc) (i' j' : Nat) : (s.modHq q f).flag d' i' j' = s.flag d' i' j' := rfl

/-! ### modLink -/

@[simp] theorem modLink_pending (x : Nat) (f : RingLink → RingLink) : (s.modLink x f).pending = s.pending := rfl
@[simp] theorem modLink_now (x : Nat) (f : RingLink → RingLink) : (s.modLink x f).now = s.now := rfl
@[simp] theorem modLink_freeCtr (x : Nat) (f : RingLink → RingLink) : (s.modLink x f).freeCtr = s.freeCtr := rfl
@[simp] theorem modLink_regs (x : Nat) (f : RingLink → RingLink) : (s.modLink x f).regs = s.regs := rfl
@[simp] theorem modLink_sup (x : Nat) (f : RingLink → RingLink) : (s.modLink x f).sup = s.sup := rfl
@[simp] theorem modLink_time (x : Nat) (f : RingLink → RingLink) : (s.modLink x f).time = s.time := rfl
@[simp] theorem modLink_ports (x : Nat) (f : RingLink → RingLink) : (s.modLink x f).ports = s.ports := rfl
@[simp] theorem modLink_ing (x : Nat) (f : RingLink → RingLink) : (s.modLink x f).ing = s.ing := rfl
@[simp] theorem modLink_chans (x : Nat) (f : RingLink → RingLink) : (s.modLink x f).chans = s.chans := rfl
@[simp] theorem modLink_slots (x : Nat) (f : RingLink → RingLink) : (s.modLink x f).slots = s.slots := rfl
@[simp] theorem modLink_mor (x : Nat) (f : RingLink → RingLink) : (s.modLink x f).mor = s.mor := rfl
@[simp] theorem modLink_engines (x : Nat) (f : RingLink → RingLink) : (s.modLink x f).engines = s.engines := rfl
@[simp] theorem modLink_saved (x : Nat) (f : RingLink → RingLink) : (s.modLink x f).saved = s.saved := rfl
@[simp] theorem modLink_weldU (x : Nat) (f : RingLink → RingLink) : (s.modLink x f).weldU = s.weldU := rfl
@[simp] theorem modLink_glaze (x : Nat) (f : RingLink → RingLink) : (s.modLink x f).glaze = s.glaze := rfl
@[simp] theorem modLink_mem (x : Nat) (f : RingLink → RingLink) : (s.modLink x f).mem = s.mem := rfl
@[simp] theorem modLink_host (x : Nat) (f : RingLink → RingLink) : (s.modLink x f).host = s.host := rfl
@[simp] theorem modLink_cap (x : Nat) (f : RingLink → RingLink) : (s.modLink x f).cap = s.cap := rfl
@[simp] theorem modLink_img (x : Nat) (f : RingLink → RingLink) : (s.modLink x f).img = s.img := rfl
@[simp] theorem modLink_pwr (x : Nat) (f : RingLink → RingLink) : (s.modLink x f).pwr = s.pwr := rfl
@[simp] theorem modLink_rd (x : Nat) (f : RingLink → RingLink) (d' : RegDesc) (i' j' : Nat) : (s.modLink x f).rd d' i' j' = s.rd d' i' j' := rfl
@[simp] theorem modLink_chan (x : Nat) (f : RingLink → RingLink) (k : Nat) : (s.modLink x f).chan k = s.chan k := rfl
@[simp] theorem modLink_port (x : Nat) (f : RingLink → RingLink) (k : Nat) : (s.modLink x f).port k = s.port k := rfl
@[simp] theorem modLink_tb (x : Nat) (f : RingLink → RingLink) (k : Nat) : (s.modLink x f).tb k = s.tb k := rfl
@[simp] theorem modLink_tbVal (x : Nat) (f : RingLink → RingLink) (k : Nat) : (s.modLink x f).tbVal k = s.tbVal k := rfl
@[simp] theorem modLink_eng (x : Nat) (f : RingLink → RingLink) (k : Nat) : (s.modLink x f).eng k = s.eng k := rfl
@[simp] theorem modLink_me (x : Nat) (f : RingLink → RingLink) (k : Nat) : (s.modLink x f).me k = s.me k := rfl
@[simp] theorem modLink_mc (x : Nat) (f : RingLink → RingLink) (k : Nat) : (s.modLink x f).mc k = s.mc k := rfl
@[simp] theorem modLink_hq (x : Nat) (f : RingLink → RingLink) (k : Nat) : (s.modLink x f).hq k = s.hq k := rfl
@[simp] theorem modLink_warden (x : Nat) (f : RingLink → RingLink) (k : Nat) : (s.modLink x f).warden k = s.warden k := rfl
@[simp] theorem modLink_flag (x : Nat) (f : RingLink → RingLink) (d' : RegDesc) (i' j' : Nat) : (s.modLink x f).flag d' i' j' = s.flag d' i' j' := rfl

/-! ### modWarden -/

@[simp] theorem modWarden_pending (w : Nat) (f : Warden → Warden) : (s.modWarden w f).pending = s.pending := rfl
@[simp] theorem modWarden_now (w : Nat) (f : Warden → Warden) : (s.modWarden w f).now = s.now := rfl
@[simp] theorem modWarden_freeCtr (w : Nat) (f : Warden → Warden) : (s.modWarden w f).freeCtr = s.freeCtr := rfl
@[simp] theorem modWarden_regs (w : Nat) (f : Warden → Warden) : (s.modWarden w f).regs = s.regs := rfl
@[simp] theorem modWarden_time (w : Nat) (f : Warden → Warden) : (s.modWarden w f).time = s.time := rfl
@[simp] theorem modWarden_ports (w : Nat) (f : Warden → Warden) : (s.modWarden w f).ports = s.ports := rfl
@[simp] theorem modWarden_ing (w : Nat) (f : Warden → Warden) : (s.modWarden w f).ing = s.ing := rfl
@[simp] theorem modWarden_chans (w : Nat) (f : Warden → Warden) : (s.modWarden w f).chans = s.chans := rfl
@[simp] theorem modWarden_slots (w : Nat) (f : Warden → Warden) : (s.modWarden w f).slots = s.slots := rfl
@[simp] theorem modWarden_mor (w : Nat) (f : Warden → Warden) : (s.modWarden w f).mor = s.mor := rfl
@[simp] theorem modWarden_engines (w : Nat) (f : Warden → Warden) : (s.modWarden w f).engines = s.engines := rfl
@[simp] theorem modWarden_saved (w : Nat) (f : Warden → Warden) : (s.modWarden w f).saved = s.saved := rfl
@[simp] theorem modWarden_weldU (w : Nat) (f : Warden → Warden) : (s.modWarden w f).weldU = s.weldU := rfl
@[simp] theorem modWarden_glaze (w : Nat) (f : Warden → Warden) : (s.modWarden w f).glaze = s.glaze := rfl
@[simp] theorem modWarden_mem (w : Nat) (f : Warden → Warden) : (s.modWarden w f).mem = s.mem := rfl
@[simp] theorem modWarden_host (w : Nat) (f : Warden → Warden) : (s.modWarden w f).host = s.host := rfl
@[simp] theorem modWarden_cap (w : Nat) (f : Warden → Warden) : (s.modWarden w f).cap = s.cap := rfl
@[simp] theorem modWarden_ring (w : Nat) (f : Warden → Warden) : (s.modWarden w f).ring = s.ring := rfl
@[simp] theorem modWarden_img (w : Nat) (f : Warden → Warden) : (s.modWarden w f).img = s.img := rfl
@[simp] theorem modWarden_pwr (w : Nat) (f : Warden → Warden) : (s.modWarden w f).pwr = s.pwr := rfl
@[simp] theorem modWarden_rd (w : Nat) (f : Warden → Warden) (d' : RegDesc) (i' j' : Nat) : (s.modWarden w f).rd d' i' j' = s.rd d' i' j' := rfl
@[simp] theorem modWarden_chan (w : Nat) (f : Warden → Warden) (k : Nat) : (s.modWarden w f).chan k = s.chan k := rfl
@[simp] theorem modWarden_port (w : Nat) (f : Warden → Warden) (k : Nat) : (s.modWarden w f).port k = s.port k := rfl
@[simp] theorem modWarden_tb (w : Nat) (f : Warden → Warden) (k : Nat) : (s.modWarden w f).tb k = s.tb k := rfl
@[simp] theorem modWarden_tbVal (w : Nat) (f : Warden → Warden) (k : Nat) : (s.modWarden w f).tbVal k = s.tbVal k := rfl
@[simp] theorem modWarden_eng (w : Nat) (f : Warden → Warden) (k : Nat) : (s.modWarden w f).eng k = s.eng k := rfl
@[simp] theorem modWarden_me (w : Nat) (f : Warden → Warden) (k : Nat) : (s.modWarden w f).me k = s.me k := rfl
@[simp] theorem modWarden_mc (w : Nat) (f : Warden → Warden) (k : Nat) : (s.modWarden w f).mc k = s.mc k := rfl
@[simp] theorem modWarden_hq (w : Nat) (f : Warden → Warden) (k : Nat) : (s.modWarden w f).hq k = s.hq k := rfl
@[simp] theorem modWarden_link (w : Nat) (f : Warden → Warden) (k : Nat) : (s.modWarden w f).link k = s.link k := rfl
@[simp] theorem modWarden_flag (w : Nat) (f : Warden → Warden) (d' : RegDesc) (i' j' : Nat) : (s.modWarden w f).flag d' i' j' = s.flag d' i' j' := rfl

/-! ### draw -/

@[simp] theorem draw_pending : (s.draw ).pending = s.pending := rfl
@[simp] theorem draw_now : (s.draw ).now = s.now := rfl
@[simp] theorem draw_regs : (s.draw ).regs = s.regs := rfl
@[simp] theorem draw_sup : (s.draw ).sup = s.sup := rfl
@[simp] theorem draw_time : (s.draw ).time = s.time := rfl
@[simp] theorem draw_ports : (s.draw ).ports = s.ports := rfl
@[simp] theorem draw_ing : (s.draw ).ing = s.ing := rfl
@[simp] theorem draw_chans : (s.draw ).chans = s.chans := rfl
@[simp] theorem draw_slots : (s.draw ).slots = s.slots := rfl
@[simp] theorem draw_mor : (s.draw ).mor = s.mor := rfl
@[simp] theorem draw_engines : (s.draw ).engines = s.engines := rfl
@[simp] theorem draw_saved : (s.draw ).saved = s.saved := rfl
@[simp] theorem draw_weldU : (s.draw ).weldU = s.weldU := rfl
@[simp] theorem draw_glaze : (s.draw ).glaze = s.glaze := rfl
@[simp] theorem draw_mem : (s.draw ).mem = s.mem := rfl
@[simp] theorem draw_host : (s.draw ).host = s.host := rfl
@[simp] theorem draw_cap : (s.draw ).cap = s.cap := rfl
@[simp] theorem draw_ring : (s.draw ).ring = s.ring := rfl
@[simp] theorem draw_img : (s.draw ).img = s.img := rfl
@[simp] theorem draw_pwr : (s.draw ).pwr = s.pwr := rfl
@[simp] theorem draw_rd (d' : RegDesc) (i' j' : Nat) : (s.draw ).rd d' i' j' = s.rd d' i' j' := rfl
@[simp] theorem draw_chan (k : Nat) : (s.draw ).chan k = s.chan k := rfl
@[simp] theorem draw_port (k : Nat) : (s.draw ).port k = s.port k := rfl
@[simp] theorem draw_tb (k : Nat) : (s.draw ).tb k = s.tb k := rfl
@[simp] theorem draw_tbVal (k : Nat) : (s.draw ).tbVal k = s.tbVal k := rfl
@[simp] theorem draw_eng (k : Nat) : (s.draw ).eng k = s.eng k := rfl
@[simp] theorem draw_me (k : Nat) : (s.draw ).me k = s.me k := rfl
@[simp] theorem draw_mc (k : Nat) : (s.draw ).mc k = s.mc k := rfl
@[simp] theorem draw_hq (k : Nat) : (s.draw ).hq k = s.hq k := rfl
@[simp] theorem draw_link (k : Nat) : (s.draw ).link k = s.link k := rfl
@[simp] theorem draw_warden (k : Nat) : (s.draw ).warden k = s.warden k := rfl
@[simp] theorem draw_flag (d' : RegDesc) (i' j' : Nat) : (s.draw ).flag d' i' j' = s.flag d' i' j' := rfl

/-! ### What an update writes -/

@[simp] theorem modPort_port_self (k : Nat) (f : Port → Port) : (s.modPort k f).port k = f (s.port k) := by simp [modPort, port]
theorem modPort_port_ne {k m : Nat} (f : Port → Port) (h : m ≠ k) : (s.modPort k f).port m = s.port m := by simp [modPort, port, h]
@[simp] theorem modTb_tb_self (k : Nat) (f : TimeBase → TimeBase) : (s.modTb k f).tb k = f (s.tb k) := by simp [modTb, tb]
theorem modTb_tb_ne {k m : Nat} (f : TimeBase → TimeBase) (h : m ≠ k) : (s.modTb k f).tb m = s.tb m := by simp [modTb, tb, h]
@[simp] theorem modEng_eng_self (k : Nat) (f : Engine → Engine) : (s.modEng k f).eng k = f (s.eng k) := by simp [modEng, eng]
theorem modEng_eng_ne {k m : Nat} (f : Engine → Engine) (h : m ≠ k) : (s.modEng k f).eng m = s.eng m := by simp [modEng, eng, h]
@[simp] theorem modMe_me_self (k : Nat) (f : MorEngine → MorEngine) : (s.modMe k f).me k = f (s.me k) := by simp [modMe, me]
theorem modMe_me_ne {k m : Nat} (f : MorEngine → MorEngine) (h : m ≠ k) : (s.modMe k f).me m = s.me m := by simp [modMe, me, h]
@[simp] theorem modMc_mc_self (k : Nat) (f : Mc → Mc) : (s.modMc k f).mc k = f (s.mc k) := by simp [modMc, mc]
theorem modMc_mc_ne {k m : Nat} (f : Mc → Mc) (h : m ≠ k) : (s.modMc k f).mc m = s.mc m := by simp [modMc, mc, h]
@[simp] theorem modHq_hq_self (k : Nat) (f : HostQ → HostQ) : (s.modHq k f).hq k = f (s.hq k) := by simp [modHq, hq]
theorem modHq_hq_ne {k m : Nat} (f : HostQ → HostQ) (h : m ≠ k) : (s.modHq k f).hq m = s.hq m := by simp [modHq, hq, h]
@[simp] theorem modLink_link_self (k : Nat) (f : RingLink → RingLink) : (s.modLink k f).link k = f (s.link k) := by simp [modLink, link]
theorem modLink_link_ne {k m : Nat} (f : RingLink → RingLink) (h : m ≠ k) : (s.modLink k f).link m = s.link m := by simp [modLink, link, h]
@[simp] theorem modWarden_warden_self (k : Nat) (f : Warden → Warden) : (s.modWarden k f).warden k = f (s.warden k) := by simp [modWarden, warden]
theorem modWarden_warden_ne {k m : Nat} (f : Warden → Warden) (h : m ≠ k) : (s.modWarden k f).warden m = s.warden m := by simp [modWarden, warden, h]
@[simp] theorem setChan_chan_self (k : Nat) (c : Chan) : (s.setChan k c).chan k = c := by simp [setChan, chan]
theorem setChan_chan_ne {k m : Nat} (c : Chan) (h : m ≠ k) : (s.setChan k c).chan m = s.chan m := by simp [setChan, chan, h]
@[simp] theorem modChan_chan_self (k : Nat) (f : Chan → Chan) : (s.modChan k f).chan k = f (s.chan k) := by simp [modChan]
theorem modChan_chan_ne {k m : Nat} (f : Chan → Chan) (h : m ≠ k) : (s.modChan k f).chan m = s.chan m := by
  simp [modChan, setChan_chan_ne s _ h]
@[simp] theorem draw_freeCtr : s.draw.freeCtr = s.freeCtr + 1 := rfl
@[simp] theorem setChan_chans (ch : Nat) (c : Chan) : (s.setChan ch c).chans = tset s.chans ch c {} := rfl
@[simp] theorem modMc_hostShared (m : Nat) (f : Mc → Mc) : (s.modMc m f).mem.hostShared = s.mem.hostShared := rfl

/-- A field reads as the value written, cut to its width. -/
@[simp] theorem rd_wr_self (d : RegDesc) (v i j : Nat) : (s.wr d v i j).rd d i j = v % 2 ^ d.width := by simp [rd, wr]

/-- A write leaves every field with another key alone. -/
theorem rd_wr_ne {d d' : RegDesc} (v : Nat) {i j i' j' : Nat} (h : d'.key i' j' ≠ d.key i j) :
    (s.wr d v i j).rd d' i' j' = s.rd d' i' j' := tget_tset_ne _ _ _ _ h

theorem flag_wr_self (d : RegDesc) (v i j : Nat) : (s.wr d v i j).flag d i j = (v % 2 ^ d.width != 0) := by simp [flag]

theorem flag_wr_ne {d d' : RegDesc} (v : Nat) {i j i' j' : Nat} (h : d'.key i' j' ≠ d.key i j) :
    (s.wr d v i j).flag d' i' j' = s.flag d' i' j' := by simp [flag, rd_wr_ne s v h]

theorem bump_eq (d : RegDesc) (i j : Nat) : s.bump d i j = s.wr d (s.rd d i j + 1) i j := rfl

/-- A counter that has counted one more event. -/
@[simp] theorem rd_bump_self (d : RegDesc) (i j : Nat) : (s.bump d i j).rd d i j = (s.rd d i j + 1) % 2 ^ d.width := by
  simp [bump_eq]

theorem rd_bump_ne {d d' : RegDesc} {i j i' j' : Nat} (h : d'.key i' j' ≠ d.key i j) :
    (s.bump d i j).rd d' i' j' = s.rd d' i' j' := by simp [bump_eq, rd_wr_ne s _ h]

end State

end Sys2Proof.Machine
end

