-- ==== Sys2Proof/Laws/Ops.lean ====
section
/-! SUPPORT. Laws of the shared operations: which parts of the state each leaves alone. An event, a completion or a notice touches the
supervisor, the host interface, registers and host-shared bytes, and nothing of channels, ports, engines, the ring or time. -/

namespace Sys2Proof.Machine

namespace State

variable (s : State)

/-! ### bump -/

@[simp] theorem bump_pending (d : RegDesc) (i j : Nat) : (s.bump d i j).pending = s.pending := rfl
@[simp] theorem bump_now (d : RegDesc) (i j : Nat) : (s.bump d i j).now = s.now := rfl
@[simp] theorem bump_freeCtr (d : RegDesc) (i j : Nat) : (s.bump d i j).freeCtr = s.freeCtr := rfl
@[simp] theorem bump_sup (d : RegDesc) (i j : Nat) : (s.bump d i j).sup = s.sup := rfl
@[simp] theorem bump_time (d : RegDesc) (i j : Nat) : (s.bump d i j).time = s.time := rfl
@[simp] theorem bump_ports (d : RegDesc) (i j : Nat) : (s.bump d i j).ports = s.ports := rfl
@[simp] theorem bump_ing (d : RegDesc) (i j : Nat) : (s.bump d i j).ing = s.ing := rfl
@[simp] theorem bump_chans (d : RegDesc) (i j : Nat) : (s.bump d i j).chans = s.chans := rfl
@[simp] theorem bump_slots (d : RegDesc) (i j : Nat) : (s.bump d i j).slots = s.slots := rfl
@[simp] theorem bump_mor (d : RegDesc) (i j : Nat) : (s.bump d i j).mor = s.mor := rfl
@[simp] theorem bump_engines (d : RegDesc) (i j : Nat) : (s.bump d i j).engines = s.engines := rfl
@[simp] theorem bump_saved (d : RegDesc) (i j : Nat) : (s.bump d i j).saved = s.saved := rfl
@[simp] theorem bump_weldU (d : RegDesc) (i j : Nat) : (s.bump d i j).weldU = s.weldU := rfl
@[simp] theorem bump_glaze (d : RegDesc) (i j : Nat) : (s.bump d i j).glaze = s.glaze := rfl
@[simp] theorem bump_mem (d : RegDesc) (i j : Nat) : (s.bump d i j).mem = s.mem := rfl
@[simp] theorem bump_host (d : RegDesc) (i j : Nat) : (s.bump d i j).host = s.host := rfl
@[simp] theorem bump_cap (d : RegDesc) (i j : Nat) : (s.bump d i j).cap = s.cap := rfl
@[simp] theorem bump_ring (d : RegDesc) (i j : Nat) : (s.bump d i j).ring = s.ring := rfl
@[simp] theorem bump_img (d : RegDesc) (i j : Nat) : (s.bump d i j).img = s.img := rfl
@[simp] theorem bump_pwr (d : RegDesc) (i j : Nat) : (s.bump d i j).pwr = s.pwr := rfl
@[simp] theorem bump_warden (d : RegDesc) (i j : Nat) (k : Nat) : (s.bump d i j).warden k = s.warden k := by simp [warden]
@[simp] theorem bump_tb (d : RegDesc) (i j : Nat) (k : Nat) : (s.bump d i j).tb k = s.tb k := by simp [tb]
@[simp] theorem bump_tbVal (d : RegDesc) (i j : Nat) (k : Nat) : (s.bump d i j).tbVal k = s.tbVal k := by simp [tbVal, tb]
@[simp] theorem bump_port (d : RegDesc) (i j : Nat) (k : Nat) : (s.bump d i j).port k = s.port k := by simp [port]
@[simp] theorem bump_chan (d : RegDesc) (i j : Nat) (k : Nat) : (s.bump d i j).chan k = s.chan k := by simp [chan]
@[simp] theorem bump_me (d : RegDesc) (i j : Nat) (k : Nat) : (s.bump d i j).me k = s.me k := by simp [me]
@[simp] theorem bump_eng (d : RegDesc) (i j : Nat) (k : Nat) : (s.bump d i j).eng k = s.eng k := by simp [eng]
@[simp] theorem bump_mc (d : RegDesc) (i j : Nat) (k : Nat) : (s.bump d i j).mc k = s.mc k := by simp [mc]
@[simp] theorem bump_hq (d : RegDesc) (i j : Nat) (k : Nat) : (s.bump d i j).hq k = s.hq k := by simp [hq]
@[simp] theorem bump_link (d : RegDesc) (i j : Nat) (k : Nat) : (s.bump d i j).link k = s.link k := by simp [link]

/-! ### bumpBy -/

@[simp] theorem bumpBy_pending (d : RegDesc) (n i j : Nat) : (s.bumpBy d n i j).pending = s.pending := rfl
@[simp] theorem bumpBy_now (d : RegDesc) (n i j : Nat) : (s.bumpBy d n i j).now = s.now := rfl
@[simp] theorem bumpBy_freeCtr (d : RegDesc) (n i j : Nat) : (s.bumpBy d n i j).freeCtr = s.freeCtr := rfl
@[simp] theorem bumpBy_sup (d : RegDesc) (n i j : Nat) : (s.bumpBy d n i j).sup = s.sup := rfl
@[simp] theorem bumpBy_time (d : RegDesc) (n i j : Nat) : (s.bumpBy d n i j).time = s.time := rfl
@[simp] theorem bumpBy_ports (d : RegDesc) (n i j : Nat) : (s.bumpBy d n i j).ports = s.ports := rfl
@[simp] theorem bumpBy_ing (d : RegDesc) (n i j : Nat) : (s.bumpBy d n i j).ing = s.ing := rfl
@[simp] theorem bumpBy_chans (d : RegDesc) (n i j : Nat) : (s.bumpBy d n i j).chans = s.chans := rfl
@[simp] theorem bumpBy_slots (d : RegDesc) (n i j : Nat) : (s.bumpBy d n i j).slots = s.slots := rfl
@[simp] theorem bumpBy_mor (d : RegDesc) (n i j : Nat) : (s.bumpBy d n i j).mor = s.mor := rfl
@[simp] theorem bumpBy_engines (d : RegDesc) (n i j : Nat) : (s.bumpBy d n i j).engines = s.engines := rfl
@[simp] theorem bumpBy_saved (d : RegDesc) (n i j : Nat) : (s.bumpBy d n i j).saved = s.saved := rfl
@[simp] theorem bumpBy_weldU (d : RegDesc) (n i j : Nat) : (s.bumpBy d n i j).weldU = s.weldU := rfl
@[simp] theorem bumpBy_glaze (d : RegDesc) (n i j : Nat) : (s.bumpBy d n i j).glaze = s.glaze := rfl
@[simp] theorem bumpBy_mem (d : RegDesc) (n i j : Nat) : (s.bumpBy d n i j).mem = s.mem := rfl
@[simp] theorem bumpBy_host (d : RegDesc) (n i j : Nat) : (s.bumpBy d n i j).host = s.host := rfl
@[simp] theorem bumpBy_cap (d : RegDesc) (n i j : Nat) : (s.bumpBy d n i j).cap = s.cap := rfl
@[simp] theorem bumpBy_ring (d : RegDesc) (n i j : Nat) : (s.bumpBy d n i j).ring = s.ring := rfl
@[simp] theorem bumpBy_img (d : RegDesc) (n i j : Nat) : (s.bumpBy d n i j).img = s.img := rfl
@[simp] theorem bumpBy_pwr (d : RegDesc) (n i j : Nat) : (s.bumpBy d n i j).pwr = s.pwr := rfl
@[simp] theorem bumpBy_warden (d : RegDesc) (n i j : Nat) (k : Nat) : (s.bumpBy d n i j).warden k = s.warden k := by simp [warden]
@[simp] theorem bumpBy_tb (d : RegDesc) (n i j : Nat) (k : Nat) : (s.bumpBy d n i j).tb k = s.tb k := by simp [tb]
@[simp] theorem bumpBy_tbVal (d : RegDesc) (n i j : Nat) (k : Nat) : (s.bumpBy d n i j).tbVal k = s.tbVal k := by simp [tbVal, tb]
@[simp] theorem bumpBy_port (d : RegDesc) (n i j : Nat) (k : Nat) : (s.bumpBy d n i j).port k = s.port k := by simp [port]
@[simp] theorem bumpBy_chan (d : RegDesc) (n i j : Nat) (k : Nat) : (s.bumpBy d n i j).chan k = s.chan k := by simp [chan]
@[simp] theorem bumpBy_me (d : RegDesc) (n i j : Nat) (k : Nat) : (s.bumpBy d n i j).me k = s.me k := by simp [me]
@[simp] theorem bumpBy_eng (d : RegDesc) (n i j : Nat) (k : Nat) : (s.bumpBy d n i j).eng k = s.eng k := by simp [eng]
@[simp] theorem bumpBy_mc (d : RegDesc) (n i j : Nat) (k : Nat) : (s.bumpBy d n i j).mc k = s.mc k := by simp [mc]
@[simp] theorem bumpBy_hq (d : RegDesc) (n i j : Nat) (k : Nat) : (s.bumpBy d n i j).hq k = s.hq k := by simp [hq]
@[simp] theorem bumpBy_link (d : RegDesc) (n i j : Nat) (k : Nat) : (s.bumpBy d n i j).link k = s.link k := by simp [link]

/-! ### highWater -/

@[simp] theorem highWater_pending (d : RegDesc) (v i j : Nat) : (s.highWater d v i j).pending = s.pending := rfl
@[simp] theorem highWater_now (d : RegDesc) (v i j : Nat) : (s.highWater d v i j).now = s.now := rfl
@[simp] theorem highWater_freeCtr (d : RegDesc) (v i j : Nat) : (s.highWater d v i j).freeCtr = s.freeCtr := rfl
@[simp] theorem highWater_sup (d : RegDesc) (v i j : Nat) : (s.highWater d v i j).sup = s.sup := rfl
@[simp] theorem highWater_time (d : RegDesc) (v i j : Nat) : (s.highWater d v i j).time = s.time := rfl
@[simp] theorem highWater_ports (d : RegDesc) (v i j : Nat) : (s.highWater d v i j).ports = s.ports := rfl
@[simp] theorem highWater_ing (d : RegDesc) (v i j : Nat) : (s.highWater d v i j).ing = s.ing := rfl
@[simp] theorem highWater_chans (d : RegDesc) (v i j : Nat) : (s.highWater d v i j).chans = s.chans := rfl
@[simp] theorem highWater_slots (d : RegDesc) (v i j : Nat) : (s.highWater d v i j).slots = s.slots := rfl
@[simp] theorem highWater_mor (d : RegDesc) (v i j : Nat) : (s.highWater d v i j).mor = s.mor := rfl
@[simp] theorem highWater_engines (d : RegDesc) (v i j : Nat) : (s.highWater d v i j).engines = s.engines := rfl
@[simp] theorem highWater_saved (d : RegDesc) (v i j : Nat) : (s.highWater d v i j).saved = s.saved := rfl
@[simp] theorem highWater_weldU (d : RegDesc) (v i j : Nat) : (s.highWater d v i j).weldU = s.weldU := rfl
@[simp] theorem highWater_glaze (d : RegDesc) (v i j : Nat) : (s.highWater d v i j).glaze = s.glaze := rfl
@[simp] theorem highWater_mem (d : RegDesc) (v i j : Nat) : (s.highWater d v i j).mem = s.mem := rfl
@[simp] theorem highWater_host (d : RegDesc) (v i j : Nat) : (s.highWater d v i j).host = s.host := rfl
@[simp] theorem highWater_cap (d : RegDesc) (v i j : Nat) : (s.highWater d v i j).cap = s.cap := rfl
@[simp] theorem highWater_ring (d : RegDesc) (v i j : Nat) : (s.highWater d v i j).ring = s.ring := rfl
@[simp] theorem highWater_img (d : RegDesc) (v i j : Nat) : (s.highWater d v i j).img = s.img := rfl
@[simp] theorem highWater_pwr (d : RegDesc) (v i j : Nat) : (s.highWater d v i j).pwr = s.pwr := rfl
@[simp] theorem highWater_warden (d : RegDesc) (v i j : Nat) (k : Nat) : (s.highWater d v i j).warden k = s.warden k := by simp [warden]
@[simp] theorem highWater_tb (d : RegDesc) (v i j : Nat) (k : Nat) : (s.highWater d v i j).tb k = s.tb k := by simp [tb]
@[simp] theorem highWater_tbVal (d : RegDesc) (v i j : Nat) (k : Nat) : (s.highWater d v i j).tbVal k = s.tbVal k := by simp [tbVal, tb]
@[simp] theorem highWater_port (d : RegDesc) (v i j : Nat) (k : Nat) : (s.highWater d v i j).port k = s.port k := by simp [port]
@[simp] theorem highWater_chan (d : RegDesc) (v i j : Nat) (k : Nat) : (s.highWater d v i j).chan k = s.chan k := by simp [chan]
@[simp] theorem highWater_me (d : RegDesc) (v i j : Nat) (k : Nat) : (s.highWater d v i j).me k = s.me k := by simp [me]
@[simp] theorem highWater_eng (d : RegDesc) (v i j : Nat) (k : Nat) : (s.highWater d v i j).eng k = s.eng k := by simp [eng]
@[simp] theorem highWater_mc (d : RegDesc) (v i j : Nat) (k : Nat) : (s.highWater d v i j).mc k = s.mc k := by simp [mc]
@[simp] theorem highWater_hq (d : RegDesc) (v i j : Nat) (k : Nat) : (s.highWater d v i j).hq k = s.hq k := by simp [hq]
@[simp] theorem highWater_link (d : RegDesc) (v i j : Nat) (k : Nat) : (s.highWater d v i j).link k = s.link k := by simp [link]

/-! ### msi -/

@[simp] theorem msi_pending (v : Nat) : (s.msi v).pending = s.pending := by unfold State.msi; split <;> rfl
@[simp] theorem msi_now (v : Nat) : (s.msi v).now = s.now := by unfold State.msi; split <;> rfl
@[simp] theorem msi_freeCtr (v : Nat) : (s.msi v).freeCtr = s.freeCtr := by unfold State.msi; split <;> rfl
@[simp] theorem msi_regs (v : Nat) : (s.msi v).regs = s.regs := by unfold State.msi; split <;> rfl
@[simp] theorem msi_sup (v : Nat) : (s.msi v).sup = s.sup := by unfold State.msi; split <;> rfl
@[simp] theorem msi_time (v : Nat) : (s.msi v).time = s.time := by unfold State.msi; split <;> rfl
@[simp] theorem msi_ports (v : Nat) : (s.msi v).ports = s.ports := by unfold State.msi; split <;> rfl
@[simp] theorem msi_ing (v : Nat) : (s.msi v).ing = s.ing := by unfold State.msi; split <;> rfl
@[simp] theorem msi_chans (v : Nat) : (s.msi v).chans = s.chans := by unfold State.msi; split <;> rfl
@[simp] theorem msi_slots (v : Nat) : (s.msi v).slots = s.slots := by unfold State.msi; split <;> rfl
@[simp] theorem msi_mor (v : Nat) : (s.msi v).mor = s.mor := by unfold State.msi; split <;> rfl
@[simp] theorem msi_engines (v : Nat) : (s.msi v).engines = s.engines := by unfold State.msi; split <;> rfl
@[simp] theorem msi_saved (v : Nat) : (s.msi v).saved = s.saved := by unfold State.msi; split <;> rfl
@[simp] theorem msi_weldU (v : Nat) : (s.msi v).weldU = s.weldU := by unfold State.msi; split <;> rfl
@[simp] theorem msi_glaze (v : Nat) : (s.msi v).glaze = s.glaze := by unfold State.msi; split <;> rfl
@[simp] theorem msi_mem (v : Nat) : (s.msi v).mem = s.mem := by unfold State.msi; split <;> rfl
@[simp] theorem msi_cap (v : Nat) : (s.msi v).cap = s.cap := by unfold State.msi; split <;> rfl
@[simp] theorem msi_ring (v : Nat) : (s.msi v).ring = s.ring := by unfold State.msi; split <;> rfl
@[simp] theorem msi_img (v : Nat) : (s.msi v).img = s.img := by unfold State.msi; split <;> rfl
@[simp] theorem msi_pwr (v : Nat) : (s.msi v).pwr = s.pwr := by unfold State.msi; split <;> rfl
@[simp] theorem msi_rd (v : Nat) (d' : RegDesc) (i' j' : Nat) : (s.msi v).rd d' i' j' = s.rd d' i' j' := by simp [rd]
@[simp] theorem msi_flag (v : Nat) (d' : RegDesc) (i' j' : Nat) : (s.msi v).flag d' i' j' = s.flag d' i' j' := by simp [flag, rd]
@[simp] theorem msi_warden (v : Nat) (k : Nat) : (s.msi v).warden k = s.warden k := by simp [warden]
@[simp] theorem msi_tb (v : Nat) (k : Nat) : (s.msi v).tb k = s.tb k := by simp [tb]
@[simp] theorem msi_tbVal (v : Nat) (k : Nat) : (s.msi v).tbVal k = s.tbVal k := by simp [tbVal, tb]
@[simp] theorem msi_port (v : Nat) (k : Nat) : (s.msi v).port k = s.port k := by simp [port]
@[simp] theorem msi_chan (v : Nat) (k : Nat) : (s.msi v).chan k = s.chan k := by simp [chan]
@[simp] theorem msi_me (v : Nat) (k : Nat) : (s.msi v).me k = s.me k := by simp [me]
@[simp] theorem msi_eng (v : Nat) (k : Nat) : (s.msi v).eng k = s.eng k := by simp [eng]
@[simp] theorem msi_mc (v : Nat) (k : Nat) : (s.msi v).mc k = s.mc k := by simp [mc]
@[simp] theorem msi_link (v : Nat) (k : Nat) : (s.msi v).link k = s.link k := by simp [link]

/-! ### boot -/

@[simp] theorem boot_pending (b : Nat) : (s.boot b).pending = s.pending := by unfold State.boot; dsimp only; (repeat' split) <;> simp
@[simp] theorem boot_now (b : Nat) : (s.boot b).now = s.now := by unfold State.boot; dsimp only; (repeat' split) <;> simp
@[simp] theorem boot_freeCtr (b : Nat) : (s.boot b).freeCtr = s.freeCtr := by unfold State.boot; dsimp only; (repeat' split) <;> simp
@[simp] theorem boot_sup (b : Nat) : (s.boot b).sup = s.sup := by unfold State.boot; dsimp only; (repeat' split) <;> simp
@[simp] theorem boot_time (b : Nat) : (s.boot b).time = s.time := by unfold State.boot; dsimp only; (repeat' split) <;> simp
@[simp] theorem boot_ports (b : Nat) : (s.boot b).ports = s.ports := by unfold State.boot; dsimp only; (repeat' split) <;> simp
@[simp] theorem boot_ing (b : Nat) : (s.boot b).ing = s.ing := by unfold State.boot; dsimp only; (repeat' split) <;> simp
@[simp] theorem boot_chans (b : Nat) : (s.boot b).chans = s.chans := by unfold State.boot; dsimp only; (repeat' split) <;> simp
@[simp] theorem boot_slots (b : Nat) : (s.boot b).slots = s.slots := by unfold State.boot; dsimp only; (repeat' split) <;> simp
@[simp] theorem boot_mor (b : Nat) : (s.boot b).mor = s.mor := by unfold State.boot; dsimp only; (repeat' split) <;> simp
@[simp] theorem boot_engines (b : Nat) : (s.boot b).engines = s.engines := by unfold State.boot; dsimp only; (repeat' split) <;> simp
@[simp] theorem boot_saved (b : Nat) : (s.boot b).saved = s.saved := by unfold State.boot; dsimp only; (repeat' split) <;> simp
@[simp] theorem boot_weldU (b : Nat) : (s.boot b).weldU = s.weldU := by unfold State.boot; dsimp only; (repeat' split) <;> simp
@[simp] theorem boot_glaze (b : Nat) : (s.boot b).glaze = s.glaze := by unfold State.boot; dsimp only; (repeat' split) <;> simp
@[simp] theorem boot_mem (b : Nat) : (s.boot b).mem = s.mem := by unfold State.boot; dsimp only; (repeat' split) <;> simp
@[simp] theorem boot_cap (b : Nat) : (s.boot b).cap = s.cap := by unfold State.boot; dsimp only; (repeat' split) <;> simp
@[simp] theorem boot_ring (b : Nat) : (s.boot b).ring = s.ring := by unfold State.boot; dsimp only; (repeat' split) <;> simp
@[simp] theorem boot_img (b : Nat) : (s.boot b).img = s.img := by unfold State.boot; dsimp only; (repeat' split) <;> simp
@[simp] theorem boot_pwr (b : Nat) : (s.boot b).pwr = s.pwr := by unfold State.boot; dsimp only; (repeat' split) <;> simp
@[simp] theorem boot_warden (b : Nat) (k : Nat) : (s.boot b).warden k = s.warden k := by simp [warden]
@[simp] theorem boot_tb (b : Nat) (k : Nat) : (s.boot b).tb k = s.tb k := by simp [tb]
@[simp] theorem boot_tbVal (b : Nat) (k : Nat) : (s.boot b).tbVal k = s.tbVal k := by simp [tbVal, tb]
@[simp] theorem boot_port (b : Nat) (k : Nat) : (s.boot b).port k = s.port k := by simp [port]
@[simp] theorem boot_chan (b : Nat) (k : Nat) : (s.boot b).chan k = s.chan k := by simp [chan]
@[simp] theorem boot_me (b : Nat) (k : Nat) : (s.boot b).me k = s.me k := by simp [me]
@[simp] theorem boot_eng (b : Nat) (k : Nat) : (s.boot b).eng k = s.eng k := by simp [eng]
@[simp] theorem boot_mc (b : Nat) (k : Nat) : (s.boot b).mc k = s.mc k := by simp [mc]
@[simp] theorem boot_link (b : Nat) (k : Nat) : (s.boot b).link k = s.link k := by simp [link]

/-! ### logRec -/

@[simp] theorem logRec_pending (sev : Nat) (e : EventRec) : (s.logRec sev e).pending = s.pending := by unfold State.logRec; simp
@[simp] theorem logRec_now (sev : Nat) (e : EventRec) : (s.logRec sev e).now = s.now := by unfold State.logRec; simp
@[simp] theorem logRec_freeCtr (sev : Nat) (e : EventRec) : (s.logRec sev e).freeCtr = s.freeCtr := by unfold State.logRec; simp
@[simp] theorem logRec_regs (sev : Nat) (e : EventRec) : (s.logRec sev e).regs = s.regs := by unfold State.logRec; simp
@[simp] theorem logRec_time (sev : Nat) (e : EventRec) : (s.logRec sev e).time = s.time := by unfold State.logRec; simp
@[simp] theorem logRec_ports (sev : Nat) (e : EventRec) : (s.logRec sev e).ports = s.ports := by unfold State.logRec; simp
@[simp] theorem logRec_ing (sev : Nat) (e : EventRec) : (s.logRec sev e).ing = s.ing := by unfold State.logRec; simp
@[simp] theorem logRec_chans (sev : Nat) (e : EventRec) : (s.logRec sev e).chans = s.chans := by unfold State.logRec; simp
@[simp] theorem logRec_slots (sev : Nat) (e : EventRec) : (s.logRec sev e).slots = s.slots := by unfold State.logRec; simp
@[simp] theorem logRec_mor (sev : Nat) (e : EventRec) : (s.logRec sev e).mor = s.mor := by unfold State.logRec; simp
@[simp] theorem logRec_engines (sev : Nat) (e : EventRec) : (s.logRec sev e).engines = s.engines := by unfold State.logRec; simp
@[simp] theorem logRec_saved (sev : Nat) (e : EventRec) : (s.logRec sev e).saved = s.saved := by unfold State.logRec; simp
@[simp] theorem logRec_weldU (sev : Nat) (e : EventRec) : (s.logRec sev e).weldU = s.weldU := by unfold State.logRec; simp
@[simp] theorem logRec_glaze (sev : Nat) (e : EventRec) : (s.logRec sev e).glaze = s.glaze := by unfold State.logRec; simp
@[simp] theorem logRec_mem (sev : Nat) (e : EventRec) : (s.logRec sev e).mem = s.mem := by unfold State.logRec; simp
@[simp] theorem logRec_cap (sev : Nat) (e : EventRec) : (s.logRec sev e).cap = s.cap := by unfold State.logRec; simp
@[simp] theorem logRec_ring (sev : Nat) (e : EventRec) : (s.logRec sev e).ring = s.ring := by unfold State.logRec; simp
@[simp] theorem logRec_img (sev : Nat) (e : EventRec) : (s.logRec sev e).img = s.img := by unfold State.logRec; simp
@[simp] theorem logRec_pwr (sev : Nat) (e : EventRec) : (s.logRec sev e).pwr = s.pwr := by unfold State.logRec; simp
@[simp] theorem logRec_rd (sev : Nat) (e : EventRec) (d' : RegDesc) (i' j' : Nat) : (s.logRec sev e).rd d' i' j' = s.rd d' i' j' := by simp [rd]
@[simp] theorem logRec_flag (sev : Nat) (e : EventRec) (d' : RegDesc) (i' j' : Nat) : (s.logRec sev e).flag d' i' j' = s.flag d' i' j' := by simp [flag, rd]
@[simp] theorem logRec_tb (sev : Nat) (e : EventRec) (k : Nat) : (s.logRec sev e).tb k = s.tb k := by simp [tb]
@[simp] theorem logRec_tbVal (sev : Nat) (e : EventRec) (k : Nat) : (s.logRec sev e).tbVal k = s.tbVal k := by simp [tbVal, tb]
@[simp] theorem logRec_port (sev : Nat) (e : EventRec) (k : Nat) : (s.logRec sev e).port k = s.port k := by simp [port]
@[simp] theorem logRec_chan (sev : Nat) (e : EventRec) (k : Nat) : (s.logRec sev e).chan k = s.chan k := by simp [chan]
@[simp] theorem logRec_me (sev : Nat) (e : EventRec) (k : Nat) : (s.logRec sev e).me k = s.me k := by simp [me]
@[simp] theorem logRec_eng (sev : Nat) (e : EventRec) (k : Nat) : (s.logRec sev e).eng k = s.eng k := by simp [eng]
@[simp] theorem logRec_mc (sev : Nat) (e : EventRec) (k : Nat) : (s.logRec sev e).mc k = s.mc k := by simp [mc]
@[simp] theorem logRec_link (sev : Nat) (e : EventRec) (k : Nat) : (s.logRec sev e).link k = s.link k := by simp [link]

/-! ### flushEvent -/

@[simp] theorem flushEvent_pending (e : EventRec) : (s.flushEvent e).pending = s.pending := by unfold State.flushEvent; dsimp only; (repeat' split) <;> simp
@[simp] theorem flushEvent_now (e : EventRec) : (s.flushEvent e).now = s.now := by unfold State.flushEvent; dsimp only; (repeat' split) <;> simp
@[simp] theorem flushEvent_freeCtr (e : EventRec) : (s.flushEvent e).freeCtr = s.freeCtr := by unfold State.flushEvent; dsimp only; (repeat' split) <;> simp
@[simp] theorem flushEvent_regs (e : EventRec) : (s.flushEvent e).regs = s.regs := by unfold State.flushEvent; dsimp only; (repeat' split) <;> simp
@[simp] theorem flushEvent_time (e : EventRec) : (s.flushEvent e).time = s.time := by unfold State.flushEvent; dsimp only; (repeat' split) <;> simp
@[simp] theorem flushEvent_ports (e : EventRec) : (s.flushEvent e).ports = s.ports := by unfold State.flushEvent; dsimp only; (repeat' split) <;> simp
@[simp] theorem flushEvent_ing (e : EventRec) : (s.flushEvent e).ing = s.ing := by unfold State.flushEvent; dsimp only; (repeat' split) <;> simp
@[simp] theorem flushEvent_chans (e : EventRec) : (s.flushEvent e).chans = s.chans := by unfold State.flushEvent; dsimp only; (repeat' split) <;> simp
@[simp] theorem flushEvent_slots (e : EventRec) : (s.flushEvent e).slots = s.slots := by unfold State.flushEvent; dsimp only; (repeat' split) <;> simp
@[simp] theorem flushEvent_mor (e : EventRec) : (s.flushEvent e).mor = s.mor := by unfold State.flushEvent; dsimp only; (repeat' split) <;> simp
@[simp] theorem flushEvent_engines (e : EventRec) : (s.flushEvent e).engines = s.engines := by unfold State.flushEvent; dsimp only; (repeat' split) <;> simp
@[simp] theorem flushEvent_saved (e : EventRec) : (s.flushEvent e).saved = s.saved := by unfold State.flushEvent; dsimp only; (repeat' split) <;> simp
@[simp] theorem flushEvent_weldU (e : EventRec) : (s.flushEvent e).weldU = s.weldU := by unfold State.flushEvent; dsimp only; (repeat' split) <;> simp
@[simp] theorem flushEvent_glaze (e : EventRec) : (s.flushEvent e).glaze = s.glaze := by unfold State.flushEvent; dsimp only; (repeat' split) <;> simp
@[simp] theorem flushEvent_mem (e : EventRec) : (s.flushEvent e).mem = s.mem := by unfold State.flushEvent; dsimp only; (repeat' split) <;> simp
@[simp] theorem flushEvent_cap (e : EventRec) : (s.flushEvent e).cap = s.cap := by unfold State.flushEvent; dsimp only; (repeat' split) <;> simp
@[simp] theorem flushEvent_ring (e : EventRec) : (s.flushEvent e).ring = s.ring := by unfold State.flushEvent; dsimp only; (repeat' split) <;> simp
@[simp] theorem flushEvent_img (e : EventRec) : (s.flushEvent e).img = s.img := by unfold State.flushEvent; dsimp only; (repeat' split) <;> simp
@[simp] theorem flushEvent_pwr (e : EventRec) : (s.flushEvent e).pwr = s.pwr := by unfold State.flushEvent; dsimp only; (repeat' split) <;> simp
@[simp] theorem flushEvent_rd (e : EventRec) (d' : RegDesc) (i' j' : Nat) : (s.flushEvent e).rd d' i' j' = s.rd d' i' j' := by simp [rd]
@[simp] theorem flushEvent_flag (e : EventRec) (d' : RegDesc) (i' j' : Nat) : (s.flushEvent e).flag d' i' j' = s.flag d' i' j' := by simp [flag, rd]
@[simp] theorem flushEvent_tb (e : EventRec) (k : Nat) : (s.flushEvent e).tb k = s.tb k := by simp [tb]
@[simp] theorem flushEvent_tbVal (e : EventRec) (k : Nat) : (s.flushEvent e).tbVal k = s.tbVal k := by simp [tbVal, tb]
@[simp] theorem flushEvent_port (e : EventRec) (k : Nat) : (s.flushEvent e).port k = s.port k := by simp [port]
@[simp] theorem flushEvent_chan (e : EventRec) (k : Nat) : (s.flushEvent e).chan k = s.chan k := by simp [chan]
@[simp] theorem flushEvent_me (e : EventRec) (k : Nat) : (s.flushEvent e).me k = s.me k := by simp [me]
@[simp] theorem flushEvent_eng (e : EventRec) (k : Nat) : (s.flushEvent e).eng k = s.eng k := by simp [eng]
@[simp] theorem flushEvent_mc (e : EventRec) (k : Nat) : (s.flushEvent e).mc k = s.mc k := by simp [mc]
@[simp] theorem flushEvent_link (e : EventRec) (k : Nat) : (s.flushEvent e).link k = s.link k := by simp [link]

/-! ### raiseRec -/

@[simp] theorem raiseRec_pending (sev : Nat) (e : EventRec) : (s.raiseRec sev e).pending = s.pending := by unfold State.raiseRec; dsimp only; (repeat' split) <;> simp [State.bump_eq]
@[simp] theorem raiseRec_now (sev : Nat) (e : EventRec) : (s.raiseRec sev e).now = s.now := by unfold State.raiseRec; dsimp only; (repeat' split) <;> simp [State.bump_eq]
@[simp] theorem raiseRec_freeCtr (sev : Nat) (e : EventRec) : (s.raiseRec sev e).freeCtr = s.freeCtr := by unfold State.raiseRec; dsimp only; (repeat' split) <;> simp [State.bump_eq]
@[simp] theorem raiseRec_time (sev : Nat) (e : EventRec) : (s.raiseRec sev e).time = s.time := by unfold State.raiseRec; dsimp only; (repeat' split) <;> simp [State.bump_eq]
@[simp] theorem raiseRec_ports (sev : Nat) (e : EventRec) : (s.raiseRec sev e).ports = s.ports := by unfold State.raiseRec; dsimp only; (repeat' split) <;> simp [State.bump_eq]
@[simp] theorem raiseRec_ing (sev : Nat) (e : EventRec) : (s.raiseRec sev e).ing = s.ing := by unfold State.raiseRec; dsimp only; (repeat' split) <;> simp [State.bump_eq]
@[simp] theorem raiseRec_chans (sev : Nat) (e : EventRec) : (s.raiseRec sev e).chans = s.chans := by unfold State.raiseRec; dsimp only; (repeat' split) <;> simp [State.bump_eq]
@[simp] theorem raiseRec_slots (sev : Nat) (e : EventRec) : (s.raiseRec sev e).slots = s.slots := by unfold State.raiseRec; dsimp only; (repeat' split) <;> simp [State.bump_eq]
@[simp] theorem raiseRec_mor (sev : Nat) (e : EventRec) : (s.raiseRec sev e).mor = s.mor := by unfold State.raiseRec; dsimp only; (repeat' split) <;> simp [State.bump_eq]
@[simp] theorem raiseRec_engines (sev : Nat) (e : EventRec) : (s.raiseRec sev e).engines = s.engines := by unfold State.raiseRec; dsimp only; (repeat' split) <;> simp [State.bump_eq]
@[simp] theorem raiseRec_saved (sev : Nat) (e : EventRec) : (s.raiseRec sev e).saved = s.saved := by unfold State.raiseRec; dsimp only; (repeat' split) <;> simp [State.bump_eq]
@[simp] theorem raiseRec_weldU (sev : Nat) (e : EventRec) : (s.raiseRec sev e).weldU = s.weldU := by unfold State.raiseRec; dsimp only; (repeat' split) <;> simp [State.bump_eq]
@[simp] theorem raiseRec_glaze (sev : Nat) (e : EventRec) : (s.raiseRec sev e).glaze = s.glaze := by unfold State.raiseRec; dsimp only; (repeat' split) <;> simp [State.bump_eq]
@[simp] theorem raiseRec_mem (sev : Nat) (e : EventRec) : (s.raiseRec sev e).mem = s.mem := by unfold State.raiseRec; dsimp only; (repeat' split) <;> simp [State.bump_eq]
@[simp] theorem raiseRec_cap (sev : Nat) (e : EventRec) : (s.raiseRec sev e).cap = s.cap := by unfold State.raiseRec; dsimp only; (repeat' split) <;> simp [State.bump_eq]
@[simp] theorem raiseRec_ring (sev : Nat) (e : EventRec) : (s.raiseRec sev e).ring = s.ring := by unfold State.raiseRec; dsimp only; (repeat' split) <;> simp [State.bump_eq]
@[simp] theorem raiseRec_img (sev : Nat) (e : EventRec) : (s.raiseRec sev e).img = s.img := by unfold State.raiseRec; dsimp only; (repeat' split) <;> simp [State.bump_eq]
@[simp] theorem raiseRec_pwr (sev : Nat) (e : EventRec) : (s.raiseRec sev e).pwr = s.pwr := by unfold State.raiseRec; dsimp only; (repeat' split) <;> simp [State.bump_eq]
@[simp] theorem raiseRec_tb (sev : Nat) (e : EventRec) (k : Nat) : (s.raiseRec sev e).tb k = s.tb k := by simp [tb]
@[simp] theorem raiseRec_tbVal (sev : Nat) (e : EventRec) (k : Nat) : (s.raiseRec sev e).tbVal k = s.tbVal k := by simp [tbVal, tb]
@[simp] theorem raiseRec_port (sev : Nat) (e : EventRec) (k : Nat) : (s.raiseRec sev e).port k = s.port k := by simp [port]
@[simp] theorem raiseRec_chan (sev : Nat) (e : EventRec) (k : Nat) : (s.raiseRec sev e).chan k = s.chan k := by simp [chan]
@[simp] theorem raiseRec_me (sev : Nat) (e : EventRec) (k : Nat) : (s.raiseRec sev e).me k = s.me k := by simp [me]
@[simp] theorem raiseRec_eng (sev : Nat) (e : EventRec) (k : Nat) : (s.raiseRec sev e).eng k = s.eng k := by simp [eng]
@[simp] theorem raiseRec_mc (sev : Nat) (e : EventRec) (k : Nat) : (s.raiseRec sev e).mc k = s.mc k := by simp [mc]
@[simp] theorem raiseRec_link (sev : Nat) (e : EventRec) (k : Nat) : (s.raiseRec sev e).link k = s.link k := by simp [link]

/-! ### raise -/

@[simp] theorem raise_pending (code unit inst ch d0 a d1 : Nat) : (s.raise code unit inst ch d0 a d1).pending = s.pending := by unfold State.raise; simp
@[simp] theorem raise_now (code unit inst ch d0 a d1 : Nat) : (s.raise code unit inst ch d0 a d1).now = s.now := by unfold State.raise; simp
@[simp] theorem raise_freeCtr (code unit inst ch d0 a d1 : Nat) : (s.raise code unit inst ch d0 a d1).freeCtr = s.freeCtr := by unfold State.raise; simp
@[simp] theorem raise_time (code unit inst ch d0 a d1 : Nat) : (s.raise code unit inst ch d0 a d1).time = s.time := by unfold State.raise; simp
@[simp] theorem raise_ports (code unit inst ch d0 a d1 : Nat) : (s.raise code unit inst ch d0 a d1).ports = s.ports := by unfold State.raise; simp
@[simp] theorem raise_ing (code unit inst ch d0 a d1 : Nat) : (s.raise code unit inst ch d0 a d1).ing = s.ing := by unfold State.raise; simp
@[simp] theorem raise_chans (code unit inst ch d0 a d1 : Nat) : (s.raise code unit inst ch d0 a d1).chans = s.chans := by unfold State.raise; simp
@[simp] theorem raise_slots (code unit inst ch d0 a d1 : Nat) : (s.raise code unit inst ch d0 a d1).slots = s.slots := by unfold State.raise; simp
@[simp] theorem raise_mor (code unit inst ch d0 a d1 : Nat) : (s.raise code unit inst ch d0 a d1).mor = s.mor := by unfold State.raise; simp
@[simp] theorem raise_engines (code unit inst ch d0 a d1 : Nat) : (s.raise code unit inst ch d0 a d1).engines = s.engines := by unfold State.raise; simp
@[simp] theorem raise_saved (code unit inst ch d0 a d1 : Nat) : (s.raise code unit inst ch d0 a d1).saved = s.saved := by unfold State.raise; simp
@[simp] theorem raise_weldU (code unit inst ch d0 a d1 : Nat) : (s.raise code unit inst ch d0 a d1).weldU = s.weldU := by unfold State.raise; simp
@[simp] theorem raise_glaze (code unit inst ch d0 a d1 : Nat) : (s.raise code unit inst ch d0 a d1).glaze = s.glaze := by unfold State.raise; simp
@[simp] theorem raise_mem (code unit inst ch d0 a d1 : Nat) : (s.raise code unit inst ch d0 a d1).mem = s.mem := by unfold State.raise; simp
@[simp] theorem raise_cap (code unit inst ch d0 a d1 : Nat) : (s.raise code unit inst ch d0 a d1).cap = s.cap := by unfold State.raise; simp
@[simp] theorem raise_ring (code unit inst ch d0 a d1 : Nat) : (s.raise code unit inst ch d0 a d1).ring = s.ring := by unfold State.raise; simp
@[simp] theorem raise_img (code unit inst ch d0 a d1 : Nat) : (s.raise code unit inst ch d0 a d1).img = s.img := by unfold State.raise; simp
@[simp] theorem raise_pwr (code unit inst ch d0 a d1 : Nat) : (s.raise code unit inst ch d0 a d1).pwr = s.pwr := by unfold State.raise; simp
@[simp] theorem raise_tb (code unit inst ch d0 a d1 : Nat) (k : Nat) : (s.raise code unit inst ch d0 a d1).tb k = s.tb k := by simp [tb]
@[simp] theorem raise_tbVal (code unit inst ch d0 a d1 : Nat) (k : Nat) : (s.raise code unit inst ch d0 a d1).tbVal k = s.tbVal k := by simp [tbVal, tb]
@[simp] theorem raise_port (code unit inst ch d0 a d1 : Nat) (k : Nat) : (s.raise code unit inst ch d0 a d1).port k = s.port k := by simp [port]
@[simp] theorem raise_chan (code unit inst ch d0 a d1 : Nat) (k : Nat) : (s.raise code unit inst ch d0 a d1).chan k = s.chan k := by simp [chan]
@[simp] theorem raise_me (code unit inst ch d0 a d1 : Nat) (k : Nat) : (s.raise code unit inst ch d0 a d1).me k = s.me k := by simp [me]
@[simp] theorem raise_eng (code unit inst ch d0 a d1 : Nat) (k : Nat) : (s.raise code unit inst ch d0 a d1).eng k = s.eng k := by simp [eng]
@[simp] theorem raise_mc (code unit inst ch d0 a d1 : Nat) (k : Nat) : (s.raise code unit inst ch d0 a d1).mc k = s.mc k := by simp [mc]
@[simp] theorem raise_link (code unit inst ch d0 a d1 : Nat) (k : Nat) : (s.raise code unit inst ch d0 a d1).link k = s.link k := by simp [link]

/-! ### auditFail -/

@[simp] theorem auditFail_pending (q d : Nat) : (s.auditFail q d).pending = s.pending := by unfold State.auditFail; simp
@[simp] theorem auditFail_now (q d : Nat) : (s.auditFail q d).now = s.now := by unfold State.auditFail; simp
@[simp] theorem auditFail_freeCtr (q d : Nat) : (s.auditFail q d).freeCtr = s.freeCtr := by unfold State.auditFail; simp
@[simp] theorem auditFail_time (q d : Nat) : (s.auditFail q d).time = s.time := by unfold State.auditFail; simp
@[simp] theorem auditFail_ports (q d : Nat) : (s.auditFail q d).ports = s.ports := by unfold State.auditFail; simp
@[simp] theorem auditFail_ing (q d : Nat) : (s.auditFail q d).ing = s.ing := by unfold State.auditFail; simp
@[simp] theorem auditFail_chans (q d : Nat) : (s.auditFail q d).chans = s.chans := by unfold State.auditFail; simp
@[simp] theorem auditFail_slots (q d : Nat) : (s.auditFail q d).slots = s.slots := by unfold State.auditFail; simp
@[simp] theorem auditFail_mor (q d : Nat) : (s.auditFail q d).mor = s.mor := by unfold State.auditFail; simp
@[simp] theorem auditFail_engines (q d : Nat) : (s.auditFail q d).engines = s.engines := by unfold State.auditFail; simp
@[simp] theorem auditFail_saved (q d : Nat) : (s.auditFail q d).saved = s.saved := by unfold State.auditFail; simp
@[simp] theorem auditFail_weldU (q d : Nat) : (s.auditFail q d).weldU = s.weldU := by unfold State.auditFail; simp
@[simp] theorem auditFail_glaze (q d : Nat) : (s.auditFail q d).glaze = s.glaze := by unfold State.auditFail; simp
@[simp] theorem auditFail_mem (q d : Nat) : (s.auditFail q d).mem = s.mem := by unfold State.auditFail; simp
@[simp] theorem auditFail_cap (q d : Nat) : (s.auditFail q d).cap = s.cap := by unfold State.auditFail; simp
@[simp] theorem auditFail_ring (q d : Nat) : (s.auditFail q d).ring = s.ring := by unfold State.auditFail; simp
@[simp] theorem auditFail_img (q d : Nat) : (s.auditFail q d).img = s.img := by unfold State.auditFail; simp
@[simp] theorem auditFail_pwr (q d : Nat) : (s.auditFail q d).pwr = s.pwr := by unfold State.auditFail; simp
@[simp] theorem auditFail_tb (q d : Nat) (k : Nat) : (s.auditFail q d).tb k = s.tb k := by simp [tb]
@[simp] theorem auditFail_tbVal (q d : Nat) (k : Nat) : (s.auditFail q d).tbVal k = s.tbVal k := by simp [tbVal, tb]
@[simp] theorem auditFail_port (q d : Nat) (k : Nat) : (s.auditFail q d).port k = s.port k := by simp [port]
@[simp] theorem auditFail_chan (q d : Nat) (k : Nat) : (s.auditFail q d).chan k = s.chan k := by simp [chan]
@[simp] theorem auditFail_me (q d : Nat) (k : Nat) : (s.auditFail q d).me k = s.me k := by simp [me]
@[simp] theorem auditFail_eng (q d : Nat) (k : Nat) : (s.auditFail q d).eng k = s.eng k := by simp [eng]
@[simp] theorem auditFail_mc (q d : Nat) (k : Nat) : (s.auditFail q d).mc k = s.mc k := by simp [mc]
@[simp] theorem auditFail_link (q d : Nat) (k : Nat) : (s.auditFail q d).link k = s.link k := by simp [link]

/-! ### holdPool -/

@[simp] theorem holdPool_pending (q n : Nat) : (s.holdPool q n).pending = s.pending := rfl
@[simp] theorem holdPool_now (q n : Nat) : (s.holdPool q n).now = s.now := rfl
@[simp] theorem holdPool_freeCtr (q n : Nat) : (s.holdPool q n).freeCtr = s.freeCtr := rfl
@[simp] theorem holdPool_regs (q n : Nat) : (s.holdPool q n).regs = s.regs := rfl
@[simp] theorem holdPool_sup (q n : Nat) : (s.holdPool q n).sup = s.sup := rfl
@[simp] theorem holdPool_time (q n : Nat) : (s.holdPool q n).time = s.time := rfl
@[simp] theorem holdPool_ports (q n : Nat) : (s.holdPool q n).ports = s.ports := rfl
@[simp] theorem holdPool_ing (q n : Nat) : (s.holdPool q n).ing = s.ing := rfl
@[simp] theorem holdPool_chans (q n : Nat) : (s.holdPool q n).chans = s.chans := rfl
@[simp] theorem holdPool_slots (q n : Nat) : (s.holdPool q n).slots = s.slots := rfl
@[simp] theorem holdPool_mor (q n : Nat) : (s.holdPool q n).mor = s.mor := rfl
@[simp] theorem holdPool_engines (q n : Nat) : (s.holdPool q n).engines = s.engines := rfl
@[simp] theorem holdPool_saved (q n : Nat) : (s.holdPool q n).saved = s.saved := rfl
@[simp] theorem holdPool_weldU (q n : Nat) : (s.holdPool q n).weldU = s.weldU := rfl
@[simp] theorem holdPool_glaze (q n : Nat) : (s.holdPool q n).glaze = s.glaze := rfl
@[simp] theorem holdPool_mem (q n : Nat) : (s.holdPool q n).mem = s.mem := rfl
@[simp] theorem holdPool_cap (q n : Nat) : (s.holdPool q n).cap = s.cap := rfl
@[simp] theorem holdPool_ring (q n : Nat) : (s.holdPool q n).ring = s.ring := rfl
@[simp] theorem holdPool_img (q n : Nat) : (s.holdPool q n).img = s.img := rfl
@[simp] theorem holdPool_pwr (q n : Nat) : (s.holdPool q n).pwr = s.pwr := rfl
@[simp] theorem holdPool_rd (q n : Nat) (d' : RegDesc) (i' j' : Nat) : (s.holdPool q n).rd d' i' j' = s.rd d' i' j' := by simp [rd]
@[simp] theorem holdPool_flag (q n : Nat) (d' : RegDesc) (i' j' : Nat) : (s.holdPool q n).flag d' i' j' = s.flag d' i' j' := by simp [flag, rd]
@[simp] theorem holdPool_warden (q n : Nat) (k : Nat) : (s.holdPool q n).warden k = s.warden k := by simp [warden]
@[simp] theorem holdPool_tb (q n : Nat) (k : Nat) : (s.holdPool q n).tb k = s.tb k := by simp [tb]
@[simp] theorem holdPool_tbVal (q n : Nat) (k : Nat) : (s.holdPool q n).tbVal k = s.tbVal k := by simp [tbVal, tb]
@[simp] theorem holdPool_port (q n : Nat) (k : Nat) : (s.holdPool q n).port k = s.port k := by simp [port]
@[simp] theorem holdPool_chan (q n : Nat) (k : Nat) : (s.holdPool q n).chan k = s.chan k := by simp [chan]
@[simp] theorem holdPool_me (q n : Nat) (k : Nat) : (s.holdPool q n).me k = s.me k := by simp [me]
@[simp] theorem holdPool_eng (q n : Nat) (k : Nat) : (s.holdPool q n).eng k = s.eng k := by simp [eng]
@[simp] theorem holdPool_mc (q n : Nat) (k : Nat) : (s.holdPool q n).mc k = s.mc k := by simp [mc]
@[simp] theorem holdPool_link (q n : Nat) (k : Nat) : (s.holdPool q n).link k = s.link k := by simp [link]

/-! ### syncPools -/

@[simp] theorem syncPools_pending : s.syncPools.pending = s.pending := rfl
@[simp] theorem syncPools_now : s.syncPools.now = s.now := rfl
@[simp] theorem syncPools_freeCtr : s.syncPools.freeCtr = s.freeCtr := rfl
@[simp] theorem syncPools_regs : s.syncPools.regs = s.regs := rfl
@[simp] theorem syncPools_sup : s.syncPools.sup = s.sup := rfl
@[simp] theorem syncPools_time : s.syncPools.time = s.time := rfl
@[simp] theorem syncPools_ports : s.syncPools.ports = s.ports := rfl
@[simp] theorem syncPools_ing : s.syncPools.ing = s.ing := rfl
@[simp] theorem syncPools_chans : s.syncPools.chans = s.chans := rfl
@[simp] theorem syncPools_slots : s.syncPools.slots = s.slots := rfl
@[simp] theorem syncPools_mor : s.syncPools.mor = s.mor := rfl
@[simp] theorem syncPools_engines : s.syncPools.engines = s.engines := rfl
@[simp] theorem syncPools_saved : s.syncPools.saved = s.saved := rfl
@[simp] theorem syncPools_weldU : s.syncPools.weldU = s.weldU := rfl
@[simp] theorem syncPools_glaze : s.syncPools.glaze = s.glaze := rfl
@[simp] theorem syncPools_mem : s.syncPools.mem = s.mem := rfl
@[simp] theorem syncPools_cap : s.syncPools.cap = s.cap := rfl
@[simp] theorem syncPools_ring : s.syncPools.ring = s.ring := rfl
@[simp] theorem syncPools_img : s.syncPools.img = s.img := rfl
@[simp] theorem syncPools_pwr : s.syncPools.pwr = s.pwr := rfl
@[simp] theorem syncPools_rd (d' : RegDesc) (i' j' : Nat) : s.syncPools.rd d' i' j' = s.rd d' i' j' := by simp [rd]
@[simp] theorem syncPools_flag (d' : RegDesc) (i' j' : Nat) : s.syncPools.flag d' i' j' = s.flag d' i' j' := by simp [flag, rd]
@[simp] theorem syncPools_warden (k : Nat) : s.syncPools.warden k = s.warden k := by simp [warden]
@[simp] theorem syncPools_tb (k : Nat) : s.syncPools.tb k = s.tb k := by simp [tb]
@[simp] theorem syncPools_tbVal (k : Nat) : s.syncPools.tbVal k = s.tbVal k := by simp [tbVal, tb]
@[simp] theorem syncPools_port (k : Nat) : s.syncPools.port k = s.port k := by simp [port]
@[simp] theorem syncPools_chan (k : Nat) : s.syncPools.chan k = s.chan k := by simp [chan]
@[simp] theorem syncPools_me (k : Nat) : s.syncPools.me k = s.me k := by simp [me]
@[simp] theorem syncPools_eng (k : Nat) : s.syncPools.eng k = s.eng k := by simp [eng]
@[simp] theorem syncPools_mc (k : Nat) : s.syncPools.mc k = s.mc k := by simp [mc]
@[simp] theorem syncPools_link (k : Nat) : s.syncPools.link k = s.link k := by simp [link]

/-! ### unpoison -/

@[simp] theorem unpoison_hostShared (q : Nat → Bool) : (s.unpoison q).mem.hostShared = s.mem.hostShared := rfl
@[simp] theorem unpoison_restarting (q : Nat → Bool) : (s.unpoison q).sup.restarting = s.sup.restarting := rfl
@[simp] theorem unpoison_pending (q : Nat → Bool) : (s.unpoison q).pending = s.pending := rfl
@[simp] theorem unpoison_now (q : Nat → Bool) : (s.unpoison q).now = s.now := rfl
@[simp] theorem unpoison_freeCtr (q : Nat → Bool) : (s.unpoison q).freeCtr = s.freeCtr := rfl
@[simp] theorem unpoison_regs (q : Nat → Bool) : (s.unpoison q).regs = s.regs := rfl
@[simp] theorem unpoison_time (q : Nat → Bool) : (s.unpoison q).time = s.time := rfl
@[simp] theorem unpoison_ports (q : Nat → Bool) : (s.unpoison q).ports = s.ports := rfl
@[simp] theorem unpoison_ing (q : Nat → Bool) : (s.unpoison q).ing = s.ing := rfl
@[simp] theorem unpoison_chans (q : Nat → Bool) : (s.unpoison q).chans = s.chans := rfl
@[simp] theorem unpoison_slots (q : Nat → Bool) : (s.unpoison q).slots = s.slots := rfl
@[simp] theorem unpoison_mor (q : Nat → Bool) : (s.unpoison q).mor = s.mor := rfl
@[simp] theorem unpoison_engines (q : Nat → Bool) : (s.unpoison q).engines = s.engines := rfl
@[simp] theorem unpoison_saved (q : Nat → Bool) : (s.unpoison q).saved = s.saved := rfl
@[simp] theorem unpoison_weldU (q : Nat → Bool) : (s.unpoison q).weldU = s.weldU := rfl
@[simp] theorem unpoison_glaze (q : Nat → Bool) : (s.unpoison q).glaze = s.glaze := rfl
@[simp] theorem unpoison_host (q : Nat → Bool) : (s.unpoison q).host = s.host := rfl
@[simp] theorem unpoison_cap (q : Nat → Bool) : (s.unpoison q).cap = s.cap := rfl
@[simp] theorem unpoison_ring (q : Nat → Bool) : (s.unpoison q).ring = s.ring := rfl
@[simp] theorem unpoison_img (q : Nat → Bool) : (s.unpoison q).img = s.img := rfl
@[simp] theorem unpoison_pwr (q : Nat → Bool) : (s.unpoison q).pwr = s.pwr := rfl
@[simp] theorem unpoison_rd (q : Nat → Bool) (d' : RegDesc) (i' j' : Nat) : (s.unpoison q).rd d' i' j' = s.rd d' i' j' := by simp [rd]
@[simp] theorem unpoison_flag (q : Nat → Bool) (d' : RegDesc) (i' j' : Nat) : (s.unpoison q).flag d' i' j' = s.flag d' i' j' := by simp [flag, rd]
@[simp] theorem unpoison_tb (q : Nat → Bool) (k : Nat) : (s.unpoison q).tb k = s.tb k := by simp [tb]
@[simp] theorem unpoison_tbVal (q : Nat → Bool) (k : Nat) : (s.unpoison q).tbVal k = s.tbVal k := by simp [tbVal, tb]
@[simp] theorem unpoison_port (q : Nat → Bool) (k : Nat) : (s.unpoison q).port k = s.port k := by simp [port]
@[simp] theorem unpoison_chan (q : Nat → Bool) (k : Nat) : (s.unpoison q).chan k = s.chan k := by simp [chan]
@[simp] theorem unpoison_me (q : Nat → Bool) (k : Nat) : (s.unpoison q).me k = s.me k := by simp [me]
@[simp] theorem unpoison_eng (q : Nat → Bool) (k : Nat) : (s.unpoison q).eng k = s.eng k := by simp [eng]
@[simp] theorem unpoison_hq (q : Nat → Bool) (k : Nat) : (s.unpoison q).hq k = s.hq k := by simp [hq]
@[simp] theorem unpoison_link (q : Nat → Bool) (k : Nat) : (s.unpoison q).link k = s.link k := by simp [link]

/-! ### requestSnap -/

@[simp] theorem requestSnap_pending (req : RegDesc) (b : Nat) : (s.requestSnap req b).pending = s.pending := rfl
@[simp] theorem requestSnap_now (req : RegDesc) (b : Nat) : (s.requestSnap req b).now = s.now := rfl
@[simp] theorem requestSnap_freeCtr (req : RegDesc) (b : Nat) : (s.requestSnap req b).freeCtr = s.freeCtr := rfl
@[simp] theorem requestSnap_time (req : RegDesc) (b : Nat) : (s.requestSnap req b).time = s.time := rfl
@[simp] theorem requestSnap_ports (req : RegDesc) (b : Nat) : (s.requestSnap req b).ports = s.ports := rfl
@[simp] theorem requestSnap_ing (req : RegDesc) (b : Nat) : (s.requestSnap req b).ing = s.ing := rfl
@[simp] theorem requestSnap_chans (req : RegDesc) (b : Nat) : (s.requestSnap req b).chans = s.chans := rfl
@[simp] theorem requestSnap_slots (req : RegDesc) (b : Nat) : (s.requestSnap req b).slots = s.slots := rfl
@[simp] theorem requestSnap_mor (req : RegDesc) (b : Nat) : (s.requestSnap req b).mor = s.mor := rfl
@[simp] theorem requestSnap_engines (req : RegDesc) (b : Nat) : (s.requestSnap req b).engines = s.engines := rfl
@[simp] theorem requestSnap_saved (req : RegDesc) (b : Nat) : (s.requestSnap req b).saved = s.saved := rfl
@[simp] theorem requestSnap_weldU (req : RegDesc) (b : Nat) : (s.requestSnap req b).weldU = s.weldU := rfl
@[simp] theorem requestSnap_glaze (req : RegDesc) (b : Nat) : (s.requestSnap req b).glaze = s.glaze := rfl
@[simp] theorem requestSnap_mem (req : RegDesc) (b : Nat) : (s.requestSnap req b).mem = s.mem := rfl
@[simp] theorem requestSnap_host (req : RegDesc) (b : Nat) : (s.requestSnap req b).host = s.host := rfl
@[simp] theorem requestSnap_cap (req : RegDesc) (b : Nat) : (s.requestSnap req b).cap = s.cap := rfl
@[simp] theorem requestSnap_ring (req : RegDesc) (b : Nat) : (s.requestSnap req b).ring = s.ring := rfl
@[simp] theorem requestSnap_img (req : RegDesc) (b : Nat) : (s.requestSnap req b).img = s.img := rfl
@[simp] theorem requestSnap_pwr (req : RegDesc) (b : Nat) : (s.requestSnap req b).pwr = s.pwr := rfl
@[simp] theorem requestSnap_tb (req : RegDesc) (b : Nat) (k : Nat) : (s.requestSnap req b).tb k = s.tb k := by simp [tb]
@[simp] theorem requestSnap_tbVal (req : RegDesc) (b : Nat) (k : Nat) : (s.requestSnap req b).tbVal k = s.tbVal k := by simp [tbVal, tb]
@[simp] theorem requestSnap_port (req : RegDesc) (b : Nat) (k : Nat) : (s.requestSnap req b).port k = s.port k := by simp [port]
@[simp] theorem requestSnap_chan (req : RegDesc) (b : Nat) (k : Nat) : (s.requestSnap req b).chan k = s.chan k := by simp [chan]
@[simp] theorem requestSnap_me (req : RegDesc) (b : Nat) (k : Nat) : (s.requestSnap req b).me k = s.me k := by simp [me]
@[simp] theorem requestSnap_eng (req : RegDesc) (b : Nat) (k : Nat) : (s.requestSnap req b).eng k = s.eng k := by simp [eng]
@[simp] theorem requestSnap_mc (req : RegDesc) (b : Nat) (k : Nat) : (s.requestSnap req b).mc k = s.mc k := by simp [mc]
@[simp] theorem requestSnap_hq (req : RegDesc) (b : Nat) (k : Nat) : (s.requestSnap req b).hq k = s.hq k := by simp [hq]
@[simp] theorem requestSnap_link (req : RegDesc) (b : Nat) (k : Nat) : (s.requestSnap req b).link k = s.link k := by simp [link]

/-! ### backInv -/

@[simp] theorem backInv_pending (l : Nat) : (s.backInv l).pending = s.pending := by unfold State.backInv; split <;> simp [State.bump_eq]
@[simp] theorem backInv_now (l : Nat) : (s.backInv l).now = s.now := by unfold State.backInv; split <;> simp [State.bump_eq]
@[simp] theorem backInv_freeCtr (l : Nat) : (s.backInv l).freeCtr = s.freeCtr := by unfold State.backInv; split <;> simp [State.bump_eq]
@[simp] theorem backInv_sup (l : Nat) : (s.backInv l).sup = s.sup := by unfold State.backInv; split <;> simp [State.bump_eq]
@[simp] theorem backInv_time (l : Nat) : (s.backInv l).time = s.time := by unfold State.backInv; split <;> simp [State.bump_eq]
@[simp] theorem backInv_ports (l : Nat) : (s.backInv l).ports = s.ports := by unfold State.backInv; split <;> simp [State.bump_eq]
@[simp] theorem backInv_ing (l : Nat) : (s.backInv l).ing = s.ing := by unfold State.backInv; split <;> simp [State.bump_eq]
@[simp] theorem backInv_chans (l : Nat) : (s.backInv l).chans = s.chans := by unfold State.backInv; split <;> simp [State.bump_eq]
@[simp] theorem backInv_slots (l : Nat) : (s.backInv l).slots = s.slots := by unfold State.backInv; split <;> simp [State.bump_eq]
@[simp] theorem backInv_mor (l : Nat) : (s.backInv l).mor = s.mor := by unfold State.backInv; split <;> simp [State.bump_eq]
@[simp] theorem backInv_engines (l : Nat) : (s.backInv l).engines = s.engines := by unfold State.backInv; split <;> simp [State.bump_eq]
@[simp] theorem backInv_saved (l : Nat) : (s.backInv l).saved = s.saved := by unfold State.backInv; split <;> simp [State.bump_eq]
@[simp] theorem backInv_weldU (l : Nat) : (s.backInv l).weldU = s.weldU := by unfold State.backInv; split <;> simp [State.bump_eq]
@[simp] theorem backInv_glaze (l : Nat) : (s.backInv l).glaze = s.glaze := by unfold State.backInv; split <;> simp [State.bump_eq]
@[simp] theorem backInv_mem (l : Nat) : (s.backInv l).mem = s.mem := by unfold State.backInv; split <;> simp [State.bump_eq]
@[simp] theorem backInv_cap (l : Nat) : (s.backInv l).cap = s.cap := by unfold State.backInv; split <;> simp [State.bump_eq]
@[simp] theorem backInv_ring (l : Nat) : (s.backInv l).ring = s.ring := by unfold State.backInv; split <;> simp [State.bump_eq]
@[simp] theorem backInv_img (l : Nat) : (s.backInv l).img = s.img := by unfold State.backInv; split <;> simp [State.bump_eq]
@[simp] theorem backInv_pwr (l : Nat) : (s.backInv l).pwr = s.pwr := by unfold State.backInv; split <;> simp [State.bump_eq]
@[simp] theorem backInv_warden (l : Nat) (k : Nat) : (s.backInv l).warden k = s.warden k := by simp [warden]
@[simp] theorem backInv_tb (l : Nat) (k : Nat) : (s.backInv l).tb k = s.tb k := by simp [tb]
@[simp] theorem backInv_tbVal (l : Nat) (k : Nat) : (s.backInv l).tbVal k = s.tbVal k := by simp [tbVal, tb]
@[simp] theorem backInv_port (l : Nat) (k : Nat) : (s.backInv l).port k = s.port k := by simp [port]
@[simp] theorem backInv_chan (l : Nat) (k : Nat) : (s.backInv l).chan k = s.chan k := by simp [chan]
@[simp] theorem backInv_me (l : Nat) (k : Nat) : (s.backInv l).me k = s.me k := by simp [me]
@[simp] theorem backInv_eng (l : Nat) (k : Nat) : (s.backInv l).eng k = s.eng k := by simp [eng]
@[simp] theorem backInv_mc (l : Nat) (k : Nat) : (s.backInv l).mc k = s.mc k := by simp [mc]
@[simp] theorem backInv_link (l : Nat) (k : Nat) : (s.backInv l).link k = s.link k := by simp [link]

/-! ### hsWrite -/

theorem backInv_fold (l : List Nat) : let u := l.foldl State.backInv s
    u.pending = s.pending ∧ u.now = s.now ∧ u.freeCtr = s.freeCtr ∧ u.time = s.time ∧ u.ports = s.ports ∧ u.ing = s.ing ∧ u.chans = s.chans ∧ u.slots = s.slots ∧ u.mor = s.mor ∧ u.engines = s.engines ∧ u.saved = s.saved ∧ u.weldU = s.weldU ∧ u.glaze = s.glaze ∧ u.cap = s.cap ∧ u.ring = s.ring ∧ u.img = s.img ∧ u.pwr = s.pwr ∧ u.sup = s.sup ∧ u.mem = s.mem := by
  induction l generalizing s with
  | nil => simp
  | cons x r ih => have h := ih (s.backInv x); simpa using h

theorem hsWrite_frame (off : Nat) (bs : List Byte) : let u := s.hsWrite off bs
    u.pending = s.pending ∧ u.now = s.now ∧ u.freeCtr = s.freeCtr ∧ u.time = s.time ∧ u.ports = s.ports ∧ u.ing = s.ing ∧ u.chans = s.chans ∧ u.slots = s.slots ∧ u.mor = s.mor ∧ u.engines = s.engines ∧ u.saved = s.saved ∧ u.weldU = s.weldU ∧ u.glaze = s.glaze ∧ u.cap = s.cap ∧ u.ring = s.ring ∧ u.img = s.img ∧ u.pwr = s.pwr := by
  have h := backInv_fold s ((List.range ((hsBase + off + bs.length - 1) / 64 + 1 - (hsBase + off) / 64)).map ((hsBase + off) / 64 + ·))
  simp only at h
  obtain ⟨h0, h1, h2, h3, h4, h5, h6, h7, h8, h9, h10, h11, h12, h13, h14, h15, h16, h17, h18⟩ := h
  simp [hsWrite, h0, h1, h2, h3, h4, h5, h6, h7, h8, h9, h10, h11, h12, h13, h14, h15, h16]

/-- The bytes written by a device unit, and no other. -/
@[simp] theorem hsWrite_hostShared (off : Nat) (bs : List Byte) : (s.hsWrite off bs).mem.hostShared = msetList s.mem.hostShared off bs := by
  have h := backInv_fold s ((List.range ((hsBase + off + bs.length - 1) / 64 + 1 - (hsBase + off) / 64)).map ((hsBase + off) / 64 + ·))
  simp only at h
  obtain ⟨h0, h1, h2, h3, h4, h5, h6, h7, h8, h9, h10, h11, h12, h13, h14, h15, h16, h17, h18⟩ := h
  simp [hsWrite, h18]

@[simp] theorem hsWrite_pending (off : Nat) (bs : List Byte) : (s.hsWrite off bs).pending = s.pending := (hsWrite_frame s off bs).1
@[simp] theorem hsWrite_now (off : Nat) (bs : List Byte) : (s.hsWrite off bs).now = s.now := (hsWrite_frame s off bs).2.1
@[simp] theorem hsWrite_freeCtr (off : Nat) (bs : List Byte) : (s.hsWrite off bs).freeCtr = s.freeCtr := (hsWrite_frame s off bs).2.2.1
@[simp] theorem hsWrite_time (off : Nat) (bs : List Byte) : (s.hsWrite off bs).time = s.time := (hsWrite_frame s off bs).2.2.2.1
@[simp] theorem hsWrite_ports (off : Nat) (bs : List Byte) : (s.hsWrite off bs).ports = s.ports := (hsWrite_frame s off bs).2.2.2.2.1
@[simp] theorem hsWrite_ing (off : Nat) (bs : List Byte) : (s.hsWrite off bs).ing = s.ing := (hsWrite_frame s off bs).2.2.2.2.2.1
@[simp] theorem hsWrite_chans (off : Nat) (bs : List Byte) : (s.hsWrite off bs).chans = s.chans := (hsWrite_frame s off bs).2.2.2.2.2.2.1
@[simp] theorem hsWrite_slots (off : Nat) (bs : List Byte) : (s.hsWrite off bs).slots = s.slots := (hsWrite_frame s off bs).2.2.2.2.2.2.2.1
@[simp] theorem hsWrite_mor (off : Nat) (bs : List Byte) : (s.hsWrite off bs).mor = s.mor := (hsWrite_frame s off bs).2.2.2.2.2.2.2.2.1
@[simp] theorem hsWrite_engines (off : Nat) (bs : List Byte) : (s.hsWrite off bs).engines = s.engines := (hsWrite_frame s off bs).2.2.2.2.2.2.2.2.2.1
@[simp] theorem hsWrite_saved (off : Nat) (bs : List Byte) : (s.hsWrite off bs).saved = s.saved := (hsWrite_frame s off bs).2.2.2.2.2.2.2.2.2.2.1
@[simp] theorem hsWrite_weldU (off : Nat) (bs : List Byte) : (s.hsWrite off bs).weldU = s.weldU := (hsWrite_frame s off bs).2.2.2.2.2.2.2.2.2.2.2.1
@[simp] theorem hsWrite_glaze (off : Nat) (bs : List Byte) : (s.hsWrite off bs).glaze = s.glaze := (hsWrite_frame s off bs).2.2.2.2.2.2.2.2.2.2.2.2.1
@[simp] theorem hsWrite_cap (off : Nat) (bs : List Byte) : (s.hsWrite off bs).cap = s.cap := (hsWrite_frame s off bs).2.2.2.2.2.2.2.2.2.2.2.2.2.1
@[simp] theorem hsWrite_ring (off : Nat) (bs : List Byte) : (s.hsWrite off bs).ring = s.ring := (hsWrite_frame s off bs).2.2.2.2.2.2.2.2.2.2.2.2.2.2.1
@[simp] theorem hsWrite_img (off : Nat) (bs : List Byte) : (s.hsWrite off bs).img = s.img := (hsWrite_frame s off bs).2.2.2.2.2.2.2.2.2.2.2.2.2.2.2.1
@[simp] theorem hsWrite_pwr (off : Nat) (bs : List Byte) : (s.hsWrite off bs).pwr = s.pwr := (hsWrite_frame s off bs).2.2.2.2.2.2.2.2.2.2.2.2.2.2.2.2
@[simp] theorem hsWrite_tb (off : Nat) (bs : List Byte) (k : Nat) : (s.hsWrite off bs).tb k = s.tb k := by simp [tb]
@[simp] theorem hsWrite_tbVal (off : Nat) (bs : List Byte) (k : Nat) : (s.hsWrite off bs).tbVal k = s.tbVal k := by simp [tbVal, tb]
@[simp] theorem hsWrite_port (off : Nat) (bs : List Byte) (k : Nat) : (s.hsWrite off bs).port k = s.port k := by simp [port]
@[simp] theorem hsWrite_chan (off : Nat) (bs : List Byte) (k : Nat) : (s.hsWrite off bs).chan k = s.chan k := by simp [chan]
@[simp] theorem hsWrite_me (off : Nat) (bs : List Byte) (k : Nat) : (s.hsWrite off bs).me k = s.me k := by simp [me]
@[simp] theorem hsWrite_eng (off : Nat) (bs : List Byte) (k : Nat) : (s.hsWrite off bs).eng k = s.eng k := by simp [eng]
@[simp] theorem hsWrite_link (off : Nat) (bs : List Byte) (k : Nat) : (s.hsWrite off bs).link k = s.link k := by simp [link]

/-! ### cqSignal -/

@[simp] theorem cqSignal_pending (q : Nat) : (s.cqSignal q).pending = s.pending := by unfold State.cqSignal; dsimp only; split <;> simp
@[simp] theorem cqSignal_now (q : Nat) : (s.cqSignal q).now = s.now := by unfold State.cqSignal; dsimp only; split <;> simp
@[simp] theorem cqSignal_freeCtr (q : Nat) : (s.cqSignal q).freeCtr = s.freeCtr := by unfold State.cqSignal; dsimp only; split <;> simp
@[simp] theorem cqSignal_regs (q : Nat) : (s.cqSignal q).regs = s.regs := by unfold State.cqSignal; dsimp only; split <;> simp
@[simp] theorem cqSignal_sup (q : Nat) : (s.cqSignal q).sup = s.sup := by unfold State.cqSignal; dsimp only; split <;> simp
@[simp] theorem cqSignal_time (q : Nat) : (s.cqSignal q).time = s.time := by unfold State.cqSignal; dsimp only; split <;> simp
@[simp] theorem cqSignal_ports (q : Nat) : (s.cqSignal q).ports = s.ports := by unfold State.cqSignal; dsimp only; split <;> simp
@[simp] theorem cqSignal_ing (q : Nat) : (s.cqSignal q).ing = s.ing := by unfold State.cqSignal; dsimp only; split <;> simp
@[simp] theorem cqSignal_chans (q : Nat) : (s.cqSignal q).chans = s.chans := by unfold State.cqSignal; dsimp only; split <;> simp
@[simp] theorem cqSignal_slots (q : Nat) : (s.cqSignal q).slots = s.slots := by unfold State.cqSignal; dsimp only; split <;> simp
@[simp] theorem cqSignal_mor (q : Nat) : (s.cqSignal q).mor = s.mor := by unfold State.cqSignal; dsimp only; split <;> simp
@[simp] theorem cqSignal_engines (q : Nat) : (s.cqSignal q).engines = s.engines := by unfold State.cqSignal; dsimp only; split <;> simp
@[simp] theorem cqSignal_saved (q : Nat) : (s.cqSignal q).saved = s.saved := by unfold State.cqSignal; dsimp only; split <;> simp
@[simp] theorem cqSignal_weldU (q : Nat) : (s.cqSignal q).weldU = s.weldU := by unfold State.cqSignal; dsimp only; split <;> simp
@[simp] theorem cqSignal_glaze (q : Nat) : (s.cqSignal q).glaze = s.glaze := by unfold State.cqSignal; dsimp only; split <;> simp
@[simp] theorem cqSignal_mem (q : Nat) : (s.cqSignal q).mem = s.mem := by unfold State.cqSignal; dsimp only; split <;> simp
@[simp] theorem cqSignal_cap (q : Nat) : (s.cqSignal q).cap = s.cap := by unfold State.cqSignal; dsimp only; split <;> simp
@[simp] theorem cqSignal_ring (q : Nat) : (s.cqSignal q).ring = s.ring := by unfold State.cqSignal; dsimp only; split <;> simp
@[simp] theorem cqSignal_img (q : Nat) : (s.cqSignal q).img = s.img := by unfold State.cqSignal; dsimp only; split <;> simp
@[simp] theorem cqSignal_pwr (q : Nat) : (s.cqSignal q).pwr = s.pwr := by unfold State.cqSignal; dsimp only; split <;> simp
@[simp] theorem cqSignal_rd (q : Nat) (d' : RegDesc) (i' j' : Nat) : (s.cqSignal q).rd d' i' j' = s.rd d' i' j' := by simp [rd]
@[simp] theorem cqSignal_flag (q : Nat) (d' : RegDesc) (i' j' : Nat) : (s.cqSignal q).flag d' i' j' = s.flag d' i' j' := by simp [flag, rd]
@[simp] theorem cqSignal_warden (q : Nat) (k : Nat) : (s.cqSignal q).warden k = s.warden k := by simp [warden]
@[simp] theorem cqSignal_tb (q : Nat) (k : Nat) : (s.cqSignal q).tb k = s.tb k := by simp [tb]
@[simp] theorem cqSignal_tbVal (q : Nat) (k : Nat) : (s.cqSignal q).tbVal k = s.tbVal k := by simp [tbVal, tb]
@[simp] theorem cqSignal_port (q : Nat) (k : Nat) : (s.cqSignal q).port k = s.port k := by simp [port]
@[simp] theorem cqSignal_chan (q : Nat) (k : Nat) : (s.cqSignal q).chan k = s.chan k := by simp [chan]
@[simp] theorem cqSignal_me (q : Nat) (k : Nat) : (s.cqSignal q).me k = s.me k := by simp [me]
@[simp] theorem cqSignal_eng (q : Nat) (k : Nat) : (s.cqSignal q).eng k = s.eng k := by simp [eng]
@[simp] theorem cqSignal_mc (q : Nat) (k : Nat) : (s.cqSignal q).mc k = s.mc k := by simp [mc]
@[simp] theorem cqSignal_link (q : Nat) (k : Nat) : (s.cqSignal q).link k = s.link k := by simp [link]

/-! ### postCq -/

@[simp] theorem postCq_pending (q tag st dt r2 r3 : Nat) : (s.postCq q tag st dt r2 r3).pending = s.pending := by unfold State.postCq; dsimp only; split <;> simp
@[simp] theorem postCq_now (q tag st dt r2 r3 : Nat) : (s.postCq q tag st dt r2 r3).now = s.now := by unfold State.postCq; dsimp only; split <;> simp
@[simp] theorem postCq_freeCtr (q tag st dt r2 r3 : Nat) : (s.postCq q tag st dt r2 r3).freeCtr = s.freeCtr := by unfold State.postCq; dsimp only; split <;> simp
@[simp] theorem postCq_time (q tag st dt r2 r3 : Nat) : (s.postCq q tag st dt r2 r3).time = s.time := by unfold State.postCq; dsimp only; split <;> simp
@[simp] theorem postCq_ports (q tag st dt r2 r3 : Nat) : (s.postCq q tag st dt r2 r3).ports = s.ports := by unfold State.postCq; dsimp only; split <;> simp
@[simp] theorem postCq_ing (q tag st dt r2 r3 : Nat) : (s.postCq q tag st dt r2 r3).ing = s.ing := by unfold State.postCq; dsimp only; split <;> simp
@[simp] theorem postCq_chans (q tag st dt r2 r3 : Nat) : (s.postCq q tag st dt r2 r3).chans = s.chans := by unfold State.postCq; dsimp only; split <;> simp
@[simp] theorem postCq_slots (q tag st dt r2 r3 : Nat) : (s.postCq q tag st dt r2 r3).slots = s.slots := by unfold State.postCq; dsimp only; split <;> simp
@[simp] theorem postCq_mor (q tag st dt r2 r3 : Nat) : (s.postCq q tag st dt r2 r3).mor = s.mor := by unfold State.postCq; dsimp only; split <;> simp
@[simp] theorem postCq_engines (q tag st dt r2 r3 : Nat) : (s.postCq q tag st dt r2 r3).engines = s.engines := by unfold State.postCq; dsimp only; split <;> simp
@[simp] theorem postCq_saved (q tag st dt r2 r3 : Nat) : (s.postCq q tag st dt r2 r3).saved = s.saved := by unfold State.postCq; dsimp only; split <;> simp
@[simp] theorem postCq_weldU (q tag st dt r2 r3 : Nat) : (s.postCq q tag st dt r2 r3).weldU = s.weldU := by unfold State.postCq; dsimp only; split <;> simp
@[simp] theorem postCq_glaze (q tag st dt r2 r3 : Nat) : (s.postCq q tag st dt r2 r3).glaze = s.glaze := by unfold State.postCq; dsimp only; split <;> simp
@[simp] theorem postCq_cap (q tag st dt r2 r3 : Nat) : (s.postCq q tag st dt r2 r3).cap = s.cap := by unfold State.postCq; dsimp only; split <;> simp
@[simp] theorem postCq_ring (q tag st dt r2 r3 : Nat) : (s.postCq q tag st dt r2 r3).ring = s.ring := by unfold State.postCq; dsimp only; split <;> simp
@[simp] theorem postCq_img (q tag st dt r2 r3 : Nat) : (s.postCq q tag st dt r2 r3).img = s.img := by unfold State.postCq; dsimp only; split <;> simp
@[simp] theorem postCq_pwr (q tag st dt r2 r3 : Nat) : (s.postCq q tag st dt r2 r3).pwr = s.pwr := by unfold State.postCq; dsimp only; split <;> simp
@[simp] theorem postCq_tb (q tag st dt r2 r3 : Nat) (k : Nat) : (s.postCq q tag st dt r2 r3).tb k = s.tb k := by simp [tb]
@[simp] theorem postCq_tbVal (q tag st dt r2 r3 : Nat) (k : Nat) : (s.postCq q tag st dt r2 r3).tbVal k = s.tbVal k := by simp [tbVal, tb]
@[simp] theorem postCq_port (q tag st dt r2 r3 : Nat) (k : Nat) : (s.postCq q tag st dt r2 r3).port k = s.port k := by simp [port]
@[simp] theorem postCq_chan (q tag st dt r2 r3 : Nat) (k : Nat) : (s.postCq q tag st dt r2 r3).chan k = s.chan k := by simp [chan]
@[simp] theorem postCq_me (q tag st dt r2 r3 : Nat) (k : Nat) : (s.postCq q tag st dt r2 r3).me k = s.me k := by simp [me]
@[simp] theorem postCq_eng (q tag st dt r2 r3 : Nat) (k : Nat) : (s.postCq q tag st dt r2 r3).eng k = s.eng k := by simp [eng]
@[simp] theorem postCq_link (q tag st dt r2 r3 : Nat) (k : Nat) : (s.postCq q tag st dt r2 r3).link k = s.link k := by simp [link]

/-! ### untake -/

@[simp] theorem untake_pending (q tag : Nat) : (s.untake q tag).pending = s.pending := by unfold State.untake; dsimp only; split <;> simp
@[simp] theorem untake_now (q tag : Nat) : (s.untake q tag).now = s.now := by unfold State.untake; dsimp only; split <;> simp
@[simp] theorem untake_freeCtr (q tag : Nat) : (s.untake q tag).freeCtr = s.freeCtr := by unfold State.untake; dsimp only; split <;> simp
@[simp] theorem untake_regs (q tag : Nat) : (s.untake q tag).regs = s.regs := by unfold State.untake; dsimp only; split <;> simp
@[simp] theorem untake_time (q tag : Nat) : (s.untake q tag).time = s.time := by unfold State.untake; dsimp only; split <;> simp
@[simp] theorem untake_ports (q tag : Nat) : (s.untake q tag).ports = s.ports := by unfold State.untake; dsimp only; split <;> simp
@[simp] theorem untake_ing (q tag : Nat) : (s.untake q tag).ing = s.ing := by unfold State.untake; dsimp only; split <;> simp
@[simp] theorem untake_chans (q tag : Nat) : (s.untake q tag).chans = s.chans := by unfold State.untake; dsimp only; split <;> simp
@[simp] theorem untake_slots (q tag : Nat) : (s.untake q tag).slots = s.slots := by unfold State.untake; dsimp only; split <;> simp
@[simp] theorem untake_mor (q tag : Nat) : (s.untake q tag).mor = s.mor := by unfold State.untake; dsimp only; split <;> simp
@[simp] theorem untake_engines (q tag : Nat) : (s.untake q tag).engines = s.engines := by unfold State.untake; dsimp only; split <;> simp
@[simp] theorem untake_saved (q tag : Nat) : (s.untake q tag).saved = s.saved := by unfold State.untake; dsimp only; split <;> simp
@[simp] theorem untake_weldU (q tag : Nat) : (s.untake q tag).weldU = s.weldU := by unfold State.untake; dsimp only; split <;> simp
@[simp] theorem untake_glaze (q tag : Nat) : (s.untake q tag).glaze = s.glaze := by unfold State.untake; dsimp only; split <;> simp
@[simp] theorem untake_mem (q tag : Nat) : (s.untake q tag).mem = s.mem := by unfold State.untake; dsimp only; split <;> simp
@[simp] theorem untake_cap (q tag : Nat) : (s.untake q tag).cap = s.cap := by unfold State.untake; dsimp only; split <;> simp
@[simp] theorem untake_ring (q tag : Nat) : (s.untake q tag).ring = s.ring := by unfold State.untake; dsimp only; split <;> simp
@[simp] theorem untake_img (q tag : Nat) : (s.untake q tag).img = s.img := by unfold State.untake; dsimp only; split <;> simp
@[simp] theorem untake_pwr (q tag : Nat) : (s.untake q tag).pwr = s.pwr := by unfold State.untake; dsimp only; split <;> simp
@[simp] theorem untake_rd (q tag : Nat) (d' : RegDesc) (i' j' : Nat) : (s.untake q tag).rd d' i' j' = s.rd d' i' j' := by simp [rd]
@[simp] theorem untake_flag (q tag : Nat) (d' : RegDesc) (i' j' : Nat) : (s.untake q tag).flag d' i' j' = s.flag d' i' j' := by simp [flag, rd]
@[simp] theorem untake_tb (q tag : Nat) (k : Nat) : (s.untake q tag).tb k = s.tb k := by simp [tb]
@[simp] theorem untake_tbVal (q tag : Nat) (k : Nat) : (s.untake q tag).tbVal k = s.tbVal k := by simp [tbVal, tb]
@[simp] theorem untake_port (q tag : Nat) (k : Nat) : (s.untake q tag).port k = s.port k := by simp [port]
@[simp] theorem untake_chan (q tag : Nat) (k : Nat) : (s.untake q tag).chan k = s.chan k := by simp [chan]
@[simp] theorem untake_me (q tag : Nat) (k : Nat) : (s.untake q tag).me k = s.me k := by simp [me]
@[simp] theorem untake_eng (q tag : Nat) (k : Nat) : (s.untake q tag).eng k = s.eng k := by simp [eng]
@[simp] theorem untake_mc (q tag : Nat) (k : Nat) : (s.untake q tag).mc k = s.mc k := by simp [mc]
@[simp] theorem untake_link (q tag : Nat) (k : Nat) : (s.untake q tag).link k = s.link k := by simp [link]

/-! ### defer -/

@[simp] theorem defer_pending (d : Deferred) : (s.defer d).pending = s.pending := rfl
@[simp] theorem defer_now (d : Deferred) : (s.defer d).now = s.now := rfl
@[simp] theorem defer_freeCtr (d : Deferred) : (s.defer d).freeCtr = s.freeCtr := rfl
@[simp] theorem defer_regs (d : Deferred) : (s.defer d).regs = s.regs := rfl
@[simp] theorem defer_time (d : Deferred) : (s.defer d).time = s.time := rfl
@[simp] theorem defer_ports (d : Deferred) : (s.defer d).ports = s.ports := rfl
@[simp] theorem defer_ing (d : Deferred) : (s.defer d).ing = s.ing := rfl
@[simp] theorem defer_chans (d : Deferred) : (s.defer d).chans = s.chans := rfl
@[simp] theorem defer_slots (d : Deferred) : (s.defer d).slots = s.slots := rfl
@[simp] theorem defer_mor (d : Deferred) : (s.defer d).mor = s.mor := rfl
@[simp] theorem defer_engines (d : Deferred) : (s.defer d).engines = s.engines := rfl
@[simp] theorem defer_saved (d : Deferred) : (s.defer d).saved = s.saved := rfl
@[simp] theorem defer_weldU (d : Deferred) : (s.defer d).weldU = s.weldU := rfl
@[simp] theorem defer_glaze (d : Deferred) : (s.defer d).glaze = s.glaze := rfl
@[simp] theorem defer_mem (d : Deferred) : (s.defer d).mem = s.mem := rfl
@[simp] theorem defer_host (d : Deferred) : (s.defer d).host = s.host := rfl
@[simp] theorem defer_cap (d : Deferred) : (s.defer d).cap = s.cap := rfl
@[simp] theorem defer_ring (d : Deferred) : (s.defer d).ring = s.ring := rfl
@[simp] theorem defer_img (d : Deferred) : (s.defer d).img = s.img := rfl
@[simp] theorem defer_pwr (d : Deferred) : (s.defer d).pwr = s.pwr := rfl
@[simp] theorem defer_rd (d : Deferred) (d' : RegDesc) (i' j' : Nat) : (s.defer d).rd d' i' j' = s.rd d' i' j' := by simp [rd]
@[simp] theorem defer_flag (d : Deferred) (d' : RegDesc) (i' j' : Nat) : (s.defer d).flag d' i' j' = s.flag d' i' j' := by simp [flag, rd]
@[simp] theorem defer_tb (d : Deferred) (k : Nat) : (s.defer d).tb k = s.tb k := by simp [tb]
@[simp] theorem defer_tbVal (d : Deferred) (k : Nat) : (s.defer d).tbVal k = s.tbVal k := by simp [tbVal, tb]
@[simp] theorem defer_port (d : Deferred) (k : Nat) : (s.defer d).port k = s.port k := by simp [port]
@[simp] theorem defer_chan (d : Deferred) (k : Nat) : (s.defer d).chan k = s.chan k := by simp [chan]
@[simp] theorem defer_me (d : Deferred) (k : Nat) : (s.defer d).me k = s.me k := by simp [me]
@[simp] theorem defer_eng (d : Deferred) (k : Nat) : (s.defer d).eng k = s.eng k := by simp [eng]
@[simp] theorem defer_mc (d : Deferred) (k : Nat) : (s.defer d).mc k = s.mc k := by simp [mc]
@[simp] theorem defer_hq (d : Deferred) (k : Nat) : (s.defer d).hq k = s.hq k := by simp [hq]
@[simp] theorem defer_link (d : Deferred) (k : Nat) : (s.defer d).link k = s.link k := by simp [link]

/-! ### complete -/

@[simp] theorem complete_pending (q tag op st dt r2 r3 : Nat) : (s.complete q tag op st dt r2 r3).pending = s.pending := by unfold State.complete; dsimp only; (repeat' split) <;> simp
@[simp] theorem complete_now (q tag op st dt r2 r3 : Nat) : (s.complete q tag op st dt r2 r3).now = s.now := by unfold State.complete; dsimp only; (repeat' split) <;> simp
@[simp] theorem complete_freeCtr (q tag op st dt r2 r3 : Nat) : (s.complete q tag op st dt r2 r3).freeCtr = s.freeCtr := by unfold State.complete; dsimp only; (repeat' split) <;> simp
@[simp] theorem complete_time (q tag op st dt r2 r3 : Nat) : (s.complete q tag op st dt r2 r3).time = s.time := by unfold State.complete; dsimp only; (repeat' split) <;> simp
@[simp] theorem complete_ports (q tag op st dt r2 r3 : Nat) : (s.complete q tag op st dt r2 r3).ports = s.ports := by unfold State.complete; dsimp only; (repeat' split) <;> simp
@[simp] theorem complete_ing (q tag op st dt r2 r3 : Nat) : (s.complete q tag op st dt r2 r3).ing = s.ing := by unfold State.complete; dsimp only; (repeat' split) <;> simp
@[simp] theorem complete_chans (q tag op st dt r2 r3 : Nat) : (s.complete q tag op st dt r2 r3).chans = s.chans := by unfold State.complete; dsimp only; (repeat' split) <;> simp
@[simp] theorem complete_slots (q tag op st dt r2 r3 : Nat) : (s.complete q tag op st dt r2 r3).slots = s.slots := by unfold State.complete; dsimp only; (repeat' split) <;> simp
@[simp] theorem complete_mor (q tag op st dt r2 r3 : Nat) : (s.complete q tag op st dt r2 r3).mor = s.mor := by unfold State.complete; dsimp only; (repeat' split) <;> simp
@[simp] theorem complete_engines (q tag op st dt r2 r3 : Nat) : (s.complete q tag op st dt r2 r3).engines = s.engines := by unfold State.complete; dsimp only; (repeat' split) <;> simp
@[simp] theorem complete_saved (q tag op st dt r2 r3 : Nat) : (s.complete q tag op st dt r2 r3).saved = s.saved := by unfold State.complete; dsimp only; (repeat' split) <;> simp
@[simp] theorem complete_weldU (q tag op st dt r2 r3 : Nat) : (s.complete q tag op st dt r2 r3).weldU = s.weldU := by unfold State.complete; dsimp only; (repeat' split) <;> simp
@[simp] theorem complete_glaze (q tag op st dt r2 r3 : Nat) : (s.complete q tag op st dt r2 r3).glaze = s.glaze := by unfold State.complete; dsimp only; (repeat' split) <;> simp
@[simp] theorem complete_cap (q tag op st dt r2 r3 : Nat) : (s.complete q tag op st dt r2 r3).cap = s.cap := by unfold State.complete; dsimp only; (repeat' split) <;> simp
@[simp] theorem complete_ring (q tag op st dt r2 r3 : Nat) : (s.complete q tag op st dt r2 r3).ring = s.ring := by unfold State.complete; dsimp only; (repeat' split) <;> simp
@[simp] theorem complete_img (q tag op st dt r2 r3 : Nat) : (s.complete q tag op st dt r2 r3).img = s.img := by unfold State.complete; dsimp only; (repeat' split) <;> simp
@[simp] theorem complete_pwr (q tag op st dt r2 r3 : Nat) : (s.complete q tag op st dt r2 r3).pwr = s.pwr := by unfold State.complete; dsimp only; (repeat' split) <;> simp
@[simp] theorem complete_tb (q tag op st dt r2 r3 : Nat) (k : Nat) : (s.complete q tag op st dt r2 r3).tb k = s.tb k := by simp [tb]
@[simp] theorem complete_tbVal (q tag op st dt r2 r3 : Nat) (k : Nat) : (s.complete q tag op st dt r2 r3).tbVal k = s.tbVal k := by simp [tbVal, tb]
@[simp] theorem complete_port (q tag op st dt r2 r3 : Nat) (k : Nat) : (s.complete q tag op st dt r2 r3).port k = s.port k := by simp [port]
@[simp] theorem complete_chan (q tag op st dt r2 r3 : Nat) (k : Nat) : (s.complete q tag op st dt r2 r3).chan k = s.chan k := by simp [chan]
@[simp] theorem complete_me (q tag op st dt r2 r3 : Nat) (k : Nat) : (s.complete q tag op st dt r2 r3).me k = s.me k := by simp [me]
@[simp] theorem complete_eng (q tag op st dt r2 r3 : Nat) (k : Nat) : (s.complete q tag op st dt r2 r3).eng k = s.eng k := by simp [eng]
@[simp] theorem complete_link (q tag op st dt r2 r3 : Nat) (k : Nat) : (s.complete q tag op st dt r2 r3).link k = s.link k := by simp [link]

/-! ### completeFinal -/

@[simp] theorem completeFinal_pending (q tag st r2 r3 : Nat) : (s.completeFinal q tag st r2 r3).pending = s.pending := by unfold State.completeFinal; dsimp only; (repeat' split) <;> simp
@[simp] theorem completeFinal_now (q tag st r2 r3 : Nat) : (s.completeFinal q tag st r2 r3).now = s.now := by unfold State.completeFinal; dsimp only; (repeat' split) <;> simp
@[simp] theorem completeFinal_freeCtr (q tag st r2 r3 : Nat) : (s.completeFinal q tag st r2 r3).freeCtr = s.freeCtr := by unfold State.completeFinal; dsimp only; (repeat' split) <;> simp
@[simp] theorem completeFinal_time (q tag st r2 r3 : Nat) : (s.completeFinal q tag st r2 r3).time = s.time := by unfold State.completeFinal; dsimp only; (repeat' split) <;> simp
@[simp] theorem completeFinal_ports (q tag st r2 r3 : Nat) : (s.completeFinal q tag st r2 r3).ports = s.ports := by unfold State.completeFinal; dsimp only; (repeat' split) <;> simp
@[simp] theorem completeFinal_ing (q tag st r2 r3 : Nat) : (s.completeFinal q tag st r2 r3).ing = s.ing := by unfold State.completeFinal; dsimp only; (repeat' split) <;> simp
@[simp] theorem completeFinal_chans (q tag st r2 r3 : Nat) : (s.completeFinal q tag st r2 r3).chans = s.chans := by unfold State.completeFinal; dsimp only; (repeat' split) <;> simp
@[simp] theorem completeFinal_slots (q tag st r2 r3 : Nat) : (s.completeFinal q tag st r2 r3).slots = s.slots := by unfold State.completeFinal; dsimp only; (repeat' split) <;> simp
@[simp] theorem completeFinal_mor (q tag st r2 r3 : Nat) : (s.completeFinal q tag st r2 r3).mor = s.mor := by unfold State.completeFinal; dsimp only; (repeat' split) <;> simp
@[simp] theorem completeFinal_engines (q tag st r2 r3 : Nat) : (s.completeFinal q tag st r2 r3).engines = s.engines := by unfold State.completeFinal; dsimp only; (repeat' split) <;> simp
@[simp] theorem completeFinal_saved (q tag st r2 r3 : Nat) : (s.completeFinal q tag st r2 r3).saved = s.saved := by unfold State.completeFinal; dsimp only; (repeat' split) <;> simp
@[simp] theorem completeFinal_weldU (q tag st r2 r3 : Nat) : (s.completeFinal q tag st r2 r3).weldU = s.weldU := by unfold State.completeFinal; dsimp only; (repeat' split) <;> simp
@[simp] theorem completeFinal_glaze (q tag st r2 r3 : Nat) : (s.completeFinal q tag st r2 r3).glaze = s.glaze := by unfold State.completeFinal; dsimp only; (repeat' split) <;> simp
@[simp] theorem completeFinal_cap (q tag st r2 r3 : Nat) : (s.completeFinal q tag st r2 r3).cap = s.cap := by unfold State.completeFinal; dsimp only; (repeat' split) <;> simp
@[simp] theorem completeFinal_ring (q tag st r2 r3 : Nat) : (s.completeFinal q tag st r2 r3).ring = s.ring := by unfold State.completeFinal; dsimp only; (repeat' split) <;> simp
@[simp] theorem completeFinal_img (q tag st r2 r3 : Nat) : (s.completeFinal q tag st r2 r3).img = s.img := by unfold State.completeFinal; dsimp only; (repeat' split) <;> simp
@[simp] theorem completeFinal_pwr (q tag st r2 r3 : Nat) : (s.completeFinal q tag st r2 r3).pwr = s.pwr := by unfold State.completeFinal; dsimp only; (repeat' split) <;> simp
@[simp] theorem completeFinal_tb (q tag st r2 r3 : Nat) (k : Nat) : (s.completeFinal q tag st r2 r3).tb k = s.tb k := by simp [tb]
@[simp] theorem completeFinal_tbVal (q tag st r2 r3 : Nat) (k : Nat) : (s.completeFinal q tag st r2 r3).tbVal k = s.tbVal k := by simp [tbVal, tb]
@[simp] theorem completeFinal_port (q tag st r2 r3 : Nat) (k : Nat) : (s.completeFinal q tag st r2 r3).port k = s.port k := by simp [port]
@[simp] theorem completeFinal_chan (q tag st r2 r3 : Nat) (k : Nat) : (s.completeFinal q tag st r2 r3).chan k = s.chan k := by simp [chan]
@[simp] theorem completeFinal_me (q tag st r2 r3 : Nat) (k : Nat) : (s.completeFinal q tag st r2 r3).me k = s.me k := by simp [me]
@[simp] theorem completeFinal_eng (q tag st r2 r3 : Nat) (k : Nat) : (s.completeFinal q tag st r2 r3).eng k = s.eng k := by simp [eng]
@[simp] theorem completeFinal_link (q tag st r2 r3 : Nat) (k : Nat) : (s.completeFinal q tag st r2 r3).link k = s.link k := by simp [link]

/-! ### take -/

@[simp] theorem take_pending (q tag op w1 : Nat) : (s.take q tag op w1).pending = s.pending := by unfold State.take; simp
@[simp] theorem take_now (q tag op w1 : Nat) : (s.take q tag op w1).now = s.now := by unfold State.take; simp
@[simp] theorem take_freeCtr (q tag op w1 : Nat) : (s.take q tag op w1).freeCtr = s.freeCtr := by unfold State.take; simp
@[simp] theorem take_regs (q tag op w1 : Nat) : (s.take q tag op w1).regs = s.regs := by unfold State.take; simp
@[simp] theorem take_time (q tag op w1 : Nat) : (s.take q tag op w1).time = s.time := by unfold State.take; simp
@[simp] theorem take_ports (q tag op w1 : Nat) : (s.take q tag op w1).ports = s.ports := by unfold State.take; simp
@[simp] theorem take_ing (q tag op w1 : Nat) : (s.take q tag op w1).ing = s.ing := by unfold State.take; simp
@[simp] theorem take_chans (q tag op w1 : Nat) : (s.take q tag op w1).chans = s.chans := by unfold State.take; simp
@[simp] theorem take_slots (q tag op w1 : Nat) : (s.take q tag op w1).slots = s.slots := by unfold State.take; simp
@[simp] theorem take_mor (q tag op w1 : Nat) : (s.take q tag op w1).mor = s.mor := by unfold State.take; simp
@[simp] theorem take_engines (q tag op w1 : Nat) : (s.take q tag op w1).engines = s.engines := by unfold State.take; simp
@[simp] theorem take_saved (q tag op w1 : Nat) : (s.take q tag op w1).saved = s.saved := by unfold State.take; simp
@[simp] theorem take_weldU (q tag op w1 : Nat) : (s.take q tag op w1).weldU = s.weldU := by unfold State.take; simp
@[simp] theorem take_glaze (q tag op w1 : Nat) : (s.take q tag op w1).glaze = s.glaze := by unfold State.take; simp
@[simp] theorem take_mem (q tag op w1 : Nat) : (s.take q tag op w1).mem = s.mem := by unfold State.take; simp
@[simp] theorem take_cap (q tag op w1 : Nat) : (s.take q tag op w1).cap = s.cap := by unfold State.take; simp
@[simp] theorem take_ring (q tag op w1 : Nat) : (s.take q tag op w1).ring = s.ring := by unfold State.take; simp
@[simp] theorem take_img (q tag op w1 : Nat) : (s.take q tag op w1).img = s.img := by unfold State.take; simp
@[simp] theorem take_pwr (q tag op w1 : Nat) : (s.take q tag op w1).pwr = s.pwr := by unfold State.take; simp
@[simp] theorem take_rd (q tag op w1 : Nat) (d' : RegDesc) (i' j' : Nat) : (s.take q tag op w1).rd d' i' j' = s.rd d' i' j' := by simp [rd]
@[simp] theorem take_flag (q tag op w1 : Nat) (d' : RegDesc) (i' j' : Nat) : (s.take q tag op w1).flag d' i' j' = s.flag d' i' j' := by simp [flag, rd]
@[simp] theorem take_tb (q tag op w1 : Nat) (k : Nat) : (s.take q tag op w1).tb k = s.tb k := by simp [tb]
@[simp] theorem take_tbVal (q tag op w1 : Nat) (k : Nat) : (s.take q tag op w1).tbVal k = s.tbVal k := by simp [tbVal, tb]
@[simp] theorem take_port (q tag op w1 : Nat) (k : Nat) : (s.take q tag op w1).port k = s.port k := by simp [port]
@[simp] theorem take_chan (q tag op w1 : Nat) (k : Nat) : (s.take q tag op w1).chan k = s.chan k := by simp [chan]
@[simp] theorem take_me (q tag op w1 : Nat) (k : Nat) : (s.take q tag op w1).me k = s.me k := by simp [me]
@[simp] theorem take_eng (q tag op w1 : Nat) (k : Nat) : (s.take q tag op w1).eng k = s.eng k := by simp [eng]
@[simp] theorem take_mc (q tag op w1 : Nat) (k : Nat) : (s.take q tag op w1).mc k = s.mc k := by simp [mc]
@[simp] theorem take_link (q tag op w1 : Nat) (k : Nat) : (s.take q tag op w1).link k = s.link k := by simp [link]

/-! ### taking -/

@[simp] theorem taking_pending (q tag op w1 : Nat) : (s.taking q tag op w1).pending = s.pending := by unfold State.taking; split <;> simp
@[simp] theorem taking_now (q tag op w1 : Nat) : (s.taking q tag op w1).now = s.now := by unfold State.taking; split <;> simp
@[simp] theorem taking_freeCtr (q tag op w1 : Nat) : (s.taking q tag op w1).freeCtr = s.freeCtr := by unfold State.taking; split <;> simp
@[simp] theorem taking_regs (q tag op w1 : Nat) : (s.taking q tag op w1).regs = s.regs := by unfold State.taking; split <;> simp
@[simp] theorem taking_time (q tag op w1 : Nat) : (s.taking q tag op w1).time = s.time := by unfold State.taking; split <;> simp
@[simp] theorem taking_ports (q tag op w1 : Nat) : (s.taking q tag op w1).ports = s.ports := by unfold State.taking; split <;> simp
@[simp] theorem taking_ing (q tag op w1 : Nat) : (s.taking q tag op w1).ing = s.ing := by unfold State.taking; split <;> simp
@[simp] theorem taking_chans (q tag op w1 : Nat) : (s.taking q tag op w1).chans = s.chans := by unfold State.taking; split <;> simp
@[simp] theorem taking_slots (q tag op w1 : Nat) : (s.taking q tag op w1).slots = s.slots := by unfold State.taking; split <;> simp
@[simp] theorem taking_mor (q tag op w1 : Nat) : (s.taking q tag op w1).mor = s.mor := by unfold State.taking; split <;> simp
@[simp] theorem taking_engines (q tag op w1 : Nat) : (s.taking q tag op w1).engines = s.engines := by unfold State.taking; split <;> simp
@[simp] theorem taking_saved (q tag op w1 : Nat) : (s.taking q tag op w1).saved = s.saved := by unfold State.taking; split <;> simp
@[simp] theorem taking_weldU (q tag op w1 : Nat) : (s.taking q tag op w1).weldU = s.weldU := by unfold State.taking; split <;> simp
@[simp] theorem taking_glaze (q tag op w1 : Nat) : (s.taking q tag op w1).glaze = s.glaze := by unfold State.taking; split <;> simp
@[simp] theorem taking_mem (q tag op w1 : Nat) : (s.taking q tag op w1).mem = s.mem := by unfold State.taking; split <;> simp
@[simp] theorem taking_cap (q tag op w1 : Nat) : (s.taking q tag op w1).cap = s.cap := by unfold State.taking; split <;> simp
@[simp] theorem taking_ring (q tag op w1 : Nat) : (s.taking q tag op w1).ring = s.ring := by unfold State.taking; split <;> simp
@[simp] theorem taking_img (q tag op w1 : Nat) : (s.taking q tag op w1).img = s.img := by unfold State.taking; split <;> simp
@[simp] theorem taking_pwr (q tag op w1 : Nat) : (s.taking q tag op w1).pwr = s.pwr := by unfold State.taking; split <;> simp
@[simp] theorem taking_rd (q tag op w1 : Nat) (d' : RegDesc) (i' j' : Nat) : (s.taking q tag op w1).rd d' i' j' = s.rd d' i' j' := by simp [rd]
@[simp] theorem taking_flag (q tag op w1 : Nat) (d' : RegDesc) (i' j' : Nat) : (s.taking q tag op w1).flag d' i' j' = s.flag d' i' j' := by simp [flag, rd]
@[simp] theorem taking_tb (q tag op w1 : Nat) (k : Nat) : (s.taking q tag op w1).tb k = s.tb k := by simp [tb]
@[simp] theorem taking_tbVal (q tag op w1 : Nat) (k : Nat) : (s.taking q tag op w1).tbVal k = s.tbVal k := by simp [tbVal, tb]
@[simp] theorem taking_port (q tag op w1 : Nat) (k : Nat) : (s.taking q tag op w1).port k = s.port k := by simp [port]
@[simp] theorem taking_chan (q tag op w1 : Nat) (k : Nat) : (s.taking q tag op w1).chan k = s.chan k := by simp [chan]
@[simp] theorem taking_me (q tag op w1 : Nat) (k : Nat) : (s.taking q tag op w1).me k = s.me k := by simp [me]
@[simp] theorem taking_eng (q tag op w1 : Nat) (k : Nat) : (s.taking q tag op w1).eng k = s.eng k := by simp [eng]
@[simp] theorem taking_mc (q tag op w1 : Nat) (k : Nat) : (s.taking q tag op w1).mc k = s.mc k := by simp [mc]
@[simp] theorem taking_link (q tag op w1 : Nat) (k : Nat) : (s.taking q tag op w1).link k = s.link k := by simp [link]

/-! ### markApplied -/

@[simp] theorem markApplied_pending (q tag : Nat) : (s.markApplied q tag).pending = s.pending := rfl
@[simp] theorem markApplied_now (q tag : Nat) : (s.markApplied q tag).now = s.now := rfl
@[simp] theorem markApplied_freeCtr (q tag : Nat) : (s.markApplied q tag).freeCtr = s.freeCtr := rfl
@[simp] theorem markApplied_regs (q tag : Nat) : (s.markApplied q tag).regs = s.regs := rfl
@[simp] theorem markApplied_time (q tag : Nat) : (s.markApplied q tag).time = s.time := rfl
@[simp] theorem markApplied_ports (q tag : Nat) : (s.markApplied q tag).ports = s.ports := rfl
@[simp] theorem markApplied_ing (q tag : Nat) : (s.markApplied q tag).ing = s.ing := rfl
@[simp] theorem markApplied_chans (q tag : Nat) : (s.markApplied q tag).chans = s.chans := rfl
@[simp] theorem markApplied_slots (q tag : Nat) : (s.markApplied q tag).slots = s.slots := rfl
@[simp] theorem markApplied_mor (q tag : Nat) : (s.markApplied q tag).mor = s.mor := rfl
@[simp] theorem markApplied_engines (q tag : Nat) : (s.markApplied q tag).engines = s.engines := rfl
@[simp] theorem markApplied_saved (q tag : Nat) : (s.markApplied q tag).saved = s.saved := rfl
@[simp] theorem markApplied_weldU (q tag : Nat) : (s.markApplied q tag).weldU = s.weldU := rfl
@[simp] theorem markApplied_glaze (q tag : Nat) : (s.markApplied q tag).glaze = s.glaze := rfl
@[simp] theorem markApplied_mem (q tag : Nat) : (s.markApplied q tag).mem = s.mem := rfl
@[simp] theorem markApplied_host (q tag : Nat) : (s.markApplied q tag).host = s.host := rfl
@[simp] theorem markApplied_cap (q tag : Nat) : (s.markApplied q tag).cap = s.cap := rfl
@[simp] theorem markApplied_ring (q tag : Nat) : (s.markApplied q tag).ring = s.ring := rfl
@[simp] theorem markApplied_img (q tag : Nat) : (s.markApplied q tag).img = s.img := rfl
@[simp] theorem markApplied_pwr (q tag : Nat) : (s.markApplied q tag).pwr = s.pwr := rfl
@[simp] theorem markApplied_rd (q tag : Nat) (d' : RegDesc) (i' j' : Nat) : (s.markApplied q tag).rd d' i' j' = s.rd d' i' j' := by simp [rd]
@[simp] theorem markApplied_flag (q tag : Nat) (d' : RegDesc) (i' j' : Nat) : (s.markApplied q tag).flag d' i' j' = s.flag d' i' j' := by simp [flag, rd]
@[simp] theorem markApplied_tb (q tag : Nat) (k : Nat) : (s.markApplied q tag).tb k = s.tb k := by simp [tb]
@[simp] theorem markApplied_tbVal (q tag : Nat) (k : Nat) : (s.markApplied q tag).tbVal k = s.tbVal k := by simp [tbVal, tb]
@[simp] theorem markApplied_port (q tag : Nat) (k : Nat) : (s.markApplied q tag).port k = s.port k := by simp [port]
@[simp] theorem markApplied_chan (q tag : Nat) (k : Nat) : (s.markApplied q tag).chan k = s.chan k := by simp [chan]
@[simp] theorem markApplied_me (q tag : Nat) (k : Nat) : (s.markApplied q tag).me k = s.me k := by simp [me]
@[simp] theorem markApplied_eng (q tag : Nat) (k : Nat) : (s.markApplied q tag).eng k = s.eng k := by simp [eng]
@[simp] theorem markApplied_mc (q tag : Nat) (k : Nat) : (s.markApplied q tag).mc k = s.mc k := by simp [mc]
@[simp] theorem markApplied_hq (q tag : Nat) (k : Nat) : (s.markApplied q tag).hq k = s.hq k := by simp [hq]
@[simp] theorem markApplied_link (q tag : Nat) (k : Nat) : (s.markApplied q tag).link k = s.link k := by simp [link]

/-! ### notice -/

@[simp] theorem notice_pending (w0 w1 w2 w3 : Nat) : (s.notice w0 w1 w2 w3).pending = s.pending := by unfold State.notice; dsimp only; (repeat' split) <;> simp [State.bump_eq]
@[simp] theorem notice_now (w0 w1 w2 w3 : Nat) : (s.notice w0 w1 w2 w3).now = s.now := by unfold State.notice; dsimp only; (repeat' split) <;> simp [State.bump_eq]
@[simp] theorem notice_freeCtr (w0 w1 w2 w3 : Nat) : (s.notice w0 w1 w2 w3).freeCtr = s.freeCtr := by unfold State.notice; dsimp only; (repeat' split) <;> simp [State.bump_eq]
@[simp] theorem notice_time (w0 w1 w2 w3 : Nat) : (s.notice w0 w1 w2 w3).time = s.time := by unfold State.notice; dsimp only; (repeat' split) <;> simp [State.bump_eq]
@[simp] theorem notice_ports (w0 w1 w2 w3 : Nat) : (s.notice w0 w1 w2 w3).ports = s.ports := by unfold State.notice; dsimp only; (repeat' split) <;> simp [State.bump_eq]
@[simp] theorem notice_ing (w0 w1 w2 w3 : Nat) : (s.notice w0 w1 w2 w3).ing = s.ing := by unfold State.notice; dsimp only; (repeat' split) <;> simp [State.bump_eq]
@[simp] theorem notice_chans (w0 w1 w2 w3 : Nat) : (s.notice w0 w1 w2 w3).chans = s.chans := by unfold State.notice; dsimp only; (repeat' split) <;> simp [State.bump_eq]
@[simp] theorem notice_slots (w0 w1 w2 w3 : Nat) : (s.notice w0 w1 w2 w3).slots = s.slots := by unfold State.notice; dsimp only; (repeat' split) <;> simp [State.bump_eq]
@[simp] theorem notice_mor (w0 w1 w2 w3 : Nat) : (s.notice w0 w1 w2 w3).mor = s.mor := by unfold State.notice; dsimp only; (repeat' split) <;> simp [State.bump_eq]
@[simp] theorem notice_engines (w0 w1 w2 w3 : Nat) : (s.notice w0 w1 w2 w3).engines = s.engines := by unfold State.notice; dsimp only; (repeat' split) <;> simp [State.bump_eq]
@[simp] theorem notice_saved (w0 w1 w2 w3 : Nat) : (s.notice w0 w1 w2 w3).saved = s.saved := by unfold State.notice; dsimp only; (repeat' split) <;> simp [State.bump_eq]
@[simp] theorem notice_weldU (w0 w1 w2 w3 : Nat) : (s.notice w0 w1 w2 w3).weldU = s.weldU := by unfold State.notice; dsimp only; (repeat' split) <;> simp [State.bump_eq]
@[simp] theorem notice_glaze (w0 w1 w2 w3 : Nat) : (s.notice w0 w1 w2 w3).glaze = s.glaze := by unfold State.notice; dsimp only; (repeat' split) <;> simp [State.bump_eq]
@[simp] theorem notice_cap (w0 w1 w2 w3 : Nat) : (s.notice w0 w1 w2 w3).cap = s.cap := by unfold State.notice; dsimp only; (repeat' split) <;> simp [State.bump_eq]
@[simp] theorem notice_ring (w0 w1 w2 w3 : Nat) : (s.notice w0 w1 w2 w3).ring = s.ring := by unfold State.notice; dsimp only; (repeat' split) <;> simp [State.bump_eq]
@[simp] theorem notice_img (w0 w1 w2 w3 : Nat) : (s.notice w0 w1 w2 w3).img = s.img := by unfold State.notice; dsimp only; (repeat' split) <;> simp [State.bump_eq]
@[simp] theorem notice_pwr (w0 w1 w2 w3 : Nat) : (s.notice w0 w1 w2 w3).pwr = s.pwr := by unfold State.notice; dsimp only; (repeat' split) <;> simp [State.bump_eq]
@[simp] theorem notice_tb (w0 w1 w2 w3 : Nat) (k : Nat) : (s.notice w0 w1 w2 w3).tb k = s.tb k := by simp [tb]
@[simp] theorem notice_tbVal (w0 w1 w2 w3 : Nat) (k : Nat) : (s.notice w0 w1 w2 w3).tbVal k = s.tbVal k := by simp [tbVal, tb]
@[simp] theorem notice_port (w0 w1 w2 w3 : Nat) (k : Nat) : (s.notice w0 w1 w2 w3).port k = s.port k := by simp [port]
@[simp] theorem notice_chan (w0 w1 w2 w3 : Nat) (k : Nat) : (s.notice w0 w1 w2 w3).chan k = s.chan k := by simp [chan]
@[simp] theorem notice_me (w0 w1 w2 w3 : Nat) (k : Nat) : (s.notice w0 w1 w2 w3).me k = s.me k := by simp [me]
@[simp] theorem notice_eng (w0 w1 w2 w3 : Nat) (k : Nat) : (s.notice w0 w1 w2 w3).eng k = s.eng k := by simp [eng]
@[simp] theorem notice_link (w0 w1 w2 w3 : Nat) (k : Nat) : (s.notice w0 w1 w2 w3).link k = s.link k := by simp [link]

/-! ### takeBuf -/

@[simp] theorem takeBuf_pending (c n : Nat) : (s.takeBuf c n).pending = s.pending := rfl
@[simp] theorem takeBuf_now (c n : Nat) : (s.takeBuf c n).now = s.now := rfl
@[simp] theorem takeBuf_freeCtr (c n : Nat) : (s.takeBuf c n).freeCtr = s.freeCtr := rfl
@[simp] theorem takeBuf_regs (c n : Nat) : (s.takeBuf c n).regs = s.regs := rfl
@[simp] theorem takeBuf_sup (c n : Nat) : (s.takeBuf c n).sup = s.sup := rfl
@[simp] theorem takeBuf_time (c n : Nat) : (s.takeBuf c n).time = s.time := rfl
@[simp] theorem takeBuf_ports (c n : Nat) : (s.takeBuf c n).ports = s.ports := rfl
@[simp] theorem takeBuf_chans (c n : Nat) : (s.takeBuf c n).chans = s.chans := rfl
@[simp] theorem takeBuf_slots (c n : Nat) : (s.takeBuf c n).slots = s.slots := rfl
@[simp] theorem takeBuf_mor (c n : Nat) : (s.takeBuf c n).mor = s.mor := rfl
@[simp] theorem takeBuf_engines (c n : Nat) : (s.takeBuf c n).engines = s.engines := rfl
@[simp] theorem takeBuf_saved (c n : Nat) : (s.takeBuf c n).saved = s.saved := rfl
@[simp] theorem takeBuf_weldU (c n : Nat) : (s.takeBuf c n).weldU = s.weldU := rfl
@[simp] theorem takeBuf_glaze (c n : Nat) : (s.takeBuf c n).glaze = s.glaze := rfl
@[simp] theorem takeBuf_mem (c n : Nat) : (s.takeBuf c n).mem = s.mem := rfl
@[simp] theorem takeBuf_host (c n : Nat) : (s.takeBuf c n).host = s.host := rfl
@[simp] theorem takeBuf_cap (c n : Nat) : (s.takeBuf c n).cap = s.cap := rfl
@[simp] theorem takeBuf_ring (c n : Nat) : (s.takeBuf c n).ring = s.ring := rfl
@[simp] theorem takeBuf_img (c n : Nat) : (s.takeBuf c n).img = s.img := rfl
@[simp] theorem takeBuf_pwr (c n : Nat) : (s.takeBuf c n).pwr = s.pwr := rfl
@[simp] theorem takeBuf_rd (c n : Nat) (d' : RegDesc) (i' j' : Nat) : (s.takeBuf c n).rd d' i' j' = s.rd d' i' j' := by simp [rd]
@[simp] theorem takeBuf_flag (c n : Nat) (d' : RegDesc) (i' j' : Nat) : (s.takeBuf c n).flag d' i' j' = s.flag d' i' j' := by simp [flag, rd]
@[simp] theorem takeBuf_warden (c n : Nat) (k : Nat) : (s.takeBuf c n).warden k = s.warden k := by simp [warden]
@[simp] theorem takeBuf_tb (c n : Nat) (k : Nat) : (s.takeBuf c n).tb k = s.tb k := by simp [tb]
@[simp] theorem takeBuf_tbVal (c n : Nat) (k : Nat) : (s.takeBuf c n).tbVal k = s.tbVal k := by simp [tbVal, tb]
@[simp] theorem takeBuf_port (c n : Nat) (k : Nat) : (s.takeBuf c n).port k = s.port k := by simp [port]
@[simp] theorem takeBuf_chan (c n : Nat) (k : Nat) : (s.takeBuf c n).chan k = s.chan k := by simp [chan]
@[simp] theorem takeBuf_me (c n : Nat) (k : Nat) : (s.takeBuf c n).me k = s.me k := by simp [me]
@[simp] theorem takeBuf_eng (c n : Nat) (k : Nat) : (s.takeBuf c n).eng k = s.eng k := by simp [eng]
@[simp] theorem takeBuf_mc (c n : Nat) (k : Nat) : (s.takeBuf c n).mc k = s.mc k := by simp [mc]
@[simp] theorem takeBuf_hq (c n : Nat) (k : Nat) : (s.takeBuf c n).hq k = s.hq k := by simp [hq]
@[simp] theorem takeBuf_link (c n : Nat) (k : Nat) : (s.takeBuf c n).link k = s.link k := by simp [link]

/-! ### freeBuf -/

@[simp] theorem freeBuf_pending (c n : Nat) : (s.freeBuf c n).pending = s.pending := rfl
@[simp] theorem freeBuf_now (c n : Nat) : (s.freeBuf c n).now = s.now := rfl
@[simp] theorem freeBuf_freeCtr (c n : Nat) : (s.freeBuf c n).freeCtr = s.freeCtr := rfl
@[simp] theorem freeBuf_regs (c n : Nat) : (s.freeBuf c n).regs = s.regs := rfl
@[simp] theorem freeBuf_sup (c n : Nat) : (s.freeBuf c n).sup = s.sup := rfl
@[simp] theorem freeBuf_time (c n : Nat) : (s.freeBuf c n).time = s.time := rfl
@[simp] theorem freeBuf_ports (c n : Nat) : (s.freeBuf c n).ports = s.ports := rfl
@[simp] theorem freeBuf_chans (c n : Nat) : (s.freeBuf c n).chans = s.chans := rfl
@[simp] theorem freeBuf_slots (c n : Nat) : (s.freeBuf c n).slots = s.slots := rfl
@[simp] theorem freeBuf_mor (c n : Nat) : (s.freeBuf c n).mor = s.mor := rfl
@[simp] theorem freeBuf_engines (c n : Nat) : (s.freeBuf c n).engines = s.engines := rfl
@[simp] theorem freeBuf_saved (c n : Nat) : (s.freeBuf c n).saved = s.saved := rfl
@[simp] theorem freeBuf_weldU (c n : Nat) : (s.freeBuf c n).weldU = s.weldU := rfl
@[simp] theorem freeBuf_glaze (c n : Nat) : (s.freeBuf c n).glaze = s.glaze := rfl
@[simp] theorem freeBuf_mem (c n : Nat) : (s.freeBuf c n).mem = s.mem := rfl
@[simp] theorem freeBuf_host (c n : Nat) : (s.freeBuf c n).host = s.host := rfl
@[simp] theorem freeBuf_cap (c n : Nat) : (s.freeBuf c n).cap = s.cap := rfl
@[simp] theorem freeBuf_ring (c n : Nat) : (s.freeBuf c n).ring = s.ring := rfl
@[simp] theorem freeBuf_img (c n : Nat) : (s.freeBuf c n).img = s.img := rfl
@[simp] theorem freeBuf_pwr (c n : Nat) : (s.freeBuf c n).pwr = s.pwr := rfl
@[simp] theorem freeBuf_rd (c n : Nat) (d' : RegDesc) (i' j' : Nat) : (s.freeBuf c n).rd d' i' j' = s.rd d' i' j' := by simp [rd]
@[simp] theorem freeBuf_flag (c n : Nat) (d' : RegDesc) (i' j' : Nat) : (s.freeBuf c n).flag d' i' j' = s.flag d' i' j' := by simp [flag, rd]
@[simp] theorem freeBuf_warden (c n : Nat) (k : Nat) : (s.freeBuf c n).warden k = s.warden k := by simp [warden]
@[simp] theorem freeBuf_tb (c n : Nat) (k : Nat) : (s.freeBuf c n).tb k = s.tb k := by simp [tb]
@[simp] theorem freeBuf_tbVal (c n : Nat) (k : Nat) : (s.freeBuf c n).tbVal k = s.tbVal k := by simp [tbVal, tb]
@[simp] theorem freeBuf_port (c n : Nat) (k : Nat) : (s.freeBuf c n).port k = s.port k := by simp [port]
@[simp] theorem freeBuf_chan (c n : Nat) (k : Nat) : (s.freeBuf c n).chan k = s.chan k := by simp [chan]
@[simp] theorem freeBuf_me (c n : Nat) (k : Nat) : (s.freeBuf c n).me k = s.me k := by simp [me]
@[simp] theorem freeBuf_eng (c n : Nat) (k : Nat) : (s.freeBuf c n).eng k = s.eng k := by simp [eng]
@[simp] theorem freeBuf_mc (c n : Nat) (k : Nat) : (s.freeBuf c n).mc k = s.mc k := by simp [mc]
@[simp] theorem freeBuf_hq (c n : Nat) (k : Nat) : (s.freeBuf c n).hq k = s.hq k := by simp [hq]
@[simp] theorem freeBuf_link (c n : Nat) (k : Nat) : (s.freeBuf c n).link k = s.link k := by simp [link]

/-! ### cfgErr -/

@[simp] theorem cfgErr_pending (d : RegDesc) (i : Nat) : (s.cfgErr d i).pending = s.pending := rfl
@[simp] theorem cfgErr_now (d : RegDesc) (i : Nat) : (s.cfgErr d i).now = s.now := rfl
@[simp] theorem cfgErr_freeCtr (d : RegDesc) (i : Nat) : (s.cfgErr d i).freeCtr = s.freeCtr := rfl
@[simp] theorem cfgErr_sup (d : RegDesc) (i : Nat) : (s.cfgErr d i).sup = s.sup := rfl
@[simp] theorem cfgErr_time (d : RegDesc) (i : Nat) : (s.cfgErr d i).time = s.time := rfl
@[simp] theorem cfgErr_ports (d : RegDesc) (i : Nat) : (s.cfgErr d i).ports = s.ports := rfl
@[simp] theorem cfgErr_ing (d : RegDesc) (i : Nat) : (s.cfgErr d i).ing = s.ing := rfl
@[simp] theorem cfgErr_chans (d : RegDesc) (i : Nat) : (s.cfgErr d i).chans = s.chans := rfl
@[simp] theorem cfgErr_slots (d : RegDesc) (i : Nat) : (s.cfgErr d i).slots = s.slots := rfl
@[simp] theorem cfgErr_mor (d : RegDesc) (i : Nat) : (s.cfgErr d i).mor = s.mor := rfl
@[simp] theorem cfgErr_engines (d : RegDesc) (i : Nat) : (s.cfgErr d i).engines = s.engines := rfl
@[simp] theorem cfgErr_saved (d : RegDesc) (i : Nat) : (s.cfgErr d i).saved = s.saved := rfl
@[simp] theorem cfgErr_weldU (d : RegDesc) (i : Nat) : (s.cfgErr d i).weldU = s.weldU := rfl
@[simp] theorem cfgErr_glaze (d : RegDesc) (i : Nat) : (s.cfgErr d i).glaze = s.glaze := rfl
@[simp] theorem cfgErr_mem (d : RegDesc) (i : Nat) : (s.cfgErr d i).mem = s.mem := rfl
@[simp] theorem cfgErr_host (d : RegDesc) (i : Nat) : (s.cfgErr d i).host = s.host := rfl
@[simp] theorem cfgErr_cap (d : RegDesc) (i : Nat) : (s.cfgErr d i).cap = s.cap := rfl
@[simp] theorem cfgErr_ring (d : RegDesc) (i : Nat) : (s.cfgErr d i).ring = s.ring := rfl
@[simp] theorem cfgErr_img (d : RegDesc) (i : Nat) : (s.cfgErr d i).img = s.img := rfl
@[simp] theorem cfgErr_pwr (d : RegDesc) (i : Nat) : (s.cfgErr d i).pwr = s.pwr := rfl
@[simp] theorem cfgErr_warden (d : RegDesc) (i : Nat) (k : Nat) : (s.cfgErr d i).warden k = s.warden k := by simp [warden]
@[simp] theorem cfgErr_tb (d : RegDesc) (i : Nat) (k : Nat) : (s.cfgErr d i).tb k = s.tb k := by simp [tb]
@[simp] theorem cfgErr_tbVal (d : RegDesc) (i : Nat) (k : Nat) : (s.cfgErr d i).tbVal k = s.tbVal k := by simp [tbVal, tb]
@[simp] theorem cfgErr_port (d : RegDesc) (i : Nat) (k : Nat) : (s.cfgErr d i).port k = s.port k := by simp [port]
@[simp] theorem cfgErr_chan (d : RegDesc) (i : Nat) (k : Nat) : (s.cfgErr d i).chan k = s.chan k := by simp [chan]
@[simp] theorem cfgErr_me (d : RegDesc) (i : Nat) (k : Nat) : (s.cfgErr d i).me k = s.me k := by simp [me]
@[simp] theorem cfgErr_eng (d : RegDesc) (i : Nat) (k : Nat) : (s.cfgErr d i).eng k = s.eng k := by simp [eng]
@[simp] theorem cfgErr_mc (d : RegDesc) (i : Nat) (k : Nat) : (s.cfgErr d i).mc k = s.mc k := by simp [mc]
@[simp] theorem cfgErr_hq (d : RegDesc) (i : Nat) (k : Nat) : (s.cfgErr d i).hq k = s.hq k := by simp [hq]
@[simp] theorem cfgErr_link (d : RegDesc) (i : Nat) (k : Nat) : (s.cfgErr d i).link k = s.link k := by simp [link]


/-! ### Registers -/

theorem msi_rd_eq (v : Nat) (d : RegDesc) (i j : Nat) : (s.msi v).rd d i j = s.rd d i j := by simp

theorem raiseRec_rd_ne (sev : Nat) (e : EventRec) {d : RegDesc} {i j : Nat} (h : d.key i j ≠ secEventsCoalesced.key 0 0) :
    (s.raiseRec sev e).rd d i j = s.rd d i j := by
  unfold State.raiseRec; dsimp only
  (repeat' split) <;> first | rfl | (simp only [rd_bump_ne _ h]; first | rfl | simp [rd]) | simp [rd]

/-- An event changes no register but the count of coalesced events. -/
theorem raise_rd_ne (code unit inst ch d0 a d1 : Nat) {d : RegDesc} {i j : Nat} (h : d.key i j ≠ secEventsCoalesced.key 0 0) :
    (s.raise code unit inst ch d0 a d1).rd d i j = s.rd d i j := raiseRec_rd_ne s _ _ h

theorem raise_flag_ne (code unit inst ch d0 a d1 : Nat) {d : RegDesc} {i j : Nat} (h : d.key i j ≠ secEventsCoalesced.key 0 0) :
    (s.raise code unit inst ch d0 a d1).flag d i j = s.flag d i j := by simp [flag, raise_rd_ne s _ _ _ _ _ _ _ h]

theorem backInv_rd_ne (l : Nat) {d : RegDesc} {i j : Nat} (h : d.key i j ≠ mbxBisnp.key 0 0) : (s.backInv l).rd d i j = s.rd d i j := by
  unfold State.backInv; split
  · rw [syncPools_rd, rd_bump_ne _ h]; rfl
  · rfl

theorem backInv_fold_rd_ne (l : List Nat) {d : RegDesc} {i j : Nat} (h : d.key i j ≠ mbxBisnp.key 0 0) :
    (l.foldl State.backInv s).rd d i j = s.rd d i j := by
  induction l generalizing s with
  | nil => rfl
  | cons x r ih => rw [List.foldl_cons, ih, backInv_rd_ne s x h]

/-- A device write to host-shared memory changes no register but the count of back invalidations. -/
theorem hsWrite_rd_ne (off : Nat) (bs : List Byte) {d : RegDesc} {i j : Nat} (h : d.key i j ≠ mbxBisnp.key 0 0) :
    (s.hsWrite off bs).rd d i j = s.rd d i j := by
  unfold State.hsWrite; rw [unpoison_rd]; exact backInv_fold_rd_ne s _ h

/-- A completion changes no register but CQ_TAIL of its queue and the count of back invalidations. -/
theorem postCq_rd_ne (q tag st dt r2 r3 : Nat) {d : RegDesc} {i j : Nat} (h : d.key i j ≠ mbxBisnp.key 0 0) (h2 : d.key i j ≠ cqTail.key q 0) :
    (s.postCq q tag st dt r2 r3).rd d i j = s.rd d i j := by
  unfold State.postCq; dsimp only; split
  · rfl
  · rw [cqSignal_rd, modHq_rd, rd_wr_ne _ _ h2, hsWrite_rd_ne _ _ _ h]

theorem notice_rd_ne (w0 w1 w2 w3 : Nat) {d : RegDesc} {i j : Nat} (h : d.key i j ≠ mbxBisnp.key 0 0) (h2 : d.key i j ≠ mbxNqDrop.key 0 0) :
    (s.notice w0 w1 w2 w3).rd d i j = s.rd d i j := by
  unfold State.notice; dsimp only; (repeat' split)
  · rfl
  · rw [rd_bump_ne _ h2]
  all_goals (rw [msi_rd_eq]; exact hsWrite_rd_ne s _ _ h)

theorem complete_rd_ne (q tag op st dt r2 r3 : Nat) {d : RegDesc} {i j : Nat} (h : d.key i j ≠ mbxBisnp.key 0 0)
    (h2 : ∀ k, d.key i j ≠ cqTail.key k 0) : (s.complete q tag op st dt r2 r3).rd d i j = s.rd d i j := by
  unfold State.complete; dsimp only; split
  · rfl
  · rw [untake_rd, postCq_rd_ne _ _ _ _ _ _ _ h (h2 _)]; split <;> rfl

theorem completeFinal_rd_ne (q tag st r2 r3 : Nat) {d : RegDesc} {i j : Nat} (h : d.key i j ≠ mbxBisnp.key 0 0)
    (h2 : d.key i j ≠ cqTail.key q 0) : (s.completeFinal q tag st r2 r3).rd d i j = s.rd d i j := by
  unfold State.completeFinal; dsimp only; split
  · rfl
  · exact postCq_rd_ne s _ _ _ _ _ _ h h2

/-! ### Units with power -/

/-- With its domains on, a row of a unit does what its rule says. -/
theorem whileOn_on {ds : List Nat} (f : State → State) (h : ds.any s.pwr.domainsOff.contains = false) : s.whileOn ds f = f s := by
  simp [State.whileOn, h]

/-- With one of its domains off, it does nothing (Table 1.3). -/
theorem whileOn_off {ds : List Nat} (f : State → State) (h : ds.any s.pwr.domainsOff.contains = true) : s.whileOn ds f = s := by
  simp [State.whileOn, h]

/-! ### Bister's restart -/

theorem msi_restarting (v : Nat) : (s.msi v).sup.restarting = s.sup.restarting := by simp
@[simp] theorem logRec_restarting (sev : Nat) (e : EventRec) : (s.logRec sev e).sup.restarting = s.sup.restarting := by unfold State.logRec; simp
@[simp] theorem flushEvent_restarting (e : EventRec) : (s.flushEvent e).sup.restarting = s.sup.restarting := by
  unfold State.flushEvent; dsimp only; (repeat' split) <;> simp
@[simp] theorem raiseRec_restarting (sev : Nat) (e : EventRec) : (s.raiseRec sev e).sup.restarting = s.sup.restarting := by
  unfold State.raiseRec; dsimp only; (repeat' split) <;> simp
@[simp] theorem raise_restarting (code unit inst ch d0 a d1 : Nat) : (s.raise code unit inst ch d0 a d1).sup.restarting = s.sup.restarting := by
  unfold State.raise; simp

end State

end Sys2Proof.Machine
end

