-- ==== Sys2Proof/Laws/Commands.lean ====
section
/-! SUPPORT. Laws of the frame in which every supervisor command runs: a command that runs now comes to what its own rule answers, and
nothing else is left of the frame. -/

namespace Sys2Proof.Machine

open Sys2Proof.Safety

/-- A command that runs now comes to the answer of its own rule (R416-R431). -/
theorem runCommand_runs {c : HostCmd} {op : Nat} {used : List (Nat × Nat)} {groups : Bool} {s : State} (f : State → Reply)
    (h : commandRuns c op used groups s = true) :
    runCommand c op used groups f s =
      match f s with
      | .refuse st d => s.complete c.qid.val c.tag.toNat op st d 0 0
      | .fail t st d => t.complete c.qid.val c.tag.toNat op st d 0 0
      | .done t r2 r3 => t.complete c.qid.val c.tag.toNat op stOK 0 r2 r3
      | .publish t chans => t.publishing c op chans
      | .accepted t =>
        let t1 := t.complete c.qid.val c.tag.toNat op stACCEPTED 0 0 0
        { t1 with sup := { t1.sup with finals := t1.sup.finals + 1 } }
      | .later t => t.markApplied c.qid.val c.tag.toNat := by
  simp only [commandRuns, Bool.and_eq_true, Bool.not_eq_true', Bool.or_eq_true, decide_eq_true_eq, beq_iff_eq, Option.isNone_iff_eq_none] at h
  obtain ⟨⟨⟨⟨⟨⟨⟨⟨h1, h2⟩, h3⟩, h4⟩, h5⟩, h6⟩, h7⟩, h8⟩, h9⟩ := h
  have ht : s.taking c.qid.val c.tag.toNat op c.w1.toNat = s := by simp only [State.taking, h2, if_true]
  have hf : (twoStage op && decide (s.sup.finals ≥ 64)) = false := by
    cases h9 with
    | inl h => simp [h]
    | inr h => simp; omega
  simp only [runCommand, h1, ht, h3, h4, h5, h6, h7, h8, hf, Bool.not_true, Bool.false_eq_true, if_false, bne_self_eq_false] <;> rfl

end Sys2Proof.Machine
end

