-- ==== Sys2Proof/Laws/Regs.lean ====
section
/-! SUPPORT. Laws of register words: the fields that lie in the words the statements write and read. -/

namespace Sys2Proof.Machine

set_option maxRecDepth 100000

theorem fields_timStatus : fieldsAt 0x20008 = [⟨timCfgErr, 0, 0, 0⟩, ⟨timRef10m, 0, 0, 1⟩, ⟨timRefLost, 0, 0, 2⟩] := by rfl
theorem fields_timLatch : fieldsAt 0x20010 = [⟨timLatchReq, 0, 0, 0⟩] := by rfl
theorem fields_timPpsOut : fieldsAt 0x20040 =
    [⟨timPpsOutEn, 0, 0, 0⟩, ⟨timPpsOutTb, 0, 0, 1⟩, ⟨timPpsOutWidth, 0, 0, 4⟩, ⟨timPpsOutOffset, 0, 0, 32⟩] := by rfl
theorem fields_txts (p : Nat) (h : p < 4) : fieldsAt (0x20410 + 0x40 * p) = [⟨timTxtsTime, p, 0, 0⟩] := by
  obtain rfl | rfl | rfl | rfl : p = 0 ∨ p = 1 ∨ p = 2 ∨ p = 3 := by omega
  all_goals rfl
theorem fields_relqHwm : fieldsAt 0x50018 = [⟨stpRelqHwm, 0, 0, 0⟩] := by rfl
theorem fields_pool0 : fieldsAt 0x40040 = [⟨flwPoolReserve0, 0, 0, 0⟩, ⟨flwPoolLimit0, 0, 0, 32⟩] := by rfl
theorem fields_pool1 : fieldsAt 0x40048 = [⟨flwPoolReserve1, 0, 0, 0⟩, ⟨flwPoolLimit1, 0, 0, 32⟩] := by rfl
theorem fields_pool2 : fieldsAt 0x40050 = [⟨flwPoolReserve2, 0, 0, 0⟩, ⟨flwPoolLimit2, 0, 0, 32⟩] := by rfl
theorem fields_pool3 : fieldsAt 0x40058 = [⟨flwPoolReserve3, 0, 0, 0⟩, ⟨flwPoolLimit3, 0, 0, 32⟩] := by rfl

end Sys2Proof.Machine
end

