-- ==== Sys2Proof/Tests/Slice0.lean ====
section
/-! SUPPORT. Own tests: an ill-formed term for each check of WellFormed, values from outside the model, and for every obligation
with hypotheses a state and operands that meet them. Where a hypothesis asks for a yes of a free constant (a signature), the
witness takes that yes as its own premise: no proof can see such a constant. -/

namespace Sys2Proof.Tests

set_option Elab.async false

open Sys2Proof.Machine Sys2Proof.Safety

/-! ### Ill-formed terms, one for each check, and a well-formed one -/

theorem test_wf_width : (Instr.registerWrite 0 24 { value := 0 }).wf = false := by decide
theorem test_wf_address : (Instr.rcRegisterRead 0x4000000 64 none).wf = false := by decide
theorem test_wf_named_width : (Instr.warmReset 7 0).wf = false := by decide
theorem test_wf_block : (Instr.chanOpen { qid := 0, tag := 0, blk := List.replicate 4097 0 }).wf = false := by decide +kernel
theorem test_wf_window : (Instr.stateWindowWrite 0x8000000).wf = false := by decide
theorem test_wf_one_step : (Instr.transmitDescriptor 0 { queue := 0, data := [], oneStep := some { tb := 0, offset := 0, transport := 3, trailer := 0 } }).wf = false := by decide
theorem test_wf_segment : (Instr.transmitDescriptor 0 { queue := 0, data := [], seg := 16384 }).wf = false := by decide
theorem test_wf_line : (Instr.memoryRequest 0 { port := 0, source := 0, line := 2 ^ 33, bank := 0, row := 0, write := true }).wf = false := by decide
theorem test_wf_filters : (Instr.frameReceive 0 { data := [], oldFilters := some [] }).wf = false := by decide
theorem test_wf_ring : (Instr.linkFrame 0 { type := 1, srcPos := 8, dstPos := 0, hops := 0, nak := false, crData := 0, seq := 0, ack := 0, length := 0, last := true, crCtl := 0 }).wf = false := by decide
theorem test_wf_good : (Instr.registerWrite 0x20040 64 { value := 0 }).wf = true ∧ Instr.powerOn.wf = true := by decide

/-! ### Small states and commands -/

/-- Bister serves commands. -/
def up : State := State.reset.wr mbxBootState 5

/-- A command of queue 0 with tag 7. -/
def cmd (w1 : Nat := 0) (w3 : Nat := 0) (w4 : Nat := 0) : HostCmd :=
  { qid := 0, tag := 7, w1 := BitVec.ofNat 64 w1, w3 := BitVec.ofNat 64 w3, w4 := BitVec.ofNat 64 w4 }

/-- The command of queue 0 with tag 7 has been taken. -/
def taken (op : Nat) (s : State := up) : State := { s with sup := { s.sup with taken := [{ qid := 0, tag := 7, opcode := op }] } }

/-- An Announce message of domain 0. -/
def ann (id : Nat) : AnnounceMsg :=
  { domain := 0, priority1 := 1, clockClass := 6, accuracy := 0, variance := 0, priority2 := 1, identity := BitVec.ofNat 64 id, stepsRemoved := 0 }

/-- An image of release n. -/
def img (n : Nat) (kind : Nat := 0) : Image :=
  { kind := kind, release := n, svn := 1, length := 0x2000, keyId := 0, stepMin := 0, stepMax := 9, ifLo := 0, ifHi := 9 }

/-- The four engines of domain `d` are retired. -/
def retired (d : Nat) (s : State) : State := (List.range 4).foldl (fun s i => s.modMe (4 * d + i) (fun m => { m with service := 2 })) s

/-- A command with an operand block of these words at offset 0. -/
def blkCmd (ws : List Nat) (w1 : Nat := 0) (w3 : Nat := 0) (w4 : Nat := 0) : HostCmd :=
  { cmd w1 w3 w4 with w2 := BitVec.ofNat 64 (2 ^ 48 * ws.length), blk := ws.map (BitVec.ofNat 64) }

/-- Queue 0 is enabled: 8 entries at 0, completions at 0x1000. -/
def queued (s : State := up) : State := (((s.wr sqSize 8).wr cqSize 8).wr cqBase 0x1000).wr qEn 1

/-- The decoder is committed over the host-shared region and the state window. -/
def hdm (s : State := up) : State := { s with host := { s.host with hdmCommitted := true, hdmSize := s.hsBytes + 2 ^ 28, memActive := true } }

/-- The words of a small factory pack: one kernel of region 0, no operation descriptor. -/
def packBytes : List Byte :=
  [0x46, 0x4E, 0x49, 0x4D, 1, 1, 0, 0, 1, 0, 0, 0, 1, 0, 0, 0, 168, 0, 0, 0, 0, 0, 0, 0, 0x38, 0, 0, 0, 16, 0, 0, 0, 0x48, 0, 0, 0, 0, 0, 0, 0, 0x48, 0, 0, 0] ++
  List.replicate 12 0 ++ [0, 0xFF, 0, 9, 1, 0, 0, 0, 0x10, 0, 1, 0, 1, 0, 0, 0] ++ List.replicate 96 0

/-- The bytes of a small supervisor image that accepts that kernel, with that pack as its base pack. -/
def supBytes : List Byte :=
  [0x46, 0x4E, 0x49, 0x4D, 1, 0, 0, 0, 2, 0, 0, 0, 1, 0, 0, 0, 0x50, 1, 0, 0, 0, 0, 0, 0, 0x38, 0, 0, 0, 16, 0, 0, 0, 0x48, 0, 0, 0, 0, 0, 0, 0, 0xF0, 0, 0, 0] ++
  List.replicate 12 0 ++ [0, 0xFF, 9, 0, 1, 0, 0, 0, 0x10, 0, 0x10, 0, 1, 1, 0, 0] ++ packBytes ++ List.replicate 96 0

/-- Channel 5 is OPEN on bucket and time base 0, with this change. -/
def open5 (f : Chan → Chan := id) (s : State := up) : State := s.modChan 5 (fun c => f { c with st := ChanState.open })

/-- A frame of 64 bytes: destination, then these bytes from the type on, and its check sequence. -/
def frame64 (da rest : List Byte) : RxFrame :=
  let body := (da ++ List.replicate 6 0 ++ rest ++ List.replicate 60 0).take 60
  { data := body ++ leBytes 4 (crc32 body) }

/-- The destination address of PAUSE frames. -/
def pauseDa : List Byte := [0x01, 0x80, 0xC2, 0, 0, 1]

/-- Port 1 is up and receives and transmits. -/
def linked (s : State := up) : State := ((s.wr ethLinkUp 1 1).wr ethRxEn 1 1).wr ethTxEn 1 1

/-- A short descriptor of queue 3. -/
def desc (owner : TxOwner := .host) : TxDesc := { queue := 3, data := List.replicate 20 0, owner := owner }

/-- A descriptor waits in queue 3 of port 1. -/
def waiting (d : TxDesc) (s : State := up) : State := s.modPort 1 (fun p => { p with queues := [(3, [d])] })

/-- A frame of 600 bytes of a host descriptor is on the wire of port 1. -/
def wired (s : State := linked) : State :=
  s.modPort 1 (fun p => { p with wire := some { desc := desc, bytes := List.replicate 600 1 } })

/-- An IPv4 packet from 10.0.0.9 port 0x1234 to 10.0.0.1 port 0x5678 with this UDP payload. -/
def udp4 (pay : List Byte) : List Byte :=
  List.replicate 12 0 ++ [0x08, 0, 0x45, 0, 0, BitVec.ofNat 8 (28 + pay.length), 0, 0, 0, 0, 64, 17, 0, 0, 10, 0, 0, 9, 10, 0, 0, 1] ++
    [0x12, 0x34, 0x56, 0x78, 0, BitVec.ofNat 8 (8 + pay.length), 0, 0] ++ pay

/-- A frame accepted by port 1. -/
def rxm (l : List Byte) : RxMeta := { data := l, size := l.length, vid := 0, pcp := 0, tagged := false, stamps := [0, 0, 0, 0] }

/-- The flow entry of `udp4` for channel 5. -/
def flow5 (kind : Nat) (imm : Bool) : FlowEntry :=
  { remoteAddr := mapped4 (udp4 []) 26, remotePort := 0x1234, localPort := 0x5678, latIndex := 0, ethPort := 1, vid := 0, keyType := 0, ch := 5, kind := kind, immediate := imm, rtcpMux := false, srtp := false, eventEn := false, eventPt := 0, quota := 16 }

/-- Port 1 holds that frame, its address is local and its flow is in the stash. -/
def flowing (kind : Nat) (imm : Bool) (pay : List Byte) (s : State := open5) : State :=
  let t := s.modPort 1 (fun p => { p with rxQ := [rxm (udp4 pay)] })
  { t with ing := { t.ing with lat := [(0, { addr := mapped4 (udp4 []) 30, active := true, users := 1 })], stash := [(0, flow5 kind imm)] } }

/-- An RTP packet. -/
def rtp (pt seq : Nat) : List Byte := [0x80, BitVec.ofNat 8 pt, 0, BitVec.ofNat 8 seq, 0, 0, 0, 0, 0, 0, 0, 1, 0, 0]

/-- A media packet of channel 5. -/
def pkt (seq : Nat) (n : Nat := 2) : MediaPkt :=
  { ch := 5, seq := seq, ts := 0, ssrc := 1, marker := false, pt := 0, payload := List.replicate n 0, udp := [], arrival := 0, buffers := 1 }

/-- Steep has this packet next. -/
def steeped (k : MediaPkt) (s : State := open5) : State := { s with ing := { s.ing with steepIn := [k] } }

/-- A task of channel 5. -/
def task (k : TaskKind) (cls : Nat := 2) : Task := { ch := 5, kind := k, cls := cls, deadline := 1000000, acceptedAt := 0, tick := 0 }

/-- A group of type `t` with `n` words, every field at its least value, and what `plus` adds to each word. -/
def least (t n : Nat) (plus : List Nat := []) : List Nat :=
  (t + n * 256) :: (List.range n).map (fun w => plus.getD w 0 + (groupFields t w).foldl (fun a f => a + f.min * 2 ^ f.lo) 0)

/-- The same group as it is read. -/
def leastGrp (t n : Nat) (plus : List Nat := []) (pos : Nat := 8) : Grp := { type := t, pos := pos, ws := (least t n plus).tail }

/-- Memory is populated. -/
def roomy (s : State := up) : State := s.wr memCapOnline 100

/-- Cluster 2 holds one descriptor of engine 0. -/
def glazed (started : Bool) : State := { up with glaze := { up.glaze with queues := [(2, [{ engine := 0, skein := 1, addr := 0, started := started }])] } }

/-- The groups of the block of `c`. -/
def grps (s : State) (c : HostCmd) (a r : List Nat) : List Grp := match s.groupsOf c a r with
  | .ok g => g
  | .error _ => []

/-- Channels 5 and 6 are BOUND to each other. -/
def call56 (f : Chan → Chan := id) (s : State := up) : State :=
  (s.modChan 5 (fun c => f { c with st := ChanState.bound, peer := 6 })).modChan 6 (fun c => { c with st := ChanState.bound, peer := 5 })

/-- A skein of class 2 with one task of channel 5. -/
def skein (n : Nat := 1) (cls : Nat := 2) : Skein :=
  { num := n, key := { kernel := 0, mode := 0, period := 0, tb := 0 }, cls := cls, tasks := [task .gap cls], openedAt := 0, mask := 1 }

/-- An immediate task of channel 5. -/
def imm : ImmTask := { ch := 5, flowKind := 1, pt := 0, marker := false, ts := 0, payload := [1], buffers := 1 }

/-- The block of a CHAN_OPEN of least values. -/
def openBlk : List Nat := least 1 1 ++ least 2 2 ++ least 3 2 [0, 0xFFFFFFFF] ++ least 4 5 ++ least 5 13 [40 + 14 * 2 ^ 8 + 34 * 2 ^ 16 + 42 * 2 ^ 24]

/-- No engine serves. -/
def noEngines (s : State := up) : State := (List.range 96).foldl (fun s e => s.modMe e (fun m => { m with service := 2 })) s

/-- A request of port 2. -/
def mreq (write : Bool) : MemReq := { port := 2, source := 0, line := 0, bank := 0, row := 0, write := write }

/-- Channel 3 of memory is ONLINE. -/
def online (s : State := up) : State := s.wr memChState 2 3

/-- Channel 3 of memory evacuates; these frames are left. -/
def fenced3 (fs : List Nat) (page : Nat := 0) : State :=
  { (up.wr memChState 4 3).modMc 3 (fun c => { c with migration := some { frames := fs, page := page, target := some (4, 9) } }) with now := sec 1 }

/-- Channel 5 is captured. -/
def captured5 (x : Capture := { capacity := 4096 }) (s : State := open5 id roomy) : State := { s with cap := { s.cap with caps := [(5, x)] } }

/-- An export job of channel 5. -/
def lakeJob (n : Nat := 64) : LakeJob := { source := 5, qid := 0, tag := 7, level := 1, wrap := 2, cont := false, addr := 0, length := n, spanLo := 0, spanHi := 0 }

/-- A CXL.cache request of a SNAPSHOT. -/
def creq (last : Bool) : CacheReq := { serves := 0, qid := 0, tag := 7, addr := 0, write := true, last := last }

/-- The member is INSERTED at position 2 with both links up and live, paired upstream 1 and downstream 3; it mirrors for 100 to
109 and is mirrored for 0 to 9. -/
def ringUp (s : State := up) : State :=
  let t := [(rngState, 3), (rngPaired, 1), (rngPosOwn, 2), (rngPosUp, 1), (rngPosDown, 3), (rngUpFirst, 100), (rngUpCount, 10),
    (rngHomeCount, 10), (rngBypass, 0), (rngUpState, 1)].foldl (fun (s : State) e => s.wr e.1 e.2) s
  let u := ((t.wr rngPortLinkUp 1 0).wr rngPortLinkUp 1 1).wr rngPortAdjPos 4 1
  { u with ring := { u.ring with live := true } }

/-- The EEPROM was read. -/
def posOk (s : State := up) : State := { s with sup := { s.sup with eepromOk := true, eeprom := List.replicate 16 2 } }

/-- A change of the ring's state. -/
def ringed (f : RingSt → RingSt) (s : State := ringUp) : State := { s with ring := f s.ring }

/-- A frame of the ring. -/
def rframe (seq : Nat) (crcOk : Bool := true) : RingFrame :=
  { type := 3, srcPos := 1, dstPos := 2, hops := 0, nak := false, crData := 0, seq := BitVec.ofNat 16 seq, ack := 0, length := 0, last := true, crCtl := 0, crcOk := crcOk }

/-- A heartbeat of a neighbour. -/
def hbeat (pos : Nat) : HeartbeatMsg := { srcPos := pos, hops := 0, count := 1, restarting := false, hold := false, paired := false, upPos := 15, downPos := 15 }

/-- An IDENTITY of a member. -/
def ident (pos : Nat) : IdentityMsg := { pos := pos, serial := 9, stepping := 0xB0, release := 1, epoch := 1, slot := 0 }

/-- A mirror body of channel `ch`. -/
def dbody (ch : ChanId := 105) : DeltaBody := { ch := ch, epoch := 1, gen := 1, tickTime := 0, kernel := 0, sections := [] }

/-- A SETTINGS body of channel 105 with no group. -/
def sbody (state : Nat) (groups : List Word64 := []) : SettingsBody := { ch := 105, state := state, peer := 0, hostTag := 0, cmdTag := 0, groups := groups }

/-- A context of other flows: channel 6 is OPEN and holds the flow that a group 4 of least values names. -/
def flowsTaken (s : State := roomy) : State :=
  let t := s.modChan 6 (fun c => { c with st := ChanState.open })
  (State.installFlows { t with ing := { t.ing with lat := [(0, { addr := 0, active := true, users := 1 })] } } [] (mediaFlows 6 0 (flowsOf (leastGrp 4 5)) false)).getD up

/-! ### Effects that rules of the spec give by number -/

/-- The state after a command that answers one. -/
def after (i : Instr) (s : State) : State := match exec i s with
  | .next t => t
  | _ => State.reset

/-- The bytes of the digits 1 to 9. -/
def digits : List Byte := [0x31, 0x32, 0x33, 0x34, 0x35, 0x36, 0x37, 0x38, 0x39]

/-- CRC-32's published check value. -/
theorem test_crc32 : crc32 digits = 0xCBF43926 := by decide +kernel

/-- CRC-32C's published check value. -/
theorem test_crc32c : crc32c 0xFFFFFFFF digits ^^^ 0xFFFFFFFF = 0xE3069283 := by decide +kernel

/-- Adler-32 of the nine digits, as RFC 1950 defines it. -/
theorem test_adler32 : adler32 digits = 0x091E01DE := by decide +kernel

/-- The underrun example of 03_network_ports.md: at the reset threshold of 256 a frame of 1,250 bytes makes it 512. -/
theorem test_underrun : ((after (.txUnderrun 1 none) (linked.modPort 1 (fun p =>
    { p with wire := some { desc := desc, bytes := List.replicate 1250 0 } }))).rd ethTxThreshold 1) = 512 := by decide +kernel

/-- The pool example of 04_ingress_flows_srtp.md, with this many buffers held by MEDIA. -/
def pools (media : Nat) : State := { up with ing := { up.ing with held := [(0, media), (1, 1000), (3, 40000)] } }

theorem test_pool_last : (pools 80831).admits 0 1 = true ∧ (pools 80832).admits 0 1 = false := by decide +kernel
theorem test_pool_reserve : (pools 80832).admits 1 1 = true := by decide +kernel

/-- The accumulator example of 12_engines.md: lane 3 holds A2 and the two factors. -/
def macLane : Engine :=
  { a := [(14, 0x7FFFFFF000)], v := [(3 * 64 + 4, 0x40), (3 * 64 + 5, 0x80)], live := 8 }

theorem test_mac_saturates : ((macLane.vecSlot 0 0x840420A0 0 macLane).settle.ar 3 2) = 0x7FFFFFFFFF ∧
    (macLane.vecSlot 0 0x840420A0 0 macLane).settle.gov.getLsbD 3 = true := by decide +kernel

/-- The bundle example of 12_engines.md: its two words read as it says. -/
theorem test_bundle_words : opF 0x84042080 = 0x21 ∧ dF 0x84042080 = 2 ∧ aF 0x84042080 = 4 ∧ bF 0x84042080 = 4 ∧
    dF 0x84062083 = 3 ∧ xF 0x84062083 = 3 ∧ slotOk (vecUses 0x21) 0x84062083 = true := by decide +kernel

/-- The extraction of that example, with shift 16. -/
theorem test_extract : extract 16 16 0x7FBFFFFFFF = 0x7FFF := by decide +kernel

/-- The reference fit of 14_memory.md: four pairs and 16 GiB take 65 frames of each channel. -/
theorem test_host_frames : State.hostFrames { up with mem := { up.mem with pairs := [0, 2, 4, 6] } } = 65 := by decide +kernel

/-- An idle step is one cycle: a time base at rest advances by 1 ns. -/
theorem test_idle : (match step up with
  | .next t => t.tbVal 2
  | _ => 0) = 1 := by decide +kernel

/-- A WARM reset leaves the time bases and starts the ROM. -/
theorem test_warm : (after (.warmReset 64 (BitVec.ofNat 64 0x15AFE0001)) (up.modTb 2 (fun t => { t with value := 77 }))).tbVal 2 = 77 ∧
    (after (.warmReset 64 (BitVec.ofNat 64 0x15AFE0001)) up).flag mbxBootWarm = true := by decide +kernel

/-- A doorbell of a disabled queue does nothing. -/
theorem test_disabled_doorbell : after (.sqTail 5 32 1) up = up := by decide +kernel


/-! ### Witnesses: states and operands that meet the hypotheses of each statement -/

/-- A value that is there. -/
theorem there {α : Type} (x : Option α) (d : α) (h : x.isSome = true) : x = some (x.getD d) := by cases x <;> simp_all

/-- A computation that answers this. -/
theorem okIs {ε α : Type} [DecidableEq α] (x : Except ε α) (a : α)
    (h : (match x with | .ok b => decide (b = a) | .error _ => false) = true) : x = .ok a := by
  cases x <;> simp_all

/-- A computation that stops with this. -/
theorem errIs {ε α : Type} [DecidableEq ε] (x : Except ε α) (a : ε)
    (h : (match x with | .error b => decide (b = a) | .ok _ => false) = true) : x = .error a := by
  cases x <;> simp_all

theorem witness_IdleStepIsOneCycle :
    (let s : State := State.reset; s.pending = []) := by
  decide +kernel

theorem witness_TimeReferenceRows :
    (let s : State := { up with time := { ref10m := true } }; s.time.ref10m = true) ∧
    (let s : State := up; s.time.ref10m = false) ∧
    (let s : State := { up.wr timPpsOutEn 1 with time := { ppsOutLast := -3 } }; s.flag timPpsOutEn = true ∧ s.time.ppsOutLast < s.ppsSecond) ∧
    (let s : State := up; (s.flag timPpsOutEn = false ∨ s.ppsSecond ≤ s.time.ppsOutLast)) := by
  decide +kernel

theorem witness_TickBoundaryQueued :
    (let tb : TbId := 0; let s : State := State.reset; let n := tb.val; let b := s.tbVal n / 250000; ¬(s.tb n).lastTick < b) ∧
    (let tb : TbId := 2; let s : State := up.modTb 2 (fun t => { t with value := 750001, lastTick := 1 }); let n := tb.val; let b := s.tbVal n / 250000; (s.tb n).lastTick < b) := by
  decide +kernel

theorem witness_ServoRows :
    (let tb : TbId := 1; let s : State := { up.wr timTbSrc 1 1 with now := sec 4 }; s.rd timTbSrc tb.val ≠ 0 ∧ s.flag timTbStepRefused tb.val = false ∧ (s.tb tb.val).sampleAt + sec 3 ≤ s.now) ∧
    (let tb : TbId := 1; let s : State := up; (s.rd timTbSrc tb.val = 0 ∨ s.flag timTbStepRefused tb.val = true ∨ s.now < (s.tb tb.val).sampleAt + sec 3)) ∧
    (let tb : TbId := 1; let s : State := up.wr timTbSrc 1 1; let n := tb.val; s.rd timTbSrc n = 1 ∧ s.sup.restarting = false) ∧
    (let tb : TbId := 1; let a : AnnounceMsg := ann 3; let s : State := up.wr timTbSrc 1 1; let n := tb.val; s.rd timTbSrc n = 1 ∧ s.sup.restarting = false ∧ a.domain = s.rd timTbDomain n ∧ (s.tb n).master = none) ∧
    (let tb : TbId := 1; let a : AnnounceMsg := ann 3; let s : State := (up.wr timTbSrc 1 1).modTb 1 (fun t => { t with master := some (ann 2) }); let n := tb.val; let m := ann 2; s.rd timTbSrc n = 1 ∧ s.sup.restarting = false ∧ a.domain = s.rd timTbDomain n ∧ (s.tb n).master = some m) ∧
    (let tb : TbId := 1; let a : AnnounceMsg := ann 3; let s : State := up; (s.rd timTbSrc tb.val ≠ 1 ∨ s.sup.restarting = true ∨ a.domain ≠ s.rd timTbDomain tb.val)) := by
  decide +kernel

theorem witness_OffsetSampleJudged :
    (let tb : TbId := 1; let s : State := ((up.wr timTbSrc 1 1).wr timTbSet 1 1).modTb 1 (fun t => { t with lockRun := 7 }); let n := tb.val; s.rd timTbSrc n = 1 ∧ s.sup.restarting = false ∧ s.flag timTbSet n = true) := by
  decide +kernel

theorem witness_FirstOffsetStepsBase :
    (let tb : TbId := 1; let s : State := up.wr timTbSrc 1 1; let n := tb.val; s.rd timTbSrc n = 1 ∧ s.sup.restarting = false ∧ s.flag timTbSet n = false ∧ s.tbUsed n = false ∧ (s.tb n).samples = []) ∧
    (let s : State := { up with now := sec 1, time := { ppsInAt := some (ms 200) } }; s.time.ppsInAt.any (fun t => decide (s.now < t + ms 900)) = true) ∧
    (let s : State := { up with now := sec 1, time := { ppsInAt := some (ms 100) } }; s.time.ppsInAt.any (fun t => decide (s.now < t + ms 900)) = false ∧ (∀ n < 4, s.rd timTbSrc n ≠ 2)) := by
  decide +kernel

theorem witness_PpsInEdgeCaptured :
    (let s : State := { up with now := sec 1, time := { ppsInAt := some (ms 100) } }; ((∀ t, s.time.ppsInAt = some t → t + ms 900 ≤ s.now))) ∧
    (let s : State := { up with now := sec 1, time := { ppsInAt := some (ms 200) } }; let t := ms 200; s.time.ppsInAt = some t ∧ s.now < t + ms 900) := by
  decide +kernel

theorem witness_TimebaseCommands :
    (let c : HostCmd := cmd 2 (5000 * 2 ^ 32 + 1); let s : State := taken 0x30; commandRuns c 0x30 (tbUse 0x000FFFFF0000FF3F) false s = true) ∧
    (let c : HostCmd := cmd 2 0xFFFFFF00; let s : State := taken 0x30; commandRuns c 0x30 (tbUse 0xFFFFFFFF) false s = true) ∧
    (let c : HostCmd := cmd 2 5000; let s : State := taken 0x30; commandRuns c 0x30 (tbUse 0xFFFFFFFFFFFFFFFF) false s = true) ∧
    (let c : HostCmd := cmd 2 5000; let s : State := taken 0x30 (up.wr timTbSrc 3 2); commandRuns c 0x30 (tbUse 0xFFFFFFFFFFFFFFFF) false s = true) ∧
    (let c : HostCmd := cmd 2 5000; let s : State := taken 0x31 (((up.wr timTbSrc 3 2).wr timTbStepRefused 1 2).wr timTbPendStep 5400 2); commandRuns c 0x31 [(1, 0x3), (3, 0xFFFFFFFFFFFFFFFF)] false s = true) := by
  decide +kernel

theorem witness_BadAccessCounted :
    (let addr : Nat := 0; let width : Nat := 0; goodAccess addr width = false) ∧
    (let addr : Nat := 0; let width : Nat := 0; goodAccess addr width = false) := by
  decide +kernel

theorem witness_FieldsWriteByAccessType :
    (let s : State := up.wr timRefLost 1; s.rd timRefLost < 2 ∧ s.rd timCfgErr < 2) ∧
    (let s : State := up; s.rd timLatchReq < 2) := by
  decide +kernel

theorem witness_RcFieldClearsOnRead :
    (let event : Option Nat := some 3; let s : State := up.wr stpRelqHwm 9; s.rd stpRelqHwm < 2 ^ 14 ∧ event.all (fun e => decide (e < 2 ^ 14)) = true) ∧
    (let p : PortId := 1; let e : TxStamp := { host := true, tb := 0, tag := 3, time := 77 }; let s : State := up.modPort 1 (fun p => { p with txStamps := [{ host := false, tb := 0, tag := 2, time := 5 }, { host := true, tb := 0, tag := 3, time := 77 }] }); (s.port p.val).txStamps.find? (·.host) = some e ∧ e.time < 2 ^ 64) := by
  decide +kernel

theorem witness_PoolWriteRefusedWhole :
    (let k : Fin 4 := 3; let r : Nat := 0; let l : Nat := 131072; let s : State := State.reset; let sum := ((List.range 4).map (fun c => if c = k.val then r else s.reserveOf c)).sum; r < 2 ^ 18 ∧ l < 2 ^ 18 ∧ (r ≤ 131072 ∧ l ≤ 131072 ∧ sum ≤ 131072 ∧ r ≤ l ∧ (∀ c < 4, c ≠ k.val → s.reserveOf c ≤ s.limitOf c))) ∧
    (let k : Fin 4 := 3; let r : Nat := 131073; let l : Nat := 131073; let s : State := State.reset; let sum := ((List.range 4).map (fun c => if c = k.val then r else s.reserveOf c)).sum; r < 2 ^ 18 ∧ l < 2 ^ 18 ∧ (131072 < r ∨ 131072 < l ∨ 131072 < sum ∨ l < r)) := by
  decide +kernel

theorem witness_ResetControlTaken :
    (let width : Nat := 64; let v : Word64 := BitVec.ofNat 64 0x15AFE0001; let s : State := State.reset; let w := v.toNat; let kind := bits w 0 3; let acts := width = 64 ∧ bit w 32 = true ∧ bits w 16 16 = 0x5AFE ∧ 1 ≤ kind ∧ kind ≤ 4; goodAccess 0x10300 width = true ∧ s.flag secService = false ∧ s.flag secErasing = false ∧ acts ∧ kind = 1) ∧
    (let width : Nat := 64; let v : Word64 := BitVec.ofNat 64 0x15AFE0002; let s : State := State.reset; let w := v.toNat; let kind := bits w 0 3; let acts := width = 64 ∧ bit w 32 = true ∧ bits w 16 16 = 0x5AFE ∧ 1 ≤ kind ∧ kind ≤ 4; goodAccess 0x10300 width = true ∧ s.flag secService = false ∧ s.flag secErasing = false ∧ acts ∧ kind = 2) ∧
    (let width : Nat := 64; let v : Word64 := BitVec.ofNat 64 0x15AFE0033; let s : State := State.reset; let w := v.toNat; let kind := bits w 0 3; let acts := width = 64 ∧ bit w 32 = true ∧ bits w 16 16 = 0x5AFE ∧ 1 ≤ kind ∧ kind ≤ 4; goodAccess 0x10300 width = true ∧ s.flag secService = false ∧ s.flag secErasing = false ∧ acts ∧ kind = 3) ∧
    (let width : Nat := 64; let v : Word64 := BitVec.ofNat 64 0x15AFE0004; let s : State := State.reset; let w := v.toNat; let kind := bits w 0 3; let acts := width = 64 ∧ bit w 32 = true ∧ bits w 16 16 = 0x5AFE ∧ 1 ≤ kind ∧ kind ≤ 4; goodAccess 0x10300 width = true ∧ s.flag secService = false ∧ s.flag secErasing = false ∧ acts ∧ kind = 4) ∧
    (let width : Nat := 64; let v : Word64 := BitVec.ofNat 64 0x15AFE0005; let s : State := State.reset; let w := v.toNat; let kind := bits w 0 3; let acts := width = 64 ∧ bit w 32 = true ∧ bits w 16 16 = 0x5AFE ∧ 1 ≤ kind ∧ kind ≤ 4; let i := Instr.portReset 64 (BitVec.ofNat 64 0x15AFE0005); goodAccess 0x10300 width = true ∧ s.flag secService = false ∧ s.flag secErasing = false ∧ ¬acts ∧ (i = Instr.warmReset width v ∨ i = Instr.supReset width v ∨ i = Instr.portReset width v ∨ i = Instr.coldReset width v)) := by
  decide +kernel

theorem witness_ResetRequestsAct_1 :
    (let v : Word64 := BitVec.ofNat 64 0x15AFE0023; let s : State := up.modPort 2 (fun p => { p with txStamps := [{ host := false, tb := 0, tag := 2, time := 5 }] }); let w := v.toNat; let p := bits w 4 2; bit w 32 = true ∧ bits w 16 16 = 0x5AFE ∧ bits w 0 3 = 3 ∧ s.flag secService = false ∧ s.flag secErasing = false ∧ s.inReset 2 = false ∧ (s.port p).wire = none) ∧
    (let v : Word64 := BitVec.ofNat 64 0x15AFE0002; let s : State := up; let w := v.toNat; bit w 32 = true ∧ bits w 16 16 = 0x5AFE ∧ bits w 0 3 = 2 ∧ s.flag secService = false ∧ s.flag secErasing = false ∧ s.inReset 2 = false ∧ s.served = true ∧ s.sup.restarting = false) ∧
    (let v : Word64 := BitVec.ofNat 64 0x15AFE0001; let s : State := up; let w := v.toNat; bit w 32 = true ∧ bits w 16 16 = 0x5AFE ∧ bits w 0 3 = 1 ∧ s.flag secService = false ∧ s.flag secErasing = false ∧ s.inReset 1 = false) ∧
    (let v : Word64 := BitVec.ofNat 64 0x15AFE0004; let s : State := up; let w := v.toNat; bit w 32 = true ∧ bits w 16 16 = 0x5AFE ∧ bits w 0 3 = 4 ∧ s.flag secErasing = false ∧ s.inReset 0 = false) ∧
    (let v : Word64 := BitVec.ofNat 64 0x15AFE0013; let s : State := (up.wr supResetBusy 1).wr supResetLast 2; let w := v.toNat; bit w 32 = true ∧ bits w 16 16 = 0x5AFE ∧ s.flag secService = false ∧ s.flag secErasing = false ∧ bits w 0 3 = 3 ∧ s.inReset 2 = true) ∧
    (let v : Word64 := BitVec.ofNat 64 0x15AFE0002; let s : State := (up.wr supResetBusy 1).wr supResetLast 1; let w := v.toNat; bit w 32 = true ∧ bits w 16 16 = 0x5AFE ∧ s.flag secService = false ∧ s.flag secErasing = false ∧ bits w 0 3 = 2 ∧ s.inReset 2 = true) := by
  decide +kernel

theorem witness_ResetRequestsAct_2 :
    (let v : Word64 := BitVec.ofNat 64 0x15AFE0001; let s : State := (up.wr supResetBusy 1).wr supResetLast 1; let w := v.toNat; bit w 32 = true ∧ bits w 16 16 = 0x5AFE ∧ s.flag secService = false ∧ s.flag secErasing = false ∧ bits w 0 3 = 1 ∧ s.inReset 1 = true) ∧
    (let v : Word64 := BitVec.ofNat 64 0x15AFE0004; let s : State := (up.wr supResetBusy 1).wr supResetLast 0; let w := v.toNat; bit w 32 = true ∧ bits w 16 16 = 0x5AFE ∧ s.flag secService = false ∧ s.flag secErasing = false ∧ bits w 0 3 = 4 ∧ s.inReset 0 = true) := by
  decide +kernel

theorem witness_PowerRows :
    (let n : Nat := 4000; n ≤ 4000) ∧
    (let n : Nat := 6000; 6000 ≤ n) ∧
    (let n : Nat := 4001; 4000 < n ∧ n < 6000) := by
  decide +kernel

theorem witness_SupplyAndSensorRows_1 :
    (let d : DomainId := 24; d.val = 24) ∧
    (let d : DomainId := 3; let s : State := up.wr pwrEngOn 0; s.powered d.val = false ∧ tget s.pwr.offAt d.val none ≠ some s.now) ∧
    (let d : DomainId := 3; let s : State := up.wr pwrEngOn 0xFFFFFF; d.val < 24 ∧ s.powered d.val = true) ∧
    (let d : DomainId := 25; let s : State := up; 24 < d.val ∧ s.powered d.val = true) ∧
    (let temps : List Word16 := [250, 251]; let s : State := up; s.served = true ∧ (∀ t ∈ s.readings temps, t.2 < 10 * ((s.rd pwrTjWarn : Nat) : Int) ∧ t.2 < 10 * ((s.rd pwrTjTrip : Nat) : Int) ∧ t.2 < 10 * ((s.rd pwrTjCrit : Nat) : Int))) ∧
    (let s : State := State.reset; s.ring.live = false) := by
  decide +kernel

theorem witness_SupplyAndSensorRows_2 :
    (let s : State := { up with ring := { up.ring with live := true } }; s.ring.live = true) := by
  decide +kernel

theorem witness_SensorReadStores :
    (let temps : List Word16 := [250, 251]; let i : Nat := 1; let x : Word16 := 251; let s : State := up.wr pwrEngOn 0xFFFFFF; s.served = true ∧ temps[i]? = some x ∧ i < 30 ∧ (∀ t ∈ s.readings temps, t.2 < 10 * ((s.rd pwrTjWarn : Nat) : Int) ∧ t.2 < 10 * ((s.rd pwrTjTrip : Nat) : Int) ∧ t.2 < 10 * ((s.rd pwrTjCrit : Nat) : Int))) := by
  decide +kernel

theorem witness_DomainGating :
    (let d : Fin 24 := 3; let s : State := retired 3 (up.wr pwrEngOn 0xFFFFFF); s.rd pwrEngGate = 0 ∧ (∀ k < 24, s.rd pwrDomCause k < 2) ∧ s.domainRetired d.val = true ∧ s.powered d.val = true) ∧
    (let d : Fin 24 := 3; let s : State := up.wr pwrEngOn 0xFFFFFF; s.rd pwrEngGate = 0 ∧ (∀ k < 24, s.rd pwrDomCause k < 2) ∧ s.domainRetired d.val = false) ∧
    (let d : Fin 24 := 3; let s : State := ((up.wr pwrEngGate 8).wr pwrEngOn 0xFFFFF7).wr pwrDomCause 1 3; s.rd pwrEngGate = 2 ^ d.val ∧ s.rd pwrEngOn < 2 ^ 24 ∧ bit (s.rd pwrEngOn) d.val = false ∧ (∀ k < 24, s.rd pwrDomCause k < 2)) ∧
    (let i : Instr := .excRateWindow; let s : State := { up with pwr := { up.pwr with domainsOff := [29] } }; ¬unitOn i s) := by
  decide +kernel

theorem witness_FlrDiscards :
    (let s : State := State.reset; s.inReset 1 = true) ∧
    (let s : State := taken 0x40; s.inReset 1 = false) := by
  decide +kernel

theorem witness_SupervisorRows_1 :
    (let w : Fin 6 := 5; let s : State := up.modWarden 5 (fun x => { x with missed := 1 }); s.sup.restarting = false ∧ s.served = true ∧ (s.warden w.val).standIn = false) ∧
    (let w : Fin 6 := 5; let s : State := up.modWarden 5 (fun x => { x with missed := 1 }); s.sup.restarting = false ∧ s.served = true ∧ (s.warden w.val).standIn = false ∧ (s.warden w.val).missed < 2) ∧
    (let w : Fin 6 := 5; let s : State := up.modWarden 5 (fun x => { x with missed := 2 }); s.sup.restarting = false ∧ s.served = true ∧ (s.warden w.val).standIn = false ∧ 2 ≤ (s.warden w.val).missed) ∧
    (let w : Fin 6 := 5; let s : State := up.modWarden 5 (fun x => { x with standIn := true }); (s.sup.restarting = true ∨ s.served = false ∨ (s.warden w.val).standIn = true)) ∧
    (let w : Fin 6 := 5; let s : State := up.modWarden 5 (fun x => { x with collectAt := 9 }); s.sup.restarting = false ∧ s.now < (s.warden w.val).collectAt) ∧
    (let w : Fin 6 := 5; let s : State := { up.modWarden 5 (fun x => { x with collectAt := 9 }) with now := 9 }; s.sup.restarting = false ∧ (s.warden w.val).collectAt ≤ s.now) := by
  decide +kernel

theorem witness_SupervisorRows_2 :
    (let s : State := { up with sup := { up.sup with cores := { lead := 0, second := none, spare := none } } }; s.sup.cores.second = none) ∧
    (let s : State := up; s.sup.cores.second ≠ none) ∧
    (let s : State := up.modWarden 5 (fun x => { x with collectAt := 9 }); s.sup.restarting = false) ∧
    (let s : State := up.modWarden 5 (fun x => { x with collectAt := 9 }); ((s.sup.restarting = false ∨ s.now < s.img.supRestartAt + sec 1))) ∧
    (let s : State := { up with sup := { up.sup with restarting := true } }; s.sup.restarting = true) ∧
    (let p : Image := img 4; let s : State := { up with now := sec 2, sup := { up.sup with restarting := true }, img := { up.img with running := some (img 4), supRestartAt := sec 1 } }; s.sup.restarting = true ∧ s.img.fellBack = false ∧ s.img.supRestartAt + sec 1 ≤ s.now ∧ s.img.previous = none ∧ s.img.running = some p) := by
  decide +kernel

theorem witness_SupervisorRows_3 :
    (let p : Image := img 4; let s : State := { up with now := sec 2, sup := { up.sup with restarting := true }, img := { up.img with previous := some (img 4), supRestartAt := sec 1 } }; s.sup.restarting = true ∧ s.img.fellBack = false ∧ s.img.supRestartAt + sec 1 ≤ s.now ∧ s.img.previous = some p) := by
  decide +kernel

theorem witness_DoorbellRows :
    (let q : QueueId := 5; let s : State := up.wr qEn 1 5; s.flag qEn q.val = true) ∧
    (let x : Fin 8 := 5; let s : State := up.wr xqEn 1 5; s.flag xqEn x.val = true) ∧
    (let s : State := up.wr nqEn 1; s.flag nqEn = true) ∧
    (let w : Nat := 64; w ≠ 32) ∧
    (let q : QueueId := 5; let s : State := State.reset; s.flag qEn q.val = false) := by
  decide +kernel

theorem witness_QueueEnableRows :
    (let q : QueueId := 0; let v : Word64 := 1; let s : State := (queued).wr qEn 0; let n := q.val; let u := s.writeRegBut (· = qEn) (qCtlAddr n) 64 v.toNat; writtenTo qEn n 0 (qCtlAddr n) 64 v.toNat = some 1 ∧ goodAccess (qCtlAddr n) 64 = true ∧ s.flag qEn n = false ∧ u.queueFits n = true) ∧
    (let q : QueueId := 0; let v : Word64 := 1; let s : State := up; let n := q.val; let u := s.writeRegBut (· = qEn) (qCtlAddr n) 64 v.toNat; writtenTo qEn n 0 (qCtlAddr n) 64 v.toNat = some 1 ∧ goodAccess (qCtlAddr n) 64 = true ∧ s.flag qEn n = false ∧ u.queueFits n = false) ∧
    (let q : QueueId := 0; let v : Word64 := 0; writtenTo qEn q.val 0 (qCtlAddr q.val) 64 v.toNat = some 0) ∧
    (let q : QueueId := 0; let s : State := { queued with host := { up.host with queues := [(0, { unsignalled := 1 })] }, now := sec 1 }; (s.hq q.val).unsignalled ≠ 0 ∧ (s.hq q.val).oldestAt + us (s.rd qCoalTime q.val) ≤ s.now) := by
  decide +kernel

theorem witness_CommandFetchTakes :
    (let s : State := State.reset; s.fetching = false) ∧
    (let s : State := up; (∀ q < 64, s.canTake q = false)) ∧
    (let k : Nat := 0; let s : State := { queued.modHq 0 (fun h => { h with tail := 1 }) with mem := { up.mem with hostShared := [(0, 0x30)] } }; let q := (s.sup.lastServed + 1 + k) % 64; let i := s.rd sqHead q; k < 64 ∧ s.fetching = true ∧ s.canTake q = true ∧ (∀ j < k, s.canTake ((s.sup.lastServed + 1 + j) % 64) = false) ∧ i + 1 < 2 ^ 12) := by
  decide +kernel

theorem witness_CxlLinkRows :
    (let width : Nat := 0; let rate : Nat := 0; cxlSupported width rate = false) ∧
    (let width : Nat := 8; let rate : Nat := 32; let s : State := State.reset; cxlSupported width rate = true ∧ s.served = false) := by
  decide +kernel

theorem witness_HostMemoryAccess :
    (let off : Nat := hsBase + 66; let b : List Byte := [1, 0]; let s : State := hdm; s.host.hdmCommitted = true ∧ off < s.host.hdmSize ∧ s.host.memActive = true ∧ hsBase ≤ off ∧ off < s.hostBytes ∧ off % 64 + b.length ≤ 64) ∧
    (let off : Nat := 64; let s : State := hdm; s.host.hdmCommitted = true ∧ off < s.host.hdmSize ∧ s.host.memActive = true ∧ off < hsBase) ∧
    (let off : Nat := 17314086912; let s : State := hdm; s.host.hdmCommitted = true ∧ off < s.host.hdmSize ∧ s.host.memActive = true ∧ hsBase ≤ off ∧ s.hostBytes ≤ off) ∧
    (let off : Nat := 134217792; let s : State := let s := hdm; { s with host := { s.host with memActive := false } }; s.host.hdmCommitted = true ∧ off < s.host.hdmSize ∧ s.host.memActive = false) ∧
    (let off : Nat := 64; let s : State := up; (s.host.hdmCommitted = false ∨ s.host.hdmSize ≤ off)) ∧
    (let off : Nat := hsBase + 64; let s : State := hdm; s.host.hdmCommitted = true ∧ off < s.host.hdmSize ∧ s.host.memActive = true ∧ off < s.hostBytes) := by
  decide +kernel

theorem witness_MailboxLogRows_1 :
    (let s : State := up; s.served = true) ∧
    (let s : State := up; s.served = true) ∧
    (let log : Fin 4 := 2; let h : Nat := 5; let s : State := up; s.served = true ∧ (tget s.sup.logs log.val {}).records.any (fun e => e.handle = h) = false) ∧
    (let s : State := up; s.served = true) ∧
    (let s : State := up; s.served = true) ∧
    (let s : State := up; s.served = true) := by
  decide +kernel

theorem witness_MailboxLogRows_2 :
    (let s : State := up; s.served = true) ∧
    (let s : State := up; s.served = true) ∧
    (let s : State := up; s.served = true) ∧
    (let s : State := State.reset; s.served = false) ∧
    (let code : Nat := 9; let unit : Nat := 0; let inst : Nat := 0; let ch : Nat := 0; let s : State := { up with now := sec 2, sup := { up.sup with coalesce := [{ ev := { code := 9, chan := 0 }, sev := 1, since := sec 1 }] } }; let e : EventRec := { code := code, unit := unit, inst := inst, chan := ch }; s.sup.coalesce.any (fun c => sameEvent c.ev e && decide (c.since + sec 1 ≤ s.now)) = true) := by
  decide +kernel

theorem witness_BootAndImageRows_1 :
    (let s : State := State.reset; s.rd mbxBootState = 0) ∧
    (let s : State := State.reset; s.rd mbxBootState = 0 ∧ s.flag mbxBootWarm = false) ∧
    (let s : State := State.reset.wr mbxBootWarm 1; s.rd mbxBootState = 0 ∧ s.flag mbxBootWarm = true) ∧
    (let off : Nat := 8; let data : List Byte := [1, 2, 3, 4]; let s : State := State.reset.wr mbxBootState 2; s.rd mbxBootState = 2 ∧ s.img.memNoFit = false ∧ off % 4 = 0 ∧ data.length % 4 = 0 ∧ 4 ≤ data.length ∧ data.length ≤ 2 ^ 20 ∧ off + data.length ≤ 2 ^ 26) ∧
    (let s : State := State.reset.wr mbxBootState 2; s.rd mbxBootState = 2 ∧ s.img.memNoFit = false ∧ s.rd secLifecycle ≠ 3) ∧
    (let s : State := State.reset.wr mbxBootState 3; let r := 2; let st := stBAD_PARAM; s.rd mbxBootState = 3 ∧ s.romCheck s.pushed = some (r, st) ∧ r < 16) := by
  decide +kernel

theorem witness_BootAndImageRows_2 :
    (let s : State := let s := State.reset.wr mbxBootState 4; { s with img := { s.img with running := some (img 4) } }; s.rd mbxBootState = 4) ∧
    (let r : Image := img 4; let s : State := let s := State.reset.wr mbxBootState 4; { s with img := { s.img with running := some (img 4) } }; s.rd mbxBootState = 4 ∧ s.img.running = some r ∧ s.flag mbxBootWarm = false) ∧
    (let s : State := State.reset; s.rd mbxBootState ≠ 7) ∧
    (let s : State := up; s.mbWait = true) ∧
    (let c : HostCmd := cmd 2 0 2048; let s : State := taken 0x70; let kind := bits c.w1.toNat 0 2; commandRuns c 0x70 [(1, 3), (3, 0xFFFFFFFFFFFFFFFF), (4, 0xFFFFFFFFFFFFFFFF)] false s = true ∧ 1 < kind) ∧
    (let c : HostCmd := cmd 1 0 2048; let s : State := let s := taken 0x70; { s with host := { s.host with cacheOut := [{ serves := 3, qid := 1, tag := 2, addr := 0, res2 := 1, write := false, last := true }] } }; let kind := bits c.w1.toNat 0 2; commandRuns c 0x70 [(1, 3), (3, 0xFFFFFFFFFFFFFFFF), (4, 0xFFFFFFFFFFFFFFFF)] false s = true ∧ kind ≤ 1 ∧ ((s.staging kind = true ∨ s.activating kind = true))) := by
  decide +kernel

theorem witness_BootAndImageRows_3 :
    (let c : HostCmd := cmd 1 0 2048; let s : State := taken 0x70; let kind := bits c.w1.toNat 0 2; commandRuns c 0x70 [(1, 3), (3, 0xFFFFFFFFFFFFFFFF), (4, 0xFFFFFFFFFFFFFFFF)] false s = true ∧ kind ≤ 1 ∧ s.staging kind = false ∧ s.activating kind = false) ∧
    (let c : HostCmd := cmd 3; let s : State := taken 0x71; commandRuns c 0x71 [(1, 3)] false s = true ∧ 1 < bits c.w1.toNat 0 2) ∧
    (let c : HostCmd := cmd; let s : State := let s := taken 0x71; { s with img := { s.img with stagedSup := some (img 4) } }; let p : Image := img 4; let st := 4; let check := 1; commandRuns c 0x71 [(1, 3)] false s = true ∧ bits c.w1.toNat 0 2 = 0 ∧ s.activateWaits c = false ∧ s.img.stagedSup = some p ∧ s.supChecks p.raw = some (st, check)) ∧
    (let c : HostCmd := cmd; let s : State := taken 0x71 (up.wr supRolloutActive 1); commandRuns c 0x71 [(1, 3)] false s = true ∧ bits c.w1.toNat 0 2 = 0 ∧ s.activateWaits c = true) ∧
    (let c : HostCmd := cmd; let s : State := taken 0x71; commandRuns c 0x71 [(1, 3)] false s = true ∧ bits c.w1.toNat 0 2 = 0 ∧ s.activateWaits c = false ∧ s.img.stagedSup = none) ∧
    (let c : HostCmd := cmd 1; let s : State := taken 0x71; commandRuns c 0x71 [(1, 3)] false s = true ∧ bits c.w1.toNat 0 2 = 1 ∧ s.img.stagedPack = none) := by
  decide +kernel

theorem witness_BootAndImageRows_4 :
    (let c : HostCmd := cmd 1; let s : State := let s := taken 0x71; { s with img := { s.img with stagedPack := some (img 4 1) } }; let p : Image := img 4 1; let st := 4; let check := 1; commandRuns c 0x71 [(1, 3)] false s = true ∧ bits c.w1.toNat 0 2 = 1 ∧ s.img.stagedPack = some p ∧ s.packChecks p.raw = some (st, check)) ∧
    (let s : State := State.reset; ((s.flag supRolloutActive = false ∨ s.served = false))) ∧
    (let s : State := let s := (up.wr supRolloutActive 1).wr pwrEngOn 0xFFFFFF; { s with img := { s.img with rolloutNext := 24 } }; s.flag supRolloutActive = true ∧ s.served = true ∧ s.rolloutDomain s.img.rolloutNext = none) ∧
    (let s : State := ((up.wr supRolloutActive 1).wr pwrEngOn 0xFFFFFF).wr supLoadLimit 96; let d := 0; let up := ((enginesOf d).filter (fun e => (s.me e).service = 0)).length; s.flag supRolloutActive = true ∧ s.served = true ∧ s.rolloutDomain s.img.rolloutNext = some d ∧ up ≠ 0 ∧ s.serving.length < s.rd supLoadLimit + up) ∧
    (let s : State := let s := ((up.wr supRolloutActive 1).wr pwrEngOn 0xFFFFFF).wr supLoadLimit 90; s.modMe 0 (fun m => { m with running := some skein }); let d := 0; let up := ((enginesOf d).filter (fun e => (s.me e).service = 0)).length; s.flag supRolloutActive = true ∧ s.served = true ∧ s.rolloutDomain s.img.rolloutNext = some d ∧ (up = 0 ∨ s.rd supLoadLimit + up ≤ s.serving.length) ∧ (s.rolloutRetire d).rolloutReady d = false) ∧
    (let s : State := ((up.wr supRolloutActive 1).wr pwrEngOn 0xFFFFFF).wr supLoadLimit 90; let d := 0; let up := ((enginesOf d).filter (fun e => (s.me e).service = 0)).length; s.flag supRolloutActive = true ∧ s.served = true ∧ s.rolloutDomain s.img.rolloutNext = some d ∧ (up = 0 ∨ s.rd supLoadLimit + up ≤ s.serving.length) ∧ (s.rolloutRetire d).rolloutReady d = true ∧ ((s.rolloutRetire d).rolloutRestore d).rolloutDomain (d + 1) ≠ none) := by
  decide +kernel

theorem witness_BootAndImageRows_5 :
    (let s : State := let s := (((up.wr supRolloutActive 1).wr pwrEngOn 0xFFFFFF).wr supLoadLimit 90); let t := (List.range 4).foldl (fun (s : State) i => s.modMe (92 + i) (fun m => { m with service := 2, byRollout := true })) s; { t with img := { t.img with rolloutNext := 23 } }; let d := 23; let up := ((enginesOf d).filter (fun e => (s.me e).service = 0)).length; s.flag supRolloutActive = true ∧ s.served = true ∧ s.rolloutDomain s.img.rolloutNext = some d ∧ (up = 0 ∨ s.rd supLoadLimit + up ≤ s.serving.length) ∧ (s.rolloutRetire d).rolloutReady d = true ∧ ((s.rolloutRetire d).rolloutRestore d).rolloutDomain (d + 1) = none) := by
  decide +kernel

theorem witness_SecurityRows_1 :
    (let m : SpdmRequest := .ideKeySetGo 0; let s : State := up; ((needsIdentity m = true ∧ s.sup.vault.identity = false) ∨ (needsSession m = true ∧ s.host.spdmSession = false))) ∧
    (let s : State := { up with host := { up.host with spdmSession := true } }; s.host.spdmSession = true) ∧
    (let s : State := { up with host := { up.host with spdmSession := true } }; s.host.spdmSession = true) ∧
    (let r : Image := img 4; let s : State := { up with img := { up.img with running := some (img 4) } }; s.img.running = some r ∧ r.svn < 2 ^ 16 ∧ s.rd secSvnFloorSup < 2 ^ 16) ∧
    (let c : HostCmd := cmd; let s : State := (taken 0xF0).wr secLifecycle 0; commandRuns c 0xF0 [(1, 1)] true s = true ∧ bits c.w1.toNat 0 1 = 0 ∧ c.w2 = 0 ∧ s.serviceAllowed = true) ∧
    (let c : HostCmd := cmd; let s : State := (taken 0xF0).wr secServiceAllow 0; commandRuns c 0xF0 [(1, 1)] true s = true ∧ bits c.w1.toNat 0 1 = 0 ∧ c.w2 = 0 ∧ s.serviceAllowed = false) := by
  decide +kernel

theorem witness_SecurityRows_2 :
    (let s : State := { up with now := 5, img := { up.img with eraseAt := some 5 } }; let a : Nat := 5; s.img.eraseAt = some a ∧ a ≤ s.now) ∧
    (let s : State := up; ((∀ a, s.img.eraseAt = some a → s.now < a))) := by
  decide +kernel

theorem witness_SecurityRows_3 :
    (let c : HostCmd := cmd 1; let s : State := taken 0xF0; let d : Nat := 16; s.groupsOf c [15] [15] = .error d ∧ commandRuns c 0xF0 [(1, 1)] true s = true ∧ bits c.w1.toNat 0 1 = 1) :=
  ⟨errIs _ _ (by decide +kernel), by decide +kernel⟩

theorem witness_SecurityRows_4 :
    (let c : HostCmd := blkCmd (0x0C0F :: List.replicate 12 0) 1; let s : State := taken 0xF0 open5; let u := s.scrub c; let gs : List Grp := [{ type := 15, pos := 8, ws := List.replicate 12 0 }]; s.groupsOf c [15] [15] = .ok gs ∧ commandRuns c 0xF0 [(1, 1)] true s = true ∧ bits c.w1.toNat 0 1 = 1 ∧ liveChans u ≠ []) :=
  ⟨okIs _ _ (by decide +kernel), by decide +kernel⟩

theorem witness_SecurityRows_5 :
    (let c : HostCmd := blkCmd (0x0C0F :: List.replicate 12 0) 1; let s : State := taken 0xF0; let u := s.scrub c; let gs : List Grp := [{ type := 15, pos := 8, ws := List.replicate 12 0 }]; s.groupsOf c [15] [15] = .ok gs ∧ commandRuns c 0xF0 [(1, 1)] true s = true ∧ bits c.w1.toNat 0 1 = 1 ∧ liveChans u = [] ∧ u.sup.vault.challenge = none) :=
  ⟨okIs _ _ (by decide +kernel), by decide +kernel⟩

theorem witness_SecurityRows_6 :
    (let c : HostCmd := blkCmd (0x0C0F :: List.replicate 12 0) 1; let s : State := let s := (taken 0xF0).wr secServiceAllow 1; { s with sup := { s.sup with vault := { s.sup.vault with challenge := some 9 } } }; let u := s.scrub c; let gs : List Grp := [{ type := 15, pos := 8, ws := List.replicate 12 0 }]; let ch : BitVec 128 := 9; s.groupsOf c [15] [15] = .ok gs ∧ commandRuns c 0xF0 [(1, 1)] true s = true ∧ bits c.w1.toNat 0 1 = 1 ∧ liveChans u = [] ∧ u.sup.vault.challenge = some ch) :=
  ⟨okIs _ _ (by decide +kernel), by decide +kernel⟩

theorem witness_PortLinkRows_1 :
    (let p : PortId := 1; let s : State := up.wr ethMode 1 1; s.mayLink p.val = true) ∧
    (let p : PortId := 1; let s : State := up; s.mayLink p.val = false) ∧
    (let p : PortId := 1; let f : StageFail := { stage := .autoNeg }; let s : State := up.wr ethMode 1 1; let m := s.rd ethMode p.val; s.mayLink p.val = true ∧ s.flag ethLinkUp p.val = false ∧ f.stage ∈ bringUpStages m) ∧
    (let p : PortId := 1; let f : StageFail := { stage := .autoNeg }; let s : State := up.wr ethMode 3 1; (s.mayLink p.val = false ∨ s.flag ethLinkUp p.val = true ∨ f.stage ∉ bringUpStages (s.rd ethMode p.val))) ∧
    (let p : PortId := 1; let s : State := up; (s.port p.val).wire = none) ∧
    (let p : PortId := 1; let m : ModuleInfo := { apps := [(2, 0), (5, 1)], powerClass := 1 }; let a : Byte × Nat := (5, 1); let s : State := { up.wr ethMode 1 1 with sup := { up.sup with modPower := [4, 4, 4, 4] } }; s.served = true ∧ (s.port p.val).wire = none ∧ m.spec ≠ .unsupported ∧ m.powerClass ≤ s.sup.modPower.getD p.val 0 ∧ m.apps.find? (fun e => e.2 = s.rd ethMode p.val) = some a) := by
  decide +kernel

theorem witness_PortLinkRows_2 :
    (let p : PortId := 1; let s : State := up; (s.port p.val).wire = none) ∧
    (let p : PortId := 1; let s : State := up.wr ethModPresent 1 1; s.served = true ∧ s.flag ethModPresent p.val = true) ∧
    (let p : PortId := 1; let s : State := (up.wr ethModPresent 1 1).modPort 1 (fun x => { x with monitorAt := 5 }); s.served = true ∧ s.flag ethModPresent p.val = true ∧ s.now < (s.port p.val).monitorAt) ∧
    (let p : PortId := 1; let s : State := up.wr ethModPresent 1 1; s.served = true ∧ s.flag ethModPresent p.val = true ∧ (s.port p.val).monitorAt ≤ s.now) ∧
    (let p : PortId := 1; let w : Nat := 64; let v : Word64 := BitVec.ofNat 64 (up.readWord 0x32000); let s : State := up; let u := s.writeReg (ethBase p.val) w v.toNat; u.rd ethMode p.val = s.rd ethMode p.val ∧ u.rd ethRxPol p.val = s.rd ethRxPol p.val ∧ u.rd ethTxPol p.val = s.rd ethTxPol p.val) ∧
    (let p : PortId := 1; let w : Nat := 64; let v : Word64 := BitVec.ofNat 64 (up.readWord 0x32000 + 2 ^ 16); let s : State := up; let u := s.writeReg (ethBase p.val) w v.toNat; u.rd ethMode p.val = s.rd ethMode p.val ∧ (u.rd ethRxPol p.val ≠ s.rd ethRxPol p.val ∨ u.rd ethTxPol p.val ≠ s.rd ethTxPol p.val)) := by
  decide +kernel

theorem witness_FrameReceiveVerdicts_1 :
    (let p : PortId := 1; let s : State := up; s.flag ethLinkUp p.val = false) ∧
    (let p : PortId := 1; let f : RxFrame := frame64 (List.replicate 6 0xFF) [0x12, 0x34]; let s : State := up.wr ethLinkUp 1 1; s.flag ethLinkUp p.val = true ∧ (s.flag ethRxEn p.val = false ∨ f.data = [])) ∧
    (let p : PortId := 1; let f : RxFrame := { data := [1, 2, 3], codeErr := true }; let s : State := linked; s.flag ethLinkUp p.val = true ∧ s.flag ethRxEn p.val = true ∧ f.data ≠ [] ∧ (f.codeErr = true ∨ f.fecUncorr ≠ 0)) ∧
    (let p : PortId := 1; let f : RxFrame := { data := [1, 2, 3] }; let s : State := linked; let s0 := (s.bumpBy fecCorrected f.fecCorr p.val).bumpBy fecUncorrectable f.fecUncorr p.val; let c := rxRunt; s.flag ethLinkUp p.val = true ∧ s.flag ethRxEn p.val = true ∧ f.data ≠ [] ∧ s0.rxVerdict p.val f = .drop c) ∧
    (let p : PortId := 1; let f : RxFrame := frame64 pauseDa [0x88, 0x08, 0, 2]; let s : State := linked; let s0 := (s.bumpBy fecCorrected f.fecCorr p.val).bumpBy fecUncorrectable f.fecUncorr p.val; s.flag ethLinkUp p.val = true ∧ s.flag ethRxEn p.val = true ∧ f.data ≠ [] ∧ s0.rxVerdict p.val f = .unsup) ∧
    (let p : PortId := 1; let f : RxFrame := frame64 pauseDa [0x88, 0x08, 0, 1, 0, 9]; let s : State := linked.wr ethPauseRxEn 0 1; let s0 := (s.bumpBy fecCorrected f.fecCorr p.val).bumpBy fecUncorrectable f.fecUncorr p.val; let q := 9; s.flag ethLinkUp p.val = true ∧ s.flag ethRxEn p.val = true ∧ f.data ≠ [] ∧ s0.rxVerdict p.val f = .pause false q) := by
  decide +kernel

theorem witness_FrameReceiveVerdicts_2 :
    (let p : PortId := 1; let f : RxFrame := frame64 pauseDa [0x88, 0x08, 0, 1, 0, 9]; let s : State := linked.wr ethPauseRxEn 1 1; let s0 := (s.bumpBy fecCorrected f.fecCorr p.val).bumpBy fecUncorrectable f.fecUncorr p.val; let q := 9; s.flag ethLinkUp p.val = true ∧ s.flag ethRxEn p.val = true ∧ f.data ≠ [] ∧ s0.rxVerdict p.val f = .pause true q) ∧
    (let p : PortId := 1; let f : RxFrame := frame64 (List.replicate 6 0xFF) [0x12, 0x34]; let s : State := linked; let s0 := (s.bumpBy fecCorrected f.fecCorr p.val).bumpBy fecUncorrectable f.fecUncorr p.val; let body := f.data.take (f.data.length - 4); let plain := f.oldFilters = none ∧ firstHit ((List.range 32).map (s0.filterCfg p.val)) body = none ∧ s.cap.caps.find? (fun e => e.1 = 65536 + p.val) = none; s.flag ethLinkUp p.val = true ∧ s.flag ethRxEn p.val = true ∧ f.data ≠ [] ∧ s0.rxVerdict p.val f = .accept ∧ plain ∧ f.packetUe = false) ∧
    (let p : PortId := 1; let f : RxFrame := { frame64 (List.replicate 6 0xFF) [0x12, 0x34] with packetUe := true, packetCe := 2 }; let s : State := linked; let s0 := (s.bumpBy fecCorrected f.fecCorr p.val).bumpBy fecUncorrectable f.fecUncorr p.val; let body := f.data.take (f.data.length - 4); let plain := f.oldFilters = none ∧ firstHit ((List.range 32).map (s0.filterCfg p.val)) body = none ∧ s.cap.caps.find? (fun e => e.1 = 65536 + p.val) = none; s.flag ethLinkUp p.val = true ∧ s.flag ethRxEn p.val = true ∧ f.data ≠ [] ∧ s0.rxVerdict p.val f = .accept ∧ plain ∧ f.packetUe = true) := by
  decide +kernel

theorem witness_GateAndPauseRows :
    (let p : PortId := 1; let v : Word64 := 8; let s : State := up.wr ethGateLen 1 1 1; ((bit v.toNat 3 = true ∧ s.bankOk p.val (1 - s.rd ethGateActiveBank p.val) = false) ∨ (bit v.toNat 2 = true ∧ s.bankOk p.val (s.rd ethGateActiveBank p.val) = false))) ∧
    (let v : Word64 := 0; bit v.toNat 3 = false ∧ bit v.toNat 2 = false) ∧
    (let p : PortId := 1; let v : Word64 := 8; let s : State := up.wr ethGateLen 0 1 1; bit v.toNat 3 = true ∧ s.flag ethGateSwap p.val = false ∧ s.bankOk p.val (1 - s.rd ethGateActiveBank p.val) = true ∧ ((bit v.toNat 2 = true → s.bankOk p.val (s.rd ethGateActiveBank p.val) = true))) ∧
    (let p : PortId := 1; let s : State := up.wr ethGateSwap 1 1; s.flag ethGateSwap p.val = true ∧ (s.port p.val).swapAt ≤ s.tbVal (s.rd ethGateTb p.val) ∧ (∀ q < 8, s.txq p.val q = []) ∧ (s.port p.val).parts = []) ∧
    (let p : PortId := 1; let s : State := up; (s.flag ethGateSwap p.val = false ∨ s.tbVal (s.rd ethGateTb p.val) < (s.port p.val).swapAt)) := by
  decide +kernel

theorem witness_TransmitDescriptorQueued :
    (let p : PortId := 1; let d0 : TxDesc := desc; let s : State := up.modPort 1 (fun p => { p with waiting := [desc] }); let d := { d0 with buffers := buffersOf d0.data.length }; d0.owner = .host ∧ ((s.port p.val).waiting ≠ [] ∨ s.admits 3 d.buffers = false)) ∧
    (let p : PortId := 1; let d0 : TxDesc := desc; let s : State := up; let d := { d0 with buffers := buffersOf d0.data.length }; let far := d.launch.any (fun l => decide ((l.2.toNat : Int) - s.tbVal l.1.val > 2000000000)); d0.owner = .host ∧ (s.port p.val).waiting = [] ∧ s.admits 3 d.buffers = true ∧ far = false) ∧
    (let p : PortId := 1; let d0 : TxDesc := { desc with launch := some (0, 3000000000) }; let s : State := up; let d := { d0 with buffers := buffersOf d0.data.length }; let far := d.launch.any (fun l => decide ((l.2.toNat : Int) - s.tbVal l.1.val > 2000000000)); d0.owner = .host ∧ (s.port p.val).waiting = [] ∧ s.admits 3 d.buffers = true ∧ far = true) := by
  decide +kernel

theorem witness_LinkDownDiscards :
    (let p : PortId := 1; let s : State := up; let launched := fun (h : TxHead) => s.launched h.desc; ((s.flag ethLinkUp p.val = false ∨ s.flag ethTxEn p.val = false)) ∧ (s.port p.val).wire = none ∧ s.ring.fenced = false ∧ (s.port p.val).waiting = [] ∧ s.pickQ p.val launched = none) ∧
    (let p : PortId := 1; let s : State := waiting desc; let launched := fun (h : TxHead) => s.launched h.desc; let q := 3; let d := desc; ((s.flag ethLinkUp p.val = false ∨ s.flag ethTxEn p.val = false)) ∧ (s.port p.val).wire = none ∧ s.ring.fenced = false ∧ (s.port p.val).waiting = [] ∧ s.pickQ p.val launched = some (q, { desc := d, len := txFrameLen d }) ∧ d.owner = .host) ∧
    (let p : PortId := 1; let w : Wire := { desc := desc, bytes := List.replicate 600 1 }; let s : State := wired; (s.port p.val).wire = some w ∧ w.desc.owner = .host) := by
  decide +kernel

theorem witness_FrameTransmitRows :
    (let p : PortId := 1; let q : Nat := 3; let d : TxDesc := desc; let s : State := waiting desc linked; s.flag ethLinkUp p.val = true ∧ s.flag ethTxEn p.val = true ∧ (s.port p.val).wire = none ∧ s.ring.fenced = false ∧ (s.port p.val).waiting = [] ∧ (s.port p.val).pauseEnd ≤ s.now ∧ s.dropNever p.val = s ∧ s.tooLong p.val d = false ∧ s.pickQ p.val (fun h => (h.part.isNone && s.tooLong p.val h.desc) || s.eligible p.val h) = some (q, { desc := d, len := txFrameLen d })) ∧
    (let p : PortId := 1; let s : State := wired; s.flag ethLinkUp p.val = true ∧ s.flag ethTxEn p.val = true ∧ (s.port p.val).waiting = [] ∧ ((s.now < (s.port p.val).pauseEnd ∨ (s.port p.val).wire ≠ none))) ∧
    (let p : PortId := 1; let w : Wire := { desc := desc, bytes := List.replicate 600 1 }; let s : State := wired; (s.port p.val).wire = some w ∧ w.desc.owner = .host ∧ (s.cap.caps.find? (fun e => e.1 = 65536 + p.val)) = none) ∧
    (let p : PortId := 1; let w : Wire := { desc := desc, bytes := List.replicate 600 1 }; let s : State := wired; (s.port p.val).wire = some w ∧ w.segsLeft = [] ∧ w.desc.owner = .host ∧ s.flag ethGu12Compat p.val = false ∧ s.rd ethTxThreshold p.val < w.bytes.length ∧ s.rd ethMaxFrame p.val < 2 ^ 14) ∧
    (let p : PortId := 1; let w : Wire := { desc := desc, bytes := List.replicate 600 1 }; let s : State := wired.wr ethGu12Compat 1 1; (s.port p.val).wire = some w ∧ ((s.flag ethGu12Compat p.val = true ∨ w.bytes.length ≤ s.rd ethTxThreshold p.val))) := by
  decide +kernel

theorem witness_FlowLookupClasses :
    (let p : PortId := 0; let s : State := State.reset; (s.port p.val).rxQ = []) ∧
    (let p : PortId := 1; let cls : Nat := 2; let m : RxMeta := rxm (List.replicate 60 0); let rest : List RxMeta := []; let s : State := (up.modPort 1 (fun p => { p with rxQ := [rxm (List.replicate 60 0)] })).wr flwExcAction2 0; unitOn (.flowLookup p []) s ∧ (s.port p.val).rxQ = m :: rest ∧ m.mark = none ∧ s.ing.eccSlots = [] ∧ cls < 3 ∧ s.classify p.val m [] = .exc cls ∧ s.takesPtp p.val m.data = false ∧ s.excAction cls = 0) ∧
    (let p : PortId := 1; let m : RxMeta := rxm (udp4 [1]); let rest : List RxMeta := []; let e : FlowEntry := flow5 1 true; let pay : List Byte := [1]; let s : State := ((flowing 1 true [1]).wr flwPoolLimit1 0).wr flwPoolReserve1 0; unitOn (.flowLookup p []) s ∧ (s.port p.val).rxQ = m :: rest ∧ m.mark = none ∧ s.ing.eccSlots = [] ∧ s.classify p.val m [] = .flow e pay ∧ e.immediate = true ∧ s.admits 1 (buffersOf m.data.length) = false) ∧
    (let p : PortId := 1; let m : RxMeta := rxm (udp4 [1]); let rest : List RxMeta := []; let e : FlowEntry := flow5 1 true; let pay : List Byte := [1]; let s : State := flowing 1 true [1]; let n := buffersOf m.data.length; unitOn (.flowLookup p []) s ∧ (s.port p.val).rxQ = m :: rest ∧ m.mark = none ∧ s.ing.eccSlots = [] ∧ s.classify p.val m [] = .flow e pay ∧ e.rtcpMux = false ∧ e.srtp = false ∧ (s.chan e.ch).ingressHeld + n ≤ e.quota ∧ e.immediate = true ∧ e.kind = 1 ∧ s.admits 1 n = true) ∧
    (let p : PortId := 1; let m : RxMeta := rxm (udp4 (rtp 0 7)); let rest : List RxMeta := []; let e : FlowEntry := flow5 0 false; let pay : List Byte := rtp 0 7; let s : State := flowing 0 false (rtp 0 7); let n := buffersOf m.data.length; let w := (s.chan e.ch).weld; unitOn (.flowLookup p []) s ∧ (s.port p.val).rxQ = m :: rest ∧ m.mark = none ∧ s.ing.eccSlots = [] ∧ s.classify p.val m [] = .flow e pay ∧ e.rtcpMux = false ∧ e.srtp = false ∧ (s.chan e.ch).ingressHeld + n ≤ e.quota ∧ e.immediate = false ∧ e.eventEn = false ∧ e.kind = 0 ∧ w.blocks = [] ∧ (w.rxNext.getD w.rxFf).rxFec < 2 ∧ rtpValid pay = true ∧ s.admits 0 n = true) := by
  decide +kernel

theorem witness_IngressHousekeeping :
    (let ch : ChanId := 5; let s : State := open5 (fun c => { c with srx := { c.srx with previous := some { suite := 1, mkiLen := 0, mki := 0, key := 1, salt := 2 } } }); let r := (s.chan ch.val).srx; unitOn (.previousKeyDiscard ch) s ∧ r.previous ≠ none ∧ r.discardAt ≤ s.now) ∧
    (let ch : ChanId := 5; let s : State := open5; let r := (s.chan ch.val).srx; unitOn (.previousKeyDiscard ch) s ∧ (r.previous = none ∨ s.now < r.discardAt)) ∧
    (let s : State := State.reset; unitOn .excRateWindow s) ∧
    (let slot : Nat := 0; let s : State := State.reset; unitOn (.flowSlotRewrite slot) s) ∧
    (let p : PortId := 1; let a : BitVec 128 := 77; let sol : Bool := false; let f : List Byte := List.replicate 60 0; let s : State := { up with ing := { up.ing with lat := [(4, { addr := 77, active := true, users := 1 })] } }; let reply := arpReply (s.rd ethMacAddr p.val) a sol f; let n := buffersOf reply.length; s.latIndex a ≠ none ∧ (s.port p.val).waiting = [] ∧ s.admits 3 n = true) ∧
    (let a : BitVec 128 := 77; let s : State := up; s.latIndex a = none) := by
  decide +kernel

theorem witness_EgressPacketBuilt :
    (let ch : ChanId := 5; let s : State := State.reset; (s.chan ch.val).egr.outQ = []) ∧
    (let ch : ChanId := 5; let f : OutFrame := { payload := [1], pt := 0, span := 160, sent := false }; let rest : List OutFrame := []; let s : State := open5 (fun c => { c with egr := { c.egr with outQ := [{ payload := [1], pt := 0, span := 160, sent := false }] } }); unitOn (.egressPacketBuild ch) s ∧ (s.chan ch.val).egr.outQ = f :: rest ∧ f.sent = false ∧ f.raw = false ∧ f.eventTs = none ∧ s.admits 3 0 = true) ∧
    (let ch : ChanId := 5; let f : OutFrame := { payload := [1], pt := 0, span := 160 }; let rest : List OutFrame := []; let fs : List OutFrame := [{ payload := [1], pt := 0, span := 160 }]; let left : List OutFrame := []; let s : State := open5 (fun c => { c with egr := { c.egr with outQ := [{ payload := [1], pt := 0, span := 160 }] } }); let c := s.chan ch.val; unitOn (.egressPacketBuild ch) s ∧ c.egr.outQ = f :: rest ∧ f.raw = false ∧ f.eventTs = none ∧ f.sent = true ∧ f.sid = false ∧ redSent c = false ∧ nextPacket (f :: rest) = some (fs, left)) ∧
    (let ch : ChanId := 5; let f : OutFrame := { payload := [1], pt := 0, span := 160, eventTs := some 9 }; let ts : Nat := 9; let rest : List OutFrame := []; let s : State := open5 (fun c => { c with egr := { c.egr with outQ := [{ payload := [1], pt := 0, span := 160, eventTs := some 9 }] } }); unitOn (.egressPacketBuild ch) s ∧ (s.chan ch.val).egr.outQ = f :: rest ∧ f.raw = false ∧ f.eventTs = some ts) := by
  decide +kernel

theorem witness_BooksLatched_1 :
    (let b : Book := .taskSlots; let s : State := up; s.flag (bookRegs b).1 = false) ∧
    (let b : Book := .taskSlots; let s : State := up.wr morSnapReq 1; let due := tget s.sup.snapAt (bookNo b) 0 + us 1; let r := bookRegs b; let u := ((s.latchBook b).wr r.1 0).wr r.2.1 1; s.flag r.1 = true ∧ s.quiescent b = true ∧ s.now ≤ due ∧ (∀ x ∈ u.bookSums b, x.1 = x.2)) ∧
    (let b : Book := .packetBuffers; let s : State := { up.wr flwSnapReq 1 with ing := { up.ing with held := [(0, 140000)] } }; let due := tget s.sup.snapAt (bookNo b) 0 + us 1; let r := bookRegs b; let u := ((s.latchBook b).wr r.1 0).wr r.2.1 1; let x := (140000, 131072); s.flag r.1 = true ∧ s.quiescent b = true ∧ s.now ≤ due ∧ (u.bookSums b).find? (fun x => x.1 != x.2) = some x) ∧
    (let b : Book := .ringCredits; let s : State := up.wr rngSnapReq 1; let due := tget s.sup.snapAt (bookNo b) 0 + us 1; let r := bookRegs b; s.flag r.1 = true ∧ s.quiescent b = true ∧ s.now ≤ due) ∧
    (let b : Book := .ringCredits; let s : State := { up.wr rngSnapReq 1 with now := 1001 }; let due := tget s.sup.snapAt (bookNo b) 0 + us 1; let r := bookRegs b; s.flag r.1 = true ∧ (s.quiescent b = false ∨ due < s.now)) ∧
    (let b : Book := .ringCredits; let s : State := { up.wr rngSnapReq 1 with now := 1001 }; let due := tget s.sup.snapAt (bookNo b) 0 + us 1; let r := bookRegs b; s.flag r.1 = true ∧ (due < s.now ∨ (s.now = due ∧ s.quiescent b = false))) := by
  decide +kernel

theorem witness_BooksLatched_2 :
    (let b : Book := .ringCredits; let s : State := { up.wr rngSnapReq 1 with now := 1000 }; let due := tget s.sup.snapAt (bookNo b) 0 + us 1; let r := bookRegs b; s.flag r.1 = true ∧ (s.now < due ∨ (s.now = due ∧ s.quiescent b = true))) := by
  decide +kernel

theorem witness_SteepRingWriteFates_1 :
    (let s : State := up; s.ing.steepIn = []) ∧
    (let k : MediaPkt := pkt 9; let rest : List MediaPkt := []; let s : State := steeped (pkt 9) up; unitOn .steepRingWrite s ∧ s.ing.steepIn = k :: rest ∧ ((((s.chan k.ch).st ≠ .open ∧ (s.chan k.ch).st ≠ .bound) ∨ s.img.warmHold = true))) ∧
    (let k : MediaPkt := { pkt 9 with notice := true, restart := true }; let rest : List MediaPkt := []; let s : State := steeped { pkt 9 with notice := true, restart := true }; unitOn .steepRingWrite s ∧ s.ing.steepIn = k :: rest ∧ (((s.chan k.ch).st = .open ∨ (s.chan k.ch).st = .bound)) ∧ s.img.warmHold = false ∧ k.notice = true ∧ k.restart = true) ∧
    (let k : MediaPkt := pkt 9; let rest : List MediaPkt := []; let s : State := steeped (pkt 9); unitOn .steepRingWrite s ∧ s.ing.steepIn = k :: rest ∧ (((s.chan k.ch).st = .open ∨ (s.chan k.ch).st = .bound)) ∧ s.img.warmHold = false ∧ k.notice = false) ∧
    (let k : MediaPkt := pkt 9; let rest : List MediaPkt := []; let s : State := steeped (pkt 9) (open5 (fun c => { c with steep := { c.steep with anchored := true, playSeq := 8 } })); let c := s.chan k.ch; let d := signed 16 (k.seq + 65536 - c.steep.playSeq % 65536); let seq := c.steep.playSeq + d.toNat; unitOn .steepRingWrite s ∧ s.ing.steepIn = k :: rest ∧ c.st = .open ∧ s.img.warmHold = false ∧ k.notice = false ∧ k.restart = false ∧ c.vbd.state = 0 ∧ redRead c = false ∧ inPtSet c k.pt = true ∧ c.weld.blocks = [] ∧ (c.weld.rxNext.getD c.weld.rxFf).rxFec < 2 ∧ 32 + k.payload.length ≤ c.steep.moving.getD c.steep.slotSize ∧ c.steep.anchored = true ∧ c.steep.jumpPkt = none ∧ 0 ≤ d ∧ d < 512 ∧ c.steep.ring.any (fun e => e.2.seq = seq) = false) ∧
    (let k : MediaPkt := pkt 9; let rest : List MediaPkt := []; let s : State := steeped (pkt 9) (open5 (fun c => { c with steep := { c.steep with anchored := true, playSeq := 8, ring := [(9, { seq := 9, ts := 0, marker := false, pt := 0, payload := [], arrival := 0 })] } })); let c := s.chan k.ch; let d := signed 16 (k.seq + 65536 - c.steep.playSeq % 65536); let seq := c.steep.playSeq + d.toNat; unitOn .steepRingWrite s ∧ s.ing.steepIn = k :: rest ∧ c.st = .open ∧ s.img.warmHold = false ∧ k.notice = false ∧ k.restart = false ∧ c.vbd.state = 0 ∧ redRead c = false ∧ inPtSet c k.pt = true ∧ c.weld.blocks = [] ∧ (c.weld.rxNext.getD c.weld.rxFf).rxFec < 2 ∧ 32 + k.payload.length ≤ c.steep.moving.getD c.steep.slotSize ∧ c.steep.anchored = true ∧ c.steep.jumpPkt = none ∧ 0 ≤ d ∧ d < 512 ∧ c.steep.ring.any (fun e => e.2.seq = seq) = true) := by
  decide +kernel

theorem witness_SteepRingWriteFates_2 :
    (let k : MediaPkt := pkt 9; let rest : List MediaPkt := []; let s : State := steeped (pkt 9) (open5 (fun c => { c with steep := { c.steep with anchored := true, playSeq := 11 } })); let c := s.chan k.ch; let d := signed 16 (k.seq + 65536 - c.steep.playSeq % 65536); unitOn .steepRingWrite s ∧ s.ing.steepIn = k :: rest ∧ c.st = .open ∧ s.img.warmHold = false ∧ k.notice = false ∧ k.restart = false ∧ c.vbd.state = 0 ∧ redRead c = false ∧ inPtSet c k.pt = true ∧ c.weld.blocks = [] ∧ (c.weld.rxNext.getD c.weld.rxFf).rxFec < 2 ∧ 32 + k.payload.length ≤ c.steep.moving.getD c.steep.slotSize ∧ c.steep.anchored = true ∧ c.steep.jumpPkt = none ∧ -512 ≤ d ∧ d < 0 ∧ c.steep.recvBits.getLsbD (-d - 1).toNat = false) := by
  decide +kernel

theorem witness_PlayoutRows_1 :
    (let tb : TbId := 1; let b : Nat := 4; let rest : List Nat := []; let s : State := { up.modTb 1 (fun t => { t with tickQ := [4] }) with mor := { up.mor with relQ := List.replicate 8192 (task .gap) } }; unitOn (.tickEntryTaken tb) s ∧ (s.tb tb.val).tickQ = b :: rest ∧ s.relRoom = false) ∧
    (let tb : TbId := 1; let b : Nat := 4; let rest : List Nat := []; let s : State := up.modTb 1 (fun t => { t with tickQ := [4] }); unitOn (.tickEntryTaken tb) s ∧ (s.tb tb.val).tickQ = b :: rest ∧ s.relRoom = true ∧ (s.img.warmHold = true ∨ s.nextTicker tb.val (b * 250000) = none)) ∧
    (let tb : TbId := 1; let b : Nat := 4; let rest : List Nat := []; let s : State := up.modTb 1 (fun t => { t with tickQ := [4] }); unitOn (.tickEntryTaken tb) s ∧ (s.tb tb.val).tickQ = b :: rest ∧ s.relRoom = true ∧ s.img.warmHold = false) ∧
    (let ch : ChanId := 5; let s : State := up; let c := s.chan ch.val; let due := hasTick c c.tb ((s.tb c.tb).lastTick * 250000); (due = false ∨ s.relRoom = false ∨ s.img.warmHold = true)) ∧
    (let ch : ChanId := 5; let s : State := open5 (fun c => { c with steep := { c.steep with everAnchored := true } }); let c := s.chan ch.val; let due := hasTick c c.tb ((s.tb c.tb).lastTick * 250000); unitOn (.playoutTick ch) s ∧ due = true ∧ s.relRoom = true ∧ s.img.warmHold = false ∧ c.steep.offered = none ∧ c.steep.rephase = false ∧ saffronAudio c = false ∧ s.mor.relQ.any (fun t => t.ch = ch.val) = false ∧ c.steep.anchored = false) ∧
    (let ch : ChanId := 5; let s : State := open5 (fun c => { c with steep := { c.steep with everAnchored := true, anchored := true, ring := [(0, { seq := 0, ts := 0, marker := false, pt := 0, payload := [1], arrival := 0 })] } }); let c := s.chan ch.val; let due := hasTick c c.tb ((s.tb c.tb).lastTick * 250000); let r : RingSlot := { seq := 0, ts := 0, marker := false, pt := 0, payload := [1], arrival := 0 }; unitOn (.playoutTick ch) s ∧ due = true ∧ s.relRoom = true ∧ s.img.warmHold = false ∧ c.steep.offered = none ∧ c.steep.rephase = false ∧ saffronAudio c = false ∧ s.mor.relQ.any (fun t => t.ch = ch.val) = false ∧ c.steep.anchored = true ∧ band c = .eq ∧ lookAt c c.steep.nextTick = .frame r) := by
  decide +kernel

theorem witness_PlayoutRows_2 :
    (let ch : ChanId := 5; let s : State := open5; unitOn (.transitWindowAge ch) s) ∧
    (let ch : ChanId := 5; let s : State := { open5 (fun c => { c with steep := { c.steep with outSince := some 3 } }) with now := sec 11 }; let c := s.chan ch.val; let outlasted := c.jit.forceAfter ≠ 0 ∧ ∃ a, c.steep.outSince = some a ∧ a + sec c.jit.forceAfter ≤ s.now; unitOn (.forceAfterExpiry ch) s ∧ outlasted) ∧
    (let ch : ChanId := 5; let s : State := open5; let c := s.chan ch.val; let outlasted := c.jit.forceAfter ≠ 0 ∧ ∃ a, c.steep.outSince = some a ∧ a + sec c.jit.forceAfter ≤ s.now; unitOn (.forceAfterExpiry ch) s ∧ ¬outlasted) ∧
    (let ch : ChanId := 5; let s : State := open5; unitOn (.ringMove ch) s) := by
  decide +kernel

theorem witness_WeldOfferRows :
    (let ch : ChanId := 5; let s : State := open5; (s.chan ch.val).steep.offered = none) ∧
    (let ch : ChanId := 5; let seq : Nat := 7; let ts : Nat := 0; let tick : Nat := 0; let s : State := open5 (fun c => { c with steep := { c.steep with offered := some (7, 0, 0), ring := [(8, { seq := 8, ts := 160, marker := false, pt := 0, payload := [0x80, 0x02, 0x80, 0x01, 0x00, 9, 5], arrival := 0, red := true })] } }); let c := s.chan ch.val; let red := redSearch c ts ([1, 2, 3].flatMap (fun k => storedBlocks c (seq + k))) 0; let pt := 0; let body := [9]; unitOn (.weldOffer ch) s ∧ c.steep.offered = some (seq, ts, tick) ∧ s.tbVal c.tb ≤ tick + 8000 ∧ saffronAudio c = false ∧ red.1 = some (pt, body)) ∧
    (let ch : ChanId := 5; let seq : Nat := 7; let ts : Nat := 0; let tick : Nat := 0; let s : State := open5 (fun c => { c with fec := { c.fec with rxFec := 2 }, weld := { c.weld with store := [(7, ([1], 3))] }, steep := { c.steep with offered := some (7, 0, 0) } }); let c := s.chan ch.val; let red := redSearch c ts ([1, 2, 3].flatMap (fun k => storedBlocks c (seq + k))) 0; let kept := c.weld.store.find? (fun e => e.1 = seq); let body := [1]; let pt := 3; unitOn (.weldOffer ch) s ∧ c.steep.offered = some (seq, ts, tick) ∧ s.tbVal c.tb ≤ tick + 8000 ∧ saffronAudio c = false ∧ red.1 = none ∧ kept = some (seq, (body, pt))) ∧
    (let ch : ChanId := 5; let seq : Nat := 8; let ts : Nat := 0; let tick : Nat := 0; let s : State := open5 (fun c => { c with steep := { c.steep with offered := some (8, 0, 0) } }); let c := s.chan ch.val; let red := redSearch c ts ([1, 2, 3].flatMap (fun k => storedBlocks c (seq + k))) 0; let kept := c.weld.store.find? (fun e => e.1 = seq); unitOn (.weldOffer ch) s ∧ c.steep.offered = some (seq, ts, tick) ∧ s.tbVal c.tb ≤ tick + 8000 ∧ saffronAudio c = false ∧ red.1 = none ∧ kept = none) ∧
    (let ch : ChanId := 5; let seq : Nat := 7; let ts : Nat := 0; let tick : Nat := 0; let s : State := open5 (fun c => { c with steep := { c.steep with offered := some (7, 0, 0) } }); let c := s.chan ch.val; unitOn (.weldAnswerTimeout ch) s ∧ c.steep.offered = some (seq, ts, tick) ∧ s.tbVal c.tb < tick + 8000) ∧
    (let ch : ChanId := 5; let seq : Nat := 7; let ts : Nat := 0; let tick : Nat := 0; let s : State := (open5 (fun c => { c with steep := { c.steep with offered := some (7, 0, 0) } })).modTb 0 (fun t => { t with value := 8000 }); let c := s.chan ch.val; unitOn (.weldAnswerTimeout ch) s ∧ c.steep.offered = some (seq, ts, tick) ∧ tick + 8000 ≤ s.tbVal c.tb) := by
  decide +kernel

theorem witness_BlockDecodeRows_1 :
    (let ch : ChanId := 5; let s : State := open5; s.ing.weldIn.find? (fun k => k.ch = ch.val) = none) ∧
    (let ch : ChanId := 5; let r : RepairPacket := { sbn := 2, esi := 4, k := 4, n := 6, symbol := [1] }; let k : RepairIn := { ch := 5, payload := [0, 2, 0, 4, 0, 4, 0, 6, 1], buffers := 1 }; let s : State := { open5 with ing := { up.ing with weldIn := [{ ch := 5, payload := [0, 2, 0, 4, 0, 4, 0, 6, 1], buffers := 1 }] } }; let c := s.chan ch.val; let f := fecFor c.weld r.sbn.toNat; unitOn (.repairSymbolReceive ch r) s ∧ s.ing.weldIn.find? (fun k => k.ch = ch.val) = some k ∧ repairParse k.payload = some r ∧ f.rxFec < 2) ∧
    (let ch : ChanId := 5; let r : RepairPacket := { sbn := 2, esi := 4, k := 4, n := 6, symbol := List.replicate 256 1 }; let k : RepairIn := { ch := 5, payload := [0, 2, 0, 4, 0, 4, 0, 6] ++ List.replicate 256 1, buffers := 1 }; let s : State := { open5 (fun c => { c with weld := { c.weld with blocks := [{ sbn := 2, k := 4, par := { rxFec := 2 } }] } }) with ing := { up.ing with weldIn := [{ ch := 5, payload := [0, 2, 0, 4, 0, 4, 0, 6] ++ List.replicate 256 1, buffers := 1 }] } }; let c := s.chan ch.val; let f := fecFor c.weld r.sbn.toNat; let b : FecBlock := { sbn := 2, k := 4, par := { rxFec := 2 } }; unitOn (.repairSymbolReceive ch r) s ∧ s.ing.weldIn.find? (fun k => k.ch = ch.val) = some k ∧ repairParse k.payload = some r ∧ ((c.st = .open ∨ c.st = .bound)) ∧ 2 ≤ f.rxFec ∧ r.symbol.length = f.ffE ∧ r.k ≤ r.esi ∧ r.k ≤ f.ffK ∧ c.weld.blocks.find? (fun x => x.sbn = r.sbn.toNat) = some b ∧ b.symbols.any (fun e => e.1 = r.esi) = false) ∧
    (let u : Fin 2 := 1; let j : DecodeJob := { ch := 5, sbn := 2 }; let rest : List DecodeJob := []; let s : State := { open5 with weldU := { queue := [{ ch := 5, sbn := 2 }] } }; let blk := (s.chan j.ch).weld.blocks.find? (fun b => b.sbn = j.sbn); unitOn (.decodeJobStart u) s ∧ s.weldU.queue = j :: rest ∧ s.weldU.running.any (fun e => e.1 = u.val) = false ∧ blk = none) ∧
    (let u : Fin 2 := 1; let j : DecodeJob := { ch := 5, sbn := 2 }; let rest : List DecodeJob := []; let s : State := { open5 (fun c => { c with weld := { c.weld with blocks := [{ sbn := 2, k := 4 }] } }) with weldU := { queue := [{ ch := 5, sbn := 2 }] } }; let blk := (s.chan j.ch).weld.blocks.find? (fun b => b.sbn = j.sbn); unitOn (.decodeJobStart u) s ∧ s.weldU.queue = j :: rest ∧ s.weldU.running.any (fun e => e.1 = u.val) = false ∧ blk ≠ none) ∧
    (let u : Fin 2 := 0; let s : State := State.reset; (s.weldU.queue = [] ∨ s.weldU.running.any (fun e => e.1 = u.val) = true)) := by
  decide +kernel

theorem witness_BlockDecodeRows_2 :
    (let u : Fin 2 := 1; let j : DecodeJob := { ch := 5, sbn := 2 }; let s : State := { open5 with weldU := { running := [(1, { ch := 5, sbn := 2 })] } }; let blk := (s.chan j.ch).weld.blocks.find? (fun b => b.sbn = j.sbn); unitOn (.decodeJobEnd u) s ∧ s.weldU.running.find? (fun e => e.1 = u.val) = some (u.val, j) ∧ blk = none) ∧
    (let u : Fin 2 := 1; let j : DecodeJob := { ch := 5, sbn := 2, passes := 3 }; let s : State := { open5 (fun c => { c with weld := { c.weld with blocks := [{ sbn := 2, k := 4 }] } }) with weldU := { running := [(1, { ch := 5, sbn := 2, passes := 3 })] } }; let blk := (s.chan j.ch).weld.blocks.find? (fun b => b.sbn = j.sbn); unitOn (.decodeJobEnd u) s ∧ s.weldU.running.find? (fun e => e.1 = u.val) = some (u.val, j) ∧ blk ≠ none ∧ j.solved = []) ∧
    (let u : Fin 2 := 1; let j : DecodeJob := { ch := 5, sbn := 2, solved := [(2, [0, 0, 14] ++ rtp 0 12)] }; let s : State := { open5 (fun c => { c with steep := { c.steep with anchored := true, playSeq := 10 }, weld := { c.weld with blocks := [{ sbn := 2, k := 4, firstSeq := some 10 }] } }) with weldU := { running := [(1, { ch := 5, sbn := 2, solved := [(2, [0, 0, 14] ++ rtp 0 12)] })] } }; let blk := (s.chan j.ch).weld.blocks.find? (fun b => b.sbn = j.sbn); let b : FecBlock := { sbn := 2, k := 4, firstSeq := some 10 }; let e := 2; let q := 10; let sym := ([0, 0, 14] ++ rtp 0 12 : List Byte); let c := s.chan j.ch; let pkt := (sym.drop 3).take (be16 sym 1); unitOn (.decodeJobEnd u) s ∧ s.weldU.running.find? (fun e => e.1 = u.val) = some (u.val, j) ∧ blk = some b ∧ j.solved = [(e, sym)] ∧ b.symbols.any (fun x => x.1 = e) = false ∧ b.firstSeq = some q ∧ c.srx.current = none ∧ rtpValid pkt = true ∧ tickAhead c (q + e) = true ∧ c.steep.ring.any (fun x => x.2.seq = q + e) = false ∧ redRead c = false) ∧
    (let ch : ChanId := 5; let s : State := State.reset; let w := (s.chan ch.val).weld; (w.txBlock = [] ∨ s.now < w.txFirstAt + ms w.txFf.timeout)) ∧
    (let ch : ChanId := 5; let s : State := { open5 (fun c => { c with weld := { c.weld with txBlock := [[1]] } }) with now := sec 9 }; let w := (s.chan ch.val).weld; unitOn (.ffBlockTimeout ch) s ∧ w.txBlock ≠ [] ∧ w.txFirstAt + ms w.txFf.timeout ≤ s.now ∧ w.txRepair = none ∧ s.admits 3 0 = true) := by
  decide +kernel

theorem witness_BlockDecodeRows_3 :
    (let c : HostCmd := blkCmd (least 10 2) 5; let gs : List Grp := [leastGrp 10 2]; let s : State := taken 0x21 up; let ch := chanOf c; let f := fecOf (grp gs 10); let old := s.chan ch; s.groupsOf c [10, 11] [10] = .ok gs ∧ commandRuns c 0x21 [(1, 0xFFFF)] true s = true ∧ grpOf gs 11 = none ∧ f.txFec < 2 ∧ old.st ≠ .open ∧ old.st ≠ .bound) :=
  ⟨okIs _ _ (by decide +kernel), by decide +kernel⟩

theorem witness_BlockDecodeRows_4 :
    (let c : HostCmd := blkCmd (least 10 2) 5; let gs : List Grp := [leastGrp 10 2]; let s : State := taken 0x21 (open5 id roomy); let ch := chanOf c; let f := fecOf (grp gs 10); let old := s.chan ch; s.groupsOf c [10, 11] [10] = .ok gs ∧ commandRuns c 0x21 [(1, 0xFFFF)] true s = true ∧ grpOf gs 11 = none ∧ f.txFec < 2 ∧ f.rxFec < 2 ∧ ((old.st = .open ∨ old.st = .bound)) ∧ s.canReserve (blockStoreBytes f - old.weld.reserved) = true ∧ (s.flowsOfChan ch).filter (fun e => e.kind = 2) = [] ∧ s.installFlows [] [] = some s) :=
  ⟨okIs _ _ (by decide +kernel), by decide +kernel⟩

theorem witness_EchoTimerRows_1 :
    (let ch : ChanId := 5; let k := 4; k ≠ ch.val) ∧
    (let ch : ChanId := 5; let q : Fin 4 := 0; let s : State := open5; ((s.chan ch.val).echo.quadrant ≠ some q.val ∨ (s.chan ch.val).ecs.ecOn = false ∨ s.tbVal (s.chan ch.val).tb < (s.chan ch.val).echo.nextSearch)) ∧
    (let ch : ChanId := 5; let q : Fin 4 := 2; let s : State := open5 (fun c => { c with ecs := { c.ecs with ecOn := true }, echo := { c.echo with quadrant := some 2 } }); let c := s.chan ch.val; unitOn (.woadSearch ch q) s ∧ c.echo.quadrant = some q.val ∧ c.ecs.ecOn = true ∧ c.echo.nextSearch ≤ s.tbVal c.tb) := by
  decide +kernel

theorem witness_EchoTimerRows_2 :
    (let c : HostCmd := blkCmd (least 7 2) 5; let gs : List Grp := [leastGrp 7 2]; let s : State := taken 0x22 open5; let ch := chanOf c; let g := grp gs 7; s.groupsOf c [7] [7] = .ok gs ∧ commandRuns c 0x22 [(1, 0xFFFF)] true s = true ∧ (((s.chan ch).st = .open ∨ (s.chan ch).st = .bound)) ∧ firstFail (echoChecks g) = none) :=
  ⟨okIs _ _ (by decide +kernel), by decide +kernel⟩

theorem witness_EchoTimerRows_3 :
    (let c : HostCmd := blkCmd (least 7 2) 5; let gs : List Grp := [leastGrp 7 2]; let s : State := taken 0x22 up; let ch := chanOf c; let g := grp gs 7; s.groupsOf c [7] [7] = .ok gs ∧ commandRuns c 0x22 [(1, 0xFFFF)] true s = true ∧ (s.chan ch).st ≠ .open ∧ (s.chan ch).st ≠ .bound ∧ firstFail (echoChecks g) = none) :=
  ⟨okIs _ _ (by decide +kernel), by decide +kernel⟩

theorem witness_EchoTimerRows_4 :
    (let c : HostCmd := blkCmd (least 7 2 [2 ^ 19]) 5; let gs : List Grp := [leastGrp 7 2 [2 ^ 19]]; let s : State := taken 0x22 open5; let g := grp gs 7; let e := stBAD_PARAM; let d := (leastGrp 7 2 [2 ^ 19]).detail 0 19; s.groupsOf c [7] [7] = .ok gs ∧ commandRuns c 0x22 [(1, 0xFFFF)] true s = true ∧ firstFail (echoChecks g) = some (e, d)) :=
  ⟨okIs _ _ (by decide +kernel), by decide +kernel⟩

theorem witness_GlazeRows_1 :
    (let k : Fin 12 := 2; let j : GlzJob := { engine := 0, skein := 1, addr := 0, started := true }; let r : List GlzJob := []; let s : State := glazed true; unitOn (.glazeDescriptorStart k) s ∧ tget s.glaze.queues k.val [] = j :: r ∧ j.started = true) ∧
    (let k : Fin 12 := 2; let j : GlzJob := { engine := 0, skein := 1, addr := 0 }; let r : List GlzJob := []; let s : State := glazed false; unitOn (.glazeDescriptorStart k) s ∧ tget s.glaze.queues k.val [] = j :: r ∧ j.started = false) ∧
    (let k : Fin 12 := 3; let s : State := glazed false; tget s.glaze.queues k.val [] = []) ∧
    (let k : Fin 12 := 2; let j : GlzJob := { engine := 0, skein := 1, addr := 0 }; let r : List GlzJob := []; let s : State := glazed false; unitOn (.glazeDescriptorComplete k) s ∧ tget s.glaze.queues k.val [] = j :: r ∧ j.started = false) ∧
    (let k : Fin 12 := 2; let j : GlzJob := { engine := 0, skein := 1, addr := 0, started := true }; let r : List GlzJob := []; let s : State := glazed true; unitOn (.glazeDescriptorComplete k) s ∧ tget s.glaze.queues k.val [] = j :: r ∧ j.started = true) ∧
    (let target : Nat := 0; let s : State := State.reset; target < 2 ∧ s.rd glzActiveBank < 2 ∧ target = s.rd glzActiveBank) := by
  decide +kernel

theorem witness_GlazeRows_2 :
    (let target : Nat := 1; let s : State := up; target < 2 ∧ s.rd glzActiveBank < 2 ∧ target ≠ s.rd glzActiveBank) ∧
    (let s : State := up; s.glaze.fadeEnd = none) ∧
    (let s : State := { up with glaze := { up.glaze with fadeEnd := some 9 } }; let t := 9; s.glaze.fadeEnd = some t ∧ s.now < t) ∧
    (let s : State := { up with glaze := { up.glaze with fadeEnd := some 9 }, now := 9 }; let t := 9; s.glaze.fadeEnd = some t ∧ t ≤ s.now ∧ s.glaze.heldReq = none) ∧
    (let s : State := { up with now := 9, glaze := { up.glaze with fadeEnd := some 9, heldReq := some (1, 3) } }; let t := 9; let b := 1; let x := 3; s.glaze.fadeEnd = some t ∧ t ≤ s.now ∧ s.glaze.heldReq = some (b, x)) := by
  decide +kernel

theorem witness_ToneRows_1 :
    (let ch : ChanId := 5; let s : State := open5; ((∀ e, (s.chan ch.val).tone.rxEvent = some e → s.now < e.lastAt + ms 200))) ∧
    (let ch : ChanId := 5; let e : RxEvent := { code := 1, ts := 5, duration := 80, volume := 10, lastAt := 0 }; let s : State := { open5 (fun c => { c with tone := { c.tone with rxEvent := some { code := 1, ts := 5, duration := 80, volume := 10, lastAt := 0 } } }) with now := ms 200 }; (s.chan ch.val).tone.rxEvent = some e ∧ e.lastAt + ms 200 ≤ s.now) ∧
    (let c : HostCmd := cmd 5; let s : State := taken 0x24 open5; commandRuns c 0x24 [(1, 0x1FFFF)] true s = true ∧ (s.chan (chanOf c)).st ≠ .bound) := by
  decide +kernel

theorem witness_ToneRows_2 :
    (let c : HostCmd := blkCmd (least 8 2) 5; let gs : List Grp := [leastGrp 8 2]; let s : State := taken 0x23 open5; let ch := chanOf c; let g := grp gs 8; let checks := toneChecks g s (s.chan ch).rx (s.chan ch).fec.redPt; s.groupsOf c [8] [8] = .ok gs ∧ commandRuns c 0x23 [(1, 0xFFFF)] true s = true ∧ (((s.chan ch).st = .open ∨ (s.chan ch).st = .bound)) ∧ firstFail checks = none) :=
  ⟨okIs _ _ (by decide +kernel), by decide +kernel⟩

theorem witness_ToneRows_3 :
    (let c : HostCmd := blkCmd (least 8 2 [2 ^ 34]) 5; let gs : List Grp := [leastGrp 8 2 [2 ^ 34]]; let s : State := taken 0x23 open5; let ch := chanOf c; let g := grp gs 8; let checks := toneChecks g s (s.chan ch).rx (s.chan ch).fec.redPt; let e := stBAD_PARAM; let d := (leastGrp 8 2 [2 ^ 34]).detail 0 34; s.groupsOf c [8] [8] = .ok gs ∧ commandRuns c 0x23 [(1, 0xFFFF)] true s = true ∧ (((s.chan ch).st = .open ∨ (s.chan ch).st = .bound)) ∧ firstFail checks = some (e, d)) :=
  ⟨okIs _ _ (by decide +kernel), by decide +kernel⟩

theorem witness_ToneRows_4 :
    (let c : HostCmd := blkCmd (least 8 2) 5; let gs : List Grp := [leastGrp 8 2]; let s : State := taken 0x23 up; let ch := chanOf c; s.groupsOf c [8] [8] = .ok gs ∧ commandRuns c 0x23 [(1, 0xFFFF)] true s = true ∧ (s.chan ch).st ≠ .open ∧ (s.chan ch).st ≠ .bound) :=
  ⟨okIs _ _ (by decide +kernel), by decide +kernel⟩

theorem witness_ToneRows_5 :
    (let c : HostCmd := blkCmd (least 14 1 [3]) 5; let gs : List Grp := [leastGrp 14 1 [3]]; let s : State := taken 0x24 (up.modChan 5 (fun c => { c with st := ChanState.bound, vbd := { c.vbd with state := 2 } })); let ch := chanOf c; let es := toneEntriesOf (grp gs 14); let allowed := fun (e : ToneEntry) => (s.chan ch).vbd.state = 0 ∨ toneClass e.code = 5 ∨ toneClass e.code = 6 ∨ toneClass e.code = 7; s.groupsOf c [14] [14] = .ok gs ∧ commandRuns c 0x24 [(1, 0x1FFFF)] true s = true ∧ (s.chan ch).st = .bound ∧ (∃ e ∈ es, ¬ allowed e)) :=
  ⟨okIs _ _ (by decide +kernel), by decide +kernel⟩

theorem witness_ToneRows_6 :
    (let c : HostCmd := blkCmd (least 14 1 [0xE1]) 5; let gs : List Grp := [leastGrp 14 1 [0xE1]]; let s : State := taken 0x24 (up.modChan 5 (fun c => { c with st := ChanState.bound })); let ch := chanOf c; let es := toneEntriesOf (grp gs 14); let allowed := fun (e : ToneEntry) => (s.chan ch).vbd.state = 0 ∨ toneClass e.code = 5 ∨ toneClass e.code = 6 ∨ toneClass e.code = 7; s.groupsOf c [14] [14] = .ok gs ∧ commandRuns c 0x24 [(1, 0x1FFFF)] true s = true ∧ (s.chan ch).st = .bound ∧ (∀ e ∈ es, allowed e) ∧ ((∃ e ∈ es, isGenerated e.code = false ∨ (e.stopCode ≠ 0xFF ∧ isDetected e.stopCode = false)))) :=
  ⟨okIs _ _ (by decide +kernel), by decide +kernel⟩

theorem witness_ToneRows_7 :
    (let c : HostCmd := blkCmd (least 14 1 [3 + 2 ^ 61]) 5; let gs : List Grp := [leastGrp 14 1 [3 + 2 ^ 61]]; let s : State := taken 0x24 (up.modChan 5 (fun c => { c with st := ChanState.bound, tone := { c.tone with gen0 := List.replicate 16 ((toneEntriesOf (leastGrp 14 1 [3])).getD 0 { code := 0, level := 0, on := 0, off := 0, repeats := 0, mix := false, stopCode := 0, stopEdge := false, append := false }) } })); let ch := chanOf c; let es := toneEntriesOf (grp gs 14); let dir := bits c.w1.toNat 16 1; let old := (s.chan ch).tone; let allowed := fun (e : ToneEntry) => (s.chan ch).vbd.state = 0 ∨ toneClass e.code = 5 ∨ toneClass e.code = 6 ∨ toneClass e.code = 7; s.groupsOf c [14] [14] = .ok gs ∧ commandRuns c 0x24 [(1, 0x1FFFF)] true s = true ∧ (s.chan ch).st = .bound ∧ ((∀ e ∈ es, allowed e ∧ isGenerated e.code = true ∧ (e.stopCode = 0xFF ∨ isDetected e.stopCode = true))) ∧ queueEntries (genQ old dir) false es = none) :=
  ⟨okIs _ _ (by decide +kernel), by decide +kernel⟩

theorem witness_ToneRows_8 :
    (let c : HostCmd := blkCmd (least 14 1 [3 + 2 ^ 61]) 5; let gs : List Grp := [leastGrp 14 1 [3 + 2 ^ 61]]; let s : State := taken 0x24 (up.modChan 5 (fun c => { c with st := ChanState.bound })); let ch := chanOf c; let es := toneEntriesOf (grp gs 14); let dir := bits c.w1.toNat 16 1; let old := (s.chan ch).tone; let allowed := fun (e : ToneEntry) => (s.chan ch).vbd.state = 0 ∨ toneClass e.code = 5 ∨ toneClass e.code = 6 ∨ toneClass e.code = 7; let q := toneEntriesOf (leastGrp 14 1 [3 + 2 ^ 61]); s.groupsOf c [14] [14] = .ok gs ∧ commandRuns c 0x24 [(1, 0x1FFFF)] true s = true ∧ (s.chan ch).st = .bound ∧ ((∀ e ∈ es, allowed e ∧ isGenerated e.code = true ∧ (e.stopCode = 0xFF ∨ isDetected e.stopCode = true))) ∧ queueEntries (genQ old dir) false es = some (q, false)) :=
  ⟨okIs _ _ (by decide +kernel), by decide +kernel⟩

theorem witness_ToneRows_9 :
    (let c : HostCmd := blkCmd (least 14 1 [3]) 5; let gs : List Grp := [leastGrp 14 1 [3]]; let s : State := taken 0x24 (up.modChan 5 (fun c => { c with st := ChanState.bound })); let ch := chanOf c; let es := toneEntriesOf (grp gs 14); let dir := bits c.w1.toNat 16 1; let old := (s.chan ch).tone; let allowed := fun (e : ToneEntry) => (s.chan ch).vbd.state = 0 ∨ toneClass e.code = 5 ∨ toneClass e.code = 6 ∨ toneClass e.code = 7; let q := toneEntriesOf (leastGrp 14 1 [3]); s.groupsOf c [14] [14] = .ok gs ∧ commandRuns c 0x24 [(1, 0x1FFFF)] true s = true ∧ (s.chan ch).st = .bound ∧ ((∀ e ∈ es, allowed e ∧ isGenerated e.code = true ∧ (e.stopCode = 0xFF ∨ isDetected e.stopCode = true))) ∧ queueEntries (genQ old dir) false es = some (q, true)) :=
  ⟨okIs _ _ (by decide +kernel), by decide +kernel⟩

theorem witness_VoicebandTimerRows :
    (let ch : ChanId := 5; let s : State := open5 (fun c => { c with vbd := { c.vbd with gapSince := some 9, ifpQ := [(4, [1])] } }); let c := s.chan ch.val; let v := c.vbd; ((∀ t, v.gapSince = some t → s.now < t + ms c.fax.reorder) ∨ v.ifpQ = [])) ∧
    (let ch : ChanId := 5; let s : State := { open5 (fun c => { c with vbd := { c.vbd with gapSince := some 9, ifpQ := [(4, [1])] } }) with now := sec 1 }; let c := s.chan ch.val; let v := c.vbd; let t := 9; let k := 4; let p := [1]; v.gapSince = some t ∧ v.ifpQ = [(k, p)] ∧ t + ms c.fax.reorder ≤ s.now) ∧
    (let ch : ChanId := 5; let s : State := open5 (fun c => { c with vbd := { c.vbd with textFirst := some 9 } }); let c := s.chan ch.val; ((∀ t, c.vbd.textFirst = some t → s.now < t + ms 300))) ∧
    (let ch : ChanId := 5; let s : State := { open5 (fun c => { c with vbd := { c.vbd with textFirst := some 9, textOut := [65] } }) with now := sec 1 }; let c := s.chan ch.val; let t := 9; c.vbd.textFirst = some t ∧ t + ms 300 ≤ s.now) ∧
    (let ch : ChanId := 5; let s : State := { open5 (fun c => { c with vbd := { c.vbd with state := 1 } }) with now := sec 1000 }; let c := s.chan ch.val; let d := s.chan c.peer; let since := if c.st = .bound then max c.vbd.lastDecl d.vbd.lastDecl else c.vbd.lastDecl; let due := (c.vbd.state = 1 ∨ c.vbd.state = 4) ∧ c.fax.returnIdle ≠ 0 ∧ since + sec c.fax.returnIdle ≤ s.now; due) ∧
    (let ch : ChanId := 5; let s : State := open5 (fun c => { c with fax := { c.fax with returnIdle := 0 } }); let c := s.chan ch.val; let d := s.chan c.peer; let since := if c.st = .bound then max c.vbd.lastDecl d.vbd.lastDecl else c.vbd.lastDecl; let due := (c.vbd.state = 1 ∨ c.vbd.state = 4) ∧ c.fax.returnIdle ≠ 0 ∧ since + sec c.fax.returnIdle ≤ s.now; ¬ due) := by
  decide +kernel

theorem witness_ChannelCommands_1 :
    (let c : HostCmd := cmd 0x50005; let s : State := taken 0x13; let a := bits c.w1.toNat 0 16; let b := bits c.w1.toNat 16 16; commandRuns c 0x13 [(1, 0xFFFFFFFF)] false s = true ∧ a = b) ∧
    (let c : HostCmd := cmd 0x60005; let s : State := taken 0x13 open5; let a := bits c.w1.toNat 0 16; let b := bits c.w1.toNat 16 16; commandRuns c 0x13 [(1, 0xFFFFFFFF)] false s = true ∧ a ≠ b ∧ (((s.chan a).st ≠ .open ∨ (s.chan b).st ≠ .open))) ∧
    (let c : HostCmd := cmd 0x60005; let s : State := taken 0x13 ((open5).modChan 6 (fun c => { c with st := ChanState.open, rx := { c.rx with period := 3 } })); let a := bits c.w1.toNat 0 16; let b := bits c.w1.toNat 16 16; commandRuns c 0x13 [(1, 0xFFFFFFFF)] false s = true ∧ a ≠ b ∧ (s.chan a).st = .open ∧ (s.chan b).st = .open ∧ callFits (s.chan a) (s.chan b) = false) ∧
    (let c : HostCmd := cmd 0x60005; let s : State := taken 0x13 ((open5 (fun c => { c with rx := { c.rx with codec := 1 }, tx := { c.tx with codec := 1 } }) (up.wr supLoadLimit 0)).modChan 6 (fun c => { c with st := ChanState.open, rx := { c.rx with codec := 1 }, tx := { c.tx with codec := 1 } })); let a := bits c.w1.toNat 0 16; let b := bits c.w1.toNat 16 16; let t := (s.modChan a (fun x => { noReference x with st := .bound, peer := b })).modChan b (fun x => { noReference x with st := .bound, peer := a }); commandRuns c 0x13 [(1, 0xFFFFFFFF)] false s = true ∧ a ≠ b ∧ (s.chan a).st = .open ∧ (s.chan b).st = .open ∧ callFits (s.chan a) (s.chan b) = true ∧ overLoad s t = true) ∧
    (let c : HostCmd := cmd 0x60005; let s : State := taken 0x13 ((open5).modChan 6 (fun c => { c with st := ChanState.open })); let a := bits c.w1.toNat 0 16; let b := bits c.w1.toNat 16 16; let t := (s.modChan a (fun x => { noReference x with st := .bound, peer := b })).modChan b (fun x => { noReference x with st := .bound, peer := a }); commandRuns c 0x13 [(1, 0xFFFFFFFF)] false s = true ∧ a ≠ b ∧ (s.chan a).st = .open ∧ (s.chan b).st = .open ∧ callFits (s.chan a) (s.chan b) = true ∧ overLoad s t = false) ∧
    (let c : HostCmd := cmd 0x60005; let s : State := taken 0x13 ((open5).modChan 6 (fun c => { c with st := ChanState.open })); let a := bits c.w1.toNat 0 16; let b := bits c.w1.toNat 16 16; let t := (s.modChan a (fun x => { noReference x with st := .bound, peer := b })).modChan b (fun x => { noReference x with st := .bound, peer := a }); let m := 7; commandRuns c 0x13 [(1, 0xFFFFFFFF)] false s = true ∧ a ≠ b ∧ (s.chan a).st = .open ∧ (s.chan b).st = .open ∧ callFits (s.chan a) (s.chan b) = true ∧ overLoad s t = false ∧ m ≠ a ∧ m ≠ b) := by
  decide +kernel

theorem witness_ChannelCommands_2 :
    (let c : HostCmd := cmd 5; let s : State := taken 0x14 call56; let ch := chanOf c; commandRuns c 0x14 [(1, 0xFFFF)] false s = true ∧ (s.chan ch).st = .bound) ∧
    (let c : HostCmd := cmd 5; let s : State := taken 0x14 call56; let ch := chanOf c; let p := (s.chan ch).peer; let m := 7; commandRuns c 0x14 [(1, 0xFFFF)] false s = true ∧ (s.chan ch).st = .bound ∧ m ≠ ch ∧ m ≠ p) ∧
    (let c : HostCmd := cmd 5; let s : State := taken 0x14 open5; let ch := chanOf c; commandRuns c 0x14 [(1, 0xFFFF)] false s = true ∧ (s.chan ch).st ≠ .bound) ∧
    (let c : HostCmd := cmd 5; let s : State := taken 0x12 open5; let ch := chanOf c; let old := s.chan ch; commandRuns c 0x12 [(1, 0xFFFF)] false s = true ∧ old.st = .open) ∧
    (let c : HostCmd := cmd 5; let s : State := taken 0x12 call56; let ch := chanOf c; let old := s.chan ch; commandRuns c 0x12 [(1, 0xFFFF)] false s = true ∧ old.st = .bound) ∧
    (let c : HostCmd := cmd 5; let s : State := taken 0x12 up; let ch := chanOf c; let old := s.chan ch; commandRuns c 0x12 [(1, 0xFFFF)] false s = true ∧ old.st = .free) := by
  decide +kernel

theorem witness_ChannelCommands_3 :
    (let c : HostCmd := cmd 5; let s : State := taken 0x12 (up.modChan 5 (fun c => { c with st := ChanState.closing })); let ch := chanOf c; let old := s.chan ch; commandRuns c 0x12 [(1, 0xFFFF)] false s = true ∧ old.st = .closing) := by
  decide +kernel

theorem witness_ChannelCommands_4 :
    (let c : HostCmd := blkCmd openBlk 5; let gs : List Grp := grps (taken 0x10 roomy) (blkCmd openBlk 5) [1, 2, 3, 4, 5, 6, 7, 8, 9] [1, 2, 3, 4, 5]; let s : State := taken 0x10 (roomy.modChan 5 (fun c => { c with st := ChanState.closing })); let ch := chanOf c; let n := s.openedChan ch gs; let st := (s.chan ch).st; s.groupsOf c [1, 2, 3, 4, 5, 6, 7, 8, 9] [1, 2, 3, 4, 5] = .ok gs ∧ commandRuns c 0x10 [(1, 0xFFFF)] true s = true ∧ firstFail (groupChecks s n gs) = none ∧ st = .closing) :=
  ⟨okIs _ _ (by decide +kernel), by decide +kernel⟩

theorem witness_ChannelCommands_5 :
    (let c : HostCmd := blkCmd openBlk 5; let gs : List Grp := grps (taken 0x10 roomy) (blkCmd openBlk 5) [1, 2, 3, 4, 5, 6, 7, 8, 9] [1, 2, 3, 4, 5]; let s : State := taken 0x10 (open5 id roomy); let ch := chanOf c; let n := s.openedChan ch gs; let st := (s.chan ch).st; s.groupsOf c [1, 2, 3, 4, 5, 6, 7, 8, 9] [1, 2, 3, 4, 5] = .ok gs ∧ commandRuns c 0x10 [(1, 0xFFFF)] true s = true ∧ firstFail (groupChecks s n gs) = none ∧ ((st = .open ∨ st = .bound))) :=
  ⟨okIs _ _ (by decide +kernel), by decide +kernel⟩

theorem witness_ChannelCommands_6 :
    (let c : HostCmd := blkCmd openBlk 5; let gs : List Grp := grps (taken 0x10 roomy) (blkCmd openBlk 5) [1, 2, 3, 4, 5, 6, 7, 8, 9] [1, 2, 3, 4, 5]; let s : State := taken 0x10 (roomy (up.wr supLoadLimit 0)); let ch := chanOf c; let n := s.openedChan ch gs; let st := (s.chan ch).st; let claim := s.claimFlows n.flows.localAddr [] (fun lat => portDetails (grp gs 4) (mediaFlows ch lat n.flows false)); let s1 := (((taken 0x10 (roomy (up.wr supLoadLimit 0))).latTake 0).getD (up, 0)).1; let es := mediaFlows 5 0 n.flows false; let t := s1.draw.draw.draw.setChan ch n; s.groupsOf c [1, 2, 3, 4, 5, 6, 7, 8, 9] [1, 2, 3, 4, 5] = .ok gs ∧ claim = .ok (some (s1, es)) ∧ commandRuns c 0x10 [(1, 0xFFFF)] true s = true ∧ firstFail (groupChecks s n gs) = none ∧ st = .free ∧ s.rd mbxBootState ≠ 6 ∧ s.homeOk ch = true ∧ s.extOk n = true ∧ s.frameFits n = true ∧ overLoad s t = true) :=
  ⟨okIs _ _ (by decide +kernel), okIs _ _ (by decide +kernel), by decide +kernel⟩

theorem witness_ChannelCommands_7 :
    (let c : HostCmd := blkCmd openBlk 5; let gs : List Grp := grps (taken 0x10 roomy) (blkCmd openBlk 5) [1, 2, 3, 4, 5, 6, 7, 8, 9] [1, 2, 3, 4, 5]; let s : State := taken 0x10 roomy; let ch := chanOf c; let n := s.openedChan ch gs; let st := (s.chan ch).st; let claim := s.claimFlows n.flows.localAddr [] (fun lat => portDetails (grp gs 4) (mediaFlows ch lat n.flows false)); let s1 := (((taken 0x10 roomy).latTake 0).getD (up, 0)).1; let es := mediaFlows 5 0 n.flows false; let t := s1.draw.draw.draw.setChan ch n; let u := (t.installFlows [] es).getD up; s.groupsOf c [1, 2, 3, 4, 5, 6, 7, 8, 9] [1, 2, 3, 4, 5] = .ok gs ∧ claim = .ok (some (s1, es)) ∧ t.installFlows [] es = some u ∧ commandRuns c 0x10 [(1, 0xFFFF)] true s = true ∧ firstFail (groupChecks s n gs) = none ∧ st = .free ∧ s.rd mbxBootState ≠ 6 ∧ s.homeOk ch = true ∧ s.extOk n = true ∧ s.frameFits n = true ∧ overLoad s t = false) :=
  ⟨okIs _ _ (by decide +kernel), okIs _ _ (by decide +kernel), there _ _ (by decide +kernel), by decide +kernel⟩

theorem witness_ChannelCommands_8 :
    (let c : HostCmd := blkCmd (least 6 2) 5; let gs : List Grp := [leastGrp 6 2]; let s : State := taken 0x11 roomy; let ch := chanOf c; let old := s.chan ch; let n := modifiedChan old gs; s.groupsOf c [2, 3, 4, 5, 6, 7, 8, 9] [] = .ok gs ∧ commandRuns c 0x11 [(1, 0xFFFF)] true s = true ∧ gs ≠ [] ∧ firstFail (groupChecks s n gs) = none ∧ ((old.st = .free ∨ old.st = .closing))) :=
  ⟨okIs _ _ (by decide +kernel), by decide +kernel⟩

theorem witness_ChannelCommands_9 :
    (let c : HostCmd := blkCmd (least 6 2) 5; let gs : List Grp := [leastGrp 6 2]; let s : State := taken 0x11 (open5 id roomy); let ch := chanOf c; let old := s.chan ch; let n := modifiedChan old gs; let t := ((((s.setChan ch n).letJumpGo s ch).settleEcho ch).rephaseIf s ch).rephaseIf s (if old.st = .bound then old.peer else ch); s.groupsOf c [2, 3, 4, 5, 6, 7, 8, 9] [] = .ok gs ∧ commandRuns c 0x11 [(1, 0xFFFF)] true s = true ∧ gs ≠ [] ∧ firstFail (groupChecks s n gs) = none ∧ ((old.st = .open ∨ (old.st = .bound ∧ (callFits n (s.chan old.peer) = true ∨ (grpOf gs 2 = none ∧ grpOf gs 3 = none))))) ∧ ((old.vbd.state < 2 ∨ old.vbd.relay = false ∨ (grpOf gs 2 = none ∧ grpOf gs 3 = none ∧ grpOf gs 4 = none))) ∧ s.frameFits n = true ∧ grpOf gs 4 = none ∧ overLoad s t = false) :=
  ⟨okIs _ _ (by decide +kernel), by decide +kernel⟩

theorem witness_ChannelCommands_10 :
    (let c : HostCmd := blkCmd (least 2 2) 5; let gs : List Grp := [leastGrp 2 2]; let s : State := taken 0x11 (open5 id (roomy (up.wr supLoadLimit 0))); let ch := chanOf c; let old := s.chan ch; let n := modifiedChan old gs; let t := ((((s.setChan ch n).letJumpGo s ch).settleEcho ch).rephaseIf s ch).rephaseIf s (if old.st = .bound then old.peer else ch); s.groupsOf c [2, 3, 4, 5, 6, 7, 8, 9] [] = .ok gs ∧ commandRuns c 0x11 [(1, 0xFFFF)] true s = true ∧ gs ≠ [] ∧ firstFail (groupChecks s n gs) = none ∧ ((old.st = .open ∨ (old.st = .bound ∧ (callFits n (s.chan old.peer) = true ∨ (grpOf gs 2 = none ∧ grpOf gs 3 = none))))) ∧ ((old.vbd.state < 2 ∨ old.vbd.relay = false ∨ (grpOf gs 2 = none ∧ grpOf gs 3 = none ∧ grpOf gs 4 = none))) ∧ s.frameFits n = true ∧ grpOf gs 4 = none ∧ overLoad s t = true) :=
  ⟨okIs _ _ (by decide +kernel), by decide +kernel⟩

theorem witness_ChannelCommands_11 :
    (let c : HostCmd := blkCmd (least 4 5) 5; let gs : List Grp := [leastGrp 4 5]; let s : State := taken 0x11 (open5 id roomy); let ch := chanOf c; let old := s.chan ch; let n := modifiedChan old gs; let t := ((((s.setChan ch n).letJumpGo s ch).settleEcho ch).rephaseIf s ch).rephaseIf s (if old.st = .bound then old.peer else ch); let g := leastGrp 4 5; let u := match t.reflow s ch g n with | .ok u => u | .error _ => up; s.groupsOf c [2, 3, 4, 5, 6, 7, 8, 9] [] = .ok gs ∧ t.reflow s ch g n = .ok u ∧ commandRuns c 0x11 [(1, 0xFFFF)] true s = true ∧ gs ≠ [] ∧ firstFail (groupChecks s n gs) = none ∧ ((old.st = .open ∨ (old.st = .bound ∧ (callFits n (s.chan old.peer) = true ∨ (grpOf gs 2 = none ∧ grpOf gs 3 = none))))) ∧ ((old.vbd.state < 2 ∨ old.vbd.relay = false ∨ (grpOf gs 2 = none ∧ grpOf gs 3 = none ∧ grpOf gs 4 = none))) ∧ s.frameFits n = true ∧ grpOf gs 4 = some g) :=
  ⟨okIs _ _ (by decide +kernel), okIs _ _ (by decide +kernel), by decide +kernel⟩

theorem witness_ChannelCommands_12 :
    (let c : HostCmd := blkCmd (least 4 5) 5; let gs : List Grp := [leastGrp 4 5]; let s : State := taken 0x11 (open5 id flowsTaken); let ch := chanOf c; let old := s.chan ch; let n := modifiedChan old gs; let t := ((((s.setChan ch n).letJumpGo s ch).settleEcho ch).rephaseIf s ch).rephaseIf s (if old.st = .bound then old.peer else ch); let g := leastGrp 4 5; let e := match t.reflow s ch g n with | .ok _ => (up, 0, 0) | .error e => e; s.groupsOf c [2, 3, 4, 5, 6, 7, 8, 9] [] = .ok gs ∧ t.reflow s ch g n = .error e ∧ commandRuns c 0x11 [(1, 0xFFFF)] true s = true ∧ gs ≠ [] ∧ firstFail (groupChecks s n gs) = none ∧ ((old.st = .open ∨ (old.st = .bound ∧ (callFits n (s.chan old.peer) = true ∨ (grpOf gs 2 = none ∧ grpOf gs 3 = none))))) ∧ ((old.vbd.state < 2 ∨ old.vbd.relay = false ∨ (grpOf gs 2 = none ∧ grpOf gs 3 = none ∧ grpOf gs 4 = none))) ∧ s.frameFits n = true ∧ grpOf gs 4 = some g) :=
  ⟨okIs _ _ (by decide +kernel), errIs _ _ (by decide +kernel), by decide +kernel⟩

theorem witness_ChannelCommands_13 :
    (let c : HostCmd := blkCmd (least 12 7) 5; let gs : List Grp := [leastGrp 12 7]; let s : State := taken 0x20 open5; let ch := chanOf c; s.groupsOf c [12] [12] = .ok gs ∧ commandRuns c 0x20 [(1, 0xFFFF)] true s = true ∧ (∀ g ∈ gs, g.f 0 32 32 < 2 ^ (8 * g.f 0 4 3)) ∧ (((s.chan ch).st = .open ∨ (s.chan ch).st = .bound)) ∧ (∀ g ∈ gs, g.f 0 1 3 ≤ 4 ∧ g.f 0 24 8 = 0)) :=
  ⟨okIs _ _ (by decide +kernel), by decide +kernel⟩

theorem witness_ChannelCommands_14 :
    (let c : HostCmd := blkCmd (least 12 7) 5; let gs : List Grp := [leastGrp 12 7]; let s : State := taken 0x20 up; let ch := chanOf c; s.groupsOf c [12] [12] = .ok gs ∧ commandRuns c 0x20 [(1, 0xFFFF)] true s = true ∧ (∀ g ∈ gs, g.f 0 32 32 < 2 ^ (8 * g.f 0 4 3)) ∧ (s.chan ch).st ≠ .open ∧ (s.chan ch).st ≠ .bound) :=
  ⟨okIs _ _ (by decide +kernel), by decide +kernel⟩

theorem witness_ReadAndPublishRows_1 :
    (let ch : ChanId := 5; let s : State := open5; let c := s.chan ch.val; c.st ≠ .closing) ∧
    (let ch : ChanId := 5; let s : State := open5; let c := s.chan ch.val; c.pub.due = false) ∧
    (let c : HostCmd := cmd 0; let s : State := taken 0x80; let first := bits c.w1.toNat 0 16; let count := bits c.w1.toNat 32 17; commandRuns c 0x80 [(1, 0x1FFFF0000FFFF), (3, 0xFFFFFFFFFFFFFFFF), (4, 0xFFFFFFFFFFFFFFFF)] false s = true ∧ ((count = 0 ∨ 65536 < count ∨ 65536 < first + count))) ∧
    (let c : HostCmd := cmd 0x200000000 0 1023; let s : State := taken 0x80; let first := bits c.w1.toNat 0 16; let count := bits c.w1.toNat 32 17; commandRuns c 0x80 [(1, 0x1FFFF0000FFFF), (3, 0xFFFFFFFFFFFFFFFF), (4, 0xFFFFFFFFFFFFFFFF)] false s = true ∧ count ≠ 0 ∧ first + count ≤ 65536 ∧ c.w4.toNat < count * 512) ∧
    (let c : HostCmd := cmd 0x200000000 32 1024; let s : State := taken 0x80; let first := bits c.w1.toNat 0 16; let count := bits c.w1.toNat 32 17; commandRuns c 0x80 [(1, 0x1FFFF0000FFFF), (3, 0xFFFFFFFFFFFFFFFF), (4, 0xFFFFFFFFFFFFFFFF)] false s = true ∧ count ≠ 0 ∧ first + count ≤ 65536 ∧ count * 512 ≤ c.w4.toNat ∧ c.w3.toNat % 64 ≠ 0) ∧
    (let c : HostCmd := cmd 0x200000000 64 1024; let s : State := let s := taken 0x80; { s with host := { s.host with cacheOut := [creq true] } }; let first := bits c.w1.toNat 0 16; let count := bits c.w1.toNat 32 17; commandRuns c 0x80 [(1, 0x1FFFF0000FFFF), (3, 0xFFFFFFFFFFFFFFFF), (4, 0xFFFFFFFFFFFFFFFF)] false s = true ∧ count ≠ 0 ∧ first + count ≤ 65536 ∧ count * 512 ≤ c.w4.toNat ∧ c.w3.toNat % 64 = 0 ∧ (∃ r ∈ s.host.cacheOut ++ s.host.cacheWait, r.serves = 0)) := by
  decide +kernel

theorem witness_ReadAndPublishRows_2 :
    (let c : HostCmd := cmd 0x200000000 64 1024; let s : State := taken 0x80; let first := bits c.w1.toNat 0 16; let count := bits c.w1.toNat 32 17; commandRuns c 0x80 [(1, 0x1FFFF0000FFFF), (3, 0xFFFFFFFFFFFFFFFF), (4, 0xFFFFFFFFFFFFFFFF)] false s = true ∧ count ≠ 0 ∧ first + count ≤ 65536 ∧ count * 512 ≤ c.w4.toNat ∧ c.w3.toNat % 64 = 0 ∧ (∀ r ∈ s.host.cacheOut ++ s.host.cacheWait, r.serves ≠ 0)) ∧
    (let c : HostCmd := cmd 0x10000000FFFF; let s : State := taken 0x81; let first := bits c.w1.toNat 0 16; let count := bits c.w1.toNat 32 13; commandRuns c 0x81 [(1, 0x1FFF0000FFFF), (3, 0xFFFFFFFFFFFFFFFF), (4, 0xFFFFFFFFFFFFFFFF)] false s = true ∧ ((count = 0 ∨ 4096 < count ∨ 65536 < first + count))) ∧
    (let c : HostCmd := cmd 0x200000000 0 2047; let s : State := taken 0x81; let first := bits c.w1.toNat 0 16; let count := bits c.w1.toNat 32 13; commandRuns c 0x81 [(1, 0x1FFF0000FFFF), (3, 0xFFFFFFFFFFFFFFFF), (4, 0xFFFFFFFFFFFFFFFF)] false s = true ∧ count ≠ 0 ∧ count ≤ 4096 ∧ first + count ≤ 65536 ∧ c.w4.toNat < count * 1024) ∧
    (let c : HostCmd := cmd 0x200000000 0 2048; let s : State := taken 0x81; let first := bits c.w1.toNat 0 16; let count := bits c.w1.toNat 32 13; commandRuns c 0x81 [(1, 0x1FFF0000FFFF), (3, 0xFFFFFFFFFFFFFFFF), (4, 0xFFFFFFFFFFFFFFFF)] false s = true ∧ count ≠ 0 ∧ count ≤ 4096 ∧ first + count ≤ 65536 ∧ count * 1024 ≤ c.w4.toNat) ∧
    (let c : HostCmd := cmd 5; let s : State := taken 0x25; commandRuns c 0x25 [(1, 0xFFFF)] true s = true ∧ (s.chan (chanOf c)).st ≠ .bound) := by
  decide +kernel

theorem witness_ReadAndPublishRows_3 :
    (let c : HostCmd := blkCmd (least 13 2 [3]) 5; let g : Grp := leastGrp 13 2 [3]; let s : State := taken 0x25 (call56 (fun c => { c with vbd := { c.vbd with state := 2 } })); let ch := chanOf c; let old := s.chan ch; let f := faxOf g; s.groupsOf c [13, 2, 3, 4, 6] [13] = .ok [g] ∧ commandRuns c 0x25 [(1, 0xFFFF)] true s = true ∧ old.st = .bound ∧ g.type = 13 ∧ f.mode ≠ 0 ∧ ((f.mode = 1 → isG711 old = true ∧ isG711 (s.chan old.peer) = true)) ∧ ((f.errRec = true → f.version ≠ 0)) ∧ modeAllowed old f.mode = false) :=
  ⟨okIs _ _ (by decide +kernel), by decide +kernel⟩

theorem witness_ReadAndPublishRows_4 :
    (let c : HostCmd := blkCmd (least 13 2 [3]) 5; let g : Grp := leastGrp 13 2 [3]; let s : State := taken 0x25 call56; let ch := chanOf c; let old := s.chan ch; let f := faxOf g; s.groupsOf c [13, 2, 3, 4, 6] [13] = .ok [g] ∧ commandRuns c 0x25 [(1, 0xFFFF)] true s = true ∧ old.st = .bound ∧ g.type = 13 ∧ f.mode ≠ 0 ∧ ((f.mode = 1 → isG711 old = true ∧ isG711 (s.chan old.peer) = true)) ∧ ((f.errRec = true → f.version ≠ 0)) ∧ modeAllowed old f.mode = true ∧ ((f.mode ≠ 2 ∨ old.vbd.state = 2))) :=
  ⟨okIs _ _ (by decide +kernel), by decide +kernel⟩

theorem witness_ReadAndPublishRows_5 :
    (let c : HostCmd := blkCmd (least 13 2 [2]) 5; let g : Grp := leastGrp 13 2 [2]; let s : State := taken 0x25 (call56 id (up.wr supLoadLimit 0)); let ch := chanOf c; let old := s.chan ch; let f := faxOf g; let t := s.faxEffect ch [g] f; let lat := (s.latIndex old.flows.localAddr).getD 0; let olds := ((s.flowsOfChan ch).filter (fun e => e.kind = 0)).map flowKey; let news := [udptlFlow ch lat old.flows f.port]; s.groupsOf c [13, 2, 3, 4, 6] [13] = .ok [g] ∧ commandRuns c 0x25 [(1, 0xFFFF)] true s = true ∧ old.st = .bound ∧ g.type = 13 ∧ f.mode ≠ 0 ∧ ((f.mode = 1 → isG711 old = true ∧ isG711 (s.chan old.peer) = true)) ∧ ((f.errRec = true → f.version ≠ 0)) ∧ modeAllowed old f.mode = true ∧ f.mode = 2 ∧ old.vbd.state < 2 ∧ s.keyClash olds (news.map (fun e => (e, g.detail 1 0))) = none ∧ overLoad s t = true) :=
  ⟨okIs _ _ (by decide +kernel), by decide +kernel⟩

theorem witness_ReadAndPublishRows_6 :
    (let c : HostCmd := blkCmd (least 13 2 [2]) 5; let g : Grp := leastGrp 13 2 [2]; let s : State := taken 0x25 call56; let ch := chanOf c; let old := s.chan ch; let f := faxOf g; let t := s.faxEffect ch [g] f; let lat := (s.latIndex old.flows.localAddr).getD 0; let olds := ((s.flowsOfChan ch).filter (fun e => e.kind = 0)).map flowKey; let news := [udptlFlow ch lat old.flows f.port]; let u := (t.installFlows olds news).getD up; s.groupsOf c [13, 2, 3, 4, 6] [13] = .ok [g] ∧ t.installFlows olds news = some u ∧ commandRuns c 0x25 [(1, 0xFFFF)] true s = true ∧ old.st = .bound ∧ g.type = 13 ∧ f.mode ≠ 0 ∧ ((f.mode = 1 → isG711 old = true ∧ isG711 (s.chan old.peer) = true)) ∧ ((f.errRec = true → f.version ≠ 0)) ∧ modeAllowed old f.mode = true ∧ f.mode = 2 ∧ old.vbd.state < 2 ∧ s.keyClash olds (news.map (fun e => (e, g.detail 1 0))) = none ∧ overLoad s t = false) :=
  ⟨okIs _ _ (by decide +kernel), there _ _ (by decide +kernel), by decide +kernel⟩

theorem witness_ReadAndPublishRows_7 :
    (let c : HostCmd := blkCmd (least 13 2) 5; let gs : List Grp := [leastGrp 13 2]; let s : State := taken 0x25 (call56 (fun c => { c with vbd := { c.vbd with state := 1 } })); let ch := chanOf c; let old := s.chan ch; let f := faxOf (grp gs 13); let subject := if old.vbd.state = 2 ∨ old.vbd.state = 3 then s.relayLeg ch else ch; let n := restored gs 0 (s.chan subject); s.groupsOf c [13, 2, 3, 4, 6] [13] = .ok gs ∧ commandRuns c 0x25 [(1, 0xFFFF)] true s = true ∧ old.st = .bound ∧ f.mode = 0 ∧ ((f.errRec = true → f.version ≠ 0)) ∧ firstFail (groupChecks s n (gs.filter (fun g => g.type != 13))) = none ∧ modeAllowed old 0 = true ∧ ((grpOf gs 2 = none ∧ grpOf gs 3 = none ∨ callFits n (s.chan n.peer) = true)) ∧ (s.chan subject).vbd.state ≠ 2 ∧ grpOf gs 4 = none) :=
  ⟨okIs _ _ (by decide +kernel), by decide +kernel⟩

theorem witness_ReadAndPublishRows_8 :
    (let c : HostCmd := blkCmd (least 13 2 ++ least 4 5) 5; let gs : List Grp := [leastGrp 13 2, leastGrp 4 5 [] 32]; let s : State := taken 0x25 (call56 (fun c => { c with vbd := { c.vbd with state := 1 } }) roomy); let ch := chanOf c; let old := s.chan ch; let f := faxOf (grp gs 13); let subject := if old.vbd.state = 2 ∨ old.vbd.state = 3 then s.relayLeg ch else ch; let n := restored gs 0 (s.chan subject); let t := s.faxEffect ch gs f; let u := match t.reflow s subject (grp gs 4) (t.chan subject) with | .ok u => u | .error _ => up; s.groupsOf c [13, 2, 3, 4, 6] [13] = .ok gs ∧ t.reflow s subject (grp gs 4) (t.chan subject) = .ok u ∧ commandRuns c 0x25 [(1, 0xFFFF)] true s = true ∧ old.st = .bound ∧ f.mode = 0 ∧ ((f.errRec = true → f.version ≠ 0)) ∧ firstFail (groupChecks s n (gs.filter (fun g => g.type != 13))) = none ∧ modeAllowed old 0 = true ∧ ((grpOf gs 2 = none ∧ grpOf gs 3 = none ∨ callFits n (s.chan n.peer) = true)) ∧ (((s.chan subject).vbd.state = 2 ∨ grpOf gs 4 ≠ none))) :=
  ⟨okIs _ _ (by decide +kernel), okIs _ _ (by decide +kernel), by decide +kernel⟩

theorem witness_ReadAndPublishRows_9 :
    (let c : HostCmd := blkCmd (least 13 2 ++ least 4 5) 5; let gs : List Grp := [leastGrp 13 2, leastGrp 4 5 [] 32]; let s : State := taken 0x25 ((flowsTaken.modChan 5 (fun c => { c with st := ChanState.bound, peer := 7, vbd := { c.vbd with state := 1 } })).modChan 7 (fun c => { c with st := ChanState.bound, peer := 5 })); let ch := chanOf c; let old := s.chan ch; let f := faxOf (grp gs 13); let subject := if old.vbd.state = 2 ∨ old.vbd.state = 3 then s.relayLeg ch else ch; let n := restored gs 0 (s.chan subject); let t := s.faxEffect ch gs f; let e := match t.reflow s subject (grp gs 4) (t.chan subject) with | .ok _ => (up, 0, 0) | .error e => e; s.groupsOf c [13, 2, 3, 4, 6] [13] = .ok gs ∧ t.reflow s subject (grp gs 4) (t.chan subject) = .error e ∧ commandRuns c 0x25 [(1, 0xFFFF)] true s = true ∧ old.st = .bound ∧ f.mode = 0 ∧ ((f.errRec = true → f.version ≠ 0)) ∧ firstFail (groupChecks s n (gs.filter (fun g => g.type != 13))) = none ∧ modeAllowed old 0 = true ∧ ((grpOf gs 2 = none ∧ grpOf gs 3 = none ∨ callFits n (s.chan n.peer) = true)) ∧ (((s.chan subject).vbd.state = 2 ∨ grpOf gs 4 ≠ none))) :=
  ⟨okIs _ _ (by decide +kernel), errIs _ _ (by decide +kernel), by decide +kernel⟩

theorem witness_MordantTaskRows_1 :
    (let s : State := State.reset; s.mor.relQ = []) ∧
    (let t0 : Task := task .gap; let rest : List Task := []; let e : Nat := 0; let s : State := { open5 (fun c => { c with home := some 0 }) with mor := { up.mor with relQ := [task .gap] } }; let t := s.accepted t0; let s1 := s.assignHome t0.ch t; unitOn (.taskOffer true) s ∧ s.mor.relQ = t0 :: rest ∧ t0.refused = false ∧ (s1.chan t0.ch).home = some e) ∧
    (let t0 : Task := task .gap; let rest : List Task := []; let e : Nat := 0; let s : State := let s := (open5 (fun c => { c with home := some 0 })).modMe 0 (fun m => { m with due := [{ skein with tasks := List.replicate 1000 (task .gap) }] }); { s with mor := { s.mor with relQ := [task .gap] } }; let t := s.accepted t0; let s1 := s.assignHome t0.ch t; unitOn (.taskOffer true) s ∧ s.mor.relQ = t0 :: rest ∧ t0.refused = false ∧ (s1.chan t0.ch).home = some e ∧ s1.freeSlots e ≤ s1.rd morImmReserve) ∧
    (let t0 : Task := task .gap; let rest : List Task := []; let e : Nat := 0; let s : State := { open5 (fun c => { c with home := some 0 }) with mor := { up.mor with relQ := [task .gap] } }; let t := s.accepted t0; let s1 := s.assignHome t0.ch t; unitOn (.taskOffer true) s ∧ s.mor.relQ = t0 :: rest ∧ t0.refused = false ∧ (s1.chan t0.ch).home = some e ∧ s1.rd morImmReserve < s1.freeSlots e) ∧
    (let s : State := State.reset; s.ing.immIn = []) ∧
    (let s : State := State.reset; s.ing.immHold = []) := by
  decide +kernel

theorem witness_MordantTaskRows_2 :
    (let i : ImmTask := imm; let rest : List ImmTask := []; let s : State := { up with ing := { up.ing with immIn := [imm] } }; unitOn .immediateTaskAccept s ∧ s.ing.immIn = i :: rest ∧ (((s.chan i.ch).st = .free ∨ (s.chan i.ch).st = .closing))) ∧
    (let i : ImmTask := imm; let rest : List ImmTask := []; let s : State := { open5 with ing := { up.ing with immIn := [imm] } }; let s1 := { s with ing := { s.ing with immIn := rest } }; let t := (State.placeImm open5 imm).getD up; unitOn .immediateTaskAccept s ∧ s.ing.immIn = i :: rest ∧ (((s.chan i.ch).st = .open ∨ (s.chan i.ch).st = .bound)) ∧ s1.placeImm i = some t) ∧
    (let i : ImmTask := imm; let rest : List ImmTask := []; let s : State := noEngines { open5 with ing := { up.ing with immIn := [imm] } }; let s1 := { s with ing := { s.ing with immIn := rest } }; unitOn .immediateTaskAccept s ∧ s.ing.immIn = i :: rest ∧ (((s.chan i.ch).st = .open ∨ (s.chan i.ch).st = .bound)) ∧ s1.placeImm i = none ∧ s.ing.immHold.length < 256) ∧
    (let i : ImmTask := imm; let rest : List ImmTask := []; let s : State := noEngines { open5 with ing := { up.ing with immIn := [imm], immHold := List.replicate 256 imm } }; let s1 := { s with ing := { s.ing with immIn := rest } }; unitOn .immediateTaskAccept s ∧ s.ing.immIn = i :: rest ∧ (((s.chan i.ch).st = .open ∨ (s.chan i.ch).st = .bound)) ∧ s1.placeImm i = none ∧ 256 ≤ s.ing.immHold.length) ∧
    (let i : ImmTask := imm; let rest : List ImmTask := []; let s : State := { up with ing := { up.ing with immHold := [imm] } }; unitOn .immediateHoldReoffer s ∧ s.ing.immHold = i :: rest ∧ (((s.chan i.ch).st = .free ∨ (s.chan i.ch).st = .closing))) ∧
    (let i : ImmTask := imm; let rest : List ImmTask := []; let s : State := noEngines { open5 with ing := { up.ing with immHold := [imm] } }; let s1 := { s with ing := { s.ing with immHold := rest } }; unitOn .immediateHoldReoffer s ∧ s.ing.immHold = i :: rest ∧ (((s.chan i.ch).st = .open ∨ (s.chan i.ch).st = .bound)) ∧ s1.placeImm i = none) := by
  decide +kernel

theorem witness_MordantTaskRows_3 :
    (let i : ImmTask := imm; let rest : List ImmTask := []; let s : State := { open5 with ing := { up.ing with immHold := [imm] } }; let s1 := { s with ing := { s.ing with immHold := rest } }; let t := (s1.placeImm imm).getD up; unitOn .immediateHoldReoffer s ∧ s.ing.immHold = i :: rest ∧ (((s.chan i.ch).st = .open ∨ (s.chan i.ch).st = .bound)) ∧ s1.placeImm i = some t) ∧
    (let e : EngineId := 7; let index : Nat := 1; let s : State := up.modMe 7 (fun m => { m with forming := [skein] }); unitOn (.skeinWindowClose e index) s ∧ (s.me e.val).forming[index]? = none) ∧
    (let e : EngineId := 7; let index : Nat := 0; let s : State := up.modMe 7 (fun m => { m with forming := [skein] }); let k := skein; unitOn (.skeinWindowClose e index) s ∧ (s.me e.val).forming[index]? = some k ∧ s.now < k.openedAt + s.window k.cls) ∧
    (let e : EngineId := 7; let index : Nat := 0; let s : State := { up.modMe 7 (fun m => { m with forming := [skein] }) with now := sec 1 }; let k := skein; unitOn (.skeinWindowClose e index) s ∧ (s.me e.val).forming[index]? = some k ∧ k.openedAt + s.window k.cls ≤ s.now ∧ (s.me e.val).forming.find? (fun x => x.num = k.num) = some k ∧ (∀ x ∈ (s.me e.val).due ++ [k], x.cls ≠ 0)) ∧
    (let e : EngineId := 7; let s : State := up.wr morStealEn 0; ((s.flag morStealEn = false ∨ (s.me e.val).service ≠ 0 ∨ (s.me e.val).idleSince = none ∨ s.mor.transit.any (fun x => x.dest = e.val) = true))) ∧
    (let e : EngineId := 7; let i : Nat := 5; let s : State := up.modMe 7 (fun m => { m with idleSince := some 5 }); unitOn (.stealNear e) s ∧ s.flag morStealEn = true ∧ (s.me e.val).service = 0 ∧ (s.me e.val).idleSince = some i ∧ s.mor.transit.any (fun x => x.dest = e.val) = false ∧ s.now < i + s.rd morStealNear) := by
  decide +kernel

theorem witness_MordantTaskRows_4 :
    (let e : EngineId := 7; let i : Nat := 5; let s : State := up.modMe 7 (fun m => { m with idleSince := some 5 }); unitOn (.stealNear e) s ∧ s.flag morStealEn = true ∧ (s.me e.val).service = 0 ∧ (s.me e.val).idleSince = some i ∧ s.mor.transit.any (fun x => x.dest = e.val) = false ∧ s.now < i + s.rd morStealFar) ∧
    (let e : EngineId := 7; let i : Nat := 0; let s : State := { up with now := sec 1 }; let from_ := fun (l : List Nat) => (l.filter (· != e.val)).flatMap (fun v => (s.me v).due.map (fun k => (v, k))); unitOn (.stealNear e) s ∧ s.flag morStealEn = true ∧ (s.me e.val).service = 0 ∧ (s.me e.val).idleSince = some i ∧ s.mor.transit.any (fun x => x.dest = e.val) = false ∧ i + s.rd morStealNear ≤ s.now ∧ bestSteal (from_ (clusterOf e.val)) = none) ∧
    (let e : EngineId := 7; let i : Nat := 0; let s : State := { (up.modMe 7 (fun m => { m with due := [{ skein with tasks := List.replicate 1024 (task .gap) }] })).modMe 6 (fun m => { m with due := [skein] }) with now := sec 1 }; let from_ := fun (l : List Nat) => (l.filter (· != e.val)).flatMap (fun v => (s.me v).due.map (fun k => (v, k))); let v := 6; let k := skein; unitOn (.stealNear e) s ∧ s.flag morStealEn = true ∧ (s.me e.val).service = 0 ∧ (s.me e.val).idleSince = some i ∧ s.mor.transit.any (fun x => x.dest = e.val) = false ∧ i + s.rd morStealNear ≤ s.now ∧ bestSteal (from_ (clusterOf e.val)) = some (v, k) ∧ s.freeSlots e.val < k.tasks.length) ∧
    (let e : EngineId := 7; let i : Nat := 0; let s : State := { up.modMe 6 (fun m => { m with due := [skein] }) with now := sec 1 }; let from_ := fun (l : List Nat) => (l.filter (· != e.val)).flatMap (fun v => (s.me v).due.map (fun k => (v, k))); let v := 6; let k := skein; unitOn (.stealNear e) s ∧ s.flag morStealEn = true ∧ (s.me e.val).service = 0 ∧ (s.me e.val).idleSince = some i ∧ s.mor.transit.any (fun x => x.dest = e.val) = false ∧ i + s.rd morStealNear ≤ s.now ∧ bestSteal (from_ (clusterOf e.val)) = some (v, k) ∧ k.tasks.length ≤ s.freeSlots e.val) ∧
    (let e : EngineId := 7; let i : Nat := 0; let s : State := { up with now := sec 1 }; let from_ := fun (l : List Nat) => (l.filter (· != e.val)).flatMap (fun v => (s.me v).due.map (fun k => (v, k))); let all := if s.mor.evacEnd = [] then (List.range 24).map (fun i => e.val / 24 * 24 + i) else List.range 96; unitOn (.stealNear e) s ∧ s.flag morStealEn = true ∧ (s.me e.val).service = 0 ∧ (s.me e.val).idleSince = some i ∧ s.mor.transit.any (fun x => x.dest = e.val) = false ∧ i + s.rd morStealFar ≤ s.now ∧ bestSteal (from_ all) = none) ∧
    (let e : EngineId := 7; let i : Nat := 0; let s : State := { (up.modMe 7 (fun m => { m with due := [{ skein with tasks := List.replicate 1024 (task .gap) }] })).modMe 20 (fun m => { m with due := [skein] }) with now := sec 1 }; let from_ := fun (l : List Nat) => (l.filter (· != e.val)).flatMap (fun v => (s.me v).due.map (fun k => (v, k))); let all := if s.mor.evacEnd = [] then (List.range 24).map (fun i => e.val / 24 * 24 + i) else List.range 96; let v := 20; let k := skein; unitOn (.stealNear e) s ∧ s.flag morStealEn = true ∧ (s.me e.val).service = 0 ∧ (s.me e.val).idleSince = some i ∧ s.mor.transit.any (fun x => x.dest = e.val) = false ∧ i + s.rd morStealFar ≤ s.now ∧ bestSteal (from_ all) = some (v, k) ∧ s.freeSlots e.val < k.tasks.length) := by
  decide +kernel

theorem witness_MordantTaskRows_5 :
    (let e : EngineId := 7; let i : Nat := 0; let s : State := { up.modMe 20 (fun m => { m with due := [skein] }) with now := sec 1 }; let from_ := fun (l : List Nat) => (l.filter (· != e.val)).flatMap (fun v => (s.me v).due.map (fun k => (v, k))); let all := if s.mor.evacEnd = [] then (List.range 24).map (fun i => e.val / 24 * 24 + i) else List.range 96; let v := 20; let k := skein; unitOn (.stealNear e) s ∧ s.flag morStealEn = true ∧ (s.me e.val).service = 0 ∧ (s.me e.val).idleSince = some i ∧ s.mor.transit.any (fun x => x.dest = e.val) = false ∧ i + s.rd morStealFar ≤ s.now ∧ bestSteal (from_ all) = some (v, k) ∧ k.tasks.length ≤ s.freeSlots e.val) ∧
    (let s : State := State.reset; unitOn .taskTransitEnd s ∧ s.mor.transit.find? s.fits = none) ∧
    (let s : State := { up with mor := { up.mor with transit := [{ dest := 7, kind := 1, skein := skein }] } }; let x := { dest := 7, kind := 1, skein := skein }; unitOn .taskTransitEnd s ∧ s.mor.transit.find? s.fits = some x) ∧
    (let s : State := { up with mor := { up.mor with transit := [{ dest := 7, kind := 1, skein := skein }] } }; let x := { dest := 7, kind := 1, skein := skein }; unitOn .taskTransitEnd s ∧ s.mor.transit.find? s.fits = some x ∧ x.kind = 1 ∧ (∀ k ∈ (s.me x.dest).due ++ [x.skein], k.cls ≠ 0)) ∧
    (let s : State := { up with mor := { up.mor with transit := [{ dest := 7, kind := 1, skein := skein }] } }; let x := { dest := 7, kind := 1, skein := skein }; let e := 8; unitOn .taskTransitEnd s ∧ s.mor.transit.find? s.fits = some x ∧ x.kind = 1 ∧ (∀ k ∈ (s.me x.dest).due ++ [x.skein], k.cls ≠ 0) ∧ e ≠ x.dest) := by
  decide +kernel

theorem witness_EngineServiceRows_1 :
    (let c : HostCmd := cmd 96; let s : State := taken 0x60; let e := bits c.w1.toNat 0 7; commandRuns c 0x60 [(1, 0x7F)] false s = true ∧ 95 < e) ∧
    (let c : HostCmd := cmd 7; let s : State := taken 0x60 (retired 1 up); let e := bits c.w1.toNat 0 7; commandRuns c 0x60 [(1, 0x7F)] false s = true ∧ e ≤ 95 ∧ (s.me e).service ≠ 0) ∧
    (let c : HostCmd := cmd 7; let s : State := taken 0x60 (up.wr supLoadLimit 96); let e := bits c.w1.toNat 0 7; commandRuns c 0x60 [(1, 0x7F)] false s = true ∧ e ≤ 95 ∧ (s.me e).service = 0 ∧ s.serving.length ≤ s.rd supLoadLimit) ∧
    (let c : HostCmd := cmd 7; let s : State := taken 0x60 (up.wr supLoadLimit 90); let e := bits c.w1.toNat 0 7; commandRuns c 0x60 [(1, 0x7F)] false s = true ∧ e ≤ 95 ∧ (s.me e).service = 0 ∧ s.rd supLoadLimit < s.serving.length) ∧
    (let c : HostCmd := cmd 96; let s : State := taken 0x61; let e := bits c.w1.toNat 0 7; commandRuns c 0x61 [(1, 0x7F)] false s = true ∧ 95 < e) ∧
    (let c : HostCmd := cmd 7; let s : State := taken 0x61; let e := bits c.w1.toNat 0 7; commandRuns c 0x61 [(1, 0x7F)] false s = true ∧ e ≤ 95 ∧ (((s.me e).service ≠ 2 ∨ bit (s.rd pwrEngOn) (e / 4) = false))) := by
  decide +kernel

theorem witness_EngineServiceRows_2 :
    (let c : HostCmd := cmd 7; let s : State := taken 0x61 (retired 1 (up.wr pwrEngOn 0xFFFFFF)); let e := bits c.w1.toNat 0 7; commandRuns c 0x61 [(1, 0x7F)] false s = true ∧ e ≤ 95 ∧ (s.me e).service = 2 ∧ bit (s.rd pwrEngOn) (e / 4) = true) ∧
    (let e : EngineId := 7; let s : State := up; (((s.me e.val).service ≠ 3 ∨ s.now < (s.me e.val).selfTestAt))) ∧
    (let e : EngineId := 7; let s : State := up.modMe 7 (fun m => { m with service := 3 }); (s.me e.val).service = 3 ∧ (s.me e.val).selfTestAt ≤ s.now ∧ (s.me e.val).restoreQ = none) ∧
    (let e : EngineId := 7; let q : Nat := 0; let tag : Nat := 7; let s : State := up.modMe 7 (fun m => { m with service := 3, restoreQ := some (0, 7) }); (s.me e.val).service = 3 ∧ (s.me e.val).selfTestAt ≤ s.now ∧ (s.me e.val).restoreQ = some (q, tag)) ∧
    (let e : EngineId := 5; let s : State := up.modMe 5 (fun m => { m with service := 3 }); (s.me e.val).service = 3 ∧ (s.me e.val).selfTestAt ≤ s.now ∧ (s.me e.val).warmTest = false ∧ (s.me e.val).restoreQ = none) ∧
    (let e : EngineId := 7; let s : State := up.modMe 7 (fun m => { m with service := 3, restoreQ := some (0, 7) }); let q := 0; let tag := 7; (s.me e.val).service = 3 ∧ (s.me e.val).selfTestAt ≤ s.now ∧ (s.me e.val).warmTest = false ∧ (s.me e.val).restoreQ = some (q, tag)) := by
  decide +kernel

theorem witness_EngineServiceRows_3 :
    (let d : Fin 24 := 2; let s : State := (List.range 4).foldl (fun s i => s.modMe (8 + i) (fun m => { m with service := 4 })) up; (∀ i < 4, (s.me (4 * d.val + i)).service = 4)) ∧
    (let d : Fin 24 := 2; let s : State := up; s.mor.transit = [] ∧ s.chans = [] ∧ (∀ i < 4, let m := s.me (4 * d.val + i); m.service = 0 ∧ m.running = none ∧ m.suspended = none ∧ m.dq = [] ∧ m.due = [] ∧ m.forming = [] ∧ m.waiting = [] ∧ m.retireQ = none ∧ m.restoreQ = none)) ∧
    (let s : State := up.wr morAbort 0; s.rd morAbort = 0) ∧
    (let e : EngineId := 7; let lane : Fin 16 := 0; let k : Skein := skein; let x : Task := task .gap; let s : State := { (up.wr morAbort 5).modMe 7 (fun m => { m with running := some skein }) with now := sec 1 }; s.rd morAbort ≠ 0 ∧ s.rd morTraceRate = 0 ∧ (s.me e.val).running = some k ∧ k.tasks[lane.val]? = some x ∧ k.mask.getLsbD lane.val = true ∧ k.cancels.getLsbD lane.val = false ∧ x.deadline + ms (s.rd morAbort) ≤ s.now) ∧
    (let s : State := State.reset; unitOn .evacuationWindowClose s) := by
  decide +kernel

theorem witness_EngineRunRows_1 :
    (let e : EngineId := 7; let k : Skein := skein; let r : List Skein := []; let s : State := up.modMe 7 (fun m => { m with dq := [skein] }); unitOn (.skeinDispatch e) s ∧ (s.me e.val).service < 2 ∧ (s.eng e.val).irqFault = false ∧ (s.eng e.val).pmemBad = false ∧ (s.me e.val).running = none ∧ (s.me e.val).dq = k :: r ∧ (∀ x ∈ runningTasks k, (s.chan x.ch).jobsRunning = 0) ∧ k.mask ≠ 0 ∧ k.tasks.length ≤ 16) ∧
    (let e : EngineId := 7; let s : State := retired 1 up; ((2 ≤ (s.me e.val).service ∨ (s.eng e.val).irqFault = true ∨ (s.eng e.val).pmemBad = true))) ∧
    (let e : EngineId := 7; let s : State := up; ((4 ≤ (s.me e.val).service ∨ (s.eng e.val).deliver.irqFault = true ∨ ((s.me e.val).running = none ∧ (s.eng e.val).deliver.gie = true)))) ∧
    (let e : EngineId := 7; let k : Skein := skein; let s : State := up.modMe 7 (fun m => { m with running := some skein }); let x := (s.eng e.val).deliver; (s.me e.val).service < 4 ∧ x.irqFault = false ∧ (s.me e.val).running = some k ∧ tget x.pmem x.pc.toNat 0 = 0 ∧ x.delay = 0 ∧ x.lc0 = 0 ∧ x.lc1 = 0) ∧
    (let e : EngineId := 7; let k : Skein := skein; let s : State := (up.modMe 7 (fun m => { m with running := some skein })).modEng 7 (fun x => { x with pmem := [(0, BitVec.ofNat 128 (63 * 2 ^ 122))] }); let x := (s.eng e.val).deliver; let w := (tget x.pmem x.pc.toNat 0).toNat; (s.me e.val).service < 4 ∧ x.irqFault = false ∧ (s.me e.val).running = some k ∧ slotOk (memUses (w / 2 ^ 96)) (w / 2 ^ 96) = false) ∧
    (let e : EngineId := 7; let k : Skein := skein; let s : State := (up.modMe 7 (fun m => { m with running := some skein })).modEng 7 (fun x => { x with stream := { x.stream with opened := true, len := 64 } }); let x := s.eng e.val; unitOn (.streamEntryArrival e) s ∧ x.stream.opened = true ∧ 4 * x.stream.fetched < x.stream.len ∧ x.fifo.length < 32 ∧ (s.me e.val).running = some k ∧ x.stalled = false) := by
  decide +kernel

theorem witness_EngineRunRows_2 :
    (let e : EngineId := 7; let s : State := up; (((s.eng e.val).stream.opened = false ∨ 32 ≤ (s.eng e.val).fifo.length))) ∧
    (let e : EngineId := 7; let s : State := up; let x := (s.eng e.val).deliver; ((x.gie = false ∨ (x.lc0 ≠ 1 ∧ x.lc1 ≠ 1)))) ∧
    (let e : EngineId := 7; let loop : Fin 2 := 0; let s : State := up.modEng 7 (fun x => { x with lc0 := 1 }); let x := (s.eng e.val).deliver; x.gie = true ∧ ((loop = 0 ∧ x.lc0 = 1 ∧ x.pc = x.le0 ∨ loop = 1 ∧ x.lc1 = 1 ∧ x.pc = x.le1))) ∧
    (let e : EngineId := 7; let ward : Bool := false; let s : State := up; let x := s.eng e.val; (s.me e.val).service < 4 ∧ x.delay = 0 ∧ pendingCause x (s.me e.val).running.isSome ward = none) ∧
    (let e : EngineId := 7; let ward : Bool := true; let s : State := up.modEng 7 (fun x => { x with ien := 7 }); let x := s.eng e.val; let c := 2; (s.me e.val).service < 4 ∧ x.delay = 0 ∧ pendingCause x (s.me e.val).running.isSome ward = some c ∧ 2 ≤ c) ∧
    (let e : EngineId := 7; let ward : Bool := false; let s : State := (up.modMe 7 (fun m => { m with running := some skein })).modEng 7 (fun x => { x with ien := 7, cyc := 9 }); let x := s.eng e.val; (s.me e.val).service < 4 ∧ x.delay = 0 ∧ pendingCause x (s.me e.val).running.isSome ward = some 1) := by
  decide +kernel

theorem witness_EngineRunRows_3 :
    (let e : EngineId := 7; let ward : Bool := false; let s : State := up.modEng 7 (fun x => { x with ien := 7, irqFault := true }); let x := s.eng e.val; (s.me e.val).service < 4 ∧ x.delay = 0 ∧ pendingCause x (s.me e.val).running.isSome ward = some 0) ∧
    (let e : EngineId := 7; let s : State := up; (((s.me e.val).running = none ∨ (s.eng e.val).cyc < (s.eng e.val).budget))) ∧
    (let e : EngineId := 7; let k : Skein := skein; let s : State := up.modMe 7 (fun m => { m with running := some skein }); (s.me e.val).service < 4 ∧ (s.eng e.val).delay = 0 ∧ (s.eng e.val).irqFault = false ∧ (s.me e.val).running = some k ∧ (s.eng e.val).budget ≤ (s.eng e.val).cyc) ∧
    (let e : EngineId := 7; let s : State := up.modMe 7 (fun m => { m with service := 4 }); 4 ≤ (s.me e.val).service) ∧
    (let e : EngineId := 7; let s : State := up; (s.me e.val).service < 4 ∧ (s.me e.val).running = none) ∧
    (let e : EngineId := 7; let s : State := up.modMe 7 (fun m => { m with running := some skein }); s.issues e.val = true) := by
  decide +kernel

theorem witness_MemoryTrafficRows_1 :
    (let m : McId := 3; let r : MemReq := mreq false; let s : State := up; (((s.rd memChState m.val ≠ 2 ∧ s.rd memChState m.val ≠ 3 ∧ s.rd memChState m.val ≠ 4) ∨ portCredits r.port.val ≤ creditsHeld (s.mc m.val) r.port.val))) ∧
    (let m : McId := 3; let r : MemReq := mreq false; let s : State := online; unitOn (.memoryRequest m r) s ∧ ((s.rd memChState m.val = 2 ∨ s.rd memChState m.val = 3 ∨ s.rd memChState m.val = 4)) ∧ (s.mc m.val).reads = [] ∧ 0 < portCredits r.port.val ∧ r.write = false ∧ r.ecc = .clean ∧ r.sram = .clean ∧ r.parity = false ∧ (s.mc m.val).hold ≠ 2) ∧
    (let m : McId := 3; let r : MemReq := mreq true; let s : State := online; unitOn (.memoryRequest m r) s ∧ ((s.rd memChState m.val = 2 ∨ s.rd memChState m.val = 3 ∨ s.rd memChState m.val = 4)) ∧ (s.mc m.val).reads = [] ∧ 0 < portCredits r.port.val ∧ r.write = true ∧ s.onPage m.val r = false ∧ (s.mc m.val).writes.length < 64) ∧
    (let m : McId := 3; let index : Nat := 0; let s : State := up; let c := s.mc m.val; unitOn (.urgencyRise m index) s ∧ c.reads.length + c.writes.length ≤ index) ∧
    (let m : McId := 3; let index : Nat := 0; let s : State := up.modMc 3 (fun c => { c with reads := [{ req := mreq false, entered := 0 }] }); let c := s.mc m.val; let q : QueuedReq := { req := mreq false, entered := 0 }; unitOn (.urgencyRise m index) s ∧ c.reads[index]? = some q) ∧
    (let m : McId := 3; let index : Nat := 0; let s : State := State.modMc State.reset 3 (fun c => { c with writes := [{ req := mreq true, entered := 0 }] }); let c := s.mc m.val; let q : QueuedReq := { req := mreq true, entered := 0 }; unitOn (.urgencyRise m index) s ∧ c.reads.length ≤ index ∧ c.writes[index - c.reads.length]? = some q) := by
  decide +kernel

theorem witness_MemoryTrafficRows_2 :
    (let m : McId := 3; let s : State := up.modMc 3 (fun c => { c with reads := [{ req := mreq false, entered := 0 }] }); let c := s.mc m.val; unitOn (.writeQueueDrain m) s ∧ (c.hold = 2 ∨ (c.writes.length < 48 ∧ ∃ q ∈ c.reads, q.req.write = false))) ∧
    (let m : McId := 3; let s : State := up.modMc 3 (fun c => { c with writes := List.replicate 48 { req := mreq true, entered := 0 } }); let c := s.mc m.val; unitOn (.writeQueueDrain m) s ∧ c.hold ≠ 2 ∧ 48 ≤ c.writes.length) ∧
    (let m : McId := 3; let s : State := up; let c := s.mc m.val; unitOn (.writeQueueDrain m) s ∧ c.hold ≠ 2 ∧ c.writes.length ≤ 16 ∧ (∀ q ∈ c.reads, q.req.write = true)) ∧
    (let m : McId := 3; let bank : Nat := 0; let s : State := up; let b := tget (s.mc m.val).banks bank {}; unitOn (.rowIdleClose m bank) s ∧ (b.openRow = none ∨ s.now < b.idleAt + idleNs s)) ∧
    (let m : McId := 3; let bank : Nat := 2; let s : State := { up.modMc 3 (fun c => { c with banks := [(2, { openRow := some 5 })] }) with now := ms 1 }; let b := tget (s.mc m.val).banks bank {}; unitOn (.rowIdleClose m bank) s ∧ b.openRow ≠ none ∧ b.idleAt + idleNs s ≤ s.now) ∧
    (let m : McId := 3; let s : State := up; unitOn (.activateTableClear m) s ∧ s.now < (s.mc m.val).clearAt + ms 32) := by
  decide +kernel

theorem witness_MemoryTrafficRows_3 :
    (let m : McId := 3; let s : State := { up.modMc 3 (fun c => { c with banks := [(2, { openRow := some 5 })] }) with now := ms 32 }; unitOn (.activateTableClear m) s ∧ (s.mc m.val).clearAt + ms 32 ≤ s.now ∧ sorted (s.mc m.val).banks = true) ∧
    (let m : McId := 3; let rank : Nat := 9; let s : State := { up.modMc 3 (fun c => { c with refreshAt := [(9, 0)] }) with now := 3899 }; let gap := if (s.mc m.val).refresh2.contains (rank / 8) then 1950 else 3900; let l := 0; unitOn (.dramRefresh m rank) s ∧ (s.mc m.val).refreshAt.find? (fun e => e.1 = rank) = some (rank, l) ∧ s.now < l + gap) ∧
    (let m : McId := 3; let s : State := up; unitOn (.alertN m) s ∧ s.mcServes m.val = false ∧ s.rd memChState m.val ≠ 4) ∧
    (let m : McId := 3; let s : State := online; unitOn (.alertN m) s ∧ ((s.mcServes m.val = true ∨ s.rd memChState m.val = 4)) ∧ (within s.now (ms 1) (s.mc m.val).caTimes).length < 2 ∧ sorted (s.mc m.val).banks = true) ∧
    (let m : McId := 3; let s : State := up; unitOn (.writeCrcError m) s ∧ ((∀ r ∈ (s.mc m.val).retry, r.write = false) ∨ s.flag memWcrcEn = false)) ∧
    (let m : McId := 3; let s : State := (up.wr memWcrcEn 1).modMc 3 (fun c => { c with retry := [mreq false, mreq true] }); let r := mreq true; unitOn (.writeCrcError m) s ∧ (s.mc m.val).retry.reverse.find? (fun r => r.write) = some r ∧ s.flag memWcrcEn = true) := by
  decide +kernel

theorem witness_MemoryTrafficRows_4 :
    (let m : McId := 3; let s : State := up; ((s.mc m.val).hold ≠ 1 ∨ (s.mc m.val).reads ≠ [] ∨ s.now < (s.mc m.val).lastReqAt + us 1)) ∧
    (let m : McId := 3; let s : State := { up.modMc 3 (fun c => { c with hold := 1 }) with now := us 1 }; (s.mc m.val).hold = 1 ∧ (s.mc m.val).reads = [] ∧ (s.mc m.val).lastReqAt + us 1 ≤ s.now) ∧
    (let s : State := up.modMc 3 (fun c => { c with hold := 2, banks := [(2, {})] }); (∀ m < 8, (s.mc m).reads = [] ∧ (s.mc m).writes = [])) ∧
    (let m : McId := 3; let r : MemReq := { mreq false with parity := true, source := 110 }; let s : State := online; unitOn (.memoryRequest m r) s ∧ ((s.rd memChState m.val = 2 ∨ s.rd memChState m.val = 3 ∨ s.rd memChState m.val = 4)) ∧ (s.mc m.val).reads = [] ∧ 0 < portCredits r.port.val ∧ r.write = false ∧ r.ecc = .clean ∧ r.sram = .clean ∧ r.parity = true ∧ 108 ≤ r.source ∧ r.port ≠ 4 ∧ (s.mc m.val).hold ≠ 2) := by
  decide +kernel

theorem witness_MemoryServiceRows_1 :
    (let m : McId := 3; let line : Nat := 0; let x : EccResult := .clean; let s : State := online; unitOn (.patrolScrub m line x) s ∧ (s.mcServes m.val = false ∨ x = .clean)) ∧
    (let m : McId := 3; let line : Nat := 0; let x : EccResult := .clean; let s : State := online; unitOn (.patrolScrub m line x) s ∧ s.mcServes m.val = true) ∧
    (let m : McId := 3; let line : Nat := 0; let x : EccResult := .clean; let s : State := online; unitOn (.patrolScrub m line x) s ∧ s.mcServes m.val = true ∧ (within s.now (sec 10) (s.mc m.val).ceTimes).length < s.rd memCeLimit) ∧
    (let m : McId := 3; let b : Bool := false; let l : List (Nat × Nat) := []; let s : State := up; let gap := if s.rd memChState m.val = 3 then 62500000 else ms 250; unitOn (.periodicRetrain m b l) s ∧ (((s.rd memChState m.val ≠ 2 ∧ s.rd memChState m.val ≠ 3) ∨ s.flag memPeriodic = false ∨ s.now < (s.mc m.val).passAt + gap))) ∧
    (let m : McId := 3; let b : Bool := false; let l : List (Nat × Nat) := [(2, 5)]; let s : State := { online with now := sec 1 }; let gap := if s.rd memChState m.val = 3 then 62500000 else ms 250; unitOn (.periodicRetrain m b l) s ∧ s.flag memPeriodic = true ∧ (s.mc m.val).passAt + gap ≤ s.now ∧ s.rd memChState m.val = 2) ∧
    (let m : McId := 3; let b : Bool := false; let l : List (Nat × Nat) := []; let s : State := { up.wr memChState 3 3 with now := sec 1 }; let gap := if s.rd memChState m.val = 3 then 62500000 else ms 250; unitOn (.periodicRetrain m b l) s ∧ s.flag memPeriodic = true ∧ (s.mc m.val).passAt + gap ≤ s.now ∧ s.rd memChState m.val = 3) := by
  decide +kernel

theorem witness_MemoryServiceRows_2 :
    (let m : McId := 3; let s : State := online; (s.mc m.val).migration = none) ∧
    (let m : McId := 3; let g : Migration := { frames := [1], target := some (4, 9) }; let f : Nat := 1; let rest : List Nat := []; let place : Nat × Nat := (4, 9); let b : Bool := false; let s : State := { fenced3 [1] with now := 0 }; let rate := max 1 (s.rd memMigrateRate); unitOn (.migrationPageCopy m b) s ∧ (s.mc m.val).migration = some g ∧ g.frames = f :: rest ∧ g.target = some place ∧ s.now < g.pageAt + (4096 + rate - 1) / rate) ∧
    (let m : McId := 3; let g : Migration := { frames := [1], target := some (4, 9) }; let f : Nat := 1; let rest : List Nat := []; let place : Nat × Nat := (4, 9); let b : Bool := false; let s : State := fenced3 [1]; let rate := max 1 (s.rd memMigrateRate); unitOn (.migrationPageCopy m b) s ∧ (s.mc m.val).migration = some g ∧ g.frames = f :: rest ∧ g.target = some place ∧ g.pageAt + (4096 + rate - 1) / rate ≤ s.now ∧ g.page + 1 < 16384) ∧
    (let m : McId := 3; let g : Migration := { frames := [1], page := 16383, target := some (4, 9) }; let f : Nat := 1; let rest : List Nat := []; let place : Nat × Nat := (4, 9); let b : Bool := false; let s : State := fenced3 [1] 16383; let rate := max 1 (s.rd memMigrateRate); unitOn (.migrationPageCopy m b) s ∧ (s.mc m.val).migration = some g ∧ g.frames = f :: rest ∧ g.target = some place ∧ g.pageAt + (4096 + rate - 1) / rate ≤ s.now ∧ g.page + 1 = 16384 ∧ rest = []) ∧
    (let m : McId := 3; let s : State := online; s.rd memChState m.val ≠ 4) ∧
    (let m : McId := 3; let s : State := fenced3 [1]; let g : Migration := { frames := [1], target := some (4, 9) }; s.rd memChState m.val = 4 ∧ (s.mc m.val).migration = some g ∧ g.frames ≠ []) := by
  decide +kernel

theorem witness_MemoryServiceRows_3 :
    (let m : McId := 3; let s : State := fenced3 []; let g : Migration := { frames := [], target := some (4, 9) }; s.rd memChState m.val = 4 ∧ (s.mc m.val).migration = some g ∧ g.frames = []) ∧
    (let m : McId := 3; let w : Nat := 16; let a := memChReset.addr + m.val * memChReset.s1; goodAccess a w = false) ∧
    (let m : McId := 3; let w : Nat := 64; let v : Word64 := 2; let s : State := online; let a := memChReset.addr + m.val * memChReset.s1; goodAccess a w = true ∧ ((v.toNat % 2 = 0 ∨ s.inReset 2 = true))) ∧
    (let m : McId := 3; let w : Nat := 64; let v : Word64 := 1; let s : State := up.wr memChState 5 3; let a := memChReset.addr + m.val * memChReset.s1; goodAccess a w = true ∧ v.toNat % 2 = 1 ∧ s.inReset 2 = false ∧ ((s.rd memChState m.val = 5 ∨ s.rd memChState m.val = 1))) ∧
    (let m : McId := 3; let w : Nat := 64; let v : Word64 := 1; let s : State := online; let a := memChReset.addr + m.val * memChReset.s1; goodAccess a w = true ∧ v.toNat % 2 = 1 ∧ s.inReset 2 = false ∧ s.rd memChState m.val ≠ 5 ∧ s.rd memChState m.val ≠ 1) ∧
    (let m : McId := 3; let s : State := online; (s.mc m.val).training = false) := by
  decide +kernel

theorem witness_MemoryServiceRows_4 :
    (let m : McId := 3; let s : State := up.modMc 3 (fun c => { c with training := true }); (s.mc m.val).training = true) ∧
    (let s : State := State.reset.wr mbxBootState 2; s.rd mbxBootState = 2) ∧
    (let w : Nat := 16; let s : State := online; s.rd mbxBootState ≠ 2 ∧ goodAccess 0xB0000 w = false) ∧
    (let w : Nat := 64; let s : State := online; s.rd mbxBootState ≠ 2 ∧ goodAccess 0xB0000 w = true) ∧
    (let s : State := online; s.rd mbxBootState ≠ 1) ∧
    (let s : State := State.reset.wr mbxBootState 1; s.rd mbxBootState = 1) := by
  decide +kernel

theorem witness_CaptureRows_1 :
    (let c : HostCmd := cmd 0x50000 0 64; let s : State := taken 0x41; let w := c.w1.toNat; let src := if bits w 0 2 = 1 then 65536 + bits w 2 2 else bits w 16 16; commandRuns c 0x41 [(1, 0x7F7FFFFF000F), (3, 0xFFFFFFFFFFFFFFFF), (4, 0xFFFFFFFFFFFFFFFF)] false s = true ∧ bits w 0 2 ≤ 1 ∧ bits w 32 4 ≤ 9 ∧ bits w 36 2 ≠ 3 ∧ ((bit w 38 = true → bits w 36 2 ≠ 2)) ∧ 64 ≤ c.w4.toNat ∧ c.w4.toNat ≤ 2 ^ 40 ∧ s.cap.caps.find? (fun e => e.1 = src) = none) ∧
    (let c : HostCmd := cmd 0x50000 0 64; let s : State := taken 0x41 (captured5 { capacity := 4096, exporting := true }); let w := c.w1.toNat; let src := if bits w 0 2 = 1 then 65536 + bits w 2 2 else bits w 16 16; let x : Capture := { capacity := 4096, exporting := true }; commandRuns c 0x41 [(1, 0x7F7FFFFF000F), (3, 0xFFFFFFFFFFFFFFFF), (4, 0xFFFFFFFFFFFFFFFF)] false s = true ∧ bits w 0 2 ≤ 1 ∧ bits w 32 4 ≤ 9 ∧ bits w 36 2 ≠ 3 ∧ ((bit w 38 = true → bits w 36 2 ≠ 2)) ∧ 64 ≤ c.w4.toNat ∧ c.w4.toNat ≤ 2 ^ 40 ∧ s.cap.caps.find? (fun e => e.1 = src) = some (src, x) ∧ x.exporting = true) ∧
    (let c : HostCmd := cmd 0x4000050000 0 64; let s : State := taken 0x41 captured5; let w := c.w1.toNat; let src := if bits w 0 2 = 1 then 65536 + bits w 2 2 else bits w 16 16; let x : Capture := { capacity := 4096 }; commandRuns c 0x41 [(1, 0x7F7FFFFF000F), (3, 0xFFFFFFFFFFFFFFFF), (4, 0xFFFFFFFFFFFFFFFF)] false s = true ∧ bits w 0 2 ≤ 1 ∧ bits w 32 4 ≤ 9 ∧ bits w 36 2 ≠ 3 ∧ ((bit w 38 = true → bits w 36 2 ≠ 2)) ∧ 64 ≤ c.w4.toNat ∧ c.w4.toNat ≤ 2 ^ 40 ∧ s.cap.caps.find? (fun e => e.1 = src) = some (src, x) ∧ x.exporting = false ∧ bit w 38 = true ∧ x.chained = false) ∧
    (let c : HostCmd := cmd 0x50000 0 64; let s : State := taken 0x41 captured5; let w := c.w1.toNat; let src := if bits w 0 2 = 1 then 65536 + bits w 2 2 else bits w 16 16; let x : Capture := { capacity := 4096 }; commandRuns c 0x41 [(1, 0x7F7FFFFF000F), (3, 0xFFFFFFFFFFFFFFFF), (4, 0xFFFFFFFFFFFFFFFF)] false s = true ∧ bits w 0 2 ≤ 1 ∧ bits w 32 4 ≤ 9 ∧ bits w 36 2 ≠ 3 ∧ ((bit w 38 = true → bits w 36 2 ≠ 2)) ∧ 64 ≤ c.w4.toNat ∧ c.w4.toNat ≤ 2 ^ 40 ∧ s.cap.caps.find? (fun e => e.1 = src) = some (src, x) ∧ x.exporting = false ∧ ((bit w 38 = true → x.chained = true))) ∧
    (let u : Fin 2 := 0; let s : State := State.reset; ((s.cap.queue = [] ∨ s.cap.running.any (fun e => e.1 = u.val) = true))) ∧
    (let u : Fin 2 := 1; let j : LakeJob := lakeJob; let rest : List LakeJob := []; let s : State := { captured5 with cap := { captured5.cap with queue := [lakeJob] } }; unitOn (.lakeJobStart u) s ∧ s.cap.queue = j :: rest ∧ s.cap.running.any (fun e => e.1 = u.val) = false) := by
  decide +kernel

theorem witness_CaptureRows_2 :
    (let u : Fin 2 := 1; let s : State := up; s.cap.running.find? (fun e => e.1 = u.val) = none) ∧
    (let u : Fin 2 := 1; let j : LakeJob := lakeJob; let s : State := { captured5 with cap := { captured5.cap with running := [(1, lakeJob)] }, host := { up.host with cacheOut := [{ creq false with serves := 1 }] } }; unitOn (.lakeJobEnd u) s ∧ s.cap.running.find? (fun e => e.1 = u.val) = some (u.val, j) ∧ s.cacheBusy 1 j.qid j.tag = true) ∧
    (let u : Fin 2 := 1; let j : LakeJob := lakeJob 0; let x : Capture := { capacity := 4096 }; let s : State := { captured5 with cap := { captured5.cap with running := [(1, lakeJob 0)] } }; let r := lakeStream j x; unitOn (.lakeJobEnd u) s ∧ s.cap.running.find? (fun e => e.1 = u.val) = some (u.val, j) ∧ s.cacheBusy 1 j.qid j.tag = false ∧ s.cap.caps.find? (fun e => e.1 = j.source) = some (j.source, x) ∧ j.length < r.2.length) ∧
    (let src : Nat := 5; let s : State := State.reset; s.cap.caps.find? (fun e => e.1 = src) = none) ∧
    (let src : Nat := 5; let s : State := captured5 { capacity := 4096, retryUntil := 9, retrySpan := some (0, 2) }; let x : Capture := { capacity := 4096, retryUntil := 9, retrySpan := some (0, 2) }; s.cap.caps.find? (fun e => e.1 = src) = some (src, x) ∧ (x.retrySpan = none ∨ x.exporting = true ∨ s.now < x.retryUntil)) ∧
    (let src : Nat := 5; let s : State := captured5 { capacity := 4096, retrySpan := some (0, 2) }; let x : Capture := { capacity := 4096, retrySpan := some (0, 2) }; let sp := (0, 2); s.cap.caps.find? (fun e => e.1 = src) = some (src, x) ∧ x.retrySpan = some sp ∧ x.exporting = false ∧ x.retryUntil ≤ s.now) := by
  decide +kernel

theorem witness_CaptureRows_3 :
    (let w : Nat := 64; let v : Word64 := 0; let s : State := State.reset; let a := if w = 64 then 0xD0000 else 0xD0004; ((s.flag lakGo = true ∨ goodAccess a w = false ∨ writtenTo lakGo 0 0 a w v.toNat ≠ some 1))) ∧
    (let w : Nat := 64; let v : Word64 := 0x10000000000; let s : State := up; let a := if w = 64 then 0xD0000 else 0xD0004; let s1 := s.writeReg a w v.toNat; s.flag lakGo = false ∧ goodAccess a w = true ∧ writtenTo lakGo 0 0 a w v.toNat = some 1 ∧ s1.lakRefused s1.lakSourceOf = true) ∧
    (let w : Nat := 64; let v : Word64 := 0x10100050000; let s : State := captured5; let a := if w = 64 then 0xD0000 else 0xD0004; let s1 := s.writeReg a w v.toNat; let x : Capture := { capacity := 4096 }; s.flag lakGo = false ∧ goodAccess a w = true ∧ writtenTo lakGo 0 0 a w v.toNat = some 1 ∧ s1.lakRefused s1.lakSourceOf = false ∧ s1.rd lakOp = 1 ∧ s1.cap.caps.find? (fun e => e.1 = s1.lakSourceOf) = some (s1.lakSourceOf, x)) ∧
    (let w : Nat := 64; let v : Word64 := 0x10200050000; let s : State := captured5; let a := if w = 64 then 0xD0000 else 0xD0004; let s1 := s.writeReg a w v.toNat; s.flag lakGo = false ∧ goodAccess a w = true ∧ writtenTo lakGo 0 0 a w v.toNat = some 1 ∧ s1.lakRefused s1.lakSourceOf = false ∧ s1.rd lakOp = 2) ∧
    (let s : State := State.reset; s.host.cacheOut = []) ∧
    (let r : CacheReq := creq false; let l : List CacheReq := []; let s : State := { up with host := { up.host with cacheOut := [creq false] } }; s.host.cacheOut = r :: l) := by
  decide +kernel

theorem witness_CaptureRows_4 :
    (let r : CacheReq := creq false; let l : List CacheReq := []; let s : State := { up with host := { up.host with cacheOut := [creq false] } }; s.host.cacheOut = r :: l ∧ r.last = false) ∧
    (let r : CacheReq := creq true; let l : List CacheReq := []; let s : State := { up with host := { up.host with cacheOut := [creq true] } }; s.host.cacheOut = r :: l ∧ r.last = true) ∧
    (let r : CacheReq := creq true; let l : List CacheReq := []; let s : State := { up with host := { up.host with cacheOut := [creq true] } }; s.host.cacheOut = r :: l ∧ r.last = true ∧ r.serves = 0) ∧
    (let r : CacheReq := creq false; let l : List CacheReq := []; let s : State := { up with host := { up.host with cacheOut := [creq false] } }; s.host.cacheOut = r :: l ∧ r.serves = 0) := by
  decide +kernel

theorem witness_CaptureRows_5 :
    (let c : HostCmd := cmd 0x7900050000; let s : State := taken 0x40; let secs := bits c.w1.toNat 32 7; s.groupsOf c [] [] = .ok [] ∧ commandRuns c 0x40 [(1, 0x7FFFFF000F), (3, 0xFFFFFFFFFFFF)] true s = true ∧ bits c.w1.toNat 0 2 = 0 ∧ ((secs = 0 ∨ 120 < secs))) :=
  ⟨okIs _ _ (by decide +kernel), by decide +kernel⟩

theorem witness_CaptureRows_6 :
    (let c : HostCmd := cmd 0x7800050000; let s : State := taken 0x40; let ch := bits c.w1.toNat 16 16; let secs := bits c.w1.toNat 32 7; s.groupsOf c [] [] = .ok [] ∧ commandRuns c 0x40 [(1, 0x7FFFFF000F), (3, 0xFFFFFFFFFFFF)] true s = true ∧ bits c.w1.toNat 0 2 = 0 ∧ 1 ≤ secs ∧ secs ≤ 120 ∧ ((((s.chan ch).st ≠ .open ∧ (s.chan ch).st ≠ .bound) ∨ s.captured ch = true))) :=
  ⟨okIs _ _ (by decide +kernel), by decide +kernel⟩

theorem witness_CaptureRows_7 :
    (let c : HostCmd := cmd 0x7800050000; let s : State := taken 0x40 open5; let ch := bits c.w1.toNat 16 16; let secs := bits c.w1.toNat 32 7; s.groupsOf c [] [] = .ok [] ∧ commandRuns c 0x40 [(1, 0x7FFFFF000F), (3, 0xFFFFFFFFFFFF)] true s = true ∧ bits c.w1.toNat 0 2 = 0 ∧ 1 ≤ secs ∧ secs ≤ 120 ∧ (((s.chan ch).st = .open ∨ (s.chan ch).st = .bound)) ∧ s.captured ch = false ∧ s.canReserve (replayBytes (s.chan ch) secs) = false) :=
  ⟨okIs _ _ (by decide +kernel), by decide +kernel⟩

theorem witness_CaptureRows_8 :
    (let c : HostCmd := cmd 0x7800050000; let s : State := taken 0x40 (open5 id roomy); let ch := bits c.w1.toNat 16 16; let secs := bits c.w1.toNat 32 7; s.groupsOf c [] [] = .ok [] ∧ commandRuns c 0x40 [(1, 0x7FFFFF000F), (3, 0xFFFFFFFFFFFF)] true s = true ∧ bits c.w1.toNat 0 2 = 0 ∧ 1 ≤ secs ∧ secs ≤ 120 ∧ (((s.chan ch).st = .open ∨ (s.chan ch).st = .bound)) ∧ s.captured ch = false ∧ s.canReserve (replayBytes (s.chan ch) secs) = true) :=
  ⟨okIs _ _ (by decide +kernel), by decide +kernel⟩

theorem witness_CaptureRows_9 :
    (let c : HostCmd := cmd 0x5 (65537 + 64 * 2 ^ 32); let gs : List Grp := []; let s : State := taken 0x40; let mib := bits c.w3.toNat 0 32; s.groupsOf c [16] [] = .ok gs ∧ commandRuns c 0x40 [(1, 0x7FFFFF000F), (3, 0xFFFFFFFFFFFF)] true s = true ∧ bits c.w1.toNat 0 2 = 1 ∧ ((mib = 0 ∨ 65536 < mib))) :=
  ⟨okIs _ _ (by decide +kernel), by decide +kernel⟩

theorem witness_CaptureRows_10 :
    (let c : HostCmd := cmd 0x5 (65536 + 63 * 2 ^ 32); let gs : List Grp := []; let s : State := taken 0x40; let mib := bits c.w3.toNat 0 32; let snap := bits c.w3.toNat 32 16; s.groupsOf c [16] [] = .ok gs ∧ commandRuns c 0x40 [(1, 0x7FFFFF000F), (3, 0xFFFFFFFFFFFF)] true s = true ∧ bits c.w1.toNat 0 2 = 1 ∧ 1 ≤ mib ∧ mib ≤ 65536 ∧ ((snap < 64 ∨ 9600 < snap))) :=
  ⟨okIs _ _ (by decide +kernel), by decide +kernel⟩

theorem witness_CaptureRows_11 :
    (let c : HostCmd := cmd 0x5 (1 + 64 * 2 ^ 32); let gs : List Grp := []; let s : State := let s := taken 0x40 roomy; { s with cap := { s.cap with caps := [(65537, { capacity := 4096 })] } }; let p := bits c.w1.toNat 2 2; let mib := bits c.w3.toNat 0 32; let snap := bits c.w3.toNat 32 16; s.groupsOf c [16] [] = .ok gs ∧ commandRuns c 0x40 [(1, 0x7FFFFF000F), (3, 0xFFFFFFFFFFFF)] true s = true ∧ bits c.w1.toNat 0 2 = 1 ∧ 1 ≤ mib ∧ mib ≤ 65536 ∧ 64 ≤ snap ∧ snap ≤ 9600 ∧ (grpOf gs 16).bind filterFault = none ∧ s.captured (65536 + p) = true) :=
  ⟨okIs _ _ (by decide +kernel), by decide +kernel⟩

theorem witness_CaptureRows_12 :
    (let c : HostCmd := cmd 0x5 (1 + 9600 * 2 ^ 32); let gs : List Grp := []; let s : State := taken 0x40 roomy; let p := bits c.w1.toNat 2 2; let mib := bits c.w3.toNat 0 32; let snap := bits c.w3.toNat 32 16; s.groupsOf c [16] [] = .ok gs ∧ commandRuns c 0x40 [(1, 0x7FFFFF000F), (3, 0xFFFFFFFFFFFF)] true s = true ∧ bits c.w1.toNat 0 2 = 1 ∧ 1 ≤ mib ∧ mib ≤ 65536 ∧ 64 ≤ snap ∧ snap ≤ 9600 ∧ (grpOf gs 16).bind filterFault = none ∧ s.captured (65536 + p) = false ∧ s.canReserve (mib * 2 ^ 20) = true) :=
  ⟨okIs _ _ (by decide +kernel), by decide +kernel⟩

theorem witness_CaptureRows_13 :
    (let c : HostCmd := cmd 0x50002; let s : State := taken 0x40 captured5; s.groupsOf c [] [] = .ok [] ∧ commandRuns c 0x40 [(1, 0x7FFFFF000F), (3, 0xFFFFFFFFFFFF)] true s = true ∧ bits c.w1.toNat 0 2 = 2) :=
  ⟨okIs _ _ (by decide +kernel), by decide +kernel⟩

theorem witness_CaptureRows_14 :
    (let c : HostCmd := cmd 7; let s : State := taken 0x40; s.groupsOf c [] [] = .ok [] ∧ commandRuns c 0x40 [(1, 0x7FFFFF000F), (3, 0xFFFFFFFFFFFF)] true s = true ∧ bits c.w1.toNat 0 2 = 3) :=
  ⟨okIs _ _ (by decide +kernel), by decide +kernel⟩

theorem witness_RingLinkRows_1 :
    (let w : Nat := 64; let v : Word64 := 0; (goodAccess 0xC0000 w = false ∨ writtenTo rngInsert 0 0 0xC0000 w v.toNat ≠ some 1)) ∧
    (let w : Nat := 64; let v : Word64 := 2; let s : State := up; goodAccess 0xC0000 w = true ∧ writtenTo rngInsert 0 0 0xC0000 w v.toNat = some 1 ∧ s.ringPosOk = false) ∧
    (let w : Nat := 64; let v : Word64 := 2; let s : State := posOk; let s1 := s.writeReg 0xC0000 w v.toNat; goodAccess 0xC0000 w = true ∧ writtenTo rngInsert 0 0 0xC0000 w v.toNat = some 1 ∧ s.ringPosOk = true ∧ ((s1.rd rngState = 0 ∨ s1.rd rngState = 4))) ∧
    (let w : Nat := 64; let v : Word64 := 2; let s : State := posOk ringUp; let s1 := s.writeReg 0xC0000 w v.toNat; goodAccess 0xC0000 w = true ∧ writtenTo rngInsert 0 0 0xC0000 w v.toNat = some 1 ∧ s.ringPosOk = true ∧ s1.rd rngState ≠ 0 ∧ s1.rd rngState ≠ 4) ∧
    (let s : State := up; (s.rd rngState ≠ 2 ∨ s.ring.insertAt = none)) ∧
    (let s : State := ringed (fun r => { r with insertAt := some 0 }) (up.wr rngState 2); let a := 0; s.rd rngState = 2 ∧ s.ring.insertAt = some a ∧ s.now < a + ms 10) := by
  decide +kernel

theorem witness_RingLinkRows_2 :
    (let s : State := { ringed (fun r => { r with insertAt := some 0 }) (up.wr rngState 2) with now := ms 10 }; let a := 0; s.rd rngState = 2 ∧ s.ring.insertAt = some a ∧ a + ms 10 ≤ s.now) ∧
    (let s : State := up.wr rngBypass 1; s.flag rngBypass = true) ∧
    (let s : State := up.wr rngBypass 0; s.flag rngBypass = false ∧ s.rd rngState ≠ 2) ∧
    (let x : RingPort := 1; let s : State := ((up.wr rngBypass 0).wr rngState 2).wr rngPortLinkUp 1 0; s.flag rngBypass = false ∧ s.rd rngState = 2 ∧ s.flag rngPortLinkUp (1 - x.val) = true) ∧
    (let s : State := up; s.inserted = false) ∧
    (let s : State := ringUp; s.inserted = true) := by
  decide +kernel

theorem witness_RingLinkRows_3 :
    (let x : RingPort := 1; let s : State := up; s.flag rngPortLinkUp x.val = false) ∧
    (let x : RingPort := 1; let f : RingFrame := rframe 1 false; let s : State := ringUp; s.flag rngPortLinkUp x.val = true ∧ f.crcOk = false) ∧
    (let x : RingPort := 1; let f : RingFrame := rframe 1; let s : State := ringUp; s.flag rngPortLinkUp x.val = true ∧ f.crcOk = true ∧ f.nak = false ∧ f.type = 3 ∧ (s.link x.val).unacked = [] ∧ (s.link x.val).waiting = [] ∧ (s.link x.val).sending = none ∧ f.seq = (s.link x.val).rxAck + 1) ∧
    (let x : RingPort := 1; let f : RingFrame := rframe 2; let s : State := ringUp; s.flag rngPortLinkUp x.val = true ∧ f.crcOk = true ∧ f.nak = false ∧ f.type = 3 ∧ (s.link x.val).unacked = [] ∧ (s.link x.val).waiting = [] ∧ (s.link x.val).sending = none ∧ f.seq ≠ (s.link x.val).rxAck + 1) ∧
    (let x : RingPort := 1; let s : State := State.reset; (within s.now (ms 1) (s.link x.val).replays).length < 16) ∧
    (let x : RingPort := 1; let s : State := ringUp.modLink 1 (fun l => { l with replays := List.replicate 16 0 }); 16 ≤ (within s.now (ms 1) (s.link x.val).replays).length) := by
  decide +kernel

theorem witness_RingLinkRows_4 :
    (let s : State := up; (s.inserted = false ∨ s.ring.live = false ∨ s.now < s.ring.hbNextAt)) ∧
    (let s : State := ringUp; s.inserted = true ∧ s.ring.live = true ∧ s.ring.hbNextAt ≤ s.now ∧ s.flag rngPortLinkUp 0 = true ∧ s.flag rngPortLinkUp 1 = true) ∧
    (let x : RingPort := 1; let s : State := up; s.flag rngPortLinkUp x.val = false) ∧
    (let x : RingPort := 1; let h : HeartbeatMsg := hbeat 4; let s : State := ringUp.wr rngPaired 0; s.flag rngPortLinkUp x.val = true ∧ s.flag rngPaired = false ∧ h.hops = 0 ∧ h.srcPos ≠ s.rd rngPosOwn ∧ h.srcPos < 8 ∧ s.rd rngPosOwn < 8) ∧
    (let x : RingPort := 1; let s : State := up; s.flag rngPortLinkUp x.val = false) ∧
    (let x : RingPort := 1; let i : IdentityMsg := ident 4; let s : State := ringUp; s.flag rngPortLinkUp x.val = true ∧ s.flag rngPaired = true ∧ i.pos ≠ s.rd rngPosOwn) := by
  decide +kernel

theorem witness_RingLinkRows_5 :
    (let s : State := State.reset; (s.sup.restarting = true ∨ s.served = false ∨ s.pwr.domainsOff ≠ [] ∨ s.pwr.sysLost = true ∨ s.pwr.ethLost = true)) ∧
    (let s : State := ringed (fun r => { r with fenced := true }) (ringUp.wr rngPaired 0); s.sup.restarting = false ∧ s.served = true ∧ s.pwr.domainsOff = [] ∧ s.pwr.sysLost = false ∧ s.pwr.ethLost = false ∧ s.ring.fenced = true ∧ s.flag rngPaired = false) ∧
    (let s : State := ringUp; s.sup.restarting = false ∧ s.served = true ∧ s.pwr.domainsOff = [] ∧ s.pwr.sysLost = false ∧ s.pwr.ethLost = false ∧ ((s.ring.fenced = false ∨ s.flag rngPaired = true))) ∧
    (let s : State := up; (s.ring.live = false ∨ s.livenessOver = false)) ∧
    (let s : State := { ringUp with now := ms 2 }; s.ring.live = true ∧ s.livenessOver = true) := by
  decide +kernel

theorem witness_MirrorAndFailoverRows_1 :
    (let c : HostCmd := cmd 0x100000001; let s : State := taken 0x50; let hf := bits c.w1.toNat 0 16; let hc := bits c.w1.toNat 32 1 * 65536 + bits c.w1.toNat 16 16; commandRuns c 0x50 [(1, 0x1FFFFFFFF), (3, 0x1FFFFFFFF)] false s = true ∧ 65536 < hf + hc) ∧
    (let c : HostCmd := cmd 0 0x100000001; let s : State := taken 0x50; let hf := bits c.w1.toNat 0 16; let hc := bits c.w1.toNat 32 1 * 65536 + bits c.w1.toNat 16 16; let uf := bits c.w3.toNat 0 16; let uc := bits c.w3.toNat 32 1 * 65536 + bits c.w3.toNat 16 16; commandRuns c 0x50 [(1, 0x1FFFFFFFF), (3, 0x1FFFFFFFF)] false s = true ∧ hf + hc ≤ 65536 ∧ 65536 < uf + uc) ∧
    (let c : HostCmd := cmd 0xA0000 0xA0009; let s : State := taken 0x50; let hf := bits c.w1.toNat 0 16; let hc := bits c.w1.toNat 32 1 * 65536 + bits c.w1.toNat 16 16; let uf := bits c.w3.toNat 0 16; let uc := bits c.w3.toNat 32 1 * 65536 + bits c.w3.toNat 16 16; commandRuns c 0x50 [(1, 0x1FFFFFFFF), (3, 0x1FFFFFFFF)] false s = true ∧ hf + hc ≤ 65536 ∧ uf + uc ≤ 65536 ∧ hf < uf + uc ∧ uf < hf + hc) ∧
    (let c : HostCmd := cmd 0 0; let s : State := taken 0x50 ringUp; let hc := bits c.w1.toNat 32 1 * 65536 + bits c.w1.toNat 16 16; let uc := bits c.w3.toNat 32 1 * 65536 + bits c.w3.toNat 16 16; commandRuns c 0x50 [(1, 0x1FFFFFFFF), (3, 0x1FFFFFFFF)] false s = true ∧ hc = 0 ∧ uc = 0 ∧ s.posConflict = false ∧ s.ring.offerCmd = none) ∧
    (let c : HostCmd := cmd 0xA0000 0xA; let s : State := taken 0x50 (ringUp.wr rngPaired 0); let hf := bits c.w1.toNat 0 16; let hc := bits c.w1.toNat 32 1 * 65536 + bits c.w1.toNat 16 16; let uf := bits c.w3.toNat 0 16; let uc := bits c.w3.toNat 32 1 * 65536 + bits c.w3.toNat 16 16; let u := s; commandRuns c 0x50 [(1, 0x1FFFFFFFF), (3, 0x1FFFFFFFF)] false s = true ∧ hf + hc ≤ 65536 ∧ uf + uc ≤ 65536 ∧ ((uf + uc ≤ hf ∨ hf + hc ≤ uf)) ∧ ((hc ≠ 0 ∨ uc ≠ 0)) ∧ s.posConflict = false ∧ (∀ e ∈ liveChans s, hf ≤ e.1 ∧ e.1 < hf + hc) ∧ s.ring.offerCmd = none ∧ (s.link 0).ident = none ∧ (s.link 1).ident = none ∧ s.reserveUp uf uc = some u) ∧
    (let token : Word32 := 0; let s : State := ringUp; (s.ring.offerAt = none ∨ token ≠ s.ring.offerTok)) := by
  decide +kernel

theorem witness_MirrorAndFailoverRows_2 :
    (let status : Nat := 0; let token : Word32 := 9; let s : State := ringed (fun r => { r with offerAt := some 0, offerTok := 9, offerCmd := some (0, 7) }); s.ring.offerAt ≠ none ∧ token = s.ring.offerTok ∧ status = 0) ∧
    (let status : Nat := 3; let token : Word32 := 9; let s : State := ringed (fun r => { r with offerAt := some 0, offerTok := 9, offerCmd := some (0, 7) }); s.ring.offerAt ≠ none ∧ token = s.ring.offerTok ∧ status ≠ 0) ∧
    (let s : State := ringUp; s.ring.offerAt = none) ∧
    (let s : State := ringed (fun r => { r with offerAt := some 0, offerTok := 9, offerCmd := some (0, 7) }); let a := 0; s.ring.offerAt = some a ∧ s.now < a + sec 1) ∧
    (let s : State := { ringed (fun r => { r with offerAt := some 0, offerTok := 9, offerCmd := some (0, 7) }) with now := sec 1 }; let a := 0; s.ring.offerAt = some a ∧ a + sec 1 ≤ s.now) ∧
    (let s : State := up; s.inserted = false) := by
  decide +kernel

theorem witness_MirrorAndFailoverRows_3 :
    (let first : Nat := 99; let s : State := ringUp; s.inserted = true ∧ first ≠ s.rd rngUpFirst) ∧
    (let first : Nat := 100; let count : Nat := 10; let s : State := ringUp; s.inserted = true ∧ first = s.rd rngUpFirst ∧ count = s.rd rngUpCount) ∧
    (let s : State := up; s.inserted = false) ∧
    (let b : DeltaBody := dbody 110; let s : State := ringUp; s.inUp b.ch.val = false) ∧
    (let b : DeltaBody := dbody 5; let s : State := ringUp; s.inserted = true ∧ s.inUp b.ch.val = false) ∧
    (let b : DeltaBody := dbody 109; let s : State := ringUp; s.inserted = true ∧ s.inUp b.ch.val = true) := by
  decide +kernel

theorem witness_MirrorAndFailoverRows_4 :
    (let b : SettingsBody := sbody 1; let s : State := up; let ch := b.ch.val; (s.inserted = false ∨ s.inUp ch = false)) ∧
    (let b : SettingsBody := sbody 1 [0x070C, 0, 0, 0, 0, 0, 0, 0]; let s : State := ringUp; let ch := b.ch.val; s.inserted = true ∧ s.inUp ch = true ∧ unwrapGroups s.sup.vault.upKey (b.groups.length + 1) b.groups = none) ∧
    (let b : SettingsBody := sbody 0; let s : State := ringUp; let ch := b.ch.val; let plain : List Word64 := []; s.inserted = true ∧ s.inUp ch = true ∧ unwrapGroups s.sup.vault.upKey (b.groups.length + 1) b.groups = some plain ∧ b.state = 0) ∧
    (let b : SettingsBody := sbody 1; let s : State := ringUp; let ch := b.ch.val; let plain : List Word64 := []; let t := (s.installMirror 105 (sbody 1)).getD s; s.inserted = true ∧ s.inUp ch = true ∧ unwrapGroups s.sup.vault.upKey (b.groups.length + 1) b.groups = some plain ∧ b.state ≠ 0 ∧ s.installMirror ch { b with groups := plain } = some t) ∧
    (let b : SettingsBody := sbody 1; let s : State := let t := { ringUp with ing := { ringUp.ing with lat := [(0, { addr := 0, active := false, users := 1 })] } }; (t.installFlows [] (chanFlows 6 0 (chanOfSettings (sbody 1)))).getD up; let ch := b.ch.val; let plain : List Word64 := []; s.inserted = true ∧ s.inUp ch = true ∧ unwrapGroups s.sup.vault.upKey (b.groups.length + 1) b.groups = some plain ∧ b.state ≠ 0 ∧ s.installMirror ch { b with groups := plain } = none) ∧
    (let ch : ChanId := 5; let s : State := ringUp; (s.hm ch.val).settingsAt = none) := by
  decide +kernel

theorem witness_MirrorAndFailoverRows_5 :
    (let ch : ChanId := 5; let s : State := ringUp.modHm 5 (fun h => { h with settingsAt := some 0 }); let a := 0; (s.hm ch.val).settingsAt = some a ∧ s.now < a + ms 1) ∧
    (let ch : ChanId := 5; let s : State := { ringUp.modHm 5 (fun h => { h with settingsAt := some 0 }) with now := ms 1 }; let a := 0; (s.hm ch.val).settingsAt = some a ∧ a + ms 1 ≤ s.now) ∧
    (let ch : ChanId := 5; let s : State := ringUp; ((s.hm ch.val).queued = none ∨ s.mirrored ch.val = false)) ∧
    (let ch : ChanId := 5; let s : State := (ringUp.modHm 5 (fun h => { h with queued := some (dbody 5) })).modLink 0 (fun l => { l with dataAvail := 1000 }); let b := dbody 5; (s.hm ch.val).queued = some b ∧ s.inserted = true ∧ s.mirrored ch.val = true ∧ s.bodyRoom (deltaLen b) = true) ∧
    (let ch : ChanId := 5; let s : State := ringUp; ((s.hm ch.val).syncWant = false ∨ s.now < s.ring.syncNextAt)) ∧
    (let ch : ChanId := 5; let s : State := (ringUp.modHm 5 (fun h => { h with syncWant := true })).modLink 0 (fun l => { l with dataAvail := 1000 }); let b := s.deltaOf ch.val true; s.inserted = true ∧ s.mirrored ch.val = true ∧ (s.hm ch.val).syncWant = true ∧ s.ring.syncNextAt ≤ s.now ∧ s.bodyRoom (deltaLen b) = true) := by
  decide +kernel

theorem witness_MirrorAndFailoverRows_6 :
    (let s : State := up; (s.flag rngPaired = false ∨ s.now < s.ring.lagAt)) ∧
    (let s : State := up.wr rngPaired 1; s.flag rngPaired = true ∧ s.ring.lagAt ≤ s.now) ∧
    (let ch : ChanId := 105; let s : State := ringUp; (s.inserted = false ∨ s.inUp ch.val = false ∨ (s.mir ch.val).delta = none)) ∧
    (let ch : ChanId := 105; let s : State := ringUp.setMir 105 { delta := some dbody }; let b := dbody; s.inserted = true ∧ s.inUp ch.val = true ∧ (s.mir ch.val).delta = some b) ∧
    (let s : State := ringUp; (s.rd rngUpState ≠ 1 ∨ s.now < s.ring.upSeenAt + ms 3)) ∧
    (let s : State := { ringUp.wr rngAutoTake 1 with now := ms 3 }; s.flag rngPaired = true ∧ s.inserted = true ∧ s.rd rngUpState = 1 ∧ s.ring.upSeenAt + ms 3 ≤ s.now ∧ s.flag rngAutoTake = true ∧ s.firstProof = true) := by
  decide +kernel

theorem witness_MirrorAndFailoverRows_7 :
    (let s : State := ringUp; (s.rd rngUpState ≠ 2 ∨ s.flag rngAutoTake = false)) ∧
    (let s : State := (ringUp.wr rngAutoTake 1).wr rngUpState 2; s.flag rngPaired = true ∧ s.inserted = true ∧ s.rd rngUpState = 2 ∧ s.flag rngAutoTake = true ∧ s.firstProof = true ∧ s.ring.mirror = [] ∧ s.ring.demandCmd = none ∧ s.chans = [] ∧ s.ing.lat = []) ∧
    (let s : State := ringUp; s.ring.announceAt = []) ∧
    (let a : Nat := 5; let r : List Nat := [9]; let s : State := ringed (fun r => { r with announceAt := [5, 9] }); s.ring.announceAt = a :: r ∧ s.now < a) ∧
    (let a : Nat := 5; let r : List Nat := [9]; let s : State := { ringed (fun r => { r with announceAt := [5, 9] }) with now := 5 }; s.ring.announceAt = a :: r ∧ a ≤ s.now) ∧
    (let s : State := up; (s.inserted = false ∨ s.ring.live = false)) := by
  decide +kernel

theorem witness_MirrorAndFailoverRows_8 :
    (let s : State := ringUp; s.inserted = true ∧ s.ring.live = true) ∧
    (let s : State := ringUp.wr rngYieldOnDemand 1; s.inserted = true ∧ s.ring.live = true ∧ s.flag rngYieldOnDemand = true) ∧
    (let s : State := ringUp.wr rngYieldOnDemand 0; s.inserted = true ∧ s.ring.live = true ∧ s.flag rngYieldOnDemand = false) ∧
    (let src : Nat := 3; let s : State := ringUp; s.inserted = true ∧ s.ring.live = true ∧ src ≠ s.rd rngPosUp) ∧
    (let src : Nat := 1; let s : State := ringUp; s.inserted = true ∧ s.ring.live = true ∧ src = s.rd rngPosUp ∧ s.rd rngUpState ≠ 5) ∧
    (let src : Nat := 1; let s : State := ringUp.wr rngUpState 5; s.inserted = true ∧ s.ring.live = true ∧ src = s.rd rngPosUp ∧ s.rd rngUpState = 5) := by
  decide +kernel

theorem witness_MirrorAndFailoverRows_9 :
    (let status : FenceStatus := .released; let token : Word32 := 0; let s : State := ringUp; s.ring.demandAt = none ∧ ((status ≠ .alive ∨ token ≠ s.ring.queryTok))) ∧
    (let token : Word32 := 0; let s : State := ringUp; s.ring.demandAt = none ∧ token = s.ring.queryTok) ∧
    (let token : Word32 := 0; let s : State := ringed (fun r => { r with demandAt := some 0, demandCmd := some (0, 7) }); s.ring.demandAt ≠ none ∧ token = s.ring.demandTok) ∧
    (let s : State := ringUp; s.ring.demandAt = none) ∧
    (let s : State := ringed (fun r => { r with demandAt := some 0, demandCmd := some (0, 7) }); let a := 0; s.ring.demandAt = some a ∧ s.now < a + ms 2) ∧
    (let s : State := { ringed (fun r => { r with demandAt := some 0, demandCmd := some (0, 7) }) with now := ms 2 }; let a := 0; s.ring.demandAt = some a ∧ a + ms 2 ≤ s.now ∧ s.inserted = true) := by
  decide +kernel

theorem witness_MirrorAndFailoverRows_10 :
    (let s : State := { ringed (fun r => { r with demandAt := some 0, demandCmd := some (0, 7) }) up with now := ms 2 }; let a := 0; s.ring.demandAt = some a ∧ a + ms 2 ≤ s.now ∧ s.inserted = false) ∧
    (let c : HostCmd := cmd; let s : State := taken 0x51; commandRuns c 0x51 [(1, 7)] false s = true ∧ ((s.flag rngPaired = false ∨ bits c.w1.toNat 0 3 ≠ s.rd rngPosUp ∨ s.inserted = false))) ∧
    (let c : HostCmd := cmd 1; let s : State := taken 0x51 (ringUp.wr rngUpState 5); commandRuns c 0x51 [(1, 7)] false s = true ∧ s.flag rngPaired = true ∧ bits c.w1.toNat 0 3 = s.rd rngPosUp ∧ s.inserted = true ∧ s.rd rngUpState = 5) ∧
    (let c : HostCmd := cmd 1; let s : State := taken 0x51 (ringUp.wr rngUpState 3); commandRuns c 0x51 [(1, 7)] false s = true ∧ s.flag rngPaired = true ∧ bits c.w1.toNat 0 3 = s.rd rngPosUp ∧ s.inserted = true ∧ s.rd rngUpState = 3) ∧
    (let c : HostCmd := cmd 1; let s : State := taken 0x51 (ringed (fun r => { r with demandAt := some 5 }) ringUp); commandRuns c 0x51 [(1, 7)] false s = true ∧ s.flag rngPaired = true ∧ bits c.w1.toNat 0 3 = s.rd rngPosUp ∧ s.inserted = true ∧ s.rd rngUpState ≠ 5 ∧ s.rd rngUpState ≠ 3 ∧ s.ring.demandAt ≠ none) ∧
    (let c : HostCmd := cmd 1; let s : State := taken 0x51 ringUp; commandRuns c 0x51 [(1, 7)] false s = true ∧ s.flag rngPaired = true ∧ bits c.w1.toNat 0 3 = s.rd rngPosUp ∧ s.inserted = true ∧ s.rd rngUpState ≠ 5 ∧ s.rd rngUpState ≠ 3 ∧ s.ring.demandAt = none) := by
  decide +kernel

theorem witness_MirrorAndFailoverRows_11 :
    (let src : Nat := 1; let s : State := up; (src ≠ s.rd rngPosUp ∨ s.inserted = false ∨ s.flag rngPaired = false ∨ s.rd rngUpState = 5)) ∧
    (let src : Nat := 1; let s : State := ringUp; src = s.rd rngPosUp ∧ s.inserted = true ∧ s.flag rngPaired = true ∧ s.rd rngUpState ≠ 5) ∧
    (let s : State := State.reset; ((∀ a, s.ring.holdUntil = some a → s.now < a))) ∧
    (let s : State := ringed (fun r => { r with holdUntil := some 0 }) (ringUp.wr rngUpState 3); let a := 0; s.ring.holdUntil = some a ∧ a ≤ s.now) ∧
    (let s : State := ringUp; s.ring.resumeWait = false) ∧
    (let s : State := ringed (fun r => { r with resumeWait := true, fenced := true }); s.ring.resumeWait = true) := by
  decide +kernel

theorem witness_MirrorAndFailoverRows_12 :
    (let s : State := ringed (fun r => { r with resumeWait := true, fenced := true }); s.ring.resumeWait = true ∧ s.img.warmHold = false) := by
  decide +kernel

/-- The pack as it is read, with these operation descriptors. -/
def packRead (d : List (Nat × List Nat)) : Image :=
  { kind := 1, release := 1, svn := 1, length := 168, keyId := 0, stepMin := 0, stepMax := 0xFF, ifLo := 0, ifHi := 9
    kernels := [(0x10, 1, 0)], descs := d, raw := packBytes, signed := packBytes.take 72 }

set_option maxRecDepth 100000 in
theorem packRead_eq : parseImage packBytes = some (packRead (Config.packDescriptors packBytes)) := by
  unfold parseImage packRead
  simp only [show imageFits packBytes = true by decide +kernel, show leAt packBytes 0x18 4 = 56 by decide +kernel]
  rfl

/-- The supervisor image as it is read. -/
def supRead : Image :=
  { kind := 0, release := 2, svn := 1, length := 336, keyId := 0, stepMin := 0, stepMax := 0xFF, ifLo := 0, ifHi := 9
    accepts := [(0x10, 0x10, 1, 1)], raw := supBytes, signed := supBytes.take 240 }

set_option maxRecDepth 100000 in
theorem supRead_eq : parseImage supBytes = some supRead := by
  unfold parseImage supRead
  simp only [show imageFits supBytes = true by decide +kernel, show leAt supBytes 0x18 4 = 56 by decide +kernel]
  rfl

theorem basePack_eq : basePackOf supBytes = some (packRead (Config.packDescriptors packBytes)) := by
  unfold basePackOf
  rw [show (supBytes.take (supBytes.length - 96)).drop (leAt supBytes 0x20 4 + leAt supBytes 0x24 4) = packBytes by decide +kernel, packRead_eq]
  rfl


/-- The images that pass, where the free constant accepts their signatures and reads no descriptor from the pack (R488, R489). -/
theorem witness_BootAndImageRows_verified (hs : Config.imageSigned 0 supBytes = true) (hd : Config.packDescriptors packBytes = []) :
    (let s := State.reset.wr mbxBootState 3; let t : State := { s with img := { s.img with loadBuf := msetList [] 0 supBytes, verifyLen := 336 } }
     t.rd mbxBootState = 3 ∧ t.romCheck t.pushed = none) := by
  refine ⟨by decide +kernel, ?_⟩
  unfold State.romCheck State.pushed
  simp only
  rw [show mgetList (msetList [] 0 supBytes) 0 336 = supBytes by decide +kernel, supRead_eq, basePack_eq, hd]
  simp only [State.signatureOk, show supRead.keyId = 0 from rfl, hs]
  decide +kernel

/-- A supervisor image is staged. -/
def supStaged : State :=
  let t := taken 0x71
  { t with img := { t.img with stagedSup := some { img 4 with raw := supBytes } } }

theorem witness_BootAndImageRows_activateSup (hs : Config.imageSigned 0 supBytes = true) (hd : Config.packDescriptors packBytes = []) :
    (let c := cmd; let p : Image := { img 4 with raw := supBytes }; let s := supStaged
     s.supChecks p.raw = none ∧ (commandRuns c 0x71 [(1, 3)] false s = true ∧ bits c.w1.toNat 0 2 = 0 ∧ s.activateWaits c = false ∧
       s.img.stagedSup = some p ∧ s.img.activSup = none)) := by
  refine ⟨?_, by decide +kernel⟩
  unfold State.supChecks
  simp only [supRead_eq, basePack_eq, hd, State.signatureOk, show supRead.keyId = 0 from rfl, hs]
  decide +kernel

/-- A pack is staged, and it, or another, is being rolled out. -/
def packStaged (target : Option Image) : State :=
  let t := taken 0x71
  { t with img := { t.img with stagedPack := some { img 4 1 with raw := packBytes }, target := target } }

theorem pack_ok (hs : Config.imageSigned 0 packBytes = true) (hd : Config.packDescriptors packBytes = []) (target : Option Image)
    (h : target = none ∨ target = some (img 3 1)) : (packStaged target).packChecks packBytes = none := by
  unfold State.packChecks
  simp only [packRead_eq, hd, State.signatureOk, show (packRead []).keyId = 0 from rfl, hs]
  rcases h with rfl | rfl <;> decide +kernel

theorem witness_BootAndImageRows_activatePack (hs : Config.imageSigned 0 packBytes = true) (hd : Config.packDescriptors packBytes = []) :
    (let p : Image := { img 4 1 with raw := packBytes }; ∀ target ∈ [none, some (img 3 1)],
     (packStaged target).packChecks p.raw = none) ∧
    (let c := cmd 1; let p : Image := { img 4 1 with raw := packBytes }; ∀ target ∈ [none, some (img 3 1)],
     commandRuns c 0x71 [(1, 3)] false (packStaged target) = true ∧ bits c.w1.toNat 0 2 = 1 ∧
       (packStaged target).img.stagedPack = some p ∧ (packStaged target).img.target = target) :=
  ⟨fun target h => pack_ok hs hd target (by simpa using h), by decide +kernel⟩

/-- A canonical state with a command that writes host-shared memory. -/
theorem witness_CanonicalKept : ∃ s t : State, Canonical s ∧ step s = .next t :=
  ⟨{ hdm with pending := [.cxlMemAccess (hsBase + 64) (.write [1])] }, _, (by decide +kernel : _ ∧ _), rfl⟩

/-- A rank whose last refresh is long past. -/
def refreshed : State :=
  { up.modMc 3 (fun c => { c with banks := [(2, { openRow := some 5 }), (70, { openRow := some 5 })], refreshAt := [(1, 100)] }) with now := sec 1 }

theorem witness_MemoryTrafficRows_refresh :
    (∀ l, (refreshed.mc 3).refreshAt.find? (fun e => e.1 = 1) = some (1, l) → l + 3900 ≤ refreshed.now) ∧
    (unitOn (.dramRefresh 3 1) refreshed ∧ (refreshed.mc 3).refresh2.contains 0 = false ∧
      sorted (refreshed.mc 3).refreshAt = true ∧ sorted (refreshed.mc 3).banks = true) := by
  refine ⟨fun l h => ?_, by decide +kernel⟩
  obtain rfl : 100 = l := by simpa using (show some (1, 100) = some (1, l) from h)
  decide +kernel

/-- An export of a capture with no record whose buffer takes the whole stream. -/
theorem witness_CaptureRows_exportEnds :
    (let x : Capture := { capacity := 4096 }; let j : LakeJob := lakeJob (lakeStream lakeJob x).2.length
     let s : State := { captured5 with cap := { captured5.cap with running := [(1, j)] } }
     (lakeStream j x).2.length ≤ j.length ∧ s.cap.running.find? (fun e => e.1 = 1) = some (1, j) ∧
     (unitOn (.lakeJobEnd 1) s ∧ s.cacheBusy 1 j.qid j.tag = false ∧ s.cap.caps.find? (fun e => e.1 = j.source) = some (j.source, x))) :=
  ⟨Nat.le_refl _, rfl, by decide +kernel⟩

end Sys2Proof.Tests
end

section
/-! Register words: what a 64-bit access does to each field of a word by the field's access type (R7, R8), and the words of the
time base unit and of Steep that the statements about access types name. -/

namespace Sys2Proof.Machine
open Sys2Proof.Safety

theorem bits_lt (w lo n : Nat) : bits w lo n < 2 ^ n := Nat.mod_lt _ (Nat.two_pow_pos n)

/-- A 64-bit access brings every field of its word whole. -/
theorem fieldPart_word (h : Hit) (v : Word64) (hw : h.lo + h.d.width ≤ 64) :
    fieldPart h 0 64 v.toNat = (bits v.toNat h.lo h.d.width, 2 ^ h.d.width - 1) := by
  have hmask : (2 ^ 64 - 1) / 2 ^ h.lo % 2 ^ h.d.width = 2 ^ h.d.width - 1 := by
    apply Nat.eq_of_testBit_eq
    intro i
    simp only [Nat.testBit_mod_two_pow, Nat.testBit_div_two_pow, Nat.testBit_two_pow_sub_one]
    by_cases hi : i < h.d.width <;> simp [hi]; omega
  simp only [fieldPart, bits, Nat.mod_eq_of_lt v.isLt, hmask, pow_zero, mul_one]

/-- A write of a whole RW field takes a value of the field's range and refuses any other. -/
theorem writeField_rw (s : State) {h : Hit} {v : Nat} (ha : h.d.acc = .rw) (hd : h.d ≠ pwrTjWarn) (hv : v < 2 ^ h.d.width) :
    s.writeField h v (2 ^ h.d.width - 1) = if inRange h.d v then s.wr h.d v h.i h.j else s.cfgErr h.d h.i := by
  simp [State.writeField, ha, hd, Nat.and_two_pow_sub_one_eq_mod, Nat.mod_eq_of_lt hv]

/-- A write of a whole W1C field clears the bits written as 1. -/
theorem writeField_w1c (s : State) {h : Hit} {v : Nat} (ha : h.d.acc = .w1c) (hv : v < 2 ^ h.d.width) :
    s.writeField h v (2 ^ h.d.width - 1) = s.wr h.d (s.rd h.d h.i h.j &&& (2 ^ h.d.width - 1 - v)) h.i h.j := by
  simp [State.writeField, ha, Nat.and_two_pow_sub_one_eq_mod, Nat.mod_eq_of_lt hv]

/-- A write of a whole W1S field sets the bits written as 1. -/
theorem writeField_w1s (s : State) {h : Hit} {v : Nat} (ha : h.d.acc = .w1s) (hv : v < 2 ^ h.d.width) :
    s.writeField h v (2 ^ h.d.width - 1) = s.wr h.d (s.rd h.d h.i h.j ||| v) h.i h.j := by
  simp [State.writeField, ha, Nat.and_two_pow_sub_one_eq_mod, Nat.mod_eq_of_lt hv]

/-- A write ignores a read-only field. -/
theorem writeField_ro (s : State) {h : Hit} (v mask : Nat) (ha : h.d.acc = .ro) : s.writeField h v mask = s := by
  simp [State.writeField, ha]

/-- A 64-bit write of a register word writes each of its fields whole. -/
theorem writeReg_word (s : State) {addr : Nat} (v : Word64) (hg : goodAccess addr 64 = true) (ha : addr % 8 = 0)
    (hf : ∀ h ∈ fieldsAt addr, h.lo + h.d.width ≤ 64 ∧ 0 < h.d.width) :
    s.writeReg addr 64 v.toNat =
      (fieldsAt addr).foldl (fun s h => s.writeField h (bits v.toNat h.lo h.d.width) (2 ^ h.d.width - 1)) s := by
  simp only [State.writeReg, State.writeRegBut, hg, accessBits, ha, Nat.sub_zero, Bool.not_true, Bool.false_eq_true, if_false, if_true, Bool.or_false, decide_eq_true_eq]
  refine List.foldl_ext _ _ _ fun t h hh => ?_
  obtain ⟨hw, hp⟩ := hf h hh
  have hm : 2 ^ h.d.width - 1 ≠ 0 := by have := Nat.one_lt_two_pow hp.ne'; omega
  rw [fieldPart_word h v hw, if_neg hm]

/-- What hardware sets in the cycle of a 64-bit write: bits of W1C fields, whole. -/
theorem hwSets_word (s : State) {addr : Nat} (v : Word64) (ha : addr % 8 = 0)
    (hf : ∀ h ∈ fieldsAt addr, h.lo + h.d.width ≤ 64) :
    s.hwSets addr 64 v.toNat = if v.toNat = 0 then s else
      (fieldsAt addr).foldl (fun s h => if h.d.acc = .w1c then s.wr h.d (s.rd h.d h.i h.j ||| bits v.toNat h.lo h.d.width) h.i h.j else s) s := by
  simp only [State.hwSets, accessBits, ha, Nat.sub_zero, if_true]
  split
  · rfl
  refine List.foldl_ext _ _ _ fun t h hh => ?_
  rw [fieldPart_word h v (hf h hh), Nat.and_two_pow_sub_one_eq_mod, Nat.mod_eq_of_lt (bits_lt _ _ _)]

/-- A write that sets no REQ of a book requests no snapshot. -/
theorem markSnaps_eq_self {s t : State} (h : ∀ d ∈ [flwSnapReq, morSnapReq, mbxSnapReq, memSnapReq, rngSnapReq], t.rd d = s.rd d) :
    s.markSnaps t = t := by
  simp only [List.forall_mem_cons, List.not_mem_nil] at h
  simp [State.markSnaps, State.flag, h]

theorem bits_one (w i : Nat) : bits w i 1 = b2n (bit w i) := by
  rcases Nat.mod_two_eq_zero_or_one (w / 2 ^ i) with h | h <;> simp [bits, bit, b2n, h]

/-- The value of a one-bit W1C field after a host's write and what hardware sets in the same cycle: the set wins (R8). -/
theorem w1c_value {old : Nat} (h : old < 2) (clear set : Bool) :
    ((old &&& (1 - b2n clear)) % 2 ||| b2n set) % 2 = if set then 1 else if clear then 0 else old := by
  interval_cases old <;> cases clear <;> cases set <;> decide

/-! ### TIM_STATUS -/

theorem writeReg_timStatus (s : State) (v : Word64) : s.writeReg 0x20008 64 v.toNat =
    (s.wr timCfgErr (s.rd timCfgErr &&& (1 - b2n (bit v.toNat 0)))).wr timRefLost (s.rd timRefLost &&& (1 - b2n (bit v.toNat 2))) := by
  have hkey : timRefLost.key 0 0 ≠ timCfgErr.key 0 0 := by decide
  rw [writeReg_word s v rfl rfl (by rw [fields_timStatus]; decide), fields_timStatus]
  simp only [List.foldl]
  rw [writeField_ro (h := ⟨timRef10m, 0, 0, 1⟩) _ _ _ rfl, writeField_w1c s rfl (bits_lt _ _ _), writeField_w1c _ rfl (bits_lt _ _ _)]
  simp only [State.rd_wr_ne s _ hkey, ← bits_one]
  rfl

theorem hwSets_timStatus (s : State) (v : Word64) : s.hwSets 0x20008 64 v.toNat = if v.toNat = 0 then s else
    (s.wr timCfgErr (s.rd timCfgErr ||| b2n (bit v.toNat 0))).wr timRefLost (s.rd timRefLost ||| b2n (bit v.toNat 2)) := by
  have hkey : timRefLost.key 0 0 ≠ timCfgErr.key 0 0 := by decide
  rw [hwSets_word s v rfl (by rw [fields_timStatus]; decide), fields_timStatus]
  simp only [List.foldl]
  rw [if_pos (c := timRefLost.acc = .w1c) rfl, if_neg (c := timRef10m.acc = .w1c) (by decide), if_pos (c := timCfgErr.acc = .w1c) rfl]
  simp only [State.rd_wr_ne s _ hkey, ← bits_one]
  rfl

/-- A write of TIM_STATUS clears the W1C bits written as 1, but for those that hardware sets in the same cycle. -/
theorem registerWrite_timStatus (v : HostWrite) (s : State) (hl : s.rd timRefLost < 2) (hc : s.rd timCfgErr < 2) :
    Gives (.registerWrite 0x20008 64 v) s (fun t =>
      t.rd timRefLost = (if bit v.sets.toNat 2 then 1 else if bit v.value.toNat 2 then 0 else s.rd timRefLost) ∧
      t.rd timCfgErr = (if bit v.sets.toNat 0 then 1 else if bit v.value.toNat 0 then 0 else s.rd timCfgErr) ∧
      (∀ (d : RegDesc) (i j : Nat), d.key i j ≠ timRefLost.key 0 0 → d.key i j ≠ timCfgErr.key 0 0 → t.rd d i j = s.rd d i j) ∧
      t = { s with regs := t.regs }) := by
  have hkey : timRefLost.key 0 0 ≠ timCfgErr.key 0 0 := by decide
  obtain ⟨t, hu⟩ : ∃ t, t = (s.writeReg 0x20008 64 v.value.toNat).hwSets 0x20008 64 v.sets.toNat := ⟨_, rfl⟩
  have ht := hu
  rw [writeReg_timStatus, hwSets_timStatus] at ht
  have hframe : ∀ (d : RegDesc) (i j : Nat), d.key i j ≠ timRefLost.key 0 0 → d.key i j ≠ timCfgErr.key 0 0 → t.rd d i j = s.rd d i j := by
    intro d i j h1 h2
    rw [ht]
    split <;> simp only [State.rd_wr_ne _ _ h1, State.rd_wr_ne _ _ h2]
  refine ⟨t, ?_, ?_, ?_, hframe, ?_⟩
  · show Host.Outcome.next (s.markSnaps _) = _
    rw [show s.barWrite 0x20008 64 v.value.toNat = s.writeReg 0x20008 64 v.value.toNat from rfl, ← hu, markSnaps_eq_self]
    intro d hd
    refine hframe d 0 0 ?_ ?_ <;> revert d <;> decide
  · rw [← w1c_value hl, ht]
    split
    · next h0 => simp only [State.rd_wr_self, h0]; simp [bit, b2n, timRefLost]
    · simp only [State.rd_wr_self]; rfl
  · rw [← w1c_value hc, ht]
    split
    · next h0 => simp only [State.rd_wr_ne _ _ hkey.symm, State.rd_wr_self, h0]; simp [bit, b2n, timCfgErr]
    · simp only [State.rd_wr_ne _ _ hkey.symm, State.rd_wr_self]; rfl
  · rw [ht]; split <;> rfl

/-! ### TIM_LATCH -/

theorem writeReg_timLatch (s : State) (v : Word64) : s.writeReg 0x20010 64 v.toNat =
    s.wr timLatchReq (s.rd timLatchReq ||| b2n (bit v.toNat 0)) := by
  rw [writeReg_word s v rfl rfl (by rw [fields_timLatch]; decide), fields_timLatch]
  simp only [List.foldl]
  rw [writeField_w1s s rfl (bits_lt _ _ _), ← bits_one]
  rfl

/-- Hardware sets nothing in a word without a W1C field. -/
theorem hwSets_of_no_w1c (s : State) {addr : Nat} (width v : Nat) (h : ∀ h ∈ fieldsAt (addr - addr % 8), h.d.acc ≠ .w1c) :
    s.hwSets addr width v = s := by
  unfold State.hwSets
  split
  · rfl
  rw [List.foldl_ext _ (fun s _ => s) _ (fun t x hx => if_neg (h x hx))]
  exact List.foldl_fixed _

/-- A write of TIM_LATCH sets REQ where the bit is 1. -/
theorem registerWrite_timLatch (v : HostWrite) (s : State) (hr : s.rd timLatchReq < 2) :
    Gives (.registerWrite 0x20010 64 v) s (fun t => t.rd timLatchReq = (if bit v.value.toNat 0 then 1 else s.rd timLatchReq) ∧
      (∀ (d : RegDesc) (i j : Nat), d.key i j ≠ timLatchReq.key 0 0 → t.rd d i j = s.rd d i j) ∧ t = { s with regs := t.regs }) := by
  have hframe := fun (d : RegDesc) (i j : Nat) (h : d.key i j ≠ timLatchReq.key 0 0) =>
    State.rd_wr_ne s (s.rd timLatchReq ||| b2n (bit v.value.toNat 0)) h
  refine ⟨_, ?_, ?_, hframe, rfl⟩
  · show Host.Outcome.next (s.markSnaps ((s.writeReg 0x20010 64 v.value.toNat).hwSets 0x20010 64 v.sets.toNat)) = _
    rw [hwSets_of_no_w1c _ _ _ (by rw [fields_timLatch]; decide), writeReg_timLatch, markSnaps_eq_self]
    intro d hd
    refine hframe d 0 0 ?_
    revert d; decide
  · rw [State.rd_wr_self]
    generalize s.rd timLatchReq = old at hr
    interval_cases old <;> cases bit v.value.toNat 0 <;> decide

/-! ### TIM_PPS_OUT -/

/-- The value that a write of TIM_PPS_OUT brings to WIDTH lies in its range. -/
def ppsWidthOk (w : Nat) : Bool := decide (1 ≤ bits w 4 9) && decide (bits w 4 9 ≤ 500)

/-- The value that a write of TIM_PPS_OUT brings to OFFSET lies in its range. -/
def ppsOffsetOk (w : Nat) : Bool := decide (-500000 ≤ signed 32 (bits w 32 32)) && decide (signed 32 (bits w 32 32) ≤ 500000)


/-- A field that is not one of those with a range of their own kind takes the values from its least to its greatest. -/
theorem inRange_interval {d : RegDesc} (h : d ∉ [timPpsOutOffset, sqBase, cqBase, xqBase, nqBase, lakStateAddr]) (v : Nat) :
    inRange d v = (decide (d.min ≤ v) && decide (v ≤ d.max)) := by
  simp only [List.mem_cons, List.not_mem_nil, or_false, not_or] at h
  obtain ⟨h1, h2, h3, h4, h5, h6⟩ := h
  simp only [inRange, h1, h2, h3, h4, h5, h6, if_false, decide_false, Bool.or_false, Bool.false_eq_true]

/-- A field without bounds takes every value of its width. -/
theorem inRange_unbounded {d : RegDesc} (h : d ∉ [timPpsOutOffset, sqBase, cqBase, xqBase, nqBase, lakStateAddr]) (hmin : d.min = 0)
    (hmax : 2 ^ d.width ≤ d.max) (w lo : Nat) : inRange d (bits w lo d.width) = true := by
  rw [inRange_interval h, hmin, Bool.and_eq_true, decide_eq_true_eq, decide_eq_true_eq]
  exact ⟨Nat.zero_le _, ((bits_lt _ _ _).trans_le hmax).le⟩

/-- A field of TIM is written, or CFG_ERR is set. -/
def State.wrOrErr (s : State) (ok : Bool) (d : RegDesc) (v : Nat) : State := if ok then s.wr d v else s.wr timCfgErr 1

theorem rd_wrOrErr_self (s : State) (ok : Bool) {d : RegDesc} (v : Nat) (h : d.key 0 0 ≠ timCfgErr.key 0 0) :
    (s.wrOrErr ok d v).rd d = if ok then v % 2 ^ d.width else s.rd d := by
  cases ok
  · exact State.rd_wr_ne s _ h
  · exact State.rd_wr_self s d v 0 0

theorem rd_wrOrErr_err (s : State) (ok : Bool) {d : RegDesc} (v : Nat) (h : timCfgErr.key 0 0 ≠ d.key 0 0) :
    (s.wrOrErr ok d v).rd timCfgErr = if ok then s.rd timCfgErr else 1 := by
  cases ok
  · exact State.rd_wr_self s timCfgErr 1 0 0
  · exact State.rd_wr_ne s _ h

theorem rd_wrOrErr_ne (s : State) (ok : Bool) {d d' : RegDesc} (v : Nat) {i j : Nat} (h : d'.key i j ≠ d.key 0 0)
    (he : d'.key i j ≠ timCfgErr.key 0 0) : (s.wrOrErr ok d v).rd d' i j = s.rd d' i j := by
  cases ok
  · exact State.rd_wr_ne s _ he
  · exact State.rd_wr_ne s _ h

theorem wrOrErr_frame (s : State) (ok : Bool) (d : RegDesc) (v : Nat) : s.wrOrErr ok d v = { s with regs := (s.wrOrErr ok d v).regs } := by
  cases ok <;> rfl

theorem writeReg_timPpsOut (s : State) (v : Word64) : s.writeReg 0x20040 64 v.toNat =
    (((s.wr timPpsOutEn (bits v.toNat 0 1)).wr timPpsOutTb (bits v.toNat 1 2)).wrOrErr (ppsWidthOk v.toNat)
      timPpsOutWidth (bits v.toNat 4 9)).wrOrErr (ppsOffsetOk v.toNat) timPpsOutOffset (bits v.toNat 32 32) := by
  have hwidth : inRange timPpsOutWidth (bits v.toNat 4 timPpsOutWidth.width) = ppsWidthOk v.toNat := inRange_interval (by decide) _
  have hoff : inRange timPpsOutOffset (bits v.toNat 32 timPpsOutOffset.width) = ppsOffsetOk v.toNat := if_pos rfl
  rw [writeReg_word s v rfl rfl (by rw [fields_timPpsOut]; decide), fields_timPpsOut]
  simp only [List.foldl]
  rw [writeField_rw s rfl (by decide) (bits_lt _ _ _), writeField_rw _ rfl (by decide) (bits_lt _ _ _),
    writeField_rw _ rfl (by decide) (bits_lt _ _ _), writeField_rw _ rfl (by decide) (bits_lt _ _ _)]
  simp only [inRange_unbounded (d := timPpsOutEn) (by decide) rfl (by decide),
    inRange_unbounded (d := timPpsOutTb) (by decide) rfl (by decide), if_true, hwidth, hoff]
  rfl

/-- The fields of TIM_PPS_OUT, and the flag that a refused one sets. -/
def ppsOutFields : List RegDesc := [timPpsOutEn, timPpsOutTb, timPpsOutWidth, timPpsOutOffset, timCfgErr]

/-- A write of TIM_PPS_OUT gives each field in range its bits, notes a field out of range in CFG_ERR, and changes no other register. -/
theorem rd_writeReg_timPpsOut (s : State) (v : Word64) :
    let w := v.toNat
    let t := s.writeReg 0x20040 64 w
    t.rd timPpsOutEn = bits w 0 1 ∧ t.rd timPpsOutTb = bits w 1 2 ∧
    t.rd timPpsOutWidth = (if ppsWidthOk w then bits w 4 9 else s.rd timPpsOutWidth) ∧
    t.rd timPpsOutOffset = (if ppsOffsetOk w then bits w 32 32 else s.rd timPpsOutOffset) ∧
    t.rd timCfgErr = (if ppsWidthOk w && ppsOffsetOk w then s.rd timCfgErr else 1) ∧
    (∀ (d : RegDesc) (i j : Nat), (∀ f ∈ ppsOutFields, d.key i j ≠ f.key 0 0) → t.rd d i j = s.rd d i j) ∧
    t = { s with regs := t.regs } := by
  intro w t
  have hmod : ∀ lo n, bits w lo n % 2 ^ n = bits w lo n := fun lo n => Nat.mod_eq_of_lt (bits_lt _ _ _)
  rw [show t = _ from writeReg_timPpsOut s v]
  refine ⟨?_, ?_, ?_, ?_, ?_, fun d i j h => ?_, ?_⟩
  · simp (disch := decide) only [rd_wrOrErr_ne, State.rd_wr_ne, State.rd_wr_self]
    exact hmod 0 1
  · simp (disch := decide) only [rd_wrOrErr_ne, State.rd_wr_self]
    exact hmod 1 2
  · simp (disch := decide) only [rd_wrOrErr_ne, rd_wrOrErr_self, State.rd_wr_ne]
    rw [show bits v.toNat 4 9 % 2 ^ timPpsOutWidth.width = bits w 4 9 from hmod 4 9]
  · simp (disch := decide) only [rd_wrOrErr_ne, rd_wrOrErr_self, State.rd_wr_ne]
    rw [show bits v.toNat 32 32 % 2 ^ timPpsOutOffset.width = bits w 32 32 from hmod 32 32]
  · simp (disch := decide) only [rd_wrOrErr_err, State.rd_wr_ne]
    cases ppsWidthOk w <;> cases ppsOffsetOk w <;> simp
  · simp only [ppsOutFields, List.forall_mem_cons] at h
    obtain ⟨h1, h2, h3, h4, h5, -⟩ := h
    rw [rd_wrOrErr_ne _ _ _ h4 h5, rd_wrOrErr_ne _ _ _ h3 h5, State.rd_wr_ne _ _ h2, State.rd_wr_ne _ _ h1]
  · rw [wrOrErr_frame, wrOrErr_frame]; rfl

/-- Where a write takes EN from 0 to 1, TB and OFFSET come into force; else the outputs go on by the old ones (R385). -/
theorem registerWrite_timPpsOut (s : State) (v : HostWrite) :
    let t := s.writeReg 0x20040 64 v.value.toNat
    exec (.registerWrite 0x20040 64 v) s = .next (if !s.flag timPpsOutEn && t.flag timPpsOutEn then t.ppsAdopt else t) := by
  intro t
  show Host.Outcome.next (s.markSnaps ((s.ppsWrite 0x20040 64 v.value.toNat).hwSets 0x20040 64 v.sets.toNat)) = _
  rw [hwSets_of_no_w1c _ _ _ (by rw [fields_timPpsOut]; decide), markSnaps_eq_self]
  · rfl
  intro d hd
  obtain ⟨-, -, -, -, -, hframe, -⟩ := rd_writeReg_timPpsOut s v.value
  have hne : ∀ f ∈ ppsOutFields, d.key 0 0 ≠ f.key 0 0 := by revert d; decide
  unfold State.ppsWrite
  dsimp only
  split
  · exact hframe d 0 0 hne
  · exact hframe d 0 0 hne

/-- Settles O13: TIM_PPS_OUT, TIM_STATUS and TIM_LATCH, each by what its one write does to its fields. -/
theorem fieldsWriteByAccessType : Obligations.FieldsWriteByAccessType := by
  refine ⟨fun v s => ?_, registerWrite_timStatus, registerWrite_timLatch⟩
  have hx := registerWrite_timPpsOut s v
  obtain ⟨hen, htb, hwidth, hoff, herr, hframe, ht⟩ := rd_writeReg_timPpsOut s v.value
  dsimp only at hx hen htb hwidth hoff herr hframe ht
  generalize s.writeReg 0x20040 64 v.value.toNat = t at hx hen htb hwidth hoff herr hframe ht
  have hflag : t.flag timPpsOutEn = (bits v.value.toNat 0 1 != 0) := by rw [State.flag, hen]
  refine ⟨_, hx, ?_⟩
  split
  · next h =>
    simp only [hflag, Bool.and_eq_true, Bool.not_eq_true', bne_iff_ne] at h
    obtain ⟨h1, h2⟩ := h
    refine ⟨hen, htb, hwidth, hoff, herr, hframe, ?_, fun _ _ => ⟨rfl, rfl, ?_⟩, ?_⟩
    · rintro (h | h)
      · exact absurd (h1.symm.trans h) (by decide)
      · exact absurd h h2
    · rw [ht]
      rfl
    · rw [ht]
      rfl
  · next h =>
    simp only [hflag, Bool.and_eq_true, Bool.not_eq_true', bne_iff_ne, not_and, not_not] at h
    refine ⟨hen, htb, hwidth, hoff, herr, hframe, fun _ => by rw [ht], fun h1 h2 => ?_, ?_⟩
    · exact absurd ((h h1).symm.trans h2) (by decide)
    · rw [ht]

end Sys2Proof.Machine
end

section
/-! ### Reads of RC fields, and the state after reset -/
namespace Sys2Proof.Machine
open Sys2Proof.Safety

theorem present_stpRelqHwm (s : State) (i : Nat) : s.present stpRelqHwm i = none := rfl

theorem present_timTxtsTime (s : State) (p : Nat) :
    s.present timTxtsTime p = some (((hostStamps (s.port p)).head?.map (·.time)).getD 0) := rfl

/-- A 64-bit read of a word that holds one field from bit 0 answers it and clears it. -/
theorem readReg_single (s : State) {addr : Nat} (event : Option Nat) {d : RegDesc} {i : Nat} (hg : goodAccess addr 64 = true)
    (ha : addr % 8 = 0) (hf : fieldsAt addr = [⟨d, i, 0, 0⟩]) (hw : 0 < d.width) (hw' : d.width ≤ 64) (hv : s.readField ⟨d, i, 0, 0⟩ < 2 ^ 64) :
    s.readReg addr 64 event =
      State.clearRc { s with host := { s.host with readData := s.readField ⟨d, i, 0, 0⟩, readPoison := false } } event ⟨d, i, 0, 0⟩ := by
  have hmask : 2 ^ d.width - 1 ≠ 0 := by have := Nat.one_lt_two_pow hw.ne'; omega
  have hword : bits (s.readWord addr) 0 64 = s.readField ⟨d, i, 0, 0⟩ := by
    simp only [State.readWord, hf, List.foldl, bits, pow_zero, mul_one, Nat.zero_add, Nat.div_one]
    exact Nat.mod_eq_of_lt hv
  have hpart := fieldPart_word ⟨d, i, 0, 0⟩ 0 (by simpa using hw')
  simp only [State.readReg, hg, ha, hf, accessBits, Nat.sub_zero, Bool.not_true, Bool.false_eq_true, if_false, if_true, List.foldl]
  rw [show (0 : Nat) = (0 : Word64).toNat from rfl] at *
  rw [hpart, if_neg hmask, ← hword]

/-- Settles O3: the reset state lists nothing, so that every store reads as unlisted. -/
theorem stateAfterReset : Obligations.StateAfterReset := by
  exact ⟨rfl, fun _ _ _ => rfl, fun _ => rfl, fun _ => ⟨rfl, rfl⟩, rfl, rfl, fun _ => ⟨rfl, rfl⟩, rfl, rfl, rfl⟩

theorem readField_timTxtsTime {s : State} {p : Nat} {e : TxStamp} (h : (s.port p).txStamps.find? (·.host) = some e) :
    s.readField ⟨timTxtsTime, p, 0, 0⟩ = e.time := by
  have hhead : (hostStamps (s.port p)).head? = some e := by rw [hostStamps, List.head?_filter, h]
  show (s.present timTxtsTime p).getD (s.rd timTxtsTime p) = _
  rw [present_timTxtsTime, hhead]
  rfl

/-- The read of TIM_TXTS_TIME clears nothing but the oldest host entry of its port. -/
theorem clearRc_timTxtsTime {s : State} {p : Nat} {e : TxStamp} (event : Option Nat) (h : (s.port p).txStamps.find? (·.host) = some e) :
    ((s.clearRc event ⟨timTxtsTime, p, 0, 0⟩).port p).txStamps = (s.port p).txStamps.erase e ∧
    (∀ k, k ≠ p → (s.clearRc event ⟨timTxtsTime, p, 0, 0⟩).port k = s.port k) ∧
    s.clearRc event ⟨timTxtsTime, p, 0, 0⟩ = { s with ports := (s.clearRc event ⟨timTxtsTime, p, 0, 0⟩).ports } := by
  refine ⟨?_, fun k hk => State.modPort_port_ne s _ hk, rfl⟩
  refine (congrArg Port.txStamps (State.modPort_port_self s p _)).trans ?_
  simp only [h]

/-- Settles O14: each of the two words holds one RC field. -/
theorem rcFieldClearsOnRead : Obligations.RcFieldClearsOnRead := by
  refine ⟨fun event s hs he => ?_, fun p e s hf he => ?_⟩
  · have hread : s.readField ⟨stpRelqHwm, 0, 0, 0⟩ = s.rd stpRelqHwm := rfl
    have hx := readReg_single s (addr := 0x50018) event rfl rfl fields_relqHwm (by decide) (by decide) (by rw [hread]; omega)
    have hmod : event.getD 0 < 2 ^ 14 := by
      cases event with
      | none => decide
      | some e => simpa using he
    exact ⟨_, congrArg Host.Outcome.next hx, by rw [hread]; rfl,
      (State.rd_wr_self _ stpRelqHwm _ 0 0).trans (Nat.mod_eq_of_lt hmod), rfl⟩
  · have hread := readField_timTxtsTime hf
    have hg : ∀ q : PortId, goodAccess (0x20410 + 0x40 * q.val) 64 = true := by decide
    have hx := readReg_single s none (hg p) (by omega) (fields_txts p p.isLt) (by decide) (by decide) (by rw [hread]; exact he)
    rw [hread] at hx
    obtain ⟨hpop, hports, hrest⟩ := clearRc_timTxtsTime
      (s := { s with host := { s.host with readData := e.time, readPoison := false } }) none hf
    refine ⟨_, congrArg Host.Outcome.next hx, ?_, hpop, hports, ?_⟩
    · rw [hrest]
    · rw [hrest]

end Sys2Proof.Machine
end

section
/-! The sparse stores stay canonical: each operation of the model, from the write of one field up to a whole row, keeps the
register file's keys rising and the host-shared memory canonical. One lemma for each operation, named after it and proved from those of
the operations it calls; `h` is the form of the state it starts from. -/

namespace Sys2Proof.Machine
open Sys2Proof.Safety

/-- Every state that a reply carries is canonical. -/
inductive Reply.Kept : Reply → Prop
  | refuse {st d : Nat} : Kept (.refuse st d)
  | fail {s : State} {st d : Nat} : Canonical s → Kept (.fail s st d)
  | done {s : State} {r2 r3 : Nat} : Canonical s → Kept (.done s r2 r3)
  | publish {s : State} {chans : List Nat} : Canonical s → Kept (.publish s chans)
  | accepted {s : State} : Canonical s → Kept (.accepted s)
  | later {s : State} : Canonical s → Kept (.later s)

theorem Reply.Kept.ite {c : Prop} [Decidable c] {a b : Reply} (ha : a.Kept) (hb : b.Kept) : (if c then a else b).Kept := by
  split
  · exact ha
  · exact hb

end Sys2Proof.Machine

namespace Sys2Proof.Safety.Canonical

open Sys2Proof.Machine Reply

variable {s : State}

/-! ### Control flow and updates of other parts -/

theorem ite {c : Prop} [Decidable c] {a b : State} (ha : Canonical a) (hb : Canonical b) : Canonical (if c then a else b) := by
  split
  · exact ha
  · exact hb

theorem foldl {α : Type} {f : State → α → State} {l : List α} (hf : ∀ t x, Canonical t → Canonical (f t x)) (h : Canonical s) :
    Canonical (l.foldl f s) := by
  induction l generalizing s with
  | nil => exact h
  | cons x r ih => exact ih (hf s x h)

/-- An update of any parts but the registers and the memory. -/
theorem upd {pending now freeCtr sup time ports ing chans slots mor engines saved weldU glaze host cap ring img pwr} (h : Canonical s) :
    Canonical { s with
      pending := pending, now := now, freeCtr := freeCtr, sup := sup, time := time, ports := ports, ing := ing, chans := chans
      slots := slots, mor := mor, engines := engines, saved := saved, weldU := weldU, glaze := glaze, host := host, cap := cap
      ring := ring, img := img, pwr := pwr } := h

/-- An update that leaves the registers and, within the memory, the host-shared bytes. -/
theorem updMem {pending now freeCtr sup time ports ing chans slots mor engines saved weldU glaze host cap ring img pwr mcs pairs
    frameMap nextAlloc caches poisoned} (h : Canonical s) :
    Canonical { s with
      pending := pending, now := now, freeCtr := freeCtr, sup := sup, time := time, ports := ports, ing := ing, chans := chans
      slots := slots, mor := mor, engines := engines, saved := saved, weldU := weldU, glaze := glaze, host := host, cap := cap
      ring := ring, img := img, pwr := pwr
      mem := { s.mem with
        mcs := mcs, pairs := pairs, frameMap := frameMap, nextAlloc := nextAlloc, caches := caches, poisoned := poisoned } } := h

/-- An update of the register file. -/
theorem regs {r} (h : Canonical s) (hr : sorted r = true) : Canonical { s with regs := r } := ⟨hr, h.2⟩

/-- An update of the host-shared bytes. -/
theorem shared {m} (h : Canonical s) (hm : memWf m = true) : Canonical { s with mem := { s.mem with hostShared := m } } := ⟨h.1, hm⟩

theorem getD {o : Option State} (ho : ∀ t, o = some t → Canonical t) (h : Canonical s) : Canonical (o.getD s) := by
  cases o with
  | none => exact h
  | some t => exact ho t rfl

section
variable (h : Canonical s)
include h

/-! ### RegFile -/

theorem wr {d v i j} : Canonical (s.wr d v i j) := ⟨sorted_tset _ _ _ h.1, h.2⟩

theorem bumpBy {d n i j} : Canonical (s.bumpBy d n i j) := .wr h

theorem bump {d i j} : Canonical (s.bump d i j) := .bumpBy h

theorem highWater {d v i j} : Canonical (s.highWater d v i j) := .wr h

/-! ### Ops -/

theorem setChan {ch c} : Canonical (s.setChan ch c) := .upd h

theorem modChan {ch f} : Canonical (s.modChan ch f) := .setChan h

theorem modPort {p f} : Canonical (s.modPort p f) := .upd h

theorem modTb {n f} : Canonical (s.modTb n f) := .upd h

theorem modEng {e f} : Canonical (s.modEng e f) := .upd h

theorem modMe {e f} : Canonical (s.modMe e f) := .upd h

theorem modMc {m f} : Canonical (s.modMc m f) := .updMem h

theorem modHq {q f} : Canonical (s.modHq q f) := .upd h

theorem modLink {x f} : Canonical (s.modLink x f) := .upd h

theorem modWarden {w f} : Canonical (s.modWarden w f) := .upd h

theorem draw : Canonical s.draw := .upd h

theorem whileOn {ds f} (hf : ∀ t, Canonical t → Canonical (f t)) : Canonical (s.whileOn ds f) :=
  .ite h (hf s h)

theorem tclkCycle : Canonical (Machine.tclkCycle s) := .modTb (.modTb (.modTb (.modTb (.upd h))))

theorem msi {v} : Canonical (s.msi v) := .upd h

theorem boot {b} : Canonical (s.boot b) := .ite (.ite (.wr h) h) (.msi (.wr (.ite (.wr h) h)))

theorem logRec {sev e} : Canonical (s.logRec sev e) := .msi (.upd h)

theorem flushEvent {e} : Canonical (s.flushEvent e) := by
  unfold State.flushEvent
  dsimp only
  split
  · exact h
  · exact .ite (.upd h) (.logRec (.upd h))

theorem raiseRec {sev e} : Canonical (s.raiseRec sev e) :=
  .ite (.upd h) (.ite (.bump (.upd (.ite (.flushEvent h) h))) (.logRec (.upd (.ite (.flushEvent h) h))))

theorem raise {code unit inst chan detail0 address detail1} : Canonical (s.raise code unit inst chan detail0 address detail1) :=
  .raiseRec h

theorem unpoison {p} : Canonical (s.unpoison p) := .updMem h

theorem holdPool {k n} : Canonical (s.holdPool k n) := .upd h

theorem syncPools : Canonical s.syncPools := .holdPool (.holdPool h)

theorem backInv {line} : Canonical (s.backInv line) := .ite (.syncPools (.bump (.upd h))) h

theorem hsWrite {off bs} : Canonical (s.hsWrite off bs) := by
  unfold State.hsWrite
  have h1 : ∀ l : List Nat, Canonical (l.foldl State.backInv s) := fun _ => .foldl (fun _ _ h => .backInv h) h
  exact .unpoison (.shared (h1 _) (memWf_msetList _ _ (h1 _).2))

theorem cqSignal {q} : Canonical (s.cqSignal q) := .ite (.msi (.modHq (.modHq h))) (.modHq h)

theorem postCq {q tag status detail res2 res3} : Canonical (s.postCq q tag status detail res2 res3) :=
  .ite h (.cqSignal (.modHq (.wr (.hsWrite h))))

theorem untake {q tag} : Canonical (s.untake q tag) := .ite (.upd h) (.modHq (.upd h))

theorem defer {d} : Canonical (s.defer d) := .upd h

theorem complete {q tag op status detail res2 res3} : Canonical (s.complete q tag op status detail res2 res3) :=
  .ite (.defer h) (.untake (.postCq (.ite (.modHq h) h)))

theorem completeFinal {q tag status res2 res3} : Canonical (s.completeFinal q tag status res2 res3) :=
  .ite (.defer h) (.upd (.postCq h))

theorem take {q tag op w1} : Canonical (s.take q tag op w1) := .modHq (.upd h)

theorem taking {q tag op w1} : Canonical (s.taking q tag op w1) := .ite h (.take h)

theorem markApplied {q tag} : Canonical (s.markApplied q tag) := .upd h

theorem apply {tag chans} : Canonical (s.apply tag chans) := .foldl (fun _ _ h1 => .modChan h1) h

theorem notice {w0 w1 w2 w3} : Canonical (s.notice w0 w1 w2 w3) :=
  .ite (.upd h) (.ite (.bump h) (.msi (.upd (.hsWrite h))))

theorem requestSnap {req b} : Canonical (s.requestSnap req b) := .upd (.wr h)

theorem auditFail {quantity difference} : Canonical (s.auditFail quantity difference) := .raise h

/-! ### RingOps -/

theorem modHm {ch f} : Canonical (s.modHm ch f) := .upd h

theorem setMir {ch m} : Canonical (s.setMir ch m) := .upd h

theorem newToken : Canonical s.newToken := .upd h

theorem sendFrame {x dst n data msg} : Canonical (s.sendFrame x dst n data msg) := .bump (.modLink h)

theorem sendNext {x t} (e : s.sendNext x = some t) : Canonical t := by
  unfold State.sendNext at e
  dsimp only at e
  split at e
  · cases e; exact .sendFrame (.modLink h)
  split at e
  · split_ifs at e
    · cases e; exact .sendFrame (.modLink h)
    · cases e; exact .sendFrame (.modLink h)
  split at e
  · cases e
  · split_ifs at e
    cases e; exact .modLink h

theorem pump {n x} : Canonical (State.pump n s x) := by
  induction n generalizing s with
  | zero => exact h
  | succ n ih =>
    unfold State.pump
    split
    · exact h
    · exact ih (.sendNext h ‹_›)

theorem ringSend {x dst m} : Canonical (s.ringSend x dst m) :=
  .ite h (.ite (.pump (.modLink h)) (.bump (.pump (.modLink h))))

theorem sendTo {dst m} : Canonical (s.sendTo dst m) :=
  .ite (.ringSend h) (.ite (.ringSend h) (.ringSend (.ringSend h)))

theorem sendBoth {dst m} : Canonical (s.sendBoth dst m) := .ringSend (.ringSend h)

theorem sendSettings {ch} : Canonical (s.sendSettings ch) := .upd (.modHm (.ringSend h))

/-! ### Codec -/

theorem replan : Canonical s.replan := .wr h

/-! ### Windows -/

theorem placeWindows {ch judge w0 w1} : Canonical (s.placeWindows ch judge w0 w1) := by
  unfold State.placeWindows
  dsimp only
  split
  · exact .modChan h
  · exact .bumpBy (.modChan h)

theorem nlpUpdate {ch} : Canonical (s.nlpUpdate ch) := .modChan h

theorem applySet {ch x} : Canonical (s.applySet ch x) :=
  .ite (.modChan (.modChan h)) (.ite (.placeWindows (.modChan h)) (.ite (.modChan h) (.placeWindows
    (.modChan h))))

theorem settleEcho {ch} : Canonical (s.settleEcho ch) :=
  .ite h (.nlpUpdate (.foldl (fun _ _ h1 => .applySet h1) (.modChan h)))

/-! ### Frames -/

theorem allocFrame {n kind owner t} (e : s.allocFrame n kind owner = some t) : Canonical t := by
  unfold State.allocFrame at e
  obtain ⟨_, _, rfl⟩ := Option.map_eq_some_iff.mp e
  exact .updMem h

theorem ctxFrame {ch} : Canonical (s.ctxFrame ch) := .ite h (.getD (fun _ e => .allocFrame h e) h)

theorem allocRing {n src t} (e : State.allocRing n s src = some t) : Canonical t := by
  induction n generalizing s with
  | zero => cases e; exact h
  | succ n ih =>
    obtain ⟨u, hu, ht⟩ := Option.bind_eq_some_iff.mp e
    exact ih (.allocFrame h hu) ht

theorem freeRing {src} : Canonical (s.freeRing src) := .updMem h

theorem stopCapture {src} : Canonical (s.stopCapture src) := by
  unfold State.stopCapture
  extract_lets
  split
  · exact h
  · exact .ite (.upd h) (.freeRing (.upd h))

/-! ### Record -/

theorem finishWaits : Canonical s.finishWaits := .foldl (fun _ _ h1 => .complete h1) (.upd h)

theorem settingsDone {ch} : Canonical (s.settingsDone ch) := .finishWaits (.upd h)

theorem meetWaits {ch key final} : Canonical (s.meetWaits ch key final) := .finishWaits (.upd h)

theorem publish {ch} : Canonical (s.publish ch) := by
  unfold State.publish
  extract_lets _ _ _ _ _ _ _ _ _ _ _ _ s2 s3
  have hs2 : Canonical s2 := .setChan (.upd (.unpoison (.foldl (fun _ _ h1 => .backInv h1) h)))
  have hs3 : Canonical s3 := .ite (.replan (.stopCapture hs2)) hs2
  exact .ite hs3 (.meetWaits hs3)

theorem tryPublish {ch} : Canonical (s.tryPublish ch) := .ite (.publish h) h

theorem wantPublish {ch} : Canonical (s.wantPublish ch) := .tryPublish (.modChan h)

theorem endJob {ch f} : Canonical (s.endJob ch f) := .settleEcho (.modChan h)

theorem publishJob {ch} : Canonical (s.publishJob ch) :=
  .endJob (.ite (.ite (.publish (.modChan h)) (.modChan h)) (.tryPublish (.modChan h)))

theorem publishing {c op chans} : Canonical (s.publishing c op chans) :=
  .foldl (fun _ _ h1 => .tryPublish h1) (.foldl (fun _ _ h1 => .sendSettings h1) (.upd (.foldl (fun _ _ h1 =>
    .modChan h1) (.markApplied (.apply h)))))

theorem runCommand {c op used groups f} (hf : ∀ t, Canonical t → (f t).Kept) :
    Canonical (Machine.runCommand c op used groups f s) := by
  unfold Machine.runCommand
  dsimp only
  generalize hs1 : s.taking c.qid.val c.tag.toNat op c.w1.toNat = s1
  have h1 : Canonical s1 := hs1 ▸ .taking h
  refine .ite h (.ite h1 (.ite h1 (.ite (.complete h1) (.ite (.complete h1) (.ite (.complete h1) ?_)))))
  split
  · exact .complete h1
  refine .ite (.complete h1) ?_
  have hr := hf s1 h1
  generalize f s1 = r at hr
  cases hr with
  | refuse => exact .complete h1
  | fail ht => exact .complete ht
  | done ht => exact .complete ht
  | publish ht => exact .publishing ht
  | accepted ht => exact .upd (.complete ht)
  | later ht => exact .markApplied ht

/-! ### Flags -/

theorem cfgErr {d i} : Canonical (s.cfgErr d i) := .wr h

theorem writeField {k v mask} : Canonical (s.writeField k v mask) := by
  unfold State.writeField
  extract_lets
  split
  · exact h
  · exact h
  · exact .wr h
  · exact .wr h
  · exact .wr h
  · exact .ite (.wr h) (.cfgErr h)

theorem writeRegBut {skip addr width v} : Canonical (s.writeRegBut skip addr width v) :=
  .ite (.bump h) (.foldl (fun _ _ h1 => .ite h1 (.writeField h1)) h)

theorem writeReg {addr width v} : Canonical (s.writeReg addr width v) := .writeRegBut h

theorem clearRc {event k} : Canonical (s.clearRc event k) := .ite h (.ite (.modPort h) (.wr h))

theorem readReg {addr width event} : Canonical (s.readReg addr width event) :=
  .ite (.bump (.upd h)) (.foldl (fun _ _ h1 => .ite h1 (.clearRc h1)) (.upd h))

theorem resetRegs {kind inst} : Canonical (s.resetRegs kind inst) := .regs h (sorted_tkeep _ h.1)

/-! ### HostOps -/

theorem takeBuf {c n} : Canonical (s.takeBuf c n) := .upd h

theorem freeBuf {c n} : Canonical (s.freeBuf c n) := .upd h

theorem xqBytes {x pos b} : Canonical (s.xqBytes x pos b) := .ite (.hsWrite h) (.hsWrite (.hsWrite h))

theorem xqWrite {x cls filter port m} : Canonical (s.xqWrite x cls filter port m) :=
  .ite (.bump h) (.msi (.upd (.wr (.xqBytes (.xqBytes h)))))

theorem excNow : Canonical s.excNow := .ite h (.upd h)

theorem exception {q cls filter port m} : Canonical (s.exception q cls filter port m) :=
  .ite (.bump (.excNow h)) (.ite (.bump (.excNow h)) (.xqWrite (.upd (.excNow h))))

theorem capAppend {src r} : Canonical (s.capAppend src r) := by
  unfold State.capAppend
  extract_lets
  split
  · exact h
  · refine .ite h ?_
    split
    · exact .ite (.bump h) (.bump h)
    · extract_lets
      exact .upd h

theorem capFrame {p dir time l} : Canonical (s.capFrame p dir time l) := by
  unfold State.capFrame
  dsimp only
  split
  · exact h
  · exact .ite h (.ite (.bump h) (.capAppend (.upd h)))

/-! ### MorOps -/

theorem idle {e} : Canonical (s.idle e) := .modMe h

theorem markHeld {e} : Canonical (s.markHeld e) := .highWater h

theorem immFree {t} : Canonical (s.immFree t) := .modChan (.freeBuf h)

theorem newNum : Canonical s.newNum := .upd h

theorem trace {d} : Canonical (s.trace d) :=
  .ite h (.ite (.upd h) (.ite (.bump (.wr (.upd (.hsWrite (.upd h))))) (.wr (.upd (.hsWrite (.upd h))))))

theorem traceTask {kind e other reason t} : Canonical (s.traceTask kind e other reason t) := .trace h

theorem traceSkein {kind e other reason k} : Canonical (s.traceSkein kind e other reason k) := .trace h

theorem assignHome {ch t} : Canonical (s.assignHome ch t) := by
  unfold State.assignHome
  extract_lets
  refine .ite h ?_
  split
  · exact .traceTask (.modChan h)
  · split
    · exact h
    · extract_lets
      exact .traceTask (.modChan (.upd h))

theorem raiseSwitch {e} : Canonical (s.raiseSwitch e) := by
  unfold State.raiseSwitch
  dsimp only
  split
  · exact h
  · exact .modEng (.modMe h)

theorem closeSkein {e num} : Canonical (s.closeSkein e num) := by
  unfold State.closeSkein
  split
  · exact h
  · extract_lets
    exact .raiseSwitch (.idle (.traceSkein (.modMe h)))

theorem joinForming {e t} : Canonical (s.joinForming e t) := by
  unfold State.joinForming
  dsimp only
  split
  · exact .ite (.closeSkein (.modMe h)) (.modMe h)
  · exact .ite (.closeSkein (.modMe (.newNum h))) (.modMe (.newNum h))

theorem enlist {e t} : Canonical (s.enlist e t) := .markHeld (.ite (.modMe h) (.joinForming h))

theorem cancelOn {e reason p} : Canonical (s.cancelOn e reason p) :=
  .ite h (.idle (.foldl (fun _ _ h1 => .traceTask (.immFree h1)) (.bumpBy (.bumpBy (.modMe h)))))

theorem cancelAll {ch reason p} : Canonical (s.cancelAll ch reason p) :=
  .foldl (fun _ _ h1 => .cancelOn h1) (.foldl (fun _ _ h1 => .traceTask (.bump (.immFree h1))) (.upd h))

theorem cancelTasks {ch reason imm} : Canonical (s.cancelTasks ch reason imm) := by
  unfold State.cancelTasks
  exact .cancelAll (.foldl (fun _ _ h1 => .traceTask (.bump h1)) (.upd h))

theorem supersede {ch} : Canonical (s.supersede ch) := .ite h (.modChan (.cancelAll h))

theorem jobLost {t} : Canonical (s.jobLost t) := .ite h (.modChan h)

theorem endWaits {ch} : Canonical (s.endWaits ch) :=
  .foldl (fun _ _ h1 => .ite h1 (.foldl (fun _ _ h2 => .joinForming h2) (.modMe h1))) h

theorem laneEnd {t} : Canonical (s.laneEnd t) := by
  unfold State.laneEnd
  exact .tryPublish (.endWaits (.endJob (.immFree h)))

/-! ### Inventory -/

theorem invRebuild : Canonical s.invRebuild :=
  .ite h (.unpoison (.foldl (fun _ _ h1 => .backInv h1) (.upd h)))

/-! ### Ports -/

theorem txDone {p d fate lost} : Canonical (s.txDone p d fate lost) := by
  unfold State.txDone
  dsimp only
  split
  · exact .tryPublish (.modPort (.freeBuf h))
  · exact .modPort (.freeBuf h)

theorem txDiscard {p d fate} : Canonical (s.txDiscard p d fate) := by
  unfold State.txDiscard
  extract_lets s1
  have hs1 : Canonical s1 := by
    unfold s1
    split
    · exact .bump h
    · exact .bump h
    · exact .bump h
    · exact h
  exact .txDone hs1

theorem bringUp {p} : Canonical (s.bringUp p) := .modPort h

theorem portDown {p} : Canonical (s.portDown p) := by
  unfold State.portDown
  dsimp only
  split
  · exact .bringUp (.wr (.wr h))
  · exact .txDiscard (.modPort (.bringUp (.wr (.wr h))))

theorem holdModule {p unread} : Canonical (s.holdModule p unread) := .portDown (.modPort h)

theorem judgeModule {p} : Canonical (s.judgeModule p) := by
  unfold State.judgeModule
  refine .ite (.holdModule h) ?_
  split
  · exact .raise (.holdModule h)
  · exact .bringUp (.modPort h)

theorem ethCfgWrite {p width v} : Canonical (Machine.ethCfgWrite p width v s) :=
  .ite (.writeReg h) (.ite (.judgeModule (.portDown (.wr (.writeReg h)))) (.portDown (.wr (.writeReg h))))

theorem linkUp {p} : Canonical (Machine.linkUp p s) := .ite (.modPort (.wr (.wr (.wr h)))) h

theorem linkStageTimeout {p f} : Canonical (Machine.linkStageTimeout p f s) := .ite h (.bringUp (.wr (.wr h)))

theorem modPrsFall {p info} : Canonical (Machine.modPrsFall p info s) :=
  .ite (.invRebuild (.judgeModule (.holdModule (.modPort (.wr h))))) (.holdModule (.modPort (.wr h)))

theorem readModules : Canonical s.readModules := .foldl (fun _ _ h1 => .ite (.judgeModule h1) h1) h

theorem moduleRemoval {p} : Canonical (Machine.moduleRemoval p s) :=
  .ite (.invRebuild (.holdModule (.modPort (.wr h)))) (.holdModule (.modPort (.wr h)))

theorem moduleFlags {p flags} : Canonical (Machine.moduleFlags p flags s) :=
  .ite h (.ite (.raise (.modPort h)) (.modPort h))

theorem moduleMonitorPoll {p m} : Canonical (Machine.moduleMonitorPoll p m s) :=
  .ite h (.moduleFlags (.modPort h))

theorem rxAccept {p f} : Canonical (s.rxAccept p f) := by
  unfold State.rxAccept
  extract_lets _ _ _ _ _ hit _ _ s1 _ s3
  have hs1 : Canonical s1 := by
    unfold s1 hit
    split
    · exact h
    · exact .bump h
  have hs3 : Canonical s3 := .bumpBy (.capFrame (.bumpBy (.bump hs1)))
  exact .ite (.bump hs1) (.ite (.bump hs3) (.ite (.exception hs3) (.modPort hs3)))

theorem pauseFor {p quanta} : Canonical (s.pauseFor p quanta) := .modPort h

theorem frameReceive {p f} : Canonical (Machine.frameReceive p f s) := by
  unfold Machine.frameReceive
  extract_lets s0 s1
  have hs0 : Canonical s0 := .bumpBy (.bumpBy h)
  have hs1 : Canonical s1 := .bump hs0
  refine .ite h (.ite hs0 ?_)
  split
  · exact .bump hs0
  · exact .bump hs0
  · exact .ite (.pauseFor hs1) hs1
  · exact .rxAccept hs0

theorem pauseExpiry {p} : Canonical (Machine.pauseExpiry p s) := .ite (.modPort h) h

theorem regate {p} : Canonical (s.regate p) := .modPort h

theorem popQ {p q} : Canonical (s.popQ p q) := .modPort h

theorem popHead {p q k} : Canonical (s.popHead p q k) := .ite (.modPort h) (.popQ h)

theorem dropNeverQ {p q n} : Canonical (State.dropNeverQ p q n s) := by
  induction n generalizing s with
  | zero => exact h
  | succ n ih =>
    unfold State.dropNeverQ
    split
    · exact h
    · exact .ite (ih (.txDiscard (.popHead h))) h

theorem dropNever {p} : Canonical (s.dropNever p) := .foldl (fun _ _ h1 => .dropNeverQ h1) h

theorem ethGateCtlWrite {p width v} : Canonical (Machine.ethGateCtlWrite p width v s) :=
  .ite (.bump h) (.ite (.wr h) (.dropNever (.regate (.ite (.modPort (.writeReg h)) (.writeReg h)))))

theorem gateSwap {p} : Canonical (Machine.gateSwap p s) := .ite (.dropNever (.regate (.wr (.wr h)))) h

theorem txPost {p d} : Canonical (s.txPost p d) := .ite (.txDone h) (.modPort h)

theorem transmitDescriptor {p d0} : Canonical (Machine.transmitDescriptor p d0 s) :=
  .ite (.txPost (.takeBuf h)) (.modPort h)

theorem admitWaiting {p n} : Canonical (State.admitWaiting p n s) := by
  induction n generalizing s with
  | zero => exact h
  | succ n ih =>
    unfold State.admitWaiting
    split
    · exact h
    · exact .ite (ih (.txPost (.takeBuf (.modPort h)))) h

theorem stampEntry {p d} : Canonical (s.stampEntry p d).1 := by
  unfold State.stampEntry
  split
  · exact h
  · split_ifs
    · exact .bump h
    · exact .modPort h

theorem txStart {p q k} : Canonical (s.txStart p q k) := by
  unfold State.txStart
  dsimp only
  split
  · exact .modPort (.popHead h)
  · exact .modPort (.stampEntry (.ite (.bump (.popHead h)) (.popHead h)))

theorem frameTransmitStart {p} : Canonical (Machine.frameTransmitStart p s) := by
  unfold Machine.frameTransmitStart
  extract_lets s' s1
  have hs' : Canonical s' := .admitWaiting h
  have hs1 : Canonical s1 := .dropNever hs'
  refine .ite hs' (.ite ?_ (.ite hs' ?_))
  · split
    · exact hs'
    · exact .txDiscard (.popHead hs')
  · split
    · exact hs1
    · exact .ite (.txDiscard (.popHead hs1)) (.txStart hs1)

theorem countTx {d} : Canonical (s.countTx d) := by
  unfold State.countTx
  split
  · exact .modChan h
  · exact h

theorem txNext {p w fate} : Canonical (s.txNext p w fate) :=
  .ite (.txDone (.modPort h)) (.modPort (.modPort h))

theorem frameTransmitEnd {p} : Canonical (Machine.frameTransmitEnd p s) := by
  unfold Machine.frameTransmitEnd
  split
  · exact h
  · extract_lets
    exact .txNext (.countTx (.capFrame (.modPort (.bumpBy (.bump h)))))

theorem txUnderrun {p hostWrite} : Canonical (Machine.txUnderrun p hostWrite s) := by
  unfold Machine.txUnderrun
  dsimp only
  split
  · exact h
  · exact .ite h (.txNext (.modPort (.wr (.bump h))))

/-! ### Time -/

theorem pushTick {n b} : Canonical (s.pushTick n b) := .ite (.bump (.modTb h)) (.modTb h)

theorem tickBoundary {n} : Canonical (Machine.tickBoundary n s) := .ite (.pushTick h) h

theorem applyStep {n d} : Canonical (s.applyStep n d) :=
  .tickBoundary (.foldl (fun _ _ h1 => .ite (.regate h1) h1) (.upd (.bump (.modTb h))))

theorem clearRefusal {n} : Canonical (s.clearRefusal n) := .ite (.raise (.wr (.wr h))) h

theorem steer {n j} : Canonical (s.steer n j) := .modTb (.draw (.draw h))

theorem offsetSample {n x} : Canonical (s.offsetSample n x) := by
  unfold State.offsetSample
  extract_lets _ _ _ s1 s2 _ s2'
  have hs1 : Canonical s1 := .wr (.bump (.modTb h))
  have hs2 : Canonical s2 := .wr hs1
  have hs2' : Canonical s2' := .clearRefusal hs1
  exact .ite h (.ite (.modTb (.wr (.wr (.applyStep hs1)))) (.ite (.ite hs2 (.raise (.bump (.wr (.wr hs2)))))
    (.ite (.bump hs2') (.wr (.steer (.modTb hs2'))))))

theorem servoHoldover {n} : Canonical (Machine.servoHoldover n s) := .ite (.modTb (.wr h)) h

theorem ptpSync {n t1 t2 correction} : Canonical (Machine.ptpSync n t1 t2 correction s) :=
  .ite (.offsetSample h) h

theorem popOwn {p} : Canonical (s.popOwn p) := by
  unfold State.popOwn
  split
  · exact h
  · exact .modPort h

theorem ptpDelayResp {n t1 t2 t3 t4 correction} : Canonical (Machine.ptpDelayResp n t1 t2 t3 t4 correction s) :=
  .ite (.modTb (.popOwn h)) h

theorem ptpAnnounce {n a} : Canonical (Machine.ptpAnnounce n a s) := .ite (.ite h (.modTb h)) h

theorem timLatch : Canonical (Machine.timLatch s) := .wr (.wr (.wr (.wr (.wr h))))

theorem ref10mLock : Canonical (Machine.ref10mLock s) := .upd h

theorem ref10mLoss : Canonical (Machine.ref10mLoss s) := .ite (.raise (.wr (.upd h))) h

theorem ppsInEdge : Canonical (Machine.ppsInEdge s) :=
  .ite (.bump h) (.foldl (fun _ _ h1 => .ite (.offsetSample h1) h1) (.foldl (fun _ _ h1 => .wr h1) (.upd h)))

theorem ppsAdopt : Canonical s.ppsAdopt := .upd h

theorem ppsWrite {addr width v} : Canonical (s.ppsWrite addr width v) :=
  .ite (.ppsAdopt (.writeReg h)) (.writeReg h)

theorem ppsOutEdge : Canonical (Machine.ppsOutEdge s) := .ite (.ppsAdopt (.upd h)) h

theorem timestampPop {p} : Canonical (Machine.timestampPop p s) := .readReg h

theorem applyConfigure {c} : Kept (Machine.applyConfigure c s) := by
  unfold Machine.applyConfigure
  extract_lets _ _ _ _ s1
  have hs1 : Canonical s1 := .wr (.wr (.wr (.wr (.wr h))))
  exact .ite .refuse (.ite .refuse (.ite (.done hs1) (.done (.wr (.modTb (.clearRefusal hs1))))))

theorem timebaseConfigure {c} : Canonical (Machine.timebaseConfigure c s) :=
  .runCommand h fun _ h1 => Canonical.applyConfigure h1

theorem applyFreq {c} : Kept (Machine.applyFreq c s) := .ite .refuse (.ite .refuse (.done (.modTb h)))

theorem timebaseFreq {c} : Canonical (Machine.timebaseFreq c s) :=
  .runCommand h fun _ h1 => Canonical.applyFreq h1

theorem applyLoad {c} : Kept (Machine.applyLoad c s) := .ite .refuse (.done (.wr (.applyStep h)))

theorem timebaseLoad {c} : Canonical (Machine.timebaseLoad c s) :=
  .runCommand h fun _ h1 => Canonical.applyLoad h1

theorem applyHostSample {c} : Kept (Machine.applyHostSample c s) :=
  .ite .refuse (.ite .refuse (.done (.offsetSample (.modTb h))))

theorem timebaseHostSample {c} : Canonical (Machine.timebaseHostSample c s) :=
  .runCommand h fun _ h1 => Canonical.applyHostSample h1

theorem applyAccept {c} : Kept (Machine.applyAccept c s) :=
  .ite .refuse (.done (.wr (.wr (.wr (.applyStep h)))))

theorem timebaseStepAccept {c} : Canonical (Machine.timebaseStepAccept c s) :=
  .runCommand h fun _ h1 => Canonical.applyAccept h1

/-! ### FlowTable -/

theorem setLat {l} : Canonical (s.setLat l) := .wr (.upd h)

theorem latTake {a r} (e : s.latTake a = some r) : Canonical r.1 := by
  unfold State.latTake at e
  split at e
  · cases e; exact .setLat h
  split at e
  · cases e; exact .setLat h
  · cases e

theorem latLeave {a} : Canonical (s.latLeave a) := by
  unfold State.latLeave
  split
  · exact .setLat h
  · exact h

theorem setFlows {t st} : Canonical (s.setFlows t st) := .wr (.wr (.upd h))

theorem placeFlow {f t} (e : s.placeFlow f = some t) : Canonical t := by
  unfold State.placeFlow at e
  split at e
  · cases e
  · cases e; exact .setFlows h

theorem insertFlow {f t} (e : s.insertFlow f = some t) : Canonical t := by
  unfold State.insertFlow at e
  split at e
  · next hp => cases e; exact .placeFlow h hp
  split at e
  · cases e; exact .bump (.setFlows h)
  · cases e

theorem replaceStash : Canonical s.replaceStash := by
  unfold State.replaceStash
  refine .foldl (fun _ _ h1 => ?_) h
  split
  · exact h1
  · exact .setFlows (.placeFlow h1 ‹_›)

theorem removeFlows {keys} : Canonical (s.removeFlows keys) := .ite h (.replaceStash (.setFlows h))

theorem overwriteFlow {e} : Canonical (s.overwriteFlow e) := .upd h

theorem claimFlows {a replaced entries t es} (e : s.claimFlows a replaced entries = .ok (some (t, es))) : Canonical t := by
  unfold State.claimFlows at e
  split at e
  · split at e <;> cases e
  · next hl =>
    split at e
    · cases e
    · cases e; exact .latTake h hl

theorem insertAll {l t} (e : s.insertAll l = some t) : Canonical t := by
  induction l generalizing s with
  | nil => cases e; exact h
  | cons f r ih =>
    unfold State.insertAll at e
    split at e
    · cases e
    · next hf => exact ih (.insertFlow h hf) e

theorem installFlows {replaced new t} (e : s.installFlows replaced new = some t) : Canonical t := by
  unfold State.installFlows at e
  dsimp only at e
  split at e
  · cases e
  · next hi => cases e; exact .removeFlows (.insertAll (.foldl (fun _ _ h1 => .overwriteFlow h1) h) hi)

theorem markSrtp {ch on} : Canonical (s.markSrtp ch on) := .upd h

/-! ### Channels -/

theorem applyOpen {c} : Kept (Machine.applyOpen c s) := by
  unfold Machine.applyOpen
  dsimp only
  split
  · exact .refuse
  split
  · exact .refuse
  split
  · exact .refuse
  · next hclaim =>
    refine .ite .refuse ?_
    split
    · exact .refuse
    · have h1 := claimFlows h hclaim
      refine .ite (.fail (.bump h)) ?_
      split
      · exact .fail (.bump h)
      · next hu => exact .publish (.replan (.ctxFrame (.installFlows (.setChan (.draw (.draw (.draw h1)))) hu)))

theorem chanOpen {c} : Canonical (Machine.chanOpen c s) := .runCommand h fun _ h1 => Canonical.applyOpen h1

theorem letJumpGo {s0 : State} {ch} : Canonical (s.letJumpGo s0 ch) := by
  unfold State.letJumpGo
  split
  · exact .ite (.modChan (.freeBuf h)) h
  · exact h

theorem rephaseIf {s0 : State} {ch} : Canonical (s.rephaseIf s0 ch) := .ite h (.modChan h)

theorem reflow {t : State} {ch g n u} (e : s.reflow t ch g n = .ok u) : Canonical u := by
  unfold State.reflow at e
  dsimp only at e
  split at e
  · cases e
  · next hclaim =>
    split_ifs at e
    split at e
    · cases e
    split at e
    · cases e
    · next hi => cases e; exact .latLeave (.installFlows (.claimFlows h hclaim) hi)

/-- A refusal leaves the state before the command, but for a count. -/
theorem reflow_error {t : State} {ch g n r} (e : t.reflow s ch g n = .error r) : Canonical r.1 := by
  unfold State.reflow at e
  dsimp only at e
  split at e
  · cases e; exact h
  split_ifs at e
  · cases e; exact .bump h
  split at e
  · cases e; exact h
  split at e
  · cases e; exact .bump h
  · cases e

theorem applyModify {c} : Kept (Machine.applyModify c s) := by
  unfold Machine.applyModify
  dsimp only
  split
  · exact .refuse
  split
  · exact .refuse
  have ht : ∀ ch n p, Canonical
    (((((s.setChan ch n).letJumpGo s ch).settleEcho ch).rephaseIf s ch).rephaseIf s p) :=
    fun _ _ _ => .rephaseIf (.rephaseIf (.settleEcho (.letJumpGo (.setChan h))))
  split
  · exact .ite (.fail (.bump h)) (.publish (.replan (ht ..)))
  split
  · next he => exact .fail (.reflow_error h he)
  · next hu => exact .publish (.replan (.reflow (ht ..) hu))

theorem chanModify {c} : Canonical (Machine.chanModify c s) :=
  .runCommand h fun _ h1 => Canonical.applyModify h1

theorem dropFar {ch} : Canonical (s.dropFar ch) := .foldl (fun _ _ h1 => .freeBuf (.modPort h1)) (.modChan h)

theorem applyClose {c} : Kept (Machine.applyClose c s) := by
  unfold Machine.applyClose
  extract_lets _ _ _ _ s2
  have hs2 : Canonical s2 := .modChan (.cancelTasks (.latLeave (.removeFlows h)))
  split
  · exact .refuse
  · exact .refuse
  · exact .publish (.dropFar (.replan (.ite (.modChan hs2) hs2)))

theorem chanClose {c} : Canonical (Machine.chanClose c s) := .runCommand h fun _ h1 => Canonical.applyClose h1

theorem applyBind {c} : Kept (Machine.applyBind c s) :=
  .ite .refuse (.ite .refuse (.ite .refuse (.ite (.fail (.bump h)) (.publish (.replan (.modChan
    (.modChan h)))))))

theorem callBind {c} : Canonical (Machine.callBind c s) := .runCommand h fun _ h1 => Canonical.applyBind h1

theorem applyUnbind {c} : Kept (Machine.applyUnbind c s) :=
  .ite .refuse (.publish (.replan (.modChan (.modChan h))))

theorem callUnbind {c} : Canonical (Machine.callUnbind c s) :=
  .runCommand h fun _ h1 => Canonical.applyUnbind h1

theorem scrub {c} : Canonical (s.scrub c) := by
  unfold State.scrub
  split
  · exact h
  · exact .foldl (fun _ _ h1 => .hsWrite h1) h

theorem setKey {ch g} : Canonical (s.setKey ch g) := .ite (.markSrtp (.modChan h)) (.modChan h)

theorem applyKeySet {c} : Kept (Machine.applyKeySet c s) := by
  unfold Machine.applyKeySet
  dsimp only
  split
  · exact .fail (.scrub h)
  · split
    · exact .fail (.scrub h)
    · exact .ite (.fail (.scrub h)) (.ite (.fail (.scrub h)) (.publish (.foldl (fun _ _ h1 => .setKey h1)
        (.scrub h))))

theorem srtpKeySet {c} : Canonical (Machine.srtpKeySet c s) :=
  .runCommand h fun _ h1 => Canonical.applyKeySet h1

theorem housekeepingPublication {ch} : Canonical (Machine.housekeepingPublication ch s) := .ite (.publish h) h

theorem stateWindowWrite {offset} : Canonical (Machine.stateWindowWrite offset s) := .raise (.bump h)

theorem cacheIssue {rs} : Canonical (s.cacheIssue rs) := .syncPools (.upd h)

theorem applySnapshot {c} : Kept (Machine.applySnapshot c s) :=
  .ite .refuse (.ite .refuse (.ite .refuse (.ite .refuse (.later (.cacheIssue h)))))

theorem snapshot {c} : Canonical (Machine.snapshot c s) :=
  .runCommand h fun _ h1 => Canonical.applySnapshot h1

/-! ### Ingress -/

theorem excSteer {cls p m} : Canonical (s.excSteer cls p m) := by
  unfold State.excSteer
  extract_lets s1
  have hs1 : Canonical s1 := by
    unfold s1
    split
    · exact .bump h
    · exact .bump h
    · exact .bump h
    · exact h
  exact .ite (.exception hs1) hs1

theorem chanTake {c ch n} : Canonical (s.chanTake c ch n) := .modChan (.takeBuf h)

theorem chanFree {c ch n} : Canonical (s.chanFree c ch n) := .modChan (.freeBuf h)

theorem toImmediate {e kind n p} : Canonical (s.toImmediate e kind n p) := .upd (.ite (.modChan h) h)

theorem toSteep {e m n udp p restart} : Canonical (s.toSteep e m n udp p restart) := .upd h

theorem tellRestart {ch arrival p} : Canonical (s.tellRestart ch arrival p) := .upd h

theorem toWeld {e n udp} : Canonical (s.toWeld e n udp) := .upd h

theorem forward {e m kind n imm udp p restart} : Canonical (s.forward e m kind n imm udp p restart) :=
  .ite (.toImmediate (.ite (.tellRestart h) h)) (.ite (.toWeld h) (.toSteep h))

theorem srtpCheck {e m kind n imm udp p} : Canonical (s.srtpCheck e m kind n imm udp p) := by
  unfold State.srtpCheck
  dsimp only
  split
  · exact .modChan (.bump (.chanFree h))
  · exact .modChan (.bump (.chanFree h))
  · exact .forward (.setChan h)

theorem deliver {e m udp} : Canonical (s.deliver e m udp) :=
  .ite (.bump h) (.ite (.bump h) (.ite (.modChan (.bump h)) (.ite (.srtpCheck (.chanTake h)) (.forward
    (.chanTake h)))))

theorem flowLookup {p bad} : Canonical (Machine.flowLookup p bad s) := by
  unfold Machine.flowLookup
  split
  · exact h
  · extract_lets _ _ _ s2 s3
    have hs2 : Canonical s2 := .upd (.bump (.modPort h))
    have hs3 : Canonical s3 := by
      unfold s3
      split
      · exact hs2
      · exact .exception hs2
    split
    · exact .deliver hs3
    · exact .ite hs3 (.excSteer (.ite (.bump hs3) hs3))

theorem previousKeyDiscard {ch} : Canonical (Machine.previousKeyDiscard ch s) := .ite (.setChan h) h

theorem arpRequest {p target solicitation f} : Canonical (Machine.arpRequest p target solicitation f s) := by
  unfold Machine.arpRequest
  split
  · exact h
  · exact .transmitDescriptor h

theorem flowSlotRewrite {slot} : Canonical (Machine.flowSlotRewrite slot s) := .upd h

theorem postPacket {ch t img launch rtp} : Canonical (s.postPacket ch t img launch rtp) :=
  .txPost (.takeBuf h)

theorem closeTxBlock {ch} : Canonical (s.closeTxBlock ch) := by
  unfold State.closeTxBlock
  extract_lets _ _ _ _ _ _ _ s1
  have hs1 : Canonical s1 := .setChan h
  refine .ite h ?_
  split
  · exact hs1
  · exact .foldl (fun _ _ h2 => .postPacket (.bump (.setChan h2))) hs1

theorem sendRtp {ch pt ts mark payload launch} : Canonical (s.sendRtp ch pt ts mark payload launch) :=
  .ite (.closeTxBlock (.postPacket (.setChan (.ite (.bump h) h)))) (.postPacket (.setChan (.ite (.bump h) h)))

theorem egressNext {ch} : Canonical (s.egressNext ch) := by
  unfold State.egressNext
  extract_lets
  split
  · exact h
  · extract_lets
    refine .ite (.postPacket (.setChan h)) ?_
    split
    · exact .sendRtp (.setChan h)
    · refine .ite (.setChan h) ?_
      split
      · exact h
      · extract_lets
        exact .ite (.sendRtp (.setChan h)) (.sendRtp (.setChan h))

theorem waitEgr {t} (ht : Canonical t) : Canonical (Machine.waitEgr s t) := .ite ht h

theorem egressPacketBuild {ch} : Canonical (Machine.egressPacketBuild ch s) := .waitEgr h (.egressNext h)

/-! ### WeldStore -/

theorem modWeld {ch f} : Canonical (s.modWeld ch f) := .modChan h

theorem closeBlock {ch b} : Canonical (s.closeBlock ch b) := .modChan h

theorem openBlock {ch sbn t} (e : s.openBlock ch sbn = some t) : Canonical t := by
  unfold State.openBlock at e
  dsimp only at e
  split_ifs at e
  · cases e; exact h
  · cases e
    refine .modWeld ?_
    split
    · exact .closeBlock h
    · exact h

theorem queueDecode {ch sbn} : Canonical (s.queueDecode ch sbn) := by
  unfold State.queueDecode
  dsimp only
  split
  · exact h
  · exact .ite h (.ite (.bump h) (.highWater (.upd h)))

theorem putSymbol {ch sbn esi k firstSeq sym} : Canonical (s.putSymbol ch sbn esi k firstSeq sym) := by
  unfold State.putSymbol
  extract_lets
  split
  · exact .bump h
  · exact .queueDecode (.modWeld (.openBlock h ‹_›))

theorem sourceSymbol {ch seq udp} : Canonical (s.sourceSymbol ch seq udp) := by
  unfold State.sourceSymbol
  split
  · exact h
  · split
    · exact .bump h
    · exact .putSymbol h

/-! ### Steep -/

theorem modSteep {ch f} : Canonical (s.modSteep ch f) := .modChan h

theorem modCtr {ch f} : Canonical (s.modCtr ch f) := .modChan h

theorem modStats {ch f} : Canonical (s.modStats ch f) := .modChan h

theorem release {ch kind tick share whole pt ts} : Canonical (s.release ch kind tick share whole pt ts) :=
  .highWater (.upd (.modSteep h))

theorem abandon {ch} : Canonical (s.abandon ch) := .ite (.bump (.modCtr (.upd h))) h

theorem concealOffer {ch} : Canonical (s.concealOffer ch) := by
  unfold State.concealOffer
  split
  · exact h
  · extract_lets
    exact .release (.modChan h)

theorem recoverOffer {ch payload pt} : Canonical (s.recoverOffer ch payload pt) := by
  unfold State.recoverOffer
  split
  · exact h
  · extract_lets
    exact .release (.modChan h)

theorem driftCheck {ch a} : Canonical (s.driftCheck ch a) := by
  unfold State.driftCheck
  dsimp only
  split
  · exact h
  · split
    · exact .modSteep h
    · exact .ite (.modSteep h) (.ite (.raise (.modSteep (.modChan (.modSteep h)))) (.modChan (.modSteep h)))

theorem storeSlot {ch seq ts k} : Canonical (s.storeSlot ch seq ts k) := .sourceSymbol (.bump (.modChan h))

theorem anchor {ch seq ts k} : Canonical (s.anchor ch seq ts k) := by
  unfold State.anchor
  exact .modChan (.storeSlot (.setChan h))

theorem pktDone {k} : Canonical (s.pktDone k) := .chanFree h

theorem jump {k} : Canonical (s.jump k) := by
  unfold State.jump
  extract_lets _ s1
  have hs1 : Canonical s1 := .bump h
  split
  · extract_lets
    exact .ite (.pktDone (.modChan (.storeSlot (.anchor (.modSteep (.pktDone (.cancelTasks (.bump hs1))))))))
      (.modSteep (.pktDone hs1))
  · exact .modSteep hs1

theorem noJump {ch} : Canonical (s.noJump ch) := by
  unfold State.noJump
  split
  · exact h
  · exact .modSteep (.pktDone h)

theorem countDup {ch i} : Canonical (s.countDup ch i) := .modChan h

theorem place {k ts} : Canonical (s.place k ts) := by
  unfold State.place
  extract_lets _ _ _ _ _ s1
  have hs1 : Canonical s1 := .noJump h
  exact .ite (.ite (.pktDone (.modChan (.countDup hs1))) (.pktDone (.modChan (.storeSlot hs1)))) (.ite (.ite
    (.pktDone (.modChan (.countDup hs1))) (.pktDone (.modChan (.sourceSymbol (.bump (.modChan hs1))))))
    (.jump h))

theorem restartStream {ch seq} : Canonical (s.restartStream ch seq) :=
  .modSteep (.cancelTasks (.bump (.noJump h)))

theorem steepPacket {k} : Canonical (s.steepPacket k) := .ite (.pktDone (.anchor h)) (.place h)

theorem textReceive {k} : Canonical (s.textReceive k) := by
  unfold State.textReceive
  dsimp only
  split
  · exact h
  · exact .modChan (.bumpBy h)

theorem steepRingWrite : Canonical (Machine.steepRingWrite s) := by
  unfold Machine.steepRingWrite
  extract_lets
  split
  · exact h
  · extract_lets s0 _ s0' _ _ s1 _ s2
    have hs0 : Canonical s0 := .upd h
    have hs0' : Canonical s0' := .ite (.restartStream hs0) hs0
    have hs1 : Canonical s1 := .modChan (.modCtr hs0')
    have hs2 : Canonical s2 := .ite (.bump hs1) hs1
    exact .ite (.pktDone hs0) (.ite hs0' (.ite (.pktDone (.textReceive (.noJump hs1))) (.ite (.pktDone (.bump
      (.noJump hs1))) (.ite (.pktDone (.modStats (.noJump hs1))) (.ite (.pktDone (.bump (.noJump hs2)))
      (.driftCheck (.modChan (.steepPacket hs2))))))))

theorem transitWindowAge {ch} : Canonical (Machine.transitWindowAge ch s) := .modChan h

theorem tickAct {ch tick l} : Canonical (s.tickAct ch tick l) := by
  unfold State.tickAct
  dsimp only
  split
  · exact .release (.setChan h)
  · exact .release (.setChan h)
  · exact .bump (.setChan h)
  · exact .bump (.bump (.setChan h))

theorem grow {ch tick forced} : Canonical (s.grow ch tick forced) := .release (.bump (.setChan h))

theorem shrink {ch tick l} : Canonical (s.shrink ch tick l) := by
  unfold State.shrink
  dsimp only
  split
  · exact .release (.setChan (.bump h))
  · exact .tickAct (.setChan (.bump h))
  · exact .setChan (.bump h)

theorem rephaseAt {ch tick} : Canonical (s.rephaseAt ch tick) := .ite h (.modChan (.modSteep h))

theorem fullTick {ch tick} : Canonical (s.fullTick ch tick) := by
  unfold State.fullTick
  extract_lets _ _ _ _ _ _ _ _ s1 _ _ s3
  have hs1 : Canonical s1 := by
    unfold s1
    split
    · exact .grow h
    · exact .shrink h
    · exact .tickAct h
  have hs3 : Canonical s3 := .modChan (.ite (.bump hs1) hs1)
  exact .ite (.rephaseAt hs3) hs3

theorem ownTick {ch tick} : Canonical (s.ownTick ch tick) :=
  .ite (.fullTick h) (.rephaseAt (.release (.modSteep h)))

theorem saffronTick {ch tick} : Canonical (s.saffronTick ch tick) :=
  .release (.abandon (.ite (.ownTick (.modSteep h)) (.release (.modSteep h))))

theorem playTick {ch} : Canonical (s.playTick ch) :=
  .ite (.saffronTick (.modSteep (.abandon (.concealOffer h)))) (.ownTick (.modSteep (.abandon
    (.concealOffer h))))

theorem runTicks {n tb bound} : Canonical (State.runTicks n tb bound s) := by
  induction n generalizing s with
  | zero => exact h
  | succ n ih =>
    unfold State.runTicks
    refine .ite h ?_
    split
    · exact h
    · exact ih (.playTick h)

theorem tickEntryTaken {tb} : Canonical (Machine.tickEntryTaken tb s) := by
  unfold Machine.tickEntryTaken
  dsimp only
  split
  · exact h
  · exact .ite h (.ite (.modTb h) (.ite (.runTicks h) (.modTb (.runTicks h))))

theorem playoutTick {ch} : Canonical (Machine.playoutTick ch s) := .ite (.playTick h) h

theorem forceAfterExpiry {ch} : Canonical (Machine.forceAfterExpiry ch s) := .ite (.modSteep h) h

theorem ringMove {ch} : Canonical (Machine.ringMove ch s) := .modSteep h

/-! ### Weld -/

theorem weldOffer {ch} : Canonical (Machine.weldOffer ch s) := by
  unfold Machine.weldOffer
  extract_lets
  split
  · exact h
  · extract_lets _ s2
    have hs2 : Canonical s2 := .bumpBy (.bump h)
    refine .ite (.concealOffer h) ?_
    split
    · exact .recoverOffer (.modStats (.bump hs2))
    · split
      · exact .recoverOffer (.modStats (.bump hs2))
      · exact .concealOffer hs2

theorem weldAnswerTimeout {ch} : Canonical (Machine.weldAnswerTimeout ch s) := .ite (.concealOffer h) h

theorem repairWrite {ch r} : Canonical (s.repairWrite ch r) := .ite (.putSymbol h) h

theorem repairSymbolReceive {ch r} : Canonical (Machine.repairSymbolReceive ch r s) := by
  unfold Machine.repairSymbolReceive
  dsimp only
  split
  · exact h
  · split
    · exact .chanFree (.upd h)
    · exact .ite (.repairWrite (.chanFree (.upd h))) h

theorem decodeJobStart {u} : Canonical (Machine.decodeJobStart u s) := by
  unfold Machine.decodeJobStart
  extract_lets
  split
  · exact h
  · extract_lets
    refine .ite h ?_
    split
    · exact .upd h
    · extract_lets
      exact .bumpBy (.bump (.upd h))

theorem storeRecovered {ch seq plain} : Canonical (s.storeRecovered ch seq plain) :=
  .ite h (.ite (.modStats (.bump h)) (.ite h (.modWeld h)))

theorem solvedPacket {ch first e} : Canonical (s.solvedPacket ch first e) := by
  unfold State.solvedPacket
  dsimp only
  split
  · exact .storeRecovered h
  · split
    · exact .storeRecovered (.ite (.tellRestart (.setChan h)) (.setChan h))
    · exact .modCtr (.bump h)
    · exact .modCtr (.bump h)

theorem decodeJobEnd {u} : Canonical (Machine.decodeJobEnd u s) := by
  unfold Machine.decodeJobEnd
  dsimp only
  split
  · exact h
  · split
    · exact .upd h
    · exact .foldl (fun _ _ h1 => .solvedPacket h1) (.modStats (.modWeld (.upd h)))

theorem ffBlockTimeout {ch} : Canonical (Machine.ffBlockTimeout ch s) := .ite (.waitEgr h (.closeTxBlock h)) h

theorem applyFec {c} : Kept (Machine.applyFec c s) := by
  unfold Machine.applyFec
  dsimp only
  split
  · exact .refuse
  · split
    · exact .refuse
    · split
      · exact .refuse
      · split
        · exact .fail (.bump h)
        · exact .publish (.modChan (.installFlows h ‹_›))

theorem fecSet {c} : Canonical (Machine.fecSet c s) := .runCommand h fun _ h1 => Canonical.applyFec h1

/-! ### Echo -/

theorem modEcho {ch f} : Canonical (s.modEcho ch f) := .modChan h

theorem placeConfirmed {ch} : Canonical (s.placeConfirmed ch) := by
  unfold State.placeConfirmed
  dsimp only
  split
  · exact .modEcho h
  · exact .ite (.modEcho h) (.modEcho (.placeWindows (.modEcho h)))

theorem woadSearch {ch q} : Canonical (Machine.woadSearch ch q s) := by
  unfold Machine.woadSearch
  extract_lets _ _ s1 s2
  have hs1 : Canonical s1 := .modChan (.bump h)
  have hs2 : Canonical s2 := .ite (.bump hs1) hs1
  refine .ite h ?_
  split
  · exact .bump hs2
  · extract_lets s3
    have hs3 : Canonical s3 := .modEcho hs2
    exact .ite hs3 (.modEcho (.modChan (.bump hs3)))

theorem servedBy {ch q t} : Canonical (s.servedBy ch q t) := .ite h (.modEcho h)

theorem applyEcho {c} : Kept (Machine.applyEcho c s) := by
  unfold Machine.applyEcho
  dsimp only
  split
  · exact .refuse
  · split
    · exact .refuse
    · exact .publish (.replan (.settleEcho (.modChan h)))

theorem ecSet {c} : Canonical (Machine.ecSet c s) := .runCommand h fun _ h1 => Canonical.applyEcho h1

theorem cancel {ch t sin quiet obs} : Canonical (s.cancel ch t sin quiet obs).1 := by
  unfold State.cancel
  dsimp only
  refine .nlpUpdate ?_
  split
  · exact .bump (.upd (.setChan h))
  · exact .upd (.setChan h)

theorem nlpHoldEnd {ch} : Canonical (Machine.nlpHoldEnd ch s) := by
  unfold Machine.nlpHoldEnd
  extract_lets
  split
  · exact .ite (.nlpUpdate (.modEcho h)) h
  · exact h

theorem doubleTalkEnd {ch} : Canonical (Machine.doubleTalkEnd ch s) := .ite (.nlpUpdate (.modEcho h)) h

theorem nlpHangEnd {ch} : Canonical (Machine.nlpHangEnd ch s) := .ite (.nlpUpdate h) h

theorem disablerRelease {ch} : Canonical (Machine.disablerRelease ch s) := .ite (.nlpUpdate (.modEcho h)) h

/-! ### Glaze -/

theorem swapNow {target xfade} : Canonical (s.swapNow target xfade) :=
  .ite (.wr h) (.upd (.bump (.wr (.wr h))))

theorem glzBankWrite {addr width v} : Canonical (Machine.glzBankWrite addr width v s) :=
  .ite (.wr (.writeReg h)) (.ite (.upd (.wr (.writeReg h))) (.swapNow (.wr (.writeReg h))))

theorem fadingEnd : Canonical (Machine.fadingEnd s) := by
  unfold Machine.fadingEnd
  extract_lets _ s1
  have hs1 : Canonical s1 := .upd h
  split
  · exact h
  · refine .ite h ?_
    split
    · exact hs1
    · exact .swapNow hs1

theorem coefWrite {off width v} : Canonical (s.coefWrite off width v) := .ite (.wr h) (.upd h)

theorem modJobEng {j f} : Canonical (s.modJobEng j f) := .ite (.upd h) (.ite (.modEng h) h)

theorem glazeStart {k} : Canonical (Machine.glazeStart k s) := by
  unfold Machine.glazeStart
  dsimp only
  split
  · exact h
  · exact .ite h (.upd h)

theorem glazeLane {k j d lane} : Canonical (s.glazeLane k j d lane) :=
  .ite h (.bumpBy (.bumpBy (.bump (.upd (.modJobEng (.modEng h))))))

theorem glazeComplete {k} : Canonical (Machine.glazeComplete k s) := by
  unfold Machine.glazeComplete
  extract_lets
  split
  · exact h
  · extract_lets _ _ _ s2
    have hs2 : Canonical s2 := .modEng (.upd h)
    exact .ite h (.modJobEng (.upd (.modEng (.modEng (.bump (.ite (.foldl (fun _ _ h3 => .glazeLane h3) hs2)
      (.bump hs2)))))))

/-! ### Tones -/

theorem modTone {ch f} : Canonical (s.modTone ch f) := .modChan h

theorem toneNotice {ch code stop rx onset durMs} : Canonical (s.toneNotice ch code stop rx onset durMs) :=
  .ite (.notice h) h

theorem genDone {ch dir} : Canonical (s.genDone ch dir) :=
  .ite (.notice (.bump (.modTone h))) (.bump (.modTone h))

theorem stopGen {ch code stop till} : Canonical (s.stopGen ch code stop till) := by
  unfold State.stopGen
  extract_lets f
  have hf : ∀ dir t, Canonical t → Canonical (f t dir) := by
    intro dir t ht
    unfold f
    split
    · exact .ite (.genDone (.modTone ht)) ht
    · exact ht
  exact hf 1 _ (hf 0 _ h)

theorem sounds {on code level dur} : Canonical (s.sounds on code level dur) := .modChan h

theorem genStep {ch dir on dur} : Canonical (s.genStep ch dir on dur) := by
  unfold State.genStep
  dsimp only
  split
  · exact .modTone h
  · exact .ite (.genDone (.sounds (.modTone (.modTone h)))) (.sounds (.modTone (.modTone h)))

theorem emitEvents {b} : Canonical (s.emitEvents b) := .setChan h

theorem startTx {ch g back} : Canonical (s.startTx ch g back) := .ite h (.bump (.modTone h))

theorem updateTx {ch code ns ended} : Canonical (s.updateTx ch code ns ended) := .ite h (.modTone h)

theorem endSignal {ch g} : Canonical (s.endSignal ch g) := .updateTx (.stopGen (.toneNotice (.modTone h)))

theorem setVbd {ch st} : Canonical (s.setVbd ch st) := .ite (.modChan (.modChan h)) (.modChan h)

theorem suspendTones {ch} : Canonical (s.suspendTones ch) := .foldl (fun _ _ h1 => .endSignal h1) h

theorem vbdDeclared {ch code} : Canonical (s.vbdDeclared ch code) := by
  unfold State.vbdDeclared
  extract_lets _ _ s1 s2 _ s3
  have hs1 : Canonical s1 := .modChan h
  have hs2 : Canonical s2 := .ite (.modChan hs1) hs1
  have hs3 : Canonical s3 := .setVbd hs2
  exact .ite h (.ite (.ite (.bump hs2) hs2) (.suspendTones (.ite (.suspendTones hs3) hs3)))

theorem declare {ch g back} : Canonical (s.declare ch g back) :=
  .vbdDeclared (.startTx (.stopGen (.toneNotice (.modChan (.modTone (.bump (.foldl (fun _ _ h1 =>
    .endSignal h1) h)))))))

theorem toneObserve {ch start o} : Canonical (s.toneObserve ch start o) := by
  unfold State.toneObserve
  extract_lets _ _ _ _ _ _ _ s1
  have hs1 : Canonical s1 := .modTone h
  refine .ite (.ite (.foldl (fun _ _ h2 => .endSignal h2) hs1) (.updateTx hs1)) (.ite h (.ite h ?_))
  split
  · exact .declare h
  · exact h
  · exact .ite (.declare (.draw h)) (.draw h)

theorem rxEventEnd {ch} : Canonical (s.rxEventEnd ch) := by
  unfold State.rxEventEnd
  dsimp only
  split
  · exact h
  · exact .toneNotice (.modTone h)

theorem rxEventBegin {ch e} : Canonical (s.rxEventBegin ch e) :=
  .ite (.bump (.toneNotice (.modTone (.bump h)))) (.toneNotice (.modTone (.bump h)))

theorem rxEventPacket {ch ts p} : Canonical (s.rxEventPacket ch ts p) := by
  unfold State.rxEventPacket
  dsimp only
  refine .ite h (.ite (.modStats h) (.ite (.bump h) ?_))
  split
  · exact .ite (.ite (.rxEventEnd (.modTone h)) (.modTone h)) (.ite (.rxEventEnd (.rxEventBegin
      (.rxEventEnd h))) (.rxEventBegin (.rxEventEnd h)))
  · exact .ite h (.ite (.rxEventEnd (.rxEventBegin h)) (.rxEventBegin h))

theorem eventTimeout {ch} : Canonical (Machine.eventTimeout ch s) := .ite (.rxEventEnd h) h

theorem regenStep {a b dur} : Canonical (s.regenStep a b dur) := by
  unfold State.regenStep
  extract_lets
  split
  · exact h
  · extract_lets _ s1 s1' _ s1''
    have hs1 : Canonical s1 := .modTone h
    have hs1' : Canonical s1' := .modTone h
    have hs1'' : Canonical s1'' := .sounds (.modTone h)
    split
    · exact .ite h (.ite (.bump (.modTone hs1)) (.sounds hs1))
    · exact .ite (.ite (.modTone (.modTone hs1')) hs1') (.ite (.modTone hs1'') hs1'')

theorem toneJob {ch start dur obs out} : Canonical (s.toneJob ch start dur obs out).1 := by
  unfold State.toneJob
  dsimp only
  have h1 := foldl (l := inBlockOrder obs) (fun t o ht => toneObserve (ch := ch) (start := start)
    (o := o) ht) h
  split
  · dsimp only
    exact .modTone (.upd h1)
  · dsimp only
    exact .emitEvents (.genStep (.genStep (.regenStep (.modTone (.upd h1)))))

theorem applyToneSet {c} : Kept (Machine.applyToneSet c s) := by
  unfold Machine.applyToneSet
  dsimp only
  split
  · exact .refuse
  · split
    · exact .refuse
    · exact .publish (.modChan h)

theorem toneSet {c} : Canonical (Machine.toneSet c s) := .runCommand h fun _ h1 => Canonical.applyToneSet h1

theorem applyToneGen {c} : Kept (Machine.applyToneGen c s) := by
  unfold Machine.applyToneGen
  extract_lets
  refine .ite .refuse ?_
  split
  · exact .refuse
  · extract_lets
    refine .ite .refuse ?_
    split
    · exact .refuse
    · split
      · exact .refuse
      · split
        · exact .refuse
        · extract_lets
          exact .publish (.modTone h)

theorem toneGen {c} : Canonical (Machine.toneGen c s) := .runCommand h fun _ h1 => Canonical.applyToneGen h1

/-! ### Saffron -/

theorem modVbd {ch f} : Canonical (s.modVbd ch f) := .modChan h

theorem endEvents {ch} : Canonical (s.endEvents ch) := .foldl (fun _ _ h1 => .modTone h1) h

theorem vbdIdle {ch} : Canonical (s.vbdIdle ch) :=
  .foldl (fun _ _ h1 => .nlpUpdate h1) (.endEvents (.setVbd h))

theorem vbdReturnIdle {ch} : Canonical (Machine.vbdReturnIdle ch s) := .ite (.vbdIdle h) h

theorem enterRelay {ch mode f} : Canonical (s.enterRelay ch mode f) :=
  .endEvents (.abandon (.modChan (.setChan h)))

theorem faxParams {ch f} : Canonical (s.faxParams ch f) := .foldl (fun _ _ h1 => .modChan h1) h

theorem keepVbds {ch} : Canonical (s.keepVbds ch) := .foldl (fun _ _ h1 => .modChan h1) h

theorem faxEffect {ch gs f} : Canonical (s.faxEffect ch gs f) := by
  unfold State.faxEffect
  extract_lets s' _ _ _ _ t
  have hs' : Canonical s' := .keepVbds h
  have ht : Canonical t := .faxParams hs'
  exact .ite (.ite (.abandon (.endEvents (.modChan (.modChan ht)))) (.vbdIdle (.modChan ht))) (.ite (.ite
    (.faxParams hs') (.foldl (fun _ _ h6 => .modVbd (.suspendTones h6)) (.endEvents (.setVbd
    (.faxParams hs'))))) (.ite (.faxParams hs') (.foldl (fun _ _ h6 => .suspendTones h6) (.enterRelay hs'))))

theorem applyFax {c} : Kept (Machine.applyFax c s) := by
  unfold Machine.applyFax
  dsimp only
  refine .ite .refuse ?_
  split
  · exact .refuse
  split
  · exact .refuse
  refine .ite ?_ (.ite ?_ (.ite (.fail (.bump h)) (.publish (.replan (.faxEffect h)))))
  · split
    · exact .refuse
    refine .ite (.fail (.bump h)) ?_
    split
    · exact .fail (.bump h)
    · next hu => exact .publish (.replan (.installFlows (.faxEffect h) hu))
  · split
    · next he => exact .fail (.reflow_error h he)
    · next hu => exact .publish (.replan (.reflow (.faxEffect h) hu))

theorem faxMode {c} : Canonical (Machine.faxMode c s) := .runCommand h fun _ h1 => Canonical.applyFax h1

theorem detected {ch} : Canonical (s.detected ch) := .foldl (fun _ _ h1 => .modVbd h1) (.bump h)

theorem rxDetect {ch o} : Canonical (s.rxDetect ch o) := .ite (.detected (.modVbd h)) (.modVbd h)

theorem setModulation {ch m} : Canonical (s.setModulation ch m) := .foldl (fun _ _ h1 => .modVbd h1) h

theorem rxRestart {ch count} : Canonical (s.rxRestart ch count) := .modVbd h

theorem rxUnqualified {ch o} : Canonical (s.rxUnqualified ch o) := by
  unfold State.rxUnqualified
  extract_lets _ _ _ s1 s2
  have hs1 : Canonical s1 := .modVbd h
  have hs2 : Canonical s2 := .ite (.modVbd hs1) hs1
  exact .ite (.rxRestart (.bump h)) (.ite (.setModulation (.modVbd (.bump hs2))) (.ite (.rxRestart
    (.bump hs2)) hs2))

theorem rxQualified {ch o} : Canonical (s.rxQualified ch o) := .modVbd (.ite (.bump h) h)

theorem pageDone {ch} : Canonical (s.pageDone ch) := .foldl (fun _ _ h1 => .modVbd h1) (.bump h)

theorem frameRelayed {relay to_ f} : Canonical (s.frameRelayed relay to_ f) :=
  .ite (.modVbd h) (.ite (.pageDone (.modVbd h)) h)

theorem sendIfp {relay image ifp} : Canonical (s.sendIfp relay image ifp) := .bump (.setChan h)

theorem relayIfp {relay x} : Canonical (s.relayIfp relay x) :=
  .ite (.sendIfp h) (.foldl (fun _ _ h1 => .sendIfp h1) h)

theorem toModem {relay p} : Canonical (s.toModem relay p) := by
  unfold State.toModem
  dsimp only
  split
  · exact h
  · split
    · exact .ite (.frameRelayed (.modVbd h)) (.modVbd h)
    · exact .modVbd (.ite (.frameRelayed (.modVbd h)) (.modVbd h))
  · exact .modVbd h
  · exact .modVbd h
  · exact .modVbd h

theorem drainIfps {n ch} : Canonical (State.drainIfps n ch s) := by
  induction n generalizing s with
  | zero => exact h
  | succ n ih =>
    unfold State.drainIfps
    dsimp only
    split
    · exact .modVbd h
    · exact ih (.toModem (.modVbd h))

theorem fillGap {ch seq packet} : Canonical (s.fillGap ch seq packet) := by
  unfold State.fillGap
  extract_lets
  refine .foldl (fun _ _ h1 => .ite h1 ?_) h
  split
  · exact h1
  · exact .bump (.modVbd h1)

theorem udptlPacket {ch packet} : Canonical (s.udptlPacket ch packet) := by
  unfold State.udptlPacket
  extract_lets s'
  have hs' : Canonical s' := .bump h
  split
  · exact hs'
  · extract_lets _ _ s1
    have hs1 : Canonical s1 := .ite hs' (.fillGap hs')
    exact .ite hs' (.ite hs1 (.ite (.bump hs1) (.drainIfps (.modVbd (.ite (.bump hs1) hs1)))))

theorem udptlReorderTimeout {ch} : Canonical (Machine.udptlReorderTimeout ch s) := by
  unfold Machine.udptlReorderTimeout
  dsimp only
  split
  · exact .ite h (.modVbd (.drainIfps (.modVbd (.bumpBy h))))
  · exact h

theorem modulate {ch o} : Canonical (s.modulate ch o) :=
  .ite (.ite (.bump h) h) (.ite (.modVbd (.ite (.bump h) h)) (.modVbd (.ite (.bump h) h)))

theorem txSigEndTimeout {ch} : Canonical (Machine.txSigEndTimeout ch s) := .ite (.modVbd h) h

theorem saffronSilenceEnd {ch} : Canonical (Machine.saffronSilenceEnd ch s) := .ite (.modVbd h) h

theorem baudotMarkHoldEnd {ch} : Canonical (Machine.baudotMarkHoldEnd ch s) := .ite (.modVbd h) h

theorem textChar {relay ch} : Canonical (s.textChar relay ch) := .modVbd h

theorem textBlockTimeout {ch} : Canonical (Machine.textBlockTimeout ch s) := by
  unfold Machine.textBlockTimeout
  extract_lets
  split
  · exact h
  · exact .ite h (.setChan h)

theorem readCode {ch receiver code} : Canonical (s.readCode ch receiver code) :=
  .ite (.textChar h) (.ite (.modVbd h) (.textChar h))

theorem imageIn {ch receiver octets} : Canonical (s.imageIn ch receiver octets) :=
  .ite h (.ite (.modVbd h) (.relayIfp (.modVbd h)))

theorem localFrame {ch x} : Canonical (s.localFrame ch x) := by
  unfold State.localFrame
  extract_lets _ _ s1 s2
  have hs1 : Canonical s1 := by
    unfold s1
    split
    · exact h
    · extract_lets
      exact .modVbd h
  have hs2 : Canonical s2 := .relayIfp hs1
  exact .ite (.frameRelayed hs2) hs2

theorem receptionEnds {ch} : Canonical (s.receptionEnds ch) :=
  .ite h (.ite (.relayIfp h) (.ite (.modVbd h) (.relayIfp (.modVbd h))))

theorem rxLows {ch o} : Canonical (s.rxLows ch o) :=
  .ite (.setModulation (.rxRestart (.receptionEnds h))) (.modVbd h)

theorem received {ch o fresh} : Canonical (s.received ch o fresh) := by
  unfold State.received
  extract_lets _ _ s1
  have hs1 : Canonical s1 := .ite h (.relayIfp h)
  refine .ite (.ite (.foldl (fun _ _ h2 => .localFrame h2) hs1) (.imageIn hs1)) ?_
  split
  · exact .readCode h
  · exact h

theorem demodulate {ch o} : Canonical (s.demodulate ch o) := by
  unfold State.demodulate
  extract_lets _ _ _ _ s1 _ _ _ s3
  have hs1 : Canonical s1 := by
    unfold s1
    split
    · exact .rxDetect h
    · exact .rxQualified h
    · exact .rxUnqualified h
  have hs3 : Canonical s3 := .modChan (.ite (.received (.modVbd hs1)) hs1)
  exact .ite hs3 (.rxLows hs3)

theorem relayCed {ch before} : Canonical (s.relayCed ch before) := .ite (.relayIfp h) h

theorem saffronJob {ch o} : Canonical (s.saffronJob ch o) :=
  .ite h (.ite (.modChan (.modulate h)) (.demodulate h))

theorem qualificationTimeout {ch} : Canonical (Machine.qualificationTimeout ch s) :=
  .ite (.rxRestart (.bump h)) h

/-! ### Mirror -/

theorem queueDelta {ch} : Canonical (s.queueDelta ch) := by
  unfold State.queueDelta
  extract_lets
  refine .ite h ?_
  split
  · exact .modHm h
  · extract_lets
    exact .bump (.modHm h)

/-! ### JobEnd -/

theorem followRequest {b} : Canonical (s.followRequest b) := by
  unfold State.followRequest
  dsimp only
  split
  · exact h
  · exact .ite h (.ite (.modChan h) (.modChan (.modChan h)))

theorem takeRequest {b t} : Canonical (s.takeRequest b t) := by
  unfold State.takeRequest
  extract_lets
  split
  · exact h
  · exact .ite (.followRequest (.modChan h)) h

theorem sendFrames {ch t r x frames} : Canonical (s.sendFrames ch t r x frames) :=
  .ite h (.ite h (.modChan h))

theorem rinSlip {ch} : Canonical (s.rinSlip ch) := .ite h (.modChan h)

theorem pushRin {ch tick xs} : Canonical (s.pushRin ch tick xs) := .ite h (.modEcho h)

theorem replayAppend {ch t sin} : Canonical (s.replayAppend ch t sin) := .capAppend (.capAppend h)

theorem immediateJob {t} : Canonical (s.immediateJob t) := by
  unfold State.immediateJob
  split
  · split
    · exact h
    · exact .modChan h
  · exact .udptlPacket h
  · exact .rxEventPacket h

theorem setCpts {t} : Canonical (s.setCpts t) := by
  have hfold : ∀ (l r : Tbl Nat), sorted r = true → sorted (l.foldl
    (fun m e => tins m e.1 e.2) r) = true := by
    intro l
    induction l with
    | nil => exact fun _ hr => hr
    | cons e l ih => exact fun r hr => ih _ (sorted_tins _ _ hr)
  exact .regs h (hfold _ _ (sorted_tkeep (fun k => !isCpt k) h.1))

theorem mediaJob {e t r frames} : Canonical (s.mediaJob e t r frames) := by
  unfold State.mediaJob
  exact .replayAppend (.pushRin (.sendFrames (.foldl (fun _ _ h1 => .saffronJob h1) (.relayCed (.toneJob
    (.cancel (.modChan (.modVbd (.rinSlip (.servedBy h))))))))))

theorem withCpts {cpt f} (hf : ∀ t, Canonical t → Canonical (f t)) : Canonical (s.withCpts cpt f) :=
  .ite (hf s h) (.setCpts (hf _ (.setCpts h)))

theorem withJobSet {ch g} (hg : ∀ t, Canonical t → Canonical (g t)) : Canonical (s.withJobSet ch g) := by
  unfold State.withJobSet
  dsimp only
  split
  · exact hg s h
  · next j hj =>
    have h2 : Canonical (if j.st = .bound then (s.modChan ch asJob).modChan j.peer
        (fun b => { b with rx := j.peerRx, tx := j.peerTx, vbd := (j.vbd.map (·.2)).getD b.vbd }) else s.modChan ch asJob) :=
      .ite (.modChan (.modChan h)) (.modChan h)
    have h3 := h2.withCpts (cpt := j.cpt) hg
    exact .ite (.replan (.ite (.modChan (.modChan h3)) (.modChan h3))) (.ite (.modChan (.modChan h3))
      (.modChan h3))

theorem fillLine {k line} : Canonical (s.fillLine k line) := .ite h (.updMem h)

theorem ownLine {k line} : Canonical (s.ownLine k line) := .fillLine (.updMem h)

theorem commit {e lane ch sts} : Canonical (s.commit e lane ch sts) :=
  .foldl (fun _ _ h1 => .ownLine h1) (.modChan h)

theorem xrReport {ch} : Canonical (s.xrReport ch) := .ite h (.modChan h)

theorem jobOutEnd {e lane k t r x} : Canonical (s.jobOutEnd e lane k t r x) := by
  unfold State.jobOutEnd
  extract_lets s1 s2 _ s4 s5
  have hs1 : Canonical s1 := .modChan (.commit h)
  have hs2 : Canonical s2 := .ite (.immediateJob hs1) (.withJobSet hs1 fun _ h2 => .mediaJob h2)
  have hs4 : Canonical s4 := .modChan (.immFree (.ite (.xrReport hs2) hs2))
  have hs5 : Canonical s5 := .publishJob (.ite hs4 (.takeRequest hs4))
  exact .ite (.jobLost h) (.ite (.followRequest hs5) hs5)

/-! ### Mordant -/

theorem setRelQ {l} : Canonical (s.setRelQ l) := .upd h

theorem taskOffer {cancelledNow} : Canonical (Machine.taskOffer cancelledNow s) := by
  unfold Machine.taskOffer
  extract_lets
  split
  · exact h
  · extract_lets _ s1 _ _ taken
    have hs1 : Canonical s1 := .assignHome h
    have htaken : Canonical taken := .setRelQ hs1
    exact .ite (.traceTask (.bump htaken)) (.ite (.traceTask (.bump (.setRelQ hs1))) (.traceTask (.enlist
      (.bump (.supersede htaken)))))

theorem placeImm {i t} (e : s.placeImm i = some t) : Canonical t := by
  unfold State.placeImm at e
  dsimp only at e
  have h1 : Canonical (s.assignHome (s.immTask i).ch (s.immTask i)) := .assignHome h
  split at e
  · cases e
  split_ifs at e
  · cases e; exact .traceTask (.enlist (.bump h1))
  split at e
  · cases e
  · cases e; exact .traceTask (.enlist (.bump (.bump h1)))

theorem dropImm {i} : Canonical (s.dropImm i) := .modChan (.freeBuf h)

theorem immediateTaskAccept : Canonical (Machine.immediateTaskAccept s) := by
  unfold Machine.immediateTaskAccept
  extract_lets
  split
  · exact h
  · extract_lets s1
    have hs1 : Canonical s1 := .upd h
    refine .ite (.dropImm hs1) ?_
    split
    · exact .placeImm hs1 ‹_›
    · exact .ite (.upd hs1) (.bump (.dropImm hs1))

theorem immediateHoldReoffer : Canonical (Machine.immediateHoldReoffer s) := by
  unfold Machine.immediateHoldReoffer
  dsimp only
  split
  · exact h
  · exact .ite (.dropImm (.upd h)) (.getD (fun _ e => .placeImm (.upd h) e) h)

theorem skeinWindowClose {e index} : Canonical (Machine.skeinWindowClose e index s) := by
  unfold Machine.skeinWindowClose
  split
  · exact h
  · exact .ite (.closeSkein h) h

theorem steal {e wait owners far} : Canonical (s.steal e wait owners far) := by
  unfold State.steal
  extract_lets
  refine .ite h ?_
  split
  · exact .modMe h
  · extract_lets
    exact .ite (.modMe h) (.idle (.traceSkein (.bump (.bump (.upd (.modMe h))))))

theorem stealNear {e} : Canonical (Machine.stealNear e s) := .steal h

theorem stealFar {e} : Canonical (Machine.stealFar e s) := .steal h

theorem mergeForming {e k} : Canonical (s.mergeForming e k) := by
  unfold State.mergeForming
  dsimp only
  split
  · exact .modMe h
  · exact .ite (.modMe h) (.ite (.closeSkein (.modMe h)) (.modMe (.newNum (.closeSkein (.modMe h)))))

theorem arrive {x} : Canonical (s.arrive x) := by
  unfold State.arrive
  extract_lets s1
  have hs1 : Canonical s1 := by
    unfold s1
    split
    · exact .mergeForming h
    · exact .raiseSwitch (.modMe h)
    · exact .foldl (fun _ _ h1 => .enlist h1) h
  exact .idle (.markHeld hs1)

theorem taskTransitEnd : Canonical (Machine.taskTransitEnd s) := by
  unfold Machine.taskTransitEnd
  extract_lets
  split
  · exact h
  · exact .arrive (.upd h)

theorem closeLane {done t} : Canonical (s.closeLane done t) := .laneEnd (.ite (.queueDelta h) (.jobLost h))

theorem leaveEngine {e} : Canonical (s.leaveEngine e) := by
  unfold State.leaveEngine
  split
  · exact .idle (.modMe h)
  · extract_lets
    exact .raiseSwitch (.upd (.modEng (.modMe h)))

theorem retireCheck {e} : Canonical (s.retireCheck e) := by
  unfold State.retireCheck
  extract_lets _ s1
  have hs1 : Canonical s1 := .modMe h
  refine .ite h ?_
  split
  · exact hs1
  · exact .complete hs1

theorem endSkein {e} : Canonical (s.endSkein e) := by
  unfold State.endSkein
  extract_lets
  split
  · exact h
  · exact .retireCheck (.foldl (fun _ _ h2 => .closeLane h2) (.leaveEngine h))

theorem jobAbort {e lane} : Canonical (Machine.jobAbort e lane s) := by
  unfold Machine.jobAbort
  dsimp only
  refine .ite h ?_
  split
  · split
    · exact .modMe h
    · exact .traceTask (.bump (.modMe h))
  · split
    · exact .modMe h
    · exact .traceTask (.bump (.modMe h))
  · exact h

theorem rehome {e ch} : Canonical (s.rehome e ch) := by
  unfold State.rehome
  split
  · exact .modChan h
  · exact .trace (.modMe (.bump (.modChan h)))

theorem send {l} : Canonical (s.send l) := .foldl (fun _ _ h1 => .upd (.ite h1 (.newNum h1))) h

theorem moveLists {e} : Canonical (s.moveLists e) :=
  .idle (.foldl (fun _ _ h1 => .send h1) (.foldl (fun _ _ h1 => .send h1) (.foldl (fun _ _ h1 => .send h1)
    (.modMe h))))

theorem redirect {lost} : Canonical (s.redirect lost) := .foldl (fun _ _ h1 => .send h1) (.upd h)

theorem openEvac : Canonical s.openEvac := .bump (.upd h)

theorem loseEngine {e} : Canonical (s.loseEngine e) := .upd (.modEng (.modMe (.endSkein (.endSkein h))))

theorem domainFail {d} : Canonical (s.domainFail d) := by
  unfold State.domainFail
  extract_lets _ _ _ _ _ _ _ s5
  have hs5 : Canonical s5 := by
    refine .foldl (fun _ _ h6 => ?_) (.redirect (.foldl (fun _ _ h5 => .moveLists h5) (.foldl (fun _ _ h4 =>
      .foldl (fun _ _ h5 => .rehome h5) h4) (.openEvac (.foldl (fun _ _ h2 => .loseEngine h2) (.foldl
      (fun _ _ h1 => .modMe h1) h))))))
    split
    · exact h6
    · exact .complete (.modMe h6)
  refine .ite h (.foldl (fun _ _ h7 => ?_) hs5)
  split
  · exact h7
  · exact .complete (.modMe h7)

theorem powerOff {d cause} : Canonical (s.powerOff d cause) :=
  .ite (.raise (.ite (.wr (.wr (.wr (.upd h)))) (.wr (.wr (.upd h))))) (.ite (.wr (.wr (.wr (.upd h)))) (.wr
    (.wr (.upd h))))

theorem engineDomainFailure {d} : Canonical (Machine.engineDomainFailure d s) := .domainFail h

theorem evacuationWindowClose : Canonical (Machine.evacuationWindowClose s) := .upd h

theorem retire {e q byRollout} : Canonical (s.retire e q byRollout) :=
  .retireCheck (.redirect (.moveLists (.foldl (fun _ _ h1 => .rehome h1) (.openEvac (.modMe h)))))

theorem applyRetire {c} : Kept (Machine.applyRetire c s) :=
  .ite .refuse (.ite .refuse (.ite .refuse (.later (.retire h))))

theorem engineRetire {c} : Canonical (Machine.engineRetire c s) :=
  .runCommand h fun _ h1 => Canonical.applyRetire h1

theorem engineReset {e} : Canonical (s.engineReset e) := .bump (.resetRegs (.modEng (.ite (.upd h) h)))

theorem applyRestore {c} : Kept (Machine.applyRestore c s) :=
  .ite .refuse (.ite .refuse (.later (.modMe (.engineReset h))))

theorem engineRestore {c} : Canonical (Machine.engineRestore c s) :=
  .runCommand h fun _ h1 => Canonical.applyRestore h1

theorem engineSelfTestDone {e passed} : Canonical (Machine.engineSelfTestDone e passed s) := by
  unfold Machine.engineSelfTestDone
  extract_lets _ s1 s2
  have hs1 : Canonical s1 := .idle (.modMe h)
  have hs2 : Canonical s2 := .ite hs1 (.ite (.domainFail (.powerOff (.raise hs1))) (.raise hs1))
  refine .ite h ?_
  split
  · exact hs2
  · exact .complete hs2

theorem loadSecond : Canonical (Machine.loadSecond s) := .wr (.upd h)

/-! ### Engine -/

theorem requestStart {ch} : Canonical (s.requestStart ch) := .ite h (.modChan (.followRequest h))

theorem laneStart {e t} : Canonical (s.laneStart e t) :=
  .placeConfirmed (.modChan (.bump (.settleEcho (.ite h (.requestStart h)))))

theorem startSkein {e k0} : Canonical (s.startSkein e k0) :=
  .idle (.traceSkein (.bumpBy (.bump (.foldl (fun _ _ h1 => .laneStart h1) (.modEng (.modMe h))))))

theorem holdBusy {e k} : Canonical (s.holdBusy e k).1 := .modMe h

theorem nextSkein {e r} (he : s.nextSkein e = some r) : Canonical r.1 := by
  unfold State.nextSkein at he
  dsimp only at he
  split at he
  · cases he; exact .modMe h
  · obtain ⟨_, _, rfl⟩ := Option.map_eq_some_iff.mp he
    exact .modMe h

theorem dispatchNext {n e} : Canonical (State.dispatchNext n e s) := by
  induction n generalizing s with
  | zero => exact .idle h
  | succ n ih =>
    unfold State.dispatchNext
    split
    · exact .idle h
    · next k0 hk => exact .ite (ih (.holdBusy (.nextSkein h hk))) (.startSkein (.holdBusy (.nextSkein h hk)))

theorem skeinDispatch {e} : Canonical (Machine.skeinDispatch e s) := by
  unfold Machine.skeinDispatch
  extract_lets
  refine .ite h ?_
  split
  · exact .dispatchNext h
  · exact .ite (.ite (.holdBusy (.modMe h)) (.startSkein (.modMe (.upd (.holdBusy (.modMe h)))))) h
  · exact h

theorem fillEntry {e j} : Canonical (s.fillEntry e j) := by
  unfold State.fillEntry
  extract_lets
  refine .ite h ?_
  split
  · exact h
  · exact .foldl (fun _ _ h1 => .fillLine h1) h

theorem busy {e n} : Canonical (s.busy e n) := .ite (.bumpBy h) h

theorem engineFault {e kind} : Canonical (s.engineFault e kind) := .modEng (.endSkein (.wr h))

theorem outEnd {e reports} : Canonical (s.outEnd e reports) := by
  unfold State.outEnd
  dsimp only
  split
  · exact h
  · exact .modMe (.modEng (.foldl (fun _ _ h1 => .jobOutEnd h1) h))

theorem jobEnd {e} : Canonical (s.jobEnd e) := by
  unfold State.jobEnd
  dsimp only
  split
  · exact h
  · exact .endSkein (.modEng (.foldl (fun _ _ h1 => .commit h1) h))

theorem yield {e} : Canonical (s.yield e) := by
  unfold State.yield
  extract_lets
  split
  · exact .modEng h
  · extract_lets _ _ _ _ s2
    have hs2 : Canonical s2 := .foldl (fun _ _ h2 => .closeLane h2) (.modEng (.modMe h))
    exact .ite (.endSkein (.modEng hs2)) hs2

theorem glazeIssue {e addr} : Canonical (s.glazeIssue e addr) := by
  unfold State.glazeIssue
  dsimp only
  split
  · exact h
  · exact .upd h

theorem bundleIssue {e reports} : Canonical (Machine.bundleIssue e reports s) := by
  unfold Machine.bundleIssue
  dsimp only
  refine .ite h ?_
  split
  · exact .modEng (.busy h)
  · exact .engineFault (.busy h)
  · have h1 : ∀ f n c, Canonical { (s.busy e n).modEng e f with freeCtr := c } := fun _ _ _ => .upd (.modEng (.busy h))
    split
    · exact h1 ..
    · exact .outEnd (h1 ..)
    · exact .jobEnd (h1 ..)
    · exact .yield (h1 ..)
    · exact .glazeIssue (h1 ..)

theorem bundleChecked {e reports ecc} : Canonical (Machine.bundleChecked e reports ecc s) := by
  unfold Machine.bundleChecked
  refine .ite h ?_
  split
  · exact .bundleIssue h
  · exact .bundleIssue (.modEng h)
  · exact .engineFault (.busy h)
  · exact .modEng (.engineFault (.busy h))

theorem streamEntryArrival {e} : Canonical (Machine.streamEntryArrival e s) :=
  .ite h (.ite (.bundleIssue (.modEng (.fillEntry h))) (.modEng (.fillEntry h)))

theorem loopCountEnd {e loop} : Canonical (Machine.loopCountEnd e loop s) := .ite (.bundleIssue h) h

theorem faultCount {e} : Canonical (s.faultCount e) :=
  .ite (.retire (.raise (.modMe (.modMe (.modEng h))))) (.modMe (.modEng h))

theorem timerEntry {e} : Canonical (s.timerEntry e) := .modEng (.endSkein (.busy h))

theorem interruptEntry {e ward} : Canonical (Machine.interruptEntry e ward s) := by
  unfold Machine.interruptEntry
  extract_lets
  refine .ite h ?_
  split
  · exact h
  · exact .faultCount (.modEng (.busy h))
  · exact .timerEntry h
  · exact .modEng (.busy h)

theorem budgetReached {e} : Canonical (Machine.budgetReached e s) := .ite h (.timerEntry h)

theorem pmemReload {e} : Canonical (Machine.pmemReload e s) := .ite h (.modEng (.ite (.engineFault h) h))

/-! ### Loss -/

theorem loseCtx {ch} : Canonical (s.loseCtx ch) := .upd (.letJumpGo (.modChan h))

theorem ctxBack {ch f} : Canonical (s.ctxBack ch f) := .modChan h

theorem addPoison {line} : Canonical (s.addPoison line) := .ite h (.ite (.bump (.updMem h)) (.updMem h))

/-! ### Memory -/

theorem dropCapture {m src} : Canonical (s.dropCapture m src) :=
  .ite (.raise (.modMc (.freeRing (.upd h)))) (.raise (.modMc (.freeRing (.upd h))))

theorem nextTarget {n m} : Canonical (State.nextTarget n s m) := by
  induction n generalizing s with
  | zero => exact h
  | succ n ih =>
    unfold State.nextTarget
    split
    · exact h
    · split
      · exact h
      · split
        · exact .modMc h
        · split
          · exact .ite (ih (.dropCapture h)) h
          · exact h

theorem fenceStart {m} : Canonical (s.fenceStart m) := .ite h (.invRebuild (.nextTarget (.modMc (.wr h))))

theorem countCe {m} : Canonical (s.countCe m) := .ite (.fenceStart (.modMc h)) (.modMc h)

theorem countUe {m} : Canonical (s.countUe m) := .ite (.fenceStart (.modMc h)) (.modMc h)

theorem dramEvent {m line} : Canonical (s.dramEvent m line) := .raiseRec h

theorem discardPoison {m r} : Canonical (s.discardPoison m r) := .raise h

theorem toReader {m r} : Canonical (s.toReader m r) := by
  unfold State.toReader
  extract_lets
  refine .ite (.engineFault h) (.ite ?_ (.ite (.upd h) (.discardPoison h)))
  split
  · exact .engineFault h
  · exact .discardPoison h

theorem deliverPoison {m r} : Canonical (s.deliverPoison m r) := .toReader (.addPoison h)

theorem readUe {m r} : Canonical (s.readUe m r) :=
  .countUe (.ite (.unpoison (.bump (.dramEvent (.bump h)))) (.deliverPoison (.dramEvent (.bump h))))

theorem readResult {m r} : Canonical (s.readResult m r) := by
  unfold State.readResult
  split
  · exact h
  · exact .countCe (.bump h)
  · exact .readUe h

theorem countChecks {r} : Canonical (s.countChecks r) := by
  unfold State.countChecks
  extract_lets s1
  have hs1 : Canonical s1 := by
    unfold s1
    split
    · exact h
    · exact .bump h
    · exact .bump h
  exact .ite (.bump hs1) hs1

theorem readTransfer {m r} : Canonical (s.readTransfer m r) :=
  .ite (.toReader (.countChecks (.readResult h))) (.countChecks (.readResult h))

theorem writeTransfer {m r} : Canonical (s.writeTransfer m r) :=
  .ite (.addPoison (.countChecks h)) (.unpoison (.countChecks h))

theorem activate {m row b} : Canonical (s.activate m row b).1 :=
  .ite (.bump (.ite (.bump h) h)) (.ite (.bump h) h)

theorem bankAccess {m bank row} : Canonical (s.bankAccess m bank row) := by
  unfold State.bankAccess
  dsimp only
  refine .modMc ?_
  split
  · exact h
  · exact .activate h

theorem issue {m q} : Canonical (s.issue m q) := .modMc (.bankAccess (.highWater (.ite (.bump h) h)))

theorem serveRead {m} : Canonical (s.serveRead m) := by
  unfold State.serveRead
  refine .ite h ?_
  split
  · exact h
  · exact .readTransfer (.issue (.modMc h))

theorem performWrite {m q} : Canonical (s.performWrite m q) := .writeTransfer (.issue (.modMc h))

theorem drainTo {n m keep} : Canonical (State.drainTo n s m keep) := by
  induction n generalizing s with
  | zero => exact h
  | succ n ih =>
    unfold State.drainTo
    refine .ite h ?_
    split
    · exact h
    · exact ih (.performWrite h)

theorem memoryRequest {m r} : Canonical (Machine.memoryRequest m r s) :=
  .ite h (.ite (.modMc h) (.serveRead (.modMc h)))

theorem urgencyRise {m index} : Canonical (Machine.urgencyRise m index s) := by
  unfold Machine.urgencyRise
  dsimp only
  split
  · exact .modMc h
  · split
    · exact h
    · exact .ite (.performWrite (.modMc h)) (.modMc h)

theorem writeQueueDrain {m} : Canonical (Machine.writeQueueDrain m s) := .ite (.modMc (.drainTo h)) h

theorem rowIdleClose {m bank} : Canonical (Machine.rowIdleClose m bank s) := .ite (.modMc h) h

theorem activateTableClear {m} : Canonical (Machine.activateTableClear m s) := .ite (.modMc h) h

theorem dramRefresh {m rank} : Canonical (Machine.dramRefresh m rank s) := .ite h (.modMc h)

theorem patrolScrub {m line ecc} : Canonical (Machine.patrolScrub m line ecc s) := by
  unfold Machine.patrolScrub
  refine .ite h ?_
  split
  · exact h
  · exact .countCe (.bump h)
  · exact .addPoison h

theorem alertN {m} : Canonical (Machine.alertN m s) :=
  .ite h (.ite (.fenceStart (.modMc (.bump h))) (.modMc (.bump h)))

theorem writeCrcError {m} : Canonical (Machine.writeCrcError m s) := by
  unfold Machine.writeCrcError
  split
  · exact h
  · exact .ite (.bankAccess (.bump h)) h

theorem dimmThermalPoll {temps} : Canonical (Machine.dimmThermalPoll temps s) :=
  .foldl (fun _ _ h1 => .ite (.modMc h1) (.ite (.modMc h1) h1)) h

theorem periodicRetrain {m failed moved} : Canonical (Machine.periodicRetrain m failed moved s) := by
  unfold Machine.periodicRetrain
  extract_lets _ _ s1 s2
  have hs1 : Canonical s1 := .modMc (.bump h)
  have hs2 : Canonical s2 := .bump hs1
  exact .ite h (.ite (.ite (.invRebuild (.raise (.wr hs2))) hs2) (.ite (.invRebuild (.raise (.wr hs1))) hs1))

theorem performHeld {t r} : Canonical (s.performHeld t r) := .writeTransfer (.modMc (.bankAccess (.upd h)))

theorem migrationPageCopy {m lostLine} : Canonical (Machine.migrationPageCopy m lostLine s) := by
  unfold Machine.migrationPageCopy
  split
  · exact h
  · split
    · extract_lets _ _ _ _ s0 s1 s2
      have h1 : Canonical s1 := .foldl (fun _ _ ht => .performHeld ht) (.ite (.loseCtx h) h)
      exact .ite h (.ite (.modMc h1) (.nextTarget (.modMc (.updMem h1))))
    · exact .nextTarget h
    · exact h

theorem recoverCtx {ch} : Canonical (s.recoverCtx ch) := .ite (.ringSend (.newToken h)) (.ctxBack h)

theorem memchReset {m} : Canonical (s.memchReset m) := .modMc (.unpoison (.resetRegs h))

theorem fenceEnd {m} : Canonical (Machine.fenceEnd m s) :=
  .ite h (.invRebuild (.raise (.wr (.wr (.memchReset (.foldl (fun _ _ h1 => .recoverCtx h1) h))))))

theorem memChCtlReset {m width value} : Canonical (Machine.memChCtlReset m width value s) :=
  .ite (.bump h) (.ite h (.ite (.wr (.memchReset h)) (.wr h)))

theorem memchTrainingDone {m sweep} : Canonical (Machine.memchTrainingDone m sweep s) :=
  .ite h (.ite (.modMc h) (.invRebuild (.wr (.wr (.modMc h)))))

theorem hsSizeWrite {width value} : Canonical (Machine.hsSizeWrite width value s) :=
  .ite (.writeReg h) (.ite (.bump h) (.wr (.writeRegBut h)))

theorem trainChannel {m f used} : Canonical (s.trainChannel m f used) := .modMc (.wr (.wr h))

theorem memTrainingDone {fits} : Canonical (Machine.memTrainingDone fits s) := by
  unfold Machine.memTrainingDone
  extract_lets _ s1 _ _ s2
  have h1 : Canonical s1 := .foldl (fun _ _ ht => .trainChannel ht) h
  have h2 : Canonical s2 := .boot (.wr (.wr (.wr h1)))
  exact .ite h (.ite (.wr (.updMem h2)) (.updMem h2))

theorem selfRefreshEntry {m} : Canonical (Machine.selfRefreshEntry m s) := .ite (.modMc (.drainTo h)) h

theorem serveAll {n m} : Canonical (State.serveAll n s m) := by
  induction n generalizing s with
  | zero => exact h
  | succ n ih =>
    unfold State.serveAll
    exact .ite (ih (.serveRead h)) (.modMc h)

theorem selfRefreshExit : Canonical (Machine.selfRefreshExit s) :=
  .foldl (fun _ _ h1 => .ite h1 (.serveAll (.modMc (.bump h1)))) h

/-! ### RingLinks -/

theorem dropLink {x} : Canonical (s.dropLink x) := .modLink (.wr (.wr (.wr h)))

theorem bypass {st} : Canonical (s.bypass st) := .wr (.wr (.dropLink (.dropLink h)))

theorem selfFence : Canonical s.selfFence := .wr (.upd (.bypass h))

theorem tryInsert : Canonical s.tryInsert := .ite (.wr (.wr (.upd h))) h

theorem ringInsert {width v} : Canonical (Machine.ringInsert width v s) :=
  .ite (.writeReg h) (.ite (.raise (.writeRegBut h)) (.ite (.tryInsert (.wr (.writeReg h))) (.writeReg h)))

theorem tapBlockLock : Canonical (Machine.tapBlockLock s) := .tryInsert (.modLink (.modLink h))

theorem ringInsertTimeout : Canonical (Machine.ringInsertTimeout s) :=
  .ite (.raise (.upd (.wr (.bypass h)))) h

theorem nowInserted : Canonical s.nowInserted :=
  .ite (.sendTo (.newToken (.foldl (fun _ _ h1 => .modHm h1) (.wr (.upd h))))) (.foldl (fun _ _ h1 =>
    .modHm h1) (.wr (.upd h)))

theorem ringLinkTrained {x} : Canonical (Machine.ringLinkTrained x s) := by
  unfold Machine.ringLinkTrained
  extract_lets _ _ s2
  have hs2 : Canonical s2 := .invRebuild (.ringSend (.modLink (.wr (.wr h))))
  exact .ite h (.ite (.nowInserted hs2) hs2)

theorem ringLinkDown {x} : Canonical (Machine.ringLinkDown x s) :=
  .ite (.raise (.invRebuild (.dropLink h))) (.invRebuild (.dropLink h))

theorem msgAcked {m} : Canonical (s.msgAcked m) := by
  unfold State.msgAcked
  split
  · exact .settingsDone (.modHm h)
  · exact .modHm h
  · exact .ite (.modHm h) h
  · exact h

theorem takeAck {x ack} : Canonical (s.takeAck x ack) := by
  unfold State.takeAck
  dsimp only
  split
  · exact h
  · exact .foldl (fun _ _ h1 => .msgAcked h1) (.modLink h)

theorem replay {x} : Canonical (s.replay x) := .ite h (.bumpBy (.bumpBy (.modLink h)))

theorem linkAnswer {x} : Canonical (s.linkAnswer x) := .bump (.modLink h)

theorem relayed {x f} : Canonical (s.relayed x f) := .ite (.ringSend h) h

theorem sequenced {x f} : Canonical (s.sequenced x f) := .ite (.relayed (.modLink h)) (.modLink h)

theorem linkFrame {x f} : Canonical (Machine.linkFrame x f s) := by
  unfold Machine.linkFrame
  extract_lets s1 s2 _ s4
  have hs1 : Canonical s1 := .takeAck (.modLink (.bump h))
  have hs2 : Canonical s2 := .ite (.replay hs1) hs1
  have hs4 : Canonical s4 := .pump (.ite (.sequenced hs2) hs2)
  exact .ite h (.ite (.bump h) (.ite (.linkAnswer hs4) hs4))

theorem ringRetrain {x} : Canonical (Machine.ringRetrain x s) := .ite (.bump (.modLink (.wr (.wr h)))) h

theorem latchRing {x} : Canonical (s.latchRing x) := .wr (.wr (.wr (.wr (.wr h))))

theorem hbOut {k x} : Canonical (s.hbOut k x) := .ite (.bump (.modLink h)) h

theorem heartbeatSend : Canonical (Machine.heartbeatSend s) := .ite (.upd (.hbOut (.hbOut h))) h

theorem adjacent {x pos} : Canonical (s.adjacent x pos) :=
  .ite (.ite (.raise (.wr h)) (.wr h)) (.ite (.wr (.wr h)) (.wr (.wr h)))

theorem demandEnds {status res2} : Canonical (s.demandEnds status res2) := by
  unfold State.demandEnds
  dsimp only
  split
  · exact .upd h
  · exact .complete (.upd h)

theorem upAlive : Canonical s.upAlive := .ite (.raise (.bump (.wr h))) h

theorem upSeen : Canonical s.upSeen :=
  .ite (.demandEnds (.ite (.wr (.upAlive (.upd h))) (.upAlive (.upd h)))) (.ite (.wr (.upAlive (.upd h)))
    (.upAlive (.upd h)))

theorem heartbeat {x k} : Canonical (Machine.heartbeat x k s) := by
  unfold Machine.heartbeat
  extract_lets s1 s2
  have hs1 : Canonical s1 := .ite (.adjacent h) h
  have hs2 : Canonical s2 := .ite (.upSeen hs1) hs1
  exact .ite h (.ite (.hbOut hs2) hs2)

theorem identity {x i} : Canonical (Machine.identity x i s) := by
  unfold Machine.identity
  extract_lets s1 s2
  have hs1 : Canonical s1 := .modLink h
  have hs2 : Canonical s2 := .invRebuild (.ite hs1 (.ite (.wr hs1) (.wr hs1)))
  exact .ite h (.ite (.raise hs2) hs2)

theorem resumeMedia : Canonical s.resumeMedia :=
  .ite (.foldl (fun _ _ h1 => .wantPublish (.modChan h1)) (.upd h)) (.upd h)

theorem livenessRefresh : Canonical (Machine.livenessRefresh s) :=
  .ite h (.ite (.ite (.wr (.resumeMedia (.upd h))) (.resumeMedia (.upd h))) (.upd h))

theorem livenessFailure : Canonical (Machine.livenessFailure s) := .ite (.selfFence h) h

/-! ### RingMirror -/

theorem latHold {a r} (e : s.latHold a = some r) : Canonical r.1 := by
  unfold State.latHold at e
  split at e
  · cases e; exact .setLat h
  split at e
  · cases e; exact .setLat h
  · cases e

theorem latDrop {i} : Canonical (s.latDrop i) := by
  unfold State.latDrop
  split
  · exact .setLat h
  · exact h

theorem dropMirror {ch} : Canonical (s.dropMirror ch) := by
  unfold State.dropMirror
  extract_lets fl s1 s2
  have hs1 : Canonical s1 := .removeFlows h
  have hs2 : Canonical s2 := by
    unfold s2 fl
    split
    · exact hs1
    · exact .latDrop hs1
  exact .setMir hs2

theorem installMirror {ch b t} (e : s.installMirror ch b = some t) : Canonical t := by
  unfold State.installMirror at e
  dsimp only at e
  split at e
  · cases e
  · next hl =>
    split at e
    · cases e
    · obtain ⟨u, hu, rfl⟩ := Option.map_eq_some_iff.mp e
      have h1 := installFlows (latHold h hl) hu
      split
      · exact h1
      · exact .latDrop h1

theorem settings {b} : Canonical (Machine.settings b s) := by
  unfold Machine.settings
  extract_lets
  refine .ite h ?_
  split
  · exact .raise h
  · extract_lets
    refine .ite (.dropMirror h) ?_
    split
    · exact .setMir (.installMirror h ‹_›)
    · exact .raise (.setMir h)

theorem settingsAckTimeout {ch} : Canonical (Machine.settingsAckTimeout ch s) := by
  unfold Machine.settingsAckTimeout
  split
  · exact h
  · exact .ite (.settingsDone (.raise (.modHm h))) h

theorem commitBody {b} : Canonical (s.commitBody b) := by
  unfold State.commitBody
  extract_lets
  split
  · exact .setMir h
  · exact .ite (.setMir h) h

theorem delta {b} : Canonical (Machine.delta b s) := .ite (.commitBody h) h

theorem sync {b} : Canonical (Machine.sync b s) := .ite h (.ite (.commitBody h) (.ite (.ctxBack h) h))

theorem deltaSend {ch} : Canonical (Machine.deltaSend ch s) := by
  unfold Machine.deltaSend
  split
  · exact h
  · exact .ite (.bump (.ringSend (.modHm h))) h

theorem syncSend {ch} : Canonical (Machine.syncSend ch s) :=
  .ite (.upd (.bumpBy (.ringSend (.modHm (.sendSettings h))))) h

theorem mirrorLagCheck : Canonical (Machine.mirrorLagCheck s) := .ite h (.ite (.upd h) (.raise (.upd h)))

theorem ctxRequest {ch} : Canonical (Machine.ctxRequest ch s) := by
  unfold Machine.ctxRequest
  refine .ite ?_ h
  split
  · exact h
  · exact .ringSend h

theorem reserveUp {first count t} (e : s.reserveUp first count = some t) : Canonical t := by
  unfold State.reserveUp at e
  split_ifs at e
  · cases e; exact h
  · revert e
    generalize List.map _ _ = l
    have hstart : ∀ u, some s = some u → Canonical u := fun u hu => by cases hu; exact h
    generalize some s = o at hstart
    induction l generalizing o with
    | nil => exact hstart t
    | cons f r ih =>
      refine ih _ fun u hu => ?_
      obtain ⟨v, hv, hu⟩ := Option.bind_eq_some_iff.mp hu
      split_ifs at hu
      · exact Option.some.inj hu ▸ hstart v hv
      · exact .allocFrame (hstart v hv) hu

theorem releaseUp : Canonical s.releaseUp := .updMem h

theorem answerOffer : Canonical s.answerOffer := by
  unfold State.answerOffer
  dsimp only
  split
  · exact h
  · exact .ite (.sendTo (.upd (.draw h))) h

theorem pairOffer {first count token pub} : Canonical (Machine.pairOffer first count token pub s) :=
  .ite (.answerOffer (.upd h)) h

theorem setRanges {r} : Canonical (s.setRanges r) := .wr (.wr (.wr (.wr h)))

theorem dropMirrors {all} : Canonical (s.dropMirrors all) := .foldl (fun _ _ h1 => .dropMirror h1) h

theorem unpair : Canonical s.unpair := .upd (.releaseUp (.wr (.wr (.setRanges (.dropMirrors h)))))

theorem applyPair {c} : Kept (Machine.applyPair c s) := by
  unfold Machine.applyPair
  extract_lets
  split
  · exact .refuse
  · refine .ite (.done (.unpair h)) ?_
    split
    · exact .refuse
    · extract_lets
      exact .later (.answerOffer (.sendTo (.upd (.setRanges (.newToken (.draw (.reserveUp h ‹_›)))))))

theorem mirrorPair {c} : Canonical (Machine.mirrorPair c s) :=
  .runCommand h fun _ h1 => Canonical.applyPair h1

theorem offerEnds {status res2 res3} : Canonical (s.offerEnds status res2 res3) := by
  unfold State.offerEnds
  dsimp only
  split
  · exact .upd h
  · exact .complete (.upd h)

theorem pairInForce {pub} : Canonical (s.pairInForce pub) :=
  .wr (.foldl (fun _ _ h1 => .modHm h1) (.upd (.releaseUp (.dropMirrors (.wr h)))))

theorem pairConfirm {status token pub} : Canonical (Machine.pairConfirm status token pub s) :=
  .ite h (.ite (.offerEnds (.pairInForce h)) (.offerEnds (.releaseUp (.setRanges h))))

theorem pairOfferTimeout : Canonical (Machine.pairOfferTimeout s) :=
  .ite (.offerEnds (.releaseUp (.setRanges h))) h

/-! ### Failover -/

theorem announce : Canonical s.announce := .foldl (fun _ _ h1 => .transmitDescriptor h1) h

theorem activate1 {i e} : Canonical (s.activate1 i e) := by
  unfold State.activate1
  dsimp only
  split
  · exact .setLat h
  · exact .setLat (.getD (fun _ e => .insertAll (.removeFlows h) e) (.removeFlows h))

theorem adoptOne {ch m all} : Canonical (s.adoptOne ch m all) := by
  unfold State.adoptOne
  split
  · exact h
  · exact .setChan (.ctxFrame h)

theorem adopt : Canonical s.adopt :=
  .upd (.wr (.bumpBy (.bumpBy (.bump (.announce (.foldl (fun _ _ h1 => .activate1 h1) (.foldl (fun _ _ h1 =>
    .publish h1) (.replan (.foldl (fun _ _ h1 => .adoptOne h1) h)))))))))

theorem adoption : Canonical (Machine.adoption s) := .ite (.ite (.demandEnds (.adopt h)) (.adopt h)) h

theorem announcementRepeat : Canonical (Machine.announcementRepeat s) := by
  unfold Machine.announcementRepeat
  extract_lets
  split
  · exact h
  · exact .ite (.announce (.upd h)) h

theorem upstreamSilence : Canonical (Machine.upstreamSilence s) :=
  .ite (.ite (.sendBoth (.upd (.newToken (.bump (.wr h))))) (.raise (.sendBoth (.upd (.newToken (.bump
    (.wr h))))))) h

theorem fenceQuery {src token} : Canonical (Machine.fenceQuery src token s) := .ite (.sendTo h) h

theorem fenceAnswer {status token} : Canonical (Machine.fenceAnswer status token s) := by
  unfold Machine.fenceAnswer
  extract_lets
  refine .ite ?_ (.ite (.upAlive h) h)
  split
  · exact .demandEnds (.adopt h)
  · exact .demandEnds (.upAlive h)
  · exact .demandEnds h

theorem fenceDemand {src token} : Canonical (Machine.fenceDemand src token s) :=
  .ite h (.ite (.selfFence (.sendTo h)) (.sendTo h))

theorem fenceDemandTimeout : Canonical (Machine.fenceDemandTimeout s) :=
  .ite (.ite (.demandEnds (.adopt h)) (.demandEnds h)) h

theorem applyTake {c} : Kept (Machine.applyTake c s) :=
  .ite .refuse (.ite (.done h) (.ite .refuse (.ite .refuse (.later (.sendTo (.upd (.newToken h)))))))

theorem failoverTake {c} : Canonical (Machine.failoverTake c s) :=
  .runCommand h fun _ h1 => Canonical.applyTake h1

theorem hold {src maxS} : Canonical (Machine.hold src maxS s) :=
  .ite (.ite (.demandEnds (.wr (.upd h))) (.wr (.upd h))) h

theorem holdOver : Canonical s.holdOver := .ite (.wr (.upd h)) (.upd h)

theorem holdExpiry : Canonical (Machine.holdExpiry s) := .ite (.holdOver h) h

theorem resumeQuery {src token} : Canonical (Machine.resumeQuery src token s) :=
  .ite h (.ite (.sendTo h) (.sendTo (.ite (.holdOver (.upd h)) h)))

theorem freeQuietly {ch} : Canonical (s.freeQuietly ch) :=
  .setChan (.stopCapture (.latLeave (.removeFlows h)))

theorem resumeAnswer {adopted} : Canonical (Machine.resumeAnswer adopted s) :=
  .ite h (.ite (.resumeMedia (.replan (.foldl (fun _ _ h1 => .freeQuietly h1) h))) (.resumeMedia h))

/-! ### HostLink -/

theorem linkDegraded : Canonical s.linkDegraded := .ite (.raise h) h

theorem newPools {n} : Canonical (State.newPools n s) := by
  induction n generalizing s with
  | zero => exact h
  | succ n ih =>
    unfold State.newPools
    exact ih (.upd (.draw h))

theorem cxlLinkTrained {width rate} : Canonical (Machine.cxlLinkTrained width rate s) :=
  .ite h (.linkDegraded (.syncPools (.newPools (.upd h))))

theorem hdmDecoderCommit {size} : Canonical (Machine.hdmDecoderCommit size s) := .ite (.upd h) (.upd h)

theorem snoopEnter {line} : Canonical (s.snoopEnter line) := by
  unfold State.snoopEnter
  extract_lets s1
  have hs1 : Canonical s1 := by
    unfold s1
    split
    · exact h
    · exact .ite (.bump (.backInv h)) h
  exact .ite h (.upd hs1)

theorem answerRead {v poison} : Canonical (s.answerRead v poison) := .upd h

theorem backData {line} : Canonical (s.backData line) := .ite (.syncPools (.bump (.upd h))) h

theorem hostRead {off} : Canonical (s.hostRead off) :=
  .ite (.answerRead h) (.ite (.answerRead h) (.ite (.snoopEnter (.answerRead h)) (.snoopEnter
    (.answerRead h))))

theorem hostWrite {off b} : Canonical (s.hostWrite off b) := by
  unfold State.hostWrite
  have h1 : Canonical { s with mem := { s.mem with hostShared := msetList s.mem.hostShared (off - hsBase) (b.take (64 - off % 64)) } } :=
    .shared h (memWf_msetList _ _ h.2)
  exact .ite h (.ite (.stateWindowWrite h) (.ite (.bump h) (.snoopEnter (.ite (.unpoison h1) h1))))

theorem cxlMemAccess {offset a} : Canonical (Machine.cxlMemAccess offset a s) := by
  unfold Machine.cxlMemAccess
  refine .ite h ?_
  split
  · exact .hostRead h
  · exact .hostWrite h

theorem bisnpResponse {line} : Canonical (Machine.bisnpResponse line s) := .syncPools (.upd h)

theorem qCtlEnable {q width v} : Canonical (Machine.qCtlEnable q width v s) :=
  .ite (.writeReg h) (.ite (.modHq (.wr (.wr (.wr (.writeRegBut h))))) (.wr (.writeRegBut h)))

theorem qCtlDisable {q width v} : Canonical (Machine.qCtlDisable q width v s) :=
  .ite (.writeReg h) (.qCtlEnable h)

theorem sqTail {q width v} : Canonical (Machine.sqTail q width v s) :=
  .ite (.bump h) (.ite h (.ite (.wr h) (.modHq h)))

theorem cqHead {q width v} : Canonical (Machine.cqHead q width v s) :=
  .ite (.bump h) (.ite h (.ite (.wr h) (.modHq h)))

theorem cqCoalesceTimeout {q} : Canonical (Machine.cqCoalesceTimeout q s) := .ite (.msi (.modHq h)) h

theorem xqHead {x width v} : Canonical (Machine.xqHead x width v s) :=
  .ite (.bump h) (.ite h (.ite (.wr h) (.upd h)))

theorem nqHead {width v} : Canonical (Machine.nqHead width v s) :=
  .ite (.bump h) (.ite h (.ite (.wr h) (.upd h)))

theorem takeEntry {q} : Canonical (s.takeEntry q) := by
  unfold State.takeEntry
  exact .ite (.take (.upd (.wr (.backData h)))) (.complete (.take (.upd (.wr (.backData h)))))

theorem commandFetch : Canonical (Machine.commandFetch s) := by
  unfold Machine.commandFetch
  refine .ite h ?_
  split
  · exact h
  · exact .takeEntry h

/-! ### Images -/

theorem imageRefused {kind check} : Canonical (s.imageRefused kind check) := .raise (.ite (.bump h) h)

/-! ### Mailbox -/

theorem reply {code output} : Canonical (s.reply code output) := .msi (.upd h)

theorem fnReply {fstatus output} : Canonical (s.fnReply fstatus output) := .msi (.upd h)

theorem whenServed {served f} (hf : ∀ t, Canonical t → Canonical (f t)) : Canonical (Machine.whenServed served f s) :=
  .ite (hf s h) (.reply h)

theorem getEventRecords {log} : Canonical (Machine.getEventRecords log s) :=
  .whenServed h fun _ h1 => .reply h1

theorem clearEventRecords {log handles all} : Canonical (Machine.clearEventRecords log handles all s) :=
  .whenServed h fun _ h1 => .ite (.reply h1) (.reply (.upd h1))

theorem getTimestamp : Canonical (Machine.getTimestamp s) := .whenServed h fun _ h1 => .reply h1

theorem setTimestamp {t} : Canonical (Machine.setTimestamp t s) := .whenServed h fun _ h1 => .reply (.upd h1)

theorem eventCoalesceFlush {code unit inst chan} : Canonical (Machine.eventCoalesceFlush code unit inst chan s) :=
  .ite (.flushEvent h) h

theorem getSupportedLogs : Canonical (Machine.getSupportedLogs s) := .whenServed h fun _ h1 => .reply h1

theorem getLog {which offset length} : Canonical (Machine.getLog which offset length s) :=
  .whenServed h fun _ h1 => .ite (.reply h1) (.reply h1)

theorem identifyMemoryDevice : Canonical (Machine.identifyMemoryDevice s) :=
  .whenServed h fun _ h1 => .reply h1

theorem getHealthInfo : Canonical (Machine.getHealthInfo s) := .whenServed h fun _ h1 => .reply h1

theorem getPoisonList : Canonical (Machine.getPoisonList s) := .whenServed h fun _ h1 => .reply h1

theorem fnBootInfo : Canonical (Machine.fnBootInfo s) := .whenServed h fun _ h1 => .fnReply h1

theorem fnCapacity : Canonical (Machine.fnCapacity s) := .whenServed h fun _ h1 => .fnReply h1

theorem pushRefused : Canonical s.pushRefused := .ite (.fnReply h) (.reply h)

theorem fnImageLoad {offset data} : Canonical (Machine.fnImageLoad offset data s) :=
  .ite (.pushRefused h) (.ite (.fnReply h) (.ite (.fnReply h) (.fnReply (.upd h))))

theorem fnImageStart {length} : Canonical (Machine.fnImageStart length s) :=
  .ite (.pushRefused h) (.ite (.fnReply h) (.ite (.fnReply h) (.fnReply (.boot (.wr (.upd h))))))

theorem fnImageVerified : Canonical (Machine.fnImageVerified s) := by
  unfold Machine.fnImageVerified
  extract_lets
  refine .ite h ?_
  split
  · extract_lets
    exact .boot (.wr (.upd (.ite (.bump h) h)))
  · exact .boot (.upd h)

theorem romSelfTestDone {passed} : Canonical (Machine.romSelfTestDone passed s) :=
  .ite h (.ite (.boot h) (.ite (.boot (.upd h)) (.boot h)))

/-! ### Boot -/

theorem readBoard {l} : Canonical (s.readBoard l) :=
  .ite (.upd h) (.ite (.wr (.foldl (fun _ _ h1 => .wr h1) (.upd h))) (.foldl (fun _ _ h1 => .wr h1) (.upd h)))

theorem drawSeeds {n} : Canonical (State.drawSeeds n s) := by
  induction n generalizing s with
  | zero => exact h
  | succ n ih =>
    unfold State.drawSeeds
    exact ih (.wr (.draw h))

theorem loadEngines : Canonical s.loadEngines := .foldl (fun _ _ h1 => .modEng h1) h

theorem nameImages : Canonical s.nameImages := by
  unfold State.nameImages
  split
  · exact .wr (.wr (.wr h))
  · exact h

theorem enterService {bad} : Canonical (s.enterService bad) := by
  unfold State.enterService
  split
  · exact .boot (.wr (.wr (.wr h)))
  · exact .raise (.boot (.wr (.wr (.wr h))))

theorem supStartDone {started eeprom} : Canonical (Machine.supStartDone started eeprom s) := by
  unfold Machine.supStartDone
  extract_lets _ s1 s2
  have hs1 : Canonical s1 := .readBoard h
  have hs2 : Canonical s2 := .ite hs1 (.drawSeeds hs1)
  refine .ite h (.ite (.boot (.wr (.wr h))) ?_)
  split
  · exact h
  · extract_lets
    exact .linkDegraded (.enterService (.invRebuild (.readModules (.loadEngines (.nameImages (.ite
      (.upd hs2) hs2))))))

/-! ### SupReset -/

theorem holdTime : Canonical s.holdTime := .foldl (fun _ _ h1 => .ite h1 (.modTb (.wr h1))) h

theorem supRestart : Canonical s.supRestart :=
  .boot (.wr (.wr (.wr (.foldl (fun _ _ h1 => .modWarden h1) (.upd (.holdTime (.resetRegs h)))))))

theorem supReset : Canonical (Machine.supReset s) := .ite (.bump h) (.supRestart (.bump h))

theorem flushLate : Canonical s.flushLate := .foldl (fun _ _ h1 => .raiseRec h1) (.upd h)

theorem flushDeferred : Canonical s.flushDeferred :=
  .foldl (fun _ _ h1 => .notice h1) (.upd (.foldl (fun _ _ h1 => .ite (.completeFinal h1) (.complete h1))
    (.upd h)))

theorem endActivation : Canonical s.endActivation := by
  unfold State.endActivation
  extract_lets
  split
  · exact h
  · exact .completeFinal (.upd h)

theorem supReturn : Canonical (Machine.supReturn s) :=
  .ite h (.invRebuild (.readModules (.upd (.endActivation (.flushDeferred (.flushLate (.enterService
    (.nameImages (.upd h)))))))))

theorem supFallback : Canonical (Machine.supFallback s) := .ite h (.raise (.bump (.upd h)))

theorem wardenWatchdogPoll {w answered} : Canonical (Machine.wardenWatchdogPoll w answered s) :=
  .ite h (.ite (.modWarden h) (.ite (.modWarden h) (.raise (.modWarden h))))

theorem wardenResetDone {w restored} : Canonical (Machine.wardenResetDone w restored s) :=
  .ite h (.modWarden h)

theorem collect {e} : Canonical (s.collect e) :=
  .modEng (.bumpBy (.bumpBy (.bumpBy (.bumpBy (.bumpBy (.bumpBy (.bumpBy h)))))))

theorem counterCollection {w} : Canonical (Machine.counterCollection w s) :=
  .ite h (.modWarden (.foldl (fun _ _ h1 => .collect h1) h))

theorem lockstepMismatch {low high} : Canonical (Machine.lockstepMismatch low high s) :=
  .ite h (.raise (.supReset (.upd h)))

/-! ### Update -/

theorem applyStage {c image} : Kept (Machine.applyStage c image s) :=
  .ite .refuse (.ite .refuse (.accepted (.cacheIssue h)))

theorem imageStage {c image} : Canonical (Machine.imageStage c image s) :=
  .runCommand h fun _ h1 => Canonical.applyStage h1

theorem stageEnd {q tag kind l} : Canonical (s.stageEnd q tag kind l) := by
  unfold State.stageEnd
  dsimp only
  split
  · exact .completeFinal (.ite (.wr (.upd h)) (.wr (.upd h)))
  · exact .completeFinal (.imageRefused h)
  · exact .completeFinal h

theorem applyActivateSup {c} : Kept (Machine.applyActivateSup c s) := by
  unfold Machine.applyActivateSup
  extract_lets
  split
  · exact .refuse
  · split
    · exact .fail (.imageRefused h)
    · exact .accepted (.wr (.upd h))

theorem activateSup {c} : Canonical (Machine.activateSup c s) := by
  unfold Machine.activateSup
  extract_lets _ t
  have ht : Canonical t := .runCommand h fun _ h2 => Canonical.applyActivateSup h2
  exact .ite (.taking h) (.ite (.supReset ht) ht)

theorem applyActivatePack {c} : Kept (Machine.applyActivatePack c s) := by
  unfold Machine.applyActivatePack
  extract_lets
  split
  · exact .refuse
  · split
    · exact .fail (.imageRefused h)
    · exact .ite .refuse (.accepted (.wr (.wr (.wr (.upd h)))))

theorem activatePack {c} : Canonical (Machine.activatePack c s) :=
  .runCommand h fun _ h1 => Canonical.applyActivatePack h1

theorem imageActivate {c} : Canonical (Machine.imageActivate c s) := by
  unfold Machine.imageActivate
  split
  · exact .activateSup h
  · exact .activatePack h
  · exact .runCommand h fun _ h1 => .refuse

theorem rolloutEnd : Canonical s.rolloutEnd := by
  unfold State.rolloutEnd
  dsimp only
  split
  · exact .ite (.enterService (.wr (.wr (.nameImages (.upd h))))) (.wr (.wr (.nameImages (.upd h))))
  · exact .completeFinal (.ite (.enterService (.wr (.wr (.nameImages (.upd h))))) (.wr (.wr (.nameImages
      (.upd h)))))

theorem rolloutRestore {d} : Canonical (s.rolloutRestore d) :=
  .wr (.upd (.foldl (fun _ _ h1 => .idle (.modMe (.engineReset h1))) h))

theorem rolloutRetire {d} : Canonical (s.rolloutRetire d) := .foldl (fun _ _ h1 => .retire h1) h

theorem rolloutDomainTurn : Canonical (Machine.rolloutDomainTurn s) := by
  unfold Machine.rolloutDomainTurn
  refine .ite h ?_
  split
  · exact .rolloutEnd h
  · extract_lets _ s1 s2
    have hs1 : Canonical s1 := .rolloutRetire h
    have hs2 : Canonical s2 := .ite (.rolloutRestore hs1) hs1
    exact .ite h (.ite (.rolloutEnd hs2) hs2)

theorem secSvnCommit {width v} : Canonical (Machine.secSvnCommit width v s) := by
  unfold Machine.secSvnCommit
  extract_lets _ _ s0 s1 s2
  have hs0 : Canonical s0 := .writeRegBut h
  have hs1 : Canonical s1 := by
    unfold s1
    split
    · exact .ite (.wr hs0) hs0
    · exact hs0
  have hs2 : Canonical s2 := by
    unfold s2
    split
    · exact .ite (.wr hs1) hs1
    · exact hs1
  exact .upd hs2

theorem spdmAnswer {l} : Canonical (s.spdmAnswer l) := .upd h

theorem getMeasurements {index} : Canonical (Machine.getMeasurements index s) :=
  .ite (.spdmAnswer h) (.ite (.spdmAnswer h) (.ite (.spdmAnswer h) (.spdmAnswer h)))

theorem spdmEffect {m} : Canonical (s.spdmEffect m) := by
  unfold State.spdmEffect
  extract_lets
  split
  · exact .upd h
  · exact .upd h
  · exact .upd h
  · exact .upd h
  · exact .upd h
  · exact h

theorem spdmMessage {m} : Canonical (Machine.spdmMessage m s) := by
  unfold Machine.spdmMessage
  extract_lets
  refine .ite (.spdmAnswer h) ?_
  split <;> exact .spdmAnswer (.draw (.spdmEffect h))

theorem unlockDenied : Canonical s.unlockDenied := .raise (.bump h)

theorem unlockPhase0 {c} : Kept (Machine.unlockPhase0 c s) :=
  .ite .refuse (.ite (.fail (.unlockDenied h)) (.done (.upd (.draw h))))

theorem busyTaken : Canonical s.busyTaken := .foldl (fun _ _ h1 => .complete h1) h

theorem eraseBegin : Canonical s.eraseBegin := .selfFence (.busyTaken (.wr (.upd h)))

theorem unlockPhase1 {c} : Kept (Machine.unlockPhase1 c s) := by
  unfold Machine.unlockPhase1
  extract_lets _ _ _ used
  have hused : Canonical used := .upd (.scrub h)
  split
  · exact .fail hused
  · refine .ite (.fail hused) ?_
    split
    · exact .fail hused
    · exact .ite (.fail hused) (.ite (.fail (.unlockDenied hused)) (.done hused))

theorem unlocked : Canonical s.unlocked := .ite (.raise (.wr (.upd h))) (.eraseBegin h)

theorem serviceUnlock {c} : Canonical (Machine.serviceUnlock c s) := by
  unfold Machine.serviceUnlock
  extract_lets _ t
  have ht : Canonical t := .runCommand h fun _ h1 => Canonical.unlockPhase1 h1
  exact .ite (.runCommand h fun _ h2 => Canonical.unlockPhase0 h2) (.ite (.unlocked ht) ht)

theorem erasureGraceEnd : Canonical (Machine.erasureGraceEnd s) := by
  unfold Machine.erasureGraceEnd
  refine .ite h (.raise (.wr (.wr (.foldl (fun _ _ h1 => .modPort (.wr h1)) ?_))))
  exact ⟨h.1, rfl⟩

/-! ### Capture -/

theorem startCapture {src n c} : Canonical (s.startCapture src n c) :=
  .upd (.getD (fun _ e => .allocRing h e) h)

theorem applyReplayStart {c} : Kept (Machine.applyReplayStart c s) := by
  unfold Machine.applyReplayStart
  extract_lets
  split
  · exact .refuse
  · exact .ite .refuse (.ite .refuse (.ite .refuse (.done (.startCapture h))))

theorem applyPortStart {c} : Kept (Machine.applyPortStart c s) := by
  unfold Machine.applyPortStart
  extract_lets
  split
  · exact .refuse
  · extract_lets
    refine .ite .refuse (.ite .refuse ?_)
    split
    · exact .refuse
    · exact .ite .refuse (.ite .refuse (.done (.startCapture h)))

theorem applyStop {src c} : Kept (Machine.applyStop src c s) := by
  unfold Machine.applyStop
  split
  · exact .refuse
  · exact .ite (.done (.stopCapture h)) .refuse

theorem captureStart {c} : Canonical (Machine.captureStart c s) := by
  unfold Machine.captureStart
  refine .runCommand h fun _ h1 => ?_
  split
  · exact Canonical.applyReplayStart h1
  · exact Canonical.applyPortStart h1
  · exact Canonical.applyStop h1
  · exact Canonical.applyStop h1

theorem modCap {src f} : Canonical (s.modCap src f) := by
  unfold State.modCap
  extract_lets
  split
  · exact h
  · exact .upd h

theorem applyExport {c} : Kept (Machine.applyExport c s) := by
  unfold Machine.applyExport
  extract_lets
  refine .ite .refuse (.ite .refuse (.ite .refuse ?_))
  split
  · exact .refuse
  · extract_lets
    exact .ite .refuse (.ite .refuse (.accepted (.upd (.modCap h))))

theorem captureExport {c} : Canonical (Machine.captureExport c s) :=
  .runCommand h fun _ h1 => Canonical.applyExport h1

theorem lakeJobStart {u} : Canonical (Machine.lakeJobStart u s) := by
  unfold Machine.lakeJobStart
  extract_lets
  split
  · exact h
  · extract_lets s1
    have hs1 : Canonical s1 := .upd h
    refine .ite h ?_
    split
    · exact hs1
    · extract_lets
      exact .ite hs1 (.cacheIssue hs1)

theorem exportOver {u j f} : Canonical (s.exportOver u j f) :=
  .ite (.stopCapture (.modCap (.upd h))) (.modCap (.upd h))

theorem exportFails {u j} : Canonical (s.exportFails u j) := .bump (.exportOver h)

theorem lakeJobEnd {u} : Canonical (Machine.lakeJobEnd u s) := by
  unfold Machine.lakeJobEnd
  split
  · exact h
  · refine .ite h ?_
    split
    · exact .completeFinal (.bump (.exportOver h))
    · extract_lets
      exact .ite (.completeFinal (.exportFails h)) (.completeFinal (.bumpBy (.bumpBy (.bump
        (.exportOver h)))))

theorem exportDenied {q tag} : Canonical (s.exportDenied q tag) := by
  unfold State.exportDenied
  split
  · exact h
  · exact .completeFinal (.exportFails h)

theorem exportFreezeExpiry {src} : Canonical (Machine.exportFreezeExpiry src s) := .modCap h

theorem abandonExports : Canonical s.abandonExports :=
  .upd (.foldl (fun _ _ h1 => .completeFinal (.exportFails h1)) (.foldl (fun _ _ h1 => .completeFinal
    (.exportFails h1)) h))

theorem lakEnds {d} : Canonical (s.lakEnds d) := .wr (.wr h)

theorem lakStateCtl {width v image} : Canonical (Machine.lakStateCtl width v image s) :=
  .ite (.writeReg h) (.ite (.lakEnds (.writeReg h)) (.ite (.cacheIssue (.writeReg h)) (.cacheIssue
    (.writeReg h))))

theorem lakDoneOp {op src l} : Canonical (s.lakDoneOp op src l) :=
  .ite (.lakEnds h) (.ite (.lakEnds h) (.lakEnds (.modCap h)))

theorem cacheTaken : Canonical s.cacheTaken := .cacheIssue (.upd h)

theorem cacheLast {r} : Canonical (s.cacheLast r) := by
  unfold State.cacheLast
  split
  · exact .complete h
  · exact .complete h
  · exact .stageEnd h
  · exact .lakDoneOp h
  · exact h

theorem cacheFails {r} : Canonical (s.cacheFails r) := by
  unfold State.cacheFails
  dsimp only
  split
  · exact .complete (.cacheIssue (.upd h))
  · exact .exportDenied (.cacheIssue (.upd h))
  · exact .complete (.cacheIssue (.upd h))
  · exact .completeFinal (.cacheIssue (.upd h))
  · exact .lakEnds (.cacheIssue (.upd h))

theorem cxlCacheCompletion {ok} : Canonical (Machine.cxlCacheCompletion ok s) := by
  unfold Machine.cxlCacheCompletion
  split
  · exact h
  · exact .ite (.cacheFails h) (.ite (.cacheLast (.cacheTaken h)) (.cacheTaken h))

/-! ### Resets -/

theorem discardTaken : Canonical s.discardTaken := .upd h

theorem abandonCache : Canonical s.abandonCache :=
  .abandonExports (.ite (.lakEnds (.syncPools (.upd h))) (.syncPools (.upd h)))

theorem flrRun : Canonical s.flrRun := .upd (.resetRegs (.abandonCache (.discardTaken h)))

theorem flr : Canonical (Machine.flr s) := .ite h (.flrRun h)

theorem cxlDown : Canonical s.cxlDown := .upd (.flr h)

theorem portRun {p} : Canonical (s.portRun p) := .modPort (.wr (.resetRegs (.portDown h)))

theorem portRequest {p} : Canonical (s.portRequest p) := .ite (.bump h) (.portRun (.bump h))

theorem warmNotice : Canonical s.warmNotice := .ite h (.raise (.ite (.sendTo (.upd h)) (.upd h)))

theorem drainClosing {ch} : Canonical (s.drainClosing ch) := .foldl (fun _ _ h1 => .modPort h1) (.endJob h)

theorem warmComplete : Canonical s.warmComplete :=
  .busyTaken (.foldl (fun _ _ h1 => .publish h1) (.foldl (fun _ _ h1 => .endJob h1) (.foldl (fun _ _ h1 =>
    .drainClosing h1) (.finishWaits (.flushDeferred (.flushLate (.upd h)))))))

theorem cutFence {m} : Canonical (s.cutFence m) := by
  unfold State.cutFence
  split
  · exact h
  · refine .fenceEnd (.modMc (.foldl (fun _ _ ht => ?_) h))
    dsimp only
    split
    · exact ht
    · exact .ite (.dropCapture ht) (.ctxFrame (.updMem (.foldl (fun _ _ hu => .loseCtx hu) ht)))

theorem holdMemory : Canonical s.holdMemory :=
  .foldl (fun _ _ h1 => .modMc h1) (.foldl (fun _ _ h1 => .cutFence h1) h)

theorem warmRegs : Canonical s.warmRegs :=
  have h1 : Canonical (s.resetRegs .warm) := .resetRegs h
  .regs h1 (sorted_tkeep _ h1.1)

theorem clearHost : Canonical s.clearHost := .upd h

theorem clearLink : Canonical s.clearLink := .foldl (fun _ _ h1 => .modPort (.wr (.wr (.wr h1)))) h

theorem clearAcc {f engine} : Canonical (s.clearAcc f engine) := .updMem h

theorem warmDomains : Canonical s.warmDomains := by
  unfold State.warmDomains
  exact .boot (.wr (.wr (.wr (.warmRegs (.upd (.clearAcc (.clearLink (.clearHost (.holdMemory (.selfFence
    (.abandonCache h)))))))))))

theorem warmRequest : Canonical s.warmRequest :=
  .ite (.bump h) (.warmDomains (.warmComplete (.warmNotice (.bump h))))

theorem coldRun : Canonical s.coldRun := by
  unfold State.coldRun
  refine .wr (.wr (.wr (.upd (.wr (.wr (.foldl (fun _ _ h1 => .modPort h1) ?_))))))
  exact ⟨sorted_tkeep (fun k => (descOfKey k).any (fun h => fuseRegs.contains h.d)) h.1, rfl⟩

theorem coldRequest : Canonical s.coldRequest := .ite h (.wr (.coldRun h))

theorem powerOn : Canonical (Machine.powerOn s) := .coldRun h

theorem coldRstL {lowNs} : Canonical (Machine.coldRstL lowNs s) :=
  .ite h (.ite (.coldRun h) (.ite (.draw h) (.coldRun (.draw h))))

theorem brownOut : Canonical (Machine.brownOut s) := .upd (.coldRun h)

theorem brownOutRelease : Canonical (Machine.brownOutRelease s) := .ite (.coldRun h) h

theorem resetKind {kind port} : Canonical (s.resetKind kind port) := by
  unfold State.resetKind
  split
  · exact .warmRequest h
  · exact .supReset h
  · exact .portRequest h
  · exact .coldRequest h

theorem resetCtl {addr width v} : Canonical (Machine.resetCtl addr width v s) :=
  .ite (.bump h) (.ite (.wr h) (.resetKind (.wr (.wr h))))

/-! ### Power -/

theorem supplyFault {rail} : Canonical (Machine.supplyFault rail s) := .raise (.wr h)

theorem failLiveness : Canonical s.failLiveness := .ite (.selfFence h) h

theorem clearMem : Canonical s.clearMem := ⟨h.1, rfl⟩

theorem loseDomain {d} : Canonical (s.loseDomain d) := by
  unfold State.loseDomain
  split
  · exact .clearHost h
  · exact .clearLink h
  · exact .clearMem h
  · exact .clearAcc h
  · exact h

theorem trip {d cause counter} : Canonical (s.trip d cause counter) := by
  unfold State.trip
  extract_lets
  exact .ite h (.ite (.ite (.wr (.bump h)) h) (.ite (.domainFail (.powerOff (.bump h))) (.failLiveness
    (.loseDomain (.upd (.powerOff (.bump h)))))))

theorem gateDomain {d} : Canonical (s.gateDomain d) :=
  .ite h (.ite (.wr h) (.foldl (fun _ _ h1 => .modEng h1) (.powerOff (.wr h))))

theorem ungateDomain {d passed} : Canonical (s.ungateDomain d passed) :=
  .ite (.wr h) (.ite h (.ite (.wr (.wr (.wr h))) (.powerOff (.wr (.wr h)))))

theorem gateCtl {addr width v passed} : Canonical (Machine.gateCtl addr width v passed s) := by
  unfold Machine.gateCtl
  refine .ite (.bump h) ?_
  split
  · exact h
  · exact .foldl (fun _ _ h1 => .ite (.gateDomain h1) (.ungateDomain h1)) h

theorem warnSensor {t} : Canonical (s.warnSensor t) := .ite h (.raise (.bump (.upd h)))

theorem alert {l} : Canonical (s.alert l) := .upd h

theorem tripSensor {t} : Canonical (s.tripSensor t) :=
  .ite (.raise (.upd (.ite (.trip h) h))) (.ite (.trip h) h)

theorem thresholds {l} : Canonical (s.thresholds l) :=
  .foldl (fun _ _ h1 => .tripSensor h1) (.ite (.alert (.foldl (fun _ _ h1 => .warnSensor h1) h)) h)

theorem bandTime {b} : Canonical (s.bandTime b) := .ite (.bump (.upd h)) (.upd h)

theorem storeReading {t} : Canonical (s.storeReading t) := .wr (.wr h)

theorem sensorRead {temps} : Canonical (Machine.sensorRead temps s) := by
  unfold Machine.sensorRead
  extract_lets l _ s1 s2
  have hs1 : Canonical s1 := .foldl (fun _ _ h1 => .storeReading h1) (.foldl (fun _ _ h1 => .wr h1) h)
  have hs2 : Canonical s2 := by
    unfold s2 l
    split
    · exact hs1
    · exact .bandTime hs1
  exact .ite h (.thresholds hs2)

theorem referenceClockLoss {r} : Canonical (Machine.referenceClockLoss r s) := by
  unfold Machine.referenceClockLoss
  extract_lets
  split
  · exact .failLiveness (.upd h)
  · exact .failLiveness (.clearLink (.upd h))
  · exact .cxlDown h

/-! ### Stats -/

theorem applyStats {c} : Kept (Machine.applyStats c s) :=
  .ite .refuse (.ite .refuse (.later (.cacheIssue (.upd h))))

theorem statsRead {c} : Canonical (Machine.statsRead c s) := .runCommand h fun _ h1 => Canonical.applyStats h1

theorem latchBuffers : Canonical s.latchBuffers := .wr (.wr (.wr (.foldl (fun _ _ h1 => .wr h1) h)))

theorem latchSlots {e} : Canonical (s.latchSlots e) := .wr (.wr h)

theorem latchPool {k} : Canonical (s.latchPool k) := .wr h

theorem latchCredits {m p} : Canonical (s.latchCredits m p) := .wr (.wr (.wr h))

theorem latchBook {b} : Canonical (s.latchBook b) := by
  unfold State.latchBook
  split
  · exact .latchBuffers h
  · exact .foldl (fun _ _ h1 => .latchSlots h1) h
  · exact .foldl (fun _ _ h1 => .latchPool h1) h
  · exact .foldl (fun _ _ h1 => .foldl (fun _ _ h2 => .latchCredits h2) h1) h
  · exact .latchRing (.latchRing h)

theorem audit {b} : Canonical (s.audit b) := by
  unfold State.audit
  split
  · exact h
  · exact .auditFail h

theorem bookLatch {b} : Canonical (Machine.bookLatch b s) := .ite h (.audit (.wr (.wr (.latchBook h))))

theorem bookSnapSkipped {b} : Canonical (Machine.bookSnapSkipped b s) := .ite h (.wr (.wr h))

/-! ### Regs -/

theorem strictWrite {err holds addr width v} : Canonical (s.strictWrite err holds addr width v) :=
  .ite (.wr h) (.writeReg h)

theorem thresholdWrite {p addr width v} : Canonical (s.thresholdWrite p addr width v) :=
  .ite (.wr (.writeReg h)) (.writeReg h)

theorem bankWrite {p bank addr width v} : Canonical (s.bankWrite p bank addr width v) :=
  .ite (.wr h) (.dropNever (.regate (.writeReg h)))

theorem ethWrite {addr width v} : Canonical (s.ethWrite addr width v) := by
  unfold State.ethWrite
  extract_lets
  refine .ite h (.ite (.ethCfgWrite h) (.ite (.ethGateCtlWrite h) (.ite (.thresholdWrite h) (.ite (.dropNever
    (.regate (.writeReg h))) ?_))))
  split
  · exact .bankWrite h
  · exact .writeReg h

theorem cptWrite {addr width v} : Canonical (s.cptWrite addr width v) := .ite (.wr h) (.writeReg h)

theorem xqCtlWrite {x addr width v} : Canonical (s.xqCtlWrite x addr width v) :=
  .ite (.writeReg h) (.ite (.upd (.wr (.wr (.writeRegBut h)))) (.wr (.writeRegBut h)))

theorem nqCtlWrite {addr width v} : Canonical (s.nqCtlWrite addr width v) :=
  .ite (.writeReg h) (.ite (.upd (.wr (.writeRegBut h))) (.wr (.writeRegBut h)))

theorem queueWrite {addr width v} : Canonical (s.queueWrite addr width v) :=
  .ite (.ite (.qCtlDisable h) (.writeReg h)) (.ite (.nqCtlWrite h) (.ite (.xqCtlWrite h) (.writeReg h)))

theorem doorbell {addr width v} : Canonical (s.doorbell addr width v) :=
  .ite (.ite (.sqTail h) (.ite (.cqHead h) h)) (.ite (.nqHead h) (.ite (.xqHead h) h))

theorem msixWrite {addr width v} : Canonical (s.msixWrite addr width v) := .upd (.writeReg h)

theorem barWrite {addr width v} : Canonical (s.barWrite addr width v) :=
  .ite (.doorbell h) (.ite (.queueWrite h) (.ite (.ethWrite h) (.ite (.strictWrite h) (.ite (.strictWrite h)
    (.ite (.cptWrite h) (.ite (.coefWrite h) (.ite (.ppsWrite h) (.ite (.glzBankWrite h) (.ite
    (.hsSizeWrite h) (.ite (.memChCtlReset h) (.ite (.ringInsert h) (.ite (.lakStateCtl h) (.ite
    (.resetCtl h) (.ite (.secSvnCommit h) (.ite (.msixWrite h) (.ite (.gateCtl (.draw h))
    (.writeReg h)))))))))))))))))

theorem hwSets {addr width v} : Canonical (s.hwSets addr width v) :=
  .ite h (.foldl (fun _ _ h1 => .ite (.wr h1) h1) h)

omit h in
theorem markSnaps {t} (ht : Canonical t) : Canonical (s.markSnaps t) := by
  unfold State.markSnaps
  exact .foldl (fun _ _ h1 => .ite (.requestSnap h1) h1) ht

theorem registerWrite {addr width w} : Canonical (Machine.registerWrite addr width w s) :=
  .ite (.bump h) (.markSnaps (.hwSets (.barWrite h)))

theorem registerRead {addr width event} : Canonical (Machine.registerRead addr width event s) :=
  .ite (.upd h) (.ite (.draw (.upd h)) (.readReg h))

/-! ### Step -/

theorem withFetchWord {nbits w} : Canonical (s.withFetchWord nbits w) := by
  unfold State.withFetchWord
  split
  · exact h
  · exact .upd h

end

/-! ### Rows and steps -/

/-- The state that an outcome answers, if it answers one, is canonical. -/
def Answered (o : Out) : Prop := ∀ t, o = .next t → Canonical t

theorem Answered.next {t : State} (h : Canonical t) : Answered (.next t) := fun _ e => Host.Outcome.next.inj e ▸ h

/-- Every row keeps the stores canonical. -/
theorem exec (h : Canonical s) : ∀ i, Answered (Machine.exec i s)
  | .registerWrite _ _ _ => .next (.registerWrite h)
  | .rcRegisterRead _ _ _ => .next (.registerRead h)
  | .wardenWatchdogPoll _ _ => .next (.wardenWatchdogPoll h)
  | .wardenResetDone _ _ => .next (.wardenResetDone h)
  | .counterCollection _ => .next (.counterCollection h)
  | .lockstepMismatch _ _ => .next (.lockstepMismatch h)
  | .tickBoundary _ => .next (.tickBoundary h)
  | .tickEntryTaken _ => .next (.whileOn h fun _ h1 => .tickEntryTaken h1)
  | .chanOpen _ => .next (.chanOpen h)
  | .chanModify _ => .next (.chanModify h)
  | .chanClose _ => .next (.chanClose h)
  | .callBind _ => .next (.callBind h)
  | .callUnbind _ => .next (.callUnbind h)
  | .housekeepingPublication _ => .next (.housekeepingPublication h)
  | .deferredPublication _ => .next (.tryPublish h)
  | .stateWindowWrite _ => .next (.stateWindowWrite h)
  | .snapshot _ => .next (.snapshot h)
  | .statsRead _ => .next (.statsRead h)
  | .ethCfgWrite _ _ _ => .next (.ethCfgWrite h)
  | .linkUp _ => .next (.linkUp h)
  | .linkStageTimeout _ _ => .next (.linkStageTimeout h)
  | .linkDown _ => .next (.portDown h)
  | .modPrsFall _ _ => .next (.modPrsFall h)
  | .moduleRemoval _ => .next (.moduleRemoval h)
  | .modIntFall _ _ => .next (.moduleFlags h)
  | .moduleMonitorPoll _ _ => .next (.moduleMonitorPoll h)
  | .frameReceive _ _ => .next (.frameReceive h)
  | .pauseExpiry _ => .next (.pauseExpiry h)
  | .transmitDescriptor _ _ => .next (.transmitDescriptor h)
  | .frameTransmitStart _ => .next (.frameTransmitStart h)
  | .frameTransmitEnd _ => .next (.frameTransmitEnd h)
  | .txUnderrun _ _ => .next (.txUnderrun h)
  | .gateIntervalEnd _ => .next (.regate h)
  | .ethGateCtlWrite _ _ _ => .next (.ethGateCtlWrite h)
  | .gateSwap _ => .next (.gateSwap h)
  | .flowLookup _ _ => .next (.whileOn h fun _ h1 => .flowLookup h1)
  | .previousKeyDiscard _ => .next (.whileOn h fun _ h1 => .previousKeyDiscard h1)
  | .excRateWindow => .next (.whileOn h fun _ h1 => .excNow h1)
  | .arpRequest _ _ _ _ => .next (.arpRequest h)
  | .flowSlotRewrite _ => .next (.whileOn h fun _ h1 => .flowSlotRewrite h1)
  | .flwBookSnap => .next (.requestSnap h)
  | .bookLatch _ => .next (.bookLatch h)
  | .bookSnapSkipped _ => .next (.bookSnapSkipped h)
  | .egressPacketBuild _ => .next (.whileOn h fun _ h1 => .egressPacketBuild h1)
  | .steepRingWrite => .next (.whileOn h fun _ h1 => .steepRingWrite h1)
  | .transitWindowAge _ => .next (.whileOn h fun _ h1 => .transitWindowAge h1)
  | .playoutTick _ => .next (.whileOn h fun _ h1 => .playoutTick h1)
  | .forceAfterExpiry _ => .next (.whileOn h fun _ h1 => .forceAfterExpiry h1)
  | .ringMove _ => .next (.whileOn h fun _ h1 => .ringMove h1)
  | .weldOffer _ => .next (.whileOn h fun _ h1 => .weldOffer h1)
  | .weldAnswerTimeout _ => .next (.whileOn h fun _ h1 => .weldAnswerTimeout h1)
  | .repairSymbolReceive _ _ => .next (.whileOn h fun _ h1 => .repairSymbolReceive h1)
  | .decodeJobStart _ => .next (.whileOn h fun _ h1 => .decodeJobStart h1)
  | .decodeJobEnd _ => .next (.whileOn h fun _ h1 => .decodeJobEnd h1)
  | .ffBlockTimeout _ => .next (.whileOn h fun _ h1 => .ffBlockTimeout h1)
  | .fecSet _ => .next (.fecSet h)
  | .ecSet _ => .next (.ecSet h)
  | .woadSearch _ _ => .next (.whileOn h fun _ h1 => .woadSearch h1)
  | .nlpHoldEnd _ => .next (.nlpHoldEnd h)
  | .doubleTalkEnd _ => .next (.doubleTalkEnd h)
  | .nlpHangEnd _ => .next (.nlpHangEnd h)
  | .disablerRelease _ => .next (.disablerRelease h)
  | .glazeDescriptorStart _ => .next (.whileOn h fun _ h1 => .glazeStart h1)
  | .glazeDescriptorComplete _ => .next (.whileOn h fun _ h1 => .glazeComplete h1)
  | .glzBankSwap _ _ => .next (.glzBankWrite h)
  | .fadingEnd => .next (.fadingEnd h)
  | .toneSet _ => .next (.toneSet h)
  | .toneGen _ => .next (.toneGen h)
  | .eventTimeout _ => .next (.eventTimeout h)
  | .faxMode _ => .next (.faxMode h)
  | .vbdReturnIdle _ => .next (.vbdReturnIdle h)
  | .qualificationTimeout _ => .next (.qualificationTimeout h)
  | .udptlReorderTimeout _ => .next (.udptlReorderTimeout h)
  | .txSigEndTimeout _ => .next (.txSigEndTimeout h)
  | .saffronSilenceEnd _ => .next (.saffronSilenceEnd h)
  | .textBlockTimeout _ => .next (.textBlockTimeout h)
  | .baudotMarkHoldEnd _ => .next (.baudotMarkHoldEnd h)
  | .skeinDispatch _ => .next (.whileOn h fun _ h1 => .skeinDispatch h1)
  | .bundleIssue _ _ _ => .next (.bundleChecked h)
  | .streamEntryArrival _ => .next (.whileOn h fun _ h1 => .streamEntryArrival h1)
  | .loopCountEnd _ _ => .next (.loopCountEnd h)
  | .interruptEntry _ _ => .next (.interruptEntry h)
  | .budgetReached _ => .next (.budgetReached h)
  | .pmemReload _ => .next (.pmemReload h)
  | .taskOffer _ => .next (.whileOn h fun _ h1 => .taskOffer h1)
  | .immediateTaskAccept => .next (.whileOn h fun _ h1 => .immediateTaskAccept h1)
  | .immediateHoldReoffer => .next (.whileOn h fun _ h1 => .immediateHoldReoffer h1)
  | .skeinWindowClose _ _ => .next (.whileOn h fun _ h1 => .skeinWindowClose h1)
  | .stealNear _ => .next (.whileOn h fun _ h1 => .stealNear h1)
  | .stealFar _ => .next (.whileOn h fun _ h1 => .stealFar h1)
  | .taskTransitEnd => .next (.whileOn h fun _ h1 => .taskTransitEnd h1)
  | .jobAbort _ _ => .next (.jobAbort h)
  | .engineDomainFailure _ => .next (.engineDomainFailure h)
  | .evacuationWindowClose => .next (.whileOn h fun _ h1 => .evacuationWindowClose h1)
  | .morBookSnap => .next (.requestSnap h)
  | .loadSecond => .next (.loadSecond h)
  | .memoryRequest _ _ => .next (.whileOn h fun _ h1 => .memoryRequest h1)
  | .urgencyRise _ _ => .next (.whileOn h fun _ h1 => .urgencyRise h1)
  | .writeQueueDrain _ => .next (.whileOn h fun _ h1 => .writeQueueDrain h1)
  | .rowIdleClose _ _ => .next (.whileOn h fun _ h1 => .rowIdleClose h1)
  | .activateTableClear _ => .next (.whileOn h fun _ h1 => .activateTableClear h1)
  | .patrolScrub _ _ _ => .next (.whileOn h fun _ h1 => .patrolScrub h1)
  | .alertN _ => .next (.whileOn h fun _ h1 => .alertN h1)
  | .writeCrcError _ => .next (.whileOn h fun _ h1 => .writeCrcError h1)
  | .dimmThermalPoll _ => .next (.dimmThermalPoll h)
  | .periodicRetrain _ _ _ => .next (.whileOn h fun _ h1 => .periodicRetrain h1)
  | .migrationPageCopy _ _ => .next (.whileOn h fun _ h1 => .migrationPageCopy h1)
  | .fenceEnd _ => .next (.fenceEnd h)
  | .memChCtlReset _ _ _ => .next (.memChCtlReset h)
  | .memchTrainingDone _ _ => .next (.memchTrainingDone h)
  | .memBookSnap => .next (.requestSnap h)
  | .hsSizeWrite _ _ => .next (.hsSizeWrite h)
  | .memTrainingDone _ => .next (.memTrainingDone h)
  | .selfRefreshEntry _ => .next (.selfRefreshEntry h)
  | .selfRefreshExit => .next (.selfRefreshExit h)
  | .timLatch => .next (.timLatch h)
  | .ref10mLock => .next (.ref10mLock h)
  | .ref10mLoss => .next (.ref10mLoss h)
  | .ptpSync _ _ _ _ => .next (.ptpSync h)
  | .ptpDelayResp _ _ _ _ _ _ => .next (.ptpDelayResp h)
  | .servoHoldover _ => .next (.servoHoldover h)
  | .ppsInEdge => .next (.ppsInEdge h)
  | .ppsOutEdge => .next (.ppsOutEdge h)
  | .timestampPop _ => .next (.timestampPop h)
  | .timebaseConfigure _ => .next (.timebaseConfigure h)
  | .timebaseFreq _ => .next (.timebaseFreq h)
  | .timebaseLoad _ => .next (.timebaseLoad h)
  | .timebaseHostSample _ => .next (.timebaseHostSample h)
  | .timebaseStepAccept _ => .next (.timebaseStepAccept h)
  | .cxlLinkDown => .next (.cxlDown h)
  | .flr => .next (.flr h)
  | .perst => .next (.cxlDown h)
  | .hdmDecoderCommit _ => .next (.hdmDecoderCommit h)
  | .cxlMemAccess _ _ => .next (.cxlMemAccess h)
  | .bisnpResponse _ => .next (.bisnpResponse h)
  | .h2dSnoop _ => .next (.upd h)
  | .cxlCacheCompletion _ => .next (.cxlCacheCompletion h)
  | .getEventRecords _ => .next (.getEventRecords h)
  | .clearEventRecords _ _ _ => .next (.clearEventRecords h)
  | .getTimestamp => .next (.getTimestamp h)
  | .setTimestamp _ => .next (.setTimestamp h)
  | .getSupportedLogs => .next (.getSupportedLogs h)
  | .getLog _ _ _ => .next (.getLog h)
  | .identifyMemoryDevice => .next (.identifyMemoryDevice h)
  | .getHealthInfo => .next (.getHealthInfo h)
  | .getPoisonList => .next (.getPoisonList h)
  | .fnBootInfo => .next (.fnBootInfo h)
  | .fnImageLoad _ _ => .next (.fnImageLoad h)
  | .fnImageStart _ => .next (.fnImageStart h)
  | .fnImageVerified => .next (.fnImageVerified h)
  | .fnCapacity => .next (.fnCapacity h)
  | .romSelfTestDone _ => .next (.romSelfTestDone h)
  | .supStartDone _ _ => .next (.supStartDone h)
  | .qCtlEnable _ _ _ => .next (.qCtlEnable h)
  | .qCtlDisable _ _ _ => .next (.qCtlDisable h)
  | .sqTail _ _ _ => .next (.sqTail h)
  | .commandFetch => .next (.commandFetch h)
  | .cqHead _ _ _ => .next (.cqHead h)
  | .cqCoalesceTimeout _ => .next (.cqCoalesceTimeout h)
  | .xqHead _ _ _ => .next (.xqHead h)
  | .nqHead _ _ => .next (.nqHead h)
  | .mbxHostBookSnap => .next (.requestSnap h)
  | .replayStart _ => .next (.captureStart h)
  | .portCaptureStart _ => .next (.captureStart h)
  | .replayStop _ => .next (.captureStart h)
  | .portCaptureStop _ => .next (.captureStart h)
  | .captureExport _ => .next (.captureExport h)
  | .lakeJobStart _ => .next (.whileOn h fun _ h1 => .lakeJobStart h1)
  | .lakeJobEnd _ => .next (.whileOn h fun _ h1 => .lakeJobEnd h1)
  | .exportFreezeExpiry _ => .next (.exportFreezeExpiry h)
  | .lakeStateSave _ _ => .next (.lakStateCtl h)
  | .lakeStateRestore _ _ _ => .next (.lakStateCtl h)
  | .mirrorPair _ => .next (.mirrorPair h)
  | .failoverTake _ => .next (.failoverTake h)
  | .engineRetire _ => .next (.engineRetire h)
  | .engineRestore _ => .next (.engineRestore h)
  | .engineSelfTestDone _ _ => .next (.engineSelfTestDone h)
  | .imageStageSup _ _ => .next (.imageStage h)
  | .imageStagePack _ _ => .next (.imageStage h)
  | .imageActivateSup _ => .next (.imageActivate h)
  | .imageActivatePack _ => .next (.imageActivate h)
  | .rolloutDomainTurn => .next (.rolloutDomainTurn h)
  | .serviceUnlockChallenge _ => .next (.serviceUnlock h)
  | .serviceUnlockResponse _ => .next (.serviceUnlock h)
  | .erasureGraceEnd => .next (.erasureGraceEnd h)
  | .rngInsert _ _ => .next (.ringInsert h)
  | .ringInsertTimeout => .next (.ringInsertTimeout h)
  | .ringLinkTrained _ => .next (.ringLinkTrained h)
  | .linkFrame _ _ => .next (.linkFrame h)
  | .ringRetrain _ => .next (.ringRetrain h)
  | .heartbeatSend => .next (.heartbeatSend h)
  | .heartbeat _ _ => .next (.heartbeat h)
  | .identity _ _ => .next (.identity h)
  | .pairOffer _ _ _ _ => .next (.pairOffer h)
  | .pairConfirm _ _ _ => .next (.pairConfirm h)
  | .pairOfferTimeout => .next (.pairOfferTimeout h)
  | .settings _ => .next (.settings h)
  | .settingsAckTimeout _ => .next (.settingsAckTimeout h)
  | .delta _ => .next (.delta h)
  | .deltaSend _ => .next (.deltaSend h)
  | .sync _ => .next (.sync h)
  | .syncSend _ => .next (.syncSend h)
  | .mirrorLagCheck => .next (.mirrorLagCheck h)
  | .ctxRequest _ _ => .next (.ctxRequest h)
  | .fenceQuery _ _ => .next (.fenceQuery h)
  | .fenceAnswer _ _ => .next (.fenceAnswer h)
  | .fenceDemand _ _ => .next (.fenceDemand h)
  | .fenceDemandTimeout => .next (.fenceDemandTimeout h)
  | .hold _ _ => .next (.hold h)
  | .holdExpiry => .next (.holdExpiry h)
  | .resumeQuery _ _ => .next (.resumeQuery h)
  | .resumeAnswer _ => .next (.resumeAnswer h)
  | .livenessRefresh => .next (.livenessRefresh h)
  | .livenessFailure => .next (.livenessFailure h)
  | .upstreamSilence => .next (.upstreamSilence h)
  | .adoption => .next (.adoption h)
  | .announcementRepeat => .next (.announcementRepeat h)
  | .rngBookSnap => .next (.requestSnap h)
  | .warmReset _ _ => .next (.resetCtl h)
  | .supReset _ _ => .next (.resetCtl h)
  | .portReset _ _ => .next (.resetCtl h)
  | .coldReset _ _ => .next (.resetCtl h)
  | .supReturn => .next (.supReturn h)
  | .supFallback => .next (.supFallback h)
  | .secSvnCommit _ _ => .next (.secSvnCommit h)
  | .eventCoalesceFlush _ _ _ _ => .next (.eventCoalesceFlush h)
  | .getMeasurements _ => .next (.getMeasurements h)
  | .spdmMessage _ => .next (.spdmMessage h)
  | .powerOn => .next (.powerOn h)
  | .coldRstL _ => .next (.coldRstL h)
  | .supplyFault _ => .next (.supplyFault h)
  | .brownOut _ => .next (.brownOut h)
  | .engineDomainGate _ _ => .next (.gateCtl (.draw h))
  | .engineDomainUngate _ _ _ => .next (.gateCtl h)
  | .overcurrentTrip _ => .next (.trip h)
  | .sensorRead _ => .next (.sensorRead h)
  | .tripComparator _ => .next (.thresholds h)
  | .referenceClockLoss _ => .next (.referenceClockLoss h)
  | .srtpKeySet _ => .next (.srtpKeySet h)
  | .dramRefresh _ _ => .next (.whileOn h fun _ h1 => .dramRefresh h1)
  | .cxlLinkTrained _ _ => .next (.cxlLinkTrained h)
  | .ringLinkDown _ => .next (.ringLinkDown h)
  | .tapBlockLock => .next (.tapBlockLock h)
  | .brownOutRelease => .next (.brownOutRelease h)
  | .ptpAnnounce _ _ => .next (.ptpAnnounce h)

/-- An idle step lets the time bases advance; any other runs the command at the front on the queue's rest. -/
theorem step (h : Canonical s) : Answered (Machine.step s) := by
  unfold Machine.step
  split
  · exact .next (.tclkCycle h)
  · exact exec (.upd h) _

/-- Settles O4: the form of the stores is kept by every operation that a row is made of. -/
theorem canonicalKept : Obligations.CanonicalKept := fun _ t h e => step h t e

end Sys2Proof.Safety.Canonical
end

section
/-! ### Tick boundaries -/
namespace Sys2Proof.Machine
open Sys2Proof.Safety

/-- Below a full queue a boundary joins at the end and no register changes. -/
theorem pushTick_of_room {s : State} {n : Nat} (b : Nat) (h : (s.tb n).tickQ.length < 16) :
    s.pushTick n b = s.modTb n (fun t => { t with tickQ := (s.tb n).tickQ ++ [b], lastTick := b }) := by
  simp only [State.pushTick, ge_iff_le, Nat.not_le.mpr h, if_false]

/-- A full queue loses its oldest entry, and a missed tick is counted (R25). -/
theorem pushTick_of_full {s : State} {n : Nat} (b : Nat) (h : 16 ≤ (s.tb n).tickQ.length) :
    s.pushTick n b = (s.modTb n (fun t => { t with tickQ := (s.tb n).tickQ.tail ++ [b], lastTick := b })).bump stpMissedTick n := by
  simp only [State.pushTick, ge_iff_le, h, if_true]

/-- Settles O6: the queue has room for the boundary, or it is full. -/
theorem tickBoundaryQueued : Obligations.TickBoundaryQueued := by
  intro tb s n b
  refine ⟨fun h => congrArg Host.Outcome.next (if_neg h), fun h => ⟨s.pushTick n b, congrArg Host.Outcome.next (if_pos h), ?_⟩⟩
  rcases Nat.lt_or_ge (s.tb n).tickQ.length 16 with hroom | hfull
  · rw [pushTick_of_room b hroom]
    refine ⟨?_, ?_, ?_, fun _ => ⟨?_, rfl⟩, fun hfull => absurd hroom (by omega), fun _ _ _ _ => rfl, fun m hm => State.modTb_tb_ne s _ hm, rfl⟩ <;>
      simp [State.tbVal]
  · rw [pushTick_of_full b hfull]
    refine ⟨?_, ?_, ?_, fun hroom => absurd hroom (by omega), fun _ => ⟨?_, ?_⟩, fun d i j hd => State.rd_bump_ne _ hd, fun m hm => ?_, rfl⟩
    · simp
    · simp
    · simp [State.tbVal]
    · simp
    · exact State.rd_bump_self _ stpMissedTick n 0
    · rw [State.bump_tb, State.modTb_tb_ne s _ hm]

end Sys2Proof.Machine
end

section
/-! ### Books -/
namespace Sys2Proof.Machine
open Sys2Proof.Safety

/-- Nothing but registers has changed. -/
def OnlyRegs (s t : State) : Prop := t = { s with regs := t.regs }

namespace OnlyRegs

theorem refl (s : State) : OnlyRegs s s := rfl

theorem wr {s t : State} (h : OnlyRegs s t) (d : RegDesc) (v i j : Nat) : OnlyRegs s (t.wr d v i j) := by
  rw [h]
  rfl

theorem foldl {α : Type} {s t : State} {f : State → α → State} {l : List α} (hf : ∀ u x, OnlyRegs s u → OnlyRegs s (f u x))
    (h : OnlyRegs s t) : OnlyRegs s (l.foldl f t) := by
  induction l generalizing t with
  | nil => exact h
  | cons x r ih => exact ih (hf t x h)

end OnlyRegs

/-- A latch writes snapshot values and nothing else. -/
theorem latchBook_onlyRegs (s : State) (b : Book) : OnlyRegs s (s.latchBook b) := by
  cases b with
  | packetBuffers => exact (((OnlyRegs.refl s).foldl fun _ _ h => h.wr _ _ _ _).wr _ _ _ _).wr _ _ _ _ |>.wr _ _ _ _
  | taskSlots => exact (OnlyRegs.refl s).foldl fun _ _ h => (h.wr _ _ _ _).wr _ _ _ _
  | cxlCredits => exact (OnlyRegs.refl s).foldl fun _ _ h => h.wr _ _ _ _
  | dramCredits => exact (OnlyRegs.refl s).foldl fun _ _ h => h.foldl fun _ _ h1 => ((h1.wr _ _ _ _).wr _ _ _ _).wr _ _ _ _
  | ringCredits =>
    have latchRing : ∀ {t : State} (x : Nat), OnlyRegs s t → OnlyRegs s (t.latchRing x) := fun _ h =>
      ((((h.wr _ _ _ _).wr _ _ _ _).wr _ _ _ _).wr _ _ _ _).wr _ _ _ _
    exact latchRing 1 (latchRing 0 (.refl s))

theorem audit_of_balanced {s : State} {b : Book} (h : ∀ x ∈ s.bookSums b, x.1 = x.2) : s.audit b = s := by
  have hnone : (s.bookSums b).find? (fun x => x.1 != x.2) = none := List.find?_eq_none.mpr fun x hx => by simp [h x hx]
  simp only [State.audit, hnone]

theorem audit_of_imbalance {s : State} {b : Book} {x : Nat × Nat} (h : (s.bookSums b).find? (fun x => x.1 != x.2) = some x) :
    s.audit b = s.auditFail (bookNo b) (wrapInt 32 ((x.1 : Int) - x.2)) := by
  simp only [State.audit, h]

/-- An audit changes nothing, or raises one event. -/
theorem audit_cases (s : State) (b : Book) : s.audit b = s ∨ ∃ d, s.audit b = s.raise 0x0001 uSUP 0 0xFFFF (bookNo b) 0 d := by
  unfold State.audit
  split
  · exact .inl rfl
  · exact .inr ⟨_, rfl⟩

/-- REQ and DONE of a book are fields apart, and no event counts in either. -/
theorem bookRegs_keys (b : Book) : (bookRegs b).1.key 0 0 ≠ (bookRegs b).2.1.key 0 0 ∧
    (bookRegs b).1.key 0 0 ≠ secEventsCoalesced.key 0 0 ∧ (bookRegs b).2.1.key 0 0 ≠ secEventsCoalesced.key 0 0 := by
  cases b <;> decide

theorem bookRegs_width (b : Book) : (bookRegs b).2.1.width = 1 := by cases b <;> rfl

theorem bookLatch_of_quiescent {s : State} {b : Book} (hreq : s.flag (bookRegs b).1 = true) (hq : s.quiescent b = true)
    (hdue : s.now ≤ tget s.sup.snapAt (bookNo b) 0 + us 1) :
    bookLatch b s = (((s.latchBook b).wr (bookRegs b).1 0).wr (bookRegs b).2.1 1).audit b := by
  simp [bookLatch, hreq, hq, Nat.not_lt.mpr hdue]

theorem bookLatch_of_idle {s : State} {b : Book} (h : s.flag (bookRegs b).1 = false ∨ s.quiescent b = false ∨
    tget s.sup.snapAt (bookNo b) 0 + us 1 < s.now) : bookLatch b s = s := by
  rcases h with h | h | h <;> simp [bookLatch, h]

theorem bookSnapSkipped_of_overdue {s : State} {b : Book} (hreq : s.flag (bookRegs b).1 = true)
    (h : tget s.sup.snapAt (bookNo b) 0 + us 1 < s.now ∨ s.now = tget s.sup.snapAt (bookNo b) 0 + us 1 ∧ s.quiescent b = false) :
    bookSnapSkipped b s = (s.wr (bookRegs b).1 0).wr (bookRegs b).2.2 1 := by
  rcases h with h | ⟨h, hq⟩
  · simp [bookSnapSkipped, hreq, h.not_gt, h.ne']
  · simp [bookSnapSkipped, hreq, h, hq]

theorem bookSnapSkipped_of_early {s : State} {b : Book} (h : s.flag (bookRegs b).1 = false ∨
    s.now < tget s.sup.snapAt (bookNo b) 0 + us 1 ∨ s.now = tget s.sup.snapAt (bookNo b) 0 + us 1 ∧ s.quiescent b = true) :
    bookSnapSkipped b s = s := by
  rcases h with h | h | ⟨h, hq⟩
  · simp [bookSnapSkipped, h]
  · simp [bookSnapSkipped, h]
  · simp [bookSnapSkipped, h, hq]

/-- What a latch leaves once it has been audited. -/
theorem audit_latched (s : State) (b : Book) : let t := (((s.latchBook b).wr (bookRegs b).1 0).wr (bookRegs b).2.1 1).audit b
    t.flag (bookRegs b).1 = false ∧ t.flag (bookRegs b).2.1 = true ∧ t.chans = s.chans ∧ t.ports = s.ports ∧ t.engines = s.engines ∧
      t.mor = s.mor ∧ t.mem = s.mem ∧ t.ring = s.ring ∧ t.ing = s.ing := by
  obtain ⟨hne, hev1, hev2⟩ := bookRegs_keys b
  have hu : OnlyRegs s (((s.latchBook b).wr (bookRegs b).1 0).wr (bookRegs b).2.1 1) := ((latchBook_onlyRegs s b).wr _ _ _ _).wr _ _ _ _
  have hreq : (((s.latchBook b).wr (bookRegs b).1 0).wr (bookRegs b).2.1 1).flag (bookRegs b).1 = false := by
    rw [State.flag_wr_ne _ _ hne, State.flag_wr_self, Nat.zero_mod]
    rfl
  have hdone : (((s.latchBook b).wr (bookRegs b).1 0).wr (bookRegs b).2.1 1).flag (bookRegs b).2.1 = true := by
    rw [State.flag_wr_self, bookRegs_width]
    rfl
  generalize ((s.latchBook b).wr (bookRegs b).1 0).wr (bookRegs b).2.1 1 = u at hu hreq hdone
  rcases audit_cases u b with h | ⟨d, h⟩
  · rw [h, hu]
    rw [hu] at hreq hdone
    exact ⟨hreq, hdone, rfl, rfl, rfl, rfl, rfl, rfl, rfl⟩
  · rw [h]
    refine ⟨(State.raise_flag_ne _ _ _ _ _ _ _ _ hev1).trans hreq, (State.raise_flag_ne _ _ _ _ _ _ _ _ hev2).trans hdone, ?_⟩
    rw [hu]
    simp

/-- Settles O42: a latch writes registers alone, of which REQ and DONE are the last, and the audit adds one event or nothing. -/
theorem booksLatched : Obligations.BooksLatched := by
  refine ⟨fun b s h => ⟨congrArg _ (bookLatch_of_idle (.inl h)), congrArg _ (bookSnapSkipped_of_early (.inl h))⟩, ?_⟩
  intro b s due r u hreq
  refine ⟨fun hq hdue hsums => ?_, fun x hq hdue hx => ?_, fun hq hdue => ⟨_, congrArg Host.Outcome.next (bookLatch_of_quiescent hreq hq hdue), audit_latched s b⟩,
    fun h => congrArg _ (bookLatch_of_idle (.inr h)), fun h => congrArg _ (bookSnapSkipped_of_overdue hreq h),
    fun h => congrArg _ (bookSnapSkipped_of_early (.inr h))⟩
  · exact congrArg Host.Outcome.next ((bookLatch_of_quiescent hreq hq hdue).trans (audit_of_balanced hsums))
  · exact congrArg Host.Outcome.next ((bookLatch_of_quiescent hreq hq hdue).trans (audit_of_imbalance hx))

end Sys2Proof.Machine
end

section
/-! ### Domains: gating, ungating, and rows without power -/
namespace Sys2Proof.Machine
open Sys2Proof.Safety

/-! #### One bit of a register -/

theorem bit_eq_testBit (w i : Nat) : bit w i = w.testBit i := by
  rw [bit, Nat.testBit_eq_decide_div_mod_eq]
  rfl

theorem bit_two_pow (d k : Nat) : bit (2 ^ d) k = decide (d = k) := by
  rw [bit_eq_testBit, Nat.testBit_two_pow]

/-- The bit that a power of two sets where it was clear. -/
theorem bit_add_two_pow_self {w d : Nat} (h : bit w d = false) : bit (w + 2 ^ d) d = true := by
  rw [bit_eq_testBit] at *
  rw [Nat.add_comm, Nat.testBit_two_pow_add_eq, h]
  rfl

/-- Where bit `d` is clear, adding `2 ^ d` carries into no other bit. -/
theorem bit_add_two_pow_ne {w d k : Nat} (h : bit w d = false) (hk : k ≠ d) : bit (w + 2 ^ d) k = bit w k := by
  have heven : w / 2 ^ d % 2 = 0 := by simpa [bit] using h
  rw [bit_eq_testBit, bit_eq_testBit]
  rcases Nat.lt_or_gt_of_ne hk with hlt | hgt
  · rw [Nat.add_comm, Nat.testBit_two_pow_add_gt hlt]
  · obtain ⟨m, rfl⟩ : ∃ m, k = m + (d + 1) := ⟨k - (d + 1), by omega⟩
    have hhigh : (w + 2 ^ d) / 2 ^ (d + 1) = w / 2 ^ (d + 1) := by
      rw [pow_succ, ← Nat.div_div_eq_div_mul, ← Nat.div_div_eq_div_mul, Nat.add_div_right _ (Nat.two_pow_pos d)]
      omega
    rw [← Nat.testBit_div_two_pow, hhigh, Nat.testBit_div_two_pow]

/-- Where bit `d` is set, taking `2 ^ d` away clears it. -/
theorem bit_sub_two_pow_self {w d : Nat} (h : bit w d = true) : bit (w - 2 ^ d) d = false := by
  rw [bit_eq_testBit] at *
  have hw : 2 ^ d + (w - 2 ^ d) = w := Nat.add_sub_cancel' (Nat.ge_two_pow_of_testBit h)
  rw [← hw, Nat.testBit_two_pow_add_eq, Bool.not_eq_true'] at h
  exact h

/-- A bit within the width of a field is not cut off. -/
theorem bit_mod_two_pow {w d n : Nat} (h : d < n) : bit (w % 2 ^ n) d = bit w d := by
  rw [bit_eq_testBit, bit_eq_testBit, Nat.testBit_mod_two_pow, decide_eq_true h, Bool.true_and]

/-! #### Folds over the state -/

/-- What no step of a fold changes, the fold does not change. -/
theorem foldl_keeps {α β : Type} (g : State → β) {f : State → α → State} (hf : ∀ u x, g (f u x) = g u) (l : List α) (s : State) :
    g (l.foldl f s) = g s := by
  induction l generalizing s with
  | nil => rfl
  | cons x l ih => rw [List.foldl_cons, ih, hf]

/-! #### A write of PWR_ENG_GATE in which one bit acts -/

theorem foldl_range_once {f : State → Nat → State} {n d : Nat} {s t : State} (hd : d < n) (hbefore : ∀ k < d, f s k = s)
    (hat : f s d = t) (hafter : ∀ k, d < k → k < n → f t k = t) : (List.range n).foldl f s = t := by
  obtain ⟨m, rfl⟩ : ∃ m, n = d + (1 + m) := ⟨n - d - 1, by omega⟩
  have hid : ∀ {u : State} {l : List Nat}, (∀ k ∈ l, f u k = u) → l.foldl f u = u := by
    intro u l h
    induction l with
    | nil => rfl
    | cons k l ih =>
      rw [List.foldl_cons, h k List.mem_cons_self]
      exact ih fun j hj => h j (List.mem_cons_of_mem _ hj)
  rw [List.range_add, List.foldl_append, hid fun k hk => hbefore k (List.mem_range.mp hk), List.range_add, List.map_append, List.foldl_append]
  simp only [List.range_one, List.map_cons, List.map_nil, List.foldl_cons, List.foldl_nil, Nat.add_zero, hat]
  refine hid fun k hk => ?_
  simp only [List.map_map, List.mem_map, List.mem_range, Function.comp] at hk
  obtain ⟨j, hj, rfl⟩ := hk
  exact hafter _ (by omega) (by omega)

/-- A 64-bit write of PWR_ENG_GATE, bit by bit. -/
theorem gateCtl_word (v : Nat) (passed : Bool) (s : State) (hv : v < 2 ^ 24) : gateCtl 0xF0008 64 v passed s =
    (List.range 24).foldl (fun s d => if bit v d then s.gateDomain d else s.ungateDomain d passed) s := by
  have hw : writtenTo pwrEngGate 0 0 0xF0008 64 v = some v := by
    show some (v * 2 ^ 0 / 2 ^ 0 % 2 ^ 24) = _
    rw [pow_zero, Nat.mul_one, Nat.div_one, Nat.mod_eq_of_lt hv]
  simp only [gateCtl, hw, show goodAccess 0xF0008 64 = true from rfl, Bool.not_true, Bool.false_eq_true, if_false]

/-- No bit to clear, and no cause that keeps the domain off: nothing happens. -/
theorem ungateDomain_of_clear {s : State} {d : Nat} (passed : Bool) (hc : s.rd pwrDomCause d < 2) (hg : bit (s.rd pwrEngGate) d = false) :
    s.ungateDomain d passed = s := by
  simp [State.ungateDomain, hc, hg]

/-- A write in which only the bit of domain `d` acts. -/
theorem gateCtl_once {s t : State} {d v : Nat} {passed : Bool} (hd : d < 24) (hv : v < 2 ^ 24) (hbits : ∀ k, k ≠ d → bit v k = false)
    (hs : ∀ k < 24, k ≠ d → s.rd pwrDomCause k < 2 ∧ bit (s.rd pwrEngGate) k = false)
    (hat : (if bit v d then s.gateDomain d else s.ungateDomain d passed) = t)
    (ht : ∀ k < 24, k ≠ d → t.rd pwrDomCause k < 2 ∧ bit (t.rd pwrEngGate) k = false) : gateCtl 0xF0008 64 v passed s = t := by
  rw [gateCtl_word v passed s hv]
  refine foldl_range_once hd (fun k hk => ?_) hat fun k hk hk24 => ?_
  · obtain ⟨hc, hg⟩ := hs k (by omega) (by omega)
    simp only [hbits k (by omega), Bool.false_eq_true, if_false, ungateDomain_of_clear passed hc hg]
  · obtain ⟨hc, hg⟩ := ht k hk24 (by omega)
    simp only [hbits k (by omega), Bool.false_eq_true, if_false, ungateDomain_of_clear passed hc hg]

/-! #### Powering off -/

theorem pwrDomCause_key_ne {d k : Nat} (h : k ≠ d) : pwrDomCause.key k 0 ≠ pwrDomCause.key d 0 := by
  simp only [RegDesc.key, pwrDomCause]
  omega

/-- The cause of a domain stands in a word of its own: no other field of the domains lies there. -/
theorem pwrDomCause_key_apart (k : Nat) {d : Nat} (hk : k < 24) : pwrDomCause.key k 0 ≠ pwrTjNow.key d 0 ∧
    pwrDomCause.key k 0 ≠ pwrEngOn.key 0 0 ∧ pwrDomCause.key k 0 ≠ pwrEngGate.key 0 0 ∧ pwrDomCause.key k 0 ≠ secEventsCoalesced.key 0 0 ∧
    pwrDomCause.key k 0 ≠ pwrCfgErr.key 0 0 := by
  simp only [RegDesc.key, pwrDomCause, pwrTjNow, pwrEngOn, pwrEngGate, secEventsCoalesced, pwrCfgErr]
  omega


/-- PWR_ENG_ON, PWR_ENG_GATE and CFG_ERR stand apart from every sensor and cause. -/
theorem pwrFields_key_apart (d : Nat) : pwrEngOn.key 0 0 ≠ pwrDomCause.key d 0 ∧ pwrEngOn.key 0 0 ≠ pwrTjNow.key d 0 ∧
    pwrEngGate.key 0 0 ≠ pwrDomCause.key d 0 ∧ pwrEngGate.key 0 0 ≠ pwrTjNow.key d 0 := by
  simp only [RegDesc.key, pwrDomCause, pwrTjNow, pwrEngOn, pwrEngGate]
  omega

section
variable (s : State) (d cause : Nat)

/-- What a domain's loss of power writes: its cause, its sensor's reading and, where it was powered, its bit of PWR_ENG_ON. -/
def State.offRegs (on : Bool) : State :=
  let s1 := (s.wr pwrDomCause (max (s.rd pwrDomCause d) cause) d).wr pwrTjNow 0x8000 d
  if on then s1.wr pwrEngOn (s.rd pwrEngOn - 2 ^ d) else s1

theorem offRegs_frame (on : Bool) (p : PwrSt) : State.offRegs { s with pwr := p } d cause on = { s with pwr := p, regs := (s.offRegs d cause on).regs } := by
  cases on <;> rfl

/-- An engine domain loses power by these writes and, where it had no cause yet, an event. -/
theorem powerOff_cases (hd : d < 24) : ∃ p : PwrSt,
    let u : State := { s with pwr := p, regs := (s.offRegs d cause (bit (s.rd pwrEngOn) d)).regs }
    s.powerOff d cause = u ∨ s.powerOff d cause = u.raise 0x0071 uPWR d 0xFFFF d 0 cause := by
  obtain ⟨hcause, hnow, -⟩ := pwrFields_key_apart d
  refine ⟨{ s.pwr with offAt := tset s.pwr.offAt d (some s.now) none }, ?_⟩
  rw [← offRegs_frame]
  simp only [State.powerOff, State.offRegs, State.rd_wr_ne _ _ hcause, State.rd_wr_ne _ _ hnow, hd, decide_true, Bool.true_and]
  by_cases h : s.rd pwrDomCause d = 0
  · exact .inr (if_pos h)
  · exact .inl (if_neg h)

variable {s d}

/-- Of the registers, loss of power changes those of `offRegs` alone. -/
theorem powerOff_rd (hd : d < 24) {f : RegDesc} {i : Nat} (h : f.key i 0 ≠ secEventsCoalesced.key 0 0) :
    (s.powerOff d cause).rd f i = (s.offRegs d cause (bit (s.rd pwrEngOn) d)).rd f i := by
  obtain ⟨p, hp | hp⟩ := powerOff_cases s d cause hd
  · rw [hp]
    rfl
  · rw [hp, State.raise_rd_ne _ _ _ _ _ _ _ _ h]
    rfl

theorem powerOff_frame (hd : d < 24) : (s.powerOff d cause).chans = s.chans ∧ (s.powerOff d cause).mem = s.mem ∧ (s.powerOff d cause).engines = s.engines := by
  obtain ⟨p, hp | hp⟩ := powerOff_cases s d cause hd
  · rw [hp]
    exact ⟨rfl, rfl, rfl⟩
  · rw [hp]
    simp

theorem powerOff_rd_pwrDomCause (hd : d < 24) : (s.powerOff d cause).rd pwrDomCause d = max (s.rd pwrDomCause d) cause % 8 := by
  obtain ⟨hnow, hon, -, hev, -⟩ := pwrDomCause_key_apart d (d := d) hd
  rw [powerOff_rd cause hd hev]
  cases bit (s.rd pwrEngOn) d
  · exact (State.rd_wr_ne _ _ hnow).trans (State.rd_wr_self s pwrDomCause _ d 0)
  · exact ((State.rd_wr_ne _ _ hon).trans (State.rd_wr_ne _ _ hnow)).trans (State.rd_wr_self s pwrDomCause _ d 0)

theorem powerOff_rd_pwrEngOn (hd : d < 24) : (s.powerOff d cause).rd pwrEngOn =
    if bit (s.rd pwrEngOn) d then (s.rd pwrEngOn - 2 ^ d) % 2 ^ 24 else s.rd pwrEngOn := by
  obtain ⟨hcause, hnow, -⟩ := pwrFields_key_apart d
  rw [powerOff_rd cause hd (by decide)]
  cases bit (s.rd pwrEngOn) d
  · exact (State.rd_wr_ne _ _ hnow).trans (State.rd_wr_ne _ _ hcause)
  · exact State.rd_wr_self _ pwrEngOn _ 0 0

/-- A field that is none of those of `offRegs` keeps its value. -/
theorem powerOff_rd_ne (hd : d < 24) {f : RegDesc} {i : Nat} (hc : f.key i 0 ≠ pwrDomCause.key d 0) (hn : f.key i 0 ≠ pwrTjNow.key d 0)
    (ho : f.key i 0 ≠ pwrEngOn.key 0 0) (hev : f.key i 0 ≠ secEventsCoalesced.key 0 0) : (s.powerOff d cause).rd f i = s.rd f i := by
  rw [powerOff_rd cause hd hev]
  cases bit (s.rd pwrEngOn) d
  · exact (State.rd_wr_ne _ _ hn).trans (State.rd_wr_ne _ _ hc)
  · exact (State.rd_wr_ne _ _ ho).trans ((State.rd_wr_ne _ _ hn).trans (State.rd_wr_ne _ _ hc))

end

/-! #### The rows -/

/-- The engines of a domain keep their counts and nothing else. -/
def State.emptyEngines (s : State) (d : Nat) : State :=
  ((List.range 4).map (4 * d + ·)).foldl (fun (s : State) e => s.modEng e (fun x => { count := x.count })) s

theorem emptyEngines_frame (s : State) (d : Nat) : (s.emptyEngines d).regs = s.regs ∧ (s.emptyEngines d).chans = s.chans ∧
    (s.emptyEngines d).mem = s.mem :=
  ⟨foldl_keeps State.regs (fun u e => State.modEng_regs u e _) _ s, foldl_keeps State.chans (fun u e => State.modEng_chans u e _) _ s,
    foldl_keeps State.mem (fun u e => State.modEng_mem u e _) _ s⟩

theorem emptyEngines_eng (s : State) (d e : Nat) : (s.emptyEngines d).eng e = if e / 4 = d then { count := (s.eng e).count } else s.eng e := by
  have hstep : ∀ (l : List Nat) (s : State), l.Nodup → (l.foldl (fun (s : State) e => s.modEng e (fun x => { count := x.count })) s).eng e =
      if e ∈ l then { count := (s.eng e).count } else s.eng e := by
    intro l
    induction l with
    | nil => simp
    | cons k l ih =>
      intro s hl
      obtain ⟨hk, hl⟩ := List.nodup_cons.mp hl
      rw [List.foldl_cons, ih _ hl]
      by_cases he : e = k
      · simp [he, hk]
      · simp [he, State.modEng_eng_ne]
  have hmem : e ∈ (List.range 4).map (4 * d + ·) ↔ e / 4 = d := by
    simp only [List.mem_map, List.mem_range]
    exact ⟨by rintro ⟨i, hi, rfl⟩; omega, fun h => ⟨e % 4, by omega, by omega⟩⟩
  rw [State.emptyEngines, hstep _ _ (by simp [List.nodup_iff_pairwise_ne, List.range_succ])]
  simp only [hmem]

/-- A retired, powered domain is gated: its bit is set, it loses power with cause 1, and its engines are emptied. -/
theorem gateDomain_of_retired {s : State} {d : Nat} (hg : s.rd pwrEngGate = 0) (hr : s.domainRetired d = true) (hp : s.powered d = true) :
    s.gateDomain d = ((s.wr pwrEngGate (2 ^ d)).powerOff d 1).emptyEngines d := by
  have hbit : bit 0 d = false := by simp [bit]
  simp only [State.gateDomain, hg, hr, hp, hbit, Nat.zero_add, Bool.false_eq_true, if_false, Bool.not_true, Bool.or_self]
  rfl

theorem gateDomain_of_serving {s : State} {d : Nat} (hg : s.rd pwrEngGate = 0) (hr : s.domainRetired d = false) :
    s.gateDomain d = s.wr pwrCfgErr 1 := by
  have hbit : bit 0 d = false := by simp [bit]
  simp only [State.gateDomain, hg, hr, hbit, Bool.false_eq_true, if_false, Bool.not_false, Bool.true_or, if_true]

/-- What a gated domain leaves. -/
theorem gateDomain_gated {s : State} {d : Nat} (hd : d < 24) (hg : s.rd pwrEngGate = 0) (hc : s.rd pwrDomCause d < 2)
    (hr : s.domainRetired d = true) (hp : s.powered d = true) :
    let t := s.gateDomain d
    t.rd pwrEngGate = 2 ^ d ∧ t.powered d = false ∧ t.rd pwrDomCause d = 1 ∧ (∀ k < 24, k ≠ d → t.rd pwrDomCause k = s.rd pwrDomCause k) ∧
      (∀ e, e / 4 = d → t.eng e = { count := (s.eng e).count }) ∧ (∀ e, e / 4 ≠ d → t.eng e = s.eng e) ∧ t.chans = s.chans ∧ t.mem = s.mem := by
  intro t
  have hon : bit (s.rd pwrEngOn) d = true := by simpa [State.powered, hd] using hp
  obtain ⟨hgc, hgn⟩ := (pwrFields_key_apart d).2.2
  obtain ⟨hchans, hmem, hengines⟩ := powerOff_frame (s := s.wr pwrEngGate (2 ^ d)) 1 hd
  have hgateval : 2 ^ d < 2 ^ 24 := Nat.pow_lt_pow_right (by decide) hd
  have hgate : ((s.wr pwrEngGate (2 ^ d)).powerOff d 1).rd pwrEngGate = 2 ^ d := by
    rw [powerOff_rd_ne 1 hd hgc hgn (by decide) (by decide)]
    exact (State.rd_wr_self s pwrEngGate _ 0 0).trans (Nat.mod_eq_of_lt hgateval)
  have hpow : bit (((s.wr pwrEngGate (2 ^ d)).powerOff d 1).rd pwrEngOn) d = false := by
    rw [powerOff_rd_pwrEngOn 1 hd, State.rd_wr_ne _ _ (by decide), hon, if_pos rfl, bit_mod_two_pow hd]
    exact bit_sub_two_pow_self hon
  have hcause : ∀ k < 24, (s.wr pwrEngGate (2 ^ d)).rd pwrDomCause k = s.rd pwrDomCause k := fun k hk =>
    State.rd_wr_ne s _ (pwrDomCause_key_apart k (d := d) hk).2.2.1
  have hcd : ((s.wr pwrEngGate (2 ^ d)).powerOff d 1).rd pwrDomCause d = 1 := by
    rw [powerOff_rd_pwrDomCause 1 hd, hcause d hd]
    omega
  have hck : ∀ k < 24, k ≠ d → ((s.wr pwrEngGate (2 ^ d)).powerOff d 1).rd pwrDomCause k = s.rd pwrDomCause k := fun k hk hkd => by
    obtain ⟨hn, ho, -, hev, -⟩ := pwrDomCause_key_apart k (d := d) hk
    rw [powerOff_rd_ne 1 hd (pwrDomCause_key_ne hkd) hn ho hev, hcause k hk]
  rw [show t = _ from gateDomain_of_retired hg hr hp]
  generalize (s.wr pwrEngGate (2 ^ d)).powerOff d 1 = u at *
  obtain ⟨hregs, hchans', hmem'⟩ := emptyEngines_frame u d
  have hrd : ∀ f i, (u.emptyEngines d).rd f i = u.rd f i := fun f i => by simp only [State.rd, hregs]
  have heng : ∀ e, u.eng e = s.eng e := fun e => by simp only [State.eng, hengines]; rfl
  refine ⟨(hrd _ _).trans hgate, ?_, (hrd _ _).trans hcd, fun k hk hkd => (hrd _ _).trans (hck k hk hkd), fun e he => ?_, fun e he => ?_,
    hchans'.trans hchans, hmem'.trans hmem⟩
  · rw [State.powered, if_pos hd, hrd]
    exact hpow
  · rw [emptyEngines_eng, if_pos he, heng]
  · rw [emptyEngines_eng, if_neg he, heng]

/-- The host powers domain `d` again, the only one gated: its bit and cause are cleared, and its self-test decides. -/
theorem ungateDomain_of_gated {s : State} {d : Nat} (passed : Bool) (hg : s.rd pwrEngGate = 2 ^ d) (hc : s.rd pwrDomCause d < 2) :
    s.ungateDomain d passed = let s1 := (s.wr pwrEngGate 0).wr pwrDomCause 0 d
      if passed then s1.wr pwrEngOn (s.rd pwrEngOn + 2 ^ d) else s1.powerOff d 4 := by
  have hbit : bit (2 ^ d) d = true := by simp [bit_two_pow]
  simp only [State.ungateDomain, hg, hbit, Nat.not_le.mpr hc, decide_false, Bool.false_eq_true, if_false, Bool.not_true, Nat.sub_self]

/-- What an ungated domain leaves. -/
theorem ungateDomain_ungated {s : State} {d : Nat} (passed : Bool) (hd : d < 24) (hg : s.rd pwrEngGate = 2 ^ d)
    (hon : bit (s.rd pwrEngOn) d = false) (hc : s.rd pwrDomCause d < 2) :
    let t := s.ungateDomain d passed
    t.rd pwrEngGate = 0 ∧ t.powered d = passed ∧ (passed = false → t.rd pwrDomCause d = 4) ∧
      (∀ k < 24, k ≠ d → t.powered k = s.powered k ∧ t.rd pwrDomCause k = s.rd pwrDomCause k) ∧
      t.chans = s.chans ∧ t.engines = s.engines ∧ t.mem = s.mem := by
  intro t
  let u := (s.wr pwrEngGate 0).wr pwrDomCause 0 d
  obtain ⟨hoc, -, hgc, hgn⟩ := pwrFields_key_apart d
  have hugate : u.rd pwrEngGate = 0 := (State.rd_wr_ne _ _ hgc).trans (State.rd_wr_self s pwrEngGate 0 0 0)
  have huon : u.rd pwrEngOn = s.rd pwrEngOn := (State.rd_wr_ne _ _ hoc).trans (State.rd_wr_ne s _ (by decide))
  have hucd : u.rd pwrDomCause d = 0 := State.rd_wr_self _ pwrDomCause 0 d 0
  have hucause : ∀ k < 24, k ≠ d → u.rd pwrDomCause k = s.rd pwrDomCause k := fun k hk hkd =>
    (State.rd_wr_ne _ _ (pwrDomCause_key_ne hkd)).trans (State.rd_wr_ne s _ (pwrDomCause_key_apart k (d := d) hk).2.2.1)
  have ht : t = if passed then u.wr pwrEngOn (s.rd pwrEngOn + 2 ^ d) else u.powerOff d 4 := ungateDomain_of_gated passed hg hc
  cases passed with
  | true =>
    have hton : t.rd pwrEngOn = (s.rd pwrEngOn + 2 ^ d) % 2 ^ 24 := by
      rw [ht]
      exact State.rd_wr_self u pwrEngOn _ 0 0
    refine ⟨?_, ?_, fun h => absurd h (by decide), fun k hk hkd => ⟨?_, ?_⟩, ?_, ?_, ?_⟩
    · rw [ht]
      exact (State.rd_wr_ne u _ (by decide)).trans hugate
    · rw [State.powered, if_pos hd, hton, bit_mod_two_pow hd, bit_add_two_pow_self hon]
    · rw [State.powered, State.powered, if_pos hk, if_pos hk, hton, bit_mod_two_pow hk, bit_add_two_pow_ne hon hkd]
    · rw [ht]
      exact (State.rd_wr_ne u _ (pwrDomCause_key_apart k (d := d) hk).2.1).trans (hucause k hk hkd)
    · rw [ht]; rfl
    · rw [ht]; rfl
    · rw [ht]; rfl
  | false =>
    obtain ⟨hchans, hmem, hengines⟩ := powerOff_frame (s := u) 4 hd
    have hton : t.rd pwrEngOn = s.rd pwrEngOn := by
      rw [ht, if_neg (by decide), powerOff_rd_pwrEngOn 4 hd, huon, hon, if_neg (by decide)]
    rw [if_neg (by decide)] at ht
    refine ⟨?_, ?_, fun _ => ?_, fun k hk hkd => ⟨?_, ?_⟩, ?_, ?_, ?_⟩
    · rw [ht, powerOff_rd_ne 4 hd hgc hgn (by decide) (by decide), hugate]
    · rw [State.powered, if_pos hd, hton, hon]
    · rw [ht, powerOff_rd_pwrDomCause 4 hd, hucd]
      rfl
    · rw [State.powered, State.powered, if_pos hk, if_pos hk, hton]
    · obtain ⟨hn, ho, -, hev, -⟩ := pwrDomCause_key_apart k (d := d) hk
      rw [ht, powerOff_rd_ne 4 hd (pwrDomCause_key_ne hkd) hn ho hev, hucause k hk hkd]
    · rw [ht, hchans]; rfl
    · rw [ht, hengines]; rfl
    · rw [ht, hmem]; rfl

/-- A row of a unit that needs PD-MEM or PD-ACC runs in `whileOn` of those domains. -/
theorem exec_eq_whileOn (i : Instr) (s : State) (h : domainsOf i ≠ []) : ∃ f, exec i s = .next (s.whileOn (domainsOf i) f) := by
  cases i with
  | steepRingWrite | playoutTick | ringMove | weldOffer | repairSymbolReceive | decodeJobStart | decodeJobEnd | ffBlockTimeout
  | skeinDispatch | streamEntryArrival | lakeJobStart | lakeJobEnd | memoryRequest | urgencyRise | writeQueueDrain
  | rowIdleClose | activateTableClear | patrolScrub | alertN | writeCrcError | periodicRetrain | migrationPageCopy | dramRefresh
  | flowLookup | previousKeyDiscard | excRateWindow | flowSlotRewrite | egressPacketBuild | tickEntryTaken | transitWindowAge
  | forceAfterExpiry | weldAnswerTimeout | woadSearch | glazeDescriptorStart | glazeDescriptorComplete | taskOffer
  | immediateTaskAccept | immediateHoldReoffer | skeinWindowClose | stealNear | stealFar | taskTransitEnd
  | evacuationWindowClose => exact ⟨_, rfl⟩
  | _ => exact absurd rfl h

/-- The row of a unit without power does nothing (Table 1.3). -/
theorem exec_of_unitOff {i : Instr} {s : State} (h : ¬unitOn i s) : exec i s = .next s := by
  have hoff : (domainsOf i).any s.pwr.domainsOff.contains = true := by simpa using h
  obtain ⟨f, hf⟩ := exec_eq_whileOn i s (fun hnil => by simp [hnil] at hoff)
  rw [hf, s.whileOn_off f hoff]

/-- Settles O21: a write of PWR_ENG_GATE acts on the one domain whose bit it changes, and every other bit finds nothing to do. -/
theorem domainGating : Obligations.DomainGating := by
  have hval : ∀ d : Fin 24, (BitVec.ofNat 64 (2 ^ d.val)).toNat = 2 ^ d.val := by decide
  have hlt : ∀ d : Fin 24, 2 ^ d.val < 2 ^ 24 := by decide
  have hother : ∀ {d k : Nat}, k ≠ d → bit (2 ^ d) k = false := fun h => by rw [bit_two_pow, decide_eq_false (Ne.symm h)]
  have hzero : ∀ k, bit 0 k = false := by simp [bit]
  refine ⟨fun d s hg hc hr hp => ?_, fun d s hg hc hr => ?_, fun d passed s hg _ hon hc => ?_, fun i s => exec_of_unitOff⟩
  · obtain ⟨tgate, tpow, tcause, tother, tself, teng, tchans, tmem⟩ := gateDomain_gated (s := s.draw) d.isLt hg (hc d d.isLt) hr hp
    refine ⟨_, congrArg Host.Outcome.next (gateCtl_once d.isLt ?_ ?_ ?_ ?_ ?_), tgate, tpow, tcause, tself, teng, tchans, tmem⟩
    · rw [hval]; exact hlt d
    · rw [hval]; exact fun k => hother
    · exact fun k hk _ => ⟨hc k hk, by rw [State.draw_rd, hg, hzero]⟩
    · rw [hval, bit_two_pow, decide_eq_true rfl, if_pos rfl]
    · exact fun k hk hkd => ⟨(tother k hk hkd).trans_lt (hc k hk), by rw [tgate, hother hkd]⟩
  · refine congrArg Host.Outcome.next (gateCtl_once d.isLt ?_ ?_ ?_ ?_ ?_)
    · rw [hval]; exact hlt d
    · rw [hval]; exact fun k => hother
    · exact fun k hk _ => ⟨hc k hk, by rw [State.draw_rd, hg, hzero]⟩
    · rw [hval, bit_two_pow, decide_eq_true rfl, if_pos rfl, gateDomain_of_serving (s := s.draw) hg hr]
    · exact fun k hk _ => ⟨(State.rd_wr_ne _ _ (pwrDomCause_key_apart k (d := d) hk).2.2.2.2).trans_lt (hc k hk),
        by rw [State.rd_wr_ne _ _ (by decide), State.draw_rd, hg, hzero]⟩
  · obtain ⟨tgate, tpow, tcause, tother, tchans, tengines, tmem⟩ := ungateDomain_ungated passed d.isLt hg hon (hc d d.isLt)
    refine ⟨_, congrArg Host.Outcome.next (gateCtl_once d.isLt (by decide) (fun k _ => hzero k) ?_ ?_ ?_), tgate, tpow, tcause,
      fun k hk hkd => (tother k hk hkd).1, tchans, tengines, tmem⟩
    · exact fun k hk hkd => ⟨hc k hk, by rw [hg, hother hkd]⟩
    · rw [show (0 : Word64).toNat = 0 from rfl, hzero, if_neg (by decide)]
    · exact fun k hk hkd => ⟨(tother k hk hkd).2.trans_lt (hc k hk), by rw [tgate, hzero]⟩

end Sys2Proof.Machine
end

section
/-! ### Wardens, counters, the core pair and Bister's return -/
namespace Sys2Proof.Machine
open Sys2Proof.Safety

/-! #### Wardens and counters -/

/-- Bister polls a warden. -/
def State.polls (s : State) (w : Nat) : Bool := !s.sup.restarting && s.served && !(s.warden w).standIn

theorem polls_iff (s : State) (w : Nat) : s.polls w = true ↔ s.sup.restarting = false ∧ s.served = true ∧ (s.warden w).standIn = false := by
  simp [State.polls, and_assoc]

theorem wardenWatchdogPoll_eq (w : Nat) (answered : Bool) (s : State) : wardenWatchdogPoll w answered s =
    if !s.polls w then s
    else if answered then s.modWarden w (fun x => { x with missed := 0 })
    else if (s.warden w).missed + 1 < 3 then s.modWarden w (fun x => { x with missed := x.missed + 1 })
    else (s.modWarden w (fun x => { x with missed := 0, standIn := true, resetting := true })).raise 0x0002 uSUP w 0xFFFF w := by
  simp [wardenWatchdogPoll, State.polls, Bool.or_assoc]

theorem wardenResetDone_eq (w : Nat) (restored : Bool) (s : State) : wardenResetDone w restored s = if (s.warden w).resetting
    then s.modWarden w (fun x => { x with resetting := false, standIn := !restored, givenUp := !restored }) else s := by
  cases h : (s.warden w).resetting <;> simp [wardenResetDone, h]

/-- A collection reads engines and writes registers and engines. -/
theorem collect_frame (s : State) (e : Nat) : (s.collect e).sup = s.sup ∧ (s.collect e).chans = s.chans ∧ (s.collect e).mem = s.mem ∧
    (s.collect e).ports = s.ports := by
  simp [State.collect]

theorem counterCollection_early {w : Nat} {s : State} (h : s.now < (s.warden w).collectAt) : counterCollection w s = s := by
  simp [counterCollection, h]

theorem counterCollection_due {w : Nat} {s : State} (hr : s.sup.restarting = false) (h : (s.warden w).collectAt ≤ s.now) :
    let t := counterCollection w s
    (t.warden w).collectAt = s.now + ms (if (s.warden w).standIn then 4 else 1) ∧ t.chans = s.chans ∧ t.mem = s.mem ∧ t.ports = s.ports := by
  let u := (enginesOfWarden w).foldl State.collect s
  have heq : counterCollection w s = u.modWarden w (fun x => { x with collectAt := s.now + ms (if x.standIn then 4 else 1) }) := by
    simp only [counterCollection, hr, Nat.not_lt.mpr h, decide_false, Bool.or_self, Bool.false_eq_true, if_false]
    rfl
  have hsup : u.sup = s.sup := foldl_keeps State.sup (fun v e => (collect_frame v e).1) _ s
  rw [heq]
  refine ⟨?_, ?_, ?_, ?_⟩
  · rw [State.modWarden_warden_self, State.warden, hsup]
    rfl
  · exact foldl_keeps State.chans (fun u e => (collect_frame u e).2.1) _ s
  · exact foldl_keeps State.mem (fun u e => (collect_frame u e).2.2.1) _ s
  · exact foldl_keeps State.ports (fun u e => (collect_frame u e).2.2.2) _ s

/-! #### The SUP reset -/

theorem tget_tkeep {α : Type} (t : Tbl α) {p : Nat → Bool} {k : Nat} (d : α) (h : p k = true) : tget (tkeep t p) k d = tget t k d := by
  induction t with
  | nil => rfl
  | cons e r ih =>
    obtain ⟨j, v⟩ := e
    rw [tkeep] at ih ⊢
    by_cases hj : j = k
    · subst hj
      simp [tget, h]
    · by_cases hp : p j = true
      · simp [tget, hj, hp, ih]
      · simp [tget, hj, hp, ih]

theorem resetRegs_rd_supResetsSup (s : State) : (s.resetRegs .sup).rd supResetsSup = s.rd supResetsSup := by
  refine tget_tkeep s.regs (p := fun k => match descOfKey k with
    | none => true
    | some h => keeps h.d.kept .sup || (if h.d.kept = .none then h.d.acc = .ro && ResetKind.sup != .cold else !ownedBy .sup 0 h)) _ ?_
  decide +kernel

theorem boot_rd_ne (s : State) (b : Nat) {d : RegDesc} {i j : Nat} (hbusy : d.key i j ≠ supResetBusy.key 0 0)
    (hstate : d.key i j ≠ mbxBootState.key 0 0) : (s.boot b).rd d i j = s.rd d i j := by
  have henter : ∀ u : State, u.rd d i j = s.rd d i j →
      (if u.rd mbxBootState = b then u else (u.wr mbxBootState b).msi 78).rd d i j = s.rd d i j := fun u hu => by
    split
    · exact hu
    · rw [State.msi_rd, State.rd_wr_ne _ _ hstate, hu]
  unfold State.boot
  dsimp only
  refine henter _ ?_
  split
  · exact State.rd_wr_ne s _ hbusy
  · rfl

/-- HOLDOVER for a restart writes the STATE of time bases and runs of good samples. -/
theorem holdTime_frame (s : State) : s.holdTime.sup = s.sup ∧ s.holdTime.chans = s.chans ∧ s.holdTime.engines = s.engines ∧
    s.holdTime.rd supResetsSup = s.rd supResetsSup := by
  refine ⟨foldl_keeps State.sup (fun u n => ?_) _ s, foldl_keeps State.chans (fun u n => ?_) _ s, foldl_keeps State.engines (fun u n => ?_) _ s,
    foldl_keeps (fun v : State => v.rd supResetsSup) (fun u n => ?_) _ s⟩
  · split <;> rfl
  · split <;> rfl
  · split <;> rfl
  · split
    · rfl
    · refine State.rd_wr_ne u _ ?_
      simp only [RegDesc.key, supResetsSup, timTbState]
      omega

theorem State.modWarden_restarting (s : State) (w : Nat) (f : Warden → Warden) : (s.modWarden w f).sup.restarting = s.sup.restarting := rfl

theorem State.modWarden_cores (s : State) (w : Nat) (f : Warden → Warden) : (s.modWarden w f).sup.cores = s.sup.cores := rfl

/-- Every warden is as PD-SUP's restart leaves it. -/
def State.wardensRestarted (s : State) : State := (List.range 6).foldl (fun (s : State) w => s.modWarden w Warden.restarted) s

theorem wardensRestarted_frame (s : State) : s.wardensRestarted.sup.restarting = s.sup.restarting ∧
    s.wardensRestarted.sup.cores = s.sup.cores ∧ s.wardensRestarted.chans = s.chans ∧ s.wardensRestarted.engines = s.engines ∧
    s.wardensRestarted.regs = s.regs :=
  ⟨foldl_keeps (fun u : State => u.sup.restarting) (fun u w => State.modWarden_restarting u w _) _ s,
    foldl_keeps (fun u : State => u.sup.cores) (fun u w => State.modWarden_cores u w _) _ s,
    foldl_keeps State.chans (fun u w => State.modWarden_chans u w _) _ s, foldl_keeps State.engines (fun u w => State.modWarden_engines u w _) _ s,
    foldl_keeps State.regs (fun u w => State.modWarden_regs u w _) _ s⟩

/-- The state in which wardens and Bister are away: `u` is the state whose registers the reset has cleared. -/
def State.supAway (s u : State) : State :=
  State.wardensRestarted { u with sup := { u.sup with restarting := true, restartAt := s.now }, img := { u.img with supRestartAt := s.now, fellBack := false } }

theorem supRestart_eq (s : State) : s.supRestart = let t := s.supAway (s.resetRegs .sup).holdTime
    (((t.wr supResetBusy 1).wr supResetLast 2).wr mbxBootReason (s.rd mbxBootReason)).boot 7 := by
  simp only [State.supRestart, State.supAway, State.wardensRestarted]

theorem supAway_frame (s u : State) : (s.supAway u).sup.restarting = true ∧ (s.supAway u).sup.cores = u.sup.cores ∧
    (s.supAway u).chans = u.chans ∧ (s.supAway u).engines = u.engines ∧ (s.supAway u).rd supResetsSup = u.rd supResetsSup := by
  obtain ⟨hrun, hcores, hchans, hengines, hregs⟩ := wardensRestarted_frame
    { u with sup := { u.sup with restarting := true, restartAt := s.now }, img := { u.img with supRestartAt := s.now, fellBack := false } }
  exact ⟨hrun, hcores, hchans, hengines, congrArg (fun r => tget r (supResetsSup.key 0 0) (supResetsSup.reset 0)) hregs⟩

/-- A restart of PD-SUP leaves the cores, the count of SUP resets, channels and engines, and Bister is away. -/
theorem supRestart_frame (s : State) : s.supRestart.sup.restarting = true ∧ s.supRestart.sup.cores = s.sup.cores ∧
    s.supRestart.chans = s.chans ∧ s.supRestart.engines = s.engines ∧ s.supRestart.rd supResetsSup = s.rd supResetsSup := by
  obtain ⟨hsup, hchans, hengines, hrd⟩ := holdTime_frame (s.resetRegs .sup)
  obtain ⟨hrun, hcores, hchans', hengines', hrd'⟩ := supAway_frame s (s.resetRegs .sup).holdTime
  rw [supRestart_eq]
  generalize s.supAway (s.resetRegs .sup).holdTime = t at *
  dsimp only
  refine ⟨?_, ?_, ?_, ?_, ?_⟩
  · rw [State.boot_sup]
    exact hrun
  · rw [State.boot_sup]
    exact hcores.trans (congrArg Sup.cores hsup)
  · rw [State.boot_chans]
    exact hchans'.trans hchans
  · rw [State.boot_engines]
    exact hengines'.trans hengines
  · rw [boot_rd_ne _ _ (by decide) (by decide), State.rd_wr_ne _ _ (by decide), State.rd_wr_ne _ _ (by decide), State.rd_wr_ne _ _ (by decide),
      hrd', hrd, resetRegs_rd_supResetsSup]

/-- A SUP reset is counted, and restarts PD-SUP where it is served and not absorbed (R477). -/
theorem supReset_frame (s : State) : (supReset s).sup.cores = s.sup.cores ∧ (supReset s).rd supResetsSup = (s.rd supResetsSup + 1) % 2 ^ 64 ∧
    (supReset s).engines = s.engines ∧ (supReset s).chans = s.chans ∧
    (s.inReset 2 = false → s.served = true → (supReset s).sup.restarting = true) := by
  have hcount : (s.bump supResetsSup).rd supResetsSup = (s.rd supResetsSup + 1) % 2 ^ 64 := State.rd_bump_self s supResetsSup 0 0
  unfold supReset
  dsimp only
  split
  · next h => exact ⟨rfl, hcount, rfl, rfl, fun h1 h2 => by simp [h1, h2] at h⟩
  · obtain ⟨hrun, hcores, hchans, hengines, hrd⟩ := supRestart_frame (s.bump supResetsSup)
    exact ⟨hcores, hrd.trans hcount, hengines, hchans, fun _ _ => hrun⟩

theorem lockstepMismatch_unpaired {low high : Bool} {s : State} (h : s.sup.cores.second = none) : lockstepMismatch low high s = s := by
  simp [lockstepMismatch, h]

theorem lockstepMismatch_paired {low high : Bool} {s : State} (h : s.sup.cores.second ≠ none) : lockstepMismatch low high s =
    (supReset { s with sup := { s.sup with cores := newCores s.sup.cores low high } }).raise 0x0003 uSUP 0 0xFFFF
      (coresPaired (newCores s.sup.cores low high)) 0 (b2n (newCores s.sup.cores low high).second.isNone) := by
  simp [lockstepMismatch, h]



@[simp] theorem logRec_cores (s : State) (sev : Nat) (e : EventRec) : (s.logRec sev e).sup.cores = s.sup.cores := by
  unfold State.logRec
  simp

@[simp] theorem flushEvent_cores (s : State) (e : EventRec) : (s.flushEvent e).sup.cores = s.sup.cores := by
  unfold State.flushEvent
  dsimp only
  (repeat' split) <;> simp

/-- An event changes nothing of the core pair. -/
@[simp] theorem raise_cores (s : State) (code unit inst ch d0 a d1 : Nat) : (s.raise code unit inst ch d0 a d1).sup.cores = s.sup.cores := by
  unfold State.raise State.raiseRec
  dsimp only
  (repeat' split) <;> simp

end Sys2Proof.Machine
end

section
/-! ### What runs: whether Bister is away, and the images -/
namespace Sys2Proof.Machine

/-- Bister's absence is `b` and the images are `i`. -/
def Runs (b : Bool) (i : ImgSt) (s : State) : Prop := s.sup.restarting = b ∧ s.img = i

end Sys2Proof.Machine

/-! What a completion, a publication, an event or a module's judgement leaves of the two: one lemma for each operation, named after it. -/
namespace Sys2Proof.Machine.Runs

variable {b : Bool} {i : ImgSt} {s : State}

theorem ite {c : Prop} [Decidable c] {t u : State} (ht : Runs b i t) (hu : Runs b i u) : Runs b i (if c then t else u) := by
  split
  · exact ht
  · exact hu

theorem foldl {α : Type} {f : State → α → State} {l : List α} (hf : ∀ t x, Runs b i t → Runs b i (f t x)) (h : Runs b i s) :
    Runs b i (l.foldl f s) := by
  induction l generalizing s with
  | nil => exact h
  | cons x r ih => exact ih (hf s x h)

section
variable (h : Runs b i s)
include h

/-- An update of any parts but the supervisor and the images. -/
theorem upd {pending now freeCtr regs time ports ing chans slots mor engines saved weldU glaze mem host cap ring pwr} :
    Runs b i { s with
      pending := pending, now := now, freeCtr := freeCtr, regs := regs, time := time, ports := ports, ing := ing, chans := chans
      slots := slots, mor := mor, engines := engines, saved := saved, weldU := weldU, glaze := glaze, mem := mem, host := host
      cap := cap, ring := ring, pwr := pwr } := h

/-- An update of the supervisor that says nothing of its absence. -/
theorem updSup {wardens cores logs coalesce nextHandle tsOffset poison poisonOvf poisonOvfAt taken waiting finals lastServed vault invGen
    inventory eepromOk eeprom modPower restartAt lateEvents deferred lateNotices snapAt} :
    Runs b i { s with
      sup := { s.sup with
        wardens := wardens, cores := cores, logs := logs, coalesce := coalesce, nextHandle := nextHandle, tsOffset := tsOffset
        poison := poison, poisonOvf := poisonOvf, poisonOvfAt := poisonOvfAt, taken := taken, waiting := waiting, finals := finals
        lastServed := lastServed, vault := vault, invGen := invGen, inventory := inventory, eepromOk := eepromOk, eeprom := eeprom
        modPower := modPower, restartAt := restartAt, lateEvents := lateEvents, deferred := deferred, lateNotices := lateNotices
        snapAt := snapAt } } := h

theorem wr {d v j k} : Runs b i (s.wr d v j k) := h

theorem bump {d j k} : Runs b i (s.bump d j k) := h

theorem modPort {p f} : Runs b i (s.modPort p f) := h

theorem modHq {q f} : Runs b i (s.modHq q f) := h

theorem setChan {ch c} : Runs b i (s.setChan ch c) := h

theorem boot {n} : Runs b i (s.boot n) := by
  rw [Runs, State.boot_sup, State.boot_img]
  exact h

theorem raiseRec {sev e} : Runs b i (s.raiseRec sev e) := by
  rw [Runs, State.raiseRec_restarting, State.raiseRec_img]
  exact h

theorem raise {code unit inst chan detail0 address detail1} : Runs b i (s.raise code unit inst chan detail0 address detail1) := h.raiseRec

theorem backInv {line} : Runs b i (s.backInv line) := by
  rw [Runs, State.backInv_sup, State.backInv_img]
  exact h

theorem unpoison {p} : Runs b i (s.unpoison p) := h

theorem hsWrite {off bs} : Runs b i (s.hsWrite off bs) := by
  have hinv : ∀ l : List Nat, Runs b i (l.foldl State.backInv s) := fun _ => .foldl (fun _ _ h1 => h1.backInv) h
  exact (hinv _).upd.unpoison

theorem cqSignal {q} : Runs b i (s.cqSignal q) := by
  rw [Runs, State.cqSignal_sup, State.cqSignal_img]
  exact h

theorem postCq {q tag status detail res2 res3} : Runs b i (s.postCq q tag status detail res2 res3) :=
  .ite h h.hsWrite.wr.modHq.cqSignal

theorem untake {q tag} : Runs b i (s.untake q tag) := .ite h.updSup h.updSup.modHq

theorem complete {q tag op status detail res2 res3} : Runs b i (s.complete q tag op status detail res2 res3) :=
  .ite h.updSup (.untake (.postCq (.ite h.modHq h)))

theorem completeFinal {q tag status res2 res3} : Runs b i (s.completeFinal q tag status res2 res3) :=
  .ite h.updSup h.postCq.updSup

theorem notice {w0 w1 w2 w3} : Runs b i (s.notice w0 w1 w2 w3) := .ite h.updSup (.ite h h.hsWrite.upd)

theorem finishWaits : Runs b i s.finishWaits := .foldl (fun _ _ h1 => h1.complete) h.updSup

theorem meetWaits {ch key final} : Runs b i (s.meetWaits ch key final) := h.updSup.finishWaits

theorem stopCapture {src} : Runs b i (s.stopCapture src) := by
  unfold State.stopCapture
  extract_lets
  split
  · exact h
  · exact .ite h.upd h.upd

theorem publish {ch} : Runs b i (s.publish ch) := by
  unfold State.publish
  extract_lets _ _ _ _ _ _ _ _ _ _ _ _ s2 s3
  have hs2 : Runs b i s2 := (Runs.unpoison (.foldl (fun _ _ h1 => h1.backInv) h)).upd.setChan
  have hs3 : Runs b i s3 := .ite hs2.stopCapture.wr hs2
  exact .ite hs3 hs3.meetWaits

theorem tryPublish {ch} : Runs b i (s.tryPublish ch) := .ite h.publish h

theorem txDone {p d fate lost} : Runs b i (s.txDone p d fate lost) := by
  unfold State.txDone
  dsimp only
  split
  · exact Runs.tryPublish h.upd
  · exact h.upd

theorem txDiscard {p d fate} : Runs b i (s.txDiscard p d fate) := by
  unfold State.txDiscard
  dsimp only
  split
  · exact h.bump.txDone
  · exact h.bump.txDone
  · exact h.bump.txDone
  · exact h.txDone

theorem portDown {p} : Runs b i (s.portDown p) := by
  unfold State.portDown
  dsimp only
  split
  · exact h.upd
  · exact Runs.txDiscard h.upd

theorem holdModule {p unread} : Runs b i (s.holdModule p unread) := h.modPort.portDown

theorem judgeModule {p} : Runs b i (s.judgeModule p) := by
  unfold State.judgeModule
  split
  · exact h.holdModule
  · split
    · exact h.holdModule.raise
    · exact h.upd

theorem readModules : Runs b i s.readModules := .foldl (fun _ _ h1 => .ite h1.judgeModule h1) h

theorem invRebuild : Runs b i s.invRebuild :=
  .ite h (Runs.unpoison (.foldl (fun _ _ h1 => h1.backInv) h.updSup))

theorem nameImages : Runs b i s.nameImages := by
  unfold State.nameImages
  split
  · exact h
  · exact h

theorem enterService {bad} : Runs b i (s.enterService bad) := by
  unfold State.enterService
  split
  · exact h.upd.boot
  · exact h.upd.boot.raise

theorem flushLate : Runs b i s.flushLate := .foldl (fun _ _ h1 => h1.raiseRec) h.updSup

theorem flushDeferred : Runs b i s.flushDeferred := by
  unfold State.flushDeferred
  extract_lets _ s1
  have hs1 : Runs b i s1 := .foldl (fun _ _ h1 => .ite h1.completeFinal h1.complete) h.updSup
  exact .foldl (fun _ _ h1 => h1.notice) hs1.updSup

/-- The end of an activation clears its entry among the images, and nothing of Bister's absence. -/
theorem endActivation : s.endActivation.sup.restarting = b := by
  have h1 : Runs b { s.img with activSup := none } { s with img := { s.img with activSup := none } } := ⟨h.1, rfl⟩
  unfold State.endActivation
  split
  · exact h.1
  · exact h1.completeFinal.1

end

end Sys2Proof.Machine.Runs
end

section
/-! ### Bister's return and the rows of the supervisor -/
namespace Sys2Proof.Machine
open Sys2Proof.Safety

/-- The last of Bister's return: no restart is under way among the images, modules are read and the inventory is rebuilt. -/
def State.settled (u : State) : State := (State.readModules { u with img := { u.img with supRestartAt := 0, fellBack := false } }).invRebuild

theorem settled_fields {u : State} (h : u.sup.restarting = false) :
    u.settled.sup.restarting = false ∧ u.settled.img.supRestartAt = 0 ∧ u.settled.img.fellBack = false := by
  have hu : Runs false { u.img with supRestartAt := 0, fellBack := false } { u with img := { u.img with supRestartAt := 0, fellBack := false } } :=
    ⟨h, rfl⟩
  obtain ⟨hrun, himg⟩ := hu.readModules.invRebuild
  exact ⟨hrun, congrArg ImgSt.supRestartAt himg, congrArg ImgSt.fellBack himg⟩

/-- What waited for Bister is written by a supervisor that no longer restarts. -/
theorem supReturn_eq_settled {s : State} (h : s.sup.restarting = true) : ∃ u : State, u.sup.restarting = false ∧ supReturn s = u.settled := by
  have hin : ∀ {u : State} {bad : Option Nat}, u.sup.restarting = false →
      (u.nameImages.enterService bad).flushLate.flushDeferred.endActivation.sup.restarting = false := fun hu =>
    (Runs.nameImages ⟨hu, rfl⟩).enterService.flushLate.flushDeferred.endActivation
  unfold supReturn
  rw [if_neg (by simp [h])]
  exact ⟨_, hin rfl, rfl⟩

theorem supReturn_returned {s : State} (h : s.sup.restarting = true) :
    (supReturn s).sup.restarting = false ∧ (supReturn s).img.supRestartAt = 0 ∧ (supReturn s).img.fellBack = false := by
  obtain ⟨u, hu, heq⟩ := supReturn_eq_settled h
  rw [heq]
  exact settled_fields hu

theorem supReturn_serving {s : State} (h : s.sup.restarting = false) : supReturn s = s := if_pos (by simp [h])

theorem supFallback_early {s : State} (h : s.sup.restarting = false ∨ s.now < s.img.supRestartAt + sec 1) : supFallback s = s := by
  rcases h with h | h <;> simp [supFallback, h]

/-- A fallback runs the previous image, or where there is none the running one's own copy. -/
theorem supFallback_due {s : State} {p : Image} (hr : s.sup.restarting = true) (hf : s.img.fellBack = false)
    (ht : s.img.supRestartAt + sec 1 ≤ s.now) (hp : s.img.previous = some p ∨ s.img.previous = none ∧ s.img.running = some p) :
    supFallback s = (State.bump { s with img := { s.img with running := some p, previous := none, fellBack := true } } supFallbacks).raise
      0x0004 uSUP 0 0xFFFF p.release := by
  rcases hp with hp | ⟨hp, hrun⟩
  · simp [supFallback, hr, hf, Nat.not_lt.mpr ht, hp]
  · simp [supFallback, hr, hf, Nat.not_lt.mpr ht, hp, hrun]

/-- Settles O24: each row by its equation, the mismatch by what a SUP reset leaves, the return by what waits for it. -/
theorem supervisorRows : Obligations.SupervisorRows := by
  refine ⟨fun w s hr hs hst => ?_, fun w a s h => ?_, fun w restored s => congrArg _ (wardenResetDone_eq w.val restored s),
    fun w s hr => ⟨fun h => congrArg _ (counterCollection_early h), fun h => ⟨_, rfl, counterCollection_due hr h⟩⟩,
    fun low high s h => congrArg _ (lockstepMismatch_unpaired h), fun low high s h => ?_,
    fun s => ⟨fun h => congrArg _ (supReturn_serving h), fun h => congrArg _ (supFallback_early h)⟩,
    fun s h => ⟨_, rfl, supReturn_returned h⟩, fun p s hr hf ht => ⟨fun hp hrun => ?_, fun hp => congrArg _ (supFallback_due hr hf ht (.inl hp))⟩⟩
  · have hpolls : s.polls w = true := (polls_iff s w).mpr ⟨hr, hs, hst⟩
    have hx : ∀ a, exec (.wardenWatchdogPoll w a) s = .next _ := fun a => congrArg Host.Outcome.next (wardenWatchdogPoll_eq w.val a s)
    refine ⟨?_, fun h => ?_, fun h => ?_⟩
    · rw [hx]; simp [hpolls]
    · rw [hx]; simp [hpolls, show (s.warden w).missed + 1 < 3 by omega]
    · rw [hx]; simp [hpolls, show ¬(s.warden w).missed + 1 < 3 by omega]
  · have hpolls : s.polls w = false := by
      rcases h with h | h | h <;> simp [State.polls, h]
    exact congrArg Host.Outcome.next ((wardenWatchdogPoll_eq w.val a s).trans (by rw [hpolls]; rfl))
  · obtain ⟨hcores, hcount, hengines, hchans, hrun⟩ := supReset_frame { s with sup := { s.sup with cores := newCores s.sup.cores low high } }
    refine ⟨_, congrArg Host.Outcome.next (lockstepMismatch_paired h), ?_, ?_, ?_, ?_, fun h1 h2 => ?_⟩
    · rw [raise_cores, hcores]
    · rw [State.raise_rd_ne _ _ _ _ _ _ _ _ (by decide), hcount]
      rfl
    · rw [State.raise_engines, hengines]
    · rw [State.raise_chans, hchans]
    · rw [State.raise_restarting]
      exact hrun h1 h2
  · refine congrArg Host.Outcome.next ((supFallback_due hr hf ht (.inr ⟨hp, hrun⟩)).trans ?_)
    rw [← hp, ← hrun]

end Sys2Proof.Machine
end

section
/-! ### Playout: the tick entry, a channel's tick, the window and the ring -/
namespace Sys2Proof.Machine
open Sys2Proof.Safety

/-! #### Rows while their domains are powered -/

/-- A row that runs in `whileOn` of its domains does its meaning while they are powered. -/
theorem next_whileOn {ds : List Nat} {s t : State} {f : State → State} (h : ds.any s.pwr.domainsOff.contains = false) (ht : f s = t) :
    (Host.Outcome.next (s.whileOn ds f) : Out) = .next t := by
  rw [s.whileOn_on f h, ht]

/-- A row that would change nothing changes nothing, powered or not. -/
theorem next_whileOn_same {ds : List Nat} {s : State} {f : State → State} (h : f s = s) : (Host.Outcome.next (s.whileOn ds f) : Out) = .next s := by
  unfold State.whileOn
  split
  · rfl
  · rw [h]

/-! #### The tick entry -/

/-- With no tick left to release, a run of ticks does nothing. -/
theorem runTicks_of_none {s : State} {tb bound : Nat} (h : s.nextTicker tb bound = none) (n : Nat) : State.runTicks n tb bound s = s := by
  cases n with
  | zero => rfl
  | succ n => simp [State.runTicks, h]

theorem tickEntryTaken_noRoom {s : State} {tb b : Nat} {rest : List Nat} (hq : (s.tb tb).tickQ = b :: rest) (h : s.relRoom = false) :
    tickEntryTaken tb s = s := by
  simp [tickEntryTaken, hq, h]

theorem tickEntryTaken_held {s : State} {tb b : Nat} {rest : List Nat} (hq : (s.tb tb).tickQ = b :: rest) (h : s.relRoom = true)
    (hw : s.img.warmHold = true) : tickEntryTaken tb s = s.modTb tb (fun t => { t with tickQ := rest }) := by
  simp [tickEntryTaken, hq, h, hw]

theorem tickEntryTaken_run {s : State} {tb b : Nat} {rest : List Nat} (hq : (s.tb tb).tickQ = b :: rest) (h : s.relRoom = true)
    (hw : s.img.warmHold = false) : tickEntryTaken tb s = let u := State.runTicks (s.tickTotal tb (b * 250000)) tb (b * 250000) s
      if (u.nextTicker tb (b * 250000)).isSome = true then u else u.modTb tb (fun t => { t with tickQ := rest }) := by
  simp only [tickEntryTaken, hq, h, hw, Bool.not_true, Bool.false_eq_true, if_false]

/-! #### The release of one task -/

/-- Nothing but channels, Mordant and registers has changed. -/
def OnlyTick (s t : State) : Prop := t = { s with chans := t.chans, mor := t.mor, regs := t.regs }

theorem OnlyTick.trans {s t u : State} (h : OnlyTick s t) (h1 : OnlyTick t u) : OnlyTick s u := by
  unfold OnlyTick at *
  rw [h1, h]

theorem OnlyTick.setChan (s : State) (ch : Nat) (c : Chan) : OnlyTick s (s.setChan ch c) := rfl

theorem OnlyTick.modChan (s : State) (ch : Nat) (f : Chan → Chan) : OnlyTick s (s.modChan ch f) := rfl

/-- The age of a task follows from the time bases and from which one a channel uses. -/
theorem tickAge_congr {s t : State} (htime : t.time = s.time) (htb : ∀ ch, (t.chan ch).tb = (s.chan ch).tb) : t.tickAge = s.tickAge := by
  funext k
  simp only [State.tickAge, State.tbVal, State.tb, htime, htb]

/-- Nor does a channel's own content matter to it, apart from its time base. -/
theorem tickAge_setChan {s : State} {ch : Nat} {c : Chan} (h : c.tb = (s.chan ch).tb) : (s.setChan ch c).tickAge = s.tickAge :=
  tickAge_congr rfl fun m => by
    by_cases hm : m = ch
    · rw [hm, State.setChan_chan_self, h]
    · rw [State.setChan_chan_ne s _ hm]

/-- A task of a channel that splits no frames into shares enters the release queue by its age, and counts the channel's tick. -/
theorem release_whole {s : State} {ch : Nat} (h : saffronAudio (s.chan ch) = false) (kind : TaskKind) (tick : Nat) (whole : List Byte) (pt ts : Nat) :
    let t := s.release ch kind tick 0 whole pt ts
    (∃ k : Task, t.mor.relQ = insertTask s.tickAge k s.mor.relQ ∧ k.ch = ch ∧ k.kind = kind ∧ k.tick = tick ∧
      k.tickNo = (s.chan ch).steep.tickCount ∧ k.pt = pt ∧ k.payload = whole ∧ k.ts = ts) ∧
    t.chan ch = { s.chan ch with steep := { (s.chan ch).steep with tickCount := (s.chan ch).steep.tickCount + 1 } } ∧
    (∀ m, m ≠ ch → t.chan m = s.chan m) ∧ OnlyTick s t := by
  have hself : (s.modSteep ch (fun t => { t with tickCount := t.tickCount + 1, shares := t.shares })).chan ch =
      { s.chan ch with steep := { (s.chan ch).steep with tickCount := (s.chan ch).steep.tickCount + 1 } } := State.modChan_chan_self s ch _
  have hne : ∀ m, m ≠ ch → (s.modSteep ch (fun t => { t with tickCount := t.tickCount + 1, shares := t.shares })).chan m = s.chan m :=
    fun m hm => State.modChan_chan_ne s _ hm
  have hage : (s.modSteep ch (fun t => { t with tickCount := t.tickCount + 1, shares := t.shares })).tickAge = s.tickAge := tickAge_setChan rfl
  simp only [State.release, h, Bool.false_and, Bool.false_eq_true, if_false, hage]
  exact ⟨⟨_, rfl, rfl, rfl, rfl, rfl, rfl, rfl, rfl⟩, hself, hne, rfl⟩

/-! #### A channel's tick -/

theorem modSteep_chan_self (s : State) (ch : Nat) (f : Steep → Steep) : (s.modSteep ch f).chan ch = { s.chan ch with steep := f (s.chan ch).steep } :=
  State.modChan_chan_self s ch _

theorem modSteep_chan_ne (s : State) (f : Steep → Steep) {ch m : Nat} (h : m ≠ ch) : (s.modSteep ch f).chan m = s.chan m :=
  State.modChan_chan_ne s _ h

/-- A channel whose phase stays is left as it is by the move of its phase. -/
theorem rephaseAt_of_kept {s : State} {ch tick : Nat} (h : (s.chan ch).steep.rephase = false) : s.rephaseAt ch tick = s := by
  simp [State.rephaseAt, h]

/-- The channel with its next tick at `n`. -/
def State.tickMoved (s : State) (ch n : Nat) : State := s.modSteep ch (fun t => { t with nextTick := n })

theorem tickMoved_chan_self (s : State) (ch n : Nat) :
    (s.tickMoved ch n).chan ch = { s.chan ch with steep := { (s.chan ch).steep with nextTick := n } } := modSteep_chan_self s ch _

theorem tickMoved_chan_ne (s : State) (n : Nat) {ch m : Nat} (h : m ≠ ch) : (s.tickMoved ch n).chan m = s.chan m := modSteep_chan_ne s _ h

theorem OnlyTick.tickMoved (s : State) (ch n : Nat) : OnlyTick s (s.tickMoved ch n) := rfl

theorem tickAge_tickMoved (s : State) (ch n : Nat) : (s.tickMoved ch n).tickAge = s.tickAge := tickAge_setChan rfl

theorem band_nextTick (c : Chan) (n : Nat) : band { c with steep := { c.steep with nextTick := n } } = band c := by
  simp only [band, currentNs, steepCurrent, steepTmin, gridNs]
  rfl

theorem lookAt_nextTick (c : Chan) (n tick : Nat) : lookAt { c with steep := { c.steep with nextTick := n } } tick = lookAt c tick := by
  simp only [lookAt, headSlot, gridNs, gridUnits]
  rfl

/-- With no offer outstanding, no task of the channel waiting and no bridge that splits its frames, a tick is the channel's own. -/
theorem playTick_own {s : State} {ch : Nat} (ho : (s.chan ch).steep.offered = none) (hq : s.mor.relQ.any (fun t => t.ch = ch) = false)
    (hf : saffronAudio (s.chan ch) = false) :
    s.playTick ch = (s.tickMoved ch ((s.chan ch).steep.nextTick + gridNs (s.chan ch).steep)).ownTick ch (s.chan ch).steep.nextTick := by
  have hoffer : s.concealOffer ch = s := by simp [State.concealOffer, ho]
  have hleft : s.abandon ch = s := by rw [State.abandon, hq]; rfl
  simp only [State.playTick, hoffer, hleft, hf, Bool.false_eq_true, if_false, State.tickMoved, State.modSteep, State.modChan]

/-- The tick of a channel that anchors again, its next tick already moved, is one gap task. -/
theorem ownTick_gap {s : State} {ch tick : Nat} (ha : (s.chan ch).steep.anchored = false) (hr : (s.chan ch).steep.rephase = false)
    (hf : saffronAudio (s.chan ch) = false) :
    let t := s.ownTick ch tick
    t.chan ch = { s.chan ch with steep := { (s.chan ch).steep with lastTask := .gap, lastSid := false, tickCount := (s.chan ch).steep.tickCount + 1 } } ∧
    (∃ k : Task, t.mor.relQ = insertTask s.tickAge k s.mor.relQ ∧ k.ch = ch ∧ k.kind = .gap ∧ k.tick = tick ∧ k.tickNo = (s.chan ch).steep.tickCount) ∧
    (∀ m, m ≠ ch → t.chan m = s.chan m) ∧ OnlyTick s t := by
  have hself := modSteep_chan_self s ch (fun t => { t with lastTask := .gap, lastSid := false })
  have hne : ∀ m, m ≠ ch → (s.modSteep ch (fun t => { t with lastTask := .gap, lastSid := false })).chan m = s.chan m := fun m hm => modSteep_chan_ne s _ hm
  have hage : (s.modSteep ch (fun t => { t with lastTask := .gap, lastSid := false })).tickAge = s.tickAge := tickAge_setChan rfl
  have hown : s.ownTick ch tick = ((s.modSteep ch (fun t => { t with lastTask := .gap, lastSid := false })).release ch .gap tick 0 [] 0
      (s.chan ch).steep.playTs).rephaseAt ch tick := by rw [State.ownTick, ha]; rfl
  obtain ⟨⟨k, hk, hkc, hkk, hkt, hkn, -⟩, hc, ho, hw⟩ := release_whole (s := s.modSteep ch (fun t => { t with lastTask := .gap, lastSid := false }))
    (ch := ch) (by rw [hself]; exact hf) .gap tick [] 0 (s.chan ch).steep.playTs
  rw [hself] at hc hkn
  rw [rephaseAt_of_kept (by rw [hc]; exact hr)] at hown
  simp only [hown]
  exact ⟨hc, ⟨k, by rw [hk, hage]; rfl, hkc, hkk, hkt, hkn⟩, fun m hm => (ho m hm).trans (hne m hm), (OnlyTick.modChan s ch _).trans hw⟩

/-- What a full tick that takes no step notes of the depth band. -/
def noteBand (now : Nat) (silent : Bool) (c : Chan) : Chan :=
  { c with
    steep := { c.steep with
      inactive := false
      forceDue := band c != .eq && !silent && c.steep.forceDue
      outSince := if !(band c != .eq) then none else if silent then some now else some (c.steep.outSince.getD now) }
    xr := { c.xr with jbMax := max c.xr.jbMax (currentNs c).toNat } }

/-- Inside its depth band a full tick takes no step: it acts on what its look found, then notes the band. -/
theorem fullTick_inBand {s : State} {ch tick : Nat} (hb : band (s.chan ch) = .eq) :
    let l := lookAt (s.chan ch) tick
    let t := (s.tickAct ch tick l).modChan ch (noteBand s.now (silentTick (s.chan ch) l && !decide ((s.chan ch).vbd.state ≥ 2)))
    s.fullTick ch tick = if silentTick (s.chan ch) l = true then t.rephaseAt ch tick else t := by
  unfold State.fullTick
  dsimp only
  rw [hb]
  generalize (((_ : Bool) || _) && !_) = stepping
  cases stepping
  · simp only [Bool.false_and, Bool.false_eq_true, if_false, Bool.or_false, Bool.not_false, Bool.and_true]
    rfl
  · simp only [bne_self_eq_false, Bool.and_false, Bool.false_and, Bool.false_eq_true, if_false, Bool.or_false, Bool.not_false, Bool.and_true]
    rfl

/-- The channel that plays a slot of its ring as the frame of this tick. -/
def playedChan (c : Chan) (r : RingSlot) : Chan :=
  { c with
    steep := { advance c.steep true (r.ts + gridUnits c) with lastTask := .frame, lastSid := isSidFrame c (playedFrame r).1 (playedFrame r).2 }
    ctr := { c.ctr with played := c.ctr.played + 1 }
    xr := xrGood c.xr }

/-- The tick of an anchored channel inside its depth band, its next tick already moved, plays the packet its look found. -/
theorem ownTick_frame {s : State} {ch tick : Nat} {r : RingSlot} (ha : (s.chan ch).steep.anchored = true) (hr : (s.chan ch).steep.rephase = false)
    (hf : saffronAudio (s.chan ch) = false) (hb : band (s.chan ch) = .eq) (hl : lookAt (s.chan ch) tick = .frame r) :
    let t := s.ownTick ch tick
    let c := s.chan ch
    ((t.chan ch).steep.nextTick = c.steep.nextTick ∧ (t.chan ch).steep.playSeq = c.steep.playSeq + 1 ∧
      (t.chan ch).steep.lastTask = .frame ∧ (t.chan ch).ctr.played = c.ctr.played + 1) ∧
    (∃ k : Task, t.mor.relQ = insertTask s.tickAge k s.mor.relQ ∧ k.ch = ch ∧ k.kind = .frame ∧ k.tick = tick ∧
      k.pt = (playedFrame r).1 ∧ k.payload = (playedFrame r).2 ∧ k.ts = r.ts) ∧
    (∀ m, m ≠ ch → t.chan m = s.chan m) ∧ OnlyTick s t := by
  have hself : (s.setChan ch (playedChan (s.chan ch) r)).chan ch = playedChan (s.chan ch) r := State.setChan_chan_self s ch _
  obtain ⟨⟨k, hk, hkc, hkk, hkt, -, hkp, hkb, hks⟩, hc, ho, hw⟩ := release_whole (s := s.setChan ch (playedChan (s.chan ch) r)) (ch := ch) (by rw [hself]; exact hf)
    .frame tick (playedFrame r).2 (playedFrame r).1 r.ts
  have hact : s.tickAct ch tick (.frame r) = (s.setChan ch (playedChan (s.chan ch) r)).release ch .frame tick 0 (playedFrame r).2 (playedFrame r).1 r.ts := rfl
  have hage : (s.setChan ch (playedChan (s.chan ch) r)).tickAge = s.tickAge := tickAge_setChan rfl
  have hown : s.ownTick ch tick = s.fullTick ch tick := by rw [State.ownTick, ha]; rfl
  rw [fullTick_inBand hb, hl, hact] at hown
  rw [hself] at hc
  rw [hage] at hk
  generalize (s.setChan ch (playedChan (s.chan ch) r)).release ch .frame tick 0 (playedFrame r).2 (playedFrame r).1 r.ts = u at *
  have hnow := State.modChan_chan_self u ch (noteBand s.now (silentTick (s.chan ch) (.frame r) && !decide ((s.chan ch).vbd.state ≥ 2)))
  rw [hc] at hnow
  rw [rephaseAt_of_kept (by rw [hnow]; exact hr), ite_self] at hown
  simp only [hown, hnow]
  exact ⟨⟨rfl, rfl, rfl, rfl⟩, ⟨k, hk, hkc, hkk, hkt, hkp, hkb, hks⟩,
    fun m hm => (State.modChan_chan_ne u _ hm).trans ((ho m hm).trans (State.setChan_chan_ne s _ hm)),
    (OnlyTick.setChan s ch _).trans (hw.trans (OnlyTick.modChan u ch _))⟩

/-- The whole tick of a channel that anchors again. -/
theorem tickMoved_gap {s : State} {ch n tick : Nat} (ha : (s.chan ch).steep.anchored = false) (hr : (s.chan ch).steep.rephase = false)
    (hf : saffronAudio (s.chan ch) = false) :
    let t := (s.tickMoved ch n).ownTick ch tick
    (t.chan ch).steep.nextTick = n ∧ (t.chan ch).steep.tickCount = (s.chan ch).steep.tickCount + 1 ∧ (t.chan ch).steep.lastTask = .gap ∧
    (∃ k : Task, t.mor.relQ = insertTask s.tickAge k s.mor.relQ ∧ k.ch = ch ∧ k.kind = .gap ∧ k.tick = tick ∧ k.tickNo = (s.chan ch).steep.tickCount) ∧
    (∀ m, m ≠ ch → t.chan m = s.chan m) ∧ OnlyTick s t := by
  have hself := tickMoved_chan_self s ch n
  obtain ⟨hc, ⟨k, hk, hk'⟩, ho, hw⟩ := ownTick_gap (s := s.tickMoved ch n) (ch := ch) (tick := tick)
    (by rw [hself]; exact ha) (by rw [hself]; exact hr) (by rw [hself]; exact hf)
  rw [hself] at hc hk'
  rw [tickAge_tickMoved] at hk
  simp only [hc, true_and]
  exact ⟨⟨k, hk, hk'⟩, fun m hm => (ho m hm).trans (tickMoved_chan_ne s n hm), (OnlyTick.tickMoved s ch n).trans hw⟩

/-- The whole tick of an anchored channel whose look found a frame. -/
theorem tickMoved_frame {s : State} {ch n tick : Nat} {r : RingSlot} (ha : (s.chan ch).steep.anchored = true) (hr : (s.chan ch).steep.rephase = false)
    (hf : saffronAudio (s.chan ch) = false) (hb : band (s.chan ch) = .eq) (hl : lookAt (s.chan ch) tick = .frame r) :
    let t := (s.tickMoved ch n).ownTick ch tick
    (t.chan ch).steep.nextTick = n ∧ (t.chan ch).steep.playSeq = (s.chan ch).steep.playSeq + 1 ∧ (t.chan ch).steep.lastTask = .frame ∧
    (t.chan ch).ctr.played = (s.chan ch).ctr.played + 1 ∧
    (∃ k : Task, t.mor.relQ = insertTask s.tickAge k s.mor.relQ ∧ k.ch = ch ∧ k.kind = .frame ∧ k.tick = tick ∧
      k.pt = (playedFrame r).1 ∧ k.payload = (playedFrame r).2 ∧ k.ts = r.ts) ∧
    (∀ m, m ≠ ch → t.chan m = s.chan m) ∧ OnlyTick s t := by
  have hself := tickMoved_chan_self s ch n
  obtain ⟨⟨hn, hp, ht, hpl⟩, ⟨k, hk, hk'⟩, ho, hw⟩ := ownTick_frame (s := s.tickMoved ch n) (ch := ch) (tick := tick) (r := r)
    (by rw [hself]; exact ha) (by rw [hself]; exact hr) (by rw [hself]; exact hf) (by rw [hself, band_nextTick]; exact hb)
    (by rw [hself, lookAt_nextTick]; exact hl)
  rw [hself] at hn hp hpl
  rw [tickAge_tickMoved] at hk
  exact ⟨hn, hp, ht, hpl, ⟨k, hk, hk'⟩, fun m hm => (ho m hm).trans (tickMoved_chan_ne s n hm), (OnlyTick.tickMoved s ch n).trans hw⟩

/-! #### The rows of a channel -/

theorem playoutTick_idle {s : State} {ch : Nat}
    (h : hasTick (s.chan ch) (s.chan ch).tb ((s.tb (s.chan ch).tb).lastTick * 250000) = false ∨ s.relRoom = false ∨ s.img.warmHold = true) :
    playoutTick ch s = s := by
  rw [playoutTick]
  obtain h | h | h := h <;> simp [h]

theorem playoutTick_due {s : State} {ch : Nat} (hd : hasTick (s.chan ch) (s.chan ch).tb ((s.tb (s.chan ch).tb).lastTick * 250000) = true)
    (hr : s.relRoom = true) (hw : s.img.warmHold = false) : playoutTick ch s = s.playTick ch := by
  simp [playoutTick, hd, hr, hw]

/-- The channel without the transits that have left its window. -/
def agedChan (now : Nat) (c : Chan) : Chan :=
  { c with steep := { c.steep with transits := c.steep.transits.filter (fun e => decide (now < e.1 + sec c.jit.window)) } }

theorem transitWindowAge_eq (ch : Nat) (s : State) :
    transitWindowAge ch s = s.setChan ch (watchBand s.now (agedChan (s.tbVal (s.chan ch).tb) (s.chan ch))) := rfl

theorem forceAfterExpiry_eq (ch : Nat) (s : State) :
    forceAfterExpiry ch s = if (s.chan ch).jit.forceAfter ≠ 0 ∧ ∃ a, (s.chan ch).steep.outSince = some a ∧ a + sec (s.chan ch).jit.forceAfter ≤ s.now
      then s.modSteep ch (fun t => { t with forceDue := true }) else s := by
  rw [forceAfterExpiry]
  refine if_congr ?_ rfl rfl
  rw [Bool.and_eq_true, bne_iff_ne, Option.any_eq_true]
  simp only [decide_eq_true_eq]

/-- Settles O44: each row by what its function does in the case; a channel's tick is its own tick once the next one has moved on. -/
theorem playoutRows : Obligations.PlayoutRows := by
  refine ⟨?_, ?_, ?_, ?_, ?_⟩
  · intro tb b rest s hu hq
    refine ⟨fun hr => next_whileOn hu (tickEntryTaken_noRoom hq hr), fun hr hh => next_whileOn hu ?_, fun hr hw => next_whileOn hu (tickEntryTaken_run hq hr hw)⟩
    obtain hw | hn := hh
    · exact tickEntryTaken_held hq hr hw
    · cases hw : s.img.warmHold with
      | true => exact tickEntryTaken_held hq hr hw
      | false =>
        rw [tickEntryTaken_run hq hr hw, runTicks_of_none hn]
        simp [hn]
  · intro ch s c due
    refine ⟨fun h => next_whileOn_same (playoutTick_idle h), fun hu hd hr hw ho hp hf hq => ?_⟩
    have hrow : exec (.playoutTick ch) s = .next ((s.tickMoved ch.val (c.steep.nextTick + gridNs c.steep)).ownTick ch.val c.steep.nextTick) :=
      next_whileOn hu ((playoutTick_due hd hr hw).trans (playTick_own ho hq hf))
    exact ⟨fun ha => ⟨_, hrow, tickMoved_gap ha hp hf⟩, fun r ha hb hl => ⟨_, hrow, tickMoved_frame ha hp hf hb hl⟩⟩
  · intro ch s hu c a
    have ha : agedChan (s.tbVal c.tb) c = a := rfl
    refine next_whileOn hu ((transitWindowAge_eq ch.val s).trans ?_)
    rw [ha, watchBand]
  · intro ch s hu c outlasted
    refine ⟨fun h => next_whileOn hu ?_, fun h => next_whileOn hu ?_⟩
    · rw [forceAfterExpiry_eq, if_pos h]
    · rw [forceAfterExpiry_eq, if_neg h]
  · intro ch s hu
    exact next_whileOn hu rfl

end Sys2Proof.Machine
end

section
/-! ### Mordant: acceptance, immediate tasks, windows, stealing and transit -/
namespace Sys2Proof.Machine
open Sys2Proof.Safety

/-! #### What a decision's trace, idleness and a switch leave -/

/-- A decision's trace counts, writes the host-shared window and writes registers: what all of these leave, it leaves. -/
theorem trace_keeps {β : Type} {g : State → β} (hcount : ∀ u n m, g { u with mor := { u.mor with decisions := n, traced := m } } = g u)
    (hmem : ∀ u off bs, g (State.hsWrite u off bs) = g u) (hreg : ∀ u (d : RegDesc) v i j, g (State.wr u d v i j) = g u) (s : State) (d : Decision) :
    g (s.trace d) = g s := by
  have hone : ∀ u n, g { u with mor := { u.mor with decisions := n } } = g u := fun u n => hcount u n u.mor.traced
  have hwritten : ∀ u m, g { u with mor := { u.mor with traced := m } } = g u := fun u m => hcount u u.mor.decisions m
  unfold State.trace
  dsimp only
  split
  · rfl
  · split
    · exact hone s _
    · split
      · exact (hreg _ _ _ _ _).trans ((hreg _ _ _ _ _).trans ((hwritten _ _).trans ((hmem _ _ _).trans (hone s _))))
      · exact (hreg _ _ _ _ _).trans ((hwritten _ _).trans ((hmem _ _ _).trans (hone s _)))

section
variable (s : State) (kind e other reason : Nat) (k : Skein)

@[simp] theorem traceSkein_me (x : Nat) : (s.traceSkein kind e other reason k).me x = s.me x :=
  trace_keeps (g := fun u => u.me x) (fun _ _ _ => rfl) (fun u off bs => u.hsWrite_me off bs x) (fun u d v i j => u.wr_me d v i j x) s _

@[simp] theorem traceSkein_transit : (s.traceSkein kind e other reason k).mor.transit = s.mor.transit :=
  trace_keeps (g := fun u => u.mor.transit) (fun _ _ _ => rfl) (fun u off bs => by rw [u.hsWrite_mor]) (fun _ _ _ _ _ => rfl) s _

@[simp] theorem traceSkein_chans : (s.traceSkein kind e other reason k).chans = s.chans :=
  trace_keeps (g := fun u => u.chans) (fun _ _ _ => rfl) (fun u off bs => u.hsWrite_chans off bs) (fun _ _ _ _ _ => rfl) s _

@[simp] theorem traceSkein_engines : (s.traceSkein kind e other reason k).engines = s.engines :=
  trace_keeps (g := fun u => u.engines) (fun _ _ _ => rfl) (fun u off bs => u.hsWrite_engines off bs) (fun _ _ _ _ _ => rfl) s _

@[simp] theorem traceSkein_ports : (s.traceSkein kind e other reason k).ports = s.ports :=
  trace_keeps (g := fun u => u.ports) (fun _ _ _ => rfl) (fun u off bs => u.hsWrite_ports off bs) (fun _ _ _ _ _ => rfl) s _

end

section
variable (s : State) (e : Nat)

theorem idle_me_self : (s.idle e).me e = { s.me e with idleSince :=
    if (s.me e).running.isNone && (s.me e).dq.isEmpty && (s.me e).due.isEmpty then some ((s.me e).idleSince.getD s.now) else none } :=
  s.modMe_me_self e _

theorem idle_me_ne {x : Nat} (h : x ≠ e) : (s.idle e).me x = s.me x := s.modMe_me_ne _ h

@[simp] theorem idle_transit : (s.idle e).mor.transit = s.mor.transit := rfl
@[simp] theorem idle_chans : (s.idle e).chans = s.chans := rfl
@[simp] theorem idle_engines : (s.idle e).engines = s.engines := rfl
@[simp] theorem idle_ports : (s.idle e).ports = s.ports := rfl

@[simp] theorem markHeld_me (x : Nat) : (s.markHeld e).me x = s.me x := rfl
@[simp] theorem markHeld_transit : (s.markHeld e).mor.transit = s.mor.transit := rfl

/-- With no class 0 skein due, no switch is raised. -/
theorem raiseSwitch_of_noImmediate (h : ∀ k ∈ (s.me e).due, k.cls ≠ 0) : s.raiseSwitch e = s := by
  have hnone : (s.me e).due.filter (fun k => k.cls = 0) = [] := List.filter_eq_nil_iff.mpr fun k hk => by simp [h k hk]
  simp only [State.raiseSwitch, hnone, State.best, ite_self]

theorem raiseSwitch_transit : (s.raiseSwitch e).mor.transit = s.mor.transit := by
  unfold State.raiseSwitch
  dsimp only
  split <;> rfl

end

/-! #### What entering a list leaves in transit -/

theorem closeSkein_transit (s : State) (e num : Nat) : (s.closeSkein e num).mor.transit = s.mor.transit := by
  unfold State.closeSkein
  split
  · rfl
  · rw [raiseSwitch_transit, idle_transit, traceSkein_transit]
    rfl

theorem joinForming_transit (s : State) (e : Nat) (t : Task) : (s.joinForming e t).mor.transit = s.mor.transit := by
  unfold State.joinForming
  dsimp only
  split
  · split
    · exact closeSkein_transit _ _ _
    · rfl
  · split
    · exact closeSkein_transit _ _ _
    · rfl

theorem enlist_transit (s : State) (e : Nat) (t : Task) : (s.enlist e t).mor.transit = s.mor.transit := by
  unfold State.enlist
  dsimp only
  rw [markHeld_transit]
  split
  · rfl
  · exact joinForming_transit s e t

theorem mergeForming_transit (s : State) (e : Nat) (k : Skein) : (s.mergeForming e k).mor.transit = s.mor.transit := by
  unfold State.mergeForming
  dsimp only
  split
  · rfl
  · split
    · rfl
    · split
      · exact closeSkein_transit _ _ _
      · exact closeSkein_transit _ _ _

theorem arrive_transit (s : State) (x : Transit) : (s.arrive x).mor.transit = s.mor.transit := by
  unfold State.arrive
  dsimp only
  rw [idle_transit, markHeld_transit]
  split
  · exact mergeForming_transit _ _ _
  · exact raiseSwitch_transit _ _
  · exact foldl_keeps (fun u => u.mor.transit) (fun u t => enlist_transit u x.dest t) _ s

/-! #### Offers -/

theorem taskOffer_empty {s : State} (b : Bool) (h : s.mor.relQ = []) : taskOffer b s = s := by
  simp [taskOffer, nextOffer, h]

section
variable {s : State} {t0 : Task} {rest : List Task} {e : Nat} (hq : s.mor.relQ = t0 :: rest) (hr : t0.refused = false)
  (he : ((s.assignHome t0.ch (s.accepted t0)).chan t0.ch).home = some e)

include hq hr in
/-- The head of the release queue is offered where this round has not refused it. -/
theorem nextOffer_head : nextOffer s.mor.relQ = (t0 :: rest, 0) := by
  simp [nextOffer, hq, hr, List.findIdx?_cons]

include hq hr he

theorem taskOffer_cancelled : taskOffer true s =
    (((s.assignHome t0.ch (s.accepted t0)).setRelQ rest).bump morCancelPre e).traceTask 5 e 0xFF 0 (s.accepted t0) := by
  have hch : (s.accepted t0).ch = t0.ch := rfl
  simp only [taskOffer, nextOffer_head hq hr, List.getElem?_cons_zero, List.eraseIdx_cons_zero, hch, he, Option.getD_some, if_true]

theorem taskOffer_refused (hf : (s.assignHome t0.ch (s.accepted t0)).freeSlots e ≤ (s.assignHome t0.ch (s.accepted t0)).rd morImmReserve) :
    taskOffer false s = (((s.assignHome t0.ch (s.accepted t0)).setRelQ ({ t0 with refused := true } :: rest)).bump morRefused).traceTask 1 e 0xFF 0
      (s.accepted t0) := by
  have hch : (s.accepted t0).ch = t0.ch := rfl
  simp only [taskOffer, nextOffer_head hq hr, List.getElem?_cons_zero, List.eraseIdx_cons_zero, List.set_cons_zero, hch, he, Option.getD_some, Bool.false_eq_true,
    if_false, Option.isNone_some, Bool.false_or, decide_eq_true_eq, hf, if_true]

theorem taskOffer_accepted (hf : (s.assignHome t0.ch (s.accepted t0)).rd morImmReserve < (s.assignHome t0.ch (s.accepted t0)).freeSlots e) :
    taskOffer false s = (((((s.assignHome t0.ch (s.accepted t0)).setRelQ rest).supersede t0.ch).bump morAccepted e).enlist e (s.accepted t0)).traceTask 0 e 0xFF 0
      (s.accepted t0) := by
  have hch : (s.accepted t0).ch = t0.ch := rfl
  simp only [taskOffer, nextOffer_head hq hr, List.getElem?_cons_zero, List.eraseIdx_cons_zero, List.set_cons_zero, hch, he, Option.getD_some, Bool.false_eq_true,
    if_false, Option.isNone_some, Bool.false_or, decide_eq_true_eq, Nat.not_le.mpr hf]

end

/-! #### Immediate tasks -/

section
variable {s : State} {i : ImmTask} {rest : List ImmTask}

/-- An immediate task is let go exactly where its channel is not open. -/
theorem chanShut_iff (st : ChanState) : (st != .open && st != .bound) = true ↔ st = .free ∨ st = .closing := by
  cases st <;> decide

theorem chanShut_of_up {st : ChanState} (h : st = .open ∨ st = .bound) : (st != .open && st != .bound) = false := by
  obtain rfl | rfl := h <;> rfl

theorem immediateTaskAccept_shut (hq : s.ing.immIn = i :: rest) (hs : (s.chan i.ch).st = .free ∨ (s.chan i.ch).st = .closing) :
    immediateTaskAccept s = ({ s with ing := { s.ing with immIn := rest } } : State).dropImm i := by
  simp only [immediateTaskAccept, hq, (chanShut_iff _).mpr hs, if_true]

theorem immediateTaskAccept_placed {t : State} (hq : s.ing.immIn = i :: rest) (hs : (s.chan i.ch).st = .open ∨ (s.chan i.ch).st = .bound)
    (hp : ({ s with ing := { s.ing with immIn := rest } } : State).placeImm i = some t) : immediateTaskAccept s = t := by
  simp only [immediateTaskAccept, hq, chanShut_of_up hs, Bool.false_eq_true, if_false, hp]

theorem immediateTaskAccept_noSlot (hq : s.ing.immIn = i :: rest) (hs : (s.chan i.ch).st = .open ∨ (s.chan i.ch).st = .bound)
    (hp : ({ s with ing := { s.ing with immIn := rest } } : State).placeImm i = none) :
    immediateTaskAccept s = if s.ing.immHold.length < 256 then { s with ing := { s.ing with immIn := rest, immHold := s.ing.immHold ++ [i] } }
      else (({ s with ing := { s.ing with immIn := rest } } : State).dropImm i).bump morImmDrop := by
  simp only [immediateTaskAccept, hq, chanShut_of_up hs, Bool.false_eq_true, if_false, hp]

theorem immediateHoldReoffer_shut (hq : s.ing.immHold = i :: rest) (hs : (s.chan i.ch).st = .free ∨ (s.chan i.ch).st = .closing) :
    immediateHoldReoffer s = ({ s with ing := { s.ing with immHold := rest } } : State).dropImm i := by
  simp only [immediateHoldReoffer, hq, (chanShut_iff _).mpr hs, if_true]

theorem immediateHoldReoffer_up (hq : s.ing.immHold = i :: rest) (hs : (s.chan i.ch).st = .open ∨ (s.chan i.ch).st = .bound) :
    immediateHoldReoffer s = (({ s with ing := { s.ing with immHold := rest } } : State).placeImm i).getD s := by
  simp only [immediateHoldReoffer, hq, chanShut_of_up hs, Bool.false_eq_true, if_false]

end

/-! #### Windows -/

/-- The forming skein `k` of an engine has become due. -/
def State.skeinDue (s : State) (e : Nat) (k : Skein) : State :=
  s.modMe e (fun m => { m with forming := m.forming.filter (fun x => x.num != k.num), due := m.due ++ [{ k with closedAt := s.now }] })

theorem skeinDue_me_self (s : State) (e : Nat) (k : Skein) : (s.skeinDue e k).me e = { s.me e with
    forming := (s.me e).forming.filter (fun x => x.num != k.num), due := (s.me e).due ++ [{ k with closedAt := s.now }] } := s.modMe_me_self e _

theorem skeinDue_me_ne (s : State) (k : Skein) {e x : Nat} (h : x ≠ e) : (s.skeinDue e k).me x = s.me x := s.modMe_me_ne _ h

/-- With none of class 0 among the due skeins, a skein that closes becomes due, and its engine's idleness and the trace alone follow. -/
theorem closeSkein_eq {s : State} {e : Nat} {k : Skein} (hk : (s.me e).forming.find? (fun x => x.num = k.num) = some k)
    (hd : ∀ x ∈ (s.me e).due ++ [k], x.cls ≠ 0) : s.closeSkein e k.num = ((s.skeinDue e k).traceSkein 2 e 0xFF 0 { k with closedAt := s.now }).idle e := by
  have hclose : s.closeSkein e k.num = (((s.skeinDue e k).traceSkein 2 e 0xFF 0 { k with closedAt := s.now }).idle e).raiseSwitch e := by
    simp only [State.closeSkein, hk]
    rfl
  rw [hclose]
  refine raiseSwitch_of_noImmediate _ e fun x hx => ?_
  rw [idle_me_self, traceSkein_me, skeinDue_me_self] at hx
  obtain hx | hx := List.mem_append.mp hx
  · exact hd x (List.mem_append_left _ hx)
  · rw [List.mem_singleton.mp hx]
    exact hd k (List.mem_append_right _ (List.mem_singleton_self k))

theorem closeSkein_media {s : State} {e : Nat} {k : Skein} (hk : (s.me e).forming.find? (fun x => x.num = k.num) = some k)
    (hd : ∀ x ∈ (s.me e).due ++ [k], x.cls ≠ 0) :
    let t := s.closeSkein e k.num
    (t.me e).forming = (s.me e).forming.filter (fun x => x.num != k.num) ∧ (t.me e).due = (s.me e).due ++ [{ k with closedAt := s.now }] ∧
    (t.me e).running = (s.me e).running ∧ (t.me e).dq = (s.me e).dq ∧
    (∀ x, x ≠ e → t.me x = s.me x) ∧ t.chans = s.chans ∧ t.engines = s.engines ∧ t.ports = s.ports := by
  rw [closeSkein_eq hk hd]
  dsimp only
  rw [idle_me_self, traceSkein_me, skeinDue_me_self]
  refine ⟨rfl, rfl, rfl, rfl, fun x hx => ?_, ?_, ?_, ?_⟩
  · rw [idle_me_ne _ _ hx, traceSkein_me, skeinDue_me_ne _ _ hx]
  · rw [idle_chans, traceSkein_chans]; rfl
  · rw [idle_engines, traceSkein_engines]; rfl
  · rw [idle_ports, traceSkein_ports]; rfl

theorem skeinWindowClose_none {s : State} {e index : Nat} (h : (s.me e).forming[index]? = none) : skeinWindowClose e index s = s := by
  simp only [skeinWindowClose, h]

theorem skeinWindowClose_some {s : State} {e index : Nat} {k : Skein} (h : (s.me e).forming[index]? = some k) :
    skeinWindowClose e index s = if k.openedAt + s.window k.cls ≤ s.now then s.closeSkein e k.num else s := by
  simp only [skeinWindowClose, h]

/-! #### Stealing -/

/-- An engine that may steal, idle since `i`. -/
def MaySteal (s : State) (e i : Nat) : Prop :=
  s.flag morStealEn = true ∧ (s.me e).service = 0 ∧ (s.me e).idleSince = some i ∧ s.mor.transit.any (fun x => x.dest = e) = false

/-- The due skeins of other engines, each with its owner. -/
def stealable (s : State) (e : Nat) (owners : List Nat) : List (Nat × Skein) := (owners.filter (· != e)).flatMap (fun v => (s.me v).due.map (fun k => (v, k)))

/-- Engine `e` has taken the skein `k` of engine `v` into transit. -/
def Took (s : State) (e v : Nat) (k : Skein) (t : State) : Prop :=
  t.mor.transit = s.mor.transit ++ [{ src := v, dest := e, kind := 1, skein := k }] ∧
  (t.me v).due = (s.me v).due.filter (fun x => x.num != k.num) ∧ (∀ x, x ≠ v → t.me x = s.me x) ∧ t.chans = s.chans ∧ t.engines = s.engines

/-- The skein `k` of engine `v` on its way to engine `e`, counted with both. -/
def State.skeinSent (s : State) (e v : Nat) (k : Skein) : State :=
  let s1 := s.modMe v (fun m => { m with due := m.due.filter (fun x => x.num != k.num) })
  State.bump (State.bump { s1 with mor := { s1.mor with transit := s1.mor.transit ++ [({ src := v, dest := e, kind := 1, skein := k } : Transit)] } } morStolenIn e)
    morStolenOut v

theorem skeinSent_me_self (s : State) (e v : Nat) (k : Skein) :
    (s.skeinSent e v k).me v = { s.me v with due := (s.me v).due.filter (fun x => x.num != k.num) } := by
  rw [State.skeinSent, State.bump_me, State.bump_me]
  exact s.modMe_me_self v (fun m => { m with due := m.due.filter (fun x => x.num != k.num) })

theorem skeinSent_me_ne (s : State) (e : Nat) (k : Skein) {v x : Nat} (h : x ≠ v) : (s.skeinSent e v k).me x = s.me x := by
  rw [State.skeinSent, State.bump_me, State.bump_me]
  exact s.modMe_me_ne (fun m => { m with due := m.due.filter (fun x => x.num != k.num) }) h

/-- Counting it, tracing it and noting the owner's idleness add nothing to what taking a skein means. -/
theorem took_skeinSent (s : State) (e v kind reason : Nat) (k : Skein) : Took s e v k (((s.skeinSent e v k).traceSkein kind e v reason k).idle v) := by
  refine ⟨?_, ?_, fun x hx => ?_, ?_, ?_⟩
  · rw [idle_transit, traceSkein_transit]
    rfl
  · rw [idle_me_self, traceSkein_me, skeinSent_me_self]
  · rw [idle_me_ne _ _ hx, traceSkein_me, skeinSent_me_ne _ _ _ hx]
  · rw [idle_chans, traceSkein_chans]
    rfl
  · rw [idle_engines, traceSkein_engines]
    rfl

section
variable {s : State} {e wait : Nat} {owners : List Nat} {far : Bool}

theorem steal_barred (h : s.flag morStealEn = false ∨ (s.me e).service ≠ 0 ∨ (s.me e).idleSince = none ∨ s.mor.transit.any (fun x => x.dest = e) = true) :
    s.steal e wait owners far = s := by
  obtain h | h | h | h := h <;> simp only [State.steal, h] <;> simp

variable {i : Nat} (h : MaySteal s e i)
include h

theorem steal_early (hw : s.now < i + wait) : s.steal e wait owners far = s := by
  obtain ⟨hen, hsv, hid, htr⟩ := h
  simp only [State.steal, hen, hsv, hid, htr]
  simp [Nat.not_le.mpr hw]

theorem steal_ready (hw : i + wait ≤ s.now) : (s.flag morStealEn && (s.me e).service = 0 &&
    (s.me e).idleSince.any (fun t => decide (t + wait ≤ s.now)) && !s.mor.transit.any (fun x => x.dest = e)) = true := by
  obtain ⟨hen, hsv, hid, htr⟩ := h
  simp [hen, hsv, hid, htr, hw]

theorem steal_none (hw : i + wait ≤ s.now) (hb : bestSteal (stealable s e owners) = none) :
    s.steal e wait owners far = s.modMe e (fun m => { m with idleSince := some s.now }) := by
  rw [stealable] at hb
  simp only [State.steal, steal_ready h hw, Bool.not_true, Bool.false_eq_true, if_false, hb]

variable {v : Nat} {k : Skein} (hw : i + wait ≤ s.now) (hb : bestSteal (stealable s e owners) = some (v, k))
include hw hb

theorem steal_full (hf : s.freeSlots e < k.tasks.length) : s.steal e wait owners far = s.modMe e (fun m => { m with idleSince := some s.now }) := by
  rw [stealable] at hb
  simp only [State.steal, steal_ready h hw, Bool.not_true, Bool.false_eq_true, if_false, hb, hf, if_true]

theorem steal_takes (hf : k.tasks.length ≤ s.freeSlots e) : Took s e v k (s.steal e wait owners far) := by
  rw [stealable] at hb
  simp only [State.steal, steal_ready h hw, Bool.not_true, Bool.false_eq_true, if_false, hb, Nat.not_lt.mpr hf]
  exact took_skeinSent s e v 4 _ k

omit hw hb

/-- What an engine that may steal does, by its wait and by the best skein it finds. -/
theorem steal_rows : (s.now < i + wait → s.steal e wait owners far = s) ∧ (i + wait ≤ s.now →
    (bestSteal (stealable s e owners) = none → s.steal e wait owners far = s.modMe e (fun m => { m with idleSince := some s.now })) ∧
    (∀ v k, bestSteal (stealable s e owners) = some (v, k) →
      (s.freeSlots e < k.tasks.length → s.steal e wait owners far = s.modMe e (fun m => { m with idleSince := some s.now })) ∧
      (k.tasks.length ≤ s.freeSlots e → Took s e v k (s.steal e wait owners far)))) :=
  ⟨steal_early h, fun hw => ⟨steal_none h hw, fun _ _ hb => ⟨steal_full h hw hb, steal_takes h hw hb⟩⟩⟩

end

/-! #### Transit -/

theorem taskTransitEnd_none {s : State} (h : s.mor.transit.find? s.fits = none) : taskTransitEnd s = s := by
  simp only [taskTransitEnd, h]

theorem taskTransitEnd_some {s : State} {x : Transit} (h : s.mor.transit.find? s.fits = some x) :
    taskTransitEnd s = State.arrive { s with mor := { s.mor with transit := s.mor.transit.erase x } } x := by
  simp only [taskTransitEnd, h]

/-- A due skein that arrives with none of class 0 due there becomes due, and its engine is not idle. -/
theorem arrive_due {s : State} {x : Transit} (hx : x.kind = 1) (hd : ∀ k ∈ (s.me x.dest).due ++ [x.skein], k.cls ≠ 0) :
    let t := s.arrive x
    (t.me x.dest).due = (s.me x.dest).due ++ [x.skein] ∧ (t.me x.dest).idleSince = none ∧ (∀ e, e ≠ x.dest → t.me e = s.me e) ∧
    t.chans = s.chans ∧ t.engines = s.engines ∧ t.mem = s.mem := by
  have hme := s.modMe_me_self x.dest (fun m => { m with due := m.due ++ [x.skein] })
  have harr : s.arrive x = ((s.modMe x.dest (fun m => { m with due := m.due ++ [x.skein] })).markHeld x.dest).idle x.dest := by
    simp only [State.arrive, hx]
    rw [raiseSwitch_of_noImmediate _ _ (by rw [hme]; exact hd)]
  rw [harr]
  refine ⟨?_, ?_, fun e he => ?_, rfl, rfl, rfl⟩
  · rw [idle_me_self, markHeld_me, hme]
  · rw [idle_me_self, markHeld_me, hme]
    simp
  · rw [idle_me_ne _ _ he, markHeld_me, s.modMe_me_ne _ he]

/-- Settles O53: each row by what its function does in the case; the trace, the high-water mark and the idleness that follow leave lists, transit and channels. -/
theorem mordantTaskRows : Obligations.MordantTaskRows := by
  refine ⟨?_, ?_, ?_, ?_, ?_, ?_, ?_, ?_, ?_⟩
  · intro b s h
    exact next_whileOn_same (taskOffer_empty b h)
  · intro t0 rest e s t s1 hu hq hr he
    exact ⟨next_whileOn hu (taskOffer_cancelled hq hr he), fun hf => next_whileOn hu (taskOffer_refused hq hr he hf),
      fun hf => next_whileOn hu (taskOffer_accepted hq hr he hf)⟩
  · intro s
    exact ⟨fun h => next_whileOn_same (by rw [immediateTaskAccept, h]), fun h => next_whileOn_same (by rw [immediateHoldReoffer, h])⟩
  · intro i rest s s1 hu hq
    refine ⟨fun hs => next_whileOn hu (immediateTaskAccept_shut hq hs), fun hs => ⟨fun t hp => next_whileOn hu (immediateTaskAccept_placed hq hs hp),
      fun hp hl => next_whileOn hu ?_, fun hp hl => next_whileOn hu ?_⟩⟩
    · rw [immediateTaskAccept_noSlot hq hs hp, if_pos hl]
    · rw [immediateTaskAccept_noSlot hq hs hp, if_neg (Nat.not_lt.mpr hl)]
  · intro i rest s s1 hu hq
    refine ⟨fun hs => next_whileOn hu (immediateHoldReoffer_shut hq hs), fun hs => ⟨fun hp => next_whileOn hu ?_, fun t hp => next_whileOn hu ?_⟩⟩
    · rw [immediateHoldReoffer_up hq hs, hp, Option.getD_none]
    · rw [immediateHoldReoffer_up hq hs, hp, Option.getD_some]
  · intro e index s hu
    refine ⟨fun h => next_whileOn hu (skeinWindowClose_none h), fun k h => ⟨fun hw => next_whileOn hu ?_, fun hw hk hd => ?_⟩⟩
    · rw [skeinWindowClose_some h, if_neg (Nat.not_le.mpr hw)]
    · exact ⟨_, next_whileOn hu ((skeinWindowClose_some h).trans (if_pos hw)), closeSkein_media hk hd⟩
  · intro e s h
    exact ⟨next_whileOn_same (steal_barred h), next_whileOn_same (steal_barred h)⟩
  · intro e i s from_ all again took hu hen hsv hid htr
    have hmay : MaySteal s e.val i := ⟨hen, hsv, hid, htr⟩
    have hall : (if s.mor.evacEnd.isEmpty then (List.range 24).map (fun i => e.val / 24 * 24 + i) else List.range 96) = all := by
      simp only [all, List.isEmpty_iff]
    have hfar : stealFar e.val s = s.steal e.val (s.rd morStealFar) all true := by rw [← hall]; rfl
    obtain ⟨hn, hn'⟩ := steal_rows (owners := clusterOf e.val) (wait := s.rd morStealNear) (far := false) hmay
    obtain ⟨hf, hf'⟩ := steal_rows (owners := all) (wait := s.rd morStealFar) (far := true) hmay
    refine ⟨fun hw => next_whileOn hu (hn hw), fun hw => next_whileOn hu (hfar.trans (hf hw)), fun hw => ?_, fun hw => ?_⟩
    · obtain ⟨hnone, hsome⟩ := hn' hw
      refine ⟨fun hb => next_whileOn hu (hnone hb), fun v k hb => ?_⟩
      obtain ⟨hno, hok⟩ := hsome v k hb
      exact ⟨fun hl => next_whileOn hu (hno hl), fun hl => ⟨_, next_whileOn hu rfl, hok hl⟩⟩
    · obtain ⟨hnone, hsome⟩ := hf' hw
      refine ⟨fun hb => next_whileOn hu (hfar.trans (hnone hb)), fun v k hb => ?_⟩
      obtain ⟨hno, hok⟩ := hsome v k hb
      exact ⟨fun hl => next_whileOn hu (hfar.trans (hno hl)), fun hl => ⟨_, next_whileOn hu hfar, hok hl⟩⟩
  · intro s hu
    refine ⟨fun h => next_whileOn hu (taskTransitEnd_none h), fun x h => ?_⟩
    intro u
    exact ⟨next_whileOn hu (taskTransitEnd_some h), arrive_transit u x, fun hx hd => arrive_due (s := u) hx hd⟩

end Sys2Proof.Machine
end

section
/-! ### Host accesses to CXL memory: the snoop filter, reads and writes of a line -/
namespace Sys2Proof.Machine
open Sys2Proof.Safety

/-! #### The snoop filter -/

/-- A line enters the snoop filter by at most one back invalidation with its count: what these leave, its entry leaves. -/
theorem snoopEnter_keeps {β : Type} {g : State → β} (hback : ∀ u l, g (State.backInv u l) = g u) (hbump : ∀ u, g (State.bump u mbxSfEvict) = g u)
    (hsnoop : ∀ u l, g { u with host := { u.host with snoop := l } } = g u) (s : State) (line : Nat) : g (s.snoopEnter line) = g s := by
  unfold State.snoopEnter
  dsimp only
  split
  · rfl
  · rw [hsnoop]
    split
    · rfl
    · split
      · rw [hbump, hback]
      · rfl

section
variable (s : State) (line : Nat)

theorem backInv_readData : (s.backInv line).host.readData = s.host.readData := by
  unfold State.backInv
  split <;> rfl

theorem backInv_readPoison : (s.backInv line).host.readPoison = s.host.readPoison := by
  unfold State.backInv
  split <;> rfl

@[simp] theorem snoopEnter_mem : (s.snoopEnter line).mem = s.mem :=
  snoopEnter_keeps (g := State.mem) State.backInv_mem (fun _ => rfl) (fun _ _ => rfl) s line

@[simp] theorem snoopEnter_chans : (s.snoopEnter line).chans = s.chans :=
  snoopEnter_keeps (g := State.chans) State.backInv_chans (fun _ => rfl) (fun _ _ => rfl) s line

@[simp] theorem snoopEnter_slots : (s.snoopEnter line).slots = s.slots :=
  snoopEnter_keeps (g := State.slots) State.backInv_slots (fun _ => rfl) (fun _ _ => rfl) s line

@[simp] theorem snoopEnter_ports : (s.snoopEnter line).ports = s.ports :=
  snoopEnter_keeps (g := State.ports) State.backInv_ports (fun _ => rfl) (fun _ _ => rfl) s line

@[simp] theorem snoopEnter_time : (s.snoopEnter line).time = s.time :=
  snoopEnter_keeps (g := State.time) State.backInv_time (fun _ => rfl) (fun _ _ => rfl) s line

@[simp] theorem snoopEnter_readData : (s.snoopEnter line).host.readData = s.host.readData :=
  snoopEnter_keeps (g := fun u => u.host.readData) backInv_readData (fun _ => rfl) (fun _ _ => rfl) s line

@[simp] theorem snoopEnter_readPoison : (s.snoopEnter line).host.readPoison = s.host.readPoison :=
  snoopEnter_keeps (g := fun u => u.host.readPoison) backInv_readPoison (fun _ => rfl) (fun _ _ => rfl) s line

theorem mem_snoopEnter : line ∈ (s.snoopEnter line).host.snoop := by
  unfold State.snoopEnter
  dsimp only
  split
  · next h => exact List.contains_iff_mem.mp h
  · exact List.mem_append_right _ (List.mem_singleton_self line)

end

/-! #### What reaches the device -/

theorem cxlMemAccess_outside {off : Nat} {a : MemAccess} {s : State} (h : s.host.hdmCommitted = false ∨ s.host.hdmSize ≤ off) :
    cxlMemAccess off a s = s := by
  have hout : (!s.host.hdmCommitted || decide (s.host.hdmSize ≤ off)) = true := by simpa using h
  exact if_pos hout

section
variable {off : Nat} {b : List Byte} {s : State}

theorem hdm_inside (hc : s.host.hdmCommitted = true) (ho : off < s.host.hdmSize) :
    ¬(!s.host.hdmCommitted || decide (s.host.hdmSize ≤ off)) = true := by
  simpa [hc] using ho

theorem cxlMemAccess_read (hc : s.host.hdmCommitted = true) (ho : off < s.host.hdmSize) : cxlMemAccess off .read s = s.hostRead off :=
  if_neg (hdm_inside hc ho)

theorem cxlMemAccess_write (hc : s.host.hdmCommitted = true) (ho : off < s.host.hdmSize) : cxlMemAccess off (.write b) s = s.hostWrite off b :=
  if_neg (hdm_inside hc ho)

/-! #### Reads and writes of a line -/

theorem hostRead_inactive (h : s.host.memActive = false) : s.hostRead off = s.answerRead 0 true := by
  simp [State.hostRead, h]

theorem hostRead_beyond (h : s.host.memActive = true) (ho : s.hostBytes ≤ off) : s.hostRead off = s.answerRead 0 false := by
  simp [State.hostRead, h, ho]

theorem hostRead_poisoned (h : s.host.memActive = true) (ho : off < s.hostBytes) (hp : s.linePoisoned (off / 64) = true) :
    s.hostRead off = (s.answerRead 0 true).snoopEnter (off / 64) := by
  simp only [State.hostRead, h, ge_iff_le, Nat.not_le.mpr ho, hp, Bool.not_true, Bool.false_eq_true, if_false, if_true]

theorem hostRead_whole (h : s.host.memActive = true) (ho : off < s.hostBytes) (hp : s.linePoisoned (off / 64) = false) :
    s.hostRead off = (s.answerRead (leNat (s.lineBytes (off / 64))) false).snoopEnter (off / 64) := by
  simp only [State.hostRead, h, ge_iff_le, Nat.not_le.mpr ho, hp, Bool.not_true, Bool.false_eq_true, if_false]

theorem answerRead_snoopEnter (s : State) (v line : Nat) (p : Bool) : let t := (s.answerRead v p).snoopEnter line
    t.mem = s.mem ∧ t.host.readPoison = p ∧ t.host.readData = v ∧ line ∈ t.host.snoop :=
  ⟨snoopEnter_mem _ _, snoopEnter_readPoison _ _, snoopEnter_readData _ _, mem_snoopEnter _ _⟩

/-- What a read of a line within host-visible memory answers and leaves. -/
theorem hostRead_answer (h : s.host.memActive = true) (ho : off < s.hostBytes) :
    let t := s.hostRead off
    t.mem = s.mem ∧ t.host.readPoison = s.linePoisoned (off / 64) ∧
      (s.linePoisoned (off / 64) = false → t.host.readData = leNat (s.lineBytes (off / 64))) ∧ off / 64 ∈ t.host.snoop := by
  cases hp : s.linePoisoned (off / 64) with
  | true =>
    rw [hostRead_poisoned h ho hp]
    obtain ⟨hmem, hpoison, -, hsnoop⟩ := answerRead_snoopEnter s 0 (off / 64) true
    exact ⟨hmem, hpoison, fun hn => absurd hn (by decide), hsnoop⟩
  | false =>
    rw [hostRead_whole h ho hp]
    obtain ⟨hmem, hpoison, hdata, hsnoop⟩ := answerRead_snoopEnter s (leNat (s.lineBytes (off / 64))) (off / 64) false
    exact ⟨hmem, hpoison, fun _ => hdata, hsnoop⟩

theorem hostWrite_inactive (h : s.host.memActive = false) : s.hostWrite off b = s := by
  simp [State.hostWrite, h]

theorem hostWrite_window (h : s.host.memActive = true) (ho : off < hsBase) : s.hostWrite off b = stateWindowWrite off s := by
  simp only [State.hostWrite, h, ho, Bool.not_true, Bool.false_eq_true, if_false, if_true]

theorem hostWrite_beyond (h : s.host.memActive = true) (hb : hsBase ≤ off) (ho : s.hostBytes ≤ off) :
    s.hostWrite off b = s.bump mbxSwWriteDiscard := by
  simp only [State.hostWrite, h, Nat.not_lt.mpr hb, ge_iff_le, ho, Bool.not_true, Bool.false_eq_true, if_false, if_true]

/-- A write inside a line of the partition stores its bytes, clears poison where it is of the whole line, and the line enters the snoop filter. -/
theorem hostWrite_shared (h : s.host.memActive = true) (hb : hsBase ≤ off) (ho : off < s.hostBytes) (hl : off % 64 + b.length ≤ 64) :
    ∃ u : State, s.hostWrite off b = u.snoopEnter (off / 64) ∧ u.mem.hostShared = msetList s.mem.hostShared (off - hsBase) b ∧
      u.chans = s.chans ∧ u.slots = s.slots ∧ u.ports = s.ports ∧ u.time = s.time := by
  simp only [State.hostWrite, h, Bool.not_true, Bool.false_eq_true, if_false, Nat.not_lt.mpr hb, ge_iff_le, Nat.not_le.mpr ho,
    List.take_of_length_le (show b.length ≤ 64 - off % 64 by omega)]
  refine ⟨_, rfl, ?_⟩
  split <;> exact ⟨rfl, rfl, rfl, rfl, rfl⟩

end

/-- Settles O29: each access by what the device's read or write of its line does in the case. -/
theorem hostMemoryAccess : Obligations.HostMemoryAccess := by
  have hwrite : ∀ {off : Nat} (b : List Byte) {s : State}, s.host.hdmCommitted = true → off < s.host.hdmSize →
      exec (.cxlMemAccess off (.write b)) s = .next (s.hostWrite off b) := fun b _ hc ho => congrArg Host.Outcome.next (cxlMemAccess_write hc ho)
  have hread : ∀ {off : Nat} {s : State}, s.host.hdmCommitted = true → off < s.host.hdmSize →
      exec (.cxlMemAccess off .read) s = .next (s.hostRead off) := fun hc ho => congrArg Host.Outcome.next (cxlMemAccess_read hc ho)
  refine ⟨?_, ?_, ?_, ?_, ?_, ?_, fun _ _ => rfl⟩
  · intro off b s hc ho hact hb hlt hl
    obtain ⟨u, hu, hshared, hchans, hslots, hports, htime⟩ := hostWrite_shared hact hb hlt hl
    refine ⟨_, (hwrite b hc ho).trans (congrArg Host.Outcome.next hu), fun i hi => ?_, fun a ha => ?_, mem_snoopEnter _ _, ?_, ?_, ?_, ?_⟩
    · rw [snoopEnter_mem, hshared, mget_msetList_in _ _ _ _ hi]
    · rw [snoopEnter_mem, hshared, mget_msetList_out _ _ _ _ ha]
    · rw [snoopEnter_chans, hchans]
    · rw [snoopEnter_slots, hslots]
    · rw [snoopEnter_ports, hports]
    · rw [snoopEnter_time, htime]
  · intro off b s hc ho hact hw
    rw [hwrite b hc ho, hostWrite_window hact hw, stateWindowWrite]
  · intro off b s hc ho hact hb hend
    rw [hwrite b hc ho, hostWrite_beyond hact hb hend, hread hc ho, hostRead_beyond hact hend]
    exact ⟨rfl, rfl⟩
  · intro off b s hc ho hoff
    rw [hwrite b hc ho, hostWrite_inactive hoff, hread hc ho, hostRead_inactive hoff]
    exact ⟨rfl, rfl⟩
  · intro off a s h
    exact congrArg Host.Outcome.next (cxlMemAccess_outside h)
  · intro off s hc ho hact hlt
    exact ⟨_, hread hc ho, hostRead_answer hact hlt⟩

end Sys2Proof.Machine
end

section
/-! ### What a supervisor command that runs comes to -/
namespace Sys2Proof.Machine
open Sys2Proof.Safety

section
variable {c : HostCmd} {op : Nat} {used : List (Nat × Nat)} {groups : Bool} {s t : State} {f : State → Reply}

/-- A command whose rule refuses it completes with the refusal, on the state before it. -/
theorem next_refuse {st d : Nat} (h : commandRuns c op used groups s = true) (hf : f s = .refuse st d) :
    (.next (runCommand c op used groups f s) : Out) = .next (refused c op st d s) := by
  rw [runCommand_runs f h, hf]
  rfl

/-- A command that fails completes with the refusal, on the state its rule leaves. -/
theorem next_fail {st d : Nat} (h : commandRuns c op used groups s = true) (hf : f s = .fail t st d) :
    (.next (runCommand c op used groups f s) : Out) = .next (refused c op st d t) := by
  rw [runCommand_runs f h, hf]
  rfl

theorem next_publish {chans : List Nat} (h : commandRuns c op used groups s = true) (hf : f s = .publish t chans) :
    (.next (runCommand c op used groups f s) : Out) = .next (t.publishing c op chans) := by
  rw [runCommand_runs f h, hf]

theorem next_later (h : commandRuns c op used groups s = true) (hf : f s = .later t) :
    (.next (runCommand c op used groups f s) : Out) = .next (t.markApplied c.qid.val c.tag.toNat) := by
  rw [runCommand_runs f h, hf]

/-- A command judged by its load alone. -/
theorem next_byLoad {chans : List Nat} (h : commandRuns c op used groups s = true)
    (hf : f s = if overLoad s t = true then .fail (s.bump supLoadRefused) stNO_RESOURCE 0 else .publish t.replan chans) :
    (.next (runCommand c op used groups f s) : Out) =
      .next (if overLoad s t = true then refused c op stNO_RESOURCE 0 (s.bump supLoadRefused) else t.replan.publishing c op chans) := by
  split at hf
  · next hl => rw [if_pos hl, next_fail h hf]
  · next hl => rw [if_neg hl, next_publish h hf]

end

/-- The reply of a command that puts new flow entries in force: the refusal, or the plan anew and the publications. -/
def Reply.ofReflow (chans : List Nat) : Except (State × Nat × Nat) State → Reply
  | .error e => .fail e.1 e.2.1 e.2.2
  | .ok u => .publish u.replan chans

theorem bits_chanOf (c : HostCmd) : bits c.w1.toNat 0 16 = chanOf c := rfl

/-! #### The first check that fails -/

@[simp] theorem firstFail_nil : firstFail [] = none := rfl

@[simp] theorem firstFail_cons (x : Check) (l : List Check) : firstFail (x :: l) = if x.1 = true then some x.2 else firstFail l := by
  unfold firstFail
  rw [List.find?_cons]
  split <;> simp_all

/-- Checks that all pass leave the verdict to those after them. -/
theorem firstFail_append {l m : List Check} (h : firstFail l = none) : firstFail (l ++ m) = firstFail m := by
  induction l with
  | nil => rfl
  | cons x l ih =>
    rw [firstFail_cons] at h
    split at h
    · exact absurd h (by simp)
    · next hx => rw [List.cons_append, firstFail_cons, if_neg hx, ih h]

end Sys2Proof.Machine
end

section
/-! ### CHAN_OPEN and CHAN_MODIFY -/
namespace Sys2Proof.Machine
open Sys2Proof.Safety

variable {c : HostCmd} {gs : List Grp} {s : State}

/-! #### CHAN_OPEN -/

/-- The entries that a CHAN_OPEN claims on its local address. -/
def State.openClaim (s : State) (ch : Nat) (gs : List Grp) : Except Nat (Option (State × List FlowEntry)) :=
  let n := s.openedChan ch gs
  s.claimFlows n.flows.localAddr [] (fun lat => portDetails (grp gs 4) (mediaFlows ch lat n.flows false))

/-- The groups of a CHAN_OPEN are in order, one by one and among themselves. -/
structure OpenGroups (c : HostCmd) (gs : List Grp) (s : State) : Prop where
  parsed : s.groupsOf c [1, 2, 3, 4, 5, 6, 7, 8, 9] [1, 2, 3, 4, 5] = .ok gs
  sound : firstFail (groupChecks s (s.openedChan (chanOf c) gs) gs) = none

theorem applyOpen_closing (hg : OpenGroups c gs s) (h : (s.chan (chanOf c)).st = .closing) : applyOpen c s = .refuse stBUSY 0 := by
  simp [applyOpen, bits_chanOf, hg.parsed, firstFail_append hg.sound, h]

theorem applyOpen_inUse (hg : OpenGroups c gs s) (h : (s.chan (chanOf c)).st = .open ∨ (s.chan (chanOf c)).st = .bound) :
    applyOpen c s = .refuse stBAD_STATE 0 := by
  rcases h with h | h <;> simp [applyOpen, bits_chanOf, hg.parsed, firstFail_append hg.sound, h]

/-- A FREE channel that passes every check and whose entries are claimed opens if its load and the flow table allow it. -/
theorem applyOpen_free {s1 : State} {es : List FlowEntry} (hg : OpenGroups c gs s) (hst : (s.chan (chanOf c)).st = .free) (hboot : s.rd mbxBootState ≠ 6)
    (hhome : s.homeOk (chanOf c) = true) (hext : s.extOk (s.openedChan (chanOf c) gs) = true) (hclaim : s.openClaim (chanOf c) gs = .ok (some (s1, es)))
    (hfit : s.frameFits (s.openedChan (chanOf c) gs) = true) :
    let t := s1.draw.draw.draw.setChan (chanOf c) (s.openedChan (chanOf c) gs)
    (overLoad s t = true → applyOpen c s = .fail (s.bump supLoadRefused) stNO_RESOURCE 0) ∧
      (∀ u, overLoad s t = false → t.installFlows [] es = some u → applyOpen c s = .publish (u.ctxFrame (chanOf c)).replan [chanOf c]) := by
  intro t
  have hclaim' : s.claimFlows (s.openedChan (chanOf c) gs).flows.localAddr []
      (fun lat => portDetails (grp gs 4) (mediaFlows (chanOf c) lat (s.openedChan (chanOf c) gs).flows false)) = .ok (some (s1, es)) := hclaim
  refine ⟨fun hload => ?_, fun u hload hu => ?_⟩
  · simp [applyOpen, bits_chanOf, hg.parsed, firstFail_append hg.sound, hst, hboot, hhome, hext, hclaim', hfit, t, hload]
  · simp [applyOpen, bits_chanOf, hg.parsed, firstFail_append hg.sound, hst, hboot, hhome, hext, hclaim', hfit, t, hload, hu]

/-- No group of a block sets the state of its channel. -/
theorem applyGrp_st (x : Chan) (g : Grp) : (applyGrp x g).st = x.st := by
  unfold applyGrp
  split
  case h_3 =>
    dsimp only
    split <;> rfl
  all_goals rfl

theorem withGroups_st (gs : List Grp) (x : Chan) : (withGroups gs x).st = x.st := by
  induction gs generalizing x with
  | nil => rfl
  | cons g gs ih => exact (ih (applyGrp x g)).trans (applyGrp_st x g)

theorem openedChan_st (s : State) (ch : Nat) (gs : List Grp) : (s.openedChan ch gs).st = .open := withGroups_st gs _

/-! #### CHAN_MODIFY -/

/-- What a CHAN_MODIFY that makes `n` of a channel leaves, flows and plan apart. -/
def State.modifyEffect (s : State) (ch : Nat) (n : Chan) : State :=
  ((((s.setChan ch n).letJumpGo s ch).settleEcho ch).rephaseIf s ch).rephaseIf s (if (s.chan ch).st = .bound then (s.chan ch).peer else ch)

/-- The checks of a CHAN_MODIFY that depend on the channel's state, in their order. -/
def State.modifyChecks (s : State) (ch : Nat) (gs : List Grp) : List Check :=
  let old := s.chan ch
  let n := modifiedChan old gs
  let codecs := (grpOf gs 2).isSome || (grpOf gs 3).isSome
  [(old.st != .open && old.st != .bound, stBAD_STATE, 0),
   ((old.vbd.state = 2 || old.vbd.state = 3) && old.vbd.relay && (codecs || (grpOf gs 4).isSome), stBAD_STATE, 0),
   (!s.frameFits n, stBAD_PARAM, frameDetail gs),
   (codecs && old.st = .bound && !callFits n (s.chan old.peer), stBAD_PARAM, periodDetail gs)]

/-- The groups of a CHAN_MODIFY are in order, one by one and among themselves. -/
structure ModifyGroups (c : HostCmd) (gs : List Grp) (s : State) : Prop where
  parsed : s.groupsOf c [2, 3, 4, 5, 6, 7, 8, 9] [] = .ok gs
  given : gs ≠ []
  sound : firstFail (groupChecks s (modifiedChan (s.chan (chanOf c)) gs) gs) = none

theorem ModifyGroups.firstFail_checks (hg : ModifyGroups c gs s) :
    firstFail ([(gs.isEmpty, stBAD_PARAM, 16)] ++ groupChecks s (modifiedChan (s.chan (chanOf c)) gs) gs ++ s.modifyChecks (chanOf c) gs) =
      firstFail (s.modifyChecks (chanOf c) gs) := by
  refine firstFail_append ?_
  rw [firstFail_append (by simp [hg.given]), hg.sound]

theorem applyModify_refused (hg : ModifyGroups c gs s) {e : Nat × Nat} (h : firstFail (s.modifyChecks (chanOf c) gs) = some e) :
    applyModify c s = .refuse e.1 e.2 := by
  rw [← hg.firstFail_checks] at h
  unfold applyModify
  rw [hg.parsed]
  dsimp only
  split
  · next heq => rw [Option.some.inj (h.symm.trans heq)]
  · next heq => exact absurd (h.symm.trans heq) (by simp)

theorem applyModify_notOpen (hg : ModifyGroups c gs s) (h : (s.chan (chanOf c)).st = .free ∨ (s.chan (chanOf c)).st = .closing) :
    applyModify c s = .refuse stBAD_STATE 0 := by
  refine applyModify_refused hg (e := (stBAD_STATE, 0)) ?_
  rcases h with h | h <;> simp [State.modifyChecks, h]

/-- Without new FLOWS, a CHAN_MODIFY that passes its checks is judged by its load alone. -/
theorem applyModify_kept (hg : ModifyGroups c gs s) (h : firstFail (s.modifyChecks (chanOf c) gs) = none) (hf : grpOf gs 4 = none) :
    let t := s.modifyEffect (chanOf c) (modifiedChan (s.chan (chanOf c)) gs)
    applyModify c s = if overLoad s t then .fail (s.bump supLoadRefused) stNO_RESOURCE 0 else .publish t.replan [chanOf c] := by
  rw [← hg.firstFail_checks] at h
  unfold applyModify
  rw [hg.parsed]
  dsimp only
  split
  · next heq => exact absurd (h.symm.trans heq) (by simp)
  · rw [hf]
    rfl

/-- With new FLOWS, their entries and the load decide. -/
theorem applyModify_reflow {g : Grp} (hg : ModifyGroups c gs s) (h : firstFail (s.modifyChecks (chanOf c) gs) = none) (hf : grpOf gs 4 = some g) :
    let n := modifiedChan (s.chan (chanOf c)) gs
    applyModify c s = .ofReflow [chanOf c] ((s.modifyEffect (chanOf c) n).reflow s (chanOf c) g n) := by
  rw [← hg.firstFail_checks] at h
  unfold applyModify
  rw [hg.parsed]
  dsimp only
  split
  · next heq => exact absurd (h.symm.trans heq) (by simp)
  · rw [hf]
    delta State.modifyEffect chanOf
    dsimp only
    generalize State.reflow _ s _ g _ = r
    cases r <;> rfl

/-- The channel takes the change: it is OPEN, or BOUND with periods that suit its peer's; it is no relay leg whose codec or flows change; its
packets fit its port. -/
structure Modifiable (s : State) (ch : Nat) (gs : List Grp) : Prop where
  st : (s.chan ch).st = .open ∨ ((s.chan ch).st = .bound ∧
    (callFits (modifiedChan (s.chan ch) gs) (s.chan (s.chan ch).peer) = true ∨ (grpOf gs 2 = none ∧ grpOf gs 3 = none)))
  relay : (s.chan ch).vbd.state < 2 ∨ (s.chan ch).vbd.relay = false ∨ (grpOf gs 2 = none ∧ grpOf gs 3 = none ∧ grpOf gs 4 = none)
  fits : s.frameFits (modifiedChan (s.chan ch) gs) = true

theorem modifyChecks_pass {ch : Nat} (h : Modifiable s ch gs) : firstFail (s.modifyChecks ch gs) = none := by
  obtain ⟨hst, hrelay, hfits⟩ := h
  have hstate : ((s.chan ch).st != .open && (s.chan ch).st != .bound) = false := by
    rcases hst with h | ⟨h, -⟩ <;> simp [h]
  have hleg : (((s.chan ch).vbd.state = 2 || (s.chan ch).vbd.state = 3) && (s.chan ch).vbd.relay &&
      ((grpOf gs 2).isSome || (grpOf gs 3).isSome || (grpOf gs 4).isSome)) = false := by
    rcases hrelay with h | h | ⟨h2, h3, h4⟩
    · simp only [show (s.chan ch).vbd.state ≠ 2 by omega, show (s.chan ch).vbd.state ≠ 3 by omega, decide_false, Bool.or_false, Bool.false_and]
    · simp [h]
    · simp [h2, h3, h4]
  have hperiods : (((grpOf gs 2).isSome || (grpOf gs 3).isSome) && (s.chan ch).st = .bound &&
      !callFits (modifiedChan (s.chan ch) gs) (s.chan (s.chan ch).peer)) = false := by
    rcases hst with h | ⟨-, h | ⟨h2, h3⟩⟩
    · simp [h]
    · simp [h]
    · simp [h2, h3]
  simp only [State.modifyChecks, firstFail_cons, firstFail_nil, hstate, hleg, hperiods, hfits, Bool.not_true, Bool.false_eq_true, if_false]

end Sys2Proof.Machine
end

section
/-! ### CALL_BIND, CALL_UNBIND, SRTP_KEY_SET and CHAN_CLOSE -/
namespace Sys2Proof.Machine
open Sys2Proof.Safety

variable {c : HostCmd} {s : State}

/-! #### CALL_BIND and CALL_UNBIND -/

/-- Two channels change together: each as told, no other channel. -/
theorem modChan_pair {a b : Nat} (s : State) (f g : Chan → Chan) (h : a ≠ b) : let t := (s.modChan a f).modChan b g
    t.chan a = f (s.chan a) ∧ t.chan b = g (s.chan b) ∧ ∀ m, m ≠ a → m ≠ b → t.chan m = s.chan m := by
  refine ⟨?_, ?_, fun m ha hb => ?_⟩
  · rw [State.modChan_chan_ne _ _ h, State.modChan_chan_self]
  · rw [State.modChan_chan_self, State.modChan_chan_ne _ _ h.symm]
  · rw [State.modChan_chan_ne _ _ hb, State.modChan_chan_ne _ _ ha]

/-- The two channels of a CALL_BIND made each other's peer. -/
def State.bindPair (s : State) (a b : Nat) : State :=
  (s.modChan a (fun x => { noReference x with st := .bound, peer := b })).modChan b (fun x => { noReference x with st := .bound, peer := a })

theorem applyBind_self (h : bits c.w1.toNat 0 16 = bits c.w1.toNat 16 16) : applyBind c s = .refuse stBAD_PARAM 10 := if_pos h

section
variable {a b : Nat} (ha : bits c.w1.toNat 0 16 = a) (hb : bits c.w1.toNat 16 16 = b) (hab : a ≠ b)
include ha hb hab

theorem applyBind_notOpen (h : (s.chan a).st ≠ .open ∨ (s.chan b).st ≠ .open) : applyBind c s = .refuse stBAD_STATE 0 := by
  simp [applyBind, ha, hb, hab, h]

/-- Two OPEN channels are judged by their periods, then by the load. -/
theorem applyBind_open (hoa : (s.chan a).st = .open) (hob : (s.chan b).st = .open) :
    applyBind c s = if callFits (s.chan a) (s.chan b) = true then
      if overLoad s (s.bindPair a b) = true then .fail (s.bump supLoadRefused) stNO_RESOURCE 0 else .publish (s.bindPair a b).replan [a, b]
    else .refuse stBAD_PARAM 10 := by
  subst ha hb
  have hst : ¬((s.chan (bits c.w1.toNat 0 16)).st != .open || (s.chan (bits c.w1.toNat 16 16)).st != .open) = true := by simp [hoa, hob]
  refine (if_neg hab).trans ((if_neg hst).trans ?_)
  cases callFits (s.chan (bits c.w1.toNat 0 16)) (s.chan (bits c.w1.toNat 16 16)) <;> rfl

end

/-- Both legs of a call made OPEN. -/
def State.unbindPair (s : State) (a b : Nat) : State :=
  let f := fun (x : Chan) => { noReference x with st := .open, peer := 0 }
  (s.modChan a f).modChan b f

theorem applyUnbind_bound (h : (s.chan (chanOf c)).st = .bound) :
    applyUnbind c s = .publish (s.unbindPair (chanOf c) (s.chan (chanOf c)).peer).replan [chanOf c, (s.chan (chanOf c)).peer] := by
  simp [applyUnbind, bits_chanOf, h, State.unbindPair]

theorem applyUnbind_notBound (h : (s.chan (chanOf c)).st ≠ .bound) : applyUnbind c s = .refuse stBAD_STATE 0 := by
  simp [applyUnbind, bits_chanOf, h]

theorem unbindPair_st (s : State) (a b : Nat) : ((s.unbindPair a b).chan a).st = .open ∧ ((s.unbindPair a b).chan b).st = .open := by
  refine ⟨?_, by rw [State.unbindPair, State.modChan_chan_self]⟩
  by_cases h : a = b
  · rw [h, State.unbindPair, State.modChan_chan_self]
  · rw [State.unbindPair, State.modChan_chan_ne _ _ h, State.modChan_chan_self]

/-! #### SRTP_KEY_SET -/

/-- Bister's overwriting of a block changes no channel. -/
@[simp] theorem scrub_chan (s : State) (c : HostCmd) (ch : Nat) : (s.scrub c).chan ch = s.chan ch := by
  unfold State.scrub
  split
  · rfl
  · exact foldl_keeps (fun u : State => u.chan ch) (fun u i => State.hsWrite_chan u _ _ ch) _ s

/-- The groups of an SRTP_KEY_SET are in order, and each MKI fits its length. -/
structure KeyGroups (c : HostCmd) (gs : List Grp) (s : State) : Prop where
  parsed : s.groupsOf c [12] [12] = .ok gs
  mki : ∀ g ∈ gs, g.f 0 32 32 < 2 ^ (8 * g.f 0 4 3)

theorem KeyGroups.noFault {gs : List Grp} (hg : KeyGroups c gs s) :
    gs.findSome? (fun g => firstFail [(decide (g.f 0 32 32 ≥ 2 ^ (8 * g.f 0 4 3)), stBAD_PARAM, g.detail 0 32)]) = none := by
  refine List.findSome?_eq_none_iff.mpr fun g hm => ?_
  rw [firstFail_cons, firstFail_nil, if_neg]
  simpa using hg.mki g hm

theorem applyKeySet_notOpen {gs : List Grp} (hg : KeyGroups c gs s) (ho : (s.chan (chanOf c)).st ≠ .open) (hb : (s.chan (chanOf c)).st ≠ .bound) :
    applyKeySet c s = .fail (s.scrub c) stBAD_STATE 0 := by
  simp only [applyKeySet, bits_chanOf, hg.parsed, hg.noFault, scrub_chan]
  simp [ho, hb]

theorem applyKeySet_open {gs : List Grp} (hg : KeyGroups c gs s) (h : (s.chan (chanOf c)).st = .open ∨ (s.chan (chanOf c)).st = .bound)
    (hsup : ∀ g ∈ gs, g.f 0 1 3 ≤ 4 ∧ g.f 0 24 8 = 0) :
    applyKeySet c s = .publish (gs.foldl (fun s g => s.setKey (chanOf c) g) (s.scrub c)) [chanOf c] := by
  have hst : ((s.chan (chanOf c)).st != .open && (s.chan (chanOf c)).st != .bound) = false := by
    rcases h with h | h <;> simp [h]
  have hany : gs.any (fun g => decide (g.f 0 1 3 > 4) || g.f 0 24 8 != 0) = false := by
    simpa using hsup
  simp only [applyKeySet, bits_chanOf, hg.parsed, hg.noFault, scrub_chan, hst, hany, Bool.false_eq_true, if_false]

/-! #### CHAN_CLOSE -/

/-- A channel made CLOSING: its flow entries, local address and waiting tasks gone. -/
def State.closeOff (s : State) (ch : Nat) : State :=
  let old := s.chan ch
  (((s.removeFlows ((s.flowsOfChan ch).map flowKey)).latLeave old.flows.localAddr).cancelTasks ch 2 true).modChan ch
    (fun x => { x with st := .closing, pub := { x.pub with closing := true, lastState := shownState old false, lastPeer := old.peer } })

theorem applyClose_open (h : (s.chan (chanOf c)).st = .open) :
    applyClose c s = .publish ((s.closeOff (chanOf c)).replan.dropFar (chanOf c)) [chanOf c] := by
  simp [applyClose, bits_chanOf, h, State.closeOff]

theorem applyClose_bound (h : (s.chan (chanOf c)).st = .bound) :
    applyClose c s = .publish ((((s.closeOff (chanOf c)).modChan (s.chan (chanOf c)).peer (fun p => { p with st := .open, peer := 0 })).replan).dropFar
      (chanOf c)) [chanOf c, (s.chan (chanOf c)).peer] := by
  simp [applyClose, bits_chanOf, h, State.closeOff]

theorem applyClose_free (h : (s.chan (chanOf c)).st = .free) : applyClose c s = .refuse stBAD_STATE 0 := by
  simp [applyClose, bits_chanOf, h]

theorem applyClose_closing (h : (s.chan (chanOf c)).st = .closing) : applyClose c s = .refuse stBUSY 0 := by
  simp [applyClose, bits_chanOf, h]

/-- Settles O51: each command by what its rule answers in the case, in the frame in which commands run. -/
theorem channelCommands : Obligations.ChannelCommands := by
  refine ⟨?_, ?_, ?_, ?_, ?_, ?_⟩
  · intro c gs s ch n st claim hrun hparsed hsound
    have hg : OpenGroups c gs s := ⟨hparsed, hsound⟩
    refine ⟨fun h => ?_, fun h => ?_, fun s1 es hst hboot hhome hext hclaim hfit => ?_⟩
    · exact next_refuse hrun (applyOpen_closing hg h)
    · exact next_refuse hrun (applyOpen_inUse hg h)
    · obtain ⟨hover, hroom⟩ := applyOpen_free hg hst hboot hhome hext hclaim hfit
      exact ⟨fun hl => next_fail hrun (hover hl), fun u hl hu => ⟨openedChan_st s ch gs,
        next_publish hrun (hroom u hl hu)⟩⟩
  · intro c gs s ch old n t hrun hparsed hgiven hsound
    have hg : ModifyGroups c gs s := ⟨hparsed, hgiven, hsound⟩
    refine ⟨fun h => ?_, fun hst hrelay hfits => ?_⟩
    · exact next_refuse hrun (applyModify_notOpen hg h)
    · have hpass := modifyChecks_pass (s := s) (ch := ch) ⟨hst, hrelay, hfits⟩
      refine ⟨fun hf hl => ?_, fun hf hl => ?_, fun g u hf hr => ?_, fun g e hf hr => ?_⟩
      · exact next_publish hrun ((applyModify_kept hg hpass hf).trans (if_neg (Bool.eq_false_iff.mp hl)))
      · exact next_fail hrun ((applyModify_kept hg hpass hf).trans (if_pos hl))
      · exact next_publish hrun ((applyModify_reflow hg hpass hf).trans (congrArg (Reply.ofReflow _) hr))
      · exact next_fail hrun ((applyModify_reflow hg hpass hf).trans (congrArg (Reply.ofReflow _) hr))
  · intro c s a b t hrun
    refine ⟨fun hab => ?_, fun hab h => ?_, fun hab hoa hob => ⟨fun hfit => ?_, fun hfit hl => ?_, fun hfit hl => ?_⟩⟩
    · exact next_refuse hrun (applyBind_self hab)
    · exact next_refuse hrun (applyBind_notOpen rfl rfl hab h)
    · exact next_refuse hrun ((applyBind_open rfl rfl hab hoa hob).trans (if_neg (Bool.eq_false_iff.mp hfit)))
    · exact next_fail hrun ((applyBind_open rfl rfl hab hoa hob).trans ((if_pos hfit).trans (if_pos hl)))
    · obtain ⟨hta, htb, hother⟩ := modChan_pair s (fun x => { noReference x with st := .bound, peer := b })
        (fun x => { noReference x with st := .bound, peer := a }) hab
      exact ⟨congrArg Chan.st hta, congrArg Chan.peer hta, congrArg Chan.st htb, congrArg Chan.peer htb, hother,
        next_publish hrun ((applyBind_open rfl rfl hab hoa hob).trans ((if_pos hfit).trans (if_neg (Bool.eq_false_iff.mp hl))))⟩
  · intro c s ch p f t hrun
    refine ⟨fun h => ?_, fun h => next_refuse hrun (applyUnbind_notBound h)⟩
    obtain ⟨hch, hp⟩ := unbindPair_st s ch p
    refine ⟨hch, hp, fun m hm hmp => ?_, next_publish hrun (applyUnbind_bound h)⟩
    rw [State.modChan_chan_ne _ _ hmp, State.modChan_chan_ne _ _ hm]
  · intro c gs s ch t hrun hparsed hmki
    have hg : KeyGroups c gs s := ⟨hparsed, hmki⟩
    exact ⟨fun h hsup => next_publish hrun (applyKeySet_open hg h hsup),
      fun ho hb => next_fail hrun (applyKeySet_notOpen hg ho hb)⟩
  · intro c s ch old s1 s2 hrun
    exact ⟨fun h => next_publish hrun (applyClose_open h),
      fun h => next_publish hrun (applyClose_bound h),
      fun h => next_refuse hrun (applyClose_free h),
      fun h => next_refuse hrun (applyClose_closing h)⟩

end Sys2Proof.Machine
end

section
/-! ### Publications without a job, copies to host memory -/
namespace Sys2Proof.Machine
open Sys2Proof.Safety

/-! #### Publications without a job -/

theorem housekeepingPublication_eq (ch : Nat) (s : State) : housekeepingPublication ch s =
    if ((s.chan ch).st = .open ∨ (s.chan ch).st = .bound) ∧ (∀ e, (s.chan ch).pub.lastEnd = some e → e + ms 20 ≤ s.now) ∧ s.heldForUp ch = false
      then s.publish ch else s := by
  unfold housekeepingPublication
  dsimp only
  refine if_congr ?_ rfl rfl
  cases (s.chan ch).pub.lastEnd with
  | none => simp
  | some e => simp [and_assoc]

theorem tryPublish_notClosing {ch : Nat} {s : State} (h : (s.chan ch).st ≠ .closing) : s.tryPublish ch =
    if (s.chan ch).pub.due = true ∧ (s.chan ch).pub.newer = false ∧ spaced (s.chan ch).pub s.now = true ∧ s.heldForUp ch = false
      then s.publish ch else s := by
  unfold State.tryPublish
  dsimp only
  refine if_congr ?_ rfl rfl
  simp [h, and_assoc]

theorem tryPublish_notDue {ch : Nat} {s : State} (h : (s.chan ch).pub.due = false) : s.tryPublish ch = s := by
  simp [State.tryPublish, h]

/-! #### SNAPSHOT and STATS_READ -/

section
variable {c : HostCmd} {s : State} {first count : Nat} (hf : bits c.w1.toNat 0 16 = first) (hc : bits c.w1.toNat 32 17 = count)
include hf hc

theorem applySnapshot_outside (h : count = 0 ∨ 65536 < count ∨ 65536 < first + count) : applySnapshot c s = .refuse stBAD_PARAM 12 := by
  subst hf hc
  refine if_pos ?_
  simpa [or_assoc] using h

/-- A SNAPSHOT of channels that there are is judged by its buffer, then by whether another is served. -/
theorem applySnapshot_within (h0 : count ≠ 0) (hn : first + count ≤ 65536) : applySnapshot c s =
    if c.w4.toNat < count * 512 then .refuse stBAD_PARAM 32
    else if c.w3.toNat % 64 ≠ 0 then .refuse stBAD_PARAM 24
    else if ∃ r ∈ s.host.cacheOut ++ s.host.cacheWait, r.serves = 0 then .refuse stBUSY 0
    else .later (s.cacheIssue (lineWrites 0 c.qid.val c.tag.toNat c.w3.toNat (s.tbVal 0) count (8 * count)
      ((List.range count).flatMap (fun i => s.recordBytes (first + i))))) := by
  subst hf hc
  refine (if_neg ?_).trans (if_congr Iff.rfl rfl (if_congr ?_ rfl (if_congr ?_ rfl rfl)))
  · simp
    omega
  · exact bne_iff_ne
  · simp only [List.any_eq_true, decide_eq_true_eq]

end

section
variable {c : HostCmd} {s : State} {first count : Nat} (hf : bits c.w1.toNat 0 16 = first) (hc : bits c.w1.toNat 32 13 = count)
include hf hc

theorem applyStats_outside (h : count = 0 ∨ 4096 < count ∨ 65536 < first + count) : applyStats c s = .refuse stBAD_PARAM 12 := by
  subst hf hc
  refine if_pos ?_
  simpa [or_assoc] using h

/-- A STATS_READ of channels that there are is judged by its buffer alone. -/
theorem applyStats_within (h0 : count ≠ 0) (h1 : count ≤ 4096) (hn : first + count ≤ 65536) : applyStats c s =
    if c.w4.toNat < count * 1024 then .refuse stBAD_PARAM 32
    else .later (State.cacheIssue { s with freeCtr := s.freeCtr + count } (lineWrites 2 c.qid.val c.tag.toNat c.w3.toNat count 0 (16 * count + 1)
      ((List.range count).flatMap (fun i => s.statsBlock (first + i) (Config.freeNat (s.freeCtr + i)))))) := by
  subst hf hc
  refine if_neg ?_
  simp
  omega

end

end Sys2Proof.Machine
end

section
/-! ### FAX_MODE -/
namespace Sys2Proof.Machine
open Sys2Proof.Safety

variable {c : HostCmd} {s : State}

/-- The leg whose settings a FAX_MODE changes: the relay leg in states 2 and 3, else the channel named. -/
def State.faxSubject (s : State) (ch : Nat) : Nat :=
  if (s.chan ch).vbd.state = 2 || (s.chan ch).vbd.state = 3 then s.relayLeg ch else ch

theorem faxSubject_eq (s : State) (ch : Nat) :
    s.faxSubject ch = if (s.chan ch).vbd.state = 2 ∨ (s.chan ch).vbd.state = 3 then s.relayLeg ch else ch := by
  simp [State.faxSubject]

theorem faxSubject_of_lt {ch : Nat} (h : (s.chan ch).vbd.state < 2) : s.faxSubject ch = ch := by
  rw [faxSubject_eq, if_neg (by omega)]

/-- The checks of a FAX_MODE, in their order. -/
def State.faxChecks (s : State) (ch : Nat) (gs : List Grp) : List Check :=
  let old := s.chan ch
  let g := grp gs 13
  let f := faxOf g
  let extra := gs.find? (fun g => g.type != 13)
  let n := restored gs 0 (s.chan (s.faxSubject ch))
  let codecs := (grpOf gs 2).isSome || (grpOf gs 3).isSome
  [(f.mode != 0 && extra.isSome, stBAD_PARAM, (extra.getD noGrp).pos + 0x8000 - 8)] ++ groupChecks s n (gs.filter (fun g => g.type != 13)) ++
  [(f.mode = 1 && !(isG711 old && isG711 (s.chan old.peer)), stBAD_PARAM, g.detail 0 0),
   (f.errRec && f.version = 0, stBAD_PARAM, g.detail 0 30),
   (!modeAllowed old f.mode, stBAD_STATE, 0),
   (f.mode = 0 && codecs && !callFits n (s.chan n.peer), stBAD_PARAM, periodDetail gs)]

theorem applyFax_notBound (h : (s.chan (chanOf c)).st ≠ .bound) : applyFax c s = .refuse stBAD_STATE 0 := by
  refine if_pos ?_
  exact bne_iff_ne.mpr h

/-- What a FAX_MODE that passes its checks answers: modes 0 and 2 that change flow entries by those, any other by its load. -/
def State.faxReply (s : State) (ch : Nat) (gs : List Grp) : Reply :=
  let old := s.chan ch
  let g := grp gs 13
  let f := faxOf g
  let subject := s.faxSubject ch
  let t := s.faxEffect ch gs f
  let both := [ch, old.peer]
  if f.mode = 2 && old.vbd.state != 2 then
    let lat := (s.latIndex (s.chan subject).flows.localAddr).getD 0
    let olds := ((s.flowsOfChan ch).filter (fun e => e.kind = 0)).map flowKey
    let news := [udptlFlow ch lat old.flows f.port]
    match s.keyClash olds (news.map (fun e => (e, g.detail 1 0))) with
    | some d => .refuse stBAD_PARAM d
    | none =>
      if overLoad s t then .fail (s.bump supLoadRefused) stNO_RESOURCE 0 else
      match t.installFlows olds news with
      | none => .fail (s.bump flwInsertFail) stNO_RESOURCE 0
      | some u => .publish u.replan both
  else if f.mode = 0 && ((s.chan subject).vbd.state = 2 || (grpOf gs 4).isSome) then
    .ofReflow both (t.reflow s subject (grp gs 4) (t.chan subject))
  else if overLoad s t then .fail (s.bump supLoadRefused) stNO_RESOURCE 0
  else .publish t.replan both

/-- A FAX_MODE of a BOUND channel whose groups are in order, one by one. -/
structure FaxGroups (c : HostCmd) (gs : List Grp) (s : State) : Prop where
  bound : (s.chan (chanOf c)).st = .bound
  parsed : s.groupsOf c [13, 2, 3, 4, 6] [13] = .ok gs

section
variable {gs : List Grp} (hg : FaxGroups c gs s)
include hg

theorem FaxGroups.not_unbound : ¬((s.chan (chanOf c)).st != .bound) = true := by
  simp [hg.bound]

theorem applyFax_refused {e : Nat × Nat} (h : firstFail (s.faxChecks (chanOf c) gs) = some e) : applyFax c s = .refuse e.1 e.2 := by
  refine (if_neg hg.not_unbound).trans ?_
  rw [hg.parsed]
  dsimp only
  split
  · next heq => rw [Option.some.inj (h.symm.trans heq)]
  · next heq => exact absurd (h.symm.trans heq) (by simp)

theorem applyFax_passed (h : firstFail (s.faxChecks (chanOf c) gs) = none) : applyFax c s = s.faxReply (chanOf c) gs := by
  refine (if_neg hg.not_unbound).trans ?_
  rw [hg.parsed]
  dsimp only
  split
  · next heq => exact absurd (h.symm.trans heq) (by simp)
  · delta State.faxReply State.faxSubject chanOf
    dsimp only
    generalize State.reflow _ s _ _ _ = r
    cases r <;> rfl

end

/-! #### What the reply comes to -/

section
variable {ch : Nat} {gs : List Grp}

/-- A mode that changes no flow entries is judged by the load alone. -/
theorem faxReply_flowsKept (h2 : (faxOf (grp gs 13)).mode ≠ 2 ∨ (s.chan ch).vbd.state = 2)
    (h0 : (faxOf (grp gs 13)).mode ≠ 0 ∨ (s.chan (s.faxSubject ch)).vbd.state ≠ 2 ∧ grpOf gs 4 = none) :
    let t := s.faxEffect ch gs (faxOf (grp gs 13))
    s.faxReply ch gs = if overLoad s t = true then .fail (s.bump supLoadRefused) stNO_RESOURCE 0 else .publish t.replan [ch, (s.chan ch).peer] := by
  refine (if_neg ?_).trans (if_neg ?_)
  · simpa [imp_iff_not_or] using h2
  · rcases h0 with h | ⟨hst, hf⟩
    · simp [h]
    · simp [hst, hf]

/-- Mode 0 that ends a relay or brings FLOWS is judged by the flow entries. -/
theorem faxReply_reflow (hm : (faxOf (grp gs 13)).mode = 0) (h : (s.chan (s.faxSubject ch)).vbd.state = 2 ∨ grpOf gs 4 ≠ none) :
    let t := s.faxEffect ch gs (faxOf (grp gs 13))
    s.faxReply ch gs = .ofReflow [ch, (s.chan ch).peer] (t.reflow s (s.faxSubject ch) (grp gs 4) (t.chan (s.faxSubject ch))) := by
  refine (if_neg ?_).trans (if_pos ?_)
  · simp [hm]
  · simpa [hm, Option.isSome_iff_ne_none] using h

/-- Mode 2 from another state puts the UDPTL entry in place of the media entries, where its key is free and the load allows it. -/
theorem faxReply_udptl (hm : (faxOf (grp gs 13)).mode = 2) (hst : (s.chan ch).vbd.state < 2) :
    let f := faxOf (grp gs 13)
    let t := s.faxEffect ch gs f
    let olds := ((s.flowsOfChan ch).filter (fun e => e.kind = 0)).map flowKey
    let news := [udptlFlow ch ((s.latIndex (s.chan ch).flows.localAddr).getD 0) (s.chan ch).flows f.port]
    s.keyClash olds (news.map (fun e => (e, (grp gs 13).detail 1 0))) = none →
      (overLoad s t = true → s.faxReply ch gs = .fail (s.bump supLoadRefused) stNO_RESOURCE 0) ∧
      (∀ u, overLoad s t = false → t.installFlows olds news = some u → s.faxReply ch gs = .publish u.replan [ch, (s.chan ch).peer]) := by
  intro f t olds news hclash
  have hstart : ((faxOf (grp gs 13)).mode = 2 && (s.chan ch).vbd.state != 2) = true := by
    simp [hm, hst.ne]
  refine ⟨fun hl => (if_pos hstart).trans ?_, fun u hl hu => (if_pos hstart).trans ?_⟩
  · rw [faxSubject_of_lt hst, hclash]
    exact if_pos hl
  · rw [faxSubject_of_lt hst, hclash]
    refine (if_neg (Bool.eq_false_iff.mp hl)).trans ?_
    rw [hu]

end

/-! #### The checks -/

/-- The settings of a FAX_MODE suit one another and the call: groups beside its own come with mode 0 and are in order, mode 1 finds G.711 on both
legs, error recovery has a version, and codecs that mode 0 brings have periods that suit the peer's. -/
structure FaxSettings (s : State) (ch : Nat) (gs : List Grp) : Prop where
  alone : (faxOf (grp gs 13)).mode = 0 ∨ gs.find? (fun g => g.type != 13) = none
  sound : firstFail (groupChecks s (restored gs 0 (s.chan (s.faxSubject ch))) (gs.filter (fun g => g.type != 13))) = none
  law : (faxOf (grp gs 13)).mode = 1 → isG711 (s.chan ch) = true ∧ isG711 (s.chan (s.chan ch).peer) = true
  version : (faxOf (grp gs 13)).errRec = true → (faxOf (grp gs 13)).version ≠ 0
  periods : (faxOf (grp gs 13)).mode = 0 → (grpOf gs 2 = none ∧ grpOf gs 3 = none) ∨
    callFits (restored gs 0 (s.chan (s.faxSubject ch))) (s.chan (restored gs 0 (s.chan (s.faxSubject ch))).peer) = true

/-- Settings that suit leave the verdict to the change of VBD_STATE. -/
theorem firstFail_faxChecks {ch : Nat} {gs : List Grp} (h : FaxSettings s ch gs) : firstFail (s.faxChecks ch gs) =
    if modeAllowed (s.chan ch) (faxOf (grp gs 13)).mode = true then none else some (stBAD_STATE, 0) := by
  have halone : ((faxOf (grp gs 13)).mode != 0 && (gs.find? (fun g => g.type != 13)).isSome) = false := by
    rcases h.alone with h | h <;> simp [h]
  have hlaw : ((faxOf (grp gs 13)).mode = 1 && !(isG711 (s.chan ch) && isG711 (s.chan (s.chan ch).peer))) = false := by
    by_cases hm : (faxOf (grp gs 13)).mode = 1
    · simp [h.law hm]
    · simp [hm]
  have hversion : ((faxOf (grp gs 13)).errRec && (faxOf (grp gs 13)).version = 0) = false := by
    simpa using h.version
  have hperiods : ((faxOf (grp gs 13)).mode = 0 && ((grpOf gs 2).isSome || (grpOf gs 3).isSome) &&
      !callFits (restored gs 0 (s.chan (s.faxSubject ch))) (s.chan (restored gs 0 (s.chan (s.faxSubject ch))).peer)) = false := by
    by_cases hm : (faxOf (grp gs 13)).mode = 0
    · rcases h.periods hm with ⟨h2, h3⟩ | hfit
      · simp [h2, h3]
      · simp [hfit]
    · simp [hm]
  unfold State.faxChecks
  dsimp only
  rw [firstFail_append (by rw [firstFail_append (by simp [halone]), h.sound])]
  simp only [firstFail_cons, firstFail_nil, hlaw, hversion, hperiods, Bool.false_eq_true, if_false]
  cases modeAllowed (s.chan ch) (faxOf (grp gs 13)).mode <;> rfl

theorem grp_self {g : Grp} {t : Nat} (h : g.type = t) : grp [g] t = g := by
  simp [grp, grpOf, h]

/-- A FAX_MODE of its own group alone, for a mode other than 0. -/
theorem FaxSettings.lone {ch : Nat} {g : Grp} (ht : g.type = 13) (hm : (faxOf g).mode ≠ 0)
    (hlaw : (faxOf g).mode = 1 → isG711 (s.chan ch) = true ∧ isG711 (s.chan (s.chan ch).peer) = true)
    (hversion : (faxOf g).errRec = true → (faxOf g).version ≠ 0) : FaxSettings s ch [g] := by
  refine ⟨.inr (by simp [ht]), ?_, ?_, ?_, ?_⟩
  · simp [ht, groupChecks]
  all_goals rw [grp_self ht]
  · exact hlaw
  · exact hversion
  · exact fun h => absurd h hm

section
variable {ch : Nat} {gs : List Grp} (h : FaxSettings s ch gs)
include h

theorem FaxSettings.barred (hm : modeAllowed (s.chan ch) (faxOf (grp gs 13)).mode = false) : firstFail (s.faxChecks ch gs) = some (stBAD_STATE, 0) :=
  (firstFail_faxChecks h).trans (if_neg (Bool.eq_false_iff.mp hm))

theorem FaxSettings.pass (hm : modeAllowed (s.chan ch) (faxOf (grp gs 13)).mode = true) : firstFail (s.faxChecks ch gs) = none :=
  (firstFail_faxChecks h).trans (if_pos hm)

end

/-- Settles O52: each row by its condition, each command by what its rule answers in the case. -/
theorem readAndPublishRows : Obligations.ReadAndPublishRows := by
  refine ⟨?_, ?_, fun _ _ => rfl, ?_, ?_, ?_, ?_, ?_⟩
  · intro ch s c
    exact congrArg Host.Outcome.next (housekeepingPublication_eq ch.val s)
  · intro ch s c
    exact ⟨fun h => congrArg Host.Outcome.next (tryPublish_notClosing h), fun h => congrArg Host.Outcome.next (tryPublish_notDue h)⟩
  · intro c s first count hrun
    have hin := fun h0 hn => applySnapshot_within (c := c) (s := s) (first := first) (count := count) rfl rfl h0 hn
    refine ⟨fun h => ?_, fun h0 hn hb => ?_, fun h0 hn hb ha => ?_, fun h0 hn hb ha => ⟨fun hbusy => ?_, fun hfree => ?_⟩⟩
    · exact next_refuse hrun (applySnapshot_outside rfl rfl h)
    · exact next_refuse hrun ((hin h0 hn).trans (if_pos hb))
    · exact next_refuse hrun ((hin h0 hn).trans ((if_neg (Nat.not_lt.mpr hb)).trans (if_pos ha)))
    · exact next_refuse hrun ((hin h0 hn).trans ((if_neg (Nat.not_lt.mpr hb)).trans
        ((if_neg (not_not.mpr ha)).trans (if_pos hbusy))))
    · exact next_later hrun ((hin h0 hn).trans ((if_neg (Nat.not_lt.mpr hb)).trans
        ((if_neg (not_not.mpr ha)).trans (if_neg (by simpa using hfree)))))
  · intro c s first count hrun
    have hin := fun h0 h1 hn => applyStats_within (c := c) (s := s) (first := first) (count := count) rfl rfl h0 h1 hn
    refine ⟨fun h => ?_, fun h0 h1 hn hb => ?_, fun h0 h1 hn hb => ?_⟩
    · exact next_refuse hrun (applyStats_outside rfl rfl h)
    · exact next_refuse hrun ((hin h0 h1 hn).trans (if_pos hb))
    · exact next_later hrun ((hin h0 h1 hn).trans (if_neg (Nat.not_lt.mpr hb)))
  · intro c s hrun h
    exact next_refuse hrun (applyFax_notBound h)
  · intro c g s ch old f t hrun hbound hparsed ht hm hlaw hversion
    have hg : FaxGroups c [g] s := ⟨hbound, hparsed⟩
    have hs : FaxSettings s ch [g] := .lone ht hm hlaw hversion
    have hself : grp [g] 13 = g := grp_self ht
    have hallowed : ∀ {b}, modeAllowed old f.mode = b → modeAllowed old (faxOf (grp [g] 13)).mode = b := fun h => by rw [hself]; exact h
    refine ⟨fun ha => ?_, fun ha h2 => ?_, fun ha hm2 hst hclash => ?_⟩
    · exact next_refuse hrun (applyFax_refused hg (hs.barred (hallowed ha)))
    · have hkept := faxReply_flowsKept (s := s) (ch := ch) (gs := [g]) (by rw [hself]; exact h2) (.inl (by rw [hself]; exact hm))
      rw [hself] at hkept
      exact next_byLoad hrun ((applyFax_passed hg (hs.pass (hallowed ha))).trans hkept)
    · have hflow := faxReply_udptl (s := s) (ch := ch) (gs := [g]) (by rw [hself]; exact hm2) hst
      rw [hself] at hflow
      obtain ⟨hover, hroom⟩ := hflow hclash
      have hpassed := applyFax_passed hg (hs.pass (hallowed ha))
      exact ⟨fun hl => next_fail hrun (hpassed.trans (hover hl)),
        fun u hl hu => next_publish hrun (hpassed.trans (hroom u hl hu))⟩
  · intro c gs s ch old f subject n t hrun hbound hparsed hm hversion hsound hallowed hper
    have hg : FaxGroups c gs s := ⟨hbound, hparsed⟩
    have hsub : s.faxSubject ch = subject := faxSubject_eq s ch
    have hs : FaxSettings s ch gs := ⟨.inl hm, by rw [hsub]; exact hsound, fun h => absurd (hm.symm.trans h) (by decide), hversion,
      fun _ => by rw [hsub]; exact hper⟩
    have hpassed := applyFax_passed hg (hs.pass (show modeAllowed old f.mode = true by rw [hm]; exact hallowed))
    have hm2 : f.mode ≠ 2 := by omega
    refine ⟨fun hst hf => ?_, fun h => ?_⟩
    · have hkept := faxReply_flowsKept (s := s) (ch := ch) (gs := gs) (.inl hm2) (.inr ⟨by rw [hsub]; exact hst, hf⟩)
      exact next_byLoad hrun (hpassed.trans hkept)
    · have hflow := faxReply_reflow (s := s) (ch := ch) (gs := gs) hm (by rw [hsub]; exact h)
      rw [hsub] at hflow
      exact ⟨fun u hr => next_publish hrun (hpassed.trans (hflow.trans (congrArg (Reply.ofReflow _) hr))),
        fun e hr => next_fail hrun (hpassed.trans (hflow.trans (congrArg (Reply.ofReflow _) hr)))⟩

end Sys2Proof.Machine
end

section
/-! ### Ports: registers of one port, and reception -/
namespace Sys2Proof.Machine
open Sys2Proof.Safety

/-! #### Registers of a port -/

/-- Fields of a unit that are apart at its first number are apart at every number. -/
theorem RegDesc.key_ne_of_step (d e : RegDesc) (p : Nat) (hs : d.s1 = e.s1 := by rfl) (h : d.key 0 0 ≠ e.key 0 0 := by decide) :
    d.key p 0 ≠ e.key p 0 := by
  simp only [RegDesc.key, hs] at h ⊢
  omega

theorem rd_bumpBy_self (s : State) (d : RegDesc) (n i j : Nat) : (s.bumpBy d n i j).rd d i j = (s.rd d i j + n) % 2 ^ d.width :=
  State.rd_wr_self s d _ i j

theorem rd_bumpBy_ne (s : State) {d e : RegDesc} (n : Nat) {i j i' j' : Nat} (h : e.key i' j' ≠ d.key i j) :
    (s.bumpBy d n i j).rd e i' j' = s.rd e i' j' := State.rd_wr_ne s _ h

theorem modPort_port_of {s : State} {p : Nat} {x : Port} {f : Port → Port} (h : s.port p = x) : (s.modPort p f).port p = f x := by
  rw [State.modPort_port_self, h]

theorem modPort_port_ne_of {s u : State} (h : u.ports = s.ports) {p k : Nat} (hk : k ≠ p) (f : Port → Port) :
    (u.modPort p f).port k = s.port k := by
  rw [State.modPort_port_ne _ _ hk, State.port, State.port, h]

/-- Nothing but registers and port `p` has changed. -/
def AtPort (p : Nat) (s t : State) : Prop := (∀ k, k ≠ p → t.port k = s.port k) ∧ t = { s with ports := t.ports, regs := t.regs }

namespace AtPort

variable {p : Nat} {s t : State}

theorem refl (p : Nat) (s : State) : AtPort p s s := ⟨fun _ _ => rfl, rfl⟩

theorem trans {u : State} (h : AtPort p s t) (h' : AtPort p t u) : AtPort p s u :=
  ⟨fun k hk => (h'.1 k hk).trans (h.1 k hk), by rw [h'.2, h.2]⟩

theorem of_onlyRegs (h : OnlyRegs s t) : AtPort p s t := by
  rw [h]
  exact ⟨fun _ _ => rfl, rfl⟩

variable (h : AtPort p s t)
include h

theorem wr (d : RegDesc) (v i j : Nat) : AtPort p s (t.wr d v i j) := h.trans (of_onlyRegs ((OnlyRegs.refl t).wr d v i j))

theorem modPort (f : Port → Port) : AtPort p s (t.modPort p f) := h.trans ⟨fun _ hk => State.modPort_port_ne t f hk, rfl⟩

theorem chans : t.chans = s.chans := by rw [h.2]

theorem engines : t.engines = s.engines := by rw [h.2]

theorem time : t.time = s.time := by rw [h.2]

/-- After it, an update of port `p` and of packet buffers leaves the other ports and parts as they were. -/
theorem then_ing {u : State} (ho : ∀ k, k ≠ p → u.port k = t.port k) (hu : u = { t with ports := u.ports, ing := u.ing }) :
    (∀ k, k ≠ p → u.port k = s.port k) ∧ u = { s with ports := u.ports, regs := u.regs, ing := u.ing } :=
  ⟨fun k hk => (ho k hk).trans (h.1 k hk), by rw [hu, h.2]⟩

end AtPort

/-! #### Reception -/

/-- The codewords of a frame are counted (R56). -/
def State.fecCounted (s : State) (p : Nat) (f : RxFrame) : State :=
  (s.bumpBy fecCorrected f.fecCorr p).bumpBy fecUncorrectable f.fecUncorr p

/-- What the port does with a frame on each verdict. -/
def State.rxOutcome (s : State) (p : Nat) (f : RxFrame) : RxVerdict → State
  | .drop c => s.bump c p
  | .unsup => s.bump rxMacctlUnsup p
  | .pause honoured quanta => if honoured then (s.bump rxPause p).pauseFor p quanta else s.bump rxPause p
  | .accept => s.rxAccept p f

section
variable {s : State} {p : Nat} {f : RxFrame}

theorem frameReceive_linkDown (h : s.flag ethLinkUp p = false) : frameReceive p f s = s := by
  simp [frameReceive, h]

theorem frameReceive_noFrame (hup : s.flag ethLinkUp p = true) (h : s.flag ethRxEn p = false ∨ f.data = []) :
    frameReceive p f s = s.fecCounted p f := by
  rcases h with h | h <;> simp [frameReceive, hup, h, State.fecCounted]

/-- A frame that arrives while the port receives comes to what its verdict says. -/
theorem frameReceive_frame (hup : s.flag ethLinkUp p = true) (hrx : s.flag ethRxEn p = true) (hdata : f.data ≠ []) {v : RxVerdict}
    (hv : (s.fecCounted p f).rxVerdict p f = v) : frameReceive p f s = (s.fecCounted p f).rxOutcome p f v := by
  have hempty : f.data.isEmpty = false := by simpa using hdata
  rw [State.fecCounted] at hv
  simp only [frameReceive, hup, hrx, hempty, hv, Bool.not_true, Bool.or_self, Bool.false_eq_true, if_false]
  cases v <;> rfl

theorem rxVerdict_codeErr (h : f.codeErr = true ∨ f.fecUncorr ≠ 0) : s.rxVerdict p f = .drop rxCodeErr := by
  have hbad : (f.codeErr || f.fecUncorr != 0) = true := by simpa using h
  simp only [State.rxVerdict, hbad, if_true]

/-- An accepted frame is counted, and with it the errors that packet memory corrected in it (R493). -/
def State.rxCounted (s : State) (p : Nat) (f : RxFrame) : State :=
  ((s.bump rxFramesOk p).bumpBy rxOctetsOk f.data.length p).bumpBy secPktmemCe f.packetCe

theorem capFrame_none (h : s.cap.caps.find? (fun e => e.1 = 65536 + p) = none) (dir time : Nat) (l : List Byte) :
    s.capFrame p dir time l = s := by
  simp only [State.capFrame, h]

/-- An accepted frame that no filter and no capture takes is counted; it enters the receive buffer unless packet memory spoils it. -/
theorem rxAccept_plain (hold : f.oldFilters = none)
    (hmiss : firstHit ((List.range 32).map (s.filterCfg p)) (f.data.take (f.data.length - 4)) = none)
    (hcap : s.cap.caps.find? (fun e => e.1 = 65536 + p) = none) :
    ∃ m : RxMeta, m.data = stripTag (f.data.take (f.data.length - 4)) ∧ m.size = f.data.length ∧
      s.rxAccept p f = if f.packetUe then (s.rxCounted p f).bump secPktmemUe
        else (s.rxCounted p f).modPort p (fun x => { x with rxQ := x.rxQ ++ [m] }) := by
  have hcap' : ((s.bump rxFramesOk p).bumpBy rxOctetsOk f.data.length p).cap.caps.find? (fun e => e.1 = 65536 + p) = none := hcap
  simp only [State.rxAccept, hold, hmiss, capFrame_none hcap']
  exact ⟨_, rfl, rfl, rfl⟩

end

section
variable (s : State) (p : PortId) (f : RxFrame)

theorem rxCounted_port (k : Nat) : ((s.fecCounted p.val f).rxCounted p.val f).port k = s.port k := rfl

theorem rxCounted_onlyRegs : OnlyRegs s ((s.fecCounted p.val f).rxCounted p.val f) :=
  (((((OnlyRegs.refl s).wr _ _ _ _).wr _ _ _ _).wr _ _ _ _).wr _ _ _ _).wr _ _ _ _

/-- What an accepted frame has counted in its port and in packet memory. -/
theorem rxCounted_rd : let t := (s.fecCounted p.val f).rxCounted p.val f
    t.rd rxFramesOk p.val = (s.rd rxFramesOk p.val + 1) % 2 ^ 64 ∧ t.rd rxOctetsOk p.val = (s.rd rxOctetsOk p.val + f.data.length) % 2 ^ 64 ∧
      t.rd secPktmemCe = (s.rd secPktmemCe + f.packetCe) % 2 ^ 64 ∧ t.rd secPktmemUe = s.rd secPktmemUe := by
  have hframes : ∀ p : PortId, (∀ e ∈ [fecCorrected, fecUncorrectable, rxOctetsOk], rxFramesOk.key p.val 0 ≠ e.key p.val 0) ∧
      rxFramesOk.key p.val 0 ≠ secPktmemCe.key 0 0 := by decide
  have hoctets : ∀ p : PortId, (∀ e ∈ [fecCorrected, fecUncorrectable, rxFramesOk], rxOctetsOk.key p.val 0 ≠ e.key p.val 0) ∧
      rxOctetsOk.key p.val 0 ≠ secPktmemCe.key 0 0 := by decide
  have hmem : ∀ p : PortId, ∀ d ∈ [secPktmemCe, secPktmemUe], ∀ e ∈ [fecCorrected, fecUncorrectable, rxFramesOk, rxOctetsOk],
      d.key 0 0 ≠ e.key p.val 0 := by decide
  have hue : secPktmemUe.key 0 0 ≠ secPktmemCe.key 0 0 := by decide
  replace hframes := hframes p
  replace hoctets := hoctets p
  replace hmem := hmem p
  simp only [List.forall_mem_cons] at hframes hoctets hmem
  simp only [State.fecCounted, State.rxCounted, rd_bumpBy_self, State.rd_bump_self, rd_bumpBy_ne, State.rd_bump_ne, hframes, hoctets, hmem, hue,
    ne_eq, not_false_iff]
  exact ⟨rfl, rfl, rfl, trivial⟩

end

/-- Settles O34: each frame by its verdict; an accepted one that no filter and no capture takes is counted, then buffered or lost. -/
theorem frameReceiveVerdicts : Obligations.FrameReceiveVerdicts := by
  intro p f s s0 body plain
  have hrun : ∀ {t}, frameReceive p.val f s = t → exec (.frameReceive p f) s = .next t := congrArg Host.Outcome.next
  refine ⟨fun h => hrun (frameReceive_linkDown h), fun hup h => hrun (frameReceive_noFrame hup h), fun hup hrx hdata => ?_⟩
  have hverdict : ∀ {v}, s0.rxVerdict p.val f = v → frameReceive p.val f s = (s.fecCounted p.val f).rxOutcome p.val f v :=
    frameReceive_frame hup hrx hdata
  obtain ⟨hframes, hoctets, hce, hues⟩ := rxCounted_rd s p f
  refine ⟨fun h => hrun (hverdict (rxVerdict_codeErr h)), fun c h => hrun (hverdict h), fun h => hrun (hverdict h), fun q h => hrun (hverdict h),
    fun q h => hrun (hverdict h), fun h hplain hue => ?_, fun h hplain hue => ?_⟩
  · obtain ⟨hold, hmiss, hcap⟩ := hplain
    obtain ⟨m, hm, hn, ht⟩ := rxAccept_plain (s := s.fecCounted p.val f) hold hmiss hcap
    rw [hue, if_neg Bool.false_ne_true] at ht
    exact ⟨_, hrun ((hverdict h).trans ht), ⟨m, modPort_port_of (rxCounted_port s p f p.val), hm, hn⟩, (State.modPort_rd ..).trans hframes,
      (State.modPort_rd ..).trans hoctets, (AtPort.of_onlyRegs (rxCounted_onlyRegs s p f)).modPort _⟩
  · obtain ⟨hold, hmiss, hcap⟩ := hplain
    obtain ⟨m, -, -, ht⟩ := rxAccept_plain (s := s.fecCounted p.val f) hold hmiss hcap
    have hne : ∀ p : PortId, rxFramesOk.key p.val 0 ≠ secPktmemUe.key 0 0 ∧ rxOctetsOk.key p.val 0 ≠ secPktmemUe.key 0 0 := by decide
    rw [hue, if_pos rfl] at ht
    exact ⟨_, hrun ((hverdict h).trans ht), (State.rd_bump_self ..).trans (congrArg (fun n => (n + 1) % 2 ^ 64) hues),
      (State.rd_bump_ne _ (by decide)).trans hce, (State.rd_bump_ne _ (hne p).1).trans hframes,
      (State.rd_bump_ne _ (hne p).2).trans hoctets, (rxCounted_onlyRegs s p f).wr _ _ _ _⟩

end Sys2Proof.Machine
end

section
/-! ### Ports: the transmit descriptors' queues and their ends -/
namespace Sys2Proof.Machine
open Sys2Proof.Safety

section
variable (s : State) (c n : Nat)

@[simp] theorem heldOf_modPort (p : Nat) (f : Port → Port) : (s.modPort p f).heldOf c = s.heldOf c := rfl

@[simp] theorem heldOf_takeBuf_self : (s.takeBuf c n).heldOf c = s.heldOf c + n := tget_tset_self _ _ _ _

theorem heldOf_takeBuf_ne {k : Nat} (h : k ≠ c) : (s.takeBuf c n).heldOf k = s.heldOf k := tget_tset_ne _ _ _ _ h

@[simp] theorem heldOf_freeBuf_self : (s.freeBuf c n).heldOf c = s.heldOf c - n := tget_tset_self _ _ _ _

theorem heldOf_freeBuf_ne {k : Nat} (h : k ≠ c) : (s.freeBuf c n).heldOf k = s.heldOf k := tget_tset_ne _ _ _ _ h

/-- Buffers that are taken and given back leave the book as it was. -/
theorem heldOf_freeBuf_takeBuf (k : Nat) : ((s.takeBuf c n).freeBuf c n).heldOf k = s.heldOf k := by
  by_cases h : k = c
  · rw [h, heldOf_freeBuf_self, heldOf_takeBuf_self, Nat.add_sub_cancel]
  · rw [heldOf_freeBuf_ne _ _ _ h, heldOf_takeBuf_ne _ _ _ h]

end

/-! #### The ends of a host's descriptor -/

section
variable {s : State} {p : Nat} {d : TxDesc}

theorem txDone_host (h : d.owner = .host) (fate : TxFate) (lost : Bool) : s.txDone p d fate lost =
    (s.freeBuf 3 d.buffers).modPort p (fun x => { x with done := x.done ++ [{ owner := .host, fate := fate, tsLost := lost }] }) := by
  simp only [State.txDone, h]

theorem txDiscard_linkDown_host (h : d.owner = .host) : s.txDiscard p d .linkDown =
    ((s.bump txLinkDown p).freeBuf 3 d.buffers).modPort p (fun x => { x with done := x.done ++ [{ owner := .host, fate := .linkDown }] }) :=
  txDone_host h .linkDown false

end

/-! #### Posting -/

/-- A descriptor as it is posted, with the buffers that its bytes fill. -/
def filled (d : TxDesc) : TxDesc := { d with buffers := buffersOf d.data.length }

/-- A descriptor's launch time lies further ahead than R383 allows. -/
def State.launchFar (s : State) (d : TxDesc) : Bool :=
  d.launch.any (fun l => decide ((l.2.toNat : Int) - s.tbVal l.1.val > 2000000000))

/-- A port with a descriptor more at the end of one of its queues. -/
def Port.enqueue (x : Port) (d : TxDesc) : Port :=
  { x with queues := tset x.queues d.queue.val (tget x.queues d.queue.val [] ++ [d]) [] }

section
variable {s : State} {p : Nat} {d : TxDesc}

theorem transmitDescriptor_waits (hd : d.owner = .host) (h : (s.port p).waiting ≠ [] ∨ s.admits 3 (filled d).buffers = false) :
    transmitDescriptor p d s = s.modPort p (fun x => { x with waiting := x.waiting ++ [filled d] }) := by
  have hno : ((s.port p).waiting.isEmpty && s.admits 3 (buffersOf d.data.length)) = false := by
    rcases h with h | h
    · simp [h]
    · rw [show s.admits 3 (buffersOf d.data.length) = false from h, Bool.and_false]
  simp [transmitDescriptor, filled, hd, hno]

theorem transmitDescriptor_admitted (hd : d.owner = .host) (hw : (s.port p).waiting = []) (h : s.admits 3 (filled d).buffers = true) :
    transmitDescriptor p d s = (s.takeBuf 3 (filled d).buffers).txPost p (filled d) := by
  have hyes : s.admits 3 (buffersOf d.data.length) = true := h
  simp [transmitDescriptor, filled, hd, hw, hyes]

theorem txPost_near (h : s.launchFar d = false) : s.txPost p d = s.modPort p (fun x => x.enqueue d) := by
  rw [State.launchFar] at h
  simp only [State.txPost, h, Bool.false_eq_true, if_false]
  rfl

theorem txPost_far (h : s.launchFar d = true) : s.txPost p d = s.txDone p d .launchFar false := by
  rw [State.launchFar] at h
  simp only [State.txPost, h, if_true]

end

theorem txq_enqueue_self (s : State) (p : Nat) (d : TxDesc) :
    (s.modPort p (fun x => x.enqueue d)).txq p d.queue.val = s.txq p d.queue.val ++ [d] := by
  rw [State.txq, State.modPort_port_self]
  exact tget_tset_self _ _ _ _

theorem txq_enqueue_ne (s : State) (p : Nat) (d : TxDesc) {q : Nat} (h : q ≠ d.queue.val) :
    (s.modPort p (fun x => x.enqueue d)).txq p q = s.txq p q := by
  rw [State.txq, State.modPort_port_self]
  exact tget_tset_ne _ _ _ _ h

/-- Settles O36: a descriptor waits, or takes its buffers and is posted, which queues it or gives them back with LAUNCH_FAR. -/
theorem transmitDescriptorQueued : Obligations.TransmitDescriptorQueued := by
  intro p d0 s d far hown
  have hrun : ∀ {t}, transmitDescriptor p.val d0 s = t → exec (.transmitDescriptor p d0) s = .next t := congrArg Host.Outcome.next
  refine ⟨fun h => hrun (transmitDescriptor_waits hown h), fun hw ha hnear => ?_, fun hw ha hfar => ?_⟩
  · have hd : (s.takeBuf 3 d.buffers).launchFar d = false := hnear
    have ht := (transmitDescriptor_admitted hown hw ha).trans (txPost_near hd)
    exact ⟨_, hrun ht, txq_enqueue_self _ _ d, fun q hq => txq_enqueue_ne _ _ d hq, by rw [State.modPort_port_self]; rfl,
      fun k hk => modPort_port_ne_of rfl hk _, (heldOf_modPort ..).trans (heldOf_takeBuf_self ..),
      fun c hc => (heldOf_modPort ..).trans (heldOf_takeBuf_ne _ _ _ hc), rfl⟩
  · have hd : (s.takeBuf 3 d.buffers).launchFar d = true := hfar
    have ht := (transmitDescriptor_admitted hown hw ha).trans ((txPost_far hd).trans (txDone_host (d := d) hown _ _))
    exact ⟨_, hrun ht, modPort_port_of rfl, fun k hk => modPort_port_ne_of rfl hk _,
      fun c => (heldOf_modPort ..).trans (heldOf_freeBuf_takeBuf ..), rfl⟩

end Sys2Proof.Machine
end

section
/-! ### Ports: link and modules -/
namespace Sys2Proof.Machine
open Sys2Proof.Safety

/-! #### The inventory -/

/-- The inventory is rebuilt by writes of the supervisor, back invalidations and the clearing of poison: what these leave, it leaves. -/
theorem invRebuild_keeps {β : Type} {g : State → β} (hsup : ∀ u x, g { u with sup := x } = g u) (hback : ∀ u l, g (State.backInv u l) = g u)
    (hpoison : ∀ u q, g (State.unpoison u q) = g u) (s : State) : g s.invRebuild = g s := by
  unfold State.invRebuild
  split
  · rfl
  · extract_lets t n mine
    have hfold : ∀ (l : List Nat) (u : State), g (l.foldl State.backInv u) = g u := by
      intro l
      induction l with
      | nil => exact fun _ => rfl
      | cons x r ih => exact fun u => (ih _).trans (hback u x)
    exact (hpoison _ _).trans ((hfold _ _).trans (hsup _ _))

section
variable (s : State)

@[simp] theorem invRebuild_port (k : Nat) : s.invRebuild.port k = s.port k :=
  invRebuild_keeps (g := fun u => u.port k) (fun _ _ => rfl) (fun _ _ => State.backInv_port ..) (fun _ _ => rfl) s

@[simp] theorem invRebuild_chans : s.invRebuild.chans = s.chans :=
  invRebuild_keeps (g := State.chans) (fun _ _ => rfl) State.backInv_chans (fun _ _ => rfl) s

@[simp] theorem invRebuild_engines : s.invRebuild.engines = s.engines :=
  invRebuild_keeps (g := State.engines) (fun _ _ => rfl) State.backInv_engines (fun _ _ => rfl) s

@[simp] theorem invRebuild_time : s.invRebuild.time = s.time :=
  invRebuild_keeps (g := State.time) (fun _ _ => rfl) State.backInv_time (fun _ _ => rfl) s

/-- The inventory changes no register but the count of back invalidations. -/
theorem invRebuild_rd_ne {d : RegDesc} {i j : Nat} (h : d.key i j ≠ mbxBisnp.key 0 0) : s.invRebuild.rd d i j = s.rd d i j :=
  invRebuild_keeps (g := fun u => u.rd d i j) (fun _ _ => rfl) (fun u l => State.backInv_rd_ne u l h) (fun _ _ => rfl) s

theorem invRebuild_flag_ne {d : RegDesc} {i j : Nat} (h : d.key i j ≠ mbxBisnp.key 0 0) : s.invRebuild.flag d i j = s.flag d i j := by
  rw [State.flag, State.flag, invRebuild_rd_ne s h]

end

/-! #### Bring-up -/

/-- A port as its bring-up starts, in a mode and with a link that may come up or not. -/
def Port.restarted (x : Port) (p mode : Nat) (may : Bool) : Port :=
  { x with lanes := serdesOf mode p, stage := if may then (bringUpStages mode).head? else none }

theorem bringUp_port (s : State) (p : Nat) : (s.bringUp p).port p = (s.port p).restarted p (s.rd ethMode p) (s.mayLink p) :=
  State.modPort_port_self ..

/-- The link of a port is shown as down. -/
def State.linkOff (s : State) (p : Nat) : State := (s.wr ethLinkUp 0 p).wr ethFecLock 0 p

theorem linkOff_port (s : State) (p k : Nat) : (s.linkOff p).port k = s.port k := rfl

/-- A link that is shown as down; no field but LINK_UP and FEC_LOCK changes. -/
theorem linkOff_rd (s : State) (p : Nat) : (s.linkOff p).flag ethLinkUp p = false ∧
    ∀ (d : RegDesc) (i j : Nat), d.key i j ≠ ethLinkUp.key p 0 → d.key i j ≠ ethFecLock.key p 0 → (s.linkOff p).rd d i j = s.rd d i j :=
  ⟨(State.flag_wr_ne _ _ (RegDesc.key_ne_of_step ethLinkUp ethFecLock p)).trans (State.flag_wr_self ..),
    fun _ _ _ hlink hlock => (State.rd_wr_ne _ _ hlock).trans (State.rd_wr_ne _ _ hlink)⟩

theorem portDown_noWire {s : State} {p : Nat} (h : (s.port p).wire = none) : s.portDown p = (s.linkOff p).bringUp p := by
  simp only [State.portDown, h]
  rfl

theorem bringUpStages_head {mode : Nat} {f : LinkStage} (h : f ∈ bringUpStages mode) :
    (bringUpStages mode).head? = some (if mode = 3 then .blockLock else .autoNeg) := by
  unfold bringUpStages at h ⊢
  split
  · rfl
  · next hne =>
    rw [if_neg hne] at h
    split
    · rfl
    · next hother =>
      rw [if_neg hother] at h
      exact absurd h (List.not_mem_nil)

section
variable {s : State} {p : Nat}

theorem linkUp_may (h : s.mayLink p = true) : linkUp p s =
    (((s.wr ethLinkUp 1 p).wr ethFecLock 1 p).wr ethAnFail 0 p).modPort p (fun x => { x with stage := some .up }) := if_pos h

theorem linkUp_mayNot (h : s.mayLink p = false) : linkUp p s = s := if_neg (by rw [h]; decide)

/-- A bring-up stage has failed: FEC lock is lost, and AN_FAIL shows whether no ability matched. -/
def State.stageFailed (s : State) (p : Nat) (f : StageFail) : State :=
  (s.wr ethAnFail (b2n (decide (f.stage = .autoNeg) && !matchingAbility (s.rd ethMode p) f.offered)) p).wr ethFecLock 0 p

theorem linkStageTimeout_fails {f : StageFail} (hmay : s.mayLink p = true) (hup : s.flag ethLinkUp p = false)
    (hf : f.stage ∈ bringUpStages (s.rd ethMode p)) : linkStageTimeout p f s = (s.stageFailed p f).bringUp p := by
  simp only [linkStageTimeout, hmay, hup, List.contains_iff_mem.mpr hf, Bool.not_true, Bool.or_self, Bool.false_eq_true, if_false]
  rfl

theorem linkStageTimeout_idle {f : StageFail} (h : s.mayLink p = false ∨ s.flag ethLinkUp p = true ∨ f.stage ∉ bringUpStages (s.rd ethMode p)) :
    linkStageTimeout p f s = s := by
  refine if_pos ?_
  rcases h with h | h | h <;> simp [h]

end

/-- What a failed stage shows; no other field changes. -/
theorem stageFailed_rd (s : State) (p : Nat) (f : StageFail) : let t := s.stageFailed p f
    t.flag ethFecLock p = false ∧ t.flag ethAnFail p = (decide (f.stage = .autoNeg) && !matchingAbility (s.rd ethMode p) f.offered) ∧
      ∀ (d : RegDesc) (i j : Nat), d.key i j ≠ ethFecLock.key p 0 → d.key i j ≠ ethAnFail.key p 0 → t.rd d i j = s.rd d i j := by
  have hne := RegDesc.key_ne_of_step ethAnFail ethFecLock p
  refine ⟨?_, ?_, fun d i j hfec han => (State.rd_wr_ne _ _ hfec).trans (State.rd_wr_ne _ _ han)⟩
  · exact State.flag_wr_self ..
  · refine (State.flag_wr_ne _ _ hne).trans ((State.flag_wr_self ..).trans ?_)
    cases decide (f.stage = .autoNeg) && !matchingAbility (s.rd ethMode p) f.offered <;> rfl

/-- A failed stage leaves the port's mode, and whether its link may come up. -/
theorem stageFailed_mayLink (s : State) (p : Nat) (f : StageFail) :
    (s.stageFailed p f).rd ethMode p = s.rd ethMode p ∧ (s.stageFailed p f).mayLink p = s.mayLink p := by
  obtain ⟨-, -, hrd⟩ := stageFailed_rd s p f
  have hmode := hrd ethMode p 0 (RegDesc.key_ne_of_step ethMode ethFecLock p) (RegDesc.key_ne_of_step ethMode ethAnFail p)
  have hmod := hrd ethModPresent p 0 (RegDesc.key_ne_of_step ethModPresent ethFecLock p) (RegDesc.key_ne_of_step ethModPresent ethAnFail p)
  refine ⟨hmode, ?_⟩
  simp only [State.mayLink, State.flag, hmode, hmod]
  rfl

/-! #### Modules -/

section
variable {s : State} {p : Nat}

/-- A port whose module is to be read, or is unfit. -/
def Port.held (x : Port) (unread : Bool) : Port := { x with modReady := false, modUnread := unread, modApp := none, lowPower := true }

theorem holdModule_noWire (h : (s.port p).wire = none) (unread : Bool) :
    s.holdModule p unread = ((s.modPort p (·.held unread)).linkOff p).bringUp p :=
  portDown_noWire ((congrArg Port.wire (State.modPort_port_self ..)).trans h)

theorem moduleApp_of_match {m : ModuleInfo} {a : Byte × Nat} (hinfo : (s.port p).modInfo = some m) (hspec : m.spec ≠ .unsupported)
    (hpower : m.powerClass ≤ s.sup.modPower.getD p 0) (happ : m.apps.find? (fun e => e.2 = s.rd ethMode p) = some a) :
    s.moduleApp p = some a.1 := by
  simp only [State.moduleApp, hinfo, hspec, gt_iff_lt, Nat.not_lt.mpr hpower, happ, decide_false, Bool.or_self, Bool.false_eq_true,
    if_false, Option.map_some]

/-- A port whose module Bister has matched. -/
def Port.matched (x : Port) (a : Byte) (next : Nat) : Port :=
  { x with modReady := true, modUnread := false, modApp := some a, lowPower := false, monitorAt := next }

theorem judgeModule_matched {a : Byte} (hs : s.served = true) (h : s.moduleApp p = some a) :
    s.judgeModule p = (s.modPort p (·.matched a (s.now + sec 1))).bringUp p := by
  simp only [State.judgeModule, hs, h, Bool.not_true, Bool.false_eq_true, if_false]
  rfl

end
/-- A module has come or gone, and what was read of an earlier one with it. -/
def State.moduleNoted (s : State) (p present : Nat) (info : Option ModuleInfo) (unread : Bool) : State :=
  ((s.wr ethModPresent present p).modPort p (fun x => { x with modInfo := info, monitors := [], modFlags := 0 })).modPort p (·.held unread)

/-- A module has come or gone, and the port's link with it: the state before Bister judges. -/
def State.moduleChanged (s : State) (p present : Nat) (info : Option ModuleInfo) (unread : Bool) : State :=
  ((s.moduleNoted p present info unread).linkOff p).bringUp p

section
variable {s : State} {p : Nat}

theorem modPrsFall_served {info : Option ModuleInfo} (hs : s.served = true) (hw : (s.port p).wire = none) :
    modPrsFall p info s = ((s.moduleChanged p 1 info true).judgeModule p).invRebuild := by
  refine (if_pos hs).trans ?_
  rw [holdModule_noWire]
  · rfl
  · exact (congrArg Port.wire (State.modPort_port_self ..)).trans hw

theorem moduleRemoval_noWire (hw : (s.port p).wire = none) :
    moduleRemoval p s = if s.served then (s.moduleChanged p 0 none false).invRebuild else s.moduleChanged p 0 none false := by
  rw [moduleRemoval, holdModule_noWire]
  · rfl
  · exact (congrArg Port.wire (State.modPort_port_self ..)).trans hw

end

section
variable (s : State) (p present : Nat) (info : Option ModuleInfo) (unread : Bool)

/-- What the port shows once a module has come or gone; no other field changes. -/
theorem moduleChanged_rd : let t := s.moduleChanged p present info unread
    t.flag ethModPresent p = (present % 2 != 0) ∧ t.flag ethLinkUp p = false ∧
      ∀ (d : RegDesc) (i j : Nat), d.key i j ≠ ethModPresent.key p 0 → d.key i j ≠ ethLinkUp.key p 0 → d.key i j ≠ ethFecLock.key p 0 →
        t.rd d i j = s.rd d i j := by
  obtain ⟨hoff, hkeep⟩ := linkOff_rd (s.moduleNoted p present info unread) p
  refine ⟨?_, hoff, fun d i j hpres hlink hlock => (hkeep d i j hlink hlock).trans (State.rd_wr_ne _ _ hpres)⟩
  exact congrArg (· != 0) ((hkeep _ _ _ (RegDesc.key_ne_of_step ethModPresent ethLinkUp p) (RegDesc.key_ne_of_step ethModPresent ethFecLock p)).trans
    (State.rd_wr_self ..))

theorem moduleChanged_port : ∃ mode may, (s.moduleChanged p present info unread).port p =
    (Port.held { s.port p with modInfo := info, monitors := [], modFlags := 0 } unread).restarted p mode may := by
  rw [State.moduleChanged, bringUp_port, linkOff_port, State.moduleNoted, State.modPort_port_self, State.modPort_port_self, State.wr_port]
  exact ⟨_, _, rfl⟩

theorem moduleChanged_atPort : AtPort p s (s.moduleChanged p present info unread) :=
  (((((((AtPort.refl p s).wr _ _ _ _).modPort _).modPort _).wr _ _ _ _).wr _ _ _ _).modPort _)

end

/-- A module has come and Bister has matched it: its application `a` is selected, and the port brings its link up. -/
def State.moduleMatched (s : State) (p : Nat) (m : ModuleInfo) (a : Byte) : State :=
  let u := s.moduleChanged p 1 (some m) true
  State.bringUp (u.modPort p (·.matched a (u.now + sec 1))) p

theorem moduleMatched_port (s : State) (p : Nat) (m : ModuleInfo) (a : Byte) : let x := (s.moduleMatched p m a).port p
    x.modInfo = some m ∧ x.modReady = true ∧ x.modApp = some a ∧ x.lowPower = false := by
  obtain ⟨mode, may, hport⟩ := moduleChanged_port s p 1 (some m) true
  rw [State.moduleMatched, bringUp_port, State.modPort_port_self, hport]
  exact ⟨rfl, rfl, rfl, rfl⟩

theorem moduleMatched_flag (s : State) (p : Nat) (m : ModuleInfo) (a : Byte) (d : RegDesc) (i : Nat) :
    (s.moduleMatched p m a).flag d i = (s.moduleChanged p 1 (some m) true).flag d i :=
  (State.modPort_flag ..).trans (State.modPort_flag ..)

theorem moduleMatched_atPort (s : State) (p : Nat) (m : ModuleInfo) (a : Byte) : AtPort p s (s.moduleMatched p m a) :=
  ((moduleChanged_atPort s p 1 (some m) true).modPort _).modPort _

/-- A module that has come suits the port: Bister serves, and the module's application is the port's mode's. -/
theorem moduleChanged_judged {s : State} {p : PortId} {m : ModuleInfo} {a : Byte × Nat} (hs : s.served = true) (hspec : m.spec ≠ .unsupported)
    (hpower : m.powerClass ≤ s.sup.modPower.getD p.val 0) (happ : m.apps.find? (fun e => e.2 = s.rd ethMode p.val) = some a) :
    (s.moduleChanged p.val 1 (some m) true).judgeModule p.val = s.moduleMatched p.val m a.1 := by
  obtain ⟨-, -, hrd⟩ := moduleChanged_rd s p.val 1 (some m) true
  have hboot : ∀ p : PortId, ∀ d ∈ [ethModPresent, ethLinkUp, ethFecLock], mbxBootState.key 0 0 ≠ d.key p.val 0 := by decide
  replace hboot := hboot p
  simp only [List.forall_mem_cons] at hboot
  obtain ⟨hpres, hlink, hlock, -⟩ := hboot
  obtain ⟨mode, may, hport⟩ := moduleChanged_port s p.val 1 (some m) true
  have hmode := hrd ethMode p.val 0 (RegDesc.key_ne_of_step ethMode ethModPresent _) (RegDesc.key_ne_of_step ethMode ethLinkUp _)
    (RegDesc.key_ne_of_step ethMode ethFecLock _)
  have hserved : (s.moduleChanged p.val 1 (some m) true).served = true := by
    rw [State.served, hrd _ _ _ hpres hlink hlock]
    exact hs
  have happlies : (s.moduleChanged p.val 1 (some m) true).moduleApp p.val = some a.1 :=
    moduleApp_of_match (congrArg Port.modInfo hport) hspec hpower (by rw [hmode]; exact happ)
  exact judgeModule_matched hserved happlies

section
variable {s : State} {p : Nat}

theorem moduleFlags_present (f : Byte) (hs : s.served = true) (h : s.flag ethModPresent p = true) :
    moduleFlags p f s = if f = 0 then s.modPort p (fun x => { x with modFlags := f })
      else (s.modPort p (fun x => { x with modFlags := f })).raise 0x0011 uETH p 0xFFFF p 0 f.toNat := by
  simp only [moduleFlags, hs, h, Bool.not_true, Bool.or_self, Bool.false_eq_true, if_false, bne_iff_ne, ne_eq, ite_not]

theorem moduleMonitorPoll_early (m : ModuleMonitor) (h : s.now < (s.port p).monitorAt) : moduleMonitorPoll p m s = s :=
  if_pos (by simp [h])

theorem moduleMonitorPoll_due (m : ModuleMonitor) (hs : s.served = true) (h : s.flag ethModPresent p = true) (hdue : (s.port p).monitorAt ≤ s.now) :
    moduleMonitorPoll p m s = moduleFlags p m.flags (s.modPort p (fun x => { x with monitors := m.values, monitorAt := s.now + sec 1 })) :=
  if_neg (by simp [hs, h, hdue])

end

/-! #### ETH_CFG -/

section
variable {s u : State} {p width v : Nat} (hu : s.writeReg (ethBase p) width v = u) (hmode : u.rd ethMode p = s.rd ethMode p)
include hu hmode

theorem ethCfgWrite_plain (hrx : u.rd ethRxPol p = s.rd ethRxPol p) (htx : u.rd ethTxPol p = s.rd ethTxPol p) : ethCfgWrite p width v s = u := by
  simp [ethCfgWrite, hu, hmode, hrx, htx]

theorem ethCfgWrite_polarity (h : u.rd ethRxPol p ≠ s.rd ethRxPol p ∨ u.rd ethTxPol p ≠ s.rd ethTxPol p) :
    ethCfgWrite p width v s = (u.wr ethAnFail 0 p).portDown p := by
  rcases h with h | h <;> simp [ethCfgWrite, hu, hmode, h]

end

/-- Settles O33: each row by what its function does in the case; a module's coming or going is followed by the inventory, which leaves the port. -/
theorem portLinkRows : Obligations.PortLinkRows := by
  have hkeys : ∀ p : PortId, ethModPresent.key p.val 0 ≠ mbxBisnp.key 0 0 ∧ ethLinkUp.key p.val 0 ≠ mbxBisnp.key 0 0 ∧
      ethMode.key p.val 0 ≠ mbxBisnp.key 0 0 := by decide
  refine ⟨fun p s h => congrArg Host.Outcome.next (linkUp_may h), fun p s h => congrArg Host.Outcome.next (linkUp_mayNot h), ?_,
    fun p f s h => congrArg Host.Outcome.next (linkStageTimeout_idle h),
    fun p s h => congrArg Host.Outcome.next (portDown_noWire h), ?_, ?_, ?_, ?_, ?_⟩
  · intro p f s m hmay hup hf
    obtain ⟨hfec, han, hrd⟩ := stageFailed_rd s p.val f
    obtain ⟨hmode, hmay'⟩ := stageFailed_mayLink s p.val f
    refine ⟨_, congrArg Host.Outcome.next (linkStageTimeout_fails hmay hup hf), hfec, han, ?_, fun k hk => modPort_port_ne_of rfl hk _, hrd, rfl⟩
    rw [bringUp_port, hmode, hmay', hmay, Port.restarted, if_pos rfl, bringUpStages_head hf]
    rfl
  · intro p m a s hs hw hspec hpower happ
    have ht := (modPrsFall_served (info := some m) hs hw).trans (congrArg State.invRebuild (moduleChanged_judged hs hspec hpower happ))
    obtain ⟨hpres, hlink, -⟩ := moduleChanged_rd s p.val 1 (some m) true
    obtain ⟨hinfo, hready, happl, hpow⟩ := moduleMatched_port s p.val m a.1
    rw [← invRebuild_port] at hinfo hready happl hpow
    rw [← moduleMatched_flag _ _ _ a.1, ← invRebuild_flag_ne _ (hkeys p).1] at hpres
    rw [← moduleMatched_flag _ _ _ a.1, ← invRebuild_flag_ne _ (hkeys p).2.1] at hlink
    have hat := moduleMatched_atPort s p.val m a.1
    exact ⟨_, congrArg Host.Outcome.next ht, hpres, hlink, hinfo, hready, happl, hpow, fun k hk => (invRebuild_port ..).trans (hat.1 k hk),
      (invRebuild_chans _).trans hat.chans, (invRebuild_engines _).trans hat.engines, (invRebuild_time _).trans hat.time⟩
  · intro p s hw
    obtain ⟨hpres, hlink, hrd⟩ := moduleChanged_rd s p.val 0 none false
    obtain ⟨mode, may, hport⟩ := moduleChanged_port s p.val 0 none false
    have hmode := hrd ethMode p.val 0 (RegDesc.key_ne_of_step ethMode ethModPresent _) (RegDesc.key_ne_of_step ethMode ethLinkUp _)
      (RegDesc.key_ne_of_step ethMode ethFecLock _)
    have hat := moduleChanged_atPort s p.val 0 none false
    have ht := moduleRemoval_noWire hw
    cases hs : s.served with
    | false =>
      rw [hs, if_neg Bool.false_ne_true] at ht
      exact ⟨_, congrArg Host.Outcome.next ht, hpres, hlink, congrArg Port.modInfo hport, congrArg Port.modApp hport, congrArg Port.lowPower hport,
        hat.1, hmode, hat.chans, hat.engines, hat.time⟩
    | true =>
      rw [hs, if_pos rfl] at ht
      rw [← invRebuild_flag_ne _ (hkeys p).1] at hpres
      rw [← invRebuild_flag_ne _ (hkeys p).2.1] at hlink
      rw [← invRebuild_rd_ne _ (hkeys p).2.2] at hmode
      rw [← invRebuild_port] at hport
      exact ⟨_, congrArg Host.Outcome.next ht, hpres, hlink, congrArg Port.modInfo hport, congrArg Port.modApp hport, congrArg Port.lowPower hport,
        fun k hk => (invRebuild_port ..).trans (hat.1 k hk), hmode, (invRebuild_chans _).trans hat.chans, (invRebuild_engines _).trans hat.engines,
        (invRebuild_time _).trans hat.time⟩
  · exact fun p f s hs h => congrArg Host.Outcome.next (moduleFlags_present f hs h)
  · exact fun p m s hs h => ⟨fun he => congrArg Host.Outcome.next (moduleMonitorPoll_early m he),
      fun hd => ⟨_, congrArg Host.Outcome.next (moduleMonitorPoll_due m hs h hd), rfl⟩⟩
  · intro p w v s u hmode
    exact ⟨fun hrx htx => congrArg Host.Outcome.next (ethCfgWrite_plain rfl hmode hrx htx),
      fun h => congrArg Host.Outcome.next (ethCfgWrite_polarity rfl hmode h)⟩

end Sys2Proof.Machine
end

section
/-! ### Ports: gates and the end of a pause -/
namespace Sys2Proof.Machine
open Sys2Proof.Safety

/-! #### Queues without a head -/

section
variable {s : State} {p : Nat}

theorem headOf_noParts (h : (s.port p).parts = []) (q : Nat) :
    s.headOf p q = (s.txq p q).head?.map (fun d => { desc := d, len := txFrameLen d }) := by
  simp only [State.headOf, h, List.find?_nil]

theorem dropNeverQ_noHead {q : Nat} (h : s.headOf p q = none) (n : Nat) : State.dropNeverQ p q n s = s := by
  cases n with
  | zero => rfl
  | succ n => simp only [State.dropNeverQ, h]

theorem dropNever_noHeads (h : ∀ q < 8, s.headOf p q = none) : s.dropNever p = s := by
  have hfold : ∀ l : List Nat, (∀ q ∈ l, s.headOf p q = none) →
      l.foldl (fun s q => State.dropNeverQ p q ((s.txq p q).length + 1) s) s = s := by
    intro l hl
    induction l with
    | nil => rfl
    | cons q r ih =>
      rw [List.foldl_cons, dropNeverQ_noHead (hl q List.mem_cons_self)]
      exact ih fun k hk => hl k (List.mem_cons_of_mem q hk)
  exact hfold _ fun q hq => h q (List.mem_range.mp hq)

end

/-! #### ETH_GATE_CTL -/

theorem goodAccess_gateCtl (p : PortId) : goodAccess (ethBase p.val + 0x28) 64 = true := by
  revert p
  decide

/-- A write of ETH_GATE_CTL is refused for an interval below 8 ns in a bank that it would make active or follow (R77, R79). -/
def State.gateRefused (s : State) (p v : Nat) : Bool :=
  (bit v 3 && !s.bankOk p (1 - s.rd ethGateActiveBank p)) || (bit v 2 && !s.bankOk p (s.rd ethGateActiveBank p))

section
variable {s : State} {p : PortId} {v : Nat}

theorem ethGateCtlWrite_refused (h : s.gateRefused p.val v = true) : ethGateCtlWrite p.val 64 v s = s.wr ethCfgErr 1 p.val := by
  rw [State.gateRefused] at h
  simp only [ethGateCtlWrite, goodAccess_gateCtl, h, Bool.not_true, Bool.false_eq_true, if_false, if_true]

/-- A write that is not refused takes effect; a new request of a swap fixes its time. -/
theorem ethGateCtlWrite_taken (h : s.gateRefused p.val v = false) : ethGateCtlWrite p.val 64 v s =
    (let u := s.writeReg (ethBase p.val + 0x28) 64 v
     let t := if bit v 3 && !s.flag ethGateSwap p.val then u.modPort p.val (fun x => { x with swapAt := u.swapDue p.val }) else u
     (t.regate p.val).dropNever p.val) := by
  rw [State.gateRefused] at h
  simp only [ethGateCtlWrite, goodAccess_gateCtl, h, Bool.not_true, Bool.false_eq_true, if_false]

end

/-! #### The swap -/

/-- The registers once a requested bank is active. -/
def State.swapped (s : State) (p : Nat) : State := (s.wr ethGateSwap 0 p).wr ethGateActiveBank (1 - s.rd ethGateActiveBank p) p

section
variable (s : State) (p : Nat)

theorem swapped_rd : let t := s.swapped p
    t.flag ethGateSwap p = false ∧ t.rd ethGateActiveBank p = (1 - s.rd ethGateActiveBank p) % 2 ∧
      ∀ (d : RegDesc) (i j : Nat), d.key i j ≠ ethGateSwap.key p 0 → d.key i j ≠ ethGateActiveBank.key p 0 → t.rd d i j = s.rd d i j := by
  refine ⟨?_, State.rd_wr_self .., fun d i j hswap hbank => (State.rd_wr_ne _ _ hbank).trans (State.rd_wr_ne _ _ hswap)⟩
  exact (State.flag_wr_ne _ _ (RegDesc.key_ne_of_step ethGateSwap ethGateActiveBank p)).trans (State.flag_wr_self ..)

theorem swapped_atPort : AtPort p s (s.swapped p) := ((AtPort.refl p s).wr _ _ _ _).wr _ _ _ _

variable {s p}

theorem gateSwap_due (hreq : s.flag ethGateSwap p = true) (h : (s.port p).swapAt ≤ s.tbVal (s.rd ethGateTb p)) :
    gateSwap p s = ((s.swapped p).regate p).dropNever p := if_pos (by simp [hreq, h])

theorem gateSwap_notDue (h : s.flag ethGateSwap p = false ∨ s.tbVal (s.rd ethGateTb p) < (s.port p).swapAt) : gateSwap p s = s := by
  refine if_neg ?_
  rcases h with h | h <;> simp [h]

/-- The gates depend on the registers and the time bases alone. -/
theorem gatesNow_regate (u : State) (k : Nat) : (u.regate p).gatesNow k = u.gatesNow k := rfl

end

/-- Settles O35: each row by what its function does in the case; with no head on any queue a swap discards nothing. -/
theorem gateAndPauseRows : Obligations.GateAndPauseRows := by
  refine ⟨fun _ _ => rfl, fun p v s h => ?_, fun p v s h3 h2 => ?_, fun p v s h3 hswap hnext hactive => ?_, fun p s hreq hdue hq hparts => ?_,
    fun p s h => congrArg Host.Outcome.next (gateSwap_notDue h), fun _ _ => rfl⟩
  · refine congrArg Host.Outcome.next (ethGateCtlWrite_refused ?_)
    rcases h with ⟨hb, hbank⟩ | ⟨hb, hbank⟩ <;> simp [State.gateRefused, hb, hbank]
  · have htaken := ethGateCtlWrite_taken (s := s) (p := p) (v := v.toNat) (by simp [State.gateRefused, h3, h2])
    simp only [h3, Bool.false_and, Bool.false_eq_true, if_false] at htaken
    exact congrArg Host.Outcome.next htaken
  · have htaken := ethGateCtlWrite_taken (s := s) (p := p) (v := v.toNat) (by
      cases hb : bit v.toNat 2 with
      | false => simp [State.gateRefused, hb, hnext]
      | true => simp [State.gateRefused, hactive hb, hnext])
    simp only [h3, hswap, Bool.not_false, Bool.and_self, if_true] at htaken
    exact congrArg Host.Outcome.next htaken
  · obtain ⟨hoff, hbank, hrd⟩ := swapped_rd s p.val
    have hat := (swapped_atPort s p.val).modPort (fun x => { x with gates := (s.swapped p.val).gatesNow p.val })
    have hport : ((s.swapped p.val).regate p.val).port p.val = { s.port p.val with gates := ((s.swapped p.val).regate p.val).gatesNow p.val } := by
      rw [gatesNow_regate]
      exact modPort_port_of rfl
    have hheads : ∀ q < 8, ((s.swapped p.val).regate p.val).headOf p.val q = none := by
      intro q hlt
      have hempty : ((s.swapped p.val).regate p.val).txq p.val q = [] := by
        rw [State.txq, hport]
        exact hq q hlt
      rw [headOf_noParts (by rw [hport]; exact hparts), hempty]
      rfl
    have ht := (gateSwap_due hreq hdue).trans (dropNever_noHeads hheads)
    exact ⟨_, congrArg Host.Outcome.next ht, hoff, hbank, hport, hat.1, hrd, hat.2⟩

end Sys2Proof.Machine
end

section
/-! ### Ports: a frame's start, its end, an underrun, and a link that goes down -/
namespace Sys2Proof.Machine
open Sys2Proof.Safety

/-! #### Heads -/

theorem txq_modPort_of_queues {s : State} {p : Nat} {f : Port → Port} {q : Nat} (h : ∀ x, (f x).queues = x.queues) :
    (s.modPort p f).txq p q = s.txq p q := by
  rw [State.txq, State.modPort_port_self, h, State.txq]

theorem txq_popQ_self (s : State) (p q : Nat) : (s.popQ p q).txq p q = (s.txq p q).tail := by
  rw [State.txq, State.popQ, State.modPort_port_self]
  exact tget_tset_self _ _ _ _

theorem txq_popQ_ne (s : State) (p : Nat) {q k : Nat} (h : k ≠ q) : (s.popQ p q).txq p k = s.txq p k := by
  rw [State.txq, State.popQ, State.modPort_port_self]
  exact tget_tset_ne _ _ _ _ h

theorem popQ_atPort (s : State) (p q : Nat) : AtPort p s (s.popQ p q) := (AtPort.refl p s).modPort _

/-! #### Which frame starts -/

section
variable {s : State} {p : Nat}

/-- A start that finds a frame on the wire, or a pause, changes nothing. -/
theorem frameTransmitStart_held (hw : (s.port p).waiting = []) (hup : s.flag ethLinkUp p = true) (htx : s.flag ethTxEn p = true)
    (h : s.now < (s.port p).pauseEnd ∨ (s.port p).wire ≠ none) : frameTransmitStart p s = s := by
  simp only [frameTransmitStart, hw, List.length_nil, State.admitWaiting, hup, htx, Bool.not_true, Bool.or_self, Bool.false_eq_true, if_false]
  rcases h with h | h
  · rw [if_pos h, ite_self]
  · rw [if_pos (by simp [Option.isSome_iff_ne_none.mpr h])]

section
variable (hw : (s.port p).waiting = []) (hwire : (s.port p).wire = none) (hf : s.ring.fenced = false)
include hw hwire hf

theorem frameTransmitStart_down (hdown : s.flag ethLinkUp p = false ∨ s.flag ethTxEn p = false) {o : Option (Nat × TxHead)}
    (ho : s.pickQ p (fun h => s.launched h.desc) = o) :
    frameTransmitStart p s = o.elim s (fun e => (s.popHead p e.1 e.2).txDiscard p e.2.desc .linkDown) := by
  have hoff : (!s.flag ethLinkUp p || !s.flag ethTxEn p) = true := by rcases hdown with h | h <;> simp [h]
  simp only [frameTransmitStart, hw, List.length_nil, State.admitWaiting, hwire, hf, hoff, ho, Option.isSome_none, Bool.or_self, Bool.false_eq_true,
    if_false, if_true]
  cases o <;> rfl

theorem frameTransmitStart_up (hup : s.flag ethLinkUp p = true) (htx : s.flag ethTxEn p = true) (hpause : (s.port p).pauseEnd ≤ s.now)
    (hfit : s.dropNever p = s) {q : Nat} {h : TxHead} (hshort : (h.part.isNone && s.tooLong p h.desc) = false)
    (hpick : s.pickQ p (fun h => (h.part.isNone && s.tooLong p h.desc) || s.eligible p h) = some (q, h)) :
    frameTransmitStart p s = s.txStart p q h := by
  simp only [frameTransmitStart, hw, List.length_nil, State.admitWaiting, hwire, hf, hup, htx, Nat.not_lt.mpr hpause, hfit, hpick, hshort,
    Option.isSome_none, Bool.or_self, Bool.not_true, Bool.false_eq_true, if_false]

end

end

/-! #### A frame goes on the wire -/

section
variable (s : State) (p q : Nat) (d : TxDesc)

theorem stampEntry_txq (k : Nat) : (s.stampEntry p d).1.txq p k = s.txq p k := by
  unfold State.stampEntry
  split
  · rfl
  · split
    · rfl
    · dsimp only
      exact txq_modPort_of_queues fun _ => rfl

theorem stampEntry_atPort : AtPort p s (s.stampEntry p d).1 := by
  unfold State.stampEntry
  split
  · exact .refl p s
  · split
    · exact (AtPort.refl p s).wr _ _ _ _
    · exact (AtPort.refl p s).modPort _

/-- A descriptor has left its queue for the wire: a late one is counted, and its timestamp request has its entry (R381). -/
def State.headTaken : State :=
  ((if d.launch.any (fun l => decide (l.2.toNat + 1000 < s.tbVal l.1.val)) then (s.popQ p q).bump txLate p else s.popQ p q).stampEntry p d).1

theorem headTaken_txq (k : Nat) : (s.headTaken p q d).txq p k = (s.popQ p q).txq p k := by
  rw [State.headTaken, stampEntry_txq]
  split <;> rfl

theorem headTaken_atPort : AtPort p s (s.headTaken p q d) := by
  refine AtPort.trans ?_ (stampEntry_atPort _ p d)
  split
  · exact (popQ_atPort s p q).wr _ _ _ _
  · exact popQ_atPort s p q

/-- The first frame of a descriptor goes on the wire, its further segments behind it. -/
theorem txStart_first (len : Nat) : ∃ w : Wire, w.desc = d ∧ w.startedAt = s.now ∧ w.segsLeft = (txImages d).tail ∧
    s.txStart p q { desc := d, len := len } = (s.headTaken p q d).modPort p (fun x => { x with wire := some w }) :=
  ⟨_, rfl, rfl, rfl, rfl⟩

end

/-! #### A frame leaves the wire -/

/-- A port whose wire is free again, once descriptor `w.desc` has ended or its next segment stands at the head of its queue. -/
def Port.wireFreed (x : Port) (w : Wire) (fate : TxFate) : Port :=
  if w.segsLeft.isEmpty then { x with wire := none, done := x.done ++ [{ owner := .host, fate := fate, tsLost := w.tsLost }] }
  else { x with wire := none, parts := tins x.parts w.desc.queue.val { w with bytes := [], fate := fate } }

section
variable (x : Port) {w : Wire} (fate : TxFate)

theorem wireFreed_wire : (x.wireFreed w fate).wire = none := by
  unfold Port.wireFreed
  split <;> rfl

theorem wireFreed_lastSent : (x.wireFreed w fate).lastSent = x.lastSent := by
  unfold Port.wireFreed
  split <;> rfl

theorem wireFreed_queues : (x.wireFreed w fate).queues = x.queues := by
  unfold Port.wireFreed
  split <;> rfl

theorem wireFreed_last (h : w.segsLeft = []) :
    x.wireFreed w fate = { x with wire := none, done := x.done ++ [{ owner := .host, fate := fate, tsLost := w.tsLost }] } := by
  rw [Port.wireFreed, h]
  rfl

theorem wireFreed_more {y : List Byte} {r : List (List Byte)} (h : w.segsLeft = y :: r) :
    x.wireFreed w fate = { x with wire := none, parts := tins x.parts w.desc.queue.val { w with bytes := [], fate := fate } } := by
  simp only [Port.wireFreed, h, List.isEmpty_cons, Bool.false_eq_true, if_false]

end

section
variable {s : State} {p : Nat} {w : Wire} (hown : w.desc.owner = .host) (fate : TxFate)
include hown

theorem txNext_port : (s.txNext p w fate).port p = (s.port p).wireFreed w fate := by
  unfold State.txNext Port.wireFreed
  split
  · rw [txDone_host hown]
    rw [State.modPort_port_self, State.freeBuf_port, State.modPort_port_self]
  · exact modPort_port_of (modPort_port_of rfl)

/-- The end of a frame's descriptor gives its buffers back; registers and the other ports stay. -/
theorem txNext_frame : (∀ k, k ≠ p → (s.txNext p w fate).port k = s.port k) ∧
    s.txNext p w fate = { s with ports := (s.txNext p w fate).ports, ing := (s.txNext p w fate).ing } := by
  unfold State.txNext
  split
  · rw [txDone_host hown]
    refine ⟨fun k hk => ?_, rfl⟩
    rw [State.modPort_port_ne _ _ hk, State.freeBuf_port, State.modPort_port_ne _ _ hk]
  · exact ⟨fun k hk => (modPort_port_ne_of rfl hk _).trans (modPort_port_ne_of rfl hk _), rfl⟩

theorem txNext_txq (q : Nat) : (s.txNext p w fate).txq p q = s.txq p q := by
  rw [State.txq, txNext_port hown, wireFreed_queues, State.txq]

theorem txNext_rd (d : RegDesc) (i j : Nat) : (s.txNext p w fate).rd d i j = s.rd d i j := by
  rw [(txNext_frame hown fate).2]
  rfl

end

theorem countTx_host {s : State} {d : TxDesc} (h : d.owner = .host) : s.countTx d = s := by
  simp only [State.countTx, h]

/-- A frame that leaves the wire is counted, and its bytes stand as the last that were sent (R64). -/
def State.frameSent (s : State) (p : Nat) (w : Wire) : State :=
  ((s.bump txFramesOk p).bumpBy txOctetsOk w.bytes.length p).modPort p (fun x => { x with lastSent := w.bytes })

theorem frameTransmitEnd_host {s : State} {p : Nat} {w : Wire} (hwire : (s.port p).wire = some w) (hown : w.desc.owner = .host)
    (hcap : s.cap.caps.find? (fun e => e.1 = 65536 + p) = none) : frameTransmitEnd p s = (s.frameSent p w).txNext p w w.fate := by
  have hcap' : (s.frameSent p w).cap.caps.find? (fun e => e.1 = 65536 + p) = none := hcap
  rw [State.frameSent] at hcap' ⊢
  simp only [frameTransmitEnd, hwire, capFrame_none hcap', countTx_host hown]

/-- A frame that underruns is counted, raises THRESHOLD, and stands as the bytes that have gone out with the inverse of their FCS (R80). -/
def State.underrun (s : State) (p : Nat) (w : Wire) : State :=
  ((s.bump txUnderrunCnt p).wr ethTxThreshold (min (s.rd ethTxThreshold p + 256) (s.rd ethMaxFrame p)) p).modPort p (fun x => { x with
    lastSent := w.bytes.take (s.sentBytes w) ++ (leBytes 4 (crc32 (w.bytes.take (s.sentBytes w)))).map (fun b => ~~~b)
    txStamps := x.txStamps.filter (fun t => !(w.desc.twoStep.any (fun q => q.1.val = t.tb && q.2.toNat = t.tag))) })

section
variable {s : State} {p : Nat} {w : Wire} (hwire : (s.port p).wire = some w)
include hwire

theorem txUnderrun_cuts (hcompat : s.flag ethGu12Compat p = false) (h : s.rd ethTxThreshold p < w.bytes.length) :
    txUnderrun p none s = (s.underrun p w).txNext p w .underrun := by
  simp only [txUnderrun, hwire, hcompat, Nat.not_le.mpr h, decide_false, Bool.or_self, Bool.false_eq_true, if_false]
  rfl

theorem txUnderrun_idle (h : s.flag ethGu12Compat p = true ∨ w.bytes.length ≤ s.rd ethTxThreshold p) : txUnderrun p none s = s := by
  simp only [txUnderrun, hwire]
  exact if_pos (by simpa using h)

end

theorem frameSent_port (s : State) (p : Nat) (w : Wire) : (s.frameSent p w).port p = { s.port p with lastSent := w.bytes } := modPort_port_of rfl

theorem frameSent_atPort (s : State) (p : Nat) (w : Wire) : AtPort p s (s.frameSent p w) :=
  (((AtPort.refl p s).wr _ _ _ _).wr _ _ _ _).modPort _

theorem underrun_port (s : State) (p : Nat) (w : Wire) : (s.underrun p w).port p = { s.port p with
    lastSent := w.bytes.take (s.sentBytes w) ++ (leBytes 4 (crc32 (w.bytes.take (s.sentBytes w)))).map (fun b => ~~~b)
    txStamps := (s.port p).txStamps.filter (fun t => !(w.desc.twoStep.any (fun q => q.1.val = t.tb && q.2.toNat = t.tag))) } :=
  modPort_port_of rfl

theorem underrun_atPort (s : State) (p : Nat) (w : Wire) : AtPort p s (s.underrun p w) :=
  (((AtPort.refl p s).wr _ _ _ _).wr _ _ _ _).modPort _

/-- What a sent frame has counted. -/
theorem frameSent_rd (s : State) (p : Nat) (w : Wire) : let t := s.frameSent p w
    t.rd txFramesOk p = (s.rd txFramesOk p + 1) % 2 ^ 64 ∧ t.rd txOctetsOk p = (s.rd txOctetsOk p + w.bytes.length) % 2 ^ 64 := by
  refine ⟨?_, ?_⟩
  · exact (rd_bumpBy_ne _ _ (RegDesc.key_ne_of_step txFramesOk txOctetsOk p)).trans (State.rd_bump_self ..)
  · refine (rd_bumpBy_self ..).trans ?_
    rw [State.rd_bump_ne _ (RegDesc.key_ne_of_step txOctetsOk txFramesOk p)]
    rfl

/-- What an underrun has counted, and the THRESHOLD it leaves. -/
theorem underrun_rd (s : State) (p : Nat) (w : Wire) (hmax : s.rd ethMaxFrame p < 2 ^ 14) : let t := s.underrun p w
    t.rd ethTxThreshold p = min (s.rd ethTxThreshold p + 256) (s.rd ethMaxFrame p) ∧ t.rd txUnderrunCnt p = (s.rd txUnderrunCnt p + 1) % 2 ^ 64 ∧
      t.rd txFramesOk p = s.rd txFramesOk p := by
  refine ⟨?_, ?_, ?_⟩
  · exact (State.rd_wr_self ..).trans (Nat.mod_eq_of_lt (lt_of_le_of_lt (Nat.min_le_right _ _) hmax))
  · exact (State.rd_wr_ne _ _ (RegDesc.key_ne_of_step txUnderrunCnt ethTxThreshold p)).trans (State.rd_bump_self ..)
  · exact (State.rd_wr_ne _ _ (RegDesc.key_ne_of_step txFramesOk ethTxThreshold p)).trans
      (State.rd_bump_ne _ (RegDesc.key_ne_of_step txFramesOk txUnderrunCnt p))

/-- Settles O38: a start by which head it takes, an end and an underrun by how the frame leaves the wire. -/
theorem frameTransmitRows : Obligations.FrameTransmitRows := by
  refine ⟨?_, ?_, ?_, ?_, ?_⟩
  · intro p q d s hup htx hwire hf hw hpause hfit hshort hpick
    obtain ⟨w, hdesc, hstart, hsegs, ht⟩ := txStart_first s p.val q d (txFrameLen d)
    have hrun := (frameTransmitStart_up hw hwire hf hup htx hpause hfit (by simpa using hshort) hpick).trans ht
    have hat := (headTaken_atPort s p.val q d).modPort (fun x => { x with wire := some w })
    have hq : ∀ k, ((s.headTaken p.val q d).modPort p.val (fun x => { x with wire := some w })).txq p.val k = (s.popQ p.val q).txq p.val k := fun k =>
      (txq_modPort_of_queues (f := fun x => { x with wire := some w }) fun _ => rfl).trans (headTaken_txq s p.val q d k)
    exact ⟨_, congrArg Host.Outcome.next hrun, ⟨w, congrArg Port.wire (State.modPort_port_self ..), hdesc, hstart, hsegs⟩,
      (hq q).trans (txq_popQ_self ..), fun k hk => (hq k).trans (txq_popQ_ne _ _ hk), hat⟩
  · exact fun p s hup htx hw h => congrArg Host.Outcome.next (frameTransmitStart_held hw hup htx h)
  · intro p w s hwire hown hcap
    obtain ⟨hframes, hoctets⟩ := frameSent_rd s p.val w
    have hrd := txNext_rd (s := s.frameSent p.val w) (p := p.val) hown w.fate
    obtain ⟨hothers, hframe⟩ := txNext_frame (s := s.frameSent p.val w) (p := p.val) hown w.fate
    obtain ⟨hports, ht⟩ := (frameSent_atPort s p.val w).then_ing hothers hframe
    have hport := (txNext_port (s := s.frameSent p.val w) (p := p.val) hown w.fate).trans
      (congrArg (Port.wireFreed · w w.fate) (frameSent_port s p.val w))
    refine ⟨_, congrArg Host.Outcome.next (frameTransmitEnd_host hwire hown hcap), ?_, ?_, (hrd ..).trans hframes, (hrd ..).trans hoctets,
      fun hsegs => ?_, fun y r hsegs => ?_, fun q => ?_, hports, ht⟩
    · rw [hport, wireFreed_wire]
    · rw [hport, wireFreed_lastSent]
    · rw [hport, wireFreed_last _ _ hsegs]
      exact ⟨rfl, rfl⟩
    · rw [hport, wireFreed_more _ _ hsegs]
      exact ⟨rfl, rfl⟩
    · rw [State.txq, hport, wireFreed_queues, State.txq]
  · intro p w s hwire hsegs hown hcompat hlt hmax out
    obtain ⟨hthreshold, hcnt, hframes⟩ := underrun_rd s p.val w hmax
    have hrd := txNext_rd (s := s.underrun p.val w) (p := p.val) hown .underrun
    obtain ⟨hothers, hframe⟩ := txNext_frame (s := s.underrun p.val w) (p := p.val) hown .underrun
    obtain ⟨hports, ht⟩ := (underrun_atPort s p.val w).then_ing hothers hframe
    have hport := (txNext_port (s := s.underrun p.val w) (p := p.val) hown .underrun).trans (wireFreed_last _ _ hsegs)
    rw [underrun_port] at hport
    exact ⟨_, congrArg Host.Outcome.next (txUnderrun_cuts hwire hcompat hlt), congrArg Port.wire hport, (hrd ..).trans hthreshold,
      congrArg Port.lastSent hport, (hrd ..).trans hcnt, (hrd ..).trans hframes, congrArg Port.done hport, hports, ht⟩
  · exact fun p w s hwire h => congrArg Host.Outcome.next (txUnderrun_idle hwire h)

/-! #### A link that is down -/

/-- A link goes down under the frame on the wire: the frame is cut off, and its timestamp entry goes with it. -/
def State.cutOff (s : State) (p : Nat) (w : Wire) : State :=
  ((s.linkOff p).bringUp p).modPort p (fun x => { x with wire := none, txStamps := x.txStamps.filter (fun t =>
    !(w.desc.twoStep.any (fun q => q.1.val = t.tb && q.2.toNat = t.tag && t.host = decide (w.desc.owner = TxOwner.host)))) })

theorem portDown_wire {s : State} {p : Nat} {w : Wire} (h : (s.port p).wire = some w) :
    s.portDown p = (s.cutOff p w).txDiscard p w.desc .linkDown := by
  simp only [State.portDown, h]
  rfl

theorem cutOff_atPort (s : State) (p : Nat) (w : Wire) : AtPort p s (s.cutOff p w) :=
  ((((AtPort.refl p s).wr _ _ _ _).wr _ _ _ _).modPort _).modPort _

/-- What a cut leaves of the port: its wire is free, its queues and completions stand. -/
theorem cutOff_port (s : State) (p : Nat) (w : Wire) : let x := (s.cutOff p w).port p
    x.wire = none ∧ x.done = (s.port p).done ∧ x.queues = (s.port p).queues := by
  rw [State.cutOff, State.modPort_port_self, bringUp_port, linkOff_port]
  exact ⟨rfl, rfl, rfl⟩

section
variable {s : State} {p : Nat} {d : TxDesc} (hown : d.owner = .host)
include hown

theorem txDiscard_linkDown_port : (s.txDiscard p d .linkDown).port p =
    { s.port p with done := (s.port p).done ++ [{ owner := .host, fate := .linkDown }] } := by
  rw [txDiscard_linkDown_host hown]
  exact modPort_port_of rfl

theorem txDiscard_linkDown_rd (r : RegDesc) (i j : Nat) : (s.txDiscard p d .linkDown).rd r i j = (s.bump txLinkDown p).rd r i j := by
  rw [txDiscard_linkDown_host hown]
  rfl

/-- A discard leaves the other ports, and parts but registers and packet buffers, as they were. -/
theorem txDiscard_linkDown_frame {s0 : State} (h : AtPort p s0 s) : let t := s.txDiscard p d .linkDown
    (∀ k, k ≠ p → t.port k = s0.port k) ∧ t = { s0 with ports := t.ports, regs := t.regs, ing := t.ing } := by
  rw [txDiscard_linkDown_host hown]
  exact (h.wr txLinkDown _ p 0).then_ing (fun k hk => modPort_port_ne_of rfl hk _) rfl

end

/-- Settles O37: a start discards the first head whose time has come, and a link that goes down the frame it cuts off. -/
theorem linkDownDiscards : Obligations.LinkDownDiscards := by
  refine ⟨?_, ?_⟩
  · intro p s hdown hwire hf hw launched
    refine ⟨fun h => congrArg Host.Outcome.next (frameTransmitStart_down hw hwire hf hdown h), fun q d h hown => ?_⟩
    have hport := txDiscard_linkDown_port (s := s.popQ p.val q) (p := p.val) hown
    have hrd := txDiscard_linkDown_rd (s := s.popQ p.val q) (p := p.val) hown
    obtain ⟨hports, ht⟩ := txDiscard_linkDown_frame hown (popQ_atPort s p.val q)
    have hq : ∀ k, ((s.popQ p.val q).txDiscard p.val d .linkDown).txq p.val k = (s.popQ p.val q).txq p.val k := fun k => by
      rw [State.txq, hport, State.txq]
    have hpop : (s.popQ p.val q).port p.val = { s.port p.val with queues := tset (s.port p.val).queues q (s.txq p.val q).tail [] } :=
      State.modPort_port_self ..
    rw [hpop] at hport
    exact ⟨_, congrArg Host.Outcome.next (frameTransmitStart_down hw hwire hf hdown h), (congrArg Port.wire hport).trans hwire,
      (hq q).trans (txq_popQ_self ..), fun k hk => (hq k).trans (txq_popQ_ne _ _ hk), congrArg Port.done hport,
      (hrd ..).trans (State.rd_bump_self ..), fun r i j hr => (hrd ..).trans (State.rd_bump_ne _ hr), hports, ht⟩
  · intro p w s hwire hown
    have hport := txDiscard_linkDown_port (s := s.cutOff p.val w) (p := p.val) hown
    have hrd := txDiscard_linkDown_rd (s := s.cutOff p.val w) (p := p.val) hown
    obtain ⟨hports, ht⟩ := txDiscard_linkDown_frame hown (cutOff_atPort s p.val w)
    obtain ⟨hfree, hdone, hqueues⟩ := cutOff_port s p.val w
    obtain ⟨hoff, hkeep⟩ := linkOff_rd s p.val
    refine ⟨_, congrArg Host.Outcome.next (portDown_wire hwire), ?_, ?_, ?_, ?_, ?_, fun q => ?_, hports, ht⟩
    · rw [hport, hfree]
    · rw [State.flag, hrd, State.rd_bump_ne _ (RegDesc.key_ne_of_step ethLinkUp txLinkDown p.val)]
      exact hoff
    · rw [hrd, State.rd_bump_self]
      exact congrArg (fun n => (n + 1) % 2 ^ 64) (hkeep _ _ _ (RegDesc.key_ne_of_step txLinkDown ethLinkUp p.val)
        (RegDesc.key_ne_of_step txLinkDown ethFecLock p.val))
    · rw [hrd, State.rd_bump_ne _ (RegDesc.key_ne_of_step txFramesOk txLinkDown p.val)]
      exact hkeep _ _ _ (RegDesc.key_ne_of_step txFramesOk ethLinkUp p.val) (RegDesc.key_ne_of_step txFramesOk ethFecLock p.val)
    · rw [hport, hdone]
    · rw [State.txq, hport, hqueues, State.txq]

end Sys2Proof.Machine
end

section
/-! ### The pool of packet buffers: a write of RESERVE and LIMIT -/
namespace Sys2Proof.Machine
open Sys2Proof.Safety

/-- RESERVE and LIMIT of a class, as fields. -/
def poolReserve : Fin 4 → RegDesc
  | 0 => flwPoolReserve0
  | 1 => flwPoolReserve1
  | 2 => flwPoolReserve2
  | 3 => flwPoolReserve3
def poolLimit : Fin 4 → RegDesc
  | 0 => flwPoolLimit0
  | 1 => flwPoolLimit1
  | 2 => flwPoolLimit2
  | 3 => flwPoolLimit3

theorem reserveOf_eq (s : State) : ∀ c : Fin 4, s.reserveOf c.val = s.rd (poolReserve c)
  | 0 | 1 | 2 | 3 => rfl

theorem limitOf_eq (s : State) : ∀ c : Fin 4, s.limitOf c.val = s.rd (poolLimit c)
  | 0 | 1 | 2 | 3 => rfl

/-- The word of class `k` holds its RESERVE and its LIMIT. -/
theorem fields_pool : ∀ k : Fin 4, fieldsAt (0x40040 + 8 * k.val) = [⟨poolReserve k, 0, 0, 0⟩, ⟨poolLimit k, 0, 0, 32⟩]
  | 0 => fields_pool0
  | 1 => fields_pool1
  | 2 => fields_pool2
  | 3 => fields_pool3

theorem poolReserve_width (k : Fin 4) : (poolReserve k).width = 18 := by revert k; decide

theorem poolLimit_width (k : Fin 4) : (poolLimit k).width = 18 := by revert k; decide

theorem pool_rw (k : Fin 4) : (poolReserve k).acc = .rw ∧ (poolLimit k).acc = .rw := by revert k; decide

/-- Both fields take the values from 0 to 131,072 (R112). -/
theorem inRange_pool (k : Fin 4) (v : Nat) :
    inRange (poolReserve k) v = decide (v ≤ 131072) ∧ inRange (poolLimit k) v = decide (v ≤ 131072) := by
  have hplain : poolReserve k ∉ [timPpsOutOffset, sqBase, cqBase, xqBase, nqBase, lakStateAddr] ∧
      poolLimit k ∉ [timPpsOutOffset, sqBase, cqBase, xqBase, nqBase, lakStateAddr] := by revert k; decide
  have hbounds : ((poolReserve k).min = 0 ∧ (poolReserve k).max = 131072) ∧ (poolLimit k).min = 0 ∧ (poolLimit k).max = 131072 := by
    revert k; decide
  obtain ⟨hr, hl⟩ := hplain
  obtain ⟨⟨hrmin, hrmax⟩, hlmin, hlmax⟩ := hbounds
  rw [inRange_interval hr, inRange_interval hl, hrmin, hrmax, hlmin, hlmax]
  simp

/-! The fields of the classes are all apart, from one another and from CFG_ERR and the books' requests. -/

theorem poolReserve_key_ne {c k : Fin 4} (h : c ≠ k) : (poolReserve c).key 0 0 ≠ (poolReserve k).key 0 0 := by revert c k; decide

theorem poolLimit_key_ne {c k : Fin 4} (h : c ≠ k) : (poolLimit c).key 0 0 ≠ (poolLimit k).key 0 0 := by revert c k; decide

theorem poolReserve_key_ne_limit (c k : Fin 4) : (poolReserve c).key 0 0 ≠ (poolLimit k).key 0 0 := by revert c k; decide

theorem snapReq_key_ne_pool (k : Fin 4) : ∀ d ∈ [flwSnapReq, morSnapReq, mbxSnapReq, memSnapReq, rngSnapReq],
    d.key 0 0 ≠ (poolReserve k).key 0 0 ∧ d.key 0 0 ≠ (poolLimit k).key 0 0 ∧ d.key 0 0 ≠ flwCfgErr.key 0 0 := by revert k; decide

/-- A 64-bit write of a word of RW fields is out of range where what it brings to some field is. -/
theorem outOfRange_word (s : State) {addr : Nat} (v : Word64) (ha : addr % 8 = 0)
    (hf : ∀ h ∈ fieldsAt addr, h.lo + h.d.width ≤ 64 ∧ 0 < h.d.width ∧ h.d.acc = .rw) :
    s.outOfRange addr 64 v.toNat = (fieldsAt addr).any (fun h => !inRange h.d (bits v.toNat h.lo h.d.width)) := by
  simp only [State.outOfRange, accessBits, ha, Nat.sub_zero, if_true]
  rw [Bool.eq_iff_iff, List.any_eq_true, List.any_eq_true]
  refine exists_congr fun h => and_congr_right fun hh => ?_
  obtain ⟨hw, hp, hacc⟩ := hf h hh
  have hm : 2 ^ h.d.width - 1 ≠ 0 := by have := Nat.one_lt_two_pow hp.ne'; omega
  simp [fieldPart_word h v hw, hacc, hm, Nat.and_two_pow_sub_one_eq_mod, Nat.mod_eq_of_lt (bits_lt _ _ _)]

/-- RESERVE and LIMIT of class `k` as written. -/
def State.poolSet (s : State) (k : Fin 4) (r l : Nat) : State := (s.wr (poolReserve k) r).wr (poolLimit k) l

/-- The word that brings RESERVE `r` and LIMIT `l`. -/
def poolWord (r l : Nat) : Word64 := BitVec.ofNat 64 (r + l * 2 ^ 32)

section
variable (s : State) (k : Fin 4) {r l : Nat} (hr : r < 2 ^ 18) (hl : l < 2 ^ 18)

include hr in
theorem reserveOf_poolSet {c : Nat} (hc : c < 4) : (s.poolSet k r l).reserveOf c = if c = k.val then r else s.reserveOf c := by
  obtain ⟨c, rfl⟩ : ∃ d : Fin 4, d.val = c := ⟨⟨c, hc⟩, rfl⟩
  rw [reserveOf_eq, reserveOf_eq, State.poolSet, State.rd_wr_ne _ _ (poolReserve_key_ne_limit c k)]
  by_cases h : c = k
  · rw [h, State.rd_wr_self, poolReserve_width, Nat.mod_eq_of_lt hr, if_pos rfl]
  · rw [State.rd_wr_ne _ _ (poolReserve_key_ne h), if_neg (Fin.val_ne_of_ne h)]

include hl in
theorem limitOf_poolSet {c : Nat} (hc : c < 4) : (s.poolSet k r l).limitOf c = if c = k.val then l else s.limitOf c := by
  obtain ⟨c, rfl⟩ : ∃ d : Fin 4, d.val = c := ⟨⟨c, hc⟩, rfl⟩
  rw [limitOf_eq, limitOf_eq, State.poolSet]
  by_cases h : c = k
  · rw [h, State.rd_wr_self, poolLimit_width, Nat.mod_eq_of_lt hl, if_pos rfl]
  · rw [State.rd_wr_ne _ _ (poolLimit_key_ne h), State.rd_wr_ne _ _ (poolReserve_key_ne_limit k c).symm, if_neg (Fin.val_ne_of_ne h)]

include hr hl

theorem bits_poolWord : bits (poolWord r l).toNat 0 18 = r ∧ bits (poolWord r l).toNat 32 18 = l := by
  have hword : (poolWord r l).toNat = r + l * 2 ^ 32 := by
    rw [poolWord, BitVec.toNat_ofNat, Nat.mod_eq_of_lt (by omega)]
  rw [hword, bits, bits]
  omega

/-- The four classes hold together after the write (R112). -/
theorem poolHolds_poolSet : poolHolds (s.poolSet k r l) = true ↔
    ((List.range 4).map (fun c => if c = k.val then r else s.reserveOf c)).sum ≤ 131072 ∧ r ≤ l ∧
      ∀ c < 4, c ≠ k.val → s.reserveOf c ≤ s.limitOf c := by
  have hsum : (List.range 4).map (s.poolSet k r l).reserveOf = (List.range 4).map (fun c => if c = k.val then r else s.reserveOf c) :=
    List.map_congr_left fun c hc => reserveOf_poolSet s k hr (List.mem_range.mp hc)
  have hclass : (∀ c < 4, (s.poolSet k r l).reserveOf c ≤ (s.poolSet k r l).limitOf c) ↔
      r ≤ l ∧ ∀ c < 4, c ≠ k.val → s.reserveOf c ≤ s.limitOf c := by
    refine ⟨fun h => ⟨?_, fun c hc hk => ?_⟩, fun ⟨hk, ho⟩ c hc => ?_⟩
    · simpa [reserveOf_poolSet s k hr, limitOf_poolSet s k hl] using h k k.isLt
    · simpa [reserveOf_poolSet s k hr, limitOf_poolSet s k hl, hc, hk] using h c hc
    · rw [reserveOf_poolSet s k hr hc, limitOf_poolSet s k hl hc]
      split
      · exact hk
      · next h => exact ho c hc h
  rw [poolHolds, hsum, Bool.and_eq_true, decide_eq_true_eq, List.all_eq_true]
  simp only [List.mem_range, decide_eq_true_eq, hclass]

/-- The write is out of range where either value is. -/
theorem outOfRange_pool : s.outOfRange (0x40040 + 8 * k.val) 64 (poolWord r l).toNat = !(decide (r ≤ 131072) && decide (l ≤ 131072)) := by
  have hbits := bits_poolWord hr hl
  have hf : ∀ h ∈ fieldsAt (0x40040 + 8 * k.val), h.lo + h.d.width ≤ 64 ∧ 0 < h.d.width ∧ h.d.acc = .rw := by
    rw [fields_pool]; revert k; decide
  rw [outOfRange_word s _ (by omega) hf, fields_pool]
  simp [poolReserve_width, poolLimit_width, hbits, inRange_pool]

/-- A write in range sets both fields. -/
theorem writeReg_pool (hr' : r ≤ 131072) (hl' : l ≤ 131072) :
    s.writeReg (0x40040 + 8 * k.val) 64 (poolWord r l).toNat = s.poolSet k r l := by
  have hbits := bits_poolWord hr hl
  have hf : ∀ h ∈ fieldsAt (0x40040 + 8 * k.val), h.lo + h.d.width ≤ 64 ∧ 0 < h.d.width := by
    rw [fields_pool]; revert k; decide
  have hgood : goodAccess (0x40040 + 8 * k.val) 64 = true := by revert k; decide
  obtain ⟨hrplain, hlplain⟩ : poolReserve k ≠ pwrTjWarn ∧ poolLimit k ≠ pwrTjWarn := by revert k; decide
  obtain ⟨hracc, hlacc⟩ := pool_rw k
  rw [writeReg_word s _ hgood (by omega) hf, fields_pool]
  simp only [List.foldl]
  rw [writeField_rw s hracc hrplain (bits_lt _ _ _), writeField_rw _ hlacc hlplain (bits_lt _ _ _)]
  simp [poolReserve_width, poolLimit_width, hbits, inRange_pool, hr', hl', State.poolSet]

/-- The write is taken whole, or refused whole with CFG_ERR (R112). -/
theorem strictWrite_pool : s.strictWrite flwCfgErr poolHolds (0x40040 + 8 * k.val) 64 (poolWord r l).toNat =
    if r ≤ 131072 ∧ l ≤ 131072 ∧ poolHolds (s.poolSet k r l) = true then s.poolSet k r l else s.wr flwCfgErr 1 := by
  rw [State.strictWrite, outOfRange_pool s k hr hl]
  by_cases h : r ≤ 131072 ∧ l ≤ 131072
  · obtain ⟨hr', hl'⟩ := h
    cases hh : poolHolds (s.poolSet k r l) <;> simp [writeReg_pool s k hr hl hr' hl', hr', hl', hh]
  · have hout : (decide (r ≤ 131072) && decide (l ≤ 131072)) = false := by simpa using h
    rw [hout, if_pos (by rfl), if_neg fun hh => h ⟨hh.1, hh.2.1⟩]

/-- A host's write of the word is that write, and nothing else: no field of it is one that hardware sets or a book's request. -/
theorem registerWrite_pool (sets : Word64) : registerWrite (0x40040 + 8 * k.val) 64 { value := poolWord r l, sets := sets } s =
    if r ≤ 131072 ∧ l ≤ 131072 ∧ poolHolds (s.poolSet k r l) = true then s.poolSet k r l else s.wr flwCfgErr 1 := by
  have hgood : goodAccess (0x40040 + 8 * k.val) 64 = true := by revert k; decide
  have hbar : ∀ v, s.barWrite (0x40040 + 8 * k.val) 64 v = s.strictWrite flwCfgErr poolHolds (0x40040 + 8 * k.val) 64 v := by
    intro v; fin_cases k <;> rfl
  have hno : ∀ h ∈ fieldsAt (0x40040 + 8 * k.val - (0x40040 + 8 * k.val) % 8), h.d.acc ≠ .w1c := by
    rw [show 0x40040 + 8 * k.val - (0x40040 + 8 * k.val) % 8 = 0x40040 + 8 * k.val by omega, fields_pool]
    simp [pool_rw]
  rw [registerWrite, hgood, hbar, hwSets_of_no_w1c _ _ _ hno, strictWrite_pool s k hr hl]
  refine markSnaps_eq_self fun d hd => ?_
  obtain ⟨hres, hlim, herr⟩ := snapReq_key_ne_pool k d hd
  split
  · rw [State.poolSet, State.rd_wr_ne _ _ hlim, State.rd_wr_ne _ _ hres]
  · rw [State.rd_wr_ne _ _ herr]

end

/-- Settles O15: the write is taken exactly where both values are in range and the four classes then hold together. -/
theorem poolWriteRefusedWhole : Obligations.PoolWriteRefusedWhole := by
  intro k r l sets s hr hl v sum
  have hx : exec (.registerWrite (0x40040 + 8 * k.val) 64 v) s = _ := congrArg Host.Outcome.next (registerWrite_pool s k hr hl sets)
  have hholds := poolHolds_poolSet s k hr hl
  refine ⟨fun ⟨hr', hl', hsum, hrl, hothers⟩ => ?_, fun h => ?_⟩
  · rw [if_pos ⟨hr', hl', hholds.mpr ⟨hsum, hrl, hothers⟩⟩] at hx
    refine ⟨_, hx, ?_, ?_, fun c hc hk => ⟨?_, ?_⟩, rfl⟩
    · rw [reserveOf_poolSet s k hr k.isLt, if_pos rfl]
    · rw [limitOf_poolSet s k hl k.isLt, if_pos rfl]
    · rw [reserveOf_poolSet s k hr hc, if_neg hk]
    · rw [limitOf_poolSet s k hl hc, if_neg hk]
  · rw [hx, if_neg]
    rintro ⟨hr', hl', hh⟩
    obtain ⟨hsum, hrl, -⟩ := hholds.mp hh
    rcases h with h | h | h | h
    · exact absurd hr' (Nat.not_le.mpr h)
    · exact absurd hl' (Nat.not_le.mpr h)
    · exact absurd hsum (Nat.not_le.mpr h)
    · exact absurd hrl (Nat.not_le.mpr h)

end Sys2Proof.Machine
end

section
/-! ### Ingress: keys, rate windows, repaired slots and answers to address requests -/
namespace Sys2Proof.Machine
open Sys2Proof.Safety

section
variable {s : State} {ch : Nat}

/-- The previous key goes once it is held and its time has come (R104). -/
theorem previousKeyDiscard_due (hkey : (s.chan ch).srx.previous ≠ none) (hdue : (s.chan ch).srx.discardAt ≤ s.now) :
    previousKeyDiscard ch s = s.modChan ch (fun c => { c with srx := { c.srx with previous := none } }) := by
  simp only [previousKeyDiscard, Option.isSome_iff_ne_none.mpr hkey, hdue, decide_true, Bool.and_self, if_true]
  rfl

theorem previousKeyDiscard_idle (h : (s.chan ch).srx.previous = none ∨ s.now < (s.chan ch).srx.discardAt) : previousKeyDiscard ch s = s := by
  rcases h with h | h
  · simp [previousKeyDiscard, h]
  · simp [previousKeyDiscard, h]

end

section
variable {s : State} {p : Nat} {target : BitVec 128} (solicitation : Bool) (f : List Byte)

theorem arpRequest_inactive (h : s.latIndex target = none) : arpRequest p target solicitation f s = s := by
  simp only [arpRequest, h]

/-- A descriptor that Bister posts without a timestamp request, and whose buffers are admitted. -/
theorem transmitDescriptor_bister {d : TxDesc} (ho : d.owner = .bister) (ht : d.twoStep = none) (hw : (s.port p).waiting = [])
    (ha : s.admits 3 (filled d).buffers = true) : transmitDescriptor p d s = (s.takeBuf 3 (filled d).buffers).txPost p (filled d) := by
  have hyes : s.admits 3 (buffersOf d.data.length) = true := ha
  simp [transmitDescriptor, filled, ho, ht, hw, hyes]

/-- The answer to a request, as Bister posts it (R88). -/
def arpAnswer (s : State) (p : Nat) (target : BitVec 128) (solicitation : Bool) (f : List Byte) : TxDesc :=
  { queue := 0, data := arpReply (s.rd ethMacAddr p) target solicitation f, owner := .bister }

theorem arpRequest_active (hlat : s.latIndex target ≠ none) (hw : (s.port p).waiting = [])
    (ha : s.admits 3 (filled (arpAnswer s p target solicitation f)).buffers = true) :
    arpRequest p target solicitation f s =
      (s.takeBuf 3 (filled (arpAnswer s p target solicitation f)).buffers).modPort p
        (fun x => x.enqueue (filled (arpAnswer s p target solicitation f))) := by
  obtain ⟨i, hi⟩ := Option.ne_none_iff_exists'.mp hlat
  have hpost : arpRequest p target solicitation f s = transmitDescriptor p (arpAnswer s p target solicitation f) s := by
    simp only [arpRequest, hi, arpAnswer]
  rw [hpost, transmitDescriptor_bister rfl rfl hw ha, txPost_near rfl]

end

/-- Settles O40: each row's own rule, and for the answer to a request what a descriptor of Bister's does when it is posted. -/
theorem ingressHousekeeping : Obligations.IngressHousekeeping := by
  refine ⟨fun ch s hon => ⟨fun hkey hdue => next_whileOn hon (previousKeyDiscard_due hkey hdue), fun h => next_whileOn hon (previousKeyDiscard_idle h)⟩,
    fun s hon => next_whileOn hon rfl, fun slot s hon => next_whileOn hon rfl, fun p a sol f s => ?_,
    fun p a sol f s h => congrArg Host.Outcome.next (arpRequest_inactive sol f h), fun s => ?_⟩
  · intro reply n hlat hw ha
    have hx := arpRequest_active sol f hlat hw ha
    exact ⟨_, congrArg Host.Outcome.next hx, txq_enqueue_self _ _ _, fun q hq => txq_enqueue_ne _ _ _ hq,
      (heldOf_modPort ..).trans (heldOf_takeBuf_self ..), fun k hk => modPort_port_ne_of rfl hk _, rfl⟩
  · refine ⟨_, rfl, ?_, tget_tset_self .., fun d i j h => State.rd_wr_ne s 1 h, rfl⟩
    exact State.flag_wr_self s flwSnapReq 1 0 0

end Sys2Proof.Machine
end

section
/-! ### Ingress: the lookup of a frame -/
namespace Sys2Proof.Machine
open Sys2Proof.Safety

/-! #### What a lookup reads -/

/-- The oldest frame has left port `p`'s receive buffer and is counted as classified. -/
def State.lookedUp (s : State) (p : Nat) (rest : List RxMeta) : State :=
  (s.modPort p (fun x => { x with rxQ := rest })).bump flwClassified

section
variable {s t : State}

/-- The slots of a key depend on the four seeds alone (R93). -/
theorem candidates_congr (h : ∀ b < 4, t.rd flwSeed b = s.rd flwSeed b) (key : Nat) : t.candidates key = s.candidates key :=
  List.map_congr_left fun b hb => by rw [State.slotOf, State.slotOf, h b (List.mem_range.mp hb)]

/-- A frame's class depends on the tables of ingress and the seeds alone. -/
theorem classify_congr (hing : t.ing = s.ing) (h : ∀ b < 4, t.rd flwSeed b = s.rd flwSeed b) (p : Nat) (m : RxMeta) (bad : List Nat) :
    t.classify p m bad = s.classify p m bad := by
  have hfind : ∀ key, t.flowFind key bad = s.flowFind key bad := fun key => by
    rw [State.flowFind, State.flowFind, candidates_congr h, hing]
  simp only [State.classify, State.latIndex, hing, hfind]

/-- Whether Bister takes a frame as PTP depends on the settings of the time bases alone. -/
theorem takesPtp_congr (h : ∀ d ∈ [timTbSrc, timTbPort, timTbTransport, timTbDomain], ∀ n < 4, t.rd d n = s.rd d n) (p : Nat) (l : List Byte) :
    t.takesPtp p l = s.takesPtp p l := by
  simp only [List.forall_mem_cons] at h
  obtain ⟨hsrc, hport, htransport, hdomain, -⟩ := h
  rw [Bool.eq_iff_iff, State.takesPtp, State.takesPtp, List.any_eq_true, List.any_eq_true]
  refine exists_congr fun n => and_congr_right fun hn => ?_
  have hn := List.mem_range.mp hn
  rw [hsrc n hn, hport n hn, htransport n hn, hdomain n hn]

/-- ACTION of the exception classes. -/
def excActions : List RegDesc := [flwExcAction0, flwExcAction1, flwExcAction2, flwExcAction3]

theorem excAction_congr (h : ∀ a ∈ excActions, t.rd a = s.rd a) (cls : Nat) : t.excAction cls = s.excAction cls := by
  simp only [excActions, List.forall_mem_cons] at h
  obtain ⟨h0, h1, h2, h3, -⟩ := h
  simp only [State.excAction, h0, h1, h2, h3]

/-- Admission depends on the buffers held and the classes' RESERVE and LIMIT alone (R110). -/
theorem admits_congr (hheld : t.ing.held = s.ing.held) (hres : t.reserveOf = s.reserveOf) (hlim : t.limitOf = s.limitOf) (c n : Nat) :
    t.admits c n = s.admits c n := by
  have hof : t.heldOf = s.heldOf := funext fun k => by rw [State.heldOf, State.heldOf, hheld]
  have hfree : t.bufFree = s.bufFree := by rw [State.bufFree, State.bufFree, State.bufHeld, State.bufHeld, hheld]
  rw [State.admits, State.admits, hof, hfree, hres, hlim]

end

section
variable (s : State) (p : Nat) (rest : List RxMeta)

theorem lookedUp_rd_ne {d : RegDesc} {i j : Nat} (h : d.key i j ≠ flwClassified.key 0 0) : (s.lookedUp p rest).rd d i j = s.rd d i j :=
  State.rd_bump_ne _ h

@[simp] theorem lookedUp_ing : (s.lookedUp p rest).ing = s.ing := rfl

@[simp] theorem lookedUp_chan (ch : Nat) : (s.lookedUp p rest).chan ch = s.chan ch := rfl

theorem lookedUp_rxQ : ((s.lookedUp p rest).port p).rxQ = rest := by
  rw [State.lookedUp, State.bump_port, State.modPort_port_self]

theorem lookedUp_port_ne {k : Nat} (h : k ≠ p) : (s.lookedUp p rest).port k = s.port k := by
  rw [State.lookedUp, State.bump_port, State.modPort_port_ne _ _ h]

theorem lookedUp_classify (q : Nat) (m : RxMeta) (bad : List Nat) : (s.lookedUp p rest).classify q m bad = s.classify q m bad :=
  have hkey : ∀ b < 4, flwSeed.key b 0 ≠ flwClassified.key 0 0 := by decide
  classify_congr (s := s) (t := s.lookedUp p rest) rfl (fun b hb => lookedUp_rd_ne s p rest (hkey b hb)) q m bad

theorem lookedUp_takesPtp (q : Nat) (l : List Byte) : (s.lookedUp p rest).takesPtp q l = s.takesPtp q l := by
  have hkey : ∀ d ∈ [timTbSrc, timTbPort, timTbTransport, timTbDomain], ∀ n < 4, d.key n 0 ≠ flwClassified.key 0 0 := by decide
  exact takesPtp_congr (s := s) (t := s.lookedUp p rest) (fun d hd n hn => lookedUp_rd_ne s p rest (hkey d hd n hn)) q l

theorem lookedUp_admits (c n : Nat) : (s.lookedUp p rest).admits c n = s.admits c n := by
  refine admits_congr (s := s) (t := s.lookedUp p rest) rfl (funext fun k => ?_) (funext fun k => ?_) c n
  · simp (disch := decide) only [State.reserveOf, lookedUp_rd_ne]
  · simp (disch := decide) only [State.limitOf, lookedUp_rd_ne]

theorem lookedUp_excAction (cls : Nat) : (s.lookedUp p rest).excAction cls = s.excAction cls := by
  have hkey : ∀ a ∈ excActions, a.key 0 0 ≠ flwClassified.key 0 0 := by decide
  exact excAction_congr (fun a ha => lookedUp_rd_ne s p rest (hkey a ha)) cls

end

/-! #### The frame's class -/

section
variable {s : State} {p : Nat} {m : RxMeta} {rest : List RxMeta}

theorem flowLookup_empty (bad : List Nat) (h : (s.port p).rxQ = []) : flowLookup p bad s = s := by
  simp only [flowLookup, h]

/-- Without slots in error no frame meets one. -/
theorem badSlots_nil (s : State) (p : Nat) (m : RxMeta) : s.badSlots p m [] = false := by
  simp only [State.badSlots, List.contains_nil]
  split
  · rfl
  · next h _ => cases s.latIndex h.dst <;> simp [List.any_eq_false]

/-- Where a frame goes by its class: to its flow's delivery, to Bister as PTP, or to its exception class. -/
def State.byClass (s : State) (p : Nat) (m : RxMeta) : Class → State
  | .flow e pay => s.deliver e m pay
  | .exc cls => if s.takesPtp p m.data then s else s.excSteer cls p m

variable (hq : (s.port p).rxQ = m :: rest) (hmark : m.mark = none) (hecc : s.ing.eccSlots = [])
include hq hmark hecc

/-- An unmarked frame, while no slot is in error, leaves the receive buffer and goes by its class. -/
theorem flowLookup_unmarked : flowLookup p [] s = (s.lookedUp p rest).byClass p m (s.classify p m []) := by
  have hsame : { s.lookedUp p rest with ing := { s.ing with eccSlots := [] } } = s.lookedUp p rest := by rw [← hecc]; rfl
  have htaken : (s.modPort p (fun x => { x with rxQ := rest })).bump flwClassified = s.lookedUp p rest := rfl
  simp only [flowLookup, hq, hmark, htaken, lookedUp_ing, hecc, List.nil_append, List.eraseDups_nil, hsame, lookedUp_classify]
  cases s.classify p m [] with
  | flow e pay => rfl
  | exc cls => simp only [badSlots_nil, Bool.and_false, Bool.false_eq_true, if_false, State.byClass]

end

/-- A frame of a class that does not act is counted and goes no further (R98). -/
theorem excSteer_counted {s : State} {cls : Nat} (p : Nat) (m : RxMeta) (hcls : cls < 3) (h : s.excAction cls = 0) :
    s.excSteer cls p m = s.bump (if cls = 0 then flwNoaddr else if cls = 1 then flwNoflow else flwNonudp) := by
  have hkey : ∀ d ∈ [flwNoaddr, flwNoflow, flwNonudp], ∀ a ∈ excActions, a.key 0 0 ≠ d.key 0 0 := by decide
  have hact := fun d hd => (excAction_congr (fun a ha => State.rd_bump_ne s (hkey d hd a ha)) cls).trans h
  simp only [List.forall_mem_cons] at hact
  obtain ⟨h0, h1, h2, -⟩ := hact
  obtain rfl | rfl | rfl : cls = 0 ∨ cls = 1 ∨ cls = 2 := by omega
  · simp only [State.excSteer, h0, Nat.zero_ne_one, if_false, if_true]
  · simp [State.excSteer, h1]
  · simp [State.excSteer, h2]

/-! #### The frame's flow -/

section
variable (s : State) (c ch n : Nat)

@[simp] theorem chanTake_chan_self : (s.chanTake c ch n).chan ch = { s.chan ch with ingressHeld := (s.chan ch).ingressHeld + n } :=
  State.modChan_chan_self ..

theorem chanTake_chan_ne {k : Nat} (h : k ≠ ch) : (s.chanTake c ch n).chan k = s.chan k := State.modChan_chan_ne _ _ h

@[simp] theorem chanTake_heldOf_self : (s.chanTake c ch n).heldOf c = s.heldOf c + n := heldOf_takeBuf_self ..

end

/-- What a packet that has been looked up and has taken its buffers leaves, once it is handed on within ingress. -/
theorem handedOn (s : State) (p c ch n : Nat) (rest : List RxMeta) {u : Ingress} (hheld : u.held = (s.takeBuf c n).ing.held) :
    let t := { (s.lookedUp p rest).chanTake c ch n with ing := u }
    (t.port p).rxQ = rest ∧ t.heldOf c = s.heldOf c + n ∧
    t.chan ch = { s.chan ch with ingressHeld := (s.chan ch).ingressHeld + n } ∧ t.rd flwClassified = (s.rd flwClassified + 1) % 2 ^ 64 ∧
    (∀ k, k ≠ ch → t.chan k = s.chan k) ∧ (∀ k, k ≠ p → t.port k = s.port k) ∧
    t = { s with ports := t.ports, regs := t.regs, ing := t.ing, chans := t.chans } := by
  have hbuf : tget u.held c 0 = s.heldOf c + n := by rw [hheld]; exact heldOf_takeBuf_self s c n
  have hrx := lookedUp_rxQ s p rest
  have hports := fun k (hk : k ≠ p) => lookedUp_port_ne s p rest hk
  have hcount : (s.lookedUp p rest).rd flwClassified = _ := State.rd_bump_self _ flwClassified 0 0
  have hchan := lookedUp_chan s p rest
  have hframe : s.lookedUp p rest = { s with ports := (s.lookedUp p rest).ports, regs := (s.lookedUp p rest).regs } := rfl
  generalize s.lookedUp p rest = w at *
  refine ⟨hrx, hbuf, ?_, hcount, fun k hk => (chanTake_chan_ne w c ch n hk).trans (hchan k), hports, ?_⟩
  · rw [← hchan]; exact chanTake_chan_self w c ch n
  · rw [hframe]; rfl

section
variable {s : State} {e : FlowEntry} {m : RxMeta} {udp : List Byte}

/-- A frame of an immediate flow whose class has no buffers is counted and goes no further (R110). -/
theorem deliver_noBuffers (himm : e.immediate = true) (ha : s.admits 1 (buffersOf m.data.length) = false) :
    s.deliver e m udp = s.bump flwNobuf 1 := by
  simp only [State.deliver, himm, Bool.true_or, if_true, ha, Bool.not_false]

variable (hmux : e.rtcpMux = false) (hsrtp : e.srtp = false)
  (hquota : (s.chan e.ch).ingressHeld + buffersOf m.data.length ≤ e.quota)
include hmux hsrtp hquota

/-- An admitted packet of an unprotected immediate flow that is not media is a task for Mordant (R92). -/
theorem deliver_immediate (himm : e.immediate = true) (hkind : e.kind = 1) (ha : s.admits 1 (buffersOf m.data.length) = true) :
    s.deliver e m udp = (s.chanTake 1 e.ch (buffersOf m.data.length)).toImmediate e 1 (buffersOf m.data.length) udp := by
  simp [State.deliver, State.forward, hmux, hsrtp, himm, hkind, ha, Nat.not_lt.mpr hquota]

/-- An admitted valid packet of an unprotected media flow of a channel without FECFRAME goes to Steep (R92, R145). -/
theorem deliver_media (himm : e.immediate = false) (hev : e.eventEn = false) (hkind : e.kind = 0)
    (hblocks : (s.chan e.ch).weld.blocks = []) (hfec : ((s.chan e.ch).weld.rxNext.getD (s.chan e.ch).weld.rxFf).rxFec < 2)
    (hrtp : rtpValid udp = true) (ha : s.admits 0 (buffersOf m.data.length) = true) :
    s.deliver e m udp = (s.chanTake 0 e.ch (buffersOf m.data.length)).toSteep e m (buffersOf m.data.length) udp udp false := by
  have hsource : sourceOf (s.chan e.ch).weld udp = udp := by simp [sourceOf, sourceRead, hblocks, hfec]
  simp [State.deliver, State.forward, hmux, hsrtp, himm, hev, hkind, hsource, hrtp, ha, Nat.not_lt.mpr hquota]

end

/-- Settles O39: the frame leaves the buffer, and its class or its flow says what becomes of it. -/
theorem flowLookupClasses : Obligations.FlowLookupClasses := by
  refine ⟨fun p bad s hq => next_whileOn_same (flowLookup_empty bad hq), fun p cls m rest s hon hq hmark hecc hcls hc hptp hact => ?_,
    fun p m rest e pay s hon hq hmark hecc hc himm ha => ?_, fun p m rest e pay s => ?_⟩
  · have hrun := flowLookup_unmarked hq hmark hecc
    rw [hc, State.byClass, lookedUp_takesPtp, hptp, if_neg Bool.false_ne_true, excSteer_counted p.val m hcls (by rw [lookedUp_excAction, hact])] at hrun
    exact next_whileOn hon hrun
  · have hrun := flowLookup_unmarked hq hmark hecc
    rw [hc, State.byClass, deliver_noBuffers himm (by rw [lookedUp_admits, ha])] at hrun
    exact next_whileOn hon hrun
  intro n w hon hq hmark hecc hc hmux hsrtp hquota
  have hrun := flowLookup_unmarked hq hmark hecc
  rw [hc, State.byClass] at hrun
  refine ⟨fun himm hkind ha => ?_, fun himm hev hkind hblocks hfec hrtp ha => ?_⟩
  · have htask := hrun.trans (deliver_immediate hmux hsrtp hquota himm hkind (by rw [lookedUp_admits, ha]))
    obtain ⟨hrx, hheld, hchan, hcount, hothers, hports, hframe⟩ := handedOn s p.val 1 e.ch n rest
      (u := (((s.lookedUp p.val rest).chanTake 1 e.ch n).toImmediate e 1 n pay).ing) rfl
    exact ⟨_, next_whileOn hon htask, hrx, hheld, hchan, rfl, hcount, hothers, hports, hframe⟩
  · have hpkt := hrun.trans (deliver_media hmux hsrtp hquota himm hev hkind hblocks hfec hrtp (by rw [lookedUp_admits, ha]))
    obtain ⟨hrx, hheld, hchan, hcount, hothers, hports, hframe⟩ := handedOn s p.val 0 e.ch n rest
      (u := (((s.lookedUp p.val rest).chanTake 0 e.ch n).toSteep e m n pay pay false).ing) rfl
    exact ⟨_, next_whileOn hon hpkt, hrx, hheld, hchan, ⟨_, rfl, rfl, rfl, rfl, rfl, rfl, rfl⟩, hcount, hothers, hports, hframe⟩

end Sys2Proof.Machine
end

section
/-! ### Egress: the next frame of a channel -/
namespace Sys2Proof.Machine
open Sys2Proof.Safety

/-- A channel with nothing to send is left alone, whether or not egress has room. -/
theorem egressPacketBuild_idle {s : State} {ch : Nat} (h : (s.chan ch).egr.outQ = []) : egressPacketBuild ch s = s := by
  have hnext : s.egressNext ch = s := by simp only [State.egressNext, h]
  rw [egressPacketBuild, waitEgr, hnext, ite_self]

/-- The channel once the packet of the frames `fs` is built and `left` stay queued: its frame is kept for redundancy (R151), its timestamp
moves on (R200), and the talkspurt goes on. -/
def afterPacket (c : Chan) (f : OutFrame) (fs left : List OutFrame) : Chan :=
  let kept := c.weld.lastFrames ++ [(nextTs c f.codec, f.pt, fs.flatMap (·.payload))]
  { c with
    weld := { c.weld with lastFrames := kept.drop (kept.length - 3) }
    egr := { c.egr with outQ := left, rtpTs := BitVec.ofNat 32 (nextTs c f.codec), elapsed := fs.foldl (fun a x => a + x.span) 0, markNext := false } }

section
variable {s : State} {ch : Nat} {f : OutFrame} {rest : List OutFrame} (hq : (s.chan ch).egr.outQ = f :: rest) (hraw : f.raw = false)
include hq hraw

/-- An event is sent with its own timestamp. -/
theorem egressNext_event {ts : Nat} (hev : f.eventTs = some ts) : s.egressNext ch =
    (s.modChan ch (fun c => { c with egr := { c.egr with outQ := rest } })).sendRtp ch f.pt ts f.mark f.payload (s.launchOf f) := by
  simp only [State.egressNext, hq, hraw, hev, Bool.false_eq_true, if_false]
  rfl

variable (hev : f.eventTs = none)
include hev

/-- A frame that is not sent leaves the queue, is counted in the time since the last packet and ends the talkspurt. -/
theorem egressNext_unsent (hsent : f.sent = false) : s.egressNext ch =
    s.setChan ch (clearTalkspurt { s.chan ch with
      egr := { (s.chan ch).egr with outQ := rest, elapsed := (s.chan ch).egr.elapsed + f.span } }) := by
  simp only [State.egressNext, hq, hraw, hev, hsent, Bool.false_eq_true, if_false, Bool.not_false, if_true]

/-- Frames that make up a packet leave together, without redundancy where RED is not sent (R151). -/
theorem egressNext_packet {fs left : List OutFrame} (hsent : f.sent = true) (hsid : f.sid = false) (hred : redSent (s.chan ch) = false)
    (hpkt : nextPacket (f :: rest) = some (fs, left)) : s.egressNext ch =
    (s.setChan ch (afterPacket (s.chan ch) f fs left)).sendRtp ch f.pt (nextTs (s.chan ch) f.codec) (s.chan ch).egr.markNext
      (fs.flatMap (·.payload)) (s.launchOf f) := by
  simp only [State.egressNext, hq, hraw, hev, hsent, hsid, hred, hpkt, Bool.false_eq_true, if_false, Bool.not_true]
  rfl

end

/-- Settles O41: what the head of the queue gives, taken where egress has room for it. -/
theorem egressPacketBuilt : Obligations.EgressPacketBuilt := by
  refine ⟨fun ch s hq => next_whileOn_same (egressPacketBuild_idle hq), fun ch f rest s hon hq hsent hraw hev ha => ?_,
    fun ch f rest fs left s => ?_, fun ch f ts rest s hon hq hraw hev => ?_⟩
  · have hnext := egressNext_unsent hq hraw hev hsent
    have hroom : egressPacketBuild ch.val s = s.egressNext ch.val := by
      have hheld : (s.egressNext ch.val).heldOf 3 = s.heldOf 3 := by rw [hnext]; rfl
      rw [egressPacketBuild, waitEgr, hheld, Nat.sub_self, ha, if_pos rfl]
    exact ⟨_, next_whileOn hon (hroom.trans hnext), State.setChan_chan_self .., fun k hk => State.setChan_chan_ne _ _ hk, rfl⟩
  · intro c ts primary kept c1 t hon hq hraw hev hsent hsid hred hpkt
    have hnext : s.egressNext ch.val = t := egressNext_packet hq hraw hev hsent hsid hred hpkt
    exact next_whileOn hon (by rw [egressPacketBuild, waitEgr, hnext])
  · intro t
    have hnext : s.egressNext ch.val = t := egressNext_event hq hraw hev
    exact next_whileOn hon (by rw [egressPacketBuild, waitEgr, hnext])

end Sys2Proof.Machine
end

section
/-! ### Steep: a restart and the decision trace -/
namespace Sys2Proof.Machine
open Sys2Proof.Safety

/-- The first packet of a new stream of channel 5. -/
def restartPkt : MediaPkt :=
  { ch := 5, seq := 9, ts := 0, ssrc := 1, marker := false, pt := 0, payload := [0, 0], udp := [], arrival := 0, buffers := 1, restart := true }

/-- Channel 5 is OPEN with a task in the release queue, the decision trace writes every cancel (kind 5 of R330), and Steep has the
first packet of a new stream next. -/
def tracedRestart : State :=
  let s := ((State.reset.wr morTraceRate 1).wr morTraceKinds (2 ^ 5)).modChan 5 (fun c => { c with st := .open })
  { s with ing := { s.ing with steepIn := [restartPkt] }
           mor := { s.mor with relQ := [{ ch := 5, kind := .gap, cls := 2, deadline := 0, acceptedAt := 0, tick := 0 }] } }

/-- The restart cancels the task (R103, R119), and the trace of that decision (R330) is written to memory. -/
theorem steepRingWrite_tracedRestart : (steepRingWrite tracedRestart).mem.hostShared ≠ tracedRestart.mem.hostShared := by decide +kernel

/-- Refutes O43: the clause on a packet that is counted says that memory is as it was. A packet that restarts the stream cancels the
channel's waiting tasks, and where the decision trace takes cancels it writes them to host-shared memory. -/
theorem not_steepRingWriteFates : ¬ Obligations.SteepRingWriteFates := by
  rintro ⟨-, -, -, hcounted, -⟩
  obtain ⟨t, hrun, -, -, -, -, -, -, -, -, hmem⟩ := hcounted restartPkt [] tracedRestart (by decide +kernel) rfl (.inl rfl) rfl rfl
  obtain rfl : steepRingWrite tracedRestart = t := by
    have hx : exec .steepRingWrite tracedRestart = .next (steepRingWrite tracedRestart) := next_whileOn (by decide +kernel) rfl
    exact Host.Outcome.next.inj (hx.symm.trans hrun)
  exact steepRingWrite_tracedRestart (congrArg (·.hostShared) hmem)

end Sys2Proof.Machine
end

section
/-! ### Weld: the answer to an offer -/
namespace Sys2Proof.Machine
open Sys2Proof.Safety

/-! #### The release of a task whole or without a frame -/

/-- The jitter buffer that has counted a tick and, where `cut`, keeps what the first share leaves of a frame (R249). -/
def tickCounted (cut : Bool) (body : List Byte) (t : Steep) : Steep :=
  { t with tickCount := t.tickCount + 1, shares := if cut then body.drop 40 else t.shares }

/-- A task that is released whole, or that has no frame to split into shares (R249), enters the release queue by its age; the channel
counts its tick. -/
theorem release_unsplit {s : State} {ch : Nat} {body : List Byte} (h : saffronAudio (s.chan ch) = false ∨ body = []) (kind : TaskKind)
    (tick pt ts : Nat) : let t := s.release ch kind tick 0 body pt ts
    (∃ k : Task, t.mor.relQ = insertTask s.tickAge k s.mor.relQ ∧ k.ch = ch ∧ k.kind = kind ∧ k.tick = tick ∧ k.payload = body ∧ k.pt = pt) ∧
    t.chan ch = { s.chan ch with steep := tickCounted (saffronAudio (s.chan ch)) body (s.chan ch).steep } ∧
    (∀ m, m ≠ ch → t.chan m = s.chan m) ∧ OnlyTick s t := by
  have hbody : (if saffronAudio (s.chan ch) = true then body.take 40 else body) = body := by
    rcases h with h | h <;> simp [h]
  have hself := modSteep_chan_self s ch (tickCounted (saffronAudio (s.chan ch)) body)
  have hne := fun m (hm : m ≠ ch) => modSteep_chan_ne s (tickCounted (saffronAudio (s.chan ch)) body) hm
  have hage : (s.modSteep ch (tickCounted (saffronAudio (s.chan ch)) body)).tickAge = s.tickAge := tickAge_setChan rfl
  simp only [State.release, decide_true, Bool.and_true, hbody]
  exact ⟨⟨_, congrArg (insertTask · _ s.mor.relQ) hage, rfl, rfl, rfl, rfl, rfl⟩, hself, hne, rfl⟩

theorem release_rd_ne (s : State) (ch : Nat) (kind : TaskKind) (tick share : Nat) (whole : List Byte) (pt ts : Nat) {d : RegDesc} {i j : Nat}
    (h : d.key i j ≠ stpRelqHwm.key 0 0) : (s.release ch kind tick share whole pt ts).rd d i j = s.rd d i j :=
  State.rd_wr_ne _ _ h

/-! #### How an offer ends -/

/-- The channel whose offer of number `seq` has ended as a task of kind `last`, its counters then `k`. -/
def offerEnded (seq : Nat) (last : TaskKind) (sid : Bool) (k : Counters) (c : Chan) : Chan :=
  { c with weld := spendStore seq c.weld, steep := { c.steep with offered := none, lastTask := last, lastSid := sid }, ctr := k }

/-- The counters after a frame that was missing and is concealed. -/
def countConcealed (k : Counters) : Counters := { k with missing := k.missing + 1, concealed := k.concealed + 1 }

/-- The counters after a frame that was missing and is recovered. -/
def countRecovered (k : Counters) : Counters := { k with missing := k.missing + 1, recovered := k.recovered + 1 }

/-- From `s` to `t` the offer of number `seq` on channel `ch` has ended: a task of kind `last` with payload `body` and type `pt` has entered
the release queue for `tick`, the store entry is spent and the channel's counters are `count` of what they were. -/
structure OfferEnds (ch seq tick : Nat) (last : TaskKind) (body : List Byte) (pt : Nat) (count : Counters → Counters) (s t : State) : Prop where
  offered : (t.chan ch).steep.offered = none
  lastTask : (t.chan ch).steep.lastTask = last
  ctr : (t.chan ch).ctr = count (s.chan ch).ctr
  store : (t.chan ch).weld.store = terase (s.chan ch).weld.store seq
  task : ∃ k : Task, t.mor.relQ = insertTask s.tickAge k s.mor.relQ ∧ k.ch = ch ∧ k.kind = last ∧ k.tick = tick ∧ k.payload = body ∧ k.pt = pt
  others : ∀ m, m ≠ ch → t.chan m = s.chan m
  frame : OnlyTick s t

section
variable {s : State} {ch seq ts tick : Nat}

/-- An offer's end is noted in its channel, then its task is released. -/
theorem offerEnds_release {body : List Byte} (h : saffronAudio (s.chan ch) = false ∨ body = []) (last : TaskKind) (sid : Bool) (pt : Nat)
    (count : Counters → Counters) : OfferEnds ch seq tick last body pt count s
      ((s.setChan ch (offerEnded seq last sid (count (s.chan ch).ctr) (s.chan ch))).release ch last tick 0 body pt ts) := by
  generalize hended : offerEnded seq last sid (count (s.chan ch).ctr) (s.chan ch) = c
  have hself := State.setChan_chan_self s ch c
  have hage : (s.setChan ch c).tickAge = s.tickAge := tickAge_setChan (by rw [← hended]; rfl)
  obtain ⟨⟨k, hk, htask⟩, hc, ho, hw⟩ := release_unsplit (s := s.setChan ch c) (by rw [hself, ← hended]; exact h) last tick pt ts
  rw [hself] at hc
  rw [hage] at hk
  exact {
    offered := by rw [hc, ← hended]; rfl
    lastTask := by rw [hc, ← hended]; rfl
    ctr := by rw [hc, ← hended]; rfl
    store := by rw [hc, ← hended]; rfl
    task := ⟨k, hk, htask⟩
    others := fun m hm => (ho m hm).trans (State.setChan_chan_ne s _ hm)
    frame := (OnlyTick.setChan s ch _).trans hw }

theorem concealOffer_eq (h : (s.chan ch).steep.offered = some (seq, ts, tick)) : s.concealOffer ch =
    (s.setChan ch (offerEnded seq .conceal false (countConcealed (s.chan ch).ctr) (s.chan ch))).release ch .conceal tick 0 [] 0 ts := by
  rw [State.concealOffer, h]
  rfl

theorem recoverOffer_eq (h : (s.chan ch).steep.offered = some (seq, ts, tick)) (body : List Byte) (pt : Nat) : s.recoverOffer ch body pt =
    (s.setChan ch (offerEnded seq .recovered (isSidFrame (s.chan ch) pt body) (countRecovered (s.chan ch).ctr) (s.chan ch))).release ch
      .recovered tick 0 body pt ts := by
  rw [State.recoverOffer, h]
  rfl

theorem concealOffer_ends (h : (s.chan ch).steep.offered = some (seq, ts, tick)) :
    OfferEnds ch seq tick .conceal [] 0 countConcealed s (s.concealOffer ch) := by
  rw [concealOffer_eq h]
  exact offerEnds_release (.inr rfl) ..

theorem recoverOffer_ends (h : (s.chan ch).steep.offered = some (seq, ts, tick)) (hf : saffronAudio (s.chan ch) = false) (body : List Byte)
    (pt : Nat) : OfferEnds ch seq tick .recovered body pt countRecovered s (s.recoverOffer ch body pt) := by
  rw [recoverOffer_eq h]
  exact offerEnds_release (.inl hf) ..

theorem concealOffer_rd_ne (h : (s.chan ch).steep.offered = some (seq, ts, tick)) {d : RegDesc} (hd : d.key 0 0 ≠ stpRelqHwm.key 0 0) :
    (s.concealOffer ch).rd d = s.rd d := by
  rw [concealOffer_eq h, release_rd_ne _ _ _ _ _ _ _ _ hd, State.setChan_rd]

theorem recoverOffer_rd_ne (h : (s.chan ch).steep.offered = some (seq, ts, tick)) (body : List Byte) (pt : Nat) {d : RegDesc}
    (hd : d.key 0 0 ≠ stpRelqHwm.key 0 0) : (s.recoverOffer ch body pt).rd d = s.rd d := by
  rw [recoverOffer_eq h, release_rd_ne _ _ _ _ _ _ _ _ hd, State.setChan_rd]

end

/-! #### What Weld counts before an offer ends -/

/-- From `s` to `u` nothing has changed but registers and a channel's statistics. -/
structure OnlyCounts (ch : Nat) (s u : State) : Prop where
  chan : u.chan ch = { s.chan ch with stats := (u.chan ch).stats }
  others : ∀ m, m ≠ ch → u.chan m = s.chan m
  frame : u = { s with chans := u.chans, regs := u.regs }

/-- An offer that ends after a count has ended all the same. -/
theorem OfferEnds.of_counts {ch seq tick pt : Nat} {last : TaskKind} {body : List Byte} {count : Counters → Counters} {s u t : State}
    (h : OfferEnds ch seq tick last body pt count u t) (hu : OnlyCounts ch s u) : OfferEnds ch seq tick last body pt count s t := by
  have hage : u.tickAge = s.tickAge := tickAge_congr (by rw [hu.frame]) fun m => by
    by_cases hm : m = ch
    · rw [hm, hu.chan]
    · rw [hu.others m hm]
  have hmor : u.mor = s.mor := by rw [hu.frame]
  have hframe : OnlyTick s u := by
    rw [OnlyTick, hmor]
    exact hu.frame
  exact {
    offered := h.offered
    lastTask := h.lastTask
    ctr := by rw [h.ctr, hu.chan]
    store := by rw [h.store, hu.chan]
    task := by rw [← hage, ← hmor]; exact h.task
    others := fun m hm => (h.others m hm).trans (hu.others m hm)
    frame := hframe.trans h.frame }

/-- The state that has counted an offer, and `n` redundant blocks skipped for their payload type. -/
def State.offerCounted (s : State) (n : Nat) : State := (s.bump wldOffers).bumpBy wldRedPtSkip n

/-- The state that has counted a recovery besides, in a counter of Weld's and in the channel's statistics. -/
def State.recoveryCounted (s : State) (n : Nat) (d : RegDesc) (ch : Nat) (f : Stats → Stats) : State :=
  ((s.offerCounted n).bump d).modStats ch f

section
variable (s : State) (n ch : Nat) (d : RegDesc) (f : Stats → Stats)

theorem offerCounted_onlyCounts : OnlyCounts ch s (s.offerCounted n) := ⟨rfl, fun _ _ => rfl, rfl⟩

theorem recoveryCounted_chan_self : (s.recoveryCounted n d ch f).chan ch = { s.chan ch with stats := f (s.chan ch).stats } :=
  State.modChan_chan_self ((s.offerCounted n).bump d) ch _

theorem recoveryCounted_onlyCounts : OnlyCounts ch s (s.recoveryCounted n d ch f) where
  chan := by rw [recoveryCounted_chan_self]
  others := fun _ hm => State.modChan_chan_ne ((s.offerCounted n).bump d) _ hm
  frame := rfl

theorem offerCounted_rd_wldOffers : (s.offerCounted n).rd wldOffers = (s.rd wldOffers + 1) % 2 ^ 64 :=
  (rd_bumpBy_ne _ n (by decide)).trans (State.rd_bump_self s wldOffers 0 0)

theorem offerCounted_rd_ne {e : RegDesc} (ho : e.key 0 0 ≠ wldOffers.key 0 0) (hs : e.key 0 0 ≠ wldRedPtSkip.key 0 0) :
    (s.offerCounted n).rd e = s.rd e :=
  (rd_bumpBy_ne _ n hs).trans (State.rd_bump_ne s ho)

end

/-! #### Weld's answer, case by case -/

/-- What Weld finds for a frame in the redundant blocks of the next three packets: the frame, and how many blocks it skips. -/
def weldRed (c : Chan) (seq ts : Nat) : Option (Nat × List Byte) × Nat :=
  redSearch c ts ([1, 2, 3].flatMap (fun k => storedBlocks c (seq + k))) 0

theorem weldOffer_none {s : State} {ch : Nat} (h : (s.chan ch).steep.offered = none) : weldOffer ch s = s := by
  simp [weldOffer, h]

section
variable {s : State} {ch seq ts tick : Nat} (ho : (s.chan ch).steep.offered = some (seq, ts, tick))
  (ht : s.tbVal (s.chan ch).tb ≤ tick + 8000)
include ho ht

theorem weldOffer_red {pt : Nat} {body : List Byte} (hr : (weldRed (s.chan ch) seq ts).1 = some (pt, body)) : weldOffer ch s =
    (s.recoveryCounted (weldRed (s.chan ch) seq ts).2 wldRedRecovered ch (fun x => { x with redRecovered := x.redRecovered + 1 })).recoverOffer
      ch body pt := by
  unfold weldRed at hr
  simp only [weldOffer, ho, Nat.not_lt.mpr ht, if_false, hr]
  rfl

theorem weldOffer_kept {pt : Nat} {body : List Byte} (hr : (weldRed (s.chan ch) seq ts).1 = none)
    (hk : (s.chan ch).weld.store.find? (fun e => e.1 = seq) = some (seq, (body, pt))) : weldOffer ch s =
    (s.recoveryCounted (weldRed (s.chan ch) seq ts).2 wldFfRecovered ch (fun x => { x with ffRecovered := x.ffRecovered + 1 })).recoverOffer
      ch body pt := by
  unfold weldRed at hr
  simp only [weldOffer, ho, Nat.not_lt.mpr ht, if_false, hr, hk]
  rfl

theorem weldOffer_unanswered (hr : (weldRed (s.chan ch) seq ts).1 = none)
    (hk : (s.chan ch).weld.store.find? (fun e => e.1 = seq) = none) :
    weldOffer ch s = (s.offerCounted (weldRed (s.chan ch) seq ts).2).concealOffer ch := by
  unfold weldRed at hr
  simp only [weldOffer, ho, Nat.not_lt.mpr ht, if_false, hr, hk]
  rfl

end

/-- An offer that Weld answers with a frame ends as recovered, and is counted in the counter of its source `d`. -/
theorem recoveryCounted_recovers {s : State} {ch seq ts tick : Nat} (ho : (s.chan ch).steep.offered = some (seq, ts, tick))
    (hf : saffronAudio (s.chan ch) = false) (n : Nat) (f : Stats → Stats) (body : List Byte) (pt : Nat) {d : RegDesc}
    (hd : d = wldRedRecovered ∨ d = wldFfRecovered) : let t := (s.recoveryCounted n d ch f).recoverOffer ch body pt
    OfferEnds ch seq tick .recovered body pt countRecovered s t ∧ t.rd wldOffers = (s.rd wldOffers + 1) % 2 ^ 64 ∧
      t.rd d = (s.rd d + 1) % 2 ^ 64 := by
  intro t
  have hself := recoveryCounted_chan_self s n ch d f
  have hu : ((s.recoveryCounted n d ch f).chan ch).steep.offered = some (seq, ts, tick) := by rw [hself]; exact ho
  have hsplit : saffronAudio ((s.recoveryCounted n d ch f).chan ch) = false := by rw [hself]; exact hf
  have hkeys : d.key 0 0 ≠ stpRelqHwm.key 0 0 ∧ d.key 0 0 ≠ wldOffers.key 0 0 ∧ d.key 0 0 ≠ wldRedPtSkip.key 0 0 ∧ d.width = 64 := by
    rcases hd with rfl | rfl <;> decide
  obtain ⟨hhwm, hoffers, hskip, hwidth⟩ := hkeys
  refine ⟨(recoverOffer_ends hu hsplit body pt).of_counts (recoveryCounted_onlyCounts s n ch d f), ?_, ?_⟩
  · calc t.rd wldOffers
      _ = ((s.offerCounted n).bump d).rd wldOffers := recoverOffer_rd_ne hu body pt (by decide)
      _ = (s.offerCounted n).rd wldOffers := State.rd_bump_ne _ hoffers.symm
      _ = (s.rd wldOffers + 1) % 2 ^ 64 := offerCounted_rd_wldOffers s n
  · calc t.rd d
      _ = ((s.offerCounted n).bump d).rd d := recoverOffer_rd_ne hu body pt hhwm
      _ = ((s.offerCounted n).rd d + 1) % 2 ^ 64 := by rw [State.rd_bump_self, hwidth]
      _ = (s.rd d + 1) % 2 ^ 64 := by rw [offerCounted_rd_ne s n hoffers hskip]

/-! #### Past the 8 µs -/

theorem weldAnswerTimeout_none {s : State} {ch : Nat} (h : (s.chan ch).steep.offered = none) : weldAnswerTimeout ch s = s := by
  simp [weldAnswerTimeout, h]

theorem weldAnswerTimeout_early {s : State} {ch seq ts tick : Nat} (h : (s.chan ch).steep.offered = some (seq, ts, tick))
    (ht : s.tbVal (s.chan ch).tb < tick + 8000) : weldAnswerTimeout ch s = s := by
  simp [weldAnswerTimeout, h, ht]

theorem weldAnswerTimeout_due {s : State} {ch seq ts tick : Nat} (h : (s.chan ch).steep.offered = some (seq, ts, tick))
    (ht : tick + 8000 ≤ s.tbVal (s.chan ch).tb) : weldAnswerTimeout ch s = s.concealOffer ch := by
  simp [weldAnswerTimeout, h, ht]

/-- Settles O45: each answer counts, then ends the offer with a frame or with none; past the 8 µs it ends with none. -/
theorem weldOfferRows : Obligations.WeldOfferRows := by
  refine ⟨fun ch s h => ⟨next_whileOn_same (weldOffer_none h), next_whileOn_same (weldAnswerTimeout_none h)⟩, ?_, ?_⟩
  · intro ch seq ts tick s c red kept after gave hon ho ht hf
    have recovers : ∀ (t : State) (d : RegDesc) (pt : Nat) (body : List Byte),
        (OfferEnds ch.val seq tick .recovered body pt countRecovered s t ∧ t.rd wldOffers = (s.rd wldOffers + 1) % 2 ^ 64 ∧
          t.rd d = (s.rd d + 1) % 2 ^ 64) → after t .recovered ∧ gave t pt body ∧ t.rd d = (s.rd d + 1) % 2 ^ 64 := by
      rintro t d pt body ⟨hend, hoffers, hd⟩
      exact ⟨⟨hend.offered, hend.lastTask, congrArg (·.missing) hend.ctr, hend.store, hoffers, hend.others, hend.frame⟩,
        ⟨congrArg (·.recovered) hend.ctr, congrArg (·.concealed) hend.ctr, hend.task⟩, hd⟩
    refine ⟨fun pt body hr => ⟨_, next_whileOn hon (weldOffer_red ho ht hr), recovers _ _ _ _ (recoveryCounted_recovers ho hf _ _ _ _ (.inl rfl))⟩,
      fun body pt hr hk => ⟨_, next_whileOn hon (weldOffer_kept ho ht hr hk), recovers _ _ _ _ (recoveryCounted_recovers ho hf _ _ _ _ (.inr rfl))⟩,
      fun hr hk => ⟨_, next_whileOn hon (weldOffer_unanswered ho ht hr hk), ?_⟩⟩
    have hend := (concealOffer_ends (s := s.offerCounted red.2) ho).of_counts (offerCounted_onlyCounts s red.2 ch.val)
    have hoffers := (concealOffer_rd_ne (s := s.offerCounted red.2) ho (d := wldOffers) (by decide)).trans (offerCounted_rd_wldOffers s red.2)
    obtain ⟨k, hk, hch, hkind, htick, -⟩ := hend.task
    exact ⟨⟨hend.offered, hend.lastTask, congrArg (·.missing) hend.ctr, hend.store, hoffers, hend.others, hend.frame⟩,
      congrArg (·.concealed) hend.ctr, congrArg (·.recovered) hend.ctr, k, hk, hch, hkind, htick⟩
  · intro ch seq ts tick s c hon ho
    refine ⟨fun ht => next_whileOn hon (weldAnswerTimeout_early ho ht), fun ht => ⟨_, next_whileOn hon (weldAnswerTimeout_due ho ht), ?_⟩⟩
    have hend := concealOffer_ends ho
    obtain ⟨k, hk, hch, hkind, htick, -⟩ := hend.task
    exact ⟨hend.offered, hend.lastTask, congrArg (·.missing) hend.ctr, congrArg (·.concealed) hend.ctr, hend.store, ⟨k, hk, hch, hkind, htick⟩,
      hend.others, hend.frame⟩

end Sys2Proof.Machine
end

section
/-! ### Weld: repair symbols, decode jobs and transmit blocks -/
namespace Sys2Proof.Machine
open Sys2Proof.Safety

/-! #### What the parts of Weld's rows change -/

section
variable (s : State) (ch : Nat)

theorem chanFree_chan_self (c n : Nat) : (s.chanFree c ch n).chan ch = { s.chan ch with ingressHeld := (s.chan ch).ingressHeld - n } :=
  State.modChan_chan_self ..

theorem chanFree_chan_ne (c n : Nat) {k : Nat} (h : k ≠ ch) : (s.chanFree c ch n).chan k = s.chan k := State.modChan_chan_ne _ _ h

theorem chanFree_heldOf_self (c n : Nat) : (s.chanFree c ch n).heldOf c = s.heldOf c - n := heldOf_freeBuf_self ..

theorem modWeld_chan_self (f : Weld → Weld) : (s.modWeld ch f).chan ch = { s.chan ch with weld := f (s.chan ch).weld } :=
  State.modChan_chan_self ..

theorem modWeld_chan_ne (f : Weld → Weld) {k : Nat} (h : k ≠ ch) : (s.modWeld ch f).chan k = s.chan k := State.modChan_chan_ne _ _ h

theorem modStats_chan_self (f : Stats → Stats) : (s.modStats ch f).chan ch = { s.chan ch with stats := f (s.chan ch).stats } :=
  State.modChan_chan_self ..

theorem modStats_chan_ne (f : Stats → Stats) {k : Nat} (h : k ≠ ch) : (s.modStats ch f).chan k = s.chan k := State.modChan_chan_ne _ _ h

end

/-- A key reads as listed once a value is inserted at it, and the entry is the one inserted. -/
theorem any_tins {α : Type} (t : Tbl α) (k : Nat) (v : α) {q : Nat × α → Bool} (h : q (k, v) = true) : (tins t k v).any q = true := by
  induction t with
  | nil => simp [tins, h]
  | cons e r ih =>
    obtain ⟨k', w⟩ := e
    unfold tins
    split
    · simp [h]
    · split
      · simp [h]
      · simp [ih]

/-! #### Repair symbols -/

/-- Queuing a decode job touches Weld's queue and registers alone (R147). -/
theorem queueDecode_frame (s : State) (ch sbn : Nat) :
    s.queueDecode ch sbn = { s with weldU := (s.queueDecode ch sbn).weldU, regs := (s.queueDecode ch sbn).regs } := by
  unfold State.queueDecode
  dsimp only
  split
  · rfl
  · split
    · rfl
    · split <;> rfl

/-- A block once a symbol has reached the store for the block of an SBN: `k` from a repair symbol, `first` from a source symbol (R146). -/
def symbolPut (sbn esi : Nat) (k first : Option Nat) (sym : List Byte) (b : FecBlock) : FecBlock :=
  if b.sbn = sbn then
    { b with symbols := if b.symbols.any (fun e => e.1 = esi) then b.symbols else tins b.symbols esi sym,
             k := k.getD b.k, firstSeq := match b.firstSeq with
               | none => first
               | some q => some q }
  else b

theorem symbolPut_sbn (sbn esi : Nat) (k first : Option Nat) (sym : List Byte) (b : FecBlock) : (symbolPut sbn esi k first sym b).sbn = b.sbn := by
  unfold symbolPut
  split <;> rfl

/-- A channel's blocks once a symbol has been put. -/
def symbolIn (sbn esi : Nat) (k first : Option Nat) (sym : List Byte) (w : Weld) : Weld :=
  { w with blocks := w.blocks.map (symbolPut sbn esi k first sym) }

/-- A new symbol is read under its ESI in its block, which takes its `k`. -/
theorem symbolPut_new {sbn esi k : Nat} {first : Option Nat} {b : FecBlock} (sym : List Byte) (hb : b.sbn = sbn)
    (hnew : b.symbols.any (fun e => e.1 = esi) = false) :
    tget (symbolPut sbn esi (some k) first sym b).symbols esi [] = sym ∧ (symbolPut sbn esi (some k) first sym b).k = k := by
  simp [symbolPut, hb, hnew]

/-- The block of an SBN is found again after a symbol has been put. -/
theorem find_symbolPut (sbn esi : Nat) (k first : Option Nat) (sym : List Byte) (l : List FecBlock) :
    (l.map (symbolPut sbn esi k first sym)).find? (fun x => x.sbn = sbn) =
      (l.find? (fun x => x.sbn = sbn)).map (symbolPut sbn esi k first sym) := by
  rw [List.find?_map]
  simp only [Function.comp_def, symbolPut_sbn]

section
variable {s : State} {ch : Nat}

/-- A symbol of an open block opens none (R146). -/
theorem putSymbol_open {sbn esi : Nat} {k first : Option Nat} {sym : List Byte} {b : FecBlock}
    (hb : (s.chan ch).weld.blocks.find? (fun x => x.sbn = sbn) = some b) : s.putSymbol ch sbn esi k first sym =
    (s.modWeld ch (symbolIn sbn esi k first sym)).queueDecode ch sbn := by
  have hopen : s.openBlock ch sbn = some s := by
    have hany : (s.chan ch).weld.blocks.any (fun x => x.sbn = sbn) = true :=
      List.any_eq_true.mpr ⟨b, List.mem_of_find?_eq_some hb, List.find?_some (p := fun x : FecBlock => decide (x.sbn = sbn)) hb⟩
    simp only [State.openBlock, hany, if_true]
  rw [State.putSymbol, hopen]
  rfl

/-- A new repair symbol of an open block is kept under its ESI (R146). -/
theorem putSymbol_keeps {sbn esi k : Nat} {sym : List Byte} {b : FecBlock} (hb : (s.chan ch).weld.blocks.find? (fun x => x.sbn = sbn) = some b)
    (hnew : b.symbols.any (fun e => e.1 = esi) = false) :
    let t := s.putSymbol ch sbn esi (some k) none sym
    ((t.chan ch).weld.blocks.find? (fun x => x.sbn = sbn)).any (fun x => decide (tget x.symbols esi [] = sym ∧ x.k = k)) = true ∧
    (∀ m, m ≠ ch → t.chan m = s.chan m) ∧ t = { s with chans := t.chans, weldU := t.weldU, regs := t.regs } := by
  have hput := symbolPut_new (k := k) (first := none) sym (by simpa using List.find?_some hb) hnew
  have hself := modWeld_chan_self s ch (symbolIn sbn esi (some k) none sym)
  have hqueue := queueDecode_frame (s.modWeld ch (symbolIn sbn esi (some k) none sym)) ch sbn
  have hchan : ∀ m, ((s.modWeld ch (symbolIn sbn esi (some k) none sym)).queueDecode ch sbn).chan m =
      (s.modWeld ch (symbolIn sbn esi (some k) none sym)).chan m := fun m => by rw [hqueue]; rfl
  simp only [putSymbol_open hb, hchan]
  refine ⟨?_, fun m hm => modWeld_chan_ne s ch _ hm, ?_⟩
  · rw [hself, symbolIn, find_symbolPut, hb, Option.map_some, Option.any_some, decide_eq_true hput]
  · rw [hqueue]
    rfl

/-- The state once the oldest packet of a channel's repair flow has left Weld's input and freed its buffers (R144). -/
def State.repairTaken (s : State) (ch : Nat) (k : RepairIn) : State :=
  State.chanFree { s with ing := { s.ing with weldIn := s.ing.weldIn.erase k } } 0 ch k.buffers

theorem repairTaken_chan_self (k : RepairIn) :
    (s.repairTaken ch k).chan ch = { s.chan ch with ingressHeld := (s.chan ch).ingressHeld - k.buffers } := chanFree_chan_self ..

theorem repairSymbolReceive_idle (r : RepairPacket) (h : s.ing.weldIn.find? (fun k => k.ch = ch) = none) : repairSymbolReceive ch r s = s := by
  simp only [repairSymbolReceive, h]

theorem repairSymbolReceive_packet {r : RepairPacket} {k : RepairIn} (hk : s.ing.weldIn.find? (fun k => k.ch = ch) = some k)
    (hr : repairParse k.payload = some r) : repairSymbolReceive ch r s = (s.repairTaken ch k).repairWrite ch r := by
  simp only [repairSymbolReceive, hk, hr, if_true]
  rfl

theorem repairWrite_off {r : RepairPacket} (h : (fecFor (s.chan ch).weld r.sbn.toNat).rxFec < 2) : s.repairWrite ch r = s := by
  simp [State.repairWrite, h]

/-- A repair packet that the store takes: its channel is in use and receives FECFRAME, its symbol has the block's size and lies beyond the
source symbols (R146, log 103). -/
structure RepairFits (c : Chan) (r : RepairPacket) : Prop where
  inUse : c.st = .open ∨ c.st = .bound
  received : 2 ≤ (fecFor c.weld r.sbn.toNat).rxFec
  size : r.symbol.length = (fecFor c.weld r.sbn.toNat).ffE
  beyond : r.k ≤ r.esi
  source : r.k ≤ (fecFor c.weld r.sbn.toNat).ffK

theorem repairWrite_fits {r : RepairPacket} (h : RepairFits (s.chan ch) r) :
    s.repairWrite ch r = s.putSymbol ch r.sbn.toNat r.esi (some r.k) none r.symbol := by
  obtain ⟨hst, hrx, hsize, hbeyond, hk⟩ := h
  have huse : ((s.chan ch).st = .open || (s.chan ch).st = .bound) = true := by simpa using hst
  simp only [State.repairWrite, huse, hrx, hsize, hbeyond, hk, decide_true, Bool.and_self, if_true]

end

/-! #### Decode jobs -/

/-- The job of a unit once it has read its block: the symbols its passes solve (R148). -/
def jobOf (j : DecodeJob) (b : FecBlock) : DecodeJob :=
  let q := decodeRun b.par b.k ((b.par.ffR * b.k + b.par.ffK - 1) / b.par.ffK) b.par.maxPasses b.symbols
  let new := q.1.filter (fun e => !b.symbols.any (fun x => x.1 = e.1))
  { j with solved := new.filter (fun e => decide (e.1 < b.k)), all := new, passes := q.2 }

section
variable {s : State} {u : Nat} {j : DecodeJob}

theorem decodeJobStart_idle (h : s.weldU.queue = [] ∨ s.weldU.running.any (fun e => e.1 = u) = true) : decodeJobStart u s = s := by
  cases hq : s.weldU.queue with
  | nil => simp only [decodeJobStart, hq]
  | cons j rest => simp only [decodeJobStart, hq, h.resolve_left (by simp [hq]), if_true]

variable {rest : List DecodeJob} (hq : s.weldU.queue = j :: rest) (hfree : s.weldU.running.any (fun e => e.1 = u) = false)
include hq hfree

theorem decodeJobStart_gone (hb : (s.chan j.ch).weld.blocks.find? (fun b => b.sbn = j.sbn) = none) :
    decodeJobStart u s = { s with weldU := { s.weldU with queue := rest } } := by
  simp only [decodeJobStart, hq, hfree, hb, Bool.false_eq_true, if_false]

theorem decodeJobStart_block {b : FecBlock} (hb : (s.chan j.ch).weld.blocks.find? (fun b => b.sbn = j.sbn) = some b) :
    decodeJobStart u s = (State.bump { s with weldU := { s.weldU with queue := rest, running := tins s.weldU.running u (jobOf j b) } }
      wldDecodeJobs).bumpBy wldPasses (jobOf j b).passes := by
  simp only [decodeJobStart, hq, hfree, hb, Bool.false_eq_true, if_false]
  rfl

end

/-- The state once a unit runs nothing. -/
def State.unitFreed (s : State) (u : Nat) : State := { s with weldU := { s.weldU with running := terase s.weldU.running u } }

/-- What a unit solved that no other job has solved before it (R148). -/
def ownSolved (j : DecodeJob) (b : FecBlock) : List (Nat × List Byte) := j.solved.filter (fun e => !b.symbols.any (fun x => x.1 = e.1))

/-- A block once a job that solved the symbols `own` for it has ended: what the job knows stays known (R148). -/
def jobKept (j : DecodeJob) (own : List (Nat × List Byte)) (b : FecBlock) : FecBlock :=
  if b.sbn = j.sbn then
    { b with symbols := j.all.foldl (fun (t : Tbl (List Byte)) (e : Nat × List Byte) => if t.any (fun y => y.1 = e.1) then t else tins t e.1 e.2) b.symbols,
             solved := b.solved ++ own.map (fun (e : Nat × List Byte) => e.1), jobs := b.jobs + 1 }
  else b

/-- The state once the end of a job is noted in its block and its passes in the channel's statistics. -/
def State.jobNoted (s : State) (j : DecodeJob) (own : List (Nat × List Byte)) : State :=
  (s.modWeld j.ch (fun w => { w with blocks := w.blocks.map (jobKept j own) })).modStats j.ch (fun x => { x with maxPasses := max x.maxPasses j.passes })

section
variable (s : State) (j : DecodeJob) (own : List (Nat × List Byte))

theorem jobNoted_chan_self : (s.jobNoted j own).chan j.ch = { s.chan j.ch with
    weld := { (s.chan j.ch).weld with blocks := (s.chan j.ch).weld.blocks.map (jobKept j own) }
    stats := { (s.chan j.ch).stats with maxPasses := max (s.chan j.ch).stats.maxPasses j.passes } } := by
  rw [State.jobNoted, modStats_chan_self, modWeld_chan_self]

theorem jobNoted_chan_ne {k : Nat} (h : k ≠ j.ch) : (s.jobNoted j own).chan k = s.chan k := by
  rw [State.jobNoted, modStats_chan_ne _ _ _ h, modWeld_chan_ne _ _ _ h]

end

section
variable {s : State} {u : Nat} {j : DecodeJob} (hrun : s.weldU.running.find? (fun e => e.1 = u) = some (u, j))
include hrun

theorem decodeJobEnd_gone (hb : (s.chan j.ch).weld.blocks.find? (fun b => b.sbn = j.sbn) = none) : decodeJobEnd u s = s.unitFreed u := by
  have hb' : ((s.unitFreed u).chan j.ch).weld.blocks.find? (fun b => b.sbn = j.sbn) = none := hb
  rw [State.unitFreed] at hb' ⊢
  simp only [decodeJobEnd, hrun, hb']

/-- A job whose block is open frees its unit, is noted, and hands on what it alone has solved, in order. -/
theorem decodeJobEnd_block {b : FecBlock} (hb : (s.chan j.ch).weld.blocks.find? (fun b => b.sbn = j.sbn) = some b) :
    decodeJobEnd u s = (ownSolved j b).foldl (fun t e => t.solvedPacket j.ch b.firstSeq e) ((s.unitFreed u).jobNoted j (ownSolved j b)) := by
  have hb' : ((s.unitFreed u).chan j.ch).weld.blocks.find? (fun b => b.sbn = j.sbn) = some b := hb
  rw [State.unitFreed] at hb'
  simp only [decodeJobEnd, hrun, hb']
  rfl

end

/-- A recovered packet that the store of an unprotected channel takes whole: it is valid, ahead of its tick and not in the ring, and no
RFC 2198 header is read (R140, R148). -/
structure RecoveredFits (c : Chan) (seq : Nat) (pkt : List Byte) : Prop where
  unprotected : c.srx.current = none
  valid : rtpValid pkt = true
  ahead : tickAhead c seq = true
  absent : c.steep.ring.any (fun x => x.2.seq = seq) = false
  whole : redRead c = false

/-- The packet that a source symbol stands for: its bytes less the padding of its ADUI (R145). -/
def symbolPacket (sym : List Byte) : List Byte := (sym.drop 3).take (be16 sym 1)

/-- A solved packet whose number is known enters the recovery store under it. -/
theorem solvedPacket_fits {s : State} {ch q : Nat} {e : Nat × List Byte} (h : RecoveredFits (s.chan ch) (q + e.1) (symbolPacket e.2)) :
    s.solvedPacket ch (some q) e = s.modWeld ch (fun w => { w with
      store := tins w.store (q + e.1) (rtpPayload (symbolPacket e.2), rtpPt (symbolPacket e.2)) }) := by
  obtain ⟨hplain, hvalid, hahead, habsent, hwhole⟩ := h
  have hsolved : s.solvedPacket ch (some q) e = s.storeRecovered ch (q + e.1) (symbolPacket e.2) := by
    simp only [State.solvedPacket, hplain, symbolPacket]
  rw [hsolved]
  simp [State.storeRecovered, hvalid, hahead, habsent, hwhole]

/-! #### Transmit blocks -/

/-- A channel whose transmit block has closed: the next SBN, and the settings that waited (R152, R153). -/
def blockClosed (c : Chan) : Chan :=
  { c with weld := { c.weld with
    txBlock := [], txSbn := c.weld.txSbn + 1, txFf := c.weld.txNext.getD c.weld.txFf, txNext := none
    txRepair := if c.weld.txNext.isSome then c.repair else c.weld.txRepair } }

section
variable {s : State} {ch : Nat}

/-- Without a repair template a block closes without repair packets. -/
theorem closeTxBlock_bare (hblock : (s.chan ch).weld.txBlock ≠ []) (h : (s.chan ch).weld.txRepair = none) :
    s.closeTxBlock ch = s.modChan ch blockClosed := by
  simp only [State.closeTxBlock, List.isEmpty_eq_false_iff.mpr hblock, h, Bool.false_eq_true, if_false, State.modChan, blockClosed]

theorem ffBlockTimeout_idle (h : (s.chan ch).weld.txBlock = [] ∨ s.now < (s.chan ch).weld.txFirstAt + ms (s.chan ch).weld.txFf.timeout) :
    ffBlockTimeout ch s = s := by
  rcases h with h | h <;> simp [ffBlockTimeout, h]

/-- What takes no buffers of egress does not wait for room. -/
theorem waitEgr_of_heldOf {t : State} (ht : t.heldOf 3 = s.heldOf 3) (h : s.admits 3 0 = true) : waitEgr s t = t := by
  rw [waitEgr, ht, Nat.sub_self, if_pos h]

/-- A block without a repair template closes once its time has come (R152). -/
theorem ffBlockTimeout_bare (hblock : (s.chan ch).weld.txBlock ≠ [])
    (hdue : (s.chan ch).weld.txFirstAt + ms (s.chan ch).weld.txFf.timeout ≤ s.now) (hrep : (s.chan ch).weld.txRepair = none)
    (hroom : s.admits 3 0 = true) : ffBlockTimeout ch s = s.modChan ch blockClosed := by
  have hdone : waitEgr s (s.modChan ch blockClosed) = s.modChan ch blockClosed := waitEgr_of_heldOf rfl hroom
  simp [ffBlockTimeout, hblock, hdue, closeTxBlock_bare hblock hrep, hdone]

end

/-! #### FEC_SET -/

section
variable {c : HostCmd} {gs : List Grp} {s : State} (hgs : s.groupsOf c [10, 11] [10] = .ok gs) (hrep : grpOf gs 11 = none)
  (htx : (fecOf (grp gs 10)).txFec < 2)
include hgs hrep htx

theorem applyFec_notOpen (hopen : (s.chan (chanOf c)).st ≠ .open) (hbound : (s.chan (chanOf c)).st ≠ .bound) :
    applyFec c s = .refuse stBAD_STATE 0 := by
  simp [applyFec, bits_chanOf, hgs, hrep, Nat.not_le.mpr htx, hopen, hbound]

/-- Settings that receive no FECFRAME and find their store reserved take force, where the flow table stays (R153). -/
theorem applyFec_inForce {t : State} (hrx : (fecOf (grp gs 10)).rxFec < 2) (hst : (s.chan (chanOf c)).st = .open ∨ (s.chan (chanOf c)).st = .bound)
    (hroom : s.canReserve (blockStoreBytes (fecOf (grp gs 10)) - (s.chan (chanOf c)).weld.reserved) = true)
    (hflows : (s.flowsOfChan (chanOf c)).filter (fun e => e.kind = 2) = []) (hinstall : s.installFlows [] [] = some t) :
    applyFec c s = .publish (t.modChan (chanOf c) (withFec (fecOf (grp gs 10)) none)) [chanOf c] := by
  have hstate : ((s.chan (chanOf c)).st != .open && (s.chan (chanOf c)).st != .bound) = false := by
    rcases hst with h | h <;> simp [h]
  simp [applyFec, bits_chanOf, hgs, hrep, Nat.not_le.mpr htx, Nat.not_le.mpr hrx, hstate, hroom, hflows, hinstall, State.keyClash]

end

/-- Settles O46: each row's own rule for the packet, the job or the block it finds. -/
theorem blockDecodeRows : Obligations.BlockDecodeRows := by
  refine ⟨fun ch r s h => next_whileOn_same (repairSymbolReceive_idle r h), ?_, ?_,
    fun u s h => next_whileOn_same (decodeJobStart_idle h), ?_, ?_, ?_⟩
  · intro ch r k s c f freed hon hk hr
    have hrun := repairSymbolReceive_packet hk hr
    have hchan := repairTaken_chan_self (s := s) (ch := ch.val) k
    refine ⟨fun hoff => next_whileOn hon (hrun.trans (repairWrite_off (by rw [hchan]; exact hoff))), fun b hst hrx hsize hesi hk' hb hnew => ?_⟩
    rw [repairWrite_fits (by rw [hchan]; exact ⟨hst, hrx, hsize, hesi, hk'⟩)] at hrun
    obtain ⟨hkept, hothers, hframe⟩ := putSymbol_keeps (s := s.repairTaken ch.val k) (ch := ch.val) (k := r.k) (sym := r.symbol)
      (by rw [hchan]; exact hb) hnew
    generalize (s.repairTaken ch.val k).putSymbol ch.val _ _ _ _ _ = t at *
    have hing : t.ing = (s.repairTaken ch.val k).ing := by rw [hframe]
    have hheld : t.heldOf 0 = (s.repairTaken ch.val k).heldOf 0 := by rw [hframe]; rfl
    exact ⟨t, next_whileOn hon hrun, hkept, by rw [hing]; rfl, hheld.trans (chanFree_heldOf_self ..),
      fun m hm => (hothers m hm).trans (chanFree_chan_ne _ _ _ _ hm), by rw [hing]; exact hframe⟩
  · intro u j rest s hon hq hfree blk
    refine ⟨fun hb => next_whileOn hon (decodeJobStart_gone hq hfree hb), fun hb => ?_⟩
    obtain ⟨b, hb⟩ := Option.ne_none_iff_exists'.mp hb
    exact ⟨_, next_whileOn hon (decodeJobStart_block hq hfree hb), rfl, any_tins _ _ _ (by simp [jobOf]),
      (rd_bumpBy_ne _ _ (by decide)).trans (State.rd_bump_self _ wldDecodeJobs 0 0), rfl⟩
  · intro u j s hon hrun blk freed
    refine ⟨fun hb => next_whileOn hon (decodeJobEnd_gone hrun hb), fun hb hsolved => ?_, ?_⟩
    · obtain ⟨b, hb⟩ := Option.ne_none_iff_exists'.mp hb
      have hend := decodeJobEnd_block hrun hb
      have hself := jobNoted_chan_self (s.unitFreed u.val) j []
      rw [ownSolved, hsolved] at hend
      exact ⟨_, next_whileOn hon hend, rfl, congrArg (·.stats.maxPasses) hself, congrArg (·.weld.store) hself,
        fun m hm => jobNoted_chan_ne _ _ _ hm, rfl⟩
    · intro b e q sym hb hsolved hnew hfirst c pkt hplain hvalid hahead habsent hwhole
      have hend := decodeJobEnd_block hrun hb
      have hself := jobNoted_chan_self (s.unitFreed u.val) j [(e, sym)]
      have hown : ownSolved j b = [(e, sym)] := by simp [ownSolved, hsolved, hnew]
      rw [hown, hfirst, List.foldl_cons, List.foldl_nil, solvedPacket_fits (by rw [hself]; exact ⟨hplain, hvalid, hahead, habsent, hwhole⟩)] at hend
      refine ⟨_, next_whileOn hon hend, rfl, ?_, fun m hm => (modWeld_chan_ne _ _ _ hm).trans (jobNoted_chan_ne _ _ _ hm), rfl⟩
      rw [modWeld_chan_self, hself]
      rfl
  · intro ch s w
    refine ⟨fun h => next_whileOn_same (ffBlockTimeout_idle h), fun hon hblock hdue hrep hroom => ?_⟩
    have hself := State.modChan_chan_self s ch.val blockClosed
    exact ⟨_, next_whileOn hon (ffBlockTimeout_bare hblock hdue hrep hroom), congrArg (·.weld.txBlock) hself,
      congrArg (·.weld.txSbn) hself, congrArg (·.weld.txFf) hself, congrArg (·.weld.txNext) hself, fun m hm => State.modChan_chan_ne s _ hm, rfl⟩
  · intro c gs s ch f old hruns hgs hrep htx
    exact ⟨fun hopen hbound => next_refuse hruns (applyFec_notOpen hgs hrep htx hopen hbound),
      fun hrx hst hroom hflows hinstall => next_publish hruns (applyFec_inForce hgs hrep htx hrx hst hroom hflows hinstall)⟩

end Sys2Proof.Machine
end

section
/-! ### Echo cancellation: the ends of holds, Woad's searches and EC_SET -/
namespace Sys2Proof.Machine
open Sys2Proof.Safety

theorem modEcho_chan_self (s : State) (ch : Nat) (f : Echo → Echo) : (s.modEcho ch f).chan ch = { s.chan ch with echo := f (s.chan ch).echo } :=
  State.modChan_chan_self ..

/-! #### The ends of holds -/

section
variable (s : State) (ch : Nat)

theorem nlpUpdate_chan_self : (s.nlpUpdate ch).chan ch =
    { s.chan ch with echo := { (s.chan ch).echo with nlp := nlpActs (s.chan ch) (s.tbVal (s.chan ch).tb) } } := State.modChan_chan_self ..

theorem nlpUpdate_chan_ne {k : Nat} (h : k ≠ ch) : (s.nlpUpdate ch).chan k = s.chan k := State.modChan_chan_ne _ _ h

theorem nlpHoldEnd_eq : nlpHoldEnd ch s =
    if (s.chan ch).echo.holdUntil.any (fun t => decide (t ≤ s.tbVal (s.chan ch).tb)) = true
      then (s.modEcho ch (fun e => { e with holdUntil := none })).nlpUpdate ch else s := by
  cases h : (s.chan ch).echo.holdUntil with
  | none => simp [nlpHoldEnd, h]
  | some t => simp [nlpHoldEnd, h]

theorem doubleTalkEnd_eq : doubleTalkEnd ch s =
    if (s.chan ch).echo.doubleTalk = true ∧ (s.chan ch).echo.dtUntil ≤ s.tbVal (s.chan ch).tb
      then (s.modEcho ch (fun e => { e with doubleTalk := false })).nlpUpdate ch else s := by
  simp [doubleTalkEnd]

theorem nlpHangEnd_eq : nlpHangEnd ch s =
    if (s.chan ch).echo.nlp = true ∧ (s.chan ch).echo.rinActive = false ∧ (s.chan ch).echo.nlpUntil ≤ s.tbVal (s.chan ch).tb
      then s.nlpUpdate ch else s := by
  simp [nlpHangEnd, and_assoc]

end

/-! #### Searches -/

/-- A channel once its search is taken by a searcher that serves `n` channels: it is counted, and the next one set (R163). -/
def searchTaken (n : Nat) (c : Chan) : Chan :=
  { c with echo := { c.echo with nextSearch := c.echo.nextSearch + searchInterval n }, stats := { c.stats with searches := c.stats.searches + 1 } }

/-- The state once a search is taken, before what it yields (R163). -/
def State.searchBegun (s : State) (ch q : Nat) : State :=
  let u := (s.bump wodSearches q).modChan ch (searchTaken (s.woadLoad q))
  if s.woadLoad q > 32768 then u.bump wodStretch q else u

section
variable (s : State) (ch q : Nat)

theorem searchBegun_chans : (s.searchBegun ch q).chans = (s.modChan ch (searchTaken (s.woadLoad q))).chans := by
  unfold State.searchBegun
  dsimp only
  split <;> rfl

theorem searchBegun_frame : s.searchBegun ch q = { s with chans := (s.searchBegun ch q).chans, regs := (s.searchBegun ch q).regs } := by
  unfold State.searchBegun
  dsimp only
  split <;> rfl

theorem searchBegun_chan_self : (s.searchBegun ch q).chan ch = searchTaken (s.woadLoad q) (s.chan ch) := by
  rw [State.chan, searchBegun_chans]
  exact State.modChan_chan_self ..

theorem searchBegun_chan_ne {k : Nat} (h : k ≠ ch) : (s.searchBegun ch q).chan k = s.chan k := by
  rw [State.chan, searchBegun_chans]
  exact State.modChan_chan_ne _ _ h

theorem rd_searchBegun_searches : (s.searchBegun ch q).rd wodSearches q = (s.rd wodSearches q + 1) % 2 ^ 64 := by
  have hcount : ((s.bump wodSearches q).modChan ch (searchTaken (s.woadLoad q))).rd wodSearches q = (s.rd wodSearches q + 1) % 2 ^ 64 :=
    State.rd_bump_self s wodSearches q 0
  unfold State.searchBegun
  dsimp only
  split
  · exact (State.rd_bump_ne _ (RegDesc.key_ne_of_step wodSearches wodStretch q)).trans hcount
  · exact hcount

theorem rd_searchBegun_noEst : (s.searchBegun ch q).rd wodNoEst q = s.rd wodNoEst q := by
  have hkeep : ((s.bump wodSearches q).modChan ch (searchTaken (s.woadLoad q))).rd wodNoEst q = s.rd wodNoEst q :=
    State.rd_bump_ne s (RegDesc.key_ne_of_step wodNoEst wodSearches q)
  unfold State.searchBegun
  dsimp only
  split
  · exact (State.rd_bump_ne _ (RegDesc.key_ne_of_step wodNoEst wodStretch q)).trans hkeep
  · exact hkeep

end

/-- The peaks of a search are those the canceller has (R161). -/
def peaksIn (p1 : Nat × Nat) (p2 : Option (Nat × Nat)) (e : Echo) : Echo :=
  { e with lastP1 := some p1.1, lastP2 := p2.map (·.1), p1Corr := p1.2, p2Corr := (p2.map (·.2)).getD 0 }

/-- The state once a search has left its peaks, before they are confirmed (R161). -/
def State.peaksLeft (s : State) (ch q : Nat) (p1 : Nat × Nat) (p2 : Option (Nat × Nat)) : State :=
  (s.searchBegun ch q).modEcho ch (peaksIn p1 p2)

theorem peaksLeft_chan_self (s : State) (ch q : Nat) (p1 : Nat × Nat) (p2 : Option (Nat × Nat)) : (s.peaksLeft ch q p1 p2).chan ch =
    { searchTaken (s.woadLoad q) (s.chan ch) with echo := peaksIn p1 p2 (searchTaken (s.woadLoad q) (s.chan ch)).echo } := by
  rw [State.peaksLeft, modEcho_chan_self, searchBegun_chan_self]

/-- Peaks are confirmed for placement by a quadrant's searcher, and counted (R162). -/
def State.confirmPeaks (s : State) (ch q : Nat) (p1 : Nat) (p2 : Option Nat) : State :=
  ((s.bump wodConfirmed q).modChan ch (fun c => { c with stats := { c.stats with confirms := c.stats.confirms + 1 } })).modEcho ch
    (fun e => { e with confirmed := some (p1, p2, e.placeGen) })

theorem confirmPeaks_chan_self (s : State) (ch q p1 : Nat) (p2 : Option Nat) : (s.confirmPeaks ch q p1 p2).chan ch =
    { s.chan ch with echo := { (s.chan ch).echo with confirmed := some (p1, p2, (s.chan ch).echo.placeGen) }
                     stats := { (s.chan ch).stats with confirms := (s.chan ch).stats.confirms + 1 } } := by
  rw [State.confirmPeaks, modEcho_chan_self, State.modChan_chan_self, State.bump_chan]

theorem rd_confirmPeaks_noEst (s : State) (ch q p1 : Nat) (p2 : Option Nat) : (s.confirmPeaks ch q p1 p2).rd wodNoEst q = s.rd wodNoEst q :=
  State.rd_bump_ne s (RegDesc.key_ne_of_step wodNoEst wodConfirmed q)

/-- A search taken from `s` is counted for its channel and its searcher, the next one is set, and nothing but the channel and registers has
changed (R163). -/
structure SearchCounted (s : State) (ch q : Nat) (t : State) : Prop where
  next : (t.chan ch).echo.nextSearch = (s.chan ch).echo.nextSearch + searchInterval (s.woadLoad q)
  searches : (t.chan ch).stats.searches = (s.chan ch).stats.searches + 1
  searcher : t.rd wodSearches q = (s.rd wodSearches q + 1) % 2 ^ 64
  others : ∀ k, k ≠ ch → t.chan k = s.chan k
  frame : t = { s with chans := t.chans, regs := t.regs }

theorem searchCounted_begun (s : State) (ch q : Nat) : SearchCounted s ch q (s.searchBegun ch q) where
  next := congrArg (·.echo.nextSearch) (searchBegun_chan_self s ch q)
  searches := congrArg (·.stats.searches) (searchBegun_chan_self s ch q)
  searcher := rd_searchBegun_searches s ch q
  others _ hk := searchBegun_chan_ne s ch q hk
  frame := searchBegun_frame s ch q

section
variable {s t : State} {ch q : Nat} (h : SearchCounted s ch q t)
include h

/-- What a counted search changes further in its channel leaves it counted, where the next search and the count stand. -/
theorem SearchCounted.modChan {f : Chan → Chan} (hnext : (f (t.chan ch)).echo.nextSearch = (t.chan ch).echo.nextSearch)
    (hsearches : (f (t.chan ch)).stats.searches = (t.chan ch).stats.searches) : SearchCounted s ch q (t.modChan ch f) where
  next := by rw [State.modChan_chan_self, hnext, h.next]
  searches := by rw [State.modChan_chan_self, hsearches, h.searches]
  searcher := h.searcher
  others k hk := (State.modChan_chan_ne t f hk).trans (h.others k hk)
  frame := congrArg (fun u : State => { u with chans := (t.modChan ch f).chans }) h.frame

/-- A counter of the searcher other than that of its searches leaves the search counted. -/
theorem SearchCounted.bump {d : RegDesc} (hd : wodSearches.key q 0 ≠ d.key q 0) : SearchCounted s ch q (t.bump d q) where
  next := by rw [State.bump_chan, h.next]
  searches := by rw [State.bump_chan, h.searches]
  searcher := (State.rd_bump_ne t hd).trans h.searcher
  others k hk := (State.bump_chan ..).trans (h.others k hk)
  frame := congrArg (fun u : State => { u with regs := (t.bump d q).regs }) h.frame

theorem SearchCounted.modEcho {f : Echo → Echo} (hnext : ∀ e, (f e).nextSearch = e.nextSearch) : SearchCounted s ch q (t.modEcho ch f) :=
  h.modChan (hnext _) rfl

theorem SearchCounted.confirmPeaks (p1 : Nat) (p2 : Option Nat) : SearchCounted s ch q (t.confirmPeaks ch q p1 p2) := by
  have hbump := h.bump (RegDesc.key_ne_of_step wodSearches wodConfirmed q)
  rw [State.confirmPeaks]
  exact (hbump.modChan rfl rfl).modEcho fun _ => rfl

end

theorem searchCounted_peaksLeft (s : State) (ch q : Nat) (p1 : Nat × Nat) (p2 : Option (Nat × Nat)) :
    SearchCounted s ch q (s.peaksLeft ch q p1 p2) := by
  rw [State.peaksLeft]
  exact (searchCounted_begun s ch q).modEcho fun _ => rfl

/-- The highest peak of a search agrees with that of the one before (R162). -/
def State.agrees (s : State) (ch p1 : Nat) : Bool := (s.chan ch).echo.lastP1.any (fun p => decide (apart p p1 ≤ s.rd wodConfirmTol))

/-- A search of a channel with a canceller, by the searcher of its own quadrant, once it is due (R160, R163). -/
structure SearchDue (s : State) (ch q : Nat) : Prop where
  own : (s.chan ch).echo.quadrant = some q
  cancels : (s.chan ch).ecs.ecOn = true
  due : (s.chan ch).echo.nextSearch ≤ s.tbVal (s.chan ch).tb

section
variable {s : State} {ch q : Nat}

theorem SearchDue.gate (h : SearchDue s ch q) : ((s.chan ch).echo.quadrant != some q || !(s.chan ch).ecs.ecOn ||
    decide (s.tbVal (s.chan ch).tb < (s.chan ch).echo.nextSearch)) = false := by
  simp [h.own, h.cancels, h.due]

theorem woadSearch_idle (h : (s.chan ch).echo.quadrant ≠ some q ∨ (s.chan ch).ecs.ecOn = false ∨
    s.tbVal (s.chan ch).tb < (s.chan ch).echo.nextSearch) : woadSearch ch q s = s := by
  rcases h with h | h | h <;> simp [woadSearch, h]

/-- A search without an estimate is counted as such (R161). -/
theorem woadSearch_noEst (h : SearchDue s ch q) (hr : searchResult (s.chan ch) (s.rd wodThresh) (s.chan ch).echo.nextSearch = none) :
    woadSearch ch q s = (s.searchBegun ch q).bump wodNoEst q := by
  simp only [woadSearch, h.gate, hr, Bool.false_eq_true, if_false]
  rfl

variable {p1 : Nat × Nat} {p2 : Option (Nat × Nat)}

theorem woadSearch_unconfirmed (h : SearchDue s ch q)
    (hr : searchResult (s.chan ch) (s.rd wodThresh) (s.chan ch).echo.nextSearch = some (p1, p2)) (hold : s.agrees ch p1.1 = false) :
    woadSearch ch q s = s.peaksLeft ch q p1 p2 := by
  rw [State.agrees] at hold
  simp only [woadSearch, h.gate, hr, hold, Bool.false_eq_true, if_false, Bool.not_false, if_true]
  rfl

theorem woadSearch_confirmed (h : SearchDue s ch q)
    (hr : searchResult (s.chan ch) (s.rd wodThresh) (s.chan ch).echo.nextSearch = some (p1, p2)) (hagree : s.agrees ch p1.1 = true) :
    woadSearch ch q s = (s.peaksLeft ch q p1 p2).confirmPeaks ch q p1.1 (p2.map (·.1)) := by
  rw [State.agrees] at hagree
  simp only [woadSearch, h.gate, hr, hagree, Bool.false_eq_true, if_false, Bool.not_true]
  rfl

end

/-! #### Adaptation -/

/-- A sample without adaptation leaves the coefficients as they are (R168). -/
theorem sample_still (j : EchoJob) (e : Echo) (f : Filter) (x : Int × Nat) :
    (j.sample e false f x).c0 = f.c0 ∧ (j.sample e false f x).c1 = f.c1 := by
  simp [EchoJob.sample]

/-! #### EC_SET -/

/-- A check that fails is the verdict whatever checks follow. -/
theorem firstFail_append_some {l m : List Check} {x : Nat × Nat} (h : firstFail l = some x) : firstFail (l ++ m) = some x := by
  obtain ⟨k, hk, hx⟩ := Option.map_eq_some_iff.mp h
  rw [firstFail, List.find?_append, hk, Option.some_or, Option.map_some, hx]

section
variable {c : HostCmd} {gs : List Grp} {s : State} (hgs : s.groupsOf c [7] [7] = .ok gs)
include hgs

theorem applyEcho_unsound {e d : Nat} (hbad : firstFail (echoChecks (grp gs 7)) = some (e, d)) : applyEcho c s = .refuse e d := by
  simp only [applyEcho, hgs, firstFail_append_some hbad]

variable (hsound : firstFail (echoChecks (grp gs 7)) = none)
include hsound

theorem applyEcho_notOpen (hopen : (s.chan (chanOf c)).st ≠ .open) (hbound : (s.chan (chanOf c)).st ≠ .bound) :
    applyEcho c s = .refuse stBAD_STATE 0 := by
  simp [applyEcho, bits_chanOf, hgs, firstFail_append hsound, hopen, hbound]

theorem applyEcho_inForce (hst : (s.chan (chanOf c)).st = .open ∨ (s.chan (chanOf c)).st = .bound) : applyEcho c s =
    .publish ((s.modChan (chanOf c) (withEcho (echoOf (grp gs 7)) ((grp gs 7).f 0 3 1 = 1))).settleEcho (chanOf c)).replan [chanOf c] := by
  have hstate : ((s.chan (chanOf c)).st != .open && (s.chan (chanOf c)).st != .bound) = false := by
    rcases hst with h | h <;> simp [h]
  simp [applyEcho, bits_chanOf, hgs, firstFail_append hsound, hstate]

end

/-- Settles O47: the four ends by their conditions, the searches by what they yield, and EC_SET by its first check that fails. -/
theorem echoTimerRows : Obligations.EchoTimerRows := by
  refine ⟨?_, ?_, fun j e f x => sample_still j e f x, fun ch q s h => next_whileOn_same (woadSearch_idle h), ?_, ?_⟩
  · intro ch s c now
    exact ⟨congrArg Host.Outcome.next (nlpHoldEnd_eq s ch.val), congrArg Host.Outcome.next (doubleTalkEnd_eq s ch.val),
      congrArg Host.Outcome.next (nlpHangEnd_eq s ch.val), rfl⟩
  · intro ch s t c
    exact ⟨nlpUpdate_chan_self s ch.val, fun k hk => nlpUpdate_chan_ne s ch.val hk, rfl⟩
  · intro ch q s c r hon hown hcancels hdue
    have hsearch : SearchDue s ch.val q.val := ⟨hown, hcancels, hdue⟩
    have hnoEst := rd_searchBegun_noEst s ch.val q.val
    cases hr : r with
    | none =>
      obtain ⟨hnext, hsearches, hsearcher, hothers, hframe⟩ :=
        (searchCounted_begun s ch.val q.val).bump (RegDesc.key_ne_of_step wodSearches wodNoEst q.val)
      refine ⟨_, next_whileOn hon (woadSearch_noEst hsearch hr), hnext, hsearches, hsearcher, fun _ => ⟨?_, ?_⟩, nofun, hothers, hframe⟩
      · rw [State.bump_chan, searchBegun_chan_self]
        rfl
      · rw [State.rd_bump_self, hnoEst]
        rfl
    | some p =>
      obtain ⟨p1, p2⟩ := p
      have hpeaks := peaksLeft_chan_self s ch.val q.val p1 p2
      have hcounted := searchCounted_peaksLeft s ch.val q.val p1 p2
      cases hagree : s.agrees ch.val p1.1 with
      | false =>
        obtain ⟨hnext, hsearches, hsearcher, hothers, hframe⟩ := hcounted
        refine ⟨_, next_whileOn hon (woadSearch_unconfirmed hsearch hr hagree), hnext, hsearches, hsearcher, nofun, ?_, hothers, hframe⟩
        rintro _ _ ⟨⟩
        rw [hpeaks]
        exact ⟨rfl, rfl, rfl, hnoEst, (if_neg (Bool.eq_false_iff.mp hagree)).symm⟩
      | true =>
        obtain ⟨hnext, hsearches, hsearcher, hothers, hframe⟩ := hcounted.confirmPeaks p1.1 (p2.map (·.1))
        refine ⟨_, next_whileOn hon (woadSearch_confirmed hsearch hr hagree), hnext, hsearches, hsearcher, nofun, ?_, hothers, hframe⟩
        rintro _ _ ⟨⟩
        rw [confirmPeaks_chan_self, hpeaks]
        exact ⟨rfl, rfl, rfl, (rd_confirmPeaks_noEst ..).trans hnoEst, (if_pos hagree).symm⟩
  · intro c gs s ch g hruns hgs
    exact ⟨fun hst hsound => next_publish hruns (applyEcho_inForce hgs hsound hst),
      fun hopen hbound hsound => next_refuse hruns (applyEcho_notOpen hgs hsound hopen hbound),
      fun e d hbad => next_refuse hruns (applyEcho_unsound hgs hbad)⟩

end Sys2Proof.Machine
end

section
/-! ### Glaze: the descriptors of a cluster's queue, and the swap of the coefficient banks -/
namespace Sys2Proof.Machine
open Sys2Proof.Safety

/-! #### What a write of a register word changes -/

theorem OnlyRegs.writeField {s t : State} (h : OnlyRegs s t) (x : Hit) (v mask : Nat) : OnlyRegs s (t.writeField x v mask) := by
  unfold State.writeField
  extract_lets
  split
  · exact h
  · exact h
  · exact h.wr _ _ _ _
  · exact h.wr _ _ _ _
  · exact h.wr _ _ _ _
  · split
    · exact h.wr _ _ _ _
    · exact h.wr _ _ _ _

theorem writeReg_onlyRegs (s : State) (addr width v : Nat) : OnlyRegs s (s.writeReg addr width v) := by
  unfold State.writeReg State.writeRegBut
  split
  · exact (OnlyRegs.refl s).wr _ _ _ _
  · refine (OnlyRegs.refl s).foldl fun t x h => ?_
    dsimp only
    split
    · exact h
    · exact h.writeField _ _ _

/-! #### The swap of the banks (R218-R220) -/

/-- The word of GLZ_BANK_CTL, as a write leaves it: SWAP does not stay set. -/
def State.bankCtlWritten (s : State) (width v : Nat) : State := (s.writeReg 0x80000 width v).wr glzSwap 0

theorem bankCtlWritten_glaze (s : State) (width v : Nat) : (s.bankCtlWritten width v).glaze = s.glaze := by
  have hregs : OnlyRegs s (s.bankCtlWritten width v) := (writeReg_onlyRegs s 0x80000 width v).wr _ _ _ _
  rw [hregs]

/-- A write of `v` to GLZ_BANK_CTL requests a swap (R219; for XFADE log 23). -/
def asksSwap (width v : Nat) : Prop := goodAccess 0x80000 width = true ∧ bit v 4 = true ∧ bits v 16 9 ≤ 256

section
variable {s : State} {width v : Nat}

theorem glzBankWrite_noRequest (h : ¬ asksSwap width v) : glzBankWrite 0x80000 width v s = s.bankCtlWritten width v := by
  refine if_pos ?_
  simp only [asksSwap, not_and_or, Bool.not_eq_true] at h
  rcases h with h | h | h
  · simp [h]
  · simp [h]
  · simp [Nat.not_le.mp h]

theorem glzBankWrite_request (h : asksSwap width v) : glzBankWrite 0x80000 width v s =
    let u := s.bankCtlWritten width v
    if s.glaze.fadeEnd.isSome = true then { u with glaze := { s.glaze with heldReq := some (bits v 5 1, bits v 16 9) } }
    else u.swapNow (bits v 5 1) (bits v 16 9) := by
  obtain ⟨hgood, hswap, hfade⟩ := h
  have hlow : (accessBits 0x80000 width).1 = 0 := by
    unfold accessBits
    split <;> rfl
  have hwritten := congrArg (fun g : Glaze => if s.glaze.fadeEnd.isSome = true
    then { s.bankCtlWritten width v with glaze := { g with heldReq := some (bits v 5 1, bits v 16 9) } }
    else (s.bankCtlWritten width v).swapNow (bits v 5 1) (bits v 16 9)) (bankCtlWritten_glaze s width v)
  refine (if_neg ?_).trans hwritten
  simp [hgood, hlow, hswap, hfade]

theorem swapNow_inForce {target : Nat} (h : target = s.rd glzActiveBank) (xfade : Nat) : s.swapNow target xfade = s.wr glzSwapDone 1 :=
  if_pos h

theorem swapNow_other {target : Nat} (h : target ≠ s.rd glzActiveBank) (xfade : Nat) : s.swapNow target xfade =
    { ((s.wr glzSwapDone 1).wr glzActiveBank target).bump glzSwaps with
      glaze := { s.glaze with fadeEnd := some (s.now + ms 128), xfade := xfade, swaps := s.glaze.swaps + 1 } } :=
  if_neg h

/-- A swap to the other bank leaves the target in force, SWAP_DONE set, and SWAPS one more (R219, R220). -/
theorem swapNow_rd {target : Nat} (h : target ≠ s.rd glzActiveBank) (hbit : target < 2) (xfade : Nat) :
    let t := s.swapNow target xfade
    t.rd glzActiveBank = target ∧ t.flag glzSwapDone = true ∧ t.rd glzSwaps = (s.rd glzSwaps + 1) % 2 ^ 64 := by
  have hrd : ∀ (d : RegDesc), (s.swapNow target xfade).rd d = (((s.wr glzSwapDone 1).wr glzActiveBank target).bump glzSwaps).rd d := by
    intro d
    rw [swapNow_other h]
    rfl
  refine ⟨?_, ?_, ?_⟩
  · rw [hrd, State.rd_bump_ne _ (by decide), State.rd_wr_self]
    exact Nat.mod_eq_of_lt hbit
  · rw [State.flag, hrd, State.rd_bump_ne _ (by decide), State.rd_wr_ne _ _ (by decide), State.rd_wr_self]
    rfl
  · rw [hrd, State.rd_bump_self, State.rd_wr_ne _ _ (by decide), State.rd_wr_ne _ _ (by decide)]
    rfl

/-- The state once a fade is over and no request is held. -/
def State.fadeOver (s : State) : State := { s with glaze := { s.glaze with fadeEnd := none, heldReq := none } }

theorem fadingEnd_noFade (h : s.glaze.fadeEnd = none) : fadingEnd s = s := by
  simp only [fadingEnd, h]

theorem fadingEnd_early {t : Nat} (h : s.glaze.fadeEnd = some t) (hnow : s.now < t) : fadingEnd s = s := by
  simp only [fadingEnd, h, if_pos hnow]

theorem fadingEnd_due {t : Nat} (h : s.glaze.fadeEnd = some t) (hnow : t ≤ s.now) :
    fadingEnd s = s.glaze.heldReq.elim s.fadeOver (fun r => s.fadeOver.swapNow r.1 r.2) := by
  simp only [fadingEnd, h, if_neg (Nat.not_lt.mpr hnow)]
  cases s.glaze.heldReq <;> rfl

end

/-! #### The start of a descriptor (R209, R215, R219) -/

section
variable {s : State} {k : Nat} {j : GlzJob} {r : List GlzJob}

theorem glazeStart_empty (h : tget s.glaze.queues k [] = []) : glazeStart k s = s := by
  simp only [glazeStart, h]

theorem glazeStart_started (h : tget s.glaze.queues k [] = j :: r) (hj : j.started = true) : glazeStart k s = s := by
  simp only [glazeStart, h, hj, if_true]

/-- A descriptor as it starts with the lane states `l`: in the bank in force, and in the fade under way. -/
def State.jobStarted (s : State) (j : GlzJob) (l : Tbl LaneState) : GlzJob :=
  { j with started := true, lanes := l, bank := s.rd glzActiveBank, swaps := s.glaze.swaps
           fade := if s.glaze.fadeEnd.isSome = true then some s.glaze.xfade else none }

/-- The state with another queue of cluster `k`. -/
def State.glazeQueued (s : State) (k : Nat) (q : List GlzJob) : State :=
  { s with glaze := { s.glaze with queues := tset s.glaze.queues k q [] } }

theorem glazeStart_waiting (h : tget s.glaze.queues k [] = j :: r) (hj : j.started = false) :
    ∃ l, glazeStart k s = s.glazeQueued k (s.jobStarted j l :: r) := by
  simp only [glazeStart, h, hj, Bool.false_eq_true, if_false]
  exact ⟨_, rfl⟩

theorem glazeQueued_queue_self (q : List GlzJob) : tget (s.glazeQueued k q).glaze.queues k [] = q := tget_tset_self _ _ _ _

theorem glazeQueued_queue_ne {m : Nat} (q : List GlzJob) (h : m ≠ k) :
    tget (s.glazeQueued k q).glaze.queues m [] = tget s.glaze.queues m [] := tget_tset_ne _ _ _ _ h

end

/-! #### What a conversion changes (R209, R222) -/

/-- Nothing but registers, drawn free values, and the registers and memories of engine `e` has changed. -/
def AtEngine (e : Nat) (s t : State) : Prop :=
  (∀ m, m ≠ e → t.eng m = s.eng m) ∧ t = { s with regs := t.regs, engines := t.engines, saved := t.saved, freeCtr := t.freeCtr }

namespace AtEngine

variable {e : Nat} {s t : State}

theorem refl (e : Nat) (s : State) : AtEngine e s s := ⟨fun _ _ => rfl, rfl⟩

theorem trans {u : State} (h : AtEngine e s t) (h' : AtEngine e t u) : AtEngine e s u :=
  ⟨fun m hm => (h'.1 m hm).trans (h.1 m hm), by rw [h'.2, h.2]⟩

variable (h : AtEngine e s t)
include h

theorem glaze : t.glaze = s.glaze := by rw [h.2]

theorem bumpBy (d : RegDesc) (n i j : Nat) : AtEngine e s (t.bumpBy d n i j) := h.trans ⟨fun _ _ => rfl, rfl⟩

theorem bump (d : RegDesc) (i j : Nat) : AtEngine e s (t.bump d i j) := h.bumpBy d 1 i j

theorem drawn (n : Nat) : AtEngine e s { t with freeCtr := n } := h.trans ⟨fun _ _ => rfl, rfl⟩

theorem savedAs (x : Tbl Engine) : AtEngine e s { t with saved := x } := h.trans ⟨fun _ _ => rfl, rfl⟩

theorem modEng (f : Engine → Engine) : AtEngine e s (t.modEng e f) := h.trans ⟨fun _ hm => State.modEng_eng_ne t f hm, rfl⟩

theorem foldl {α : Type} {f : State → α → State} {l : List α} (hf : ∀ u x, AtEngine e s u → AtEngine e s (f u x)) :
    AtEngine e s (l.foldl f t) := by
  induction l generalizing t with
  | nil => exact h
  | cons x r ih => exact ih (hf t x h)

end AtEngine

section
variable {s t : State} {j : GlzJob}

/-- The registers of a descriptor's skein are the saved ones, those of its engine, or gone with the skein. -/
theorem modJobEng_cases (s : State) (j : GlzJob) (f : Engine → Engine) :
    (∃ x, s.modJobEng j f = { s with saved := x }) ∨ s.modJobEng j f = s.modEng j.engine f ∨ s.modJobEng j f = s := by
  unfold State.modJobEng
  split
  · exact .inl ⟨_, rfl⟩
  · split
    · exact .inr (.inl rfl)
    · exact .inr (.inr rfl)

theorem AtEngine.modJobEng (h : AtEngine j.engine s t) (f : Engine → Engine) : AtEngine j.engine s (t.modJobEng j f) := by
  rcases modJobEng_cases t j f with ⟨x, hx⟩ | hx | hx
  · rw [hx]
    exact h.savedAs x
  · rw [hx]
    exact h.modEng f
  · rw [hx]
    exact h

theorem modJobEng_rd (s : State) (j : GlzJob) (f : Engine → Engine) (d : RegDesc) (i : Nat) : (s.modJobEng j f).rd d i = s.rd d i := by
  rcases modJobEng_cases s j f with ⟨x, hx⟩ | hx | hx
  · rw [hx]
    rfl
  · rw [hx, State.modEng_rd]
  · rw [hx]

theorem modJobEng_glzBusy (s : State) (j : GlzJob) {f : Engine → Engine} (hf : ∀ x, (f x).glzBusy = x.glzBusy) :
    ((s.modJobEng j f).eng j.engine).glzBusy = (s.eng j.engine).glzBusy := by
  rcases modJobEng_cases s j f with ⟨x, hx⟩ | hx | hx
  · rw [hx]
    rfl
  · rw [hx, State.modEng_eng_self, hf]
  · rw [hx]

theorem AtEngine.glazeLane (h : AtEngine j.engine s t) (k : Nat) (d : GlzDesc) (lane : Nat) :
    AtEngine j.engine s (t.glazeLane k j d lane) := by
  unfold State.glazeLane
  split
  · exact h
  · exact (((((h.modEng _).modJobEng _).drawn _).bump _ _ _).bumpBy _ _ _ _).bumpBy _ _ _ _

theorem glazeLane_rd_glzDescriptors (s : State) (k : Nat) (j : GlzJob) (d : GlzDesc) (lane : Nat) :
    (s.glazeLane k j d lane).rd glzDescriptors k = s.rd glzDescriptors k := by
  unfold State.glazeLane
  split
  · rfl
  · rw [rd_bumpBy_ne _ _ (RegDesc.key_ne_of_step glzSetMismatch glzDescriptors k).symm,
      rd_bumpBy_ne _ _ (RegDesc.key_ne_of_step glzResets glzDescriptors k).symm,
      State.rd_bump_ne _ (RegDesc.key_ne_of_step glzDescriptors glzLanes k)]
    exact modJobEng_rd _ _ _ _ _

end

/-! #### The completion of a descriptor (R209, R221, R222) -/

/-- The state once the completion area of a descriptor is cleared and its lanes have converted, or it has been refused. -/
def State.glazeConverted (s : State) (k : Nat) (j : GlzJob) (d : GlzDesc) : State :=
  let u := s.modEng j.engine (fun x => { x with ymem := memPutList x.ymem d.doneAt (List.replicate 32 0) })
  if d.ok then (List.range 16).foldl (State.glazeLane k j d) u else u.bump glzDescErr k

/-- An engine that may issue another descriptor. -/
def glazeFree (x : Engine) : Engine := { x with glzBusy := false }

/-- The state once DONE is written, the engine of a descriptor is free, and the skein that issued it has its interrupt pending. -/
def State.glazeDone (s : State) (j : GlzJob) (d : GlzDesc) : State :=
  let u := (s.modEng j.engine (fun x => { x with ymem := memPut16 x.ymem (d.doneAt + 34) (if d.ok then 1 else 3) })).modEng j.engine glazeFree
  { u with saved := s.saved.map (fun (e : Nat × Engine) => if e.1 = j.engine then (e.1, glazeFree e.2) else e) }.modJobEng j
    (fun x => { x with irqGlz := true })

section
variable {s : State} {k : Nat} {j : GlzJob} {r : List GlzJob}

theorem glazeComplete_empty (h : tget s.glaze.queues k [] = []) : glazeComplete k s = s := by
  simp only [glazeComplete, h]

theorem glazeComplete_waiting (h : tget s.glaze.queues k [] = j :: r) (hj : j.started = false) : glazeComplete k s = s := by
  simp only [glazeComplete, h, hj, Bool.not_false, if_true]

theorem glazeComplete_started (h : tget s.glaze.queues k [] = j :: r) (hj : j.started = true) : glazeComplete k s =
    let d := glzDescAt (s.eng j.engine).xmem j.addr
    (((s.glazeQueued k r).glazeConverted k j d).bump glzDescriptors k).glazeDone j d := by
  simp only [glazeComplete, h, hj, Bool.not_true, Bool.false_eq_true, if_false]
  rfl

theorem glazeConverted_atEngine (s : State) (k : Nat) (j : GlzJob) (d : GlzDesc) : AtEngine j.engine s (s.glazeConverted k j d) := by
  have hclear := (AtEngine.refl j.engine s).modEng fun x => { x with ymem := memPutList x.ymem d.doneAt (List.replicate 32 0) }
  unfold State.glazeConverted
  dsimp only
  split
  · exact hclear.foldl fun _ lane hu => hu.glazeLane k d lane
  · exact hclear.bump _ _ _

theorem glazeConverted_rd_glzDescriptors (s : State) (k : Nat) (j : GlzJob) (d : GlzDesc) :
    (s.glazeConverted k j d).rd glzDescriptors k = s.rd glzDescriptors k := by
  unfold State.glazeConverted
  dsimp only
  split
  · exact foldl_keeps (fun u => u.rd glzDescriptors k) (fun u lane => glazeLane_rd_glzDescriptors u k j d lane) _ _
  · exact State.rd_bump_ne _ (RegDesc.key_ne_of_step glzDescriptors glzDescErr k)

theorem glazeDone_atEngine (s : State) (j : GlzJob) (d : GlzDesc) : AtEngine j.engine s (s.glazeDone j d) :=
  ((((AtEngine.refl j.engine s).modEng _).modEng _).savedAs _).modJobEng _

theorem glazeDone_rd (s : State) (j : GlzJob) (d : GlzDesc) (f : RegDesc) (i : Nat) : (s.glazeDone j d).rd f i = s.rd f i :=
  modJobEng_rd _ _ _ _ _

theorem glazeDone_glzBusy (s : State) (j : GlzJob) (d : GlzDesc) : ((s.glazeDone j d).eng j.engine).glzBusy = false := by
  refine (modJobEng_glzBusy _ j ?_).trans ?_
  · exact fun _ => rfl
  · exact congrArg Engine.glzBusy (State.modEng_eng_self _ j.engine glazeFree)

end

/-- Settles O48: a start and a completion by the oldest descriptor of the queue, a swap by the bank in force, a write of GLZ_BANK_CTL by
whether it requests a swap and a fade is under way, and the end of a fade by its time and the held request. -/
theorem glazeRows : Obligations.GlazeRows := by
  refine ⟨?_, ?_, ?_, ?_, ?_, ?_⟩
  · intro k j r s hon hq
    refine ⟨fun hj => next_whileOn_same (glazeStart_started hq hj), fun hj => ?_⟩
    obtain ⟨l, hl⟩ := glazeStart_waiting hq hj
    exact ⟨_, next_whileOn hon hl, ⟨l, glazeQueued_queue_self _⟩, fun m hm => glazeQueued_queue_ne _ hm, rfl⟩
  · exact fun k s hq => ⟨next_whileOn_same (glazeStart_empty hq), next_whileOn_same (glazeComplete_empty hq)⟩
  · intro k j r s hon hq
    refine ⟨fun hj => next_whileOn_same (glazeComplete_waiting hq hj), fun hj => ?_⟩
    have hdone := glazeComplete_started hq hj
    extract_lets d at hdone
    have hconv := glazeConverted_atEngine (s.glazeQueued k.val r) k.val j d
    have hall := (hconv.bump glzDescriptors k.val 0).trans (glazeDone_atEngine _ j d)
    have hglaze := hall.glaze
    obtain ⟨hothers, hframe⟩ := hall
    refine ⟨_, next_whileOn hon hdone, ?_, fun m hm => ?_, ?_, glazeDone_glzBusy _ j d, hothers, ?_⟩
    · exact (congrArg (fun g => tget g.queues k.val []) hglaze).trans (glazeQueued_queue_self r)
    · exact (congrArg (fun g => tget g.queues m []) hglaze).trans (glazeQueued_queue_ne r hm)
    · rw [glazeDone_rd, State.rd_bump_self, glazeConverted_rd_glzDescriptors]
      rfl
    · rw [hglaze]
      exact hframe
  · intro target xfade s hbit _
    refine ⟨fun h => swapNow_inForce h xfade, fun h => ?_⟩
    obtain ⟨hbank, hdone, hswaps⟩ := swapNow_rd h hbit xfade
    refine ⟨hbank, hdone, hswaps, ?_, ?_⟩
    · rw [swapNow_other h]
    · rw [swapNow_other h]
      rfl
  · intro width v s
    refine ⟨congrArg Host.Outcome.next ?_, bankCtlWritten_glaze s width v.toNat⟩
    split
    · next h => exact glzBankWrite_request h
    · next h => exact glzBankWrite_noRequest h
  · intro s
    refine ⟨fun h => congrArg Host.Outcome.next (fadingEnd_noFade h), fun t h => ⟨fun hnow => ?_, fun hnow hheld => ?_, fun b x hnow hheld => ?_⟩⟩
    · exact congrArg Host.Outcome.next (fadingEnd_early h hnow)
    · exact congrArg Host.Outcome.next ((fadingEnd_due h hnow).trans (by rw [hheld]; rfl))
    · exact congrArg Host.Outcome.next ((fadingEnd_due h hnow).trans (by rw [hheld]; rfl))

end Sys2Proof.Machine
end

section
/-! ### Tones: the end of a received event, TONE_SET and TONE_GEN -/
namespace Sys2Proof.Machine
open Sys2Proof.Safety

/-! #### The end of a received event (R239) -/

@[simp] theorem toneWordEnd_rxEvent (code : Nat) (rx : Bool) (t : Tone) : (toneWordEnd code rx t).rxEvent = t.rxEvent := by
  unfold toneWordEnd
  split <;> rfl

@[simp] theorem toneWordEnd_lastEndedTs (code : Nat) (rx : Bool) (t : Tone) : (toneWordEnd code rx t).lastEndedTs = t.lastEndedTs := by
  unfold toneWordEnd
  split <;> rfl

@[simp] theorem toneWordEnd_declared (code : Nat) (rx : Bool) (t : Tone) : (toneWordEnd code rx t).declared = t.declared := by
  unfold toneWordEnd
  split <;> rfl

section
variable (s : State) (ch : Nat)

theorem modTone_chan_self (f : Tone → Tone) : ((s.modTone ch f).chan ch).tone = f (s.chan ch).tone :=
  congrArg Chan.tone (State.modChan_chan_self s ch _)

theorem modTone_chan_ne (f : Tone → Tone) {k : Nat} (h : k ≠ ch) : (s.modTone ch f).chan k = s.chan k := State.modChan_chan_ne s _ h

/-- A tone notice comes to a notice or to nothing: what both leave as it was, it leaves as it was. -/
theorem toneNotice_keeps {α : Type} (g : State → α) (hg : ∀ w0 w1 w2 w3, g (s.notice w0 w1 w2 w3) = g s) (code : Nat) (stop rx : Bool)
    (onset durMs : Nat) : g (s.toneNotice ch code stop rx onset durMs) = g s := by
  unfold State.toneNotice
  extract_lets c epoch
  split
  · exact hg _ _ _ _
  · rfl

end

section
variable {s : State} {ch : Nat}

/-- An event that ends is no longer the one received, and its timestamp is the last one ended; the channel's other signals, the other
channels, the ports, the engines and the scheduler stand as before. -/
structure RxEnded (s : State) (ch : Nat) (e : RxEvent) (t : State) : Prop where
  ended : (t.chan ch).tone.rxEvent = none
  lastTs : (t.chan ch).tone.lastEndedTs = some e.ts
  declared : (t.chan ch).tone.declared = (s.chan ch).tone.declared
  others : ∀ k, k ≠ ch → t.chan k = s.chan k
  ports : t.ports = s.ports
  engines : t.engines = s.engines
  mor : t.mor = s.mor

theorem rxEventEnd_rxEnded {e : RxEvent} (he : (s.chan ch).tone.rxEvent = some e) : RxEnded s ch e (s.rxEventEnd ch) := by
  simp only [State.rxEventEnd, he]
  constructor
  case others =>
    intro k hk
    rw [toneNotice_keeps _ _ (·.chan k) fun _ _ _ _ => State.notice_chan ..]
    exact modTone_chan_ne s ch _ hk
  case ports => exact toneNotice_keeps _ _ (·.ports) (fun _ _ _ _ => State.notice_ports ..) ..
  case engines => exact toneNotice_keeps _ _ (·.engines) (fun _ _ _ _ => State.notice_engines ..) ..
  case mor => exact toneNotice_keeps _ _ (·.mor) (fun _ _ _ _ => State.notice_mor ..) ..
  all_goals
    rw [toneNotice_keeps _ _ (·.chan ch) fun _ _ _ _ => State.notice_chan .., modTone_chan_self]
    simp

theorem eventTimeout_renewed (h : ∀ e, (s.chan ch).tone.rxEvent = some e → s.now < e.lastAt + ms 200) : eventTimeout ch s = s := by
  refine if_neg ?_
  simp only [Option.any_eq_true, decide_eq_true_eq, not_exists, not_and, Nat.not_le]
  exact h

theorem eventTimeout_due {e : RxEvent} (he : (s.chan ch).tone.rxEvent = some e) (hdue : e.lastAt + ms 200 ≤ s.now) :
    eventTimeout ch s = s.rxEventEnd ch :=
  if_pos ((Option.any_eq_true _ _).mpr ⟨e, he, decide_eq_true hdue⟩)

end

/-! #### TONE_SET (R34, R234) -/

section
variable {c : HostCmd} {gs : List Grp} {s : State} (hgs : s.groupsOf c [8] [8] = .ok gs)
include hgs

theorem applyToneSet_notOpen (hopen : (s.chan (chanOf c)).st ≠ .open) (hbound : (s.chan (chanOf c)).st ≠ .bound) :
    applyToneSet c s = .refuse stBAD_STATE 0 := by
  simp [applyToneSet, bits_chanOf, hgs, hopen, hbound]

variable (hst : (s.chan (chanOf c)).st = .open ∨ (s.chan (chanOf c)).st = .bound)
include hst

theorem applyToneSet_unsound {e d : Nat}
    (hbad : firstFail (toneChecks (grp gs 8) s (s.chan (chanOf c)).rx (s.chan (chanOf c)).fec.redPt) = some (e, d)) :
    applyToneSet c s = .refuse e d := by
  rcases hst with h | h <;> simp [applyToneSet, bits_chanOf, hgs, h, hbad]

theorem applyToneSet_inForce
    (hsound : firstFail (toneChecks (grp gs 8) s (s.chan (chanOf c)).rx (s.chan (chanOf c)).fec.redPt) = none) :
    applyToneSet c s = .publish (s.modChan (chanOf c) (fun x => { x with tns := toneOf (grp gs 8) })) [chanOf c] := by
  rcases hst with h | h <;> simp [applyToneSet, bits_chanOf, hgs, h, hsound]

end

/-! #### TONE_GEN (R241) -/

/-- VBD_STATE `state` lets the entry be generated. -/
def ToneEntry.allowedIn (state : Nat) (e : ToneEntry) : Prop :=
  state = 0 ∨ toneClass e.code = 5 ∨ toneClass e.code = 6 ∨ toneClass e.code = 7

/-- The entry's code can be generated, and its stop code, where it has one, detected. -/
def ToneEntry.Sound (e : ToneEntry) : Prop := isGenerated e.code = true ∧ (e.stopCode = 0xFF ∨ isDetected e.stopCode = true)

/-- TONE_GEN's test of its entries against VBD_STATE passes. -/
theorem anyForbidden_eq_false_iff {state : Nat} {es : List ToneEntry} :
    (state != 0 && es.any fun e => !(toneClass e.code = 5 || toneClass e.code = 6 || toneClass e.code = 7)) = false ↔
      ∀ e ∈ es, e.allowedIn state := by
  simp only [ToneEntry.allowedIn, Bool.and_eq_false_imp, bne_iff_ne, List.any_eq_false, Bool.not_eq_true', Bool.not_eq_false, Bool.or_eq_true,
    decide_eq_true_eq, or_assoc]
  exact ⟨fun h e he => or_iff_not_imp_left.mpr fun hs => h hs e he, fun h hs e he => (h e he).resolve_left hs⟩

theorem not_sound_of {e : ToneEntry} (h : isGenerated e.code = false ∨ (e.stopCode ≠ 0xFF ∧ isDetected e.stopCode = false)) : ¬ e.Sound := by
  rintro ⟨hcode, hstop⟩
  rcases h with h | ⟨hff, h⟩
  · simp [h] at hcode
  · simp [h, hff] at hstop

/-- A search of the numbered elements finds none where no element meets the condition. -/
theorem find?_zipIdx_eq_none {α : Type} {l : List α} (p : α → Bool) : l.zipIdx.find? (fun x => p x.1) = none ↔ ∀ e ∈ l, p e = false := by
  have hmap : (l.zipIdx.find? (fun x => p x.1)).map Prod.fst = l.find? p := by
    rw [← Function.comp_def p, ← List.find?_map, List.zipIdx_map_fst]
  rw [← Option.map_eq_none_iff (f := Prod.fst), hmap, List.find?_eq_none]
  simp

theorem badCode_eq_none_iff {es : List ToneEntry} :
    es.zipIdx.find? (fun e => !isGenerated e.1.code) = none ↔ ∀ e ∈ es, isGenerated e.code = true := by
  simpa using find?_zipIdx_eq_none (l := es) fun e : ToneEntry => !isGenerated e.code

theorem badStopCode_eq_none_iff {es : List ToneEntry} :
    es.zipIdx.find? (fun e => e.1.stopCode != 0xFF && !isDetected e.1.stopCode) = none ↔
      ∀ e ∈ es, e.stopCode = 0xFF ∨ isDetected e.stopCode = true := by
  refine (find?_zipIdx_eq_none fun e : ToneEntry => e.stopCode != 0xFF && !isDetected e.stopCode).trans ?_
  simp [or_iff_not_imp_left]

/-- Queue `q` in force in a direction. Where a first entry without APPEND has begun it anew (`fresh`), it starts at its beginning, and what was
being generated is cut off where it stood. -/
def State.genQueued (s : State) (ch dir : Nat) (q : List ToneEntry) (fresh : Bool) : State :=
  let old := (s.chan ch).tone
  let place := if dir = 0 then old.pos0 else old.pos1
  let cut := (genQ old dir).head?.map fun e => ({ dir := dir, entry := e, pos := place, till := none } : ToneCut)
  s.modTone ch fun t => { setGen t dir q (if fresh then 0 else place) with cuts := t.cuts ++ if fresh then cut.toList else [] }

theorem genQueued_appended (s : State) (ch dir : Nat) (q : List ToneEntry) :
    s.genQueued ch dir q false = s.modTone ch (fun t => setGen t dir q (if dir = 0 then (s.chan ch).tone.pos0 else (s.chan ch).tone.pos1)) := by
  have hkeeps : ∀ (t : Tone) (pos : Nat), { setGen t dir q pos with cuts := t.cuts } = setGen t dir q pos := by
    intro t pos
    unfold setGen
    split <;> rfl
  simp only [State.genQueued, Bool.false_eq_true, if_false, List.append_nil, hkeeps]

section
variable {c : HostCmd} {gs : List Grp} {s : State}

theorem applyToneGen_unbound (h : (s.chan (chanOf c)).st ≠ .bound) : applyToneGen c s = .refuse stBAD_STATE 0 := by
  simp [applyToneGen, bits_chanOf, h]

variable (hbound : (s.chan (chanOf c)).st = .bound) (hgs : s.groupsOf c [14] [14] = .ok gs)
include hbound hgs

theorem applyToneGen_forbidden (h : ∃ e ∈ toneEntriesOf (grp gs 14), ¬ e.allowedIn (s.chan (chanOf c)).vbd.state) :
    applyToneGen c s = .refuse stBAD_STATE 0 := by
  have hany := (Bool.not_eq_false _).mp (anyForbidden_eq_false_iff.not.mpr (by simpa using h))
  simp only [applyToneGen, bits_chanOf, hbound, hgs, hany, bne_self_eq_false, Bool.false_eq_true, if_false, if_true]

variable (hallowed : ∀ e ∈ toneEntriesOf (grp gs 14), e.allowedIn (s.chan (chanOf c)).vbd.state)
include hallowed

/-- Entries that VBD_STATE allows are judged by their codes, then by their stop codes. -/
theorem applyToneGen_unsound (h : ∃ e ∈ toneEntriesOf (grp gs 14), ¬ e.Sound) : ∃ d, applyToneGen c s = .refuse stBAD_PARAM d := by
  obtain ⟨e, he, hunsound⟩ := h
  simp only [applyToneGen, bits_chanOf, hbound, hgs, anyForbidden_eq_false_iff.mpr hallowed, bne_self_eq_false, Bool.false_eq_true, if_false]
  split
  · exact ⟨_, rfl⟩
  · next hcodes =>
    split
    · exact ⟨_, rfl⟩
    · next hstops =>
      exact absurd ⟨badCode_eq_none_iff.mp hcodes e he, badStopCode_eq_none_iff.mp hstops e he⟩ hunsound

variable (hsound : ∀ e ∈ toneEntriesOf (grp gs 14), e.Sound)
include hsound

/-- Entries that pass every test come to what the queue of their direction makes of them. -/
theorem applyToneGen_sound : applyToneGen c s =
    (queueEntries (genQ (s.chan (chanOf c)).tone (bits c.w1.toNat 16 1)) false (toneEntriesOf (grp gs 14))).elim (.refuse stNO_RESOURCE 0)
      (fun x => .publish (s.genQueued (chanOf c) (bits c.w1.toNat 16 1) x.1 x.2) [chanOf c]) := by
  have hcodes := badCode_eq_none_iff.mpr fun e he => (hsound e he).1
  have hstops := badStopCode_eq_none_iff.mpr fun e he => (hsound e he).2
  simp only [applyToneGen, bits_chanOf, hbound, hgs, anyForbidden_eq_false_iff.mpr hallowed, bne_self_eq_false, Bool.false_eq_true, if_false,
    hcodes, hstops]
  cases queueEntries (genQ (s.chan (chanOf c)).tone (bits c.w1.toNat 16 1)) false (toneEntriesOf (grp gs 14)) <;> rfl

end

/-- Settles O49: the end of a received event by its time, TONE_SET by the channel's state and its first check that fails, TONE_GEN by the
channel's state, then the entries' codes, then the room of their queue. -/
theorem toneRows : Obligations.ToneRows := by
  refine ⟨?_, ?_, ?_, fun c s hruns h => next_refuse hruns (applyToneGen_unbound h), ?_⟩
  · exact fun ch s h => congrArg Host.Outcome.next (eventTimeout_renewed h)
  · intro ch e s he hdue
    obtain ⟨hended, hlast, hdeclared, hothers, hports, hengines, hmor⟩ := rxEventEnd_rxEnded he
    exact ⟨_, congrArg Host.Outcome.next (eventTimeout_due he hdue), hended, hlast, hdeclared, hothers, hports, hengines, hmor⟩
  · intro c gs s ch g checks hruns hgs
    exact ⟨fun hst hsound => next_publish hruns (applyToneSet_inForce hgs hst hsound),
      fun e d hst hbad => next_refuse hruns (applyToneSet_unsound hgs hst hbad),
      fun hopen hbound => next_refuse hruns (applyToneSet_notOpen hgs hopen hbound)⟩
  · intro c gs s ch es dir old place allowed hruns hbound hgs
    refine ⟨fun hforb => next_refuse hruns (applyToneGen_forbidden hbound hgs hforb), fun hallowed hbad => ?_, fun h => ?_⟩
    · obtain ⟨e, he, hunsound⟩ := hbad
      obtain ⟨d, hrefused⟩ := applyToneGen_unsound hbound hgs hallowed ⟨e, he, not_sound_of hunsound⟩
      exact ⟨d, next_refuse hruns hrefused⟩
    · have hanswer := applyToneGen_sound hbound hgs (fun e he => (h e he).1) (fun e he => (h e he).2)
      refine ⟨fun hfull => next_refuse hruns ?_, fun q hq => next_publish hruns ?_, fun q hq => next_publish hruns ?_⟩
      · rw [hanswer, hfull, Option.elim_none]
      · rw [hanswer, hq, Option.elim_some, genQueued_appended]
      · rw [hanswer, hq]
        rfl

end Sys2Proof.Machine
end

section
/-! ### Voiceband data: the timers of Saffron -/
namespace Sys2Proof.Machine

/-! #### A channel's Saffron state -/

section
variable (s : State) (ch : Nat) (f : Vbd → Vbd)

@[simp] theorem modVbd_chan_self : (s.modVbd ch f).chan ch = { s.chan ch with vbd := f (s.chan ch).vbd } := State.modChan_chan_self ..

theorem modVbd_chan_ne {k : Nat} (h : k ≠ ch) : (s.modVbd ch f).chan k = s.chan k := State.modChan_chan_ne _ _ h

/-- What an update of one channel leaves of every channel, it leaves of each. -/
theorem modChan_keeps {α : Type} (g : Chan → α) {f : Chan → Chan} (hg : ∀ c, g (f c) = g c) (k : Nat) :
    g ((s.modChan ch f).chan k) = g (s.chan k) := by
  by_cases hk : k = ch
  · rw [hk, State.modChan_chan_self, hg]
  · rw [State.modChan_chan_ne s f hk]

theorem modTone_vbd (f : Tone → Tone) (k : Nat) : ((s.modTone ch f).chan k).vbd = (s.chan k).vbd := by
  refine modChan_keeps s ch Chan.vbd ?_ k
  exact fun _ => rfl

theorem nlpUpdate_vbd (k : Nat) : ((s.nlpUpdate ch).chan k).vbd = (s.chan k).vbd := by
  refine modChan_keeps s ch Chan.vbd ?_ k
  exact fun _ => rfl

end

/-! #### Rows that come to one update of the channel (R253, R257, R258, R266) -/

section
variable (s : State) (ch : Nat)

theorem qualificationTimeout_eq : qualificationTimeout ch s =
    if ((s.chan ch).vbd.rx.phase = 2 ∨ (s.chan ch).vbd.rx.phase = 3) ∧ (s.chan ch).vbd.rx.detected + abortWin (s.chan ch) ≤ s.now
      then (s.bump supVbdFalseDetect).modVbd ch (fun v => { v with rx := { count := 0 } }) else s := by
  simp [qualificationTimeout, State.rxRestart]

theorem txSigEndTimeout_eq : txSigEndTimeout ch s =
    if (s.chan ch).vbd.state = 2 ∧ (s.chan ch).vbd.transmitting = true ∧ (s.chan ch).vbd.toModem = [] ∧
        (s.chan ch).vbd.txLastData + ms 200 ≤ s.now
      then s.modVbd ch (vbdFall s.now) else s := by
  simp [txSigEndTimeout, and_assoc]

theorem baudotMarkHoldEnd_eq : baudotMarkHoldEnd ch s =
    if (s.chan ch).vbd.markUntil.any (fun t => decide (t ≤ s.now)) = true then s.modVbd ch (vbdFall s.now) else s := rfl

theorem saffronSilenceEnd_eq : saffronSilenceEnd ch s =
    if (s.chan ch).vbd.txWaiting = true ∧ (s.chan ch).vbd.silentUntil ≤ s.now then s.modVbd ch (vbdRise s.now) else s := by
  simp [saffronSilenceEnd]

end

/-! #### A gap in UDPTL (R261) -/

/-- What reception over UDPTL keeps of its place in the sequence: the next packet, the packets that wait and the age of the gap. -/
def udptlPlace (v : Vbd) : Nat × Tbl (List Byte) × Option Nat := (v.nextRx, v.ifpQ, v.gapSince)

/-- Packet `k` with IFP `p` has had its turn. -/
def ifpTaken (k : Nat) (p : List Byte) (v : Vbd) : Vbd :=
  { v with nextRx := v.nextRx + 1, ifpQ := terase v.ifpQ k, gapSince := none
           ifpSeen := (tins v.ifpSeen k p).filter (fun e => e.1 + 64 > k) }

/-- The gap below packet `k` is given up. -/
def gapGivenUp (k : Nat) (v : Vbd) : Vbd := { v with nextRx := k, gapSince := none }

/-- Where no packet waits there is no gap. -/
def gapSettled (v : Vbd) : Vbd := { v with gapSince := if v.ifpQ.isEmpty then none else v.gapSince }

/-- A gap below what still waits begins at `now`. -/
def gapReopened (now : Nat) (v : Vbd) : Vbd := if v.ifpQ.isEmpty then v else { v with gapSince := some now }

theorem gapSettled_of_none {v : Vbd} (h : v.gapSince = none) : gapSettled v = v := by
  simp only [gapSettled, h, ite_self]
  rw [← h]

theorem gapReopened_of_nil {now : Nat} {v : Vbd} (h : v.ifpQ = []) : gapReopened now v = v := if_pos (List.isEmpty_iff.mpr h)

/-- The state beside its channels and registers. -/
def State.aside (s : State) : State := { s with chans := [], regs := [] }

@[simp] theorem modVbd_aside (s : State) (ch : Nat) (f : Vbd → Vbd) : (s.modVbd ch f).aside = s.aside := rfl

theorem eq_of_aside {s u : State} (h : u.aside = s.aside) : u = { s with chans := u.chans, regs := u.regs } :=
  congrArg (fun v : State => { v with chans := u.chans, regs := u.regs }) h

section
variable (s : State) (ch : Nat)

section
variable {α : Type} (g : State → α)
  (hvbd : ∀ (u : State) (k : Nat) (f : Vbd → Vbd), (∀ v, udptlPlace (f v) = udptlPlace v) → g (u.modVbd k f) = g u)
  (hpages : ∀ u : State, g (u.bump supVbdPages) = g u)
include hvbd hpages

theorem frameRelayed_keeps (way : Nat) (x : List Byte) : g (s.frameRelayed ch way x) = g s := by
  unfold State.frameRelayed
  extract_lets ask
  split
  · exact hvbd _ _ _ fun _ => rfl
  · split
    · unfold State.pageDone
      refine (foldl_keeps g (fun u k => hvbd u k _ ?_) _ _).trans ((hpages _).trans (hvbd _ _ _ ?_))
      all_goals exact fun _ => rfl
    · rfl

/-- An IFP that goes to the modulator changes Saffron's states aside from their places in the UDPTL sequence, and the count of pages:
what both leave as it was, it leaves as it was. -/
theorem toModem_keeps (p : List Byte) : g (s.toModem ch p) = g s := by
  unfold State.toModem
  extract_lets c push
  split
  case h_1 => rfl
  case h_2 r rate x good last _ =>
    have hpushed : ∀ l, g (s.modVbd ch (push l)) = g s := fun l => hvbd _ _ _ fun _ => rfl
    have hrelayed : ∀ l, g (if good then (s.modVbd ch (push l)).frameRelayed ch 2 (relayedFrame x) else s.modVbd ch (push l)) = g s := by
      intro l
      split
      · rw [frameRelayed_keeps _ _ g hvbd hpages, hpushed]
      · exact hpushed l
    extract_lets y s1 s2
    split
    · exact hrelayed _
    · extract_lets a
      refine (hvbd s2 ch _ ?_).trans (hrelayed _)
      exact fun _ => rfl
  all_goals exact hvbd _ _ _ fun _ => rfl

end

theorem toModem_udptlPlace (p : List Byte) : udptlPlace ((s.toModem ch p).chan ch).vbd = udptlPlace (s.chan ch).vbd :=
  toModem_keeps s ch (fun u => udptlPlace (u.chan ch).vbd) (fun u k _ hf => modChan_keeps u k (fun c => udptlPlace c.vbd) (fun c => hf c.vbd) ch)
    (fun u => by rw [State.bump_chan]) p

theorem toModem_rd_supVbdIfpLost (p : List Byte) : (s.toModem ch p).rd supVbdIfpLost = s.rd supVbdIfpLost :=
  toModem_keeps s ch (·.rd supVbdIfpLost) (fun _ _ _ _ => rfl) (fun u => State.rd_bump_ne u (by decide)) p

end

section
variable {s : State} {ch : Nat}

theorem toModem_image {p : List Byte} {r rate : Nat} {o : List Byte} {l : Bool}
    (h : Config.ifpRead (s.chan ch).fax.version p = .image r rate o l) :
    s.toModem ch p = s.modVbd ch (fun v => { v with toModem := v.toModem ++ [.image r rate o l] }) := by
  simp only [State.toModem, h]

theorem drainIfps_none {n : Nat} (h : (s.chan ch).vbd.ifpQ = []) : State.drainIfps (n + 1) ch s = s.modVbd ch gapSettled := by
  simp only [State.drainIfps, h, List.find?_nil]
  rfl

/-- The only packet that waits is the next one: it has its turn, and nothing waits any more. -/
theorem drainIfps_one {n k : Nat} {p : List Byte} (hq : (s.chan ch).vbd.ifpQ = [(k, p)]) (hk : (s.chan ch).vbd.nextRx = k) :
    State.drainIfps (n + 2) ch s = ((s.modVbd ch (ifpTaken k p)).toModem ch p).modVbd ch gapSettled := by
  have hempty : (((s.modVbd ch (ifpTaken k p)).toModem ch p).chan ch).vbd.ifpQ = [] := by
    refine (congrArg (·.2.1) (toModem_udptlPlace _ ch p)).trans ?_
    rw [modVbd_chan_self]
    simp [udptlPlace, ifpTaken, hq, terase]
  rw [← drainIfps_none (n := n) hempty, State.drainIfps]
  simp only [hq, hk, List.find?_cons, decide_true]
  rfl

theorem udptlReorderTimeout_idle
    (h : (∀ t, (s.chan ch).vbd.gapSince = some t → s.now < t + ms (s.chan ch).fax.reorder) ∨ (s.chan ch).vbd.ifpQ = []) :
    udptlReorderTimeout ch s = s := by
  unfold udptlReorderTimeout
  extract_lets c
  split
  next t k p rest hgap hq =>
    refine if_pos (h.elim (fun h => h t hgap) fun hempty => ?_)
    exact absurd (hempty.symm.trans hq) (List.cons_ne_nil _ _).symm
  next => rfl

/-- The state once the gap below the waiting packet `k` has been counted as lost and its IFP `p` has gone to the modulator. -/
def State.pastGap (s : State) (ch k : Nat) (p : List Byte) : State :=
  (((s.bumpBy supVbdIfpLost (k - (s.chan ch).vbd.nextRx)).modVbd ch (gapGivenUp k)).modVbd ch (ifpTaken k p)).toModem ch p

variable {t k : Nat} {p : List Byte} (hq : (s.chan ch).vbd.ifpQ = [(k, p)])
include hq

theorem udptlReorderTimeout_due (hgap : (s.chan ch).vbd.gapSince = some t) (hdue : t + ms (s.chan ch).fax.reorder ≤ s.now) :
    udptlReorderTimeout ch s = ((s.pastGap ch k p).modVbd ch gapSettled).modVbd ch (gapReopened s.now) := by
  have hdrain := drainIfps_one (s := (s.bumpBy supVbdIfpLost (k - (s.chan ch).vbd.nextRx)).modVbd ch (gapGivenUp k)) (ch := ch) (n := 63)
    (k := k) (p := p) (by simp [gapGivenUp, hq]) (by simp [gapGivenUp])
  simp only [udptlReorderTimeout, hgap, hq, if_neg (Nat.not_lt.mpr hdue)]
  exact congrArg (fun u : State => u.modVbd ch (gapReopened s.now)) hdrain

theorem pastGap_udptlPlace : udptlPlace ((s.pastGap ch k p).chan ch).vbd = (k + 1, [], none) := by
  rw [State.pastGap, toModem_udptlPlace, modVbd_chan_self, modVbd_chan_self, State.bumpBy_chan]
  simp [udptlPlace, ifpTaken, gapGivenUp, hq, terase]

/-- Nothing waits behind the gap, so that the row's last updates leave the channel as it is. -/
theorem settled_chan_self : (((s.pastGap ch k p).modVbd ch gapSettled).modVbd ch (gapReopened s.now)).chan ch = (s.pastGap ch k p).chan ch := by
  obtain ⟨-, hempty, hnone⟩ : _ ∧ ((s.pastGap ch k p).chan ch).vbd.ifpQ = [] ∧ ((s.pastGap ch k p).chan ch).vbd.gapSince = none := by
    simpa only [udptlPlace, Prod.mk.injEq] using pastGap_udptlPlace hq
  rw [modVbd_chan_self, modVbd_chan_self]
  dsimp only
  rw [gapSettled_of_none hnone, gapReopened_of_nil hempty]

omit hq in
theorem pastGap_rd_supVbdIfpLost :
    (s.pastGap ch k p).rd supVbdIfpLost = (s.rd supVbdIfpLost + (k - (s.chan ch).vbd.nextRx)) % 2 ^ 64 := by
  rw [State.pastGap, toModem_rd_supVbdIfpLost]
  exact rd_bumpBy_self ..

omit hq in
theorem pastGap_aside : (s.pastGap ch k p).aside = s.aside :=
  toModem_keeps _ ch State.aside (fun u k f _ => modVbd_aside u k f) (fun _ => rfl) p

omit hq in
/-- Image data joins what the modulator has to send. -/
theorem pastGap_image {r rate : Nat} {o : List Byte} {l : Bool} (h : Config.ifpRead (s.chan ch).fax.version p = .image r rate o l) :
    s.pastGap ch k p = (((s.bumpBy supVbdIfpLost (k - (s.chan ch).vbd.nextRx)).modVbd ch (gapGivenUp k)).modVbd ch (ifpTaken k p)).modVbd ch
      (fun v => { v with toModem := v.toModem ++ [.image r rate o l] }) :=
  toModem_image (by simpa using h)

end

/-! #### A text block (R265) -/

section
variable {s : State} {ch : Nat}

/-- The packet of the relay leg's text block: the block, with its redundant generations where TEXT_RED asks for them. -/
def State.textFrame (s : State) (ch : Nat) : OutFrame :=
  let c := s.chan ch
  let old := c.vbd.textBlocks.drop (c.vbd.textBlocks.length - c.fax.textRed)
  let body := if c.fax.textRed = 0 then c.vbd.textOut
    else redPayload (old.map (fun b => (b.1, c.fax.textPt, b.2))) (streamTs c) c.fax.textPt c.vbd.textOut
  { payload := body, pt := c.fax.textPt, span := 0, eventTs := some (streamTs c), mark := c.vbd.textBlocks.isEmpty, tb := (s.chan c.peer).tb }

/-- A channel once its text block has left as packet `x`. -/
def textLeft (x : OutFrame) (c : Chan) : Chan :=
  let blocks := c.vbd.textBlocks ++ [(streamTs c, c.vbd.textOut)]
  { c with vbd := { c.vbd with textOut := [], textFirst := none, textBlocks := blocks.drop (blocks.length - 3) }
           egr := { c.egr with outQ := c.egr.outQ ++ [x] } }

theorem textBlockTimeout_early (h : ∀ t, (s.chan ch).vbd.textFirst = some t → s.now < t + ms 300) : textBlockTimeout ch s = s := by
  unfold textBlockTimeout
  extract_lets c
  split
  next => rfl
  next t ht => exact if_pos (h t ht)

theorem textBlockTimeout_due {t : Nat} (ht : (s.chan ch).vbd.textFirst = some t) (hdue : t + ms 300 ≤ s.now) :
    textBlockTimeout ch s = s.modChan ch (textLeft (s.textFrame ch)) := by
  simp only [textBlockTimeout, ht, if_neg (Nat.not_lt.mpr hdue)]
  rfl

end

/-! #### The return to IDLE (R247) -/

/-- From `s` to `t` only channels of `l` have changed, and no channel's state or peer. -/
structure OnlyLegs (l : List Nat) (s t : State) : Prop where
  others : ∀ k, k ∉ l → t.chan k = s.chan k
  st : ∀ k, (t.chan k).st = (s.chan k).st
  peer : ∀ k, (t.chan k).peer = (s.chan k).peer
  frame : t = { s with chans := t.chans }

namespace OnlyLegs
variable {l : List Nat} {s t : State}

theorem refl : OnlyLegs l s s := ⟨fun _ _ => rfl, fun _ => rfl, fun _ => rfl, rfl⟩

theorem modChan {x : Nat} {f : Chan → Chan} (hst : ∀ c, (f c).st = c.st) (hpeer : ∀ c, (f c).peer = c.peer) (hx : x ∈ l)
    (h : OnlyLegs l s t) : OnlyLegs l s (t.modChan x f) where
  others k hk := (State.modChan_chan_ne t f fun hkx => hk (Eq.subst hkx.symm hx)).trans (h.others k hk)
  st k := (modChan_keeps t x Chan.st hst k).trans (h.st k)
  peer k := (modChan_keeps t x Chan.peer hpeer k).trans (h.peer k)
  frame := by
    rw [h.frame]
    rfl

theorem foldl {m : List Nat} {f : State → Nat → State} (hf : ∀ u x, x ∈ l → OnlyLegs l s u → OnlyLegs l s (f u x)) (hm : m ⊆ l)
    (h : OnlyLegs l s t) : OnlyLegs l s (m.foldl f t) :=
  List.foldlRecOn m f h fun u hu x hx => hf u x (hm hx) hu

theorem pairOf (h : OnlyLegs l s t) (ch : Nat) : t.pairOf ch = s.pairOf ch := by
  simp only [State.pairOf, h.st, h.peer]

theorem pairOf_subset (h : OnlyLegs l s t) (ch : Nat) : t.pairOf ch ⊆ s.pairOf ch := by
  rw [h.pairOf]
  exact List.Subset.refl _

end OnlyLegs

section
variable (s : State) (ch : Nat)

theorem setVbd_eq (st : Nat) : s.setVbd ch st = (s.pairOf ch).foldl (fun u x => u.modVbd x (fun v => { v with state := st })) s := by
  unfold State.setVbd State.pairOf
  dsimp only
  split <;> rfl

theorem setVbd_onlyLegs (st : Nat) : OnlyLegs (s.pairOf ch) s (s.setVbd ch st) := by
  rw [setVbd_eq]
  exact .foldl (fun _ _ hx h => .modChan (fun _ => rfl) (fun _ => rfl) hx h) (List.Subset.refl _) .refl

theorem vbdIdle_onlyLegs : OnlyLegs (s.pairOf ch) s (s.vbdIdle ch) := by
  have hset := setVbd_onlyLegs s ch 0
  have hended : OnlyLegs (s.pairOf ch) s ((s.setVbd ch 0).endEvents ch) :=
    .foldl (fun _ _ hx h => .modChan (fun _ => rfl) (fun _ => rfl) hx h) (hset.pairOf_subset ch) hset
  exact .foldl (fun _ _ hx h => .modChan (fun _ => rfl) (fun _ => rfl) hx h) (hended.pairOf_subset ch) hended

theorem vbdIdle_vbd (k : Nat) : ((s.vbdIdle ch).chan k).vbd = ((s.setVbd ch 0).chan k).vbd :=
  (foldl_keeps (fun u => (u.chan k).vbd) (fun u x => nlpUpdate_vbd u x k) _ _).trans
    (foldl_keeps (fun u => (u.chan k).vbd) (fun u x => modTone_vbd u x endTx k) _ _)

theorem foldl_modVbd_state {st k : Nat} {l : List Nat} (h : k ∈ l ∨ (s.chan k).vbd.state = st) :
    ((l.foldl (fun u x => u.modVbd x (fun v => { v with state := st })) s).chan k).vbd.state = st := by
  induction l generalizing s with
  | nil => exact h.resolve_left List.not_mem_nil
  | cons x l ih =>
    refine ih _ ?_
    by_cases hx : k = x
    · exact .inr (by rw [hx, modVbd_chan_self])
    · rw [modVbd_chan_ne s x _ hx]
      exact h.imp_left fun hmem => (List.mem_cons.mp hmem).resolve_left hx

/-- Both legs show the state set. -/
theorem setVbd_state (st : Nat) {k : Nat} (hk : k ∈ s.pairOf ch) : ((s.setVbd ch st).chan k).vbd.state = st := by
  rw [setVbd_eq]
  exact foldl_modVbd_state s (.inl hk)

theorem vbdIdle_state {k : Nat} (hk : k ∈ s.pairOf ch) : ((s.vbdIdle ch).chan k).vbd.state = 0 := by
  rw [vbdIdle_vbd, setVbd_state s ch 0 hk]

theorem mem_pairOf {k : Nat} : k ∈ s.pairOf ch ↔ k = ch ∨ ((s.chan ch).st = .bound ∧ k = (s.chan ch).peer) := by
  unfold State.pairOf
  split <;> simp [*]

/-- The last declaration or detection on either leg. -/
theorem pairOf_lastDecl : (s.pairOf ch).foldl (fun a x => max a (s.chan x).vbd.lastDecl) 0 =
    if (s.chan ch).st = .bound then max (s.chan ch).vbd.lastDecl (s.chan (s.chan ch).peer).vbd.lastDecl else (s.chan ch).vbd.lastDecl := by
  unfold State.pairOf
  split <;> simp

theorem vbdReturnIdle_eq : vbdReturnIdle ch s =
    let c := s.chan ch
    let since := if c.st = .bound then max c.vbd.lastDecl (s.chan c.peer).vbd.lastDecl else c.vbd.lastDecl
    if (c.vbd.state = 1 ∨ c.vbd.state = 4) ∧ c.fax.returnIdle ≠ 0 ∧ since + sec c.fax.returnIdle ≤ s.now then s.vbdIdle ch else s := by
  simp [vbdReturnIdle, pairOf_lastDecl, and_assoc]

end

/-- Settles O50, row by row: each row's equation, or what it comes to before and at its time; the gap's from what an IFP on its way to the
modulator leaves alone (the qualification's time is `abortWin`, log 27), the return to IDLE's from the folds over the two legs. -/
theorem voicebandTimerRows : Obligations.VoicebandTimerRows := by
  refine ⟨?_, ?_, ?_, ?_, ?_⟩
  · exact fun ch s => congrArg Host.Outcome.next (qualificationTimeout_eq s ch.val)
  · intro ch s c v
    refine ⟨fun h => congrArg Host.Outcome.next (udptlReorderTimeout_idle h), fun t k p hgap hq hdue => ?_⟩
    have hplace := pastGap_udptlPlace hq
    simp only [udptlPlace, Prod.mk.injEq] at hplace
    obtain ⟨hnext, hempty, hnone⟩ := hplace
    refine ⟨_, congrArg Host.Outcome.next (udptlReorderTimeout_due hq hgap hdue), ?_⟩
    beta_reduce
    rw [settled_chan_self hq]
    refine ⟨hnext, hempty, hnone, pastGap_rd_supVbdIfpLost, fun r rate o l himage => ?_⟩
    refine ⟨?_, fun m hm => ?_, eq_of_aside ?_⟩
    · rw [pastGap_image himage]
      simp [ifpTaken, gapGivenUp, v, c]
    · rw [pastGap_image himage]
      simp only [modVbd_chan_ne _ _ _ hm, State.bumpBy_chan]
    · rw [modVbd_aside, modVbd_aside, pastGap_aside]
  · intro ch s v
    exact ⟨congrArg Host.Outcome.next (txSigEndTimeout_eq s ch.val), congrArg Host.Outcome.next (saffronSilenceEnd_eq s ch.val),
      congrArg Host.Outcome.next (baudotMarkHoldEnd_eq s ch.val)⟩
  · intro ch s c
    refine ⟨fun h => congrArg Host.Outcome.next (textBlockTimeout_early h), fun t ht hdue => ?_⟩
    refine ⟨_, congrArg Host.Outcome.next (textBlockTimeout_due ht hdue), ?_⟩
    beta_reduce
    rw [State.modChan_chan_self]
    exact ⟨rfl, rfl, ⟨s.textFrame ch.val, rfl, rfl, fun hred => if_pos hred⟩, fun m hm => State.modChan_chan_ne _ _ hm, rfl⟩
  · intro ch s c d since due
    refine ⟨fun hdue => ?_, fun hearly => congrArg Host.Outcome.next ((vbdReturnIdle_eq s ch.val).trans (if_neg hearly))⟩
    have hlegs := vbdIdle_onlyLegs s ch.val
    refine ⟨_, congrArg Host.Outcome.next ((vbdReturnIdle_eq s ch.val).trans (if_pos hdue)), ?_, fun hbound => ?_,
      fun m hm hpeer => ?_, hlegs.frame⟩
    · exact vbdIdle_state s ch.val ((mem_pairOf s ch.val).mpr (.inl rfl))
    · exact vbdIdle_state s ch.val ((mem_pairOf s ch.val).mpr (.inr ⟨hbound, rfl⟩))
    · refine hlegs.others m fun hmem => ?_
      exact ((mem_pairOf s ch.val).mp hmem).elim hm fun ⟨hbound, hmp⟩ => hpeer hbound hmp

end Sys2Proof.Machine
end

section
/-! ### Steps: the command at the front of the queue, and an idle cycle -/
namespace Sys2Proof.Machine
open Sys2Proof.Safety

/-- Every command is answered by a next state. -/
theorem exec_next (c : Instr) (s : State) : ∃ t, exec c s = .next t := by
  cases c <;> exact ⟨_, rfl⟩

/-- Settles O1: a step runs the front command, and every command's meaning answers a next state. -/
theorem stepRunsFrontCommand : Obligations.StepRunsFrontCommand :=
  fun c rest s => ⟨rfl, exec_next c { s with pending := rest }⟩

/-- A time base with FREQ 0 advances by 1 ns. -/
theorem tbCycle_value {t : TimeBase} (h : t.freq = 0) : (tbCycle t).value.toNat = (t.value.toNat + 1) % 2 ^ 64 := by
  have hvalue := t.value.isLt
  have hfrac := t.frac.isLt
  have hsum : ((t.value.toNat * 2 ^ 32 + t.frac.toNat : Nat) : Int) + (2 ^ 32 : Nat) + 0 = ((t.value.toNat + 1) * 2 ^ 32 + t.frac.toNat : Nat) := by
    push_cast
    ring
  simp only [tbCycle, h, hsum, wrapInt, BitVec.toNat_ofNat]
  omega

theorem tclkCycle_tb (s : State) {n : Nat} (hn : n < 4) : (tclkCycle s).tb n = tbCycle (s.tb n) := by
  interval_cases n <;> simp [tclkCycle, State.modTb_tb_ne]

/-- Settles O2: an idle step is one TCLK cycle, which the four time bases count. -/
theorem idleStepIsOneCycle : Obligations.IdleStepIsOneCycle := by
  intro s hidle
  have hstep : step s = .next (tclkCycle s) := by simp only [step, hidle]
  refine ⟨tclkCycle s, hstep, rfl, rfl, fun n hn => tclkCycle_tb s hn, fun n hn hfreq => ?_⟩
  rw [State.tbVal, tclkCycle_tb s hn, tbCycle_value hfreq, State.tbVal]

end Sys2Proof.Machine
end

section
/-! ### The 10 MHz reference, the latch and PPS_OUT -/
namespace Sys2Proof.Machine
open Sys2Proof.Safety

theorem timLatchTb_key_ne {n m : Nat} (h : n ≠ m) : timLatchTb.key n 0 ≠ timLatchTb.key m 0 := by
  simp only [RegDesc.key, timLatchTb]
  omega

theorem timLatchTb_key_ne_req (n : Nat) : timLatchTb.key n 0 ≠ timLatchReq.key 0 0 := by
  simp only [RegDesc.key, timLatchTb, timLatchReq]
  omega

/-- A latch holds the four values, and writes no other register. -/
theorem timLatch_rd (s : State) : (∀ n < 4, (timLatch s).rd timLatchTb n = s.tbVal n) ∧ (timLatch s).rd timLatchReq = 0 ∧
    ∀ (d : RegDesc) (i j : Nat), d.key i j ≠ timLatchReq.key 0 0 → (∀ n < 4, d.key i j ≠ timLatchTb.key n 0) →
      (timLatch s).rd d i j = s.rd d i j := by
  have hval : ∀ n, s.tbVal n % 2 ^ 64 = s.tbVal n := fun n => Nat.mod_eq_of_lt (s.tb n).value.isLt
  refine ⟨fun n hn => ?_, State.rd_wr_self _ timLatchReq 0 0 0, fun d i j hreq htb => ?_⟩
  · rw [timLatch, State.rd_wr_ne _ _ (timLatchTb_key_ne_req n)]
    interval_cases n <;>
      simp (disch := decide) only [State.rd_wr_ne, State.rd_wr_self, show timLatchTb.width = 64 from rfl, hval]
  · rw [timLatch, State.rd_wr_ne _ _ hreq, State.rd_wr_ne _ _ (htb 3 (by decide)), State.rd_wr_ne _ _ (htb 2 (by decide)),
      State.rd_wr_ne _ _ (htb 1 (by decide)), State.rd_wr_ne _ _ (htb 0 (by decide))]

theorem ref10mLoss_locked {s : State} (h : s.time.ref10m = true) :
    ref10mLoss s = ({ s with time := { s.time with ref10m := false } }.wr timRefLost 1).raise 0x0042 uTIM := if_pos h

theorem ref10mLoss_unlocked {s : State} (h : s.time.ref10m = false) : ref10mLoss s = s := if_neg (by simp [h])

/-- PPS_OUT is to fall at `fall`. -/
def State.ppsFallsAt (s : State) (fall : Nat) : State := { s with time := { s.time with ppsOutFall := fall } }

theorem ppsFallsAt_ppsSecond (s : State) (fall : Nat) : (s.ppsFallsAt fall).ppsSecond = s.ppsSecond := rfl

theorem ppsOutEdge_due {s : State} (hen : s.flag timPpsOutEn = true) (h : s.time.ppsOutLast < s.ppsSecond) :
    ppsOutEdge s = (s.ppsFallsAt (s.now + ms (s.rd timPpsOutWidth))).ppsAdopt := if_pos (by simp [hen, h])

theorem ppsOutEdge_idle {s : State} (h : s.flag timPpsOutEn = false ∨ s.ppsSecond ≤ s.time.ppsOutLast) : ppsOutEdge s = s := by
  refine if_neg ?_
  rcases h with h | h <;> simp [h]

/-- The edge points up to now are behind PPS_OUT once it goes by new settings; the same settings keep a later mark. -/
theorem ppsAdopt_ppsOutLast (s : State) : s.ppsAdopt.ppsSecond ≤ s.ppsAdopt.time.ppsOutLast ∧
    (s.time.ppsTb = s.rd timPpsOutTb → s.time.ppsOffset = signed 32 (s.rd timPpsOutOffset) →
      s.ppsAdopt.time.ppsOutLast = max s.time.ppsOutLast s.ppsSecond) := by
  by_cases hsame : s.rd timPpsOutTb = s.time.ppsTb ∧ signed 32 (s.rd timPpsOutOffset) = s.time.ppsOffset
  · have hlast : s.ppsAdopt.time.ppsOutLast = max s.time.ppsOutLast s.ppsAdopt.ppsSecond :=
      if_pos (by rw [hsame.1, hsame.2]; simp)
    have hsecond : s.ppsAdopt.ppsSecond = s.ppsSecond := by
      show ((s.tbVal (s.rd timPpsOutTb) : Int) - signed 32 (s.rd timPpsOutOffset)) / 1000000000 = _
      rw [hsame.1, hsame.2, State.ppsSecond]
    exact ⟨hlast ▸ le_max_right _ _, fun _ _ => hlast.trans (by rw [hsecond])⟩
  · have hlast : s.ppsAdopt.time.ppsOutLast = s.ppsAdopt.ppsSecond := by
      refine if_neg fun h => hsame ?_
      simpa using h
    exact ⟨hlast.ge, fun htb hoff => absurd ⟨htb.symm, hoff.symm⟩ hsame⟩

theorem ppsFallsAt_ppsOut {s : State} (hen : s.flag timPpsOutEn = true) (fall : Nat) :
    (s.ppsFallsAt fall).ppsAdopt.ppsOut = decide (s.now < fall) := by
  show (s.flag timPpsOutEn && decide (s.now < fall)) = _
  rw [hen, Bool.true_and]

/-- A pulse of WIDTH ms is high unless that is no time at all. -/
theorem now_lt_pulseEnd (now width : Nat) : decide (now < now + ms width) = decide (0 < width) := by
  rw [decide_eq_decide, ms]
  omega

/-- What an edge leaves of PPS_OUT: it falls at `fall`, goes by TB and OFFSET as written, and the edge points up to now are behind it. -/
theorem ppsFallsAt_adopted {s : State} (hen : s.flag timPpsOutEn = true) (h : s.time.ppsOutLast < s.ppsSecond) (fall : Nat) :
    let t := (s.ppsFallsAt fall).ppsAdopt
    t.time.ppsOutFall = fall ∧ t.ppsOut = decide (s.now < fall) ∧ t.time.ppsTb = s.rd timPpsOutTb ∧
    t.time.ppsOffset = signed 32 (s.rd timPpsOutOffset) ∧ t.ppsSecond ≤ t.time.ppsOutLast ∧
    (s.time.ppsTb = s.rd timPpsOutTb → s.time.ppsOffset = signed 32 (s.rd timPpsOutOffset) → t.time.ppsOutLast = s.ppsSecond) ∧
    t = { s with time := { s.time with ppsOutFall := t.time.ppsOutFall, ppsTb := t.time.ppsTb, ppsOffset := t.time.ppsOffset, ppsOutLast := t.time.ppsOutLast } } := by
  obtain ⟨hle, hsame⟩ := ppsAdopt_ppsOutLast (s.ppsFallsAt fall)
  refine ⟨rfl, ppsFallsAt_ppsOut hen fall, rfl, rfl, hle, fun htb hoff => ?_, rfl⟩
  rw [hsame htb hoff, ppsFallsAt_ppsSecond]
  exact max_eq_right h.le

/-- Settles O5: each row by what its function does in the case; an edge of PPS_OUT by what adopting the settings leaves. -/
theorem timeReferenceRows : Obligations.TimeReferenceRows := by
  refine ⟨fun s => ?_, fun s => rfl, fun s h => congrArg _ (ref10mLoss_locked h), fun s h => congrArg _ (ref10mLoss_unlocked h),
    fun s hen h => ?_, fun s h => congrArg _ (ppsOutEdge_idle h)⟩
  · obtain ⟨hval, hreq, hframe⟩ := timLatch_rd s
    exact ⟨timLatch s, rfl, hval, hreq, rfl, hframe⟩
  · obtain ⟨hfall, hout, hrest⟩ := ppsFallsAt_adopted hen h (s.now + ms (s.rd timPpsOutWidth))
    exact ⟨_, congrArg Host.Outcome.next (ppsOutEdge_due hen h), hfall, hout.trans (now_lt_pulseEnd _ _), hrest⟩

end Sys2Proof.Machine
end

section
/-! ### Holdover, the mean path delay and the choice of a master -/
namespace Sys2Proof.Machine
open Sys2Proof.Safety

section
variable {s : State} {n : Nat}

theorem servoHoldover_due (hsrc : s.rd timTbSrc n ≠ 0) (href : s.flag timTbStepRefused n = false) (hdue : (s.tb n).sampleAt + sec 3 ≤ s.now) :
    servoHoldover n s = (s.wr timTbState 3 n).modTb n (fun t => { t with lockRun := 0 }) :=
  if_pos (by simp [hsrc, href, hdue])

theorem servoHoldover_idle (h : s.rd timTbSrc n = 0 ∨ s.flag timTbStepRefused n = true ∨ s.now < (s.tb n).sampleAt + sec 3) :
    servoHoldover n s = s := by
  refine if_neg ?_
  rcases h with h | h | h <;> simp [h]

theorem ptpRuns_iff : s.ptpRuns n = true ↔ s.rd timTbSrc n = 1 ∧ s.sup.restarting = false := by simp [State.ptpRuns]

theorem popOwn_some {p : Nat} {e : TxStamp} (h : (s.port p).txStamps.find? (fun t => !t.host) = some e) :
    s.popOwn p = s.modPort p (fun x => { x with txStamps := x.txStamps.erase e }) := by
  simp only [State.popOwn, h]

theorem popOwn_none {p : Nat} (h : (s.port p).txStamps.find? (fun t => !t.host) = none) : s.popOwn p = s := by
  simp only [State.popOwn, h]

theorem popOwn_frame (p : Nat) : (∀ k, k ≠ p → (s.popOwn p).port k = s.port k) ∧ s.popOwn p = { s with ports := (s.popOwn p).ports } := by
  unfold State.popOwn
  split
  · exact ⟨fun _ _ => rfl, rfl⟩
  · exact ⟨fun k hk => State.modPort_port_ne s _ hk, rfl⟩

theorem ptpDelayResp_runs (h : s.ptpRuns n = true) (t1 t2 t3 t4 corr : Int) : ptpDelayResp n t1 t2 t3 t4 corr s =
    (s.popOwn (s.rd timTbPort n)).modTb n (fun t => { t with pathDelay := ((t2 - t1) + (t4 - t3) - corr) / 2 }) := if_pos h

/-- The slave of time base `n` hears an Announce of its domain. -/
theorem ptpAnnounce_heard {a : AnnounceMsg} (h : s.ptpRuns n = true) (hd : a.domain = s.rd timTbDomain n) : ptpAnnounce n a s =
    if (s.tb n).master.any (fun m => m.identity != a.identity && !betterMaster a m && decide (s.now < (s.tb n).masterAt + sec 6)) then s
    else s.modTb n (fun t => { t with master := some a, masterAt := s.now }) := if_pos (by simp [h, hd])

theorem ptpAnnounce_deaf {a : AnnounceMsg} (h : s.rd timTbSrc n ≠ 1 ∨ s.sup.restarting = true ∨ a.domain ≠ s.rd timTbDomain n) :
    ptpAnnounce n a s = s := by
  refine if_neg ?_
  rcases h with h | h | h <;> simp [State.ptpRuns, h]

end

/-- Settles O7: each row by its condition; a Delay_Resp by what taking a timestamp leaves of the ports. -/
theorem servoRows : Obligations.ServoRows := by
  refine ⟨fun tb s hsrc href hdue => congrArg _ (servoHoldover_due hsrc href hdue), fun tb s h => congrArg _ (servoHoldover_idle h), ?_, ?_,
    fun tb a s h => congrArg _ (ptpAnnounce_deaf h)⟩
  · intro tb t1 t2 t3 t4 corr s n p hsrc hrun
    obtain ⟨hother, hframe⟩ := popOwn_frame (s := s) p
    have htime : (s.popOwn p).time = s.time := by rw [hframe]
    have htb : ∀ m, (s.popOwn p).tb m = s.tb m := fun m => by rw [State.tb, htime, State.tb]
    refine ⟨_, congrArg Host.Outcome.next (ptpDelayResp_runs (ptpRuns_iff.mpr ⟨hsrc, hrun⟩) t1 t2 t3 t4 corr), ?_, fun m hm => ?_,
      fun e he => ?_, fun hnone => ?_, hother, ?_⟩
    · rw [State.modTb_tb_self, htb]
    · rw [State.modTb_tb_ne _ _ hm, htb]
    · rw [State.modTb_port, popOwn_some he, State.modPort_port_self]
    · rw [State.modTb_ports, popOwn_none hnone]
    · rw [hframe]
      rfl
  · intro tb a s n kept hsrc hrun hdom
    have hheard := ptpAnnounce_heard (ptpRuns_iff.mpr ⟨hsrc, hrun⟩) hdom
    refine ⟨fun hnone => congrArg Host.Outcome.next (hheard.trans (if_neg (by simp [hnone]))), fun m hm => congrArg Host.Outcome.next (hheard.trans ?_)⟩
    by_cases hkept : m.identity = a.identity ∨ betterMaster a m = true ∨ (s.tb n).masterAt + sec 6 ≤ s.now
    · rw [if_pos hkept]
      refine if_neg ?_
      rcases hkept with h | h | h <;> simp [hm, h]
    · rw [if_neg hkept]
      refine if_pos ?_
      simpa [hm, and_assoc] using hkept

end Sys2Proof.Machine
end

section
/-! ### The first judged offset, and edges of PPS_IN -/
namespace Sys2Proof.Machine
open Sys2Proof.Safety

section
variable {s : State} {n : Nat}

theorem gives_next {i : Instr} {t : State} {P : State → Prop} (hx : exec i s = .next t) (ht : P t) : Gives i s P := ⟨t, hx, ht⟩

theorem judged_singleton (x : Int) : judged [x] = x := by simp [judged, insertSorted]

/-- While SET is 0 and nothing uses the time base, the judged offset is a step (R372). -/
theorem offsetSample_first {x : Int} (hr : s.sup.restarting = false) (hset : s.flag timTbSet n = false) (hu : s.tbUsed n = false)
    (hnone : (s.tb n).samples = []) : s.offsetSample n x =
      ((((((s.modTb n (fun t => { t with samples := [x] })).bump timTbSamples n).wr timTbLastJ
        (wrapInt 32 (clampInt (-2147483648) 2147483647 x)) n).applyStep n x).wr timTbSet 1 n).wr timTbState 1 n).modTb n
        (fun t => { t with sampleAt := s.now }) := by
  have hsamples : (x :: (s.tb n).samples).take 8 = [x] := by rw [hnone]; rfl
  simp only [State.offsetSample, hr, hset, hu, hsamples, judged_singleton, Bool.false_eq_true, if_false, Bool.not_false, Bool.and_self, if_true]

theorem ppsInEdge_glitch (h : s.time.ppsInAt.any (fun t => decide (s.now < t + ms 900)) = true) : ppsInEdge s = s.bump timPpsGlitch := if_pos h

/-- An edge of PPS_IN is taken: its time, and the value of each time base. -/
def State.ppsCaptured (s : State) : State :=
  (List.range 4).foldl (fun s n => s.wr timPpsCap (s.tbVal n) n) { s with time := { s.time with ppsInAt := some s.now } }

theorem ppsInEdge_taken (h : s.time.ppsInAt.any (fun t => decide (s.now < t + ms 900)) = false) : ppsInEdge s =
    (List.range 4).foldl (fun s' n => if s.rd timTbSrc n = 2 then
      s'.offsetSample n (((s.tbVal n + 500000000) / 1000000000 * 1000000000 : Nat) - s.tbVal n) else s') s.ppsCaptured := if_neg (by simp [h])

theorem timPpsCap_key_ne {k m : Nat} (h : k ≠ m) : timPpsCap.key k 0 ≠ timPpsCap.key m 0 := by
  simp only [RegDesc.key, timPpsCap]
  omega

theorem ppsCaptured_frame (s : State) : s.ppsCaptured.time = { s.time with ppsInAt := some s.now } ∧
    s.ppsCaptured = { s with regs := s.ppsCaptured.regs, time := s.ppsCaptured.time } := ⟨rfl, rfl⟩

theorem ppsCaptured_rd (s : State) (hn : n < 4) : s.ppsCaptured.rd timPpsCap n = s.tbVal n := by
  have hval : s.tbVal n % 2 ^ 64 = s.tbVal n := Nat.mod_eq_of_lt (s.tb n).value.isLt
  rw [← hval]
  interval_cases n
  · exact (State.rd_wr_ne _ _ (timPpsCap_key_ne (by decide))).trans ((State.rd_wr_ne _ _ (timPpsCap_key_ne (by decide))).trans
      ((State.rd_wr_ne _ _ (timPpsCap_key_ne (by decide))).trans (State.rd_wr_self _ timPpsCap _ 0 0)))
  · exact (State.rd_wr_ne _ _ (timPpsCap_key_ne (by decide))).trans ((State.rd_wr_ne _ _ (timPpsCap_key_ne (by decide))).trans
      (State.rd_wr_self _ timPpsCap _ 1 0))
  · exact (State.rd_wr_ne _ _ (timPpsCap_key_ne (by decide))).trans (State.rd_wr_self _ timPpsCap _ 2 0)
  · exact State.rd_wr_self _ timPpsCap _ 3 0

end

/-- Settles O9: a Sync by the first branch of the judgement; an edge of PPS_IN as a glitch, or as captured where no time base follows it. -/
theorem firstOffsetStepsBase : Obligations.FirstOffsetStepsBase := by
  refine ⟨?_, fun s h => congrArg _ (ppsInEdge_glitch h), fun s h hsrc => ?_⟩
  · intro tb t1 t2 corr s n x hsrc hr hset hu hnone
    exact congrArg Host.Outcome.next ((if_pos (ptpRuns_iff.mpr ⟨hsrc, hr⟩)).trans (offsetSample_first hr hset hu hnone))
  · have hnone : ppsInEdge s = s.ppsCaptured := by
      rw [ppsInEdge_taken h, List.foldl_ext _ (fun s _ => s) _ fun t n hn => if_neg (hsrc n (List.mem_range.mp hn)), List.foldl_fixed]
    exact ⟨_, congrArg Host.Outcome.next hnone, (ppsCaptured_frame s).1, fun n hn => ppsCaptured_rd s hn, (ppsCaptured_frame s).2⟩

/-! #### What a sample leaves of PPS_IN -/

/-- What no step of a fold over a list changes, the fold does not change. -/
theorem foldl_keeps_mem {α β : Type} (g : State → β) {f : State → α → State} {l : List α} (hf : ∀ u, ∀ x ∈ l, g (f u x) = g u) (s : State) :
    g (l.foldl f s) = g s := by
  induction l generalizing s with
  | nil => rfl
  | cons x l ih =>
    rw [List.foldl_cons, ih fun u y hy => hf u y (List.mem_cons_of_mem _ hy), hf s x List.mem_cons_self]

/-- The last accepted edge of PPS_IN and what each time base was at it. -/
def State.ppsSeen (s : State) : Option Nat × (Fin 4 → Nat) := (s.time.ppsInAt, fun n => s.rd timPpsCap n.val)

section
variable (s : State) (n : Nat)

variable {s} in
theorem of_ppsSeen_eq {t : State} (h : t.ppsSeen = s.ppsSeen) :
    t.time.ppsInAt = s.time.ppsInAt ∧ ∀ n < 4, t.rd timPpsCap n = s.rd timPpsCap n :=
  ⟨congrArg Prod.fst h, fun n hn => congrFun (congrArg Prod.snd h) ⟨n, hn⟩⟩

theorem ppsSeen_modTb (f : TimeBase → TimeBase) : (s.modTb n f).ppsSeen = s.ppsSeen := rfl

theorem ppsSeen_wr {d : RegDesc} (v i : Nat) (h : ∀ k : Fin 4, timPpsCap.key k.val 0 ≠ d.key i 0) : (s.wr d v i).ppsSeen = s.ppsSeen :=
  Prod.ext rfl (funext fun k => State.rd_wr_ne s v (h k))

/-- Of the registers of a time base only TIM_PPS_CAP stands at its place in the time base's block. -/
theorem ppsSeen_wr_tb {d : RegDesc} (v : Nat) {i : Nat} (hs : d.s1 = 0x80 := by rfl) (hk : (d.addr * 64 + d.lo) % 0x2000 ≠ timPpsCap.addr * 64 % 0x2000 := by decide) :
    (s.wr d v i).ppsSeen = s.ppsSeen := by
  refine ppsSeen_wr s v i fun k => ?_
  simp only [timPpsCap] at hk
  simp only [RegDesc.key, timPpsCap, hs]
  omega

theorem ppsSeen_bump_tb {d : RegDesc} {i : Nat} (hs : d.s1 = 0x80 := by rfl) (hk : (d.addr * 64 + d.lo) % 0x2000 ≠ timPpsCap.addr * 64 % 0x2000 := by decide) :
    (s.bump d i).ppsSeen = s.ppsSeen := ppsSeen_wr_tb s _ hs hk

theorem ppsSeen_draw : s.draw.ppsSeen = s.ppsSeen := rfl

theorem ppsSeen_steer (j : Int) : (s.steer n j).ppsSeen = s.ppsSeen := by
  unfold State.steer
  exact (ppsSeen_modTb ..).trans ((ppsSeen_draw _).trans (ppsSeen_draw _))

theorem ppsSeen_raise (code unit inst ch d0 a d1 : Nat) : (s.raise code unit inst ch d0 a d1).ppsSeen = s.ppsSeen := by
  have hkey : ∀ k : Fin 4, timPpsCap.key k.val 0 ≠ secEventsCoalesced.key 0 0 := by decide
  exact Prod.ext (by simp [State.ppsSeen]) (funext fun k => State.raise_rd_ne _ _ _ _ _ _ _ _ (hkey k))

theorem ppsSeen_regate (p : Nat) : (s.regate p).ppsSeen = s.ppsSeen := rfl

theorem ppsSeen_tickBoundary {n : Nat} (hn : n < 4) : (tickBoundary n s).ppsSeen = s.ppsSeen := by
  have hkey : ∀ k : Fin 4, timPpsCap.key k.val 0 ≠ stpMissedTick.key n 0 := fun k => by
    simp only [RegDesc.key, timPpsCap, stpMissedTick]
    omega
  unfold tickBoundary State.pushTick
  dsimp only
  split
  · split
    · exact ppsSeen_wr _ _ n hkey
    · rfl
  · rfl

theorem ppsSeen_applyStep {n : Nat} (hn : n < 4) (d : Int) : (s.applyStep n d).ppsSeen = s.ppsSeen := by
  unfold State.applyStep
  extract_lets s1 s2 s3 s4
  have hregate : s4.ppsSeen = s3.ppsSeen := foldl_keeps State.ppsSeen (fun u p => by split <;> rfl) _ s3
  exact (ppsSeen_tickBoundary s4 hn).trans (hregate.trans (ppsSeen_wr_tb s1 _))

theorem ppsSeen_clearRefusal : (s.clearRefusal n).ppsSeen = s.ppsSeen := by
  unfold State.clearRefusal
  split
  · exact (ppsSeen_raise ..).trans ((ppsSeen_wr_tb _ _).trans (ppsSeen_wr_tb _ _))
  · rfl

/-- Judging a sample changes neither the last edge nor what was captured at it. -/
theorem ppsSeen_offsetSample {n : Nat} (hn : n < 4) (x : Int) : (s.offsetSample n x).ppsSeen = s.ppsSeen := by
  unfold State.offsetSample
  split
  · rfl
  extract_lets ss j limit s1 s2 s3 s4 run s5
  have hs1 : s1.ppsSeen = s.ppsSeen := (ppsSeen_wr_tb (d := timTbLastJ) _ _).trans ((ppsSeen_bump_tb (d := timTbSamples) _).trans (ppsSeen_modTb ..))
  split
  · exact (ppsSeen_modTb ..).trans <| (ppsSeen_wr_tb (d := timTbState) _ _).trans ((ppsSeen_wr_tb (d := timTbSet) _ _).trans ((ppsSeen_applyStep s1 hn j).trans hs1))
  split
  · have hs2 : s2.ppsSeen = s.ppsSeen := (ppsSeen_wr_tb (d := timTbPendStep) s1 _).trans hs1
    split
    · exact hs2
    · have hs3 : s3.ppsSeen = s2.ppsSeen := (ppsSeen_bump_tb (d := timTbStepsRefused) _).trans
        ((ppsSeen_wr_tb (d := timTbState) _ _).trans (ppsSeen_wr_tb (d := timTbStepRefused) _ _))
      exact (ppsSeen_raise ..).trans (hs3.trans hs2)
  · have hs4 : s4.ppsSeen = s.ppsSeen := (ppsSeen_clearRefusal s1 n).trans hs1
    split
    · exact (ppsSeen_bump_tb (d := timTbOutliers) _).trans hs4
    · exact (ppsSeen_wr_tb (d := timTbState) _ _).trans ((ppsSeen_steer ..).trans ((ppsSeen_modTb ..).trans hs4))

end

theorem ppsSeen_ppsInEdge {s : State} (h : s.time.ppsInAt.any (fun t => decide (s.now < t + ms 900)) = false) :
    (ppsInEdge s).ppsSeen = s.ppsCaptured.ppsSeen := by
  rw [ppsInEdge_taken h]
  refine foldl_keeps_mem State.ppsSeen (fun u n hn => ?_) _
  split
  · exact ppsSeen_offsetSample u (List.mem_range.mp hn) _
  · rfl

/-- No edge within the last 900 ms is a glitch of the edge that comes now. -/
theorem any_early_eq_false_iff (s : State) (gap : Nat) :
    s.time.ppsInAt.any (fun t => decide (s.now < t + gap)) = false ↔ ∀ t, s.time.ppsInAt = some t → t + gap ≤ s.now := by
  cases s.time.ppsInAt <;> simp

theorem any_early_of {s : State} {t gap : Nat} (ht : s.time.ppsInAt = some t) (h : s.now < t + gap) :
    s.time.ppsInAt.any (fun t => decide (s.now < t + gap)) = true := by
  rw [ht]
  exact decide_eq_true h

/-- What an edge of PPS_IN that is no glitch leaves. -/
theorem ppsInEdge_seen {s : State} (h : ∀ t, s.time.ppsInAt = some t → t + ms 900 ≤ s.now) :
    (ppsInEdge s).time.ppsInAt = some s.now ∧ ∀ n < 4, (ppsInEdge s).rd timPpsCap n = s.tbVal n := by
  obtain ⟨hat, hcap⟩ := of_ppsSeen_eq (ppsSeen_ppsInEdge ((any_early_eq_false_iff s (ms 900)).mpr h))
  refine ⟨hat.trans ?_, fun n hn => (hcap n hn).trans (ppsCaptured_rd s hn)⟩
  rw [(ppsCaptured_frame s).1]

/-- Settles O10: what each sample that follows an edge leaves alone. -/
theorem ppsInEdgeCaptured : Obligations.PpsInEdgeCaptured :=
  fun _ => ⟨fun h => gives_next rfl (ppsInEdge_seen h), fun _ ht hearly => congrArg Host.Outcome.next (ppsInEdge_glitch (any_early_of ht hearly))⟩

end Sys2Proof.Machine
end

section
/-! ### TIMEBASE_SET and TIMEBASE_STEP_ACCEPT -/
namespace Sys2Proof.Machine
open Sys2Proof.Safety

section
variable {c : HostCmd} {op : Nat} {used : List (Nat × Nat)} {groups : Bool} {s t : State} {f : State → Reply}

/-- A command whose rule is done completes with OK and the rule's results. -/
theorem next_done {r2 r3 : Nat} (h : commandRuns c op used groups s = true) (hf : f s = .done t r2 r3) :
    (.next (runCommand c op used groups f s) : Out) = .next (ok c op r2 r3 t) := by
  rw [runCommand_runs f h, hf]
  rfl

theorem next_accepted (h : commandRuns c op used groups s = true) (hf : f s = .accepted t) :
    (.next (runCommand c op used groups f s) : Out) =
      let u := t.complete c.qid.val c.tag.toNat op stACCEPTED 0 0 0
      .next { u with sup := { u.sup with finals := u.sup.finals + 1 } } := by
  rw [runCommand_runs f h, hf]

end

section
variable (c : HostCmd) (s : State)

/-- The settings of TIMEBASE_SET's ACTION 0 on its time base. -/
def State.configured : State :=
  let n := bits c.w1.toNat 0 2
  let w := c.w3.toNat
  ((((s.wr timTbSrc (bits w 0 2) n).wr timTbPort (bits w 2 2) n).wr timTbTransport (bits w 4 2) n).wr timTbDomain (bits w 8 8) n).wr timTbStepLimit (bits w 32 20) n

theorem applyConfigure_eq : applyConfigure c s =
    let n := bits c.w1.toNat 0 2
    let w := c.w3.toNat
    if bits w 4 2 = 3 then .refuse stBAD_PARAM 24
    else if bits w 32 20 < 10 ∨ 1000000 < bits w 32 20 then .refuse stBAD_PARAM 28
    else if s.rd timTbSrc n = bits w 0 2 ∧ s.rd timTbPort n = bits w 2 2 then .done (s.configured c) 0 0
    else .done ((((s.configured c).clearRefusal n).modTb n
      (fun t => { t with samples := [], lockRun := 0, sampleAt := s.now, master := none, pathDelay := 0 })).wr timTbState (if bits w 0 2 = 0 then 0 else 1) n) 0 0 := by
  simp only [applyConfigure, State.configured, Bool.or_eq_true, decide_eq_true_eq, gt_iff_lt, Bool.not_eq_true', Bool.or_eq_false_iff,
    bne_eq_false_iff_eq]

theorem applyFreq_eq : applyFreq c s =
    let n := bits c.w1.toNat 0 2
    let f := signed 32 (bits c.w3.toNat 0 32)
    if s.rd timTbSrc n ≠ 0 then .refuse stBAD_STATE 0
    else if 4294967 < f.natAbs then .refuse stBAD_PARAM 24
    else .done (s.modTb n (fun t => { t with freq := f, tracked := f })) 0 0 := by
  simp only [applyFreq, bne_iff_ne, gt_iff_lt]

theorem applyHostSample_eq : applyHostSample c s =
    let n := bits c.w1.toNat 0 2
    let second := s.tbVal n / 1000000000
    let count := if (s.tb n).hostSec = second then (s.tb n).hostCount else 0
    if s.rd timTbSrc n ≠ 3 then .refuse stBAD_STATE 0
    else if 128 ≤ count then .refuse stBUSY 0
    else .done ((s.modTb n (fun t => { t with hostSec := second, hostCount := count + 1 })).offsetSample n (signed 64 c.w3.toNat)) 0 0 := by
  simp only [applyHostSample, bne_iff_ne, ge_iff_le]

theorem applyAccept_eq : applyAccept c s =
    let n := bits c.w1.toNat 0 2
    let pend := signed 64 (s.rd timTbPendStep n)
    if s.flag timTbStepRefused n = true ∧ (pend - signed 64 c.w3.toNat).natAbs ≤ s.rd timTbStepLimit n
    then .done ((((s.applyStep n pend).wr timTbStepRefused 0 n).wr timTbPendStep 0 n).wr timTbState 1 n) (wrapInt 64 pend) ((s.applyStep n pend).tbVal n)
    else .refuse stBAD_STATE 0 := by
  have hcheck : ∀ (b : Bool) (x y : Nat), (!b || decide (x > y)) = true ↔ ¬(b = true ∧ x ≤ y) := by simp
  simp only [applyAccept, hcheck, ite_not]
  rfl

end

section
variable {c : HostCmd} {op : Nat} {used : List (Nat × Nat)} {groups : Bool} {s : State} {f : State → Reply}

/-- A rule that checks `p`: the command comes to what it comes to in either case. -/
theorem next_ite {p : Prop} [Decidable p] {x y : Reply} {a b : State} (hf : f s = if p then x else y)
    (hx : p → f s = x → (.next (runCommand c op used groups f s) : Out) = .next a) (hy : ¬p → f s = y → (.next (runCommand c op used groups f s) : Out) = .next b) :
    (.next (runCommand c op used groups f s) : Out) = .next (if p then a else b) := by
  split_ifs at hf with h
  · rw [if_pos h, hx h hf]
  · rw [if_neg h, hy h hf]

end

/-- Settles O11: each command by its rule's checks in their order. -/
theorem timebaseCommands : Obligations.TimebaseCommands := by
  refine ⟨?_, ?_, ?_, ?_, ?_⟩
  · intro c s n w set fresh h
    exact next_ite (applyConfigure_eq c s) (fun _ => next_refuse h) fun _ h1 => next_ite h1 (fun _ => next_refuse h) fun _ h2 =>
      next_ite h2 (fun _ => next_done h) fun _ => next_done h
  · intro c s n f h
    exact next_ite (applyFreq_eq c s) (fun _ => next_refuse h) fun _ h1 => next_ite h1 (fun _ => next_refuse h) fun _ => next_done h
  · intro c s n h
    exact next_ite (p := s.tbUsed n = true) rfl (fun _ => next_refuse h) fun _ => next_done h
  · intro c s n second count h
    exact next_ite (applyHostSample_eq c s) (fun _ => next_refuse h) fun _ h1 => next_ite h1 (fun _ => next_refuse h) fun _ => next_done h
  · intro c s n pend h
    exact next_ite (applyAccept_eq c s) (fun _ => next_done h) fun _ => next_refuse h

end Sys2Proof.Machine
end

section
/-! ### Requests through SUP_RESET_CTL, and COLD -/
namespace Sys2Proof.Machine
open Sys2Proof.Safety

section
variable {s : State}

/-- Outside service access and erasure, a write of SUP_RESET_CTL is a request with GO, KEY and a used KIND in one 64-bit access (R476). -/
theorem resetAccepted_iff {width w : Nat} (hserv : s.flag secService = false) (hera : s.flag secErasing = false) : s.resetAccepted width w = true ↔
    width = 64 ∧ bit w 32 = true ∧ bits w 16 16 = 0x5AFE ∧ 1 ≤ bits w 0 3 ∧ bits w 0 3 ≤ 4 := by
  simp [State.resetAccepted, hserv, hera, and_assoc]

/-- KIND and TARGET of a request that is taken. -/
def State.resetNoted (s : State) (w : Nat) : State := (s.wr supResetKind (bits w 0 3)).wr supResetTarget (bits w 4 2)

theorem resetCtl_taken {width w : Nat} (hg : goodAccess 0x10300 width = true) (h : s.resetAccepted width w = true) :
    resetCtl 0x10300 width w s = (s.resetNoted w).resetKind (bits w 0 3) (bits w 4 2) := by
  simp only [resetCtl, hg, h, bne_self_eq_false, Bool.not_true, Bool.or_self, Bool.false_eq_true, if_false]
  rfl

theorem resetCtl_refused {width w : Nat} (hg : goodAccess 0x10300 width = true) (h : s.resetAccepted width w = false) :
    resetCtl 0x10300 width w s = s.wr supResetCfgErr 1 := by
  simp only [resetCtl, hg, h, bne_self_eq_false, Bool.not_true, Bool.not_false, Bool.or_true, Bool.false_eq_true, if_false, if_true]

end

/-- Settles O16: a write with GO, KEY and a used KIND makes its request, every other one is refused. -/
theorem resetControlTaken : Obligations.ResetControlTaken := by
  intro width v s w kind acts t hg hserv hera
  have hiff : s.resetAccepted width w = true ↔ acts := resetAccepted_iff hserv hera
  have htaken : ∀ n, acts → kind = n → resetCtl 0x10300 width w s = t.resetKind n (bits w 4 2) := fun n ha hk =>
    (resetCtl_taken hg (hiff.mpr ha)).trans (congrArg (fun k => t.resetKind k (bits w 4 2)) hk)
  refine ⟨fun ha hk => congrArg _ (htaken 1 ha hk), fun ha hk => congrArg _ (htaken 2 ha hk), fun ha hk => congrArg _ (htaken 3 ha hk),
    fun ha hk => congrArg _ (htaken 4 ha hk), fun hno i hi => ?_⟩
  have hrefused : resetCtl 0x10300 width w s = s.wr supResetCfgErr 1 :=
    resetCtl_refused hg (Bool.eq_false_iff.mpr fun h => hno (hiff.mp h))
  rcases hi with rfl | rfl | rfl | rfl <;> exact congrArg Host.Outcome.next hrefused

/-! #### COLD -/

theorem tget_tkeep_drop {α : Type} (t : Tbl α) {p : Nat → Bool} {k : Nat} (d : α) (h : p k = false) : tget (tkeep t p) k d = d := by
  induction t with
  | nil => rfl
  | cons e r ih =>
    obtain ⟨j, v⟩ := e
    rw [tkeep] at ih ⊢
    by_cases hp : p j = true
    · have hj : j ≠ k := fun hjk => by simp [← hjk, hp] at h
      simp [tget, hp, hj, ih]
    · simp [hp, ih]

/-- The key of a field that lies in fuses, or in the cages of modules (R478). -/
def fuseKey (k : Nat) : Bool := (descOfKey k).any (fun h => fuseRegs.contains h.d)

/-- The keys of the fields that COLD writes after it has cleared the registers. -/
def coldKeys : List Nat := [secSvnFloorSup.key 0 0, secSvnFloorPack.key 0 0, pwrTjWarn.key 0 0, pwrTjTrip.key 0 0, pwrTjCrit.key 0 0]

/-- The machine after COLD, but for the temperatures' limits and the test access port. -/
def State.coldCleared (s : State) : State :=
  let t : State := { pending := s.pending, now := s.now, freeCtr := s.freeCtr + 1, regs := tkeep s.regs fuseKey
                     sup := { vault := { partitionGen := s.sup.vault.partitionGen + 1 } } }
  let u := (List.range 4).foldl (fun (t : State) p => t.modPort p (fun x => { x with
    modInfo := (s.port p).modInfo, modUnread := s.flag ethModPresent p })) t
  (u.wr secSvnFloorSup (u.rd secSvnFusedSup)).wr secSvnFloorPack (u.rd secSvnFusedPack)

/-- The limits of the temperatures, and the test access port, by the fuses. -/
def State.coldLimits (s : State) : State :=
  let warm := if s.flag pwrGrade then 10 else 0
  let t : State := { s with pwr := { s.pwr with testPort := decide (s.rd secLifecycle = 0) } }
  ((t.wr pwrTjWarn (90 + warm)).wr pwrTjTrip (105 + warm)).wr pwrTjCrit (110 + warm)

theorem coldRun_eq (s : State) : s.coldRun = s.coldCleared.coldLimits := rfl

theorem coldLimits_pwr (s : State) : s.coldLimits.pwr = { s.pwr with testPort := decide (s.rd secLifecycle = 0) } := rfl

section
variable (s : State) {d : RegDesc} {i j : Nat}

theorem coldLimits_rd (h : d.key i j ∉ coldKeys) : s.coldLimits.rd d i j = s.rd d i j := by
  simp only [coldKeys, List.mem_cons, List.not_mem_nil, or_false, not_or] at h
  obtain ⟨-, -, hwarn, htrip, hcrit⟩ := h
  rw [State.coldLimits, State.rd_wr_ne _ _ hcrit, State.rd_wr_ne _ _ htrip, State.rd_wr_ne _ _ hwarn]
  rfl

theorem coldCleared_rd (h : d.key i j ∉ coldKeys) : s.coldCleared.rd d i j = tget (tkeep s.regs fuseKey) (d.key i j) (d.reset i) := by
  simp only [coldKeys, List.mem_cons, List.not_mem_nil, or_false, not_or] at h
  obtain ⟨hsup, hpack, -⟩ := h
  rw [State.coldCleared, State.rd_wr_ne _ _ hpack, State.rd_wr_ne _ _ hsup, foldl_keeps (fun u : State => u.rd d i j) fun u p => State.modPort_rd ..]
  rfl

theorem coldRun_rd (h : d.key i j ∉ coldKeys) : s.coldRun.rd d i j = tget (tkeep s.regs fuseKey) (d.key i j) (d.reset i) :=
  (coldLimits_rd _ h).trans (coldCleared_rd s h)

/-- A field in fuses stays. -/
theorem coldRun_rd_fuse (h : d.key i j ∉ coldKeys) (hf : fuseKey (d.key i j) = true) : s.coldRun.rd d i j = s.rd d i j :=
  (coldRun_rd s h).trans (tget_tkeep s.regs _ hf)

/-- Any other field is at its reset value. -/
theorem coldRun_rd_reset (h : d.key i j ∉ coldKeys) (hf : fuseKey (d.key i j) = false) : s.coldRun.rd d i j = d.reset i :=
  (coldRun_rd s h).trans (tget_tkeep_drop s.regs _ hf)

theorem coldRun_bootState : s.coldRun.rd mbxBootState = 0 := coldRun_rd_reset s (by decide) (by decide +kernel)

theorem coldRun_bootWarm : s.coldRun.flag mbxBootWarm = false := by
  rw [State.flag, coldRun_rd_reset s (by decide) (by decide +kernel)]
  rfl

theorem coldRun_lifecycle : s.coldRun.rd secLifecycle = s.rd secLifecycle := coldRun_rd_fuse s (by decide) (by decide +kernel)

theorem coldRun_svnFused : s.coldRun.rd secSvnFusedSup = s.rd secSvnFusedSup := coldRun_rd_fuse s (by decide) (by decide +kernel)

/-- In TEST the test access port answers (R530). -/
theorem coldRun_pwr : s.coldRun.pwr = { testPort := decide (s.rd secLifecycle = 0) } := by
  rw [coldRun_eq, coldLimits_pwr, ← coldRun_lifecycle s, coldRun_eq, coldLimits_rd _ (by decide)]
  rfl

end

/-- The clock and the queue of commands, which are the model's own, go on over COLD. -/
theorem coldRun_clock (s : State) : s.coldRun.pending = s.pending ∧ s.coldRun.now = s.now := by
  unfold State.coldRun
  dsimp only [State.wr_pending, State.wr_now]
  exact ⟨foldl_keeps State.pending (fun u p => State.modPort_pending ..) _ _, foldl_keeps State.now (fun u p => State.modPort_now ..) _ _⟩

/-- Settles O18: each cause runs COLD, whose registers are the fuses' alone. -/
theorem powerRows : Obligations.PowerRows := by
  refine ⟨fun _ => rfl, fun n s => ⟨fun h => ?_, fun h => ?_, fun h4 h6 => ?_⟩, fun r s => gives_next rfl rfl, fun _ => rfl, fun s => ?_⟩
  · exact congrArg Host.Outcome.next (if_pos h)
  · exact congrArg Host.Outcome.next ((if_neg (by omega)).trans (if_pos h))
  · exact congrArg Host.Outcome.next ((if_neg (by omega)).trans (if_neg (by omega)))
  · obtain ⟨hpending, hnow⟩ := coldRun_clock s
    exact ⟨hpending, hnow, coldRun_bootState s, coldRun_bootWarm s, rfl, rfl, rfl, rfl, rfl, rfl, rfl, rfl, rfl, rfl, rfl, coldRun_pwr s, rfl, rfl, rfl, rfl,
      coldRun_lifecycle s, coldRun_svnFused s⟩

end Sys2Proof.Machine
end

section
/-! ### Function-level resets and link-downs -/
namespace Sys2Proof.Machine
open Sys2Proof.Safety

/-- What a CAPTURE_EXPORT that is abandoned may change is the captures, their rings, registers and the entries that wait to be written: the state with
these set aside. -/
def State.noExports (s : State) : State :=
  { s with cap := {}, regs := [], mem := { s.mem with frameMap := [] }, sup := { s.sup with finals := 0, deferred := [] } }

theorem wr_noExports (s : State) (d : RegDesc) (v i j : Nat) : (s.wr d v i j).noExports = s.noExports := rfl

theorem modCap_noExports (s : State) (src : Nat) (f : Capture → Capture) : (s.modCap src f).noExports = s.noExports := by
  unfold State.modCap
  split <;> rfl

theorem stopCapture_noExports (s : State) (src : Nat) : (s.stopCapture src).noExports = s.noExports := by
  unfold State.stopCapture
  split
  · rfl
  · split <;> rfl

theorem exportOver_noExports (s : State) (u : Nat) (j : LakeJob) (f : Capture → Capture) : (s.exportOver u j f).noExports = s.noExports := by
  unfold State.exportOver
  dsimp only
  split
  · exact (stopCapture_noExports _ _).trans (modCap_noExports _ _ _)
  · exact modCap_noExports _ _ _

theorem exportFails_noExports (s : State) (u : Nat) (j : LakeJob) : (s.exportFails u j).noExports = s.noExports :=
  exportOver_noExports s u j _

/-- The completion of a command whose queue is gone is written nowhere. -/
theorem completeFinal_gone_noExports (s : State) (tag st : Nat) : (s.completeFinal 64 tag st 0 0).noExports = s.noExports := by
  unfold State.completeFinal
  split <;> rfl

/-- Every CAPTURE_EXPORT under way, and every one that waits, has failed. -/
def State.exportsFailed (s : State) : State :=
  let t := s.cap.running.foldl (fun (s : State) e => (s.exportFails e.1 e.2).completeFinal 64 0 stDENIED 0 0) s
  t.cap.queue.foldl (fun (s : State) j => (s.exportFails 2 j).completeFinal 64 0 stDENIED 0 0) t

theorem abandonExports_eq (s : State) : s.abandonExports = let t := s.exportsFailed
    { t with cap := { t.cap with queue := [] } } := rfl

theorem exportsFailed_keeps {β : Type} (g : State → β) (hg : ∀ u n j, g (State.completeFinal (State.exportFails u n j) 64 0 stDENIED 0 0) = g u)
    (s : State) : g s.exportsFailed = g s :=
  (foldl_keeps g (fun u j => hg u 2 j) _ _).trans (foldl_keeps g (fun u (e : Nat × LakeJob) => hg u e.1 e.2) _ _)

theorem abandonExports_noExports (s : State) : s.abandonExports.noExports = s.noExports :=
  exportsFailed_keeps State.noExports (fun _ _ _ => (completeFinal_gone_noExports ..).trans (exportFails_noExports ..)) s

/-- The commands and operations that no abandoned CXL.cache request served, with the credits given back. -/
def State.cacheDropped (s : State) : State :=
  let all := s.host.cacheOut ++ s.host.cacheWait
  let serves := fun (k q tag : Nat) => all.any (fun r => r.serves = k && r.qid = q && r.tag = tag)
  State.syncPools { s with
    host := { s.host with cacheOut := [], cacheWait := [] }
    sup := { s.sup with
      taken := s.sup.taken.filter (fun t => !(serves 0 t.qid t.tag || serves 2 t.qid t.tag))
      finals := s.sup.finals - (all.filter (fun r => r.serves = 3 && r.last)).length } }

theorem abandonCache_noExports (s : State) : s.abandonCache.noExports = s.cacheDropped.noExports := by
  refine (abandonExports_noExports _).trans ?_
  split <;> rfl

/-- What an FLR leaves of the queues, MSI-X, the mailbox and the IDE streams, and the registers that it keeps. -/
def State.flrCleared (s : State) : State :=
  let t := s.resetRegs .flr
  { t with
    host := { t.host with queues := [], xq := [], nq := {}, msix := [], msixPend := [], reply := {}, bgStatus := 0 }
    sup := { t.sup with vault := { t.sup.vault with ideKeys := [], ideGo := [] } } }

theorem flrRun_eq (s : State) : s.flrRun = s.discardTaken.abandonCache.flrCleared := rfl

theorem flrCleared_noExports {s t : State} (h : s.noExports = t.noExports) : s.flrCleared.noExports = t.flrCleared.noExports :=
  (congrArg (fun u : State => u.flrCleared.noExports) h : s.noExports.flrCleared.noExports = t.noExports.flrCleared.noExports)

theorem flrRun_noExports (s : State) : s.flrRun.noExports = s.discardTaken.cacheDropped.flrCleared.noExports :=
  flrCleared_noExports (abandonCache_noExports s.discardTaken)

/-- Of the commands taken, those that stay apply without a completion (R413). -/
theorem discardTaken_cacheDropped_taken (s : State) : ∀ k ∈ s.discardTaken.cacheDropped.sup.taken, k.discard = true := by
  intro k hk
  obtain ⟨a, -, rfl⟩ := List.mem_map.mp (List.mem_of_mem_filter hk)
  rfl

/-- The state after an FLR but for the abandoned exports. -/
def State.flrBase (s : State) : State := s.discardTaken.cacheDropped.flrCleared

theorem discardTaken_eq (s : State) : s.discardTaken = { s with sup := s.discardTaken.sup, img := s.discardTaken.img } := rfl

theorem cacheDropped_eq (s : State) : s.cacheDropped = { s with host := s.cacheDropped.host, sup := s.cacheDropped.sup } := rfl

theorem flrCleared_eq (s : State) : s.flrCleared = { s with host := s.flrCleared.host, sup := s.flrCleared.sup, regs := s.flrCleared.regs } := rfl

theorem flrBase_eq (s : State) : s.flrBase =
    { s with host := s.flrBase.host, sup := s.flrBase.sup, regs := s.flrBase.regs, img := s.flrBase.img } := by
  have h1 := discardTaken_eq s
  have h2 := cacheDropped_eq s.discardTaken
  have h3 := flrCleared_eq s.discardTaken.cacheDropped
  unfold State.flrBase
  generalize s.discardTaken.cacheDropped.flrCleared = x at *
  generalize s.discardTaken.cacheDropped = y at *
  generalize s.discardTaken = z at *
  rw [h3, h2, h1]

/-- The link, its snoop filter and the window's decoder stay over an FLR. -/
theorem flrBase_link (s : State) : s.flrBase.host.linkUp = s.host.linkUp ∧ s.flrBase.host.snoop = s.host.snoop ∧ s.flrBase.host.hdmSize = s.host.hdmSize := by
  have h1 : s.discardTaken.host = s.host := (congrArg State.host (discardTaken_eq s) :)
  have h2 : ∀ u : State, u.cacheDropped.host.linkUp = u.host.linkUp ∧ u.cacheDropped.host.snoop = u.host.snoop ∧
      u.cacheDropped.host.hdmSize = u.host.hdmSize := fun u => by
    unfold State.cacheDropped
    exact ⟨rfl, rfl, rfl⟩
  have h3 : ∀ u : State, u.flrCleared.host.linkUp = u.host.linkUp ∧ u.flrCleared.host.snoop = u.host.snoop ∧
      u.flrCleared.host.hdmSize = u.host.hdmSize := fun u => by
    unfold State.flrCleared
    exact ⟨rfl, rfl, rfl⟩
  obtain ⟨a2, b2, c2⟩ := h2 s.discardTaken
  obtain ⟨a3, b3, c3⟩ := h3 s.discardTaken.cacheDropped
  rw [h1] at a2 b2 c2
  exact ⟨a3.trans a2, b3.trans b2, c3.trans c2⟩

theorem flrCleared_host (s : State) : s.flrCleared.host.queues = [] ∧ s.flrCleared.host.xq = [] ∧ s.flrCleared.host.nq = {} ∧ s.flrCleared.host.msix = [] ∧
    s.flrCleared.host.cacheOut = s.host.cacheOut ∧ s.flrCleared.host.cacheWait = s.host.cacheWait := by
  unfold State.flrCleared
  exact ⟨rfl, rfl, rfl, rfl, rfl, rfl⟩

theorem cacheDropped_empty (s : State) : s.cacheDropped.host.cacheOut = [] ∧ s.cacheDropped.host.cacheWait = [] := by
  unfold State.cacheDropped
  exact ⟨rfl, rfl⟩

theorem flrRun_noExports_eq (s : State) : s.flrRun.noExports = s.flrBase.noExports := flrRun_noExports s

section
variable (s : State)

theorem flrRun_host : s.flrRun.host = s.flrBase.host := (congrArg State.host (flrRun_noExports_eq s) :)

theorem flrRun_taken : s.flrRun.sup.taken = s.flrBase.sup.taken := (congrArg (fun u : State => u.sup.taken) (flrRun_noExports_eq s) :)

/-- An FLR leaves channels, ports, engines, time bases and all of memory but the frames of captures. -/
theorem flrRun_frame : s.flrRun.chans = s.chans ∧ s.flrRun.ports = s.ports ∧ s.flrRun.engines = s.engines ∧
    s.flrRun.mem = { s.mem with frameMap := s.flrRun.mem.frameMap } ∧ s.flrRun.time = s.time := by
  have h : s.flrRun.noExports = s.flrBase.noExports := flrRun_noExports s
  have hb := flrBase_eq s
  generalize s.flrRun = t at h
  generalize s.flrBase = u at h hb
  have hmem : t.noExports.mem = s.noExports.mem := (congrArg State.mem h).trans (congrArg (fun x : State => x.noExports.mem) hb :)
  exact ⟨(congrArg State.chans h :).trans (congrArg State.chans hb :), (congrArg State.ports h :).trans (congrArg State.ports hb :),
    (congrArg State.engines h :).trans (congrArg State.engines hb :), (congrArg (fun m : MemSt => { m with frameMap := t.mem.frameMap }) hmem :),
    (congrArg State.time h :).trans (congrArg State.time hb :)⟩

theorem flrRun_units : s.flrRun.slots = s.slots ∧ s.flrRun.mor = s.mor ∧ s.flrRun.ing = s.ing ∧ s.flrRun.weldU = s.weldU ∧
    s.flrRun.glaze = s.glaze ∧ s.flrRun.now = s.now := by
  have h : s.flrRun.noExports = s.flrBase.noExports := flrRun_noExports s
  have hb := flrBase_eq s
  generalize s.flrRun = t at h
  generalize s.flrBase = u at h hb
  exact ⟨(congrArg State.slots h :).trans (congrArg State.slots hb :), (congrArg State.mor h :).trans (congrArg State.mor hb :),
    (congrArg State.ing h :).trans (congrArg State.ing hb :), (congrArg State.weldU h :).trans (congrArg State.weldU hb :),
    (congrArg State.glaze h :).trans (congrArg State.glaze hb :), (congrArg State.now h :).trans (congrArg State.now hb :)⟩

end

/-- The CXL link is down until it has trained again (R390). -/
def State.linkLost (s : State) : State := { s with host := { s.host with linkUp := false, linkWidth := 0, linkRate := 0, pools := [] } }

theorem linkLost_rd (s : State) (d : RegDesc) (i j : Nat) : s.linkLost.rd d i j = s.rd d i j := rfl

/-- Settles O23: an FLR is what is discarded, the abandoned requests and exports, and the cleared queues; a link-down is an FLR and the loss of the
link. -/
theorem flrDiscards : Obligations.FlrDiscards := by
  refine fun s => ⟨fun h => ?_, fun h => ?_, gives_next rfl ⟨rfl, rfl⟩⟩
  · exact congrArg Host.Outcome.next (if_pos h)
  · have hrun : flr s = s.flrRun := if_neg (by rw [h]; decide)
    obtain ⟨hqueues, hxq, hnq, hmsix, hout, hwait⟩ := flrCleared_host s.discardTaken.cacheDropped
    obtain ⟨hempty, hempty'⟩ := cacheDropped_empty s.discardTaken
    obtain ⟨hup, hsnoop, hsize⟩ := flrBase_link s
    refine gives_next (congrArg Host.Outcome.next hrun) ?_
    rw [flrRun_host, flrRun_taken]
    exact ⟨hqueues, hxq, hnq, hmsix, hout.trans hempty, hwait.trans hempty', discardTaken_cacheDropped_taken s, hup, hsnoop, hsize, flrRun_frame s⟩

/-- Every field but the counts of Lake's registers reads as before after the abandoned exports. -/
theorem exportFails_rd_ne (s : State) (u : Nat) (j : LakeJob) {d : RegDesc} {i k : Nat} (h : d.key i k ≠ lakJobsFailed.key 0 0) :
    (s.exportFails u j).rd d i k = s.rd d i k := by
  refine (State.rd_wr_ne _ _ h).trans ?_
  unfold State.exportOver
  have hmod : ∀ (v : State) (src : Nat) (f : Capture → Capture), (v.modCap src f).rd d i k = v.rd d i k := fun v src f => by
    unfold State.modCap
    split <;> rfl
  have hstop : ∀ (v : State) (src : Nat), (v.stopCapture src).rd d i k = v.rd d i k := fun v src => by
    unfold State.stopCapture
    split
    · rfl
    · split <;> rfl
  dsimp only
  split
  · exact (hstop _ _).trans (hmod _ _ _)
  · exact hmod _ _ _

theorem completeFinal_gone_rd (s : State) (tag st : Nat) (d : RegDesc) (i k : Nat) : (s.completeFinal 64 tag st 0 0).rd d i k = s.rd d i k := by
  unfold State.completeFinal
  split <;> rfl

/-- The state of the boot survives an FLR: neither the exports nor the cleared registers hold it. -/
theorem flrRun_bootState (s : State) : s.flrRun.rd mbxBootState = s.rd mbxBootState := by
  have hfails : ∀ (v : State) (u : Nat) (j : LakeJob), ((v.exportFails u j).completeFinal 64 0 stDENIED 0 0).rd mbxBootState = v.rd mbxBootState :=
    fun v u j => (completeFinal_gone_rd ..).trans (exportFails_rd_ne v u j (by decide))
  have hexports : ∀ v : State, v.abandonExports.rd mbxBootState = v.rd mbxBootState := exportsFailed_keeps (fun u : State => u.rd mbxBootState) hfails
  have hcache : ∀ v : State, v.abandonCache.rd mbxBootState = v.rd mbxBootState := fun v => by
    refine (hexports _).trans ?_
    split
    · exact (State.rd_wr_ne _ _ (by decide)).trans (State.rd_wr_ne _ _ (by decide))
    · rfl
  have hclear : ∀ v : State, v.flrCleared.rd mbxBootState = v.rd mbxBootState := fun v => by
    refine tget_tkeep v.regs (p := fun k => match descOfKey k with
      | none => true
      | some h => keeps h.d.kept .flr || (if h.d.kept = .none then h.d.acc = .ro && ResetKind.flr != .cold else !ownedBy .flr 0 h)) _ ?_
    decide +kernel
  exact (hclear _).trans (hcache s.discardTaken)

/-- Settles O22: PERST_L runs what a link-down runs, an FLR or nothing, and then the loss of the link. -/
theorem linkDownRows : Obligations.LinkDownRows := by
  refine fun s => ⟨rfl, gives_next rfl ?_⟩
  by_cases h : s.inReset 1 = true
  · rw [show s.cxlDown = s.linkLost from congrArg State.linkLost (if_pos h)]
    exact ⟨rfl, rfl, rfl, rfl, rfl, rfl, rfl, rfl, rfl, rfl, rfl, rfl, rfl⟩
  · rw [show s.cxlDown = s.flrRun.linkLost from congrArg State.linkLost (if_neg h)]
    obtain ⟨hchans, hports, hengines, -, htime⟩ := flrRun_frame s
    obtain ⟨hslots, hmor, hing, hweld, hglaze, hnow⟩ := flrRun_units s
    have hboot := flrRun_bootState s
    generalize s.flrRun = t at *
    exact ⟨rfl, rfl, hchans, hports, hengines, htime, hslots, hmor, hing, hweld, hglaze, (linkLost_rd ..).trans hboot, hnow⟩

end Sys2Proof.Machine
end

section
/-! ### What the requested resets clear and keep -/
namespace Sys2Proof.Machine
open Sys2Proof.Safety

/-! #### Requests and a reset under way -/

section
variable {s : State}

theorem inReset_congr {t : State} (hbusy : t.rd supResetBusy = s.rd supResetBusy) (hlast : t.rd supResetLast = s.rd supResetLast)
    (hstate : t.rd mbxBootState = s.rd mbxBootState) (hwarm : t.rd mbxBootWarm = s.rd mbxBootWarm) (k : Nat) : t.inReset k = s.inReset k := by
  simp only [State.inReset, State.flag, hbusy, hlast, hstate, hwarm]

theorem resetNoted_rd_ne (w : Nat) {d : RegDesc} {i j : Nat} (hk : d.key i j ≠ supResetKind.key 0 0) (ht : d.key i j ≠ supResetTarget.key 0 0) :
    (s.resetNoted w).rd d i j = s.rd d i j :=
  (State.rd_wr_ne _ _ ht).trans (State.rd_wr_ne _ _ hk)

theorem resetNoted_inReset (w k : Nat) : (s.resetNoted w).inReset k = s.inReset k :=
  inReset_congr (resetNoted_rd_ne w (by decide) (by decide)) (resetNoted_rd_ne w (by decide) (by decide))
    (resetNoted_rd_ne w (by decide) (by decide)) (resetNoted_rd_ne w (by decide) (by decide)) k

theorem served_congr {t : State} (hstate : t.rd mbxBootState = s.rd mbxBootState) (hpwr : t.pwr = s.pwr) : t.served = s.served := by
  simp only [State.served, hstate, hpwr]

theorem resetNoted_served (w : Nat) : (s.resetNoted w).served = s.served := served_congr (resetNoted_rd_ne w (by decide) (by decide)) rfl

/-- A 64-bit write with GO and KEY makes the request of its KIND; under service access COLD alone (R476, R504). -/
theorem resetCtl_kind {w kind : Nat} (hgo : bit w 32 = true) (hkey : bits w 16 16 = 0x5AFE) (hk : bits w 0 3 = kind) (h1 : 1 ≤ kind) (h4 : kind ≤ 4)
    (hserv : s.flag secService = false ∨ kind = 4) (hera : s.flag secErasing = false) :
    resetCtl 0x10300 64 w s = (s.resetNoted w).resetKind kind (bits w 4 2) := by
  refine (resetCtl_taken (by decide) ?_).trans (by rw [hk])
  rcases hserv with hserv | hserv <;> simp [State.resetAccepted, hgo, hkey, hk, hserv, hera, h1, h4]

theorem warmRequest_absorbed (h : s.inReset 1 = true) : s.warmRequest = s.bump supResetsWarm := if_pos h

theorem warmRequest_runs (h : s.inReset 1 = false) : s.warmRequest = (s.bump supResetsWarm).warmNotice.warmComplete.warmDomains :=
  if_neg (by rw [h]; decide)

theorem coldRequest_absorbed (h : s.inReset 0 = true) : s.coldRequest = s := if_pos h

theorem coldRequest_runs (h : s.inReset 0 = false) : s.coldRequest = s.coldRun.wr supResetBusy 1 := if_neg (by rw [h]; decide)

theorem portRequest_absorbed {p : Nat} (h : s.inReset 2 = true) : s.portRequest p = s.bump supResetsPort := if_pos h

theorem portRequest_runs {p : Nat} (h : s.inReset 2 = false) : s.portRequest p = (s.bump supResetsPort).portRun p := if_neg (by rw [h]; decide)

theorem supReset_absorbed (h : s.inReset 2 = true) : supReset s = s.bump supResetsSup := if_pos (by rw [h]; rfl)

theorem supReset_runs (h : s.inReset 2 = false) (hserved : s.served = true) : supReset s = (s.bump supResetsSup).supRestart :=
  if_neg (by rw [h, hserved]; decide)

end

/-! #### PORT -/

/-- A PORT reset that finds nothing on the wire empties its port and touches nothing else but registers. -/
theorem portRun_noWire {s : State} {p : Nat} (h : (s.port p).wire = none) : let t := s.portRun p
    ((t.port p).rxQ = [] ∧ (t.port p).txStamps = [] ∧ (t.port p).wire = none) ∧ AtPort p s t := by
  have hrun : s.portRun p = ((((s.linkOff p).bringUp p).resetRegs .port p).wr ethAnFail 0 p).modPort p
      (fun x => { x with rxQ := [], txStamps := [], pauseEnd := 0 }) := by
    rw [State.portRun, portDown_noWire h]
  have hup : AtPort p s ((s.linkOff p).bringUp p) := (((AtPort.refl p s).wr _ _ _ _).wr _ _ _ _).modPort _
  have hwire : (((s.linkOff p).bringUp p).port p).wire = none := (congrArg Port.wire (bringUp_port (s.linkOff p) p)).trans h
  dsimp only
  rw [hrun]
  generalize (s.linkOff p).bringUp p = u at hup hwire
  have hregs : OnlyRegs u (u.resetRegs .port p) := rfl
  refine ⟨?_, ((hup.trans (AtPort.of_onlyRegs hregs)).wr _ _ _ _).modPort _⟩
  rw [State.modPort_port_self]
  exact ⟨rfl, rfl, hwire⟩

/-! #### SUP -/

theorem holdTime_ports (s : State) : s.holdTime.ports = s.ports ∧ s.holdTime.mem = s.mem :=
  ⟨foldl_keeps State.ports (fun u n => by split <;> rfl) _ s, foldl_keeps State.mem (fun u n => by split <;> rfl) _ s⟩

theorem supAway_ports (s u : State) : (s.supAway u).ports = u.ports ∧ (s.supAway u).mem = u.mem :=
  ⟨foldl_keeps State.ports (fun u w => State.modWarden_ports u w _) _ _, foldl_keeps State.mem (fun u w => State.modWarden_mem u w _) _ _⟩

theorem supRestart_ports (s : State) : s.supRestart.ports = s.ports ∧ s.supRestart.mem = s.mem := by
  obtain ⟨hports, hmem⟩ := holdTime_ports (s.resetRegs .sup)
  obtain ⟨hports', hmem'⟩ := supAway_ports s (s.resetRegs .sup).holdTime
  rw [supRestart_eq]
  generalize s.supAway (s.resetRegs .sup).holdTime = t at *
  dsimp only
  rw [State.boot_ports, State.boot_mem]
  exact ⟨hports'.trans hports, hmem'.trans hmem⟩

/-! #### WARM: what leaves the time bases -/

/-- The time bases are `x`. -/
def AtTime (x : TimeSt) (s : State) : Prop := s.time = x

theorem sendNext_time {s : State} {x : Nat} {t : State} (h : s.sendNext x = some t) : t.time = s.time := by
  unfold State.sendNext at h
  dsimp only at h
  split at h
  · injection h with h
    rw [← h]
    rfl
  · split at h
    · split at h
      · exact absurd h (by simp)
      · split at h <;> (injection h with h; rw [← h]; rfl)
    · split at h
      · exact absurd h (by simp)
      · split at h
        · exact absurd h (by simp)
        · injection h with h
          rw [← h]
          rfl

theorem pump_time (n : Nat) (s : State) (x : Nat) : (State.pump n s x).time = s.time := by
  induction n generalizing s with
  | zero => rfl
  | succ n ih =>
    rw [State.pump]
    split
    · rfl
    · next t h => exact (ih t).trans (sendNext_time h)

end Sys2Proof.Machine

/-! What an operation of the WARM reset leaves of the time bases: one lemma for each, named after it. -/
namespace Sys2Proof.Machine.AtTime

variable {x : TimeSt} {s : State}

theorem ite {c : Prop} [Decidable c] {t u : State} (ht : AtTime x t) (hu : AtTime x u) : AtTime x (if c then t else u) := by
  split
  · exact ht
  · exact hu

theorem foldl {α : Type} {f : State → α → State} {l : List α} (hf : ∀ t e, AtTime x t → AtTime x (f t e)) (h : AtTime x s) :
    AtTime x (l.foldl f s) := by
  induction l generalizing s with
  | nil => exact h
  | cons e r ih => exact ih (hf s e h)

section
variable (h : AtTime x s)
include h

/-- An update of any parts but the time bases. -/
theorem upd {pending now freeCtr regs sup ports ing chans slots mor engines saved weldU glaze mem host cap ring img pwr} :
    AtTime x { s with
      pending := pending, now := now, freeCtr := freeCtr, regs := regs, sup := sup, ports := ports, ing := ing, chans := chans
      slots := slots, mor := mor, engines := engines, saved := saved, weldU := weldU, glaze := glaze, mem := mem, host := host
      cap := cap, ring := ring, img := img, pwr := pwr } := h

theorem wr {d v i j} : AtTime x (s.wr d v i j) := h

theorem bump {d i j} : AtTime x (s.bump d i j) := h

theorem modChan {ch f} : AtTime x (s.modChan ch f) := h

theorem setChan {ch c} : AtTime x (s.setChan ch c) := h

theorem unpoison {q} : AtTime x (s.unpoison q) := h

theorem modMc {m f} : AtTime x (s.modMc m f) := h

theorem modPort {p f} : AtTime x (s.modPort p f) := h

theorem raise {code unit inst ch d0 a d1} : AtTime x (s.raise code unit inst ch d0 a d1) := (State.raise_time ..).trans h

theorem complete {q tag op st dt r2 r3} : AtTime x (s.complete q tag op st dt r2 r3) := (State.complete_time ..).trans h

theorem completeFinal {q tag st r2 r3} : AtTime x (s.completeFinal q tag st r2 r3) := (State.completeFinal_time ..).trans h

theorem invRebuild : AtTime x s.invRebuild := (invRebuild_time s).trans h

theorem ringSend {k dst m} : AtTime x (s.ringSend k dst m) :=
  .ite h (.ite ((pump_time ..).trans h) ((pump_time ..).trans h))

theorem sendTo {dst m} : AtTime x (s.sendTo dst m) := .ite h.ringSend (.ite h.ringSend h.ringSend.ringSend)

theorem warmNotice : AtTime x s.warmNotice := .ite h (.raise (.ite (.sendTo (.upd h)) (.upd h)))

theorem flushLate : AtTime x s.flushLate := .foldl (fun _ _ h1 => (State.raiseRec_time ..).trans h1) (.upd h)

theorem flushDeferred : AtTime x s.flushDeferred := by
  unfold State.flushDeferred
  extract_lets _ s1
  have hs1 : AtTime x s1 := .foldl (fun _ _ h1 => .ite h1.completeFinal h1.complete) (.upd h)
  exact .foldl (fun _ _ h1 => (State.notice_time ..).trans h1) (.upd hs1)

theorem finishWaits : AtTime x s.finishWaits := .foldl (fun _ _ h1 => h1.complete) (.upd h)

theorem meetWaits {ch key final} : AtTime x (s.meetWaits ch key final) := .finishWaits (.upd h)

theorem stopCapture {src} : AtTime x (s.stopCapture src) := (congrArg State.time (stopCapture_noExports s src) :).trans h

theorem publish {ch} : AtTime x (s.publish ch) := by
  unfold State.publish
  extract_lets _ _ _ _ _ _ _ _ _ _ _ _ s2 s3
  have hs2 : AtTime x s2 := .setChan (.upd (.unpoison (.foldl (fun _ _ h1 => (State.backInv_time ..).trans h1) h)))
  have hs3 : AtTime x s3 := .ite hs2.stopCapture.wr hs2
  exact .ite hs3 hs3.meetWaits

theorem placeWindows {ch judge w0 w1} : AtTime x (s.placeWindows ch judge w0 w1) := by
  unfold State.placeWindows
  extract_lets
  split
  · exact h
  · exact h

theorem applySet {ch e} : AtTime x (s.applySet ch e) := .ite h.modChan.modChan (.ite (.placeWindows h.modChan) (.ite h.modChan (.placeWindows h.modChan)))

theorem endJob {ch f} : AtTime x (s.endJob ch f) :=
  .ite h.modChan (.modChan (.foldl (fun _ _ h1 => h1.applySet) h.modChan.modChan))

theorem drainClosing {ch} : AtTime x (s.drainClosing ch) := .foldl (fun _ _ h1 => h1.modPort) h.endJob

theorem busyTaken : AtTime x s.busyTaken := .foldl (fun _ _ h1 => h1.complete) h

theorem warmComplete : AtTime x s.warmComplete :=
  .busyTaken (.foldl (fun _ _ h1 => h1.publish) (.foldl (fun _ _ h1 => h1.endJob) (.foldl (fun _ _ h1 => h1.drainClosing)
    (.finishWaits (.flushDeferred (.flushLate (.upd h)))))))

theorem abandonCache : AtTime x s.abandonCache := (congrArg State.time (abandonCache_noExports s) :).trans h

theorem loseCtx {ch} : AtTime x (s.loseCtx ch) := by
  have hgo : ∀ t : State, AtTime x t → AtTime x (State.letJumpGo t s ch) := fun t ht => by
    unfold State.letJumpGo
    split
    · exact .ite ht ht
    · exact ht
  exact hgo _ h

theorem dropCapture {m src} : AtTime x (s.dropCapture m src) :=
  .ite (.raise (.modMc (.upd h))) (.raise (.modMc (.upd h)))

theorem ctxFrame {ch} : AtTime x (s.ctxFrame ch) := by
  unfold State.ctxFrame State.allocFrame
  refine .ite h ?_
  cases s.nextFrame with
  | none => exact h
  | some t => exact h

theorem recoverCtx {ch} : AtTime x (s.recoverCtx ch) := .ite (.ringSend (.upd h)) h

theorem memchReset {m} : AtTime x (s.memchReset m) := h

theorem fenceEnd {m} : AtTime x (fenceEnd m s) :=
  .ite h (.invRebuild (.raise (.wr (.wr (.memchReset (.foldl (fun _ _ h1 => h1.recoverCtx) h))))))

theorem cutFence {m} : AtTime x (s.cutFence m) := by
  unfold State.cutFence
  split
  · exact h
  · refine .fenceEnd (.modMc (.foldl (fun t f ht => ?_) h))
    dsimp only
    split
    · exact ht
    · exact .ite (.dropCapture ht) (.ctxFrame (.upd (.foldl (fun _ _ h1 => h1.loseCtx) ht)))

theorem holdMemory : AtTime x s.holdMemory := .foldl (fun _ _ h1 => h1) (.foldl (fun _ _ h1 => h1.cutFence) h)

theorem dropLink {k} : AtTime x (s.dropLink k) := h

theorem bypass {st} : AtTime x (s.bypass st) := .wr (.wr h.dropLink.dropLink)

theorem selfFence : AtTime x s.selfFence := .wr (.upd h.bypass)

theorem clearLink : AtTime x s.clearLink := .foldl (fun _ _ h1 => h1) h

end

end Sys2Proof.Machine.AtTime

namespace Sys2Proof.Machine
open Sys2Proof.Safety

/-- PD-SUP, the ring and the registers as a WARM reset leaves them, before the ROM starts. -/
def State.warmKept (s : State) : State :=
  let t : State := { s with
    sup := clearSup s.sup, ring := clearRing s.ring
    img := { pack := s.img.pack, warmHold := true }
    pwr := { s.pwr with ethLost := false, domainsOff := s.pwr.domainsOff.filter (fun d => d = 24 || d = 28) } }
  t.warmRegs

/-- The ROM starts, with MBX_BOOT.WARM (R479). -/
def State.warmStart (s : State) : State := (((s.wr mbxBootWarm 1).wr supResetLast 1).wr supResetBusy 1).boot 0

theorem warmDomains_eq (s : State) : s.warmDomains = let t := s.abandonCache.selfFence.holdMemory
    (t.clearHost.clearLink.clearAcc warmChan t.warmEngine).warmKept.warmStart := rfl

theorem boot_host (s : State) (b : Nat) : (s.boot b).host.queues = s.host.queues ∧ (s.boot b).host.linkUp = s.host.linkUp := by
  unfold State.boot
  dsimp only
  constructor
  · split <;> split <;> rfl
  · split <;> split <;> rfl

theorem boot_rd_state (s : State) (b : Nat) (h : b < 2 ^ 4) : (s.boot b).rd mbxBootState = b := by
  unfold State.boot
  dsimp only
  generalize (if b = 5 || b = 6 || b = 15 || (b = 2 && !s.flag mbxBootWarm) then s.wr supResetBusy 0 else s) = t
  split
  · next hb => exact hb
  · exact (State.msi_rd ..).trans ((State.rd_wr_self ..).trans (Nat.mod_eq_of_lt h))

theorem boot_zero (s : State) : s.boot 0 = if s.rd mbxBootState = 0 then s else (s.wr mbxBootState 0).msi 78 := rfl

theorem boot_zero_rd_ne (s : State) {d : RegDesc} {i j : Nat} (h : d.key i j ≠ mbxBootState.key 0 0) : (s.boot 0).rd d i j = s.rd d i j := by
  rw [boot_zero]
  split
  · rfl
  · exact (State.msi_rd ..).trans (State.rd_wr_ne _ _ h)

theorem warmStart_rd (s : State) : s.warmStart.rd mbxBootState = 0 ∧ s.warmStart.flag mbxBootWarm = true ∧ s.warmStart.flag supResetBusy = true ∧
    s.warmStart.rd supResetLast = 1 := by
  refine ⟨boot_rd_state _ 0 (by decide), ?_, ?_, ?_⟩
  · rw [State.warmStart, State.flag, boot_zero_rd_ne _ (by decide), State.rd_wr_ne _ _ (by decide), State.rd_wr_ne _ _ (by decide), State.rd_wr_self]
    rfl
  · rw [State.warmStart, State.flag, boot_zero_rd_ne _ (by decide), State.rd_wr_self]
    rfl
  · rw [State.warmStart, boot_zero_rd_ne _ (by decide), State.rd_wr_ne _ _ (by decide), State.rd_wr_self]
    rfl

theorem warmStart_frame (s : State) : s.warmStart.engines = s.engines ∧ s.warmStart.weldU = s.weldU ∧ s.warmStart.glaze = s.glaze ∧
    s.warmStart.host.queues = s.host.queues ∧ s.warmStart.host.linkUp = s.host.linkUp ∧ s.warmStart.sup = s.sup ∧ s.warmStart.time = s.time :=
  ⟨State.boot_engines .., State.boot_weldU .., State.boot_glaze .., (boot_host ..).1, (boot_host ..).2, State.boot_sup .., State.boot_time ..⟩

theorem clearAcc_frame (s : State) (f : Chan → Chan) (e : Nat → MorEngine) : (s.clearAcc f e).engines = [] ∧ (s.clearAcc f e).weldU = {} ∧
    (s.clearAcc f e).glaze = {} ∧ (s.clearAcc f e).host = s.host ∧ (s.clearAcc f e).time = s.time := ⟨rfl, rfl, rfl, rfl, rfl⟩

theorem warmKept_frame (s : State) : s.warmKept.engines = s.engines ∧ s.warmKept.weldU = s.weldU ∧ s.warmKept.glaze = s.glaze ∧
    s.warmKept.host = s.host ∧ s.warmKept.sup.taken = [] ∧ s.warmKept.time = s.time := ⟨rfl, rfl, rfl, rfl, rfl, rfl⟩

/-- The reset of PD-LINK leaves the host's domain as it is. -/
theorem clearLink_host (s : State) : s.clearLink.host = s.host := by
  unfold State.clearLink
  refine foldl_keeps State.host (fun _ _ => ?_) _ s
  rfl

/-- The domains that a WARM reset has cleared, and the ROM that starts. -/
theorem warmDomains_frame (s : State) : let t := s.warmDomains
    (t.rd mbxBootState = 0 ∧ t.flag mbxBootWarm = true ∧ t.flag supResetBusy = true ∧ t.rd supResetLast = 1) ∧
    t.engines = [] ∧ t.weldU = {} ∧ t.glaze = {} ∧ t.host.queues = [] ∧ t.host.linkUp = false ∧ t.sup.taken = [] ∧ t.time = s.time := by
  have hheld : s.abandonCache.selfFence.holdMemory.time = s.time := AtTime.holdMemory (AtTime.selfFence (AtTime.abandonCache rfl))
  rw [warmDomains_eq]
  dsimp only
  generalize s.abandonCache.selfFence.holdMemory = h at hheld
  have htime : h.clearHost.clearLink.time = s.time := AtTime.clearLink (s := h.clearHost) hheld
  have hhost : h.clearHost.clearLink.host = {} := clearLink_host h.clearHost
  generalize h.clearHost.clearLink = l at htime hhost
  obtain ⟨aengines, aweld, aglaze, ahost, atime⟩ := clearAcc_frame l warmChan h.warmEngine
  generalize l.clearAcc warmChan h.warmEngine = u at *
  obtain ⟨kengines, kweld, kglaze, khost, ktaken, ktime⟩ := warmKept_frame u
  obtain ⟨sengines, sweld, sglaze, squeues, slink, ssup, stime⟩ := warmStart_frame u.warmKept
  refine ⟨warmStart_rd _, ?_, ?_, ?_, ?_, ?_, ?_, ?_⟩
  · rw [sengines, kengines, aengines]
  · rw [sweld, kweld, aweld]
  · rw [sglaze, kglaze, aglaze]
  · rw [squeues, khost, ahost, hhost]
  · rw [slink, khost, ahost, hhost]
  · rw [ssup, ktaken]
  · rw [stime, ktime, atime, htime]

/-- Settles O17: each KIND by what it runs, and by its counter alone where a reset under way absorbs it. -/
theorem resetRequestsAct : Obligations.ResetRequestsAct := by
  refine ⟨?_, ?_, ?_, ?_, ?_⟩
  · intro v s w p hgo hkey hk hserv hera hin hwire
    have hreq := resetCtl_kind hgo hkey hk (by decide) (by decide) (.inl hserv) hera
    have hrun : (s.resetNoted w).portRequest p = ((s.resetNoted w).bump supResetsPort).portRun p :=
      portRequest_runs ((resetNoted_inReset w 2).trans hin)
    obtain ⟨⟨hq, hst, hw⟩, hport⟩ := portRun_noWire (s := (s.resetNoted w).bump supResetsPort) (p := p) hwire
    obtain ⟨hother, hframe⟩ := (((((AtPort.refl p s).wr _ _ _ _).wr _ _ _ _).wr _ _ _ _).trans hport : AtPort p s _)
    refine gives_next (congrArg Host.Outcome.next (hreq.trans hrun)) ⟨hq, hst, hw, hother, ?_⟩
    rw [hframe]
    exact ⟨rfl, rfl, rfl, rfl, rfl, rfl⟩
  · intro v s w hgo hkey hk hserv hera hin hserved haway
    have hreq := resetCtl_kind hgo hkey hk (by decide) (by decide) (.inl hserv) hera
    have hrun : supReset (s.resetNoted w) = ((s.resetNoted w).bump supResetsSup).supRestart :=
      supReset_runs ((resetNoted_inReset w 2).trans hin) ((resetNoted_served w).trans hserved)
    obtain ⟨haway', -, hchans, hengines, -⟩ := supRestart_frame ((s.resetNoted w).bump supResetsSup)
    obtain ⟨hports, hmem⟩ := supRestart_ports ((s.resetNoted w).bump supResetsSup)
    refine gives_next (congrArg Host.Outcome.next (hreq.trans hrun)) ⟨haway', hengines, hchans, hports, ?_⟩
    rw [hmem]
    rfl
  · intro v s w hgo hkey hk hserv hera hin
    have hreq := resetCtl_kind hgo hkey hk (by decide) (by decide) (.inl hserv) hera
    have hrun : (s.resetNoted w).warmRequest = _ := warmRequest_runs ((resetNoted_inReset w 1).trans hin)
    have htime : ((s.resetNoted w).bump supResetsWarm).warmNotice.warmComplete.time = s.time :=
      AtTime.warmComplete (AtTime.warmNotice (s := (s.resetNoted w).bump supResetsWarm) rfl)
    obtain ⟨⟨hstate, hwarm, hbusy, hlast⟩, hengines, hweld, hglaze, hqueues, hlink, htaken, htime'⟩ :=
      warmDomains_frame ((s.resetNoted w).bump supResetsWarm).warmNotice.warmComplete
    exact gives_next (congrArg Host.Outcome.next (hreq.trans hrun))
      ⟨hstate, hwarm, hbusy, hlast, hengines, hweld, hglaze, hqueues, hlink, htaken, htime'.trans htime⟩
  · intro v s w hgo hkey hk hera hin
    have hreq := resetCtl_kind hgo hkey hk (by decide) (by decide) (.inr rfl) hera
    have hrun : (s.resetNoted w).coldRequest = (s.resetNoted w).coldRun.wr supResetBusy 1 := coldRequest_runs ((resetNoted_inReset w 0).trans hin)
    refine gives_next (congrArg Host.Outcome.next (hreq.trans hrun)) ⟨?_, ?_, rfl, rfl, rfl, rfl, rfl, rfl, rfl, rfl, ?_, ?_⟩
    · rw [State.flag, State.rd_wr_self]
      rfl
    · rw [State.rd_wr_ne _ _ (by decide), coldRun_bootState]
    · rw [State.rd_wr_ne _ _ (by decide), coldRun_lifecycle, resetNoted_rd_ne w (by decide) (by decide)]
    · rw [State.rd_wr_ne _ _ (by decide), coldRun_svnFused, resetNoted_rd_ne w (by decide) (by decide)]
  · intro v s w u hgo hkey hserv hera
    refine ⟨?_, ?_, ?_, ?_⟩
    · intro hk hin
      exact congrArg Host.Outcome.next ((resetCtl_kind hgo hkey hk (by decide) (by decide) (.inl hserv) hera).trans
        (portRequest_absorbed ((resetNoted_inReset w 2).trans hin)))
    · intro hk hin
      exact congrArg Host.Outcome.next ((resetCtl_kind hgo hkey hk (by decide) (by decide) (.inl hserv) hera).trans
        (supReset_absorbed ((resetNoted_inReset w 2).trans hin)))
    · intro hk hin
      exact congrArg Host.Outcome.next ((resetCtl_kind hgo hkey hk (by decide) (by decide) (.inl hserv) hera).trans
        (warmRequest_absorbed ((resetNoted_inReset w 1).trans hin)))
    · intro hk hin
      exact congrArg Host.Outcome.next ((resetCtl_kind hgo hkey hk (by decide) (by decide) (.inl hserv) hera).trans
        (coldRequest_absorbed ((resetNoted_inReset w 0).trans hin)))

end Sys2Proof.Machine
end

section
/-! ### Supplies, temperatures and reference clocks -/
namespace Sys2Proof.Machine
open Sys2Proof.Safety

/-! #### Folds of which one step counts -/

theorem foldl_unchanged {α : Type} {f : State → α → State} {l : List α} {s : State} (h : ∀ x ∈ l, f s x = s) : l.foldl f s = s := by
  induction l with
  | nil => rfl
  | cons x r ih => rw [List.foldl_cons, h x List.mem_cons_self, ih fun y hy => h y (List.mem_cons_of_mem _ hy)]

/-- What one step of a fold brings about and every step keeps holds after the fold. -/
theorem foldl_brings {α : Type} {P : State → Prop} {f : State → α → State} {x : α} (hat : ∀ u, P (f u x)) (hkeep : ∀ u y, P u → P (f u y))
    {l : List α} (hx : x ∈ l) (s : State) : P (l.foldl f s) := by
  have hkeeps : ∀ (l : List α) (u : State), P u → P (l.foldl f u) := by
    intro l
    induction l with
    | nil => exact fun _ h => h
    | cons y r ih => exact fun u h => ih _ (hkeep u y h)
  obtain ⟨a, b, rfl⟩ := List.append_of_mem hx
  rw [List.foldl_append, List.foldl_cons]
  exact hkeeps b _ (hat _)

/-- Where the keys of a list differ, the step of one entry alone counts for what the steps of the others leave. -/
theorem foldl_at {α β γ : Type} {g : State → γ} {key : α → β} {f : State → α → State} {x : α} (hother : ∀ u y, key y ≠ key x → g (f u y) = g u)
    {l : List α} (hd : (l.map key).Nodup) (hx : x ∈ l) (s : State) : ∃ u, g u = g s ∧ g (l.foldl f s) = g (f u x) := by
  obtain ⟨a, b, rfl⟩ := List.append_of_mem hx
  rw [List.map_append, List.map_cons] at hd
  obtain ⟨-, hb, hdis⟩ := List.nodup_append.mp hd
  have hna : ∀ y ∈ a, key y ≠ key x := fun y hy => hdis _ (List.mem_map_of_mem hy) _ List.mem_cons_self
  have hnb : ∀ y ∈ b, key y ≠ key x := fun y hy h => (List.nodup_cons.mp hb).1 (h ▸ List.mem_map_of_mem hy)
  refine ⟨a.foldl f s, foldl_keeps_mem g (fun u y hy => hother u y (hna y hy)) s, ?_⟩
  rw [List.foldl_append, List.foldl_cons]
  exact foldl_keeps_mem g (fun u y hy => hother u y (hnb y hy)) _

/-! #### Thresholds -/

/-- No reading reaches WARN, TRIP or CRITICAL. -/
def State.below (s : State) (l : List (Nat × Int)) : Prop :=
  ∀ t ∈ l, t.2 < 10 * ((s.rd pwrTjWarn : Nat) : Int) ∧ t.2 < 10 * ((s.rd pwrTjTrip : Nat) : Int) ∧ t.2 < 10 * ((s.rd pwrTjCrit : Nat) : Int)

section
variable {s : State} {l : List (Nat × Int)}

theorem warnSensor_below {t : Nat × Int} (h : t.2 < 10 * ((s.rd pwrTjWarn : Nat) : Int)) : s.warnSensor t = s := if_pos (by simp [h])

theorem tripSensor_below {t : Nat × Int} (htrip : t.2 < 10 * ((s.rd pwrTjTrip : Nat) : Int)) (hcrit : t.2 < 10 * ((s.rd pwrTjCrit : Nat) : Int)) :
    s.tripSensor t = s := by
  have h1 : ¬10 * ((s.rd pwrTjTrip : Nat) : Int) ≤ t.2 := by omega
  have h2 : ¬10 * ((s.rd pwrTjCrit : Nat) : Int) ≤ t.2 := by omega
  simp only [State.tripSensor, h1, h2, decide_false, Bool.false_and, Bool.false_eq_true, if_false]

/-- Below every threshold Bister sets SYS_ALERT_L and nothing else. -/
theorem thresholds_below (hs : s.served = true) (h : s.below l) : s.thresholds l = s.alert l := by
  have hwarn : l.foldl State.warnSensor s = s := foldl_unchanged fun t ht => warnSensor_below (h t ht).1
  rw [State.thresholds, if_pos hs, hwarn]
  exact foldl_unchanged fun t ht => tripSensor_below (s := s.alert l) (h t ht).2.1 (h t ht).2.2

end

/-! #### Readings -/

theorem filterMap_keys_sublist (p : Nat → Bool) (l : List (Word16 × Nat)) :
    ((l.filterMap (fun t => if p t.2 then some (t.2, t.1.toInt) else none)).map Prod.fst).Sublist (l.map Prod.snd) := by
  induction l with
  | nil => exact List.Sublist.slnil
  | cons t r ih =>
    cases hp : p t.2 with
    | true => simpa [List.filterMap_cons, hp] using ih
    | false => simpa [List.filterMap_cons, hp] using ih.cons t.2

theorem readings_nodup (s : State) (temps : List Word16) : ((s.readings temps).map Prod.fst).Nodup := by
  refine (filterMap_keys_sublist s.powered _).nodup ?_
  rw [List.zipIdx_map_snd]
  exact List.nodup_range' 1

theorem mem_readings {s : State} {temps : List Word16} {i : Nat} {x : Word16} (hx : temps[i]? = some x) (hi : i < 30) (hp : s.powered i = true) :
    (i, x.toInt) ∈ s.readings temps := by
  have hz : (x, i) ∈ (temps.take 30).zipIdx := by
    rw [List.mem_zipIdx_iff_getElem?, List.getElem?_take_of_lt hi]
    exact hx
  exact List.mem_filterMap.mpr ⟨(x, i), hz, if_pos hp⟩

theorem readings_lt {s : State} {temps : List Word16} {t : Nat × Int} (h : t ∈ s.readings temps) : t.1 < 30 := by
  obtain ⟨e, he, hp⟩ := List.mem_filterMap.mp h
  obtain ⟨-, hlt, -⟩ := List.mem_zipIdx he
  rw [List.length_take] at hlt
  split at hp
  · injection hp with hp
    rw [← hp]
    dsimp only
    omega
  · exact absurd hp (by simp)

theorem readings_powered {s : State} {temps : List Word16} {t : Nat × Int} (h : t ∈ s.readings temps) : s.powered t.1 = true := by
  obtain ⟨e, -, he⟩ := List.mem_filterMap.mp h
  split at he
  · next hp =>
    injection he with he
    rw [← he]
    exact hp
  · exact absurd he (by simp)

theorem wrapInt_toInt (x : Word16) : wrapInt 16 x.toInt % 2 ^ 16 = x.toNat := by
  have h := x.isLt
  simp only [wrapInt, BitVec.toInt]
  split <;> omega

theorem signed_wrapInt {v : Int} (hlo : -32768 ≤ v) (hhi : v < 32768) : signed 16 (wrapInt 16 v % 2 ^ 16) = v := by
  have hn : wrapInt 16 v % 2 ^ 16 = (v % 65536).toNat := by
    rw [wrapInt]
    omega
  rw [hn]
  simp only [signed]
  split <;> omega

theorem signed_bounds (n : Nat) : -32768 ≤ signed 16 n ∧ signed 16 n < 32768 := by
  simp only [signed]
  split <;> omega

section
variable (s : State)

theorem storeReading_now (i : Nat) (v : Int) : (s.storeReading (i, v)).rd pwrTjNow i = wrapInt 16 v % 2 ^ 16 := by
  have hne : pwrTjNow.key i 0 ≠ pwrTjMax.key i 0 := by simp only [RegDesc.key, pwrTjNow, pwrTjMax]; omega
  exact (State.rd_wr_ne _ _ hne).trans (State.rd_wr_self ..)

theorem storeReading_max (i : Nat) (v : Int) : (s.storeReading (i, v)).rd pwrTjMax i = wrapInt 16 (max v (signed 16 (s.rd pwrTjMax i))) % 2 ^ 16 :=
  State.rd_wr_self ..

theorem storeReading_rd_ne (t : Nat × Int) {d : RegDesc} {i j : Nat} (hnow : d.key i j ≠ pwrTjNow.key t.1 0) (hmax : d.key i j ≠ pwrTjMax.key t.1 0) :
    (s.storeReading t).rd d i j = s.rd d i j :=
  (State.rd_wr_ne _ _ hmax).trans (State.rd_wr_ne _ _ hnow)

/-- NOW and MAX of one sensor. -/
def State.tjPair (s : State) (i : Nat) : Nat × Nat := (s.rd pwrTjNow i, s.rd pwrTjMax i)

theorem storeReading_other {i : Nat} {t : Nat × Int} (h : t.1 ≠ i) : (s.storeReading t).tjPair i = s.tjPair i := by
  refine Prod.ext ?_ ?_ <;>
  · refine storeReading_rd_ne s t ?_ ?_ <;> simp only [RegDesc.key, pwrTjNow, pwrTjMax] <;> omega

/-- A sensor of an unpowered domain reads 0x8000. -/
def State.dark (s : State) (l : List Nat) : State := l.foldl (fun (s : State) i => s.wr pwrTjNow 0x8000 i) s

theorem dark_max (l : List Nat) (i : Nat) : (s.dark l).rd pwrTjMax i = s.rd pwrTjMax i :=
  foldl_keeps (fun u : State => u.rd pwrTjMax i) (fun u k => State.rd_wr_ne u _ (by simp only [RegDesc.key, pwrTjNow, pwrTjMax]; omega)) l s

theorem dark_now {l : List Nat} {i : Nat} (h : i ∈ l) : (s.dark l).rd pwrTjNow i = 0x8000 := by
  refine foldl_brings (P := fun u => u.rd pwrTjNow i = 0x8000) (fun u => State.rd_wr_self ..) (fun u k hu => ?_) h s
  by_cases hk : k = i
  · rw [hk]
    exact State.rd_wr_self ..
  · exact (State.rd_wr_ne _ _ (by simp only [RegDesc.key, pwrTjNow]; omega)).trans hu

/-- The sensors as Bister has read them. -/
def State.sensorsRead (s : State) (temps : List Word16) : State :=
  (s.readings temps).foldl State.storeReading (s.dark ((List.range 30).filter (fun i => !s.powered i)))

variable {s} {temps : List Word16} {i : Nat} {x : Word16}

theorem sensorsRead_powered (hx : temps[i]? = some x) (hi : i < 30) (hp : s.powered i = true) : (s.sensorsRead temps).rd pwrTjNow i = x.toNat ∧
    signed 16 ((s.sensorsRead temps).rd pwrTjMax i) = max x.toInt (signed 16 (s.rd pwrTjMax i)) := by
  obtain ⟨u, hu, hfold⟩ := foldl_at (g := fun u => u.tjPair i) (key := Prod.fst) (f := State.storeReading) (x := (i, x.toInt))
    (fun u t ht => storeReading_other u ht) (readings_nodup s temps) (mem_readings hx hi hp) (s.dark ((List.range 30).filter (fun i => !s.powered i)))
  have humax : u.rd pwrTjMax i = s.rd pwrTjMax i := (congrArg Prod.snd hu).trans (dark_max s _ i)
  have hnow : (s.sensorsRead temps).rd pwrTjNow i = _ := (congrArg Prod.fst hfold).trans (storeReading_now u i x.toInt)
  have hmax : (s.sensorsRead temps).rd pwrTjMax i = _ := (congrArg Prod.snd hfold).trans (storeReading_max u i x.toInt)
  have hb := signed_bounds (s.rd pwrTjMax i)
  have hlo := x.le_toInt
  have hhi := x.toInt_lt
  refine ⟨hnow.trans (wrapInt_toInt x), ?_⟩
  rw [hmax, humax]
  exact signed_wrapInt (by omega) (by omega)

theorem sensorsRead_dark (hi : i < 30) (hp : s.powered i = false) : (s.sensorsRead temps).rd pwrTjNow i = 0x8000 := by
  refine (foldl_keeps_mem (fun u : State => u.rd pwrTjNow i) (fun u t ht => congrArg Prod.fst (storeReading_other u fun h => ?_)) _).trans (dark_now s ?_)
  · rw [← h, readings_powered ht] at hp
    exact absurd hp (by decide)
  · exact List.mem_filter.mpr ⟨List.mem_range.mpr hi, by rw [hp]; rfl⟩

variable (s temps)

theorem sensorsRead_rd_ne {d : RegDesc} {j k : Nat} (hnow : ∀ i < 30, d.key j k ≠ pwrTjNow.key i 0) (hmax : ∀ i < 30, d.key j k ≠ pwrTjMax.key i 0) :
    (s.sensorsRead temps).rd d j k = s.rd d j k :=
  (foldl_keeps_mem (fun u : State => u.rd d j k)
    (fun u t ht => storeReading_rd_ne u t (hnow t.1 (readings_lt ht)) (hmax t.1 (readings_lt ht))) _).trans
    (foldl_keeps_mem (fun u : State => u.rd d j k) (fun u i hi => State.rd_wr_ne u _ (hnow i (List.mem_range.mp (List.mem_of_mem_filter hi)))) _)

theorem sensorsRead_onlyRegs : OnlyRegs s (s.sensorsRead temps) :=
  ((OnlyRegs.refl s).foldl fun _ _ h => h.wr _ _ _ _).foldl fun _ _ h => (h.wr _ _ _ _).wr _ _ _ _

end

/-- A millisecond in a band of temperature is counted in the power domain's part and PWR_TJ_MINUTES alone. -/
theorem bandTime_cases (s : State) (b : Nat) : ∃ p : PwrSt, p.domainsOff = s.pwr.domainsOff ∧ p.sysLost = s.pwr.sysLost ∧
    (s.bandTime b = { s with pwr := p } ∨ s.bandTime b = State.bump { s with pwr := p } pwrTjMinutes b) := by
  unfold State.bandTime
  dsimp only
  refine ⟨{ s.pwr with bandMs := tset s.pwr.bandMs b (if tget s.pwr.bandMs b 0 + 1 = 60000 then 0 else tget s.pwr.bandMs b 0 + 1) 0 }, rfl, rfl, ?_⟩
  split
  · exact .inr rfl
  · exact .inl rfl

theorem bandOf_lt (t : Int) : bandOf t < 8 := by
  unfold bandOf
  split_ifs <;> decide

/-- What the band's millisecond leaves: every field but the minutes, and all but the registers and the power domain's part. -/
theorem bandTime_frame (s : State) (b : Nat) : (∀ (d : RegDesc) (i j : Nat), d.key i j ≠ pwrTjMinutes.key b 0 → (s.bandTime b).rd d i j = s.rd d i j) ∧
    (s.bandTime b).pwr.domainsOff = s.pwr.domainsOff ∧ (s.bandTime b).pwr.sysLost = s.pwr.sysLost ∧
    s.bandTime b = { s with regs := (s.bandTime b).regs, pwr := (s.bandTime b).pwr } := by
  obtain ⟨p, hoff, hlost, h | h⟩ := bandTime_cases s b
  · rw [h]
    exact ⟨fun _ _ _ _ => rfl, hoff, hlost, rfl⟩
  · rw [h]
    exact ⟨fun d i j hne => State.rd_wr_ne _ _ hne, hoff, hlost, rfl⟩

/-- The highest reading counts for the band; without a powered sensor there is none. -/
def State.bandOfMax (s : State) (l : List (Nat × Int)) : State :=
  match l with
  | [] => s
  | t :: r => s.bandTime (bandOf (r.foldl (fun (a : Int) (x : Nat × Int) => max a x.2) t.2))

theorem bandOfMax_frame (s : State) (l : List (Nat × Int)) :
    (∀ (d : RegDesc) (i j : Nat), (∀ b < 8, d.key i j ≠ pwrTjMinutes.key b 0) → (s.bandOfMax l).rd d i j = s.rd d i j) ∧
    (s.bandOfMax l).pwr.domainsOff = s.pwr.domainsOff ∧ (s.bandOfMax l).pwr.sysLost = s.pwr.sysLost ∧
    s.bandOfMax l = { s with regs := (s.bandOfMax l).regs, pwr := (s.bandOfMax l).pwr } := by
  cases l with
  | nil => exact ⟨fun _ _ _ _ => rfl, rfl, rfl, rfl⟩
  | cons t r =>
    obtain ⟨hrd, hoff, hlost, hframe⟩ := bandTime_frame s (bandOf (r.foldl (fun (a : Int) (x : Nat × Int) => max a x.2) t.2))
    exact ⟨fun d i j h => hrd d i j (h _ (bandOf_lt _)), hoff, hlost, hframe⟩

theorem sensorRead_eq {s : State} {temps : List Word16} (hs : s.served = true) :
    sensorRead temps s = ((s.sensorsRead temps).bandOfMax (s.readings temps)).thresholds (s.readings temps) := by
  simp only [sensorRead, hs, Bool.not_true, Bool.false_eq_true, if_false]
  rfl

/-- A field outside the sensors' registers stays while Bister reads the sensors. -/
theorem sensorsBanded_rd_ne (s : State) (temps : List Word16) (l : List (Nat × Int)) {d : RegDesc} {j k : Nat}
    (h : d.key j k < pwrTjNow.key 0 0 ∨ pwrTjMinutes.key 8 0 ≤ d.key j k) : ((s.sensorsRead temps).bandOfMax l).rd d j k = s.rd d j k := by
  generalize hk : d.key j k = n at h
  refine ((bandOfMax_frame _ l).1 d j k fun b hb => ?_).trans (sensorsRead_rd_ne s temps (fun i hi => ?_) fun i hi => ?_) <;>
  · rw [hk]
    simp only [RegDesc.key, pwrTjNow, pwrTjMax, pwrTjMinutes] at h ⊢
    omega

/-- Settles O20: the readings are stored, the band is timed, and below every threshold SYS_ALERT_L alone follows. -/
theorem sensorReadStores : Obligations.SensorReadStores := by
  intro temps i x s hs hx hi hbelow
  obtain ⟨hrd, hoff, hlost, hframe⟩ := bandOfMax_frame (s.sensorsRead temps) (s.readings temps)
  have hregs : OnlyRegs s (s.sensorsRead temps) := sensorsRead_onlyRegs s temps
  have hpwr : (s.sensorsRead temps).pwr = s.pwr := (congrArg State.pwr (hregs : _ = _) :)
  have hwarn : ((s.sensorsRead temps).bandOfMax (s.readings temps)).rd pwrTjWarn = s.rd pwrTjWarn := sensorsBanded_rd_ne s temps _ (.inl (by decide))
  have htrip : ((s.sensorsRead temps).bandOfMax (s.readings temps)).rd pwrTjTrip = s.rd pwrTjTrip := sensorsBanded_rd_ne s temps _ (.inl (by decide))
  have hcrit : ((s.sensorsRead temps).bandOfMax (s.readings temps)).rd pwrTjCrit = s.rd pwrTjCrit := sensorsBanded_rd_ne s temps _ (.inl (by decide))
  have hstate : ((s.sensorsRead temps).bandOfMax (s.readings temps)).rd mbxBootState = s.rd mbxBootState :=
    sensorsBanded_rd_ne s temps _ (.inr (by decide))
  have hserved : ((s.sensorsRead temps).bandOfMax (s.readings temps)).served = true := by
    rw [← hs]
    simp only [State.served, hstate, hoff, hlost, hpwr]
  have hnow : ((s.sensorsRead temps).bandOfMax (s.readings temps)).rd pwrTjNow i = (s.sensorsRead temps).rd pwrTjNow i :=
    hrd _ _ _ fun b hb => by simp only [RegDesc.key, pwrTjNow, pwrTjMinutes]; omega
  have hmax : ((s.sensorsRead temps).bandOfMax (s.readings temps)).rd pwrTjMax i = (s.sensorsRead temps).rd pwrTjMax i :=
    hrd _ _ _ fun b hb => by simp only [RegDesc.key, pwrTjMax, pwrTjMinutes]; omega
  have hrun : sensorRead temps s = ((s.sensorsRead temps).bandOfMax (s.readings temps)).alert (s.readings temps) := by
    refine (sensorRead_eq hs).trans (thresholds_below hserved fun t ht => ?_)
    rw [hwarn, htrip, hcrit]
    exact hbelow t ht
  refine gives_next (congrArg Host.Outcome.next hrun) ⟨hnow.trans ?_, fun hp => ?_, ?_⟩
  · cases hp : s.powered i with
    | true => exact (sensorsRead_powered hx hi hp).1
    | false => exact sensorsRead_dark hi hp
  · exact (congrArg (signed 16) hmax).trans (sensorsRead_powered hx hi hp).2
  · rw [hframe, hregs]
    exact ⟨rfl, rfl, rfl, rfl, rfl⟩

end Sys2Proof.Machine
end

section
/-! ### Supplies, over-current, temperatures and lost references -/
namespace Sys2Proof.Machine
open Sys2Proof.Safety

/-! #### The self-fence -/

section
variable (s : State)

theorem selfFence_ring : s.selfFence.ring.live = false ∧ s.selfFence.ring.fenced = true := ⟨rfl, rfl⟩

theorem selfFence_frame : s.selfFence.pwr = s.pwr ∧ s.selfFence.chans = s.chans ∧ s.selfFence.ports = s.ports := by
  simp [State.selfFence, State.bypass, State.dropLink]

theorem dropLink_rd_ne (x : Nat) {d : RegDesc} {i j : Nat} (hup : d.key i j ≠ rngPortLinkUp.key x 0) (hlock : d.key i j ≠ rngPortLock.key x 0)
    (hadj : d.key i j ≠ rngPortAdjPos.key x 0) : (s.dropLink x).rd d i j = s.rd d i j :=
  (State.rd_wr_ne _ _ hadj).trans ((State.rd_wr_ne _ _ hlock).trans (State.rd_wr_ne _ _ hup))

/-- The self-fence writes registers of the ring alone. -/
theorem selfFence_rd_ne {d : RegDesc} {i j : Nat} (h : d.key i j < rngBypass.key 0 0) : s.selfFence.rd d i j = s.rd d i j := by
  have hne : ∀ k, rngBypass.key 0 0 ≤ k → d.key i j ≠ k := fun k hk => Nat.ne_of_lt (Nat.lt_of_lt_of_le h hk)
  have hdrop : ∀ (u : State) (x : Nat), x < 2 → (u.dropLink x).rd d i j = u.rd d i j := fun u x hx => by
    refine dropLink_rd_ne u x (hne _ ?_) (hne _ ?_) (hne _ ?_) <;>
    · simp only [RegDesc.key, rngBypass, rngPortLinkUp, rngPortLock, rngPortAdjPos]
      omega
  have hbypass : (s.bypass 4).rd d i j = s.rd d i j := by
    rw [State.bypass, State.rd_wr_ne _ _ (hne _ (by decide)), State.rd_wr_ne _ _ (hne _ (by decide)), hdrop _ _ (by decide), hdrop _ _ (by decide)]
  exact (State.rd_wr_ne _ _ (hne _ (by decide))).trans hbypass

variable {s}

theorem failLiveness_live (h : s.ring.live = true) : s.failLiveness = s.selfFence := if_pos h

theorem failLiveness_dead (h : s.ring.live = false) : s.failLiveness = s := if_neg (by rw [h]; decide)

theorem failLiveness_pwr : s.failLiveness.pwr = s.pwr := by
  unfold State.failLiveness
  split
  · exact (selfFence_frame s).1
  · rfl

end

/-! #### PD-LINK is lost -/

/-- Port p as the loss of PD-LINK leaves it. -/
def State.portLost (s : State) (p : Nat) : State :=
  (((s.wr ethLinkUp 0 p).wr ethFecLock 0 p).wr ethAnFail 0 p).modPort p (fun x => { modInfo := x.modInfo, modUnread := s.flag ethModPresent p })

theorem clearLink_eq (s : State) : s.clearLink = (List.range 4).foldl State.portLost s := rfl

theorem portLost_linkUp (s : State) (p : Nat) : (s.portLost p).flag ethLinkUp p = false := by
  have hlock := RegDesc.key_ne_of_step ethLinkUp ethFecLock p
  have hfail := RegDesc.key_ne_of_step ethLinkUp ethAnFail p
  exact (State.flag_wr_ne _ _ hfail).trans ((State.flag_wr_ne _ _ hlock).trans (State.flag_wr_self ..))

theorem portLost_linkUp_ne (s : State) {p k : Nat} (h : k ≠ p) : (s.portLost p).flag ethLinkUp k = s.flag ethLinkUp k := by
  have hup : ethLinkUp.key k 0 ≠ ethLinkUp.key p 0 := by simp only [RegDesc.key, ethLinkUp]; omega
  have hlock : ethLinkUp.key k 0 ≠ ethFecLock.key p 0 := by simp only [RegDesc.key, ethLinkUp, ethFecLock]; omega
  have hfail : ethLinkUp.key k 0 ≠ ethAnFail.key p 0 := by simp only [RegDesc.key, ethLinkUp, ethAnFail]; omega
  exact (State.flag_wr_ne _ _ hfail).trans ((State.flag_wr_ne _ _ hlock).trans (State.flag_wr_ne _ _ hup))

/-- The link of port p is down and the port holds nothing. -/
def PortEmpty (p : Nat) (s : State) : Prop := s.flag ethLinkUp p = false ∧ (s.port p).rxQ = [] ∧ (s.port p).queues = [] ∧ (s.port p).wire = none

theorem portLost_empty (s : State) (p : Nat) : PortEmpty p (s.portLost p) := by
  have hport : (s.portLost p).port p = _ := State.modPort_port_self ..
  refine ⟨portLost_linkUp s p, ?_, ?_, ?_⟩ <;> rw [hport]

theorem portLost_keeps_empty {p : Nat} (s : State) (k : Nat) (h : PortEmpty p s) : PortEmpty p (s.portLost k) := by
  by_cases hk : k = p
  · rw [hk]
    exact portLost_empty s p
  · have hport : (s.portLost k).port p = s.port p := State.modPort_port_ne _ _ (Ne.symm hk)
    obtain ⟨hup, hrest⟩ := h
    refine ⟨(portLost_linkUp_ne s (Ne.symm hk)).trans hup, ?_⟩
    rw [hport]
    exact hrest

theorem clearLink_empty (s : State) {p : Nat} (hp : p < 4) : PortEmpty p s.clearLink :=
  foldl_brings (fun u => portLost_empty u p) (fun u k hu => portLost_keeps_empty u k hu) (List.mem_range.mpr hp) s

theorem clearLink_pwr (s : State) : s.clearLink.pwr = s.pwr ∧ s.clearLink.ring = s.ring := by
  rw [clearLink_eq]
  constructor
  · refine foldl_keeps State.pwr (fun _ _ => ?_) _ s
    rfl
  · refine foldl_keeps State.ring (fun _ _ => ?_) _ s
    rfl

/-! #### A domain is lost -/

section
variable {s : State} {d cause : Nat} {counter : RegDesc}

theorem loseDomain_pwr (s : State) (d : Nat) : (s.loseDomain d).pwr = s.pwr := by
  unfold State.loseDomain
  split
  · rfl
  · exact (clearLink_pwr s).1
  · rfl
  · rfl
  · rfl

theorem powered_unit (s : State) (h : 24 ≤ d) : s.powered d = !s.pwr.domainsOff.contains d := if_neg (by omega)

theorem trip_aon : s.trip 24 cause counter = s := if_pos rfl

/-- A domain that went off at another time is left (R514). -/
theorem trip_off (hoff : s.powered d = false) (hat : tget s.pwr.offAt d none ≠ some s.now) : s.trip d cause counter = s := by
  unfold State.trip
  split
  · rfl
  · rw [if_pos (by rw [hoff]; rfl), if_neg (by simp [hat])]

theorem trip_engines (hd : d < 24) (hon : s.powered d = true) : s.trip d cause counter = ((s.bump counter).powerOff d cause).domainFail d := by
  unfold State.trip
  rw [if_neg (by omega), if_neg (by rw [hon]; decide), if_pos hd]

theorem trip_unit (hd : 24 < d) (hon : s.powered d = true) : (s.trip d cause counter).powered d = false := by
  unfold State.trip
  rw [if_neg (by omega), if_neg (by rw [hon]; decide), if_neg (by omega), powered_unit _ (by omega), failLiveness_pwr, loseDomain_pwr]
  simp

end

/-- Settles O19: a rail by its event, a domain by the trip, the thresholds below all of which nothing trips, and a reference by the liveness it ends. -/
theorem supplyAndSensorRows : Obligations.SupplyAndSensorRows := by
  refine ⟨fun r s => rfl, fun d s => ⟨fun hd => ?_, fun hoff hat => ?_, fun hd hon => ?_, fun hd hon => ?_⟩, fun temps s hs hbelow => ?_,
    fun s => ⟨rfl, fun hdead => ⟨?_, ?_⟩, fun hlive => ⟨?_, ?_⟩⟩⟩
  · exact congrArg Host.Outcome.next (show s.trip d.val 2 pwrOcTrips = s by rw [hd]; exact trip_aon)
  · exact congrArg Host.Outcome.next (trip_off hoff hat)
  · exact congrArg Host.Outcome.next (trip_engines hd hon)
  · exact gives_next rfl (trip_unit hd hon)
  · exact congrArg Host.Outcome.next (thresholds_below hs hbelow)
  · exact congrArg Host.Outcome.next (failLiveness_dead (s := { s with pwr := { s.pwr with sysLost := true } }) hdead)
  · refine congrArg Host.Outcome.next (failLiveness_dead ?_)
    rw [(clearLink_pwr _).2]
    exact hdead
  · refine gives_next (congrArg Host.Outcome.next (failLiveness_live (s := { s with pwr := { s.pwr with sysLost := true } }) hlive)) ?_
    obtain ⟨hpwr, hchans, hports⟩ := selfFence_frame { s with pwr := { s.pwr with sysLost := true } }
    exact ⟨(selfFence_ring _).1, (selfFence_ring _).2, congrArg PwrSt.sysLost hpwr, hchans, hports⟩
  · obtain ⟨hpwr, hring⟩ := clearLink_pwr { s with pwr := { s.pwr with ethLost := true } }
    have hempty := fun p hp => clearLink_empty { s with pwr := { s.pwr with ethLost := true } } (p := p) hp
    have hrun : referenceClockLoss .eth s = (State.clearLink { s with pwr := { s.pwr with ethLost := true } }).selfFence :=
      failLiveness_live ((congrArg RingSt.live hring).trans hlive)
    refine gives_next (congrArg Host.Outcome.next hrun) ?_
    generalize State.clearLink { s with pwr := { s.pwr with ethLost := true } } = u at *
    obtain ⟨fpwr, -, fports⟩ := selfFence_frame u
    refine ⟨(selfFence_ring u).1, (selfFence_ring u).2, congrArg PwrSt.ethLost (fpwr.trans hpwr), fun p hp => ?_⟩
    obtain ⟨hup, hrest⟩ := hempty p hp
    have hport : u.selfFence.port p = u.port p := congrArg (fun x : Tbl Port => tget x p {}) fports
    rw [hport]
    refine ⟨?_, hrest⟩
    have hkey : ethLinkUp.key p 0 < rngBypass.key 0 0 := by simp only [RegDesc.key, ethLinkUp, rngBypass]; omega
    rw [State.flag, selfFence_rd_ne u hkey]
    exact hup

end Sys2Proof.Machine
end

section
/-! ### Doorbells, command queues and the taking of commands -/
namespace Sys2Proof.Machine
open Sys2Proof.Safety

/-! #### Doorbells -/

section
variable {s : State} {q v : Nat}

theorem sqTail_rings (h : s.flag qEn q = true) : sqTail q 32 v s =
    if s.rd sqSize q ≤ v % 4096 then s.wr qErr 1 q else s.modHq q (fun h => { h with tail := v % 4096 }) := by
  simp only [sqTail, h, bne_self_eq_false, Bool.not_true, Bool.false_eq_true, if_false, ge_iff_le]

theorem cqHead_rings (h : s.flag qEn q = true) : cqHead q 32 v s =
    if s.rd cqSize q ≤ v % 4096 then s.wr qErr 1 q else s.modHq q (fun h => { h with head := v % 4096 }) := by
  simp only [cqHead, h, bne_self_eq_false, Bool.not_true, Bool.false_eq_true, if_false, ge_iff_le]

theorem xqHead_rings (h : s.flag xqEn q = true) : xqHead q 32 v s = if s.rd xqCount q ≤ v % 131072 then s.wr xqErr 1 q
    else { s with host := { s.host with xq := tmod s.host.xq q {} (fun r => { r with head := v % 131072 }) } } := by
  simp only [xqHead, h, bne_self_eq_false, Bool.not_true, Bool.false_eq_true, if_false, ge_iff_le]

theorem nqHead_rings (h : s.flag nqEn = true) : nqHead 32 v s = if s.rd nqCount ≤ v % 131072 then s.wr nqErr 1
    else { s with host := { s.host with nq := { s.host.nq with head := v % 131072 } } } := by
  simp only [nqHead, h, bne_self_eq_false, Bool.not_true, Bool.false_eq_true, if_false, ge_iff_le]

theorem doorbell_disabled (h : s.flag qEn q = false) : sqTail q 32 v s = s ∧ cqHead q 32 v s = s := by
  simp [sqTail, cqHead, h]

/-- A doorbell takes accesses of 32 bits alone (R392). -/
theorem doorbell_width {w : Nat} (h : w ≠ 32) : sqTail q w v s = s.bump mbxBadAccess ∧ cqHead q w v s = s.bump mbxBadAccess ∧
    xqHead q w v s = s.bump mbxBadAccess ∧ nqHead w v s = s.bump mbxBadAccess := by
  have hw : (w != 32) = true := bne_iff_ne.mpr h
  exact ⟨if_pos hw, if_pos hw, if_pos hw, if_pos hw⟩

end

/-- Settles O25: each doorbell by its width, its queue's EN and its index. -/
theorem doorbellRows : Obligations.DoorbellRows := by
  refine ⟨fun q v s h => ⟨?_, ?_⟩, fun x v s h => ?_, fun v s h => ?_, fun q x w v s h => ?_, fun q v s h => ?_⟩
  · exact congrArg Host.Outcome.next (sqTail_rings h)
  · exact congrArg Host.Outcome.next (cqHead_rings h)
  · exact congrArg Host.Outcome.next (xqHead_rings h)
  · exact congrArg Host.Outcome.next (nqHead_rings h)
  · obtain ⟨hsq, hcq, -, hnq⟩ := doorbell_width (q := q.val) (v := v.toNat) (s := s) h
    obtain ⟨-, -, hxq, -⟩ := doorbell_width (q := x.val) (v := v.toNat) (s := s) h
    exact ⟨congrArg Host.Outcome.next hsq, congrArg Host.Outcome.next hcq, congrArg Host.Outcome.next hxq, congrArg Host.Outcome.next hnq⟩
  · obtain ⟨hsq, hcq⟩ := doorbell_disabled (v := v.toNat) h
    exact ⟨congrArg Host.Outcome.next hsq, congrArg Host.Outcome.next hcq⟩

/-! #### Command queues -/

theorem writeRegBut_onlyRegs (s : State) (skip : RegDesc → Bool) (addr width v : Nat) : OnlyRegs s (s.writeRegBut skip addr width v) := by
  unfold State.writeRegBut
  split
  · exact (OnlyRegs.refl s).wr _ _ _ _
  · refine (OnlyRegs.refl s).foldl fun u h hu => ?_
    dsimp only
    split
    · exact hu
    · exact hu.writeField _ _ _

/-- A command queue starts empty, on its first pass. -/
def State.queueStarted (s : State) (n : Nat) : State :=
  (((s.wr qEn 1 n).wr sqHead 0 n).wr cqTail 0 n).modHq n (fun h => { outstanding := h.outstanding, reserved := h.reserved })

theorem queueStarted_rd (s : State) (n : Nat) : (s.queueStarted n).flag qEn n = true ∧ (s.queueStarted n).rd sqHead n = 0 ∧
    (s.queueStarted n).rd cqTail n = 0 := by
  have hen : (s.queueStarted n).rd qEn n = 1 := by
    have hhead : qEn.key n 0 ≠ sqHead.key n 0 := by simp only [RegDesc.key, qEn, sqHead]; omega
    have htail : qEn.key n 0 ≠ cqTail.key n 0 := by simp only [RegDesc.key, qEn, cqTail]; omega
    exact (State.modHq_rd ..).trans ((State.rd_wr_ne _ _ htail).trans ((State.rd_wr_ne _ _ hhead).trans (State.rd_wr_self ..)))
  have hsq : (s.queueStarted n).rd sqHead n = 0 := by
    have htail : sqHead.key n 0 ≠ cqTail.key n 0 := by simp only [RegDesc.key, sqHead, cqTail]; omega
    exact (State.modHq_rd ..).trans ((State.rd_wr_ne _ _ htail).trans (State.rd_wr_self ..))
  refine ⟨?_, hsq, (State.modHq_rd ..).trans (State.rd_wr_self ..)⟩
  rw [State.flag, hen]
  rfl

theorem queueStarted_hq (s : State) (n : Nat) : (s.queueStarted n).hq n = { outstanding := (s.hq n).outstanding, reserved := (s.hq n).reserved } ∧
    ∀ k, k ≠ n → (s.queueStarted n).hq k = s.hq k :=
  ⟨State.modHq_hq_self .., fun _ hk => State.modHq_hq_ne _ _ hk⟩

theorem queueStarted_frame (s : State) (n : Nat) : (s.queueStarted n).chans = s.chans ∧ (s.queueStarted n).ports = s.ports ∧
    (s.queueStarted n).mem = s.mem := by
  simp [State.queueStarted]

section
variable {s : State} {n v : Nat} (hw : writtenTo qEn n 0 (qCtlAddr n) 64 v = some 1) (hg : goodAccess (qCtlAddr n) 64 = true)
  (hoff : s.flag qEn n = false)
include hw hg hoff

theorem qCtlEnable_acts : qCtlEnable n 64 v s = if (s.writeRegBut (· = qEn) (qCtlAddr n) 64 v).queueFits n
    then (s.writeRegBut (· = qEn) (qCtlAddr n) 64 v).queueStarted n else (s.writeRegBut (· = qEn) (qCtlAddr n) 64 v).wr qErr 1 n := by
  simp only [qCtlEnable, hw, hg, hoff, bne_self_eq_false, Bool.not_true, Bool.or_self, Bool.false_eq_true, if_false]
  rfl

end

theorem cqCoalesceTimeout_due {q : Nat} {s : State} (hn : (s.hq q).unsignalled ≠ 0) (hdue : (s.hq q).oldestAt + us (s.rd qCoalTime q) ≤ s.now) :
    cqCoalesceTimeout q s = (s.modHq q (fun h => { h with unsignalled := 0 })).msi (s.rd qVec q) := by
  unfold cqCoalesceTimeout
  dsimp only
  rw [if_pos]
  simp [hn, hdue]

theorem mem_addOnce {l : List Nat} {v : Nat} : v ∈ addOnce l v := by
  unfold addOnce
  split
  · next h => exact h
  · exact List.mem_append_right _ List.mem_cons_self

/-- An interrupt is raised, and stays pending where it is masked; nothing but the host's domain changes. -/
theorem msi_raises (s : State) (v : Nat) : v ∈ (s.msi v).host.msix ∧ (s.flag msixMask v = true → v ∈ (s.msi v).host.msixPend) ∧
    s.msi v = { s with host := (s.msi v).host } := by
  refine ⟨mem_addOnce, fun h => ?_, rfl⟩
  have hpend : (s.msi v).host.msixPend = addOnce s.host.msixPend v := if_pos h
  rw [hpend]
  exact mem_addOnce

/-- Settles O26: the queue starts, or is refused, by whether its rings fit; EN is cleared by a plain write; a held interrupt comes when it is due. -/
theorem queueEnableRows : Obligations.QueueEnableRows := by
  refine ⟨?_, fun q v s hw => congrArg Host.Outcome.next (if_pos hw), fun q s hn hdue => ?_⟩
  · intro q v s n u hw hg hoff
    have hacts := qCtlEnable_acts hw hg hoff
    refine ⟨fun hfit => ?_, fun hfit => congrArg Host.Outcome.next (hacts.trans (if_neg (by simpa using hfit)))⟩
    obtain ⟨hen, hsq, hcq⟩ := queueStarted_rd u n
    obtain ⟨hown, hother⟩ := queueStarted_hq u n
    obtain ⟨hchans, hports, hmem⟩ := queueStarted_frame u n
    have hu : OnlyRegs s u := writeRegBut_onlyRegs ..
    have hhq : ∀ k, u.hq k = s.hq k := fun k => (congrArg (fun t : State => t.hq k) (hu : u = _) :)
    refine gives_next (congrArg Host.Outcome.next (hacts.trans (if_pos hfit))) ⟨hen, hsq, hcq, ?_, ?_, ?_, ?_, ?_, ?_, fun k hk => (hother k hk).trans (hhq k)⟩
    · exact congrArg HostQ.tail hown
    · exact congrArg HostQ.head hown
    · exact congrArg HostQ.phase hown
    · exact hchans.trans (congrArg State.chans (hu : u = _) :)
    · exact hports.trans (congrArg State.ports (hu : u = _) :)
    · exact hmem.trans (congrArg State.mem (hu : u = _) :)
  · have hcount : ((s.modHq q.val (fun h => { h with unsignalled := 0 })).hq q.val).unsignalled = 0 := congrArg HostQ.unsignalled (State.modHq_hq_self ..)
    have hmask := State.modHq_flag s q.val (fun h => { h with unsignalled := 0 }) msixMask (s.rd qVec q.val) 0
    have hhost : s.modHq q.val (fun h => { h with unsignalled := 0 }) = { s with host := (s.modHq q.val (fun h => { h with unsignalled := 0 })).host } := rfl
    have hrun := cqCoalesceTimeout_due hn hdue
    generalize s.modHq q.val (fun h => { h with unsignalled := 0 }) = u at *
    obtain ⟨hmsix, hpend, hframe⟩ := msi_raises u (s.rd qVec q.val)
    refine gives_next (congrArg Host.Outcome.next hrun) ⟨hcount, hmsix, fun h => hpend (hmask.trans h), hframe.trans ?_⟩
    rw [hhost]

/-! #### The taking of commands -/

/-- The entry at a queue's head is taken, whatever its opcode. -/
def State.entryTaken (s : State) (q : Nat) : State :=
  let i := s.rd sqHead q
  let w0 := s.sqWord q i 0
  let t := (s.backData ((hsBase + s.rd sqBase q + 64 * i) / 64)).wr sqHead (if i + 1 ≥ s.rd sqSize q then 0 else i + 1) q
  State.take { t with sup := { t.sup with lastServed := q } } q (bits w0 32 32) (w0 % 65536) (s.sqWord q i 1)

theorem takeEntry_eq (s : State) (q : Nat) : s.takeEntry q = let w0 := s.sqWord q (s.rd sqHead q) 0
    if opcodes.contains (w0 % 65536) then s.entryTaken q
    else (s.entryTaken q).complete q (bits w0 32 32) (w0 % 65536) stNOT_SUPPORTED 0 0 0 := rfl

/-- The record of an entry whose first two words are w0 and w1, with the channels that `f` gives it. -/
def takenOf (q w0 w1 : Nat) (f : Nat → Nat → List Nat) : Taken := { qid := q, tag := bits w0 32 32, opcode := w0 % 65536, chans := f (w0 % 65536) w1 }

theorem chanSet_congr {s t : State} (h : ∀ k, t.chan k = s.chan k) (op w1 : Nat) : t.chanSet op w1 = s.chanSet op w1 := by
  simp only [State.chanSet, h]

/-- A back-invalidate for data changes the host's domain and the count of them. -/
theorem backData_frame (s : State) (line : Nat) : s.backData line = { s with host := (s.backData line).host, regs := (s.backData line).regs } := by
  unfold State.backData
  split <;> rfl

theorem entryTaken_frame (s : State) (q : Nat) : let i := s.rd sqHead q
    let w0 := s.sqWord q i 0
    let t := s.entryTaken q
    t.sup.lastServed = q ∧ t.sup.taken = s.sup.taken ++ [{ qid := q, tag := bits w0 32 32, opcode := w0 % 65536, chans := s.chanSet (w0 % 65536) (s.sqWord q i 1) }] ∧
      t.chans = s.chans ∧ t.mem = s.mem ∧ t.ports = s.ports ∧ t.time = s.time ∧ t.engines = s.engines := by
  have hback := backData_frame s ((hsBase + s.rd sqBase q + 64 * s.rd sqHead q) / 64)
  have hsup := congrArg State.sup hback
  have hchans := congrArg State.chans hback
  unfold State.entryTaken
  dsimp only
  generalize s.backData ((hsBase + s.rd sqBase q + 64 * s.rd sqHead q) / 64) = b at *
  refine ⟨rfl, ?_, hchans, (congrArg State.mem hback :), (congrArg State.ports hback :), (congrArg State.time hback :), (congrArg State.engines hback :)⟩
  have hset : ∀ u : State, u.chans = b.chans → u.chanSet = s.chanSet := fun u hu => by
    funext op w1
    exact chanSet_congr (fun k => congrArg (fun x : Tbl Chan => tget x k {}) (hu.trans hchans)) op w1
  have htaken : b.sup.taken = s.sup.taken := congrArg Sup.taken hsup
  exact congrArg₂ (fun (l : List Taken) (f : Nat → Nat → List Nat) => l ++ [takenOf q (s.sqWord q (s.rd sqHead q) 0) (s.sqWord q (s.rd sqHead q) 1) f])
    htaken (hset _ rfl)

theorem entryTaken_sqHead {s : State} {q : Nat} (h : s.rd sqHead q + 1 < 2 ^ 12) :
    (s.entryTaken q).rd sqHead q = if s.rd sqSize q ≤ s.rd sqHead q + 1 then 0 else s.rd sqHead q + 1 := by
  refine (State.rd_wr_self _ sqHead _ q 0).trans ?_
  show (if s.rd sqHead q + 1 ≥ s.rd sqSize q then 0 else s.rd sqHead q + 1) % 2 ^ 12 = _
  split
  · rfl
  · exact Nat.mod_eq_of_lt h

theorem commandFetch_away {s : State} (h : s.fetching = false) : commandFetch s = s := if_pos (by rw [h]; rfl)

/-- The first queue after the one served last from which Bister may take. -/
theorem commandFetch_takes {s : State} {k : Nat} (hk : k < 64) (hf : s.fetching = true) (hc : s.canTake ((s.sup.lastServed + 1 + k) % 64) = true)
    (hfirst : ∀ j < k, s.canTake ((s.sup.lastServed + 1 + j) % 64) = false) : commandFetch s = s.takeEntry ((s.sup.lastServed + 1 + k) % 64) := by
  have hfind : ((List.range 64).map (fun i => (s.sup.lastServed + 1 + i) % 64)).find? s.canTake = some ((s.sup.lastServed + 1 + k) % 64) := by
    have hrange : (List.range 64).find? (s.canTake ∘ fun i => (s.sup.lastServed + 1 + i) % 64) = some k :=
      List.find?_range_eq_some.mpr ⟨hc, List.mem_range.mpr hk, fun j hj => by rw [Function.comp, hfirst j hj]; rfl⟩
    rw [List.find?_map, hrange]
    rfl
  simp only [commandFetch, hf, hfind, Bool.not_true, Bool.false_eq_true, if_false]

theorem commandFetch_none {s : State} (h : ∀ q < 64, s.canTake q = false) : commandFetch s = s := by
  have hfind : ((List.range 64).map (fun i => (s.sup.lastServed + 1 + i) % 64)).find? s.canTake = none := by
    refine List.find?_eq_none.mpr fun q hq => ?_
    obtain ⟨i, -, rfl⟩ := List.mem_map.mp hq
    rw [h _ (Nat.mod_lt _ (by decide))]
    decide
  unfold commandFetch
  rw [hfind]
  split <;> rfl

/-- Settles O27: the queue that is served next, and the entry that is taken from it. -/
theorem commandFetchTakes : Obligations.CommandFetchTakes := by
  refine ⟨fun s h => congrArg Host.Outcome.next (commandFetch_away h), fun s h => congrArg Host.Outcome.next (commandFetch_none h), ?_⟩
  intro k s q i w0 hk hf hc hfirst hi
  exact ⟨s.entryTaken q, ⟨entryTaken_sqHead hi, entryTaken_frame s q⟩, congrArg Host.Outcome.next ((commandFetch_takes hk hf hc hfirst).trans (takeEntry_eq s q))⟩

end Sys2Proof.Machine
end

section
/-! ### The CXL link, back-invalidates and the mailbox's logs -/
namespace Sys2Proof.Machine
open Sys2Proof.Safety

/-! #### Credit pools -/

/-- The pools that a training makes are the first n; their totals are free values and their credits free (R414). -/
theorem newPools_spec (n : Nat) (s : State) : let t := State.newPools n s
    t = { s with host := { s.host with pools := t.host.pools }, freeCtr := s.freeCtr + n } ∧
    (∀ k < n, ∃ v, tget t.host.pools k {} = { free := v, total := v }) ∧ ∀ k, n ≤ k → tget t.host.pools k {} = tget s.host.pools k {} := by
  induction n generalizing s with
  | zero => exact ⟨rfl, fun k hk => absurd hk (Nat.not_lt_zero k), fun _ _ => rfl⟩
  | succ n ih =>
    rw [State.newPools]
    dsimp only
    generalize hv : Config.freeNat s.freeCtr % 65536 = v
    obtain ⟨hframe, hin, hout⟩ := ih { s.draw with host := { s.draw.host with pools := tset s.draw.host.pools n { free := v, total := v } {} } }
    refine ⟨hframe.trans ?_, fun k hk => ?_, fun k hk => ?_⟩
    · have hctr : s.freeCtr + (n + 1) = s.draw.freeCtr + n := by
        show s.freeCtr + (n + 1) = s.freeCtr + 1 + n
        omega
      rw [hctr]
      rfl
    · by_cases hn : k = n
      · exact ⟨v, by rw [hout k (by omega), hn]; exact tget_tset_self ..⟩
      · exact hin k (by omega)
    · rw [hout k (by omega)]
      exact tget_tset_ne _ _ _ _ (by omega)

section
variable (s : State)

theorem syncPools_frame : s.syncPools = { s with host := { s.host with pools := s.syncPools.host.pools } } := rfl

theorem syncPools_bisnp : let p := tget s.syncPools.host.pools 11 {}
    p.held = min s.host.bisnp.length p.total ∧ p.free = p.total - p.held := by
  have hp : tget s.syncPools.host.pools 11 {} = _ := tget_tset_self ..
  rw [hp]
  exact ⟨rfl, rfl⟩

/-- With nothing outstanding, a pool whose credits were all free keeps them so. -/
theorem syncPools_idle (hout : s.host.cacheOut = []) (hbi : s.host.bisnp = []) {k v : Nat} (h : tget s.host.pools k {} = { free := v, total := v }) :
    tget s.syncPools.host.pools k {} = { free := v, total := v } := by
  have hhold : ∀ (u : State) (j : Nat), tget u.host.pools k {} = { free := v, total := v } → tget (u.holdPool j 0).host.pools k {} = { free := v, total := v } :=
    fun u j hu => by
      by_cases hj : k = j
      · rw [State.holdPool, ← hj]
        dsimp only
        rw [tget_tset_self, hu, Nat.zero_min, Nat.sub_zero]
      · exact (tget_tset_ne _ _ _ _ hj).trans hu
  rw [State.syncPools, hout, hbi]
  exact hhold _ 11 (hhold _ 3 h)

end

/-! #### The link -/

section
variable {s : State} {width rate : Nat}

theorem cxlLinkTrained_unsupported (h : cxlSupported width rate = false) : cxlLinkTrained width rate s = s := if_pos (by rw [h]; rfl)

theorem linkDegraded_away (h : s.served = false) : s.linkDegraded = s := if_neg (by simp [h])

/-- The link as it has trained, with new pools. -/
def State.linkTrained (s : State) (width rate : Nat) : State :=
  ({ s with host := { s.host with linkUp := true, linkWidth := width, linkRate := rate } }.newPools 12).syncPools

theorem linkTrained_frame (s : State) (width rate : Nat) : let t := s.linkTrained width rate
    t = { s with host := { s.host with linkUp := true, linkWidth := width, linkRate := rate, pools := t.host.pools }, freeCtr := s.freeCtr + 12 } := by
  obtain ⟨hframe, -, -⟩ := newPools_spec 12 { s with host := { s.host with linkUp := true, linkWidth := width, linkRate := rate } }
  unfold State.linkTrained
  generalize { s with host := { s.host with linkUp := true, linkWidth := width, linkRate := rate } }.newPools 12 = p at *
  rw [syncPools_frame, hframe]

theorem cxlLinkTrained_away (hc : cxlSupported width rate = true) (hs : s.served = false) : cxlLinkTrained width rate s = s.linkTrained width rate := by
  have haway : (s.linkTrained width rate).served = false := by
    rw [linkTrained_frame]
    exact hs
  rw [cxlLinkTrained, if_neg (by rw [hc]; decide)]
  exact linkDegraded_away haway

theorem linkTrained_pools (hout : s.host.cacheOut = []) (hbi : s.host.bisnp = []) {n : Nat} (hn : n < 12) :
    (tget (s.linkTrained width rate).host.pools n {}).free = (tget (s.linkTrained width rate).host.pools n {}).total ∧
      (tget (s.linkTrained width rate).host.pools n {}).held = 0 := by
  obtain ⟨hframe, hin, -⟩ := newPools_spec 12 { s with host := { s.host with linkUp := true, linkWidth := width, linkRate := rate } }
  obtain ⟨v, hv⟩ := hin n hn
  have hidle := syncPools_idle _ ((congrArg (fun u : State => u.host.cacheOut) hframe).trans hout) ((congrArg (fun u : State => u.host.bisnp) hframe).trans hbi) hv
  rw [State.linkTrained, hidle]
  exact ⟨rfl, rfl⟩

end

/-- Settles O28: the link by its width and rate, the decoder by its size, the pools by what is outstanding. -/
theorem cxlLinkRows : Obligations.CxlLinkRows := by
  refine ⟨fun width rate s h => congrArg Host.Outcome.next (cxlLinkTrained_unsupported h), fun width rate s hc hs => ?_, fun _ _ => rfl,
    fun line s => ⟨rfl, ?_⟩, fun _ _ => rfl, fun s => ⟨rfl, ?_⟩⟩
  · have hframe := linkTrained_frame s width rate
    refine gives_next (congrArg Host.Outcome.next (cxlLinkTrained_away hc hs)) ⟨?_, ?_, ?_, ?_, fun hout hbi n hn => linkTrained_pools hout hbi hn, ?_⟩
    · rw [hframe]
    · rw [hframe]
    · rw [hframe]
    · rw [hframe]
    · rw [hframe]
  · obtain ⟨hheld, hfree⟩ := syncPools_bisnp { s with host := { s.host with bisnp := s.host.bisnp.erase line } }
    exact gives_next rfl ⟨rfl, hheld, hfree, rfl⟩
  · refine gives_next rfl ⟨?_, rfl⟩
    exact (State.flag_wr_self s mbxSnapReq 1 0 0).trans rfl

/-! #### The mailbox -/

theorem whenServed_yes {b : Bool} {s : State} (f : State → State) (h : b = true) : whenServed b f s = f s := if_pos h

theorem whenServed_no {b : Bool} {s : State} (f : State → State) (h : b = false) : whenServed b f s = s.reply mbBusy := if_neg (by rw [h]; decide)

theorem clearEventRecords_all {log : Nat} {s : State} (h : s.served = true) : clearEventRecords log [] true s =
    State.reply { s with sup := { s.sup with logs := tset s.sup.logs log {} {} } } mbSuccess := whenServed_yes _ h

theorem clearEventRecords_unknown {log h : Nat} {s : State} (hs : s.served = true)
    (hno : (tget s.sup.logs log {}).records.any (fun e => e.handle = h) = false) : clearEventRecords log [h] false s = s.reply mbHandle := by
  refine (whenServed_yes _ hs).trans (if_pos ?_)
  rw [List.all_cons, hno]
  rfl

/-- Settles O30: each command by its answer; the answer to an unserved one says that it is busy. -/
theorem mailboxLogRows : Obligations.MailboxLogRows := by
  refine ⟨fun log s hs => ?_, fun log s hs => ?_, fun log h s hs hno => ?_, fun s hs => ?_, fun x s hs => ?_, fun s hs => ?_, fun s hs => ?_, fun s hs => ?_,
    fun which s hs => ?_, fun log s hs => ?_, ?_⟩
  · exact gives_next (congrArg Host.Outcome.next (whenServed_yes _ hs)) ⟨rfl, mem_addOnce, rfl⟩
  · refine gives_next (congrArg Host.Outcome.next (clearEventRecords_all hs)) ?_
    have hlog : ∀ k, tget (tset s.sup.logs log.val {} {}) k {} = if k = log.val then {} else tget s.sup.logs k {} := fun k => by
      split
      · next hk => rw [hk, tget_tset_self]
      · next hk => exact tget_tset_ne _ _ _ _ hk
    have hown : tget (tset s.sup.logs log.val {} {}) log.val {} = ({} : EventLog) := (hlog log.val).trans (if_pos rfl)
    exact ⟨rfl, congrArg EventLog.records hown, congrArg EventLog.overflow hown, fun k hk => (hlog k).trans (if_neg hk), rfl⟩
  · exact gives_next (congrArg Host.Outcome.next (clearEventRecords_unknown hs hno)) ⟨rfl, rfl⟩
  · exact gives_next (congrArg Host.Outcome.next (whenServed_yes _ hs)) ⟨rfl, rfl⟩
  · exact gives_next (congrArg Host.Outcome.next (whenServed_yes _ hs)) ⟨rfl, rfl, rfl⟩
  · exact gives_next (congrArg Host.Outcome.next (whenServed_yes _ hs)) ⟨rfl, rfl⟩
  · exact gives_next (congrArg Host.Outcome.next (whenServed_yes _ hs)) ⟨rfl, rfl⟩
  · exact gives_next (congrArg Host.Outcome.next (whenServed_yes _ hs)) ⟨rfl, rfl⟩
  · have hrun : getLog which.val 0 0 s = s.reply mbSuccess := (whenServed_yes _ hs).trans (if_neg (by simp))
    exact gives_next (congrArg Host.Outcome.next hrun) ⟨rfl, rfl⟩
  · exact gives_next (congrArg Host.Outcome.next (whenServed_no _ hs)) ⟨rfl, rfl⟩
  · intro code unit inst ch s e h
    exact congrArg Host.Outcome.next (if_pos h)

end Sys2Proof.Machine
end

section
/-! ### The boot ROM, images staged and activated, and the rollout -/
namespace Sys2Proof.Machine
open Sys2Proof.Safety

/-! #### What a command that runs finds -/

section
variable {c : HostCmd} {op : Nat} {used : List (Nat × Nat)} {groups : Bool} {s : State}

theorem commandRuns_found (h : commandRuns c op used groups s = true) : s.served = true ∧ s.flag secService = false ∧ s.flag secErasing = false ∧
    ∀ w1, s.taking c.qid.val c.tag.toNat op w1 = s := by
  simp only [commandRuns, Bool.and_eq_true, Bool.not_eq_true'] at h
  obtain ⟨⟨⟨⟨⟨⟨⟨⟨hserved, htaken⟩, -⟩, -⟩, hserv⟩, hera⟩, -⟩, -⟩, -⟩ := h
  exact ⟨hserved, hserv, hera, fun w1 => if_pos htaken⟩

end

/-! #### The boot ROM -/

section
variable {s : State}

theorem boot_rd_reason (s : State) (b : Nat) : (s.boot b).rd mbxBootReason = s.rd mbxBootReason := boot_rd_ne s b (by decide) (by decide)

theorem boot_bgStatus (s : State) (b : Nat) : (s.boot b).host.bgStatus = s.host.bgStatus := by
  unfold State.boot
  dsimp only
  split <;> split <;> rfl

theorem romSelfTestDone_init (h : s.rd mbxBootState = 0) (passed : Bool) : romSelfTestDone passed s =
    if passed then (if s.flag mbxBootWarm then State.boot { s with host := { s.host with memActive := true } } 2 else s.boot 1) else s.boot 15 := by
  cases passed <;> simp [romSelfTestDone, h]

/-- The answer to a Folnen command sets FSTATUS, and changes nothing but the host's domain. -/
theorem fnReply_frame (s : State) (st : Nat) (l : List Byte) : (s.fnReply st l).host.reply.fstatus = st ∧
    (s.fnReply st l).host.bgStatus = s.host.bgStatus ∧ s.fnReply st l = { s with host := (s.fnReply st l).host } := ⟨rfl, rfl, rfl⟩

theorem fnReply_rd (s : State) (st : Nat) (l : List Byte) (d : RegDesc) (i j : Nat) : (s.fnReply st l).rd d i j = s.rd d i j := rfl

theorem fnImageLoad_ok {off : Nat} {data : List Byte} (hstate : s.rd mbxBootState = 2) (hfit : s.img.memNoFit = false) (hoff : off % 4 = 0)
    (hlen : data.length % 4 = 0) (hmin : 4 ≤ data.length) (hmax : data.length ≤ 2 ^ 20) (hend : off + data.length ≤ 2 ^ 26) :
    fnImageLoad off data s = State.fnReply { s with img := { s.img with loadBuf := msetList s.img.loadBuf off data } } stOK := by
  have hbad : (off % 4 != 0 || data.length % 4 != 0 || decide (data.length < 4) || decide (2 ^ 20 < data.length) || decide (2 ^ 26 < off + data.length)) = false := by
    simp only [hoff, hlen, Nat.not_lt.mpr hmin, Nat.not_lt.mpr hmax, Nat.not_lt.mpr hend, bne_self_eq_false, decide_false, Bool.or_self]
  rw [fnImageLoad, if_neg (by simp [hstate]), if_neg (by simp [hfit]), if_neg (by rw [hbad]; decide)]

theorem fnImageStart_begins {length : Nat} (hstate : s.rd mbxBootState = 2) (hfit : s.img.memNoFit = false) (hlife : s.rd secLifecycle ≠ 3) :
    fnImageStart length s = State.fnReply (State.boot (State.wr { s with
      img := { s.img with verifyLen := length }, host := { s.host with bgStatus := stACCEPTED } } mbxBootReason 0) 3) stOK := by
  rw [fnImageStart, if_neg (by simp [hstate]), if_neg (by simp [hfit]), if_neg hlife]

/-- The image buffer is discarded, and the background command's status is set. -/
def State.verifyEnds (s : State) (st : Nat) : State := { s with img := { s.img with loadBuf := [] }, host := { s.host with bgStatus := st } }

theorem fnImageVerified_fails {r st : Nat} (hstate : s.rd mbxBootState = 3) (h : s.romCheck s.pushed = some (r, st)) : fnImageVerified s =
    (((if r = 3 then s.bump secSigFail else s).verifyEnds st).wr mbxBootReason r).boot 2 := by
  simp only [fnImageVerified, hstate, h, bne_self_eq_false, Bool.false_eq_true, if_false]
  rfl

theorem fnImageVerified_passes (hstate : s.rd mbxBootState = 3) (h : s.romCheck s.pushed = none) : fnImageVerified s = State.boot { s with
      img := { s.img with loadBuf := [], running := parseImage s.pushed, basePack := basePackOf s.pushed, previous := none }
      host := { s.host with bgStatus := stOK } } 4 := by
  simp only [fnImageVerified, hstate, h, bne_self_eq_false, Bool.false_eq_true, if_false]

end

/-! #### The start of the supervisor -/

section
variable {s : State}

theorem supStartDone_fails {l : List Byte} (hstate : s.rd mbxBootState = 4) :
    supStartDone false l s = ((s.wr mbxBootReason 5).wr supServiceReason 5).boot 2 := by
  rw [supStartDone, if_neg (by simp [hstate]), if_pos (by decide)]

/-- The state in which a supervisor that starts after COLD has found its board and named its images. -/
def State.supStarted (s : State) (l : List Byte) : State :=
  let t := State.drawSeeds 4 (s.readBoard l)
  State.loadEngines (State.nameImages { t with img := { t.img with pack := t.img.basePack } })

theorem supStartDone_cold {l : List Byte} {r : Image} (hstate : s.rd mbxBootState = 4) (hrun : s.img.running = some r) (hwarm : s.flag mbxBootWarm = false) :
    supStartDone true l s = ((s.supStarted l).readModules.invRebuild.enterService none).linkDegraded := by
  simp only [supStartDone, hstate, hrun, hwarm, bne_self_eq_false, Bool.not_true, Bool.not_false, Bool.true_or, Bool.false_eq_true, if_false, if_true]
  rfl

theorem readBoard_runs {b : Bool} {i : ImgSt} (h : Runs b i s) (l : List Byte) : Runs b i (s.readBoard l) := by
  have h1 : Runs b i { s with sup := { s.sup with
      eepromOk := eepromHolds l, eeprom := l.take 256
      modPower := if eepromHolds l then (List.range 4).map (fun p => leAt l (16 + p) 1) else [1, 1, 1, 1] } } := h.updSup
  have h2 := Runs.foldl (l := List.range 4) (f := fun (s : State) p => s.wr ethMacAddr (portMac l p) p) (fun _ _ hu => hu.wr) h1
  exact .ite h1 (.ite h2.wr h2)

theorem drawSeeds_runs {b : Bool} {i : ImgSt} (n : Nat) {s : State} (h : Runs b i s) : Runs b i (State.drawSeeds n s) := by
  induction n generalizing s with
  | zero => exact h
  | succ n ih => exact ih (s := s.draw.wr flwSeed (Config.freeNat s.freeCtr) n) h

theorem loadEngines_runs {b : Bool} {i : ImgSt} (h : Runs b i s) : Runs b i s.loadEngines := .foldl (fun _ _ hu => hu) h

theorem supStarted_img (s : State) (l : List Byte) : (s.supStarted l).img = { s.img with pack := s.img.basePack } := by
  have h : Runs s.sup.restarting s.img (State.drawSeeds 4 (s.readBoard l)) := drawSeeds_runs 4 (readBoard_runs ⟨rfl, rfl⟩ l)
  unfold State.supStarted
  generalize State.drawSeeds 4 (s.readBoard l) = t at h
  obtain ⟨-, himg⟩ := h
  have ht : Runs t.sup.restarting { s.img with pack := s.img.basePack } { t with img := { t.img with pack := t.img.basePack } } := ⟨rfl, by rw [himg]⟩
  exact (loadEngines_runs ht.nameImages).2

/-- Bister's service, and what its first event leaves of the boot's registers. -/
theorem serviceEntered_rd (s : State) : (s.enterService none).linkDegraded.rd mbxBootState = 5 ∧ (s.enterService none).linkDegraded.rd mbxBootReason = 0 := by
  have hdegraded : ∀ (u : State) (d : RegDesc), d.key 0 0 ≠ secEventsCoalesced.key 0 0 → u.linkDegraded.rd d = u.rd d := fun u d hd => by
    unfold State.linkDegraded
    split
    · exact State.raise_rd_ne u _ _ _ _ _ _ _ hd
    · rfl
  have hstate : (s.enterService none).rd mbxBootState = 5 := boot_rd_state _ 5 (by decide)
  have hreason : (s.enterService none).rd mbxBootReason = 0 :=
    (boot_rd_reason _ 5).trans ((State.rd_wr_ne _ _ (by decide)).trans ((State.rd_wr_ne _ _ (by decide)).trans (State.rd_wr_self ..)))
  exact ⟨(hdegraded _ _ (by decide)).trans hstate, (hdegraded _ _ (by decide)).trans hreason⟩

theorem supStartDone_cold_img {l : List Byte} (s : State) :
    ((s.supStarted l).readModules.invRebuild.enterService none).linkDegraded.img = { s.img with pack := s.img.basePack } := by
  have h : Runs (s.supStarted l).sup.restarting { s.img with pack := s.img.basePack } (s.supStarted l) := ⟨rfl, supStarted_img s l⟩
  have hs : Runs (s.supStarted l).sup.restarting { s.img with pack := s.img.basePack } ((s.supStarted l).readModules.invRebuild.enterService none) :=
    h.readModules.invRebuild.enterService
  exact (Runs.ite hs.raise hs : Runs _ _ (State.linkDegraded _)).2

end

/-! #### IMAGE_STAGE and IMAGE_ACTIVATE -/

section
variable {c : HostCmd} {s : State} {image : List Byte}

theorem applyStage_kind (h : 1 < bits c.w1.toNat 0 2) : applyStage c image s = .refuse stBAD_PARAM 8 := if_pos h

theorem applyStage_busy (hk : bits c.w1.toNat 0 2 ≤ 1) (h : s.staging (bits c.w1.toNat 0 2) = true ∨ s.activating (bits c.w1.toNat 0 2) = true) :
    applyStage c image s = .refuse stBUSY 0 := by
  rw [applyStage, if_neg (by omega), if_pos]
  rcases h with h | h <;> simp [h]

theorem applyStage_reads (hk : bits c.w1.toNat 0 2 ≤ 1) (hs : s.staging (bits c.w1.toNat 0 2) = false) (ha : s.activating (bits c.w1.toNat 0 2) = false) :
    applyStage c image s = .accepted (s.cacheIssue (lineReads c.qid.val c.tag.toNat c.w3.toNat (bits c.w1.toNat 0 2)
      (readBytes c.w4.toNat image) (linesOf c.w3.toNat c.w4.toNat))) := by
  rw [applyStage, if_neg (by omega), if_neg (by simp [hs, ha])]

theorem imageActivate_sup (h : bits c.w1.toNat 0 2 = 0) : imageActivate c s = activateSup c s := by
  rw [imageActivate, h]
  rfl

theorem imageActivate_pack (h : bits c.w1.toNat 0 2 = 1) : imageActivate c s = activatePack c s := by
  rw [imageActivate, h]
  rfl

theorem imageActivate_other (h : 1 < bits c.w1.toNat 0 2) : imageActivate c s = runCommand c 0x71 [(1, 3)] false (fun _ => .refuse stBAD_PARAM 8) s := by
  unfold imageActivate
  split
  · next h0 => omega
  · next h1 => omega
  · rfl

/-- A supervisor's activation that waits for earlier commands or a rollout is held (R487, R489). -/
theorem activateSup_waits (h : commandRuns c 0x71 [(1, 3)] false s = true) (hw : s.activateWaits c = true) : activateSup c s = s := by
  obtain ⟨hserved, hserv, hera, htaking⟩ := commandRuns_found h
  simp only [activateSup, htaking, hserved, hw, hserv, hera, Bool.not_false, Bool.and_self, if_true]

theorem activateSup_runs (h : commandRuns c 0x71 [(1, 3)] false s = true) (hw : s.activateWaits c = false) : activateSup c s =
    let t := runCommand c 0x71 [(1, 3)] false (applyActivateSup c) s
    if t.img.activSup.isSome && s.img.activSup.isNone then supReset t else t := by
  obtain ⟨-, -, -, htaking⟩ := commandRuns_found h
  simp only [activateSup, htaking, hw, Bool.and_false, Bool.false_and, Bool.false_eq_true, if_false]

/-- An activation that is refused without a change of the images does not restart Bister. -/
theorem activateSup_refused {t : State} (h : commandRuns c 0x71 [(1, 3)] false s = true) (hw : s.activateWaits c = false)
    (hrun : runCommand c 0x71 [(1, 3)] false (applyActivateSup c) s = t) (himg : t.img = s.img) : activateSup c s = t := by
  rw [activateSup_runs h hw, hrun]
  dsimp only
  rw [himg, if_neg]
  cases s.img.activSup <;> simp

theorem applyActivateSup_none (h : s.img.stagedSup = none) : applyActivateSup c s = .refuse stBAD_STATE 0 := by rw [applyActivateSup, h]

theorem applyActivateSup_fails {p : Image} {st check : Nat} (h : s.img.stagedSup = some p) (hc : s.supChecks p.raw = some (st, check)) :
    applyActivateSup c s = .fail (s.imageRefused 0 check) st 0 := by
  simp only [applyActivateSup, h, hc]

/-- The staged supervisor image takes the running one's place. -/
def State.supSwapped (s : State) (c : HostCmd) (p : Image) : State :=
  State.wr { s with img := { s.img with previous := s.img.running, running := some p, stagedSup := none, activSup := some (c.qid.val, c.tag.toNat) } } supImgStagedSup 0

theorem applyActivateSup_swaps {p : Image} (h : s.img.stagedSup = some p) (hc : s.supChecks p.raw = none) :
    applyActivateSup c s = .accepted (s.supSwapped c p) := by
  simp only [applyActivateSup, h, hc]
  rfl

/-- An accepted activation of a supervisor image, with none under way, restarts Bister (R487). -/
theorem activateSup_swaps {p : Image} (h : commandRuns c 0x71 [(1, 3)] false s = true) (hw : s.activateWaits c = false) (hp : s.img.stagedSup = some p)
    (hc : s.supChecks p.raw = none) (hidle : s.img.activSup = none) : activateSup c s =
      let t := (s.supSwapped c p).complete c.qid.val c.tag.toNat 0x71 stACCEPTED 0 0 0
      supReset { t with sup := { t.sup with finals := t.sup.finals + 1 } } := by
  have hactiv : ((s.supSwapped c p).complete c.qid.val c.tag.toNat 0x71 stACCEPTED 0 0 0).img.activSup = some (c.qid.val, c.tag.toNat) :=
    congrArg ImgSt.activSup (State.complete_img ..)
  rw [activateSup_runs h hw, Host.Outcome.next.inj (next_accepted h (applyActivateSup_swaps hp hc))]
  generalize (s.supSwapped c p).complete c.qid.val c.tag.toNat 0x71 stACCEPTED 0 0 0 = t at hactiv
  dsimp only
  rw [hactiv, hidle]
  exact if_pos rfl

theorem applyActivatePack_none (h : s.img.stagedPack = none) : applyActivatePack c s = .refuse stBAD_STATE 0 := by rw [applyActivatePack, h]

theorem applyActivatePack_fails {p : Image} {st check : Nat} (h : s.img.stagedPack = some p) (hc : s.packChecks p.raw = some (st, check)) :
    applyActivatePack c s = .fail (s.imageRefused 1 check) st 0 := by
  simp only [applyActivatePack, h, hc]

theorem applyActivatePack_busy {p : Image} (h : s.img.stagedPack = some p) (hc : s.packChecks p.raw = none) (ht : s.img.target ≠ none) :
    applyActivatePack c s = .refuse stBUSY 0 := by
  simp only [applyActivatePack, h, hc, if_pos (Option.isSome_iff_ne_none.mpr ht)]

/-- The rollout of a staged pack begins. -/
def State.rolloutBegun (s : State) (c : HostCmd) (p : Image) : State :=
  let t : State := { s with img := { s.img with
    target := some (mergePack s.img.pack p), stagedPack := none, activPack := some (c.qid.val, c.tag.toNat), rolloutNext := 0, rolloutEng := [] } }
  ((t.wr supImgStagedPack 0).wr supRolloutActive 1).wr supRolloutDomains 0

theorem applyActivatePack_begins {p : Image} (h : s.img.stagedPack = some p) (hc : s.packChecks p.raw = none) (ht : s.img.target = none) :
    applyActivatePack c s = .accepted (s.rolloutBegun c p) := by
  simp only [applyActivatePack, h, hc, ht, Option.isSome_none, Bool.false_eq_true, if_false]
  rfl

theorem imageRefused_img (s : State) (kind check : Nat) : (s.imageRefused kind check).img = s.img := by
  unfold State.imageRefused
  rw [State.raise_img]
  split <;> rfl

theorem complete_finals (s : State) (q tag op st dt r2 r3 : Nat) : (s.complete q tag op st dt r2 r3).sup.finals = s.sup.finals := by
  have hraise : ∀ (u : State) (off : Nat) (bs : List Byte), (u.hsWrite off bs).sup.finals = u.sup.finals := fun u off bs =>
    foldl_keeps (fun v : State => v.sup.finals) (fun v l => congrArg Sup.finals (State.backInv_sup v l)) _ u
  have huntake : ∀ u : State, (u.untake q tag).sup.finals = u.sup.finals := fun u => by
    unfold State.untake
    dsimp only
    split <;> rfl
  have hsignal : ∀ (u : State) (k : Nat), (u.cqSignal k).sup = u.sup := fun u k => State.cqSignal_sup u k
  have hpost : ∀ (u : State) (k : Nat), (u.postCq k tag st dt r2 r3).sup.finals = u.sup.finals := fun u k => by
    unfold State.postCq
    split
    · rfl
    · exact (congrArg Sup.finals (hsignal _ k)).trans (hraise u _ _)
  unfold State.complete
  split
  · rfl
  · dsimp only
    rw [huntake, hpost]
    split <;> rfl

end

/-- The acceptance of a pack leaves the rollout begun, and Mordant as it was. -/
theorem rolloutAccepted (s : State) (c : HostCmd) (p : Image) : let t := (s.rolloutBegun c p).complete c.qid.val c.tag.toNat 0x71 stACCEPTED 0 0 0
    t.sup.finals = s.sup.finals ∧ t.img.target = some (mergePack s.img.pack p) ∧ t.img.stagedPack = none ∧ t.img.rolloutNext = 0 ∧
    t.flag supRolloutActive = true ∧ t.chans = s.chans ∧ t.engines = s.engines ∧ t.mor = s.mor := by
  have himg := State.complete_img (s.rolloutBegun c p) c.qid.val c.tag.toNat 0x71 stACCEPTED 0 0 0
  have hactive : (s.rolloutBegun c p).rd supRolloutActive = 1 := (State.rd_wr_ne _ _ (by decide)).trans (State.rd_wr_self ..)
  have hkey : ∀ k, supRolloutActive.key 0 0 ≠ cqTail.key k 0 := fun k => by
    simp only [RegDesc.key, supRolloutActive, cqTail]
    omega
  refine ⟨complete_finals .., congrArg ImgSt.target himg, congrArg ImgSt.stagedPack himg, congrArg ImgSt.rolloutNext himg, ?_, State.complete_chans ..,
    State.complete_engines .., State.complete_mor ..⟩
  rw [State.flag, State.complete_rd_ne _ _ _ _ _ _ _ _ (by decide) hkey, hactive]
  rfl

/-! #### The rollout -/

section
variable {s : State}

theorem rolloutDomainTurn_suspended (h : s.flag supRolloutActive = false ∨ s.served = false) : rolloutDomainTurn s = s := by
  refine if_pos ?_
  rcases h with h | h <;> simp [h]

variable (hactive : s.flag supRolloutActive = true) (hserved : s.served = true)
include hactive hserved

theorem rolloutDomainTurn_over (h : s.rolloutDomain s.img.rolloutNext = none) : rolloutDomainTurn s = s.rolloutEnd := by
  simp only [rolloutDomainTurn, hactive, hserved, h, Bool.not_true, Bool.or_self, Bool.false_eq_true, if_false]

theorem rolloutDomainTurn_at {d : Nat} (h : s.rolloutDomain s.img.rolloutNext = some d) : rolloutDomainTurn s =
    let up := ((enginesOf d).filter (fun e => (s.me e).service = 0)).length
    if up ≠ 0 ∧ s.serving.length < s.rd supLoadLimit + up then s
    else if (s.rolloutRetire d).rolloutReady d = true then
      (if ((s.rolloutRetire d).rolloutRestore d).rolloutDomain (d + 1) = none then ((s.rolloutRetire d).rolloutRestore d).rolloutEnd
        else (s.rolloutRetire d).rolloutRestore d)
    else s.rolloutRetire d := by
  simp only [rolloutDomainTurn, hactive, hserved, h, Bool.not_true, Bool.or_self, Bool.false_eq_true, if_false, Bool.and_eq_true, bne_iff_ne, ne_eq,
    decide_eq_true_eq]
  split
  · rfl
  · cases (s.rolloutRetire d).rolloutReady d with
    | false => rfl
    | true => simp only [true_and, if_true, Option.isNone_iff_eq_none]

end

/-- Settles O31: the boot by the state it finds, a stage and an activation by their rule's answer, a rollout's turn by its branch. -/
theorem bootAndImageRows : Obligations.BootAndImageRows := by
  refine ⟨?_, ?_, ?_, ?_, ?_, ?_, ?_, ?_, ?_, ?_, ?_, ?_, ?_, ?_⟩
  · intro s h
    refine ⟨?_, fun hw => ?_, fun hw => ?_⟩
    · exact congrArg Host.Outcome.next (romSelfTestDone_init h false)
    · exact congrArg Host.Outcome.next ((romSelfTestDone_init h true).trans (by rw [hw]; rfl))
    · exact congrArg Host.Outcome.next ((romSelfTestDone_init h true).trans (by rw [hw]; rfl))
  · intro off data s hstate hfit hoff hlen hmin hmax hend
    exact gives_next (congrArg Host.Outcome.next (fnImageLoad_ok hstate hfit hoff hlen hmin hmax hend)) ⟨rfl, rfl, rfl⟩
  · intro length s hstate hfit hlife
    refine gives_next (congrArg Host.Outcome.next (fnImageStart_begins hstate hfit hlife)) ?_
    refine ⟨(fnReply_rd ..).trans (boot_rd_state _ 3 (by decide)), rfl, (fnReply_frame ..).2.1.trans ((boot_bgStatus ..).trans rfl), ?_, ?_⟩
    · exact congrArg ImgSt.verifyLen (State.boot_img ..)
    · exact State.boot_chans ..
  · intro s hstate
    refine ⟨fun r st hr h16 => ?_, fun hnone => ?_⟩
    · refine gives_next (congrArg Host.Outcome.next (fnImageVerified_fails hstate hr)) ⟨boot_rd_state _ 2 (by decide), ?_, ?_, ?_⟩
      · rw [boot_rd_reason, State.rd_wr_self]
        exact Nat.mod_eq_of_lt (Nat.lt_trans h16 (by decide))
      · exact congrArg ImgSt.loadBuf (State.boot_img ..)
      · exact boot_bgStatus ..
    · refine gives_next (congrArg Host.Outcome.next (fnImageVerified_passes hstate hnone)) ⟨boot_rd_state _ 4 (by decide), ?_, ?_, ?_⟩
      · exact congrArg ImgSt.running (State.boot_img ..)
      · exact congrArg ImgSt.loadBuf (State.boot_img ..)
      · exact boot_bgStatus ..
  · intro l s hstate
    refine gives_next (congrArg Host.Outcome.next (supStartDone_fails hstate)) ⟨boot_rd_state _ 2 (by decide), ?_⟩
    exact (boot_rd_reason ..).trans ((State.rd_wr_ne _ _ (by decide)).trans (State.rd_wr_self ..))
  · intro l r s hstate hrun hwarm
    have himg := supStartDone_cold_img s (l := l)
    obtain ⟨hst, hreason⟩ := serviceEntered_rd (s.supStarted l).readModules.invRebuild
    have hdone := supStartDone_cold (l := l) hstate hrun hwarm
    generalize ((s.supStarted l).readModules.invRebuild.enterService none).linkDegraded = t at *
    exact gives_next (congrArg Host.Outcome.next hdone) ⟨hst, hreason, congrArg ImgSt.pack himg, (congrArg ImgSt.running himg).trans hrun⟩
  · intro s h
    exact gives_next (congrArg Host.Outcome.next (whenServed_yes _ (bne_iff_ne.mpr h))) ⟨rfl, rfl⟩
  · intro s h
    exact ⟨gives_next (congrArg Host.Outcome.next (whenServed_yes _ h)) ⟨rfl, rfl⟩, gives_next (congrArg Host.Outcome.next (whenServed_yes _ h)) ⟨rfl, rfl⟩⟩
  · intro c image s kind h hk
    exact ⟨next_refuse h (applyStage_kind hk), next_refuse h (applyStage_kind hk)⟩
  · intro c image s kind h hk
    refine ⟨fun hb => ⟨next_refuse h (applyStage_busy hk hb), next_refuse h (applyStage_busy hk hb)⟩, fun hs ha => ?_⟩
    exact ⟨next_accepted h (applyStage_reads hk hs ha), next_accepted h (applyStage_reads hk hs ha)⟩
  · intro c s h hk
    have hrun : (.next (imageActivate c s) : Out) = .next (refused c 0x71 stBAD_PARAM 8 s) := by
      rw [imageActivate_other hk]
      exact next_refuse h rfl
    exact ⟨hrun, hrun⟩
  · intro c s h hk
    have hsup := imageActivate_sup (s := s) hk
    refine ⟨fun p st check hw hp hc => ?_, fun hw => ?_, fun hw hp => ?_, fun p hw hp hc hidle => ?_⟩
    · refine congrArg Host.Outcome.next (hsup.trans (activateSup_refused h hw (Host.Outcome.next.inj (next_fail h (applyActivateSup_fails hp hc))) ?_))
      exact (State.complete_img ..).trans (imageRefused_img ..)
    · exact congrArg Host.Outcome.next (hsup.trans (activateSup_waits h hw))
    · exact congrArg Host.Outcome.next (hsup.trans (activateSup_refused h hw (Host.Outcome.next.inj (next_refuse h (applyActivateSup_none hp)))
        (State.complete_img ..)))
    · exact congrArg Host.Outcome.next (hsup.trans (activateSup_swaps h hw hp hc hidle))
  · intro c s h hk
    have hpack := imageActivate_pack (s := s) hk
    refine ⟨fun hp => ?_, fun p st check hp hc => ?_, fun p hp hc => ⟨fun ht => ?_, fun ht => ?_⟩⟩
    · exact (congrArg Host.Outcome.next hpack).trans (next_refuse h (applyActivatePack_none hp))
    · exact (congrArg Host.Outcome.next hpack).trans (next_fail h (applyActivatePack_fails hp hc))
    · exact (congrArg Host.Outcome.next hpack).trans (next_refuse h (applyActivatePack_busy hp hc ht))
    · refine gives_next ((congrArg Host.Outcome.next hpack).trans (next_accepted h (applyActivatePack_begins hp hc ht))) ?_
      obtain ⟨hsup, hrest⟩ := rolloutAccepted s c p
      generalize (s.rolloutBegun c p).complete c.qid.val c.tag.toNat 0x71 stACCEPTED 0 0 0 = t at hsup hrest
      obtain ⟨htarget, hstaged, hnext, hactive, hchans, hengines, hmor⟩ := hrest
      exact ⟨htarget, hstaged, hnext, hactive, congrArg (· + 1) hsup, hchans, hengines, hmor⟩
  · intro s
    refine ⟨fun h => congrArg Host.Outcome.next (rolloutDomainTurn_suspended h), fun ha hs => ⟨fun h => ?_, ?_⟩⟩
    · exact congrArg Host.Outcome.next (rolloutDomainTurn_over ha hs h)
    · intro d hd up
      have hat := rolloutDomainTurn_at ha hs hd
      have hno : up = 0 ∨ s.rd supLoadLimit + up ≤ s.serving.length → ¬(up ≠ 0 ∧ s.serving.length < s.rd supLoadLimit + up) := fun h hc => by omega
      refine ⟨fun hup hlt => ?_, fun h hr => ?_, fun h hr hn => ?_, fun h hr hn => ?_⟩
      · exact congrArg Host.Outcome.next (hat.trans (if_pos ⟨hup, hlt⟩))
      · exact congrArg Host.Outcome.next (hat.trans ((if_neg (hno h)).trans (if_neg (by rw [hr]; decide))))
      · exact congrArg Host.Outcome.next (hat.trans ((if_neg (hno h)).trans ((if_pos hr).trans (if_neg hn))))
      · exact congrArg Host.Outcome.next (hat.trans ((if_neg (hno h)).trans ((if_pos hr).trans (if_pos hn))))

end Sys2Proof.Machine
end

section
/-! ### Measurements, SPDM, SVN commits, service access and erasure -/
namespace Sys2Proof.Machine
open Sys2Proof.Safety

/-! #### The vault -/

section
variable (s : State)

theorem logRec_vault (sev : Nat) (e : EventRec) : (s.logRec sev e).sup.vault = s.sup.vault := rfl

theorem flushEvent_vault (e : EventRec) : (s.flushEvent e).sup.vault = s.sup.vault := by
  unfold State.flushEvent
  split
  · rfl
  · dsimp only
    split
    · rfl
    · exact logRec_vault ..

theorem raiseRec_vault (sev : Nat) (e : EventRec) : (s.raiseRec sev e).sup.vault = s.sup.vault := by
  have hlog : ∀ u : State, u.sup.vault = s.sup.vault → (if u.sup.coalesce.any (fun c => sameEvent c.ev e) then
      State.bump { u with sup := { u.sup with coalesce := u.sup.coalesce.map (fun c => if sameEvent c.ev e then { c with count := c.count + 1 } else c) } } secEventsCoalesced
      else State.logRec { u with sup := { u.sup with coalesce := u.sup.coalesce ++ [{ ev := e, sev := sev, since := s.now }] } } sev e).sup.vault = s.sup.vault :=
    fun u hu => by
      split
      · exact hu
      · exact (logRec_vault ..).trans hu
  unfold State.raiseRec
  split
  · rfl
  · refine hlog _ ?_
    split
    · exact flushEvent_vault ..
    · rfl

theorem raise_vault (code unit inst ch d0 a d1 : Nat) : (s.raise code unit inst ch d0 a d1).sup.vault = s.sup.vault := raiseRec_vault ..

theorem hsWrite_vault (off : Nat) (bs : List Byte) : (s.hsWrite off bs).sup.vault = s.sup.vault :=
  foldl_keeps (fun u : State => u.sup.vault) (fun u l => congrArg Sup.vault (State.backInv_sup u l)) _ s

theorem complete_vault (q tag op st dt r2 r3 : Nat) : (s.complete q tag op st dt r2 r3).sup.vault = s.sup.vault := by
  have huntake : ∀ u : State, (u.untake q tag).sup.vault = u.sup.vault := fun u => by
    unfold State.untake
    dsimp only
    split <;> rfl
  have hpost : ∀ (u : State) (k : Nat), (u.postCq k tag st dt r2 r3).sup.vault = u.sup.vault := fun u k => by
    unfold State.postCq
    split
    · rfl
    · exact (congrArg Sup.vault (State.cqSignal_sup _ k)).trans (hsWrite_vault u _ _)
  unfold State.complete
  split
  · rfl
  · dsimp only
    rw [huntake, hpost]
    split <;> rfl

variable {s}

theorem scrub_vault (c : HostCmd) : (s.scrub c).sup.vault = s.sup.vault := by
  unfold State.scrub
  split
  · rfl
  · refine foldl_keeps (fun u : State => u.sup.vault) (fun u i => ?_) _ s
    exact hsWrite_vault ..

theorem scrub_now (c : HostCmd) : (s.scrub c).now = s.now := by
  unfold State.scrub
  split
  · rfl
  · refine foldl_keeps State.now (fun u i => ?_) _ s
    exact State.hsWrite_now ..

end

/-! #### Measurements and SPDM -/

section
variable {s : State}

theorem spdmAnswer_frame (s : State) (l : List Byte) : s.spdmAnswer l = { s with host := { s.host with spdmReply := (s.spdmAnswer l).host.spdmReply } } := rfl

theorem getMeasurements_frame (index : Nat) (s : State) :
    getMeasurements index s = { s with host := { s.host with spdmReply := (getMeasurements index s).host.spdmReply } } := by
  unfold getMeasurements
  split
  · rfl
  · split
    · rfl
    · split <;> rfl

theorem getMeasurements_block {index : Nat} (h1 : 1 ≤ index) (h4 : index ≤ 4) : getMeasurements index s = s.spdmAnswer (s.measureBlock index) := by
  rw [getMeasurements, if_neg (by omega), if_neg (by omega), if_pos h4]

theorem spdmMessage_refused {m : SpdmRequest} (h : (needsIdentity m = true ∧ s.sup.vault.identity = false) ∨ (needsSession m = true ∧ s.host.spdmSession = false)) :
    spdmMessage m s = s.spdmAnswer [] := by
  refine if_pos ?_
  rcases h with ⟨hn, hi⟩ | ⟨hn, hs⟩
  · simp [hn, hi]
  · simp [hn, hs]

/-- An IDE_KM request inside a session changes its streams' keys, and is answered. -/
theorem spdmMessage_session {m : SpdmRequest} (hs : s.host.spdmSession = true) (hid : needsIdentity m = false) (hn : needsSession m = true) :
    spdmMessage m s = (s.spdmEffect m).draw.spdmAnswer (Config.spdmAnswer m s.freeCtr) := by
  unfold spdmMessage
  rw [if_neg (by simp [hs, hid])]
  cases m with
  | ideKeyProg _ _ => rfl
  | ideKeySetGo _ => rfl
  | ideKeySetStop _ => rfl
  | _ => exact absurd hn Bool.false_ne_true

end

/-! #### SVN commits -/

/-- The other fields of SEC_SVN_COMMIT's word: none. -/
theorem svnCommit_fields : (fieldsAt 0xE0028).map (fun h => h.d) = [secSvnCommitSup, secSvnCommitPack] := by decide +kernel

theorem writeRegBut_svnCommit (s : State) (v : Nat) :
    s.writeRegBut (fun d => d = secSvnCommitSup || d = secSvnCommitPack) 0xE0028 64 v = s := by
  unfold State.writeRegBut
  rw [if_neg (by decide)]
  refine foldl_unchanged fun h hh => if_pos ?_
  have hd : h.d ∈ (fieldsAt 0xE0028).map (fun h => h.d) := List.mem_map_of_mem (f := fun h : Hit => h.d) hh
  rw [svnCommit_fields] at hd
  rcases List.mem_pair.mp hd with hd | hd <;> simp [hd]

/-- A commit of the supervisor raises its floor to the SVN that runs, and discards a previous copy below it (R499). -/
theorem secSvnCommit_sup {s : State} {r : Image} (hrun : s.img.running = some r) : secSvnCommit 64 1 s =
    let t := s.wr secSvnFloorSup (max r.svn (s.rd secSvnFloorSup))
    { t with img := { t.img with previous := t.img.previous.filter (fun p => decide (t.rd secSvnFloorSup ≤ p.svn)) } } := by
  have hsup : (goodAccess 0xE0028 64 && decide (writtenTo secSvnCommitSup 0 0 0xE0028 64 1 = some 1)) = true := by decide
  have hpack : (goodAccess 0xE0028 64 && decide (writtenTo secSvnCommitPack 0 0 0xE0028 64 1 = some 1)) = false := by decide
  cases hp : s.img.pack with
  | none => simp only [secSvnCommit, writeRegBut_svnCommit, hrun, hp, hsup, if_true, State.wr_img]
  | some p => simp only [secSvnCommit, writeRegBut_svnCommit, hrun, hp, hsup, hpack, if_true, State.wr_img, Bool.false_eq_true, if_false]

/-! #### Service access -/

section
variable {c : HostCmd} {s : State}

/-- The challenge has been turned in. -/
def State.challengeUsed (s : State) : State := { s with sup := { s.sup with vault := { s.sup.vault with challenge := none } } }

theorem unlockPhase0_draws (h2 : c.w2 = 0) (ha : s.serviceAllowed = true) : unlockPhase0 c s =
    let ch := BitVec.ofNat 128 (Config.freeNat s.freeCtr)
    .done { s with freeCtr := s.freeCtr + 1, sup := { s.sup with vault := { s.sup.vault with challenge := some ch, challengeAt := s.now } } }
      (ch.toNat % 2 ^ 64) (ch.toNat / 2 ^ 64) := by
  simp only [unlockPhase0, h2, ha, bne_self_eq_false, Bool.not_true, Bool.false_eq_true, if_false]
  rfl

theorem unlockPhase0_denied (h2 : c.w2 = 0) (ha : s.serviceAllowed = false) : unlockPhase0 c s = .fail s.unlockDenied stDENIED 0 := by
  simp only [unlockPhase0, h2, ha, bne_self_eq_false, Bool.not_false, Bool.false_eq_true, if_false, if_true]

theorem unlockPhase1_malformed {d : Nat} (h : s.groupsOf c [15] [15] = .error d) : unlockPhase1 c s = .fail (s.scrub c).challengeUsed stBAD_PARAM d := by
  simp only [unlockPhase1, h]
  rfl

/-- Phase 1 with a well-formed group: live channels, the challenge and its age, the lifecycle and the signature, in this order (R503). -/
theorem unlockPhase1_judged {gs : List Grp} (h : s.groupsOf c [15] [15] = .ok gs) : unlockPhase1 c s =
    let u := s.scrub c
    if liveChans u ≠ [] then .fail u.challengeUsed stBAD_STATE 0
    else match u.sup.vault.challenge with
      | none => .fail u.challengeUsed stTIMEOUT 0
      | some ch =>
        if u.sup.vault.challengeAt + sec 60 < u.now then .fail u.challengeUsed stTIMEOUT 0
        else if u.serviceAllowed && Config.serviceSigned ch.toNat (u.rd secSerial) (grp gs 15).ws then .done u.challengeUsed 0 0
        else .fail u.challengeUsed.unlockDenied stDENIED 0 := by
  unfold unlockPhase1
  rw [h]
  dsimp only
  generalize s.scrub c = u
  by_cases hlive : liveChans u = []
  · rw [if_neg (by simp [hlive]), if_neg (by simp [hlive])]
    cases u.sup.vault.challenge with
    | none => rfl
    | some ch =>
      dsimp only
      split
      · rfl
      · cases u.serviceAllowed <;> cases Config.serviceSigned ch.toNat (u.rd secSerial) (grp gs 15).ws <;> rfl
  · rw [if_pos (by simpa using hlive), if_pos hlive]
    rfl

variable (h : commandRuns c 0xF0 [(1, 1)] true s = true)
include h

omit h in
theorem serviceUnlock_phase0 (hp : bits c.w1.toNat 0 1 = 0) : serviceUnlock c s = runCommand c 0xF0 [(1, 1)] true (unlockPhase0 c) s := if_pos hp

/-- A phase 1 that fails comes to its refusal and nothing more. -/
theorem serviceUnlock_fails {t : State} {st d : Nat} (hp : bits c.w1.toNat 0 1 = 1) (hf : unlockPhase1 c s = .fail t st d) :
    serviceUnlock c s = refused c 0xF0 st d t := by
  obtain ⟨-, -, -, htaking⟩ := commandRuns_found h
  simp only [serviceUnlock, hp, htaking, hf, Bool.false_and, Bool.false_eq_true, Nat.one_ne_zero, if_false]
  exact Host.Outcome.next.inj (next_fail h hf)

/-- A phase 1 that passes turns its challenge in with OK, and service access opens or the erasure begins. -/
theorem serviceUnlock_passes {ch : BitVec 128} (hp : bits c.w1.toNat 0 1 = 1) (hf : unlockPhase1 c s = .done (s.scrub c).challengeUsed 0 0)
    (hch : (s.scrub c).sup.vault.challenge = some ch) : serviceUnlock c s = (ok c 0xF0 0 0 (s.scrub c).challengeUsed).unlocked := by
  obtain ⟨-, -, -, htaking⟩ := commandRuns_found h
  have hrun : runCommand c 0xF0 [(1, 1)] true (unlockPhase1 c) s = ok c 0xF0 0 0 (s.scrub c).challengeUsed := Host.Outcome.next.inj (next_done h hf)
  have hhad : s.sup.vault.challenge = some ch := (congrArg Vault.challenge (scrub_vault c)).symm.trans hch
  have hgone : (ok c 0xF0 0 0 (s.scrub c).challengeUsed).sup.vault.challenge = none := congrArg Vault.challenge (complete_vault ..)
  simp only [serviceUnlock, hp, htaking, hf, hrun, hhad, hgone, Option.isSome_some, Option.isNone_none, Bool.and_self, Nat.one_ne_zero, if_false, if_true]

end

/-! #### The end of the grace -/

theorem erasureGraceEnd_early {s : State} (h : ∀ a, s.img.eraseAt = some a → s.now < a) : erasureGraceEnd s = s := by
  refine if_pos ?_
  cases ha : s.img.eraseAt with
  | none => rfl
  | some a => simp [Nat.not_le.mpr (h a ha)]

/-- The stores and units that an erasure leaves empty. -/
def State.erasedStores (s : State) : State :=
  { s with
    sup := { s.sup with vault := erasedVault s.sup.vault }
    ing := {}, chans := [], slots := [], mor := s.idleMor, engines := [], saved := [], weldU := {}, glaze := {}
    mem := { s.mem with hostShared := [], frameMap := [], caches := [] }
    cap := {}
    ring := { s.ring with mirror := [], home := [] }
    img := { s.img with eraseAt := none, stagedSup := none, stagedPack := none, previous := none, target := none }
    pwr := { s.pwr with testPort := true } }

/-- Seeds and ports are erased with them. -/
def State.erasedPorts (s : State) : State := (List.range 4).foldl (fun (s : State) b => (s.wr flwSeed 0 b).modPort b emptyPort) s

theorem erasureGraceEnd_due {s : State} {a : Nat} (ha : s.img.eraseAt = some a) (h : a ≤ s.now) : erasureGraceEnd s =
    ((s.erasedStores.erasedPorts.wr secErasing 0).wr secService 1).raise 0x0062 uSUP := by
  unfold erasureGraceEnd
  rw [if_neg (by simp [ha, h])]
  rfl

/-- The erasure of seeds and ports touches nothing else. -/
theorem erasedPorts_frame (s : State) : s.erasedPorts = { s with regs := s.erasedPorts.regs, ports := s.erasedPorts.ports } := by
  unfold State.erasedPorts
  generalize List.range 4 = l
  induction l generalizing s with
  | nil => rfl
  | cons b r ih =>
    rw [List.foldl_cons, ih]
    rfl

theorem serviceOpened_flags (u : State) : (((u.wr secErasing 0).wr secService 1).raise 0x0062 uSUP).flag secService = true ∧
    (((u.wr secErasing 0).wr secService 1).raise 0x0062 uSUP).flag secErasing = false := by
  constructor
  · rw [State.raise_flag_ne _ _ _ _ _ _ _ _ (by decide)]
    exact State.flag_wr_self ..
  · rw [State.raise_flag_ne _ _ _ _ _ _ _ _ (by decide)]
    exact (State.flag_wr_ne _ _ (by decide)).trans (State.flag_wr_self ..)

/-- Settles O32: requests by what they answer, a commit by its floor, a challenge and its answer by the checks in order, the grace by its end. -/
theorem securityRows : Obligations.SecurityRows := by
  refine ⟨fun index s => ?_, fun m s h => ?_, fun stream key s hs => ?_, fun stream s hs => ⟨?_, ?_⟩, fun i s => rfl, fun s => ?_, fun r s hrun hsvn hfloor => ?_,
    ?_, ?_, ?_, fun s => rfl, ?_, fun s h => congrArg Host.Outcome.next (erasureGraceEnd_early h)⟩
  · refine gives_next rfl ⟨getMeasurements_frame index s, fun h1 h4 => ?_⟩
    rw [getMeasurements_block h1 h4]
    rfl
  · exact congrArg Host.Outcome.next (spdmMessage_refused h)
  · exact gives_next (congrArg Host.Outcome.next (spdmMessage_session hs rfl rfl)) ⟨tget_tins_self .., rfl, rfl, rfl⟩
  · refine gives_next (congrArg Host.Outcome.next (spdmMessage_session hs rfl rfl)) ⟨?_, rfl, rfl, rfl, rfl⟩
    show stream ∈ if s.sup.vault.ideGo.contains stream then s.sup.vault.ideGo else s.sup.vault.ideGo ++ [stream]
    split
    · next hin => exact List.contains_iff_mem.mp hin
    · exact List.mem_append_right _ List.mem_cons_self
  · refine gives_next (congrArg Host.Outcome.next (spdmMessage_session hs rfl rfl)) ⟨?_, rfl, rfl, rfl, rfl⟩
    exact fun hmem => absurd (List.mem_filter.mp hmem).2 (by simp)
  · exact gives_next rfl ⟨rfl, rfl⟩
  · have hmax : max r.svn (s.rd secSvnFloorSup) < 2 ^ 16 := Nat.max_lt.mpr ⟨hsvn, hfloor⟩
    have hrd : (s.wr secSvnFloorSup (max r.svn (s.rd secSvnFloorSup))).rd secSvnFloorSup = max r.svn (s.rd secSvnFloorSup) :=
      (State.rd_wr_self ..).trans (Nat.mod_eq_of_lt hmax)
    exact gives_next (congrArg Host.Outcome.next (secSvnCommit_sup hrun)) ⟨hrd, State.rd_wr_ne _ _ (by decide), hrun, rfl, rfl⟩
  · intro c s h hp h2 ha ch
    exact (congrArg Host.Outcome.next (serviceUnlock_phase0 hp)).trans (next_done h (unlockPhase0_draws h2 ha))
  · intro c s h hp h2 ha
    exact (congrArg Host.Outcome.next (serviceUnlock_phase0 hp)).trans (next_fail h (unlockPhase0_denied h2 ha))
  · intro c s h hp u used
    refine ⟨fun d hd => congrArg Host.Outcome.next (serviceUnlock_fails h hp (unlockPhase1_malformed hd)), fun gs hgs => ⟨fun hlive => ?_, fun hlive hnone => ?_,
      fun ch hlive hch => ?_⟩⟩
    · exact congrArg Host.Outcome.next (serviceUnlock_fails h hp ((unlockPhase1_judged hgs).trans (if_pos hlive)))
    · refine congrArg Host.Outcome.next (serviceUnlock_fails h hp ((unlockPhase1_judged hgs).trans ((if_neg (not_not_intro hlive)).trans ?_)))
      rw [hnone]
      rfl
    · have hjudged := (unlockPhase1_judged hgs).trans (if_neg (not_not_intro hlive))
      rw [hch, scrub_now] at hjudged
      dsimp only at hjudged
      split at hjudged
      · next hlate => exact congrArg Host.Outcome.next ((serviceUnlock_fails h hp hjudged).trans (if_pos hlate).symm)
      · next hlate =>
        split at hjudged
        · next hok => exact congrArg Host.Outcome.next ((serviceUnlock_passes h hp hjudged hch).trans ((if_neg hlate).trans (if_pos hok)).symm)
        · next hok => exact congrArg Host.Outcome.next ((serviceUnlock_fails h hp hjudged).trans ((if_neg hlate).trans (if_neg hok)).symm)
  · intro s a ha hdue
    have hframe := erasedPorts_frame s.erasedStores
    have hvault : s.erasedStores.erasedPorts.sup.vault = erasedVault s.sup.vault := (congrArg (fun u : State => u.sup.vault) hframe :)
    have hmem : s.erasedStores.erasedPorts.mem = { s.mem with hostShared := [], frameMap := [], caches := [] } := (congrArg State.mem hframe :)
    have hchans : s.erasedStores.erasedPorts.chans = [] := (congrArg State.chans hframe :)
    have hslots : s.erasedStores.erasedPorts.slots = [] := (congrArg State.slots hframe :)
    have hengines : s.erasedStores.erasedPorts.engines = [] := (congrArg State.engines hframe :)
    have hring : s.erasedStores.erasedPorts.ring.mirror = [] := (congrArg (fun u : State => u.ring.mirror) hframe :)
    have himg : s.erasedStores.erasedPorts.img.eraseAt = none := (congrArg (fun u : State => u.img.eraseAt) hframe :)
    refine gives_next (congrArg Host.Outcome.next (erasureGraceEnd_due ha hdue)) ?_
    generalize s.erasedStores.erasedPorts = u at *
    obtain ⟨hopen, hover⟩ := serviceOpened_flags u
    rw [State.raise_chans, State.raise_slots, State.raise_engines, State.raise_mem, State.raise_ring, State.raise_img, raise_vault]
    exact ⟨hchans, hslots, hengines, congrArg MemSt.hostShared hmem, congrArg MemSt.frameMap hmem, congrArg MemSt.caches hmem,
      congrArg Vault.zeroised hvault, congrArg Vault.identity hvault, congrArg Vault.ideKeys hvault, hring, hover, hopen, himg⟩

end Sys2Proof.Machine
end

section
/-! ### A stop of a capture that is stopping already -/
namespace Sys2Proof.Machine
open Sys2Proof.Safety

/-- CAPTURE_START with KIND 2 (stop) for channel 5. -/
def stopOf5 : HostCmd := { qid := 0, tag := 7, w1 := 0x50002 }

/-- Bister serves and has taken `stopOf5`; the capture of channel 5 was stopped before and still stands, for its CAPTURE_EXPORT is under
way. -/
def stoppingUnderExport : State :=
  let s := State.reset.wr mbxBootState 5
  { s with sup := { s.sup with taken := [{ qid := 0, tag := 7, opcode := 0x40 }] }
           cap := { s.cap with caps := [(5, { capacity := 4096, stopping := true, exporting := true })] } }

/-- The stop in `stoppingUnderExport` completes as a refusal, not with OK. -/
theorem captureStart_stoppingUnderExport :
    (captureStart stopOf5 stoppingUnderExport).mem.hostShared
      ≠ (ok stopOf5 0x40 0 0 (stoppingUnderExport.stopCapture 5)).mem.hostShared := by decide +kernel

/-- Refutes O58: the clause on a stop answers OK wherever the source has a capture. A capture that was stopped while its CAPTURE_EXPORT is
under way still stands until that ends (R436), and a second stop finds nothing that runs: it is refused with BAD_STATE (log 50). -/
theorem not_captureRows : ¬ Obligations.CaptureRows := by
  rintro ⟨-, -, hstop, -⟩
  obtain ⟨hreplay, -⟩ := hstop stopOf5 stoppingUnderExport (by decide +kernel) (by decide +kernel)
  have hrun : exec (.replayStop stopOf5) stoppingUnderExport = .next (captureStart stopOf5 stoppingUnderExport) := rfl
  have hclaim := Host.Outcome.next.inj (hrun.symm.trans (hreplay (by decide)))
  rw [if_pos (by decide +kernel)] at hclaim
  exact captureStart_stoppingUnderExport (congrArg (·.mem.hostShared) hclaim)

end Sys2Proof.Machine
end

section
/-! ### Engines: the start of a skein -/
namespace Sys2Proof.Machine
open Sys2Proof.Safety

/-! #### What the start of a lane leaves -/

/-- What both branches keep, a choice of them keeps. -/
theorem ite_keeps {α β : Type} {g : α → β} {v : β} {p : Prop} [Decidable p] {a b : α} (ha : g a = v) (hb : g b = v) : g (if p then a else b) = v := by
  split <;> assumption

section
variable {β : Type} {g : State → β} (hchan : ∀ u ch f, g (State.modChan u ch f) = g u)
  (hreset : ∀ u n q, g (State.bumpBy u wodResets n q) = g u)
include hchan

theorem followRequest_keeps (s : State) (b : Nat) : g (s.followRequest b) = g s := by
  unfold State.followRequest
  dsimp only
  cases (s.chan b).ctx.cmrWait with
  | none => rfl
  | some r => exact ite_keeps rfl (ite_keeps (hchan _ _ _) ((hchan _ _ _).trans (hchan _ _ _)))

theorem requestStart_keeps (s : State) (ch : Nat) : g (s.requestStart ch) = g s := by
  unfold State.requestStart
  dsimp only
  split
  · rfl
  · exact (hchan _ _ _).trans (followRequest_keeps hchan s _)

include hreset

theorem placeWindows_keeps (s : State) (ch : Nat) (judge : Nat → Nat → Move) (w0 : Nat) (w1 : Option Nat) :
    g (s.placeWindows ch judge w0 w1) = g s := by
  unfold State.placeWindows
  dsimp only
  split
  · exact hchan _ _ _
  · exact (hreset _ _ _).trans (hchan _ _ _)

theorem applySet_keeps (s : State) (ch : Nat) (x : EchoSet × Bool) : g (s.applySet ch x) = g s := by
  unfold State.applySet
  dsimp only
  split
  · exact (hchan _ _ _).trans (hchan _ _ _)
  · split
    · exact (placeWindows_keeps hchan hreset _ _ _ _ _).trans (hchan _ _ _)
    · split
      · exact hchan _ _ _
      · exact (placeWindows_keeps hchan hreset _ _ _ _ _).trans (hchan _ _ _)

theorem settleEcho_keeps (s : State) (ch : Nat) : g (s.settleEcho ch) = g s := by
  unfold State.settleEcho
  dsimp only
  split
  · rfl
  · exact (hchan _ _ _).trans ((foldl_keeps g (fun u x => applySet_keeps hchan hreset u ch x) _ _).trans (hchan _ _ _))

theorem placeConfirmed_keeps (s : State) (ch : Nat) : g (s.placeConfirmed ch) = g s := by
  unfold State.placeConfirmed
  dsimp only
  split
  · exact hchan _ _ _
  · split
    · exact hchan _ _ _
    · exact (hchan _ _ _).trans ((placeWindows_keeps hchan hreset _ _ _ _ _).trans (hchan _ _ _))

/-- A lane that starts changes its channel and the channel's peer, and counts its wait and what a placement reset: what these leave,
it leaves. -/
theorem laneStart_keeps {e : Nat} (hwait : ∀ u n, g (State.bump u morHist e (waitBin n)) = g u) (s : State) (t : Task) :
    g (s.laneStart e t) = g s := by
  unfold State.laneStart
  dsimp only
  refine (placeConfirmed_keeps hchan hreset _ _).trans ((hchan _ _ _).trans ((hwait _ _).trans ((settleEcho_keeps hchan hreset _ _).trans ?_)))
  split
  · rfl
  · exact requestStart_keeps hchan s _

end

theorem waitBin_le (n : Nat) : waitBin n ≤ 15 := by
  unfold waitBin
  split
  · exact Nat.zero_le _
  · exact Nat.min_le_left _ _

/-- MOR_DISPATCHED is none of the counters that a start moves before it. -/
theorem morDispatched_key_apart (e : Nat) :
    (∀ q, morDispatched.key e 0 ≠ wodResets.key q 0) ∧ (∀ b ≤ 15, morDispatched.key e 0 ≠ morHist.key e b) ∧
    morDispatched.key e 0 ≠ morLanes.key e 0 := by
  simp only [RegDesc.key, morDispatched, wodResets, morHist, morLanes]
  exact ⟨fun q => by omega, fun b hb => by omega, by omega⟩

/-- MOR_DISPATCHED is none of the fields that the decision trace writes. -/
theorem morDispatched_trace_apart (e : Nat) :
    morDispatched.key e 0 ≠ morTraceWptr.key 0 0 ∧ morDispatched.key e 0 ≠ morTraceWraps.key 0 0 ∧ morDispatched.key e 0 ≠ mbxBisnp.key 0 0 := by
  simp only [RegDesc.key, morDispatched, morTraceWptr, morTraceWraps, mbxBisnp]
  exact ⟨by omega, by omega, by omega⟩

/-- A trace writes its pointer and its wraps, counts back-invalidates, and changes no other field. -/
theorem trace_rd_ne (s : State) (x : Decision) {d : RegDesc} {i j : Nat} (hp : d.key i j ≠ morTraceWptr.key 0 0)
    (hw : d.key i j ≠ morTraceWraps.key 0 0) (hb : d.key i j ≠ mbxBisnp.key 0 0) : (s.trace x).rd d i j = s.rd d i j := by
  unfold State.trace
  dsimp only
  split
  · rfl
  · split
    · rfl
    · split
      · exact (State.rd_bump_ne _ hw).trans ((State.rd_wr_ne _ _ hp).trans (State.hsWrite_rd_ne _ _ _ hb))
      · exact (State.rd_wr_ne _ _ hp).trans (State.hsWrite_rd_ne _ _ _ hb)

/-- With RATE 0 nothing is traced (R330). -/
theorem trace_rate_zero (s : State) (x : Decision) (h : s.rd morTraceRate = 0) : s.trace x = s := by
  unfold State.trace
  rw [h]
  rfl

/-! #### A skein starts -/

/-- A skein as it runs: the lanes filled are counted, no cancel is recorded. -/
def Skein.started (k : Skein) : Skein := { k with fill := laneCount k.mask, cancels := 0 }

section
variable (s : State) (e : Nat) (k : Skein)

/-- The state with the skein on its engine, before its lanes start. -/
def State.skeinOn : State :=
  (s.modMe e (fun m => { m with running := some k.started })).modEng e (engineStart (s.kernelDesc e k.key.kernel) k.started)

/-- The lanes of a skein start. -/
def State.lanesStart (s : State) : State := (runningTasks k).foldl (fun s t => s.laneStart e t) s

theorem startSkein_eq : s.startSkein e k =
    (((((s.skeinOn e k).lanesStart e k.started).bump morDispatched e).bumpBy morLanes (laneCount k.mask) e).traceSkein 3 e 0xFF 0 k.started).idle e := rfl

variable {s e k}

theorem lanesStart_keeps {β : Type} {g : State → β} (hchan : ∀ u ch f, g (State.modChan u ch f) = g u)
    (hreset : ∀ u n q, g (State.bumpBy u wodResets n q) = g u) (hwait : ∀ u n, g (State.bump u morHist e (waitBin n)) = g u) :
    g (s.lanesStart e k) = g s :=
  foldl_keeps g (fun u t => laneStart_keeps hchan hreset hwait u t) _ s

theorem lanesStart_me (x : Nat) : (s.lanesStart e k).me x = s.me x :=
  lanesStart_keeps (g := fun u => u.me x) (fun _ _ _ => rfl) (fun u n q => u.bumpBy_me _ n q 0 x) (fun u _ => u.bump_me _ e _ x)

theorem lanesStart_engines : (s.lanesStart e k).engines = s.engines :=
  lanesStart_keeps (fun u ch f => u.modChan_engines ch f) (fun u n q => u.bumpBy_engines _ n q 0) (fun u _ => u.bump_engines _ e _)

theorem lanesStart_ports : (s.lanesStart e k).ports = s.ports :=
  lanesStart_keeps (fun u ch f => u.modChan_ports ch f) (fun u n q => u.bumpBy_ports _ n q 0) (fun u _ => u.bump_ports _ e _)

theorem lanesStart_rd_dispatched : (s.lanesStart e k).rd morDispatched e = s.rd morDispatched e := by
  obtain ⟨hreset, hwait, -⟩ := morDispatched_key_apart e
  exact lanesStart_keeps (g := fun u => u.rd morDispatched e) (fun u ch f => u.modChan_rd ch f _ _ _)
    (fun u n q => rd_bumpBy_ne u n (hreset q)) (fun u n => State.rd_bump_ne u (hwait _ (waitBin_le n)))

theorem startSkein_me_self : (s.startSkein e k).me e = { s.me e with running := some k.started, idleSince := none } := by
  rw [startSkein_eq, idle_me_self, traceSkein_me, State.bumpBy_me, State.bump_me, lanesStart_me, State.skeinOn, State.modEng_me, State.modMe_me_self]
  rfl

theorem startSkein_me_ne {x : Nat} (h : x ≠ e) : (s.startSkein e k).me x = s.me x := by
  rw [startSkein_eq, idle_me_ne _ _ h, traceSkein_me, State.bumpBy_me, State.bump_me, lanesStart_me, State.skeinOn, State.modEng_me, State.modMe_me_ne _ _ h]

theorem startSkein_engines : (s.startSkein e k).engines = (s.skeinOn e k).engines := by
  rw [startSkein_eq, idle_engines, traceSkein_engines, State.bumpBy_engines, State.bump_engines, lanesStart_engines]

theorem startSkein_eng_self : (s.startSkein e k).eng e = engineStart (s.kernelDesc e k.key.kernel) k.started (s.eng e) := by
  rw [State.eng, startSkein_engines]
  exact State.modEng_eng_self ..

theorem startSkein_eng_ne {x : Nat} (h : x ≠ e) : (s.startSkein e k).eng x = s.eng x := by
  rw [State.eng, startSkein_engines]
  exact State.modEng_eng_ne _ _ h

theorem startSkein_ports : (s.startSkein e k).ports = s.ports := by
  rw [startSkein_eq, idle_ports, traceSkein_ports, State.bumpBy_ports, State.bump_ports, lanesStart_ports]
  rfl

theorem startSkein_rd_dispatched : (s.startSkein e k).rd morDispatched e = (s.rd morDispatched e + 1) % 2 ^ 64 := by
  obtain ⟨-, -, hlanes⟩ := morDispatched_key_apart e
  obtain ⟨hp, hw, hb⟩ := morDispatched_trace_apart e
  have hidle : ∀ u : State, (u.idle e).rd morDispatched e = u.rd morDispatched e := fun _ => rfl
  rw [startSkein_eq, hidle, State.traceSkein, trace_rd_ne _ _ hp hw hb, rd_bumpBy_ne _ _ hlanes, State.rd_bump_self, lanesStart_rd_dispatched]
  rfl

end

/-! #### A skein of the dispatch queue all of whose lanes are free -/

theorem setLane_clear_of_unset {m : Word16} {i : Nat} (h : m.getLsbD i = false) : setLane m i false = m := by
  refine BitVec.eq_of_getLsbD_eq fun j hj => ?_
  have hbit : ((1 : Word16) <<< i).getLsbD j = decide (j = i) := by
    have hone : (1 : Word16).getLsbD (j - i) = decide (j - i = 0) := by
      rw [show (1 : Word16) = 1#16 from rfl, BitVec.getLsbD_one]
      simp
    rw [BitVec.getLsbD_shiftLeft, hone, Bool.eq_iff_iff]
    simp
    omega
  simp only [setLane, Bool.false_eq_true, if_false, BitVec.getLsbD_and, BitVec.getLsbD_not, hj, hbit]
  by_cases hji : j = i
  · rw [hji, h, Bool.false_and]
  · simp [hji]

theorem mem_runningTasks {k : Skein} {t : Task × Nat} (ht : t ∈ k.tasks.zipIdx) (hbit : k.mask.getLsbD t.2 = true) : t.1 ∈ runningTasks k :=
  List.mem_map.mpr ⟨t, List.mem_filter.mpr ⟨ht, hbit⟩, rfl⟩

/-- Where no lane's channel has a running job, no lane is held back. -/
theorem holdBusy_free {s : State} {e : Nat} {k : Skein} (h : ∀ x ∈ runningTasks k, (s.chan x.ch).jobsRunning = 0) :
    s.holdBusy e k = (s.modMe e (fun m => { m with waiting := m.waiting ++ [] }), k) := by
  have hheld : (runningTasks k).filter (fun t => (s.chan t.ch).jobsRunning != 0) = [] :=
    List.filter_eq_nil_iff.mpr fun t ht => by simp [h t ht]
  have hmask : ∀ l : List (Task × Nat), (∀ t ∈ l, t ∈ k.tasks.zipIdx) →
      l.foldl (fun m t => if (s.chan t.1.ch).jobsRunning != 0 then setLane m t.2 false else m) k.mask = k.mask := by
    intro l
    induction l with
    | nil => exact fun _ => rfl
    | cons t r ih =>
      intro hl
      obtain ⟨ht, hr⟩ := List.forall_mem_cons.mp hl
      have hstep : (if (s.chan t.1.ch).jobsRunning != 0 then setLane k.mask t.2 false else k.mask) = k.mask := by
        split
        · next hbusy =>
          refine setLane_clear_of_unset (Bool.eq_false_iff.mpr fun hbit => ?_)
          simp [h t.1 (mem_runningTasks ht hbit)] at hbusy
        · rfl
      rw [List.foldl_cons, hstep, ih hr]
  unfold State.holdBusy
  dsimp only
  rw [hheld, hmask _ fun _ h => h]

/-- A free engine starts the skein at the head of its dispatch queue where no lane of it is held back. -/
theorem skeinDispatch_head {s : State} {e : Nat} {k : Skein} {r : List Skein} (hserv : (s.me e).service < 2) (hirq : (s.eng e).irqFault = false)
    (hpmem : (s.eng e).pmemBad = false) (hrun : (s.me e).running = none) (hdq : (s.me e).dq = k :: r)
    (hfree : ∀ x ∈ runningTasks k, (s.chan x.ch).jobsRunning = 0) (hmask : k.mask ≠ 0) :
    skeinDispatch e s = ((s.modMe e (fun m => { m with dq := r })).modMe e (fun m => { m with waiting := m.waiting ++ [] })).startSkein e k := by
  have hbusy := holdBusy_free (s := s.modMe e (fun m => { m with dq := r })) (e := e) hfree
  have hnext : s.nextSkein e = some (s.modMe e (fun m => { m with dq := r }), k) := by
    unfold State.nextSkein
    dsimp only
    rw [hdq]
  unfold skeinDispatch
  dsimp only
  rw [hirq, hpmem, if_neg (by simp; omega), hrun, hdq]
  show State.dispatchNext ((s.me e).due.length + r.length + 1) e s = _
  unfold State.dispatchNext
  rw [hnext]
  dsimp only
  rw [hbusy]
  exact if_neg hmask

end Sys2Proof.Machine
end

section
/-! ### Engines: bundles, streams, loops and interrupts -/
namespace Sys2Proof.Machine
open Sys2Proof.Safety

/-! #### What issues -/

section
variable {s : State} {e : Nat}

theorem issues_false (h : 4 ≤ (s.me e).service ∨ (s.eng e).deliver.irqFault = true ∨ ((s.me e).running = none ∧ (s.eng e).deliver.gie = true)) :
    s.issues e = false := by
  unfold State.issues
  obtain h | h | ⟨hr, hg⟩ := h
  · simp [h]
  · simp [h]
  · simp [hr, hg]

theorem issues_running {k : Skein} (hs : (s.me e).service < 4) (hf : (s.eng e).deliver.irqFault = false) (hr : (s.me e).running = some k) :
    s.issues e = true := by
  unfold State.issues
  simp [hf, hr, hs]

/-- An engine with nothing to issue stays as it is. -/
theorem bundleIssue_idle (h : s.issues e = false) (l : List JobReport) : bundleIssue e l s = s := by
  unfold State.issues at h
  rw [Bool.not_eq_false'] at h
  unfold bundleIssue
  exact if_pos h

theorem bundleChecked_idle (h : s.issues e = false) (l : List JobReport) (x : EngineEcc) : bundleChecked e l x s = s := by
  unfold bundleChecked
  rw [h]
  rfl

theorem bundleChecked_clean (l : List JobReport) : bundleChecked e l .clean s = bundleIssue e l s := by
  cases h : s.issues e with
  | false => rw [bundleChecked_idle h, bundleIssue_idle h]
  | true =>
    unfold bundleChecked
    rw [h]
    rfl

end

/-! #### Counts, cycles and pending writes stand beside the registers -/

/-- An engine with other counts, another CYC and other pending writes. -/
def Engine.beside (x : Engine) (c : EngCount) (n : Nat) (ws : List PendWrite) : Engine := { x with count := c, cyc := n, writes := ws }

section
variable (x : Engine) (c : EngCount) (n v : Nat) (ws : List PendWrite)

theorem setCtl_beside : ∀ i, (x.beside c n ws).setCtl i v = (x.setCtl i v).beside c n ws
  | 0 => (apply_ite (fun y : Engine => y.beside c n ws) (x.gie = true) x { x with live := BitVec.ofNat 16 v }).symm
  | 1 | 2 | 3 | 4 | 5 | 6 | 7 | 8 | 9 | 10 | 11 => rfl
  | i + 12 => (apply_ite (fun y : Engine => y.beside c n ws) ((decide (16 ≤ i + 12) && decide (i + 12 ≤ 22)) = true)
      { x with ik := tset x.ik (i + 12 - 15) (BitVec.ofNat 16 v) 0 } x).symm

theorem put_beside (d : Dest) : (x.beside c n ws).put d v = (x.put d v).beside c n ws := by
  cases d with
  | v lane r => rfl
  | a lane r => rfl
  | p lane r => rfl
  | m lane r => rfl
  | k lane r =>
    exact (apply_ite (fun y : Engine => y.beside c n ws) (r = 0) x { x with k := tset x.k r (setLane (tget x.k r 0) lane (v != 0)) 0 }).symm
  | s r => rfl
  | ml r => rfl
  | ctl i => exact setCtl_beside x c n v ws i

theorem puts_beside (l : List PendWrite) :
    l.foldl (fun y w => y.put w.dest w.value) (x.beside c n ws) = (l.foldl (fun y w => y.put w.dest w.value) x).beside c n ws := by
  induction l generalizing x with
  | nil => rfl
  | cons w r ih => rw [List.foldl_cons, List.foldl_cons, put_beside, ih]

theorem deliver_counted : (x.beside c n x.writes).deliver = x.deliver.beside c n (x.writes.filter (fun w => decide (x.issued < w.due))) :=
  puts_beside { x with writes := x.writes.filter (fun w => decide (x.issued < w.due)) } c n _ _

/-- Completing what is pending takes no cycle of its own and leaves nothing pending. -/
theorem settle_eq_beside : x.settle = x.settle.beside x.count x.cyc [] := puts_beside { x with writes := [] } x.count x.cyc [] _

theorem settle_cyc : x.settle.cyc = x.cyc := (congrArg Engine.cyc (settle_eq_beside x) :)

theorem settle_writes : x.settle.writes = [] := (congrArg Engine.writes (settle_eq_beside x) :)

end

/-- A count does not change whether an engine issues. -/
theorem issues_counted (s : State) (e : Nat) (f : Engine → EngCount) : (s.modEng e (fun x => { x with count := f x })).issues e = s.issues e := by
  have heng : (s.modEng e (fun x => { x with count := f x })).eng e =
      (s.eng e).beside (f (s.eng e)) (s.eng e).cyc (s.eng e).writes := State.modEng_eng_self ..
  unfold State.issues
  rw [heng, deliver_counted]
  rfl

/-- An error that SECDED corrects is counted, and the bundle issues (R493). -/
theorem bundleChecked_corrected {s : State} {e : Nat} (h : s.issues e = true) (l : List JobReport) :
    bundleChecked e l .corrected s = bundleChecked e l .clean (s.modEng e (fun x => { x with count := { x.count with ecc := x.count.ecc + 1 } })) := by
  rw [bundleChecked_clean]
  unfold bundleChecked
  rw [h]
  exact if_neg Bool.false_ne_true

/-! #### Bundles -/

/-- A bundle all of whose slots are empty issues. -/
theorem hold_empty (x : Engine) (lim : Limits2) : x.hold lim 0 0 0 0 = none := by
  have hv : slotOk (vecUses (opF 0)) 0 = true := by decide
  have hs : slotOk (scaUses (opF 0)) 0 = true := by decide
  have hm : slotOk (memUses 0) 0 = true := by decide
  have hmac : macClass (opF 0) = false := by decide
  have hctl : isControl (opF 0) = false := by decide
  have hop : opF 0 = 0 := by decide
  unfold Engine.hold
  dsimp only
  rw [hv, hs, hm, hmac, hctl, hop]
  simp

/-- A memory or control slot that is no operation of the table makes the bundle illegal. -/
theorem hold_illegal {x : Engine} {lim : Limits2} {a b sc m : Nat} (h : slotOk (memUses m) m = false) : x.hold lim a b sc m = some (.fault 1) := by
  unfold Engine.hold
  dsimp only
  rw [h]
  simp

/-- The engine after a bundle of empty slots. -/
def Engine.passed (x : Engine) : Engine :=
  { x with macHold := false, afterYield := false, stalled := false, issued := x.issued + 1, pc := x.pc + 1, cyc := x.cyc + 1
           count := { x.count with bundles := x.count.bundles + 1 } }

theorem loopEnd_none {x : Engine} (h0 : x.lc0 = 0) (h1 : x.lc1 = 0) : x.loopEnd = (x, none, 0) := by
  unfold Engine.loopEnd
  rw [h0, h1]
  simp

/-- Outside delay slots and loops a bundle of empty slots goes on to the next. -/
theorem issue_empty {x : Engine} (hd : x.delay = 0) (h0 : x.lc0 = 0) (h1 : x.lc1 = 0) (free : Nat) : x.issue 0 0 0 0 free = (x.passed, 1, .none) := by
  have hadv : ∀ y : Engine, y.lc0 = 0 → y.lc1 = 0 → x.advance 0 y = ({ y with issued := y.issued + 1, pc := x.pc + 1 }, 0) := by
    intro y hy0 hy1
    have hop : hasDelay (opF 0) = false := by decide
    have hend : ({ y with issued := y.issued + 1, pc := x.pc } : Engine).loopEnd = ({ y with issued := y.issued + 1, pc := x.pc }, none, 0) :=
      loopEnd_none hy0 hy1
    unfold Engine.advance
    dsimp only
    rw [hop, hd, if_neg Bool.false_ne_true, if_neg (by decide), if_neg (by decide), hend]
    rfl
  unfold Engine.issue
  dsimp only [Engine.vecSlot, Engine.memSlot]
  rw [if_pos rfl, if_pos rfl, if_pos rfl, if_pos rfl]
  dsimp only
  rw [hadv { x with macHold := longMac (opF 0) || longMac (opF 0), afterYield := false, stalled := false } h0 h1]
  rfl

section
variable {s : State} {e : Nat} {k : Skein} (hs : (s.me e).service < 4) (hf : (s.eng e).deliver.irqFault = false) (hr : (s.me e).running = some k)
include hs hf hr

/-- What an engine that runs a skein issues is not kept back. -/
theorem issues_guard : (4 ≤ (s.me e).service || (s.eng e).deliver.irqFault || ((s.me e).running.isNone && (s.eng e).deliver.gie)) = false := by
  simp [hf, hr, hs]

/-- A running engine at a bundle of empty slots outside delay slots and loops. -/
theorem bundleIssue_empty (hw : tget (s.eng e).deliver.pmem (s.eng e).deliver.pc.toNat 0 = 0) (hd : (s.eng e).deliver.delay = 0)
    (h0 : (s.eng e).deliver.lc0 = 0) (h1 : (s.eng e).deliver.lc1 = 0) (l : List JobReport) :
    bundleIssue e l s = { (s.busy e 1).modEng e (fun _ => (s.eng e).deliver.passed) with freeCtr := s.freeCtr + 2 ^ 21 } := by
  unfold bundleIssue
  dsimp only
  rw [issues_guard hs hf hr, if_neg Bool.false_ne_true, hw]
  simp only [show (0 : BitVec 128).toNat = 0 from rfl, Nat.zero_div, Nat.zero_mod]
  rw [hold_empty, issue_empty hd h0 h1]

/-- A running engine at an illegal bundle. -/
theorem bundleIssue_illegal (hm : let w := (tget (s.eng e).deliver.pmem (s.eng e).deliver.pc.toNat 0).toNat; slotOk (memUses (w / 2 ^ 96)) (w / 2 ^ 96) = false)
    (l : List JobReport) : bundleIssue e l s = (s.busy e 1).engineFault e 1 := by
  unfold bundleIssue
  dsimp only
  rw [issues_guard hs hf hr, if_neg Bool.false_ne_true, hold_illegal hm]

end

/-! #### MOR_BUSY -/

section
variable (s : State) (e n : Nat)

theorem busy_running {k : Skein} (h : (s.me e).running = some k) : s.busy e n = s.bumpBy morBusy n e := by
  unfold State.busy
  rw [h]
  rfl

theorem busy_onlyRegs : OnlyRegs s (s.busy e n) := by
  unfold State.busy
  split
  · exact (OnlyRegs.refl s).wr _ _ _ _
  · exact OnlyRegs.refl s

end

/-! #### Interrupts -/

section
variable {s : State} {e : Nat} {ward : Bool} (hs : (s.me e).service < 4) (hd : (s.eng e).delay = 0)
include hs hd

theorem interrupt_guard : (4 ≤ (s.me e).service || (s.eng e).delay != 0) = false := by
  simp [hd, hs]

theorem interruptEntry_none (h : pendingCause (s.eng e) (s.me e).running.isSome ward = none) : interruptEntry e ward s = s := by
  unfold interruptEntry
  dsimp only
  rw [interrupt_guard hs hd, if_neg Bool.false_ne_true, h]

theorem interruptEntry_fault (h : pendingCause (s.eng e) (s.me e).running.isSome ward = some 0) :
    interruptEntry e ward s = ((s.busy e 4).modEng e (fun x => x.enter 0)).faultCount e := by
  unfold interruptEntry
  dsimp only
  rw [interrupt_guard hs hd, if_neg Bool.false_ne_true, h]
  rfl

theorem interruptEntry_timer (h : pendingCause (s.eng e) (s.me e).running.isSome ward = some 1) : interruptEntry e ward s = s.timerEntry e := by
  unfold interruptEntry
  dsimp only
  rw [interrupt_guard hs hd, if_neg Bool.false_ne_true, h]
  rfl

theorem interruptEntry_other {c : Nat} (h : pendingCause (s.eng e) (s.me e).running.isSome ward = some (c + 2)) :
    interruptEntry e ward s = (s.busy e 4).modEng e (fun x => x.enter (c + 2)) := by
  unfold interruptEntry
  dsimp only
  rw [interrupt_guard hs hd, if_neg Bool.false_ne_true, h]
  rfl

end

/-! #### The rows -/

/-- A loop whose count does not stand at 1 has no END bundle to issue. -/
theorem loopCountEnd_idle {s : State} {e : Nat} {loop : Fin 2}
    (h : (s.eng e).deliver.gie = false ∨ ((s.eng e).deliver.lc0 ≠ 1 ∧ (s.eng e).deliver.lc1 ≠ 1)) : loopCountEnd e loop.val s = s := by
  unfold loopCountEnd
  dsimp only
  refine if_neg fun hall => ?_
  simp only [Bool.and_eq_true, decide_eq_true_eq] at hall
  obtain ⟨⟨hg, hlc⟩, -⟩ := hall
  obtain h | ⟨h0, h1⟩ := h
  · rw [h] at hg
    exact Bool.false_ne_true hg
  · split at hlc
    · exact h0 hlc
    · exact h1 hlc

theorem loopCountEnd_issues {s : State} {e : Nat} {loop : Fin 2} (hg : (s.eng e).deliver.gie = true)
    (h : let x := (s.eng e).deliver; loop = 0 ∧ x.lc0 = 1 ∧ x.pc = x.le0 ∨ loop = 1 ∧ x.lc1 = 1 ∧ x.pc = x.le1) :
    loopCountEnd e loop.val s = bundleIssue e [] s := by
  unfold loopCountEnd
  dsimp only
  refine if_pos ?_
  obtain ⟨rfl, hlc, hpc⟩ | ⟨rfl, hlc, hpc⟩ := h
  · simp [hg, hlc, hpc]
  · simp [hg, hlc, hpc]

theorem streamEntryArrival_idle {s : State} {e : Nat} (h : (s.eng e).stream.opened = false ∨ 32 ≤ (s.eng e).fifo.length) :
    streamEntryArrival e s = s := by
  unfold streamEntryArrival
  dsimp only
  refine if_pos ?_
  obtain h | h := h <;> simp [h]

theorem streamEntryArrival_taken {s : State} {e : Nat} {k : Skein} (hopen : (s.eng e).stream.opened = true)
    (hlen : 4 * (s.eng e).stream.fetched < (s.eng e).stream.len) (hroom : (s.eng e).fifo.length < 32) (hrun : (s.me e).running = some k)
    (hst : (s.eng e).stalled = false) :
    streamEntryArrival e s = (s.fillEntry e (s.eng e).stream.fetched).modEng e (fun y =>
      { y with fifo := y.fifo ++ [s.streamEntry e y.stream.fetched], stream := { y.stream with fetched := y.stream.fetched + 1 } }) := by
  unfold streamEntryArrival
  dsimp only
  rw [if_neg (by simp [hopen, hrun]; omega), hst]
  rfl

theorem skeinDispatch_held {s : State} {e : Nat} (h : 2 ≤ (s.me e).service ∨ (s.eng e).irqFault = true ∨ (s.eng e).pmemBad = true) :
    skeinDispatch e s = s := by
  unfold skeinDispatch
  dsimp only
  refine if_pos ?_
  obtain h | h | h := h <;> simp [h]

theorem budgetReached_idle {s : State} {e : Nat} (h : (s.me e).running = none ∨ (s.eng e).cyc < (s.eng e).budget) : budgetReached e s = s := by
  unfold budgetReached
  dsimp only
  refine if_pos ?_
  obtain h | h := h <;> simp [h]

theorem budgetReached_due {s : State} {e : Nat} {k : Skein} (hs : (s.me e).service < 4) (hd : (s.eng e).delay = 0) (hf : (s.eng e).irqFault = false)
    (hr : (s.me e).running = some k) (hb : (s.eng e).budget ≤ (s.eng e).cyc) : budgetReached e s = s.timerEntry e := by
  unfold budgetReached
  dsimp only
  exact if_neg (by simp [hd, hf, hr]; omega)

theorem pmemReload_off {s : State} {e : Nat} (h : 4 ≤ (s.me e).service) : pmemReload e s = s := if_pos h

theorem pmemReload_idle {s : State} {e : Nat} (h : (s.me e).service < 4) (hr : (s.me e).running = none) :
    pmemReload e s = s.modEng e (fun x => { x with pmem := s.pmemImage e, captured := none, pmemBad := false }) := by
  unfold pmemReload
  rw [if_neg (Nat.not_le.mpr h), hr]
  rfl

/-- Settles O55: each row by what its function does in the case. A dispatch starts the head of the queue, since no lane is held back; what
the start of the lanes does to their channels leaves the engines. -/
theorem engineRunRows : Obligations.EngineRunRows := by
  refine ⟨?_, ?_, ?_, ?_, ?_, ?_, ?_, ?_, ?_, ?_, ?_, ?_, ?_⟩
  · intro e k r s hon hserv hirq hpmem hrun hdq hfree hmask _
    refine gives_next (next_whileOn hon (skeinDispatch_head hserv hirq hpmem hrun hdq hfree hmask)) ?_
    refine ⟨?_, ?_, startSkein_eng_self, ?_, ?_, startSkein_rd_dispatched, fun x hx => ⟨?_, startSkein_eng_ne hx⟩, startSkein_ports⟩
    · rw [startSkein_me_self]
      rfl
    · rw [startSkein_me_self, State.modMe_me_self, State.modMe_me_self]
    · rw [startSkein_eng_self]
      rfl
    · rw [startSkein_eng_self]
      rfl
    · rw [startSkein_me_ne hx, State.modMe_me_ne _ _ hx, State.modMe_me_ne _ _ hx]
  · exact fun e s h => next_whileOn_same (skeinDispatch_held h)
  · exact fun e l x s h => congrArg Host.Outcome.next (bundleChecked_idle (issues_false h) l x)
  · intro e l k s x hs hf hr hw hd h0 h1
    have hrun : bundleChecked e.val l .clean s = _ := (bundleChecked_clean l).trans (bundleIssue_empty hs hf hr hw hd h0 h1 l)
    have hself := State.modEng_eng_self (s.busy e.val 1) e.val (fun _ => x.passed)
    have hbusy := busy_onlyRegs s e.val 1
    have hcount : (s.busy e.val 1).rd morBusy e.val = (s.rd morBusy e.val + 1) % 2 ^ 64 :=
      (congrArg (fun u : State => u.rd morBusy e.val) (busy_running s e.val 1 hr)).trans (rd_bumpBy_self s morBusy 1 e.val 0)
    have hother : ∀ y, y ≠ e.val → ((s.busy e.val 1).modEng e.val (fun _ => x.passed)).eng y = s.eng y := fun y hy =>
      (State.modEng_eng_ne _ _ hy).trans (congrArg (fun u : State => u.eng y) hbusy :)
    have hmor : (s.busy e.val 1).mor = s.mor := (congrArg State.mor hbusy :)
    have hchans : (s.busy e.val 1).chans = s.chans := (congrArg State.chans hbusy :)
    have hmem : (s.busy e.val 1).mem = s.mem := (congrArg State.mem hbusy :)
    refine gives_next (congrArg Host.Outcome.next hrun) ?_
    generalize s.busy e.val 1 = u at *
    exact ⟨(congrArg Engine.pc hself :), (congrArg Engine.cyc hself :), (congrArg (fun y : Engine => y.count.bundles) hself :), (congrArg Engine.v hself :),
      (congrArg Engine.a hself :), (congrArg Engine.p hself :), (congrArg Engine.s hself :), (congrArg Engine.k hself :), (congrArg Engine.xmem hself :),
      (congrArg Engine.ymem hself :), (congrArg Engine.writes hself :), hcount, hother, hmor, hchans, hmem⟩
  · exact fun e l k s hs hf hr hm => congrArg Host.Outcome.next ((bundleChecked_clean l).trans (bundleIssue_illegal hs hf hr hm l))
  · exact fun e k s hon hopen hlen hroom hrun hst => next_whileOn hon (streamEntryArrival_taken hopen hlen hroom hrun hst)
  · exact fun e s h => next_whileOn_same (streamEntryArrival_idle h)
  · refine fun e loop s => ⟨fun h => congrArg Host.Outcome.next (loopCountEnd_idle h), fun hg h => ?_⟩
    exact gives_next (congrArg Host.Outcome.next (loopCountEnd_issues hg h)) (congrArg Host.Outcome.next (bundleChecked_clean []))
  · intro e ward s x hs hd
    refine ⟨fun h => congrArg Host.Outcome.next (interruptEntry_none hs hd h), fun c h hc => ?_,
      fun h => congrArg Host.Outcome.next (interruptEntry_timer hs hd h), fun h => congrArg Host.Outcome.next (interruptEntry_fault hs hd h)⟩
    obtain ⟨c, rfl⟩ := Nat.exists_eq_add_of_le' hc
    have hself := State.modEng_eng_self (s.busy e.val 4) e.val (fun x => x.enter (c + 2))
    have hbusy := busy_onlyRegs s e.val 4
    have heng : ∀ y, (s.busy e.val 4).eng y = s.eng y := fun y => (congrArg (fun u : State => u.eng y) hbusy :)
    have hmor : (s.busy e.val 4).mor = s.mor := (congrArg State.mor hbusy :)
    have hchans : (s.busy e.val 4).chans = s.chans := (congrArg State.chans hbusy :)
    have hcyc : (x.enter (c + 2)).cyc = x.cyc + 4 := congrArg (· + 4) (settle_cyc x)
    refine gives_next (congrArg Host.Outcome.next (interruptEntry_other hs hd h)) ?_
    generalize s.busy e.val 4 = u at *
    rw [heng] at hself
    exact ⟨(congrArg Engine.ipc hself :), (congrArg Engine.ik hself :), (congrArg Engine.gie hself :), (congrArg Engine.cause hself :), (congrArg Engine.pc hself :),
      ((congrArg Engine.cyc hself :)).trans hcyc, ((congrArg Engine.writes hself :)).trans (settle_writes x), hmor,
      fun y hy => (State.modEng_eng_ne u _ hy).trans (heng y), hchans⟩
  · exact fun e s h => congrArg Host.Outcome.next (budgetReached_idle h)
  · exact fun e k s hs hd hf hr hb => congrArg Host.Outcome.next (budgetReached_due hs hd hf hr hb)
  · exact fun e s => ⟨fun h => congrArg Host.Outcome.next (pmemReload_off h), fun h hr => congrArg Host.Outcome.next (pmemReload_idle h hr)⟩
  · intro e l s h
    refine ⟨congrArg Host.Outcome.next ?_, congrArg Host.Outcome.next ?_, congrArg Host.Outcome.next (bundleChecked_corrected h l)⟩
    · unfold bundleChecked
      rw [h]
      exact if_neg Bool.false_ne_true
    · unfold bundleChecked
      rw [h]
      exact if_neg Bool.false_ne_true

end Sys2Proof.Machine
end

section
/-! ### Engines retire, return and fail -/
namespace Sys2Proof.Machine
open Sys2Proof.Safety

/-! #### ENGINE_RETIRE and ENGINE_RESTORE -/

section
variable {c : HostCmd} {s : State} {e : Nat} (he : bits c.w1.toNat 0 7 = e)
include he

theorem applyRetire_beyond (h : 95 < e) : applyRetire c s = .refuse stBAD_PARAM 8 := by
  subst he
  exact if_pos h

theorem applyRetire_state (h : e ≤ 95) (hs : (s.me e).service ≠ 0) : applyRetire c s = .refuse stBAD_STATE 0 := by
  subst he
  exact (if_neg (Nat.not_lt.mpr h)).trans (if_pos (bne_iff_ne.mpr hs))

theorem applyRetire_load (h : e ≤ 95) (hs : (s.me e).service = 0) (hl : s.serving.length ≤ s.rd supLoadLimit) :
    applyRetire c s = .refuse stNO_RESOURCE 0 := by
  subst he
  unfold applyRetire
  dsimp only
  rw [hs]
  exact (if_neg (Nat.not_lt.mpr h)).trans ((if_neg (by decide)).trans (if_pos hl))

theorem applyRetire_retires (h : e ≤ 95) (hs : (s.me e).service = 0) (hl : s.rd supLoadLimit < s.serving.length) :
    applyRetire c s = .later (s.retire e (some (c.qid.val, c.tag.toNat)) false) := by
  subst he
  unfold applyRetire
  dsimp only
  rw [hs]
  exact (if_neg (Nat.not_lt.mpr h)).trans ((if_neg (by decide)).trans (if_neg (Nat.not_le.mpr hl)))

theorem applyRestore_beyond (h : 95 < e) : applyRestore c s = .refuse stBAD_PARAM 8 := by
  subst he
  exact if_pos h

theorem applyRestore_state (h : e ≤ 95) (hs : (s.me e).service ≠ 2 ∨ bit (s.rd pwrEngOn) (e / 4) = false) :
    applyRestore c s = .refuse stBAD_STATE 0 := by
  subst he
  refine (if_neg (Nat.not_lt.mpr h)).trans (if_pos ?_)
  obtain hs | hs := hs <;> simp [hs]

/-- The state in which a retired engine's ENGINE reset has been made and its self-test runs. -/
def State.restoring (s : State) (e : Nat) (q tag : Nat) : State :=
  (s.engineReset e).modMe e (fun m => { m with service := 3, selfTestAt := s.now + us 100, restoreQ := some (q, tag) })

theorem applyRestore_tests (h : e ≤ 95) (hs : (s.me e).service = 2) (hon : bit (s.rd pwrEngOn) (e / 4) = true) :
    applyRestore c s = .later (s.restoring e c.qid.val c.tag.toNat) := by
  subst he
  refine (if_neg (Nat.not_lt.mpr h)).trans (if_neg ?_)
  simp [hs, hon]

end

/-- The state with a rollout's count of the engine. -/
def State.rolledOut (s : State) (e : Nat) : State :=
  if s.img.target.isSome && !s.img.rolloutEng.contains e then { s with img := { s.img with rolloutEng := s.img.rolloutEng ++ [e] } } else s

theorem engineReset_eq (s : State) (e : Nat) : s.engineReset e =
    (((s.rolledOut e).modEng e (fun x => { pmem := (s.rolledOut e).pmemImage e, count := x.count })).resetRegs .engine e).bump supResetsEngine := rfl

theorem rolledOut_frame (s : State) (e : Nat) : s.rolledOut e = { s with img := (s.rolledOut e).img } := by
  unfold State.rolledOut
  split <;> rfl

theorem resetRegs_eng (s : State) (k : ResetKind) (i x : Nat) : (s.resetRegs k i).eng x = s.eng x := rfl

/-- An ENGINE reset leaves Mordant, channels, memory and ports. -/
theorem engineReset_frame (s : State) (e : Nat) : (s.engineReset e).mor = s.mor ∧ (s.engineReset e).chans = s.chans ∧ (s.engineReset e).mem = s.mem ∧
    (s.engineReset e).ports = s.ports := by
  have hframe := rolledOut_frame s e
  rw [engineReset_eq]
  generalize s.rolledOut e = u at *
  rw [hframe]
  exact ⟨rfl, rfl, rfl, rfl⟩

theorem engineReset_eng_ne (s : State) {e x : Nat} (h : x ≠ e) : (s.engineReset e).eng x = s.eng x := by
  have heng : (s.rolledOut e).eng x = s.eng x := (congrArg (fun u : State => u.eng x) (rolledOut_frame s e) :)
  rw [engineReset_eq, State.bump_eng, resetRegs_eng, State.modEng_eng_ne _ _ h, heng]

/-- An engine after its reset: PMEM from the pack, its counts, and nothing else. -/
theorem engineReset_eng_self (s : State) (e : Nat) :
    (s.engineReset e).eng e = { pmem := (s.rolledOut e).pmemImage e, count := ((s.rolledOut e).eng e).count } := by
  rw [engineReset_eq, State.bump_eng, resetRegs_eng, State.modEng_eng_self]

theorem rolledOut_noRollout {s : State} {e : Nat} (h : s.img.target = none) : s.rolledOut e = s := by
  unfold State.rolledOut
  rw [h]
  rfl

/-! #### The end of a self-test -/

section
variable {s : State} {e : Nat}

theorem engineSelfTestDone_idle {b : Bool} (h : (s.me e).service ≠ 3 ∨ s.now < (s.me e).selfTestAt) : engineSelfTestDone e b s = s := by
  unfold engineSelfTestDone
  dsimp only
  refine if_pos ?_
  obtain h | h := h <;> simp [h]

variable (hs : (s.me e).service = 3) (ht : (s.me e).selfTestAt ≤ s.now)
include hs ht

theorem selfTest_guard : ¬ ((s.me e).service != 3 || decide (s.now < (s.me e).selfTestAt)) = true := by
  simp [hs, ht]

/-- An engine after its self-test. -/
def MorEngine.tested (passed : Bool) (m : MorEngine) : MorEngine :=
  { m with service := if passed then 0 else 2, restoreQ := none, warmTest := false, faultTimes := [], byRollout := m.byRollout && !passed }

/-- An engine as it returns to service. -/
def MorEngine.restored (m : MorEngine) : MorEngine := { m with service := 0, restoreQ := none, warmTest := false, faultTimes := [], byRollout := false }

theorem engineSelfTestDone_passed : engineSelfTestDone e true s = (match (s.me e).restoreQ with
    | none => (s.modMe e MorEngine.restored).idle e
    | some (q, tag) => ((s.modMe e MorEngine.restored).idle e).complete q tag 0x61 stOK 0 0 0) := by
  have hf : MorEngine.tested true = MorEngine.restored := by
    funext m
    simp [MorEngine.tested, MorEngine.restored]
  rw [← hf]
  exact if_neg (selfTest_guard hs ht)

/-- An engine that stays retired. -/
def MorEngine.faulty (m : MorEngine) : MorEngine := { m with service := 2, restoreQ := none, warmTest := false, faultTimes := [] }

theorem engineSelfTestDone_failed (hw : (s.me e).warmTest = false) : engineSelfTestDone e false s = (match (s.me e).restoreQ with
    | none => ((s.modMe e MorEngine.faulty).idle e).raise 0x0006 uSUP e 0xFFFF e
    | some (q, tag) => (((s.modMe e MorEngine.faulty).idle e).raise 0x0006 uSUP e 0xFFFF e).complete q tag 0x61 stINTERNAL 0 0 0) := by
  have hf : MorEngine.tested false = MorEngine.faulty := by
    funext m
    simp [MorEngine.tested, MorEngine.faulty]
  rw [← hf]
  refine (if_neg (selfTest_guard hs ht)).trans ?_
  rw [hw]
  rfl

end

/-! #### The failure of an empty domain -/

/-- An engine of Mordant that holds no skein and no task, and for which no command waits. -/
structure EmptyMe (m : MorEngine) : Prop where
  running : m.running = none
  suspended : m.suspended = none
  dq : m.dq = []
  due : m.due = []
  forming : m.forming = []
  waiting : m.waiting = []
  retireQ : m.retireQ = none
  restoreQ : m.restoreQ = none

/-- Only the engines `es`, and what Glaze holds for them, have changed; each of them satisfies `P`. -/
structure OnlyEngines (es : List Nat) (P : MorEngine → Prop) (s u : State) : Prop where
  frame : u = { s with mor := { s.mor with engines := u.mor.engines }, engines := u.engines, glaze := u.glaze }
  others : ∀ e, e ∉ es → u.me e = s.me e ∧ u.eng e = s.eng e
  at_ : ∀ e ∈ es, P (u.me e)

namespace OnlyEngines

variable {es : List Nat} {P Q : MorEngine → Prop} {s u : State} {e : Nat}

theorem refl (h : ∀ e ∈ es, P (s.me e)) : OnlyEngines es P s s := ⟨rfl, fun _ _ => ⟨rfl, rfl⟩, h⟩

theorem modMe {f : MorEngine → MorEngine} (h : OnlyEngines es P s u) (he : e ∈ es) (hf : ∀ m, P m → P (f m)) : OnlyEngines es P s (u.modMe e f) := by
  obtain ⟨hframe, hothers, hat⟩ := h
  refine ⟨?_, fun x hx => ⟨?_, (hothers x hx).2⟩, fun x hx => ?_⟩
  · rw [hframe]
    rfl
  · rw [State.modMe_me_ne u f (ne_of_mem_of_not_mem he hx).symm, (hothers x hx).1]
  · by_cases hxe : x = e
    · rw [hxe, State.modMe_me_self]
      exact hf _ (hat e he)
    · rw [State.modMe_me_ne u f hxe]
      exact hat x hx

theorem modEng {f : Engine → Engine} (h : OnlyEngines es P s u) (he : e ∈ es) : OnlyEngines es P s (u.modEng e f) := by
  obtain ⟨hframe, hothers, hat⟩ := h
  refine ⟨?_, fun x hx => ⟨(hothers x hx).1, ?_⟩, hat⟩
  · rw [hframe]
    rfl
  · rw [State.modEng_eng_ne u f (ne_of_mem_of_not_mem he hx).symm, (hothers x hx).2]

theorem glaze (h : OnlyEngines es P s u) (g : Glaze) : OnlyEngines es P s { u with glaze := g } := by
  obtain ⟨hframe, hothers, hat⟩ := h
  refine ⟨?_, hothers, hat⟩
  rw [hframe]

theorem foldl {f : State → Nat → State} (hf : ∀ u, ∀ e ∈ es, OnlyEngines es P s u → OnlyEngines es P s (f u e)) (h : OnlyEngines es P s u) :
    OnlyEngines es P s (es.foldl f u) := by
  have hall : ∀ l : List Nat, (∀ e ∈ l, e ∈ es) → ∀ u, OnlyEngines es P s u → OnlyEngines es P s (l.foldl f u) := by
    intro l
    induction l with
    | nil => exact fun _ _ h => h
    | cons e r ih =>
      intro hl u h
      obtain ⟨he, hr⟩ := List.forall_mem_cons.mp hl
      exact ih hr _ (hf u e he h)
  exact hall es (fun _ h => h) u h

theorem chans (h : OnlyEngines es P s u) : u.chans = s.chans := (congrArg State.chans h.frame :)
theorem mem (h : OnlyEngines es P s u) : u.mem = s.mem := (congrArg State.mem h.frame :)
theorem ports (h : OnlyEngines es P s u) : u.ports = s.ports := (congrArg State.ports h.frame :)
theorem now (h : OnlyEngines es P s u) : u.now = s.now := (congrArg State.now h.frame :)
theorem rd (h : OnlyEngines es P s u) (d : RegDesc) (i j : Nat) : u.rd d i j = s.rd d i j := (congrArg (fun u : State => u.rd d i j) h.frame :)
theorem transit (h : OnlyEngines es P s u) : u.mor.transit = s.mor.transit := (congrArg (fun u : State => u.mor.transit) h.frame :)
theorem evacEnd (h : OnlyEngines es P s u) : u.mor.evacEnd = s.mor.evacEnd := (congrArg (fun u : State => u.mor.evacEnd) h.frame :)

theorem mono (h : OnlyEngines es P s u) (hQ : ∀ e ∈ es, Q (u.me e)) : OnlyEngines es Q s u := ⟨h.frame, h.others, hQ⟩

end OnlyEngines

section
variable {s : State} {e : Nat}

theorem endSkein_none (h : (s.me e).running = none) : s.endSkein e = s := by
  unfold State.endSkein
  rw [h]

/-- What stands on an empty engine is lost with it: nothing but its registers and memories. -/
theorem loseEngine_empty (h : EmptyMe (s.me e)) : s.loseEngine e =
    let u := (s.modMe e (fun m => { m with due := m.due ++ m.dq.map returned, dq := [], service := 4 })).modEng e (fun x => { count := x.count })
    { u with glaze := { u.glaze with queues := tset u.glaze.queues (e / 8) ((tget u.glaze.queues (e / 8) []).filter (fun j => j.engine != e)) [] } } := by
  unfold State.loseEngine
  dsimp only
  rw [endSkein_none h.running, endSkein_none h.running]

/-- What stays of an engine's lists. -/
def MorEngine.stayed (stay : Task → Bool) (m : MorEngine) : MorEngine :=
  { m with forming := dropTasks (fun t => !stay t) m.forming, due := dropTasks (fun t => !stay t) m.due, waiting := m.waiting.filter stay }

/-- The lists of an empty engine move nothing. -/
theorem moveLists_empty (h : EmptyMe (s.me e)) :
    s.moveLists e = (s.modMe e (MorEngine.stayed (fun t => (s.chan t.ch).home.isNone))).idle e := by
  unfold State.moveLists
  dsimp only
  rw [h.forming, h.due, h.waiting]
  rfl

theorem stayed_empty {stay : Task → Bool} {m : MorEngine} (h : EmptyMe m) : EmptyMe (m.stayed stay) := by
  have hforming : (m.stayed stay).forming = [] := (congrArg (dropTasks _) h.forming).trans rfl
  have hdue : (m.stayed stay).due = [] := (congrArg (dropTasks _) h.due).trans rfl
  have hwaiting : (m.stayed stay).waiting = [] := (congrArg (List.filter stay) h.waiting).trans rfl
  exact ⟨h.running, h.suspended, h.dq, hdue, hforming, hwaiting, h.retireQ, h.restoreQ⟩

theorem redirect_none {lost : List Nat} (h : s.mor.transit = []) : s.redirect lost = s := by
  have hself : ({ s with mor := { s.mor with transit := [] } } : State) = s :=
    (congrArg (fun l => ({ s with mor := { s.mor with transit := l } } : State)) h).symm
  unfold State.redirect
  dsimp only
  rw [h]
  exact hself

theorem homedOn_none (h : s.chans = []) : s.homedOn e = [] := by
  unfold State.homedOn
  rw [h]
  rfl

end

/-- The engines of a domain. -/
def domainEngines (d : Nat) : List Nat := (List.range 4).map (fun i => 4 * d + i)

theorem mem_domainEngines {d e : Nat} : e ∈ domainEngines d ↔ e / 4 = d := by
  simp only [domainEngines, List.mem_map, List.mem_range]
  constructor
  · rintro ⟨i, hi, rfl⟩
    omega
  · intro h
    exact ⟨e % 4, by omega, by omega⟩

theorem domainEngines_nodup (d : Nat) : (domainEngines d).Nodup := by
  refine List.Nodup.map (fun a b h => ?_) List.nodup_range
  simpa using h

/-- An engine that its domain takes with it: one under retirement first ends its retirement. -/
def MorEngine.struck (m : MorEngine) : MorEngine := { m with service := if m.service = 1 then 1 else 4 }

/-- The engines of a domain are lost. -/
def State.enginesLost (s : State) (d : Nat) : State :=
  (domainEngines d).foldl State.loseEngine ((domainEngines d).foldl (fun s e => s.modMe e MorEngine.struck) s)

/-- An empty engine that is lost. -/
def LostMe (m : MorEngine) : Prop := EmptyMe m ∧ m.service = 4

section
variable (s : State)

theorem openEvac_chans : s.openEvac.chans = s.chans := rfl
theorem openEvac_mem : s.openEvac.mem = s.mem := rfl
theorem openEvac_ports : s.openEvac.ports = s.ports := rfl
theorem openEvac_eng (e : Nat) : s.openEvac.eng e = s.eng e := rfl
theorem openEvac_me (e : Nat) : s.openEvac.me e = s.me e := rfl
theorem openEvac_transit : s.openEvac.mor.transit = s.mor.transit := rfl
theorem openEvac_evacEnd : s.openEvac.mor.evacEnd = s.mor.evacEnd ++ [s.now + ms 100] := rfl

theorem openEvac_rd : s.openEvac.rd morEvacuations = (s.rd morEvacuations + 1) % 2 ^ 64 := State.rd_bump_self _ _ _ _

end

section
variable {d : Nat} {s : State}

theorem enginesLost_only (h : ∀ e ∈ domainEngines d, EmptyMe (s.me e) ∧ (s.me e).service = 0) :
    OnlyEngines (domainEngines d) LostMe s (s.enginesLost d) := by
  have hstruck : OnlyEngines (domainEngines d) EmptyMe s ((domainEngines d).foldl (fun s e => s.modMe e MorEngine.struck) s) :=
    (OnlyEngines.refl fun e he => (h e he).1).foldl fun u e he hu => hu.modMe he fun m hm =>
      ⟨hm.running, hm.suspended, hm.dq, hm.due, hm.forming, hm.waiting, hm.retireQ, hm.restoreQ⟩
  have hservice : ∀ e ∈ domainEngines d, (((domainEngines d).foldl (fun s e => s.modMe e MorEngine.struck) s).me e).service = 4 := by
    intro e he
    obtain ⟨u, hu, hfold⟩ := foldl_at (g := fun u : State => (u.me e).service) (key := id) (f := fun (s : State) e => s.modMe e MorEngine.struck)
      (x := e) (fun u y hy => congrArg MorEngine.service (State.modMe_me_ne u _ (Ne.symm hy))) (by simpa using domainEngines_nodup d) he s
    have hzero : (u.me e).service = 0 := hu.trans (h e he).2
    refine hfold.trans ((congrArg MorEngine.service (State.modMe_me_self u e _)).trans ?_)
    unfold MorEngine.struck
    rw [hzero]
    rfl
  refine (hstruck.mono fun e he => (⟨hstruck.at_ e he, hservice e he⟩ : LostMe _)).foldl fun u e he hu => ?_
  rw [loseEngine_empty (hu.at_ e he).1]
  refine ((hu.modMe he fun m hm => ?_).modEng he).glaze _
  exact ⟨⟨hm.1.running, hm.1.suspended, rfl, by rw [hm.1.due, hm.1.dq]; rfl, hm.1.forming, hm.1.waiting, hm.1.retireQ, hm.1.restoreQ⟩, rfl⟩

theorem listsMoved_only (h : ∀ e ∈ domainEngines d, LostMe (s.me e)) :
    OnlyEngines (domainEngines d) LostMe s ((domainEngines d).foldl State.moveLists s) :=
  (OnlyEngines.refl h).foldl fun u e he hu => by
    rw [moveLists_empty (hu.at_ e he).1]
    exact (hu.modMe he fun m hm => ⟨stayed_empty hm.1, hm.2⟩).modMe he fun m hm =>
      ⟨⟨hm.1.running, hm.1.suspended, hm.1.dq, hm.1.due, hm.1.forming, hm.1.waiting, hm.1.retireQ, hm.1.restoreQ⟩, hm.2⟩

/-- A domain whose engines are empty fails: its engines are lost and an evacuation window opens; there is nothing to move and nobody to tell. -/
theorem domainFail_empty (htransit : s.mor.transit = []) (hchans : s.chans = [])
    (h : ∀ e ∈ domainEngines d, EmptyMe (s.me e) ∧ (s.me e).service = 0) :
    s.domainFail d = (domainEngines d).foldl State.moveLists (s.enginesLost d).openEvac := by
  have hup : ((List.range 4).map (fun i => 4 * d + i)).filter (fun e => (s.me e).service != 4) = domainEngines d :=
    List.filter_eq_self.mpr fun e he => by simp [(h e he).2]
  have hlost := enginesLost_only h
  have hchans2 : (s.enginesLost d).openEvac.chans = [] := (openEvac_chans _).trans (hlost.chans.trans hchans)
  have htransit2 : (s.enginesLost d).openEvac.mor.transit = [] :=
    (openEvac_transit _).trans (hlost.transit.trans htransit)
  have hat2 : ∀ e ∈ domainEngines d, LostMe ((s.enginesLost d).openEvac.me e) := fun e he => by
    rw [openEvac_me]
    exact hlost.at_ e he
  have hdef : s.domainFail d = (if (domainEngines d).isEmpty = true then s else
      let s3 := (domainEngines d).foldl (fun s e => (s.homedOn e).foldl (fun s ch => s.rehome e ch) s) (s.enginesLost d).openEvac
      let s5 := (domainEngines d).foldl (fun (s : State) e => match (s.me e).retireQ with
        | none => s
        | some (q, tag) => (s.modMe e (fun m => { m with retireQ := none })).complete q tag 0x60 stOK 0 (s.me e).rehomed 0)
          (((domainEngines d).foldl State.moveLists s3).redirect (domainEngines d))
      (domainEngines d).foldl (fun (s : State) e => match (s.me e).restoreQ with
        | none => s
        | some (q, tag) => (s.modMe e (fun m => { m with restoreQ := none })).complete q tag 0x61 stINTERNAL 0 0 0) s5) := by
    unfold State.domainFail
    dsimp only
    rw [hup]
    rfl
  have hmoved := listsMoved_only hat2
  have hmoves : (domainEngines d).foldl (fun s e => (s.homedOn e).foldl (fun s ch => s.rehome e ch) s) (s.enginesLost d).openEvac =
      (s.enginesLost d).openEvac := foldl_unchanged fun e _ => by rw [homedOn_none hchans2]; rfl
  rw [hdef, if_neg (by simp [domainEngines])]
  dsimp only
  rw [hmoves, redirect_none (hmoved.transit.trans htransit2)]
  have hat := hmoved.at_
  generalize (domainEngines d).foldl State.moveLists (s.enginesLost d).openEvac = u at *
  rw [foldl_unchanged (s := u) (fun e he => ?_)]
  · exact foldl_unchanged fun e he => by rw [(hat e he).1.restoreQ]
  · rw [(hat e he).1.retireQ]

end

theorem engineDomainFailure_lost {s : State} {d : Nat} (h : ∀ i < 4, (s.me (4 * d + i)).service = 4) : engineDomainFailure d s = s := by
  have hup : ((List.range 4).map (fun i => 4 * d + i)).filter (fun e => (s.me e).service != 4) = [] :=
    List.filter_eq_nil_iff.mpr fun e he => by
      obtain ⟨i, hi, rfl⟩ := List.mem_map.mp he
      simp [h i (List.mem_range.mp hi)]
  unfold engineDomainFailure State.domainFail
  dsimp only
  rw [hup]
  rfl

/-! #### Overdue lanes -/

theorem morTraceRate_key_apart (e : Nat) : morTraceRate.key 0 0 ≠ morCancelYield.key e 0 := by
  simp only [RegDesc.key, morTraceRate, morCancelYield]
  omega

/-- A skein with the cancel of a lane recorded. -/
def Skein.cancelled (k : Skein) (lane : Nat) : Skein := { k with cancels := k.cancels ||| ((1 : Word16) <<< lane) }

section
variable {s : State} {e lane : Nat} {k : Skein} {x : Task}

theorem jobAbort_off (h : s.rd morAbort = 0) : jobAbort e lane s = s := if_pos h

/-- The cancel of an overdue lane of the running skein is recorded and counted; with no trace nothing else happens. -/
theorem jobAbort_overdue (habort : s.rd morAbort ≠ 0) (htrace : s.rd morTraceRate = 0) (hrun : (s.me e).running = some k) (htask : k.tasks[lane]? = some x)
    (hlive : k.mask.getLsbD lane = true) (hnot : k.cancels.getLsbD lane = false) (hdue : x.deadline + ms (s.rd morAbort) ≤ s.now) :
    jobAbort e lane s = (s.modMe e (fun m => { m with running := some (k.cancelled lane) })).bump morCancelYield e := by
  have hlane : abortLane lane (ms (s.rd morAbort)) s.now k = some (k.cancelled lane) := by
    unfold abortLane
    rw [htask]
    exact if_pos (by simp [hlive, hnot, hdue])
  have hbind : (s.me e).running.bind (abortLane lane (ms (s.rd morAbort)) s.now) = some (k.cancelled lane) := by rw [hrun]; exact hlane
  have hcount : (k.cancelled lane).tasks[lane]? = some x := htask
  unfold jobAbort
  dsimp only
  rw [if_neg habort, hbind]
  dsimp only
  rw [hcount]
  exact trace_rate_zero _ _ ((State.rd_bump_ne _ (morTraceRate_key_apart e)).trans htrace)

end

/-! #### The rows -/

/-- Settles O54: each row by what its function does in the case. A domain whose engines are empty has nothing to move, nothing to end and
nobody to tell, so its failure changes its engines and opens the window. -/
theorem engineServiceRows : Obligations.EngineServiceRows := by
  refine ⟨?_, ?_, ?_, ?_, ?_, ?_, ?_, ?_, ?_, ?_, ?_, ?_, ?_⟩
  · intro c s e h
    exact ⟨fun hb => next_refuse h (applyRetire_beyond rfl hb), fun hb hs => next_refuse h (applyRetire_state rfl hb hs),
      fun hb hs hl => next_refuse h (applyRetire_load rfl hb hs hl), fun hb hs hl => next_later h (applyRetire_retires rfl hb hs hl)⟩
  · intro c s e h
    refine ⟨fun hb => next_refuse h (applyRestore_beyond rfl hb), fun hb hs => next_refuse h (applyRestore_state rfl hb hs), fun hb hs hon => ?_⟩
    obtain ⟨hmor, hchans, hmem, hports⟩ := engineReset_frame s e
    have hself : ((s.restoring e c.qid.val c.tag.toNat).markApplied c.qid.val c.tag.toNat).me e = _ := (State.markApplied_me ..).trans (State.modMe_me_self ..)
    have heng : ∀ x, ((s.restoring e c.qid.val c.tag.toNat).markApplied c.qid.val c.tag.toNat).eng x = (s.engineReset e).eng x := fun x =>
      (State.markApplied_eng ..).trans (State.modMe_eng ..)
    have hreset := (heng e).trans (engineReset_eng_self s e)
    refine gives_next (next_later h (applyRestore_tests rfl hb hs hon)) ⟨?_, ?_, ?_, ?_, ?_, fun ht => ?_, ?_, fun x hx => ⟨?_, ?_⟩, ?_, ?_, ?_⟩
    · rw [hself]
    · rw [hself]
    · rw [hself]
    · rw [hreset]
    · rw [hreset]
    · rw [hreset, rolledOut_noRollout ht]
    · rw [hreset]
    · exact (State.markApplied_me ..).trans ((State.modMe_me_ne _ _ hx).trans (congrArg (fun m : Mordant => tget m.engines x {}) hmor))
    · rw [heng, engineReset_eng_ne s hx]
    · exact hchans
    · exact hmem
    · exact hports
  · exact fun e b s h => congrArg Host.Outcome.next (engineSelfTestDone_idle h)
  · intro e s hs ht hq
    refine gives_next (congrArg Host.Outcome.next ((engineSelfTestDone_passed hs ht).trans (by rw [hq]))) ⟨?_, ?_, fun x hx => ?_, rfl⟩
    · rw [idle_me_self, State.modMe_me_self]
      rfl
    · rw [idle_me_self, State.modMe_me_self]
      rfl
    · rw [idle_me_ne _ _ hx, State.modMe_me_ne _ _ hx]
  · intro e q tag s hs ht hq
    refine congrArg Host.Outcome.next ((engineSelfTestDone_passed hs ht).trans ?_)
    rw [hq]
    rfl
  · intro e s u hs ht hw
    refine ⟨fun hq => congrArg Host.Outcome.next ((engineSelfTestDone_failed hs ht hw).trans ?_),
      fun q tag hq => congrArg Host.Outcome.next ((engineSelfTestDone_failed hs ht hw).trans ?_)⟩
    · rw [hq]
      rfl
    · rw [hq]
      rfl
  · exact fun d s h => congrArg Host.Outcome.next (engineDomainFailure_lost h)
  · intro d s htransit hchans h
    have hempty : ∀ e ∈ domainEngines d.val, EmptyMe (s.me e) ∧ (s.me e).service = 0 := by
      intro e he
      obtain ⟨i, hi, rfl⟩ := List.mem_map.mp he
      obtain ⟨hserv, hrun, hsusp, hdq, hdue, hforming, hwaiting, hretire, hrestore⟩ := h i (List.mem_range.mp hi)
      exact ⟨⟨hrun, hsusp, hdq, hdue, hforming, hwaiting, hretire, hrestore⟩, hserv⟩
    have hlost := enginesLost_only hempty
    have hat2 : ∀ e ∈ domainEngines d.val, LostMe ((s.enginesLost d.val).openEvac.me e) := fun e he => by
      rw [openEvac_me]
      exact hlost.at_ e he
    have hmoved := listsMoved_only hat2
    refine gives_next (congrArg Host.Outcome.next (domainFail_empty htransit hchans hempty)) ⟨fun i hi => ?_, fun e he => ⟨?_, ?_⟩, ?_, ?_, ?_, ?_, ?_⟩
    · obtain ⟨-, hserv⟩ := hmoved.at_ _ (mem_domainEngines.mpr (by omega : (4 * d.val + i) / 4 = d.val))
      exact hserv
    · have hout := mt mem_domainEngines.mp he
      rw [(hmoved.others e hout).1, openEvac_me, (hlost.others e hout).1]
    · have hout := mt mem_domainEngines.mp he
      rw [(hmoved.others e hout).2, openEvac_eng, (hlost.others e hout).2]
    · rw [hmoved.evacEnd, openEvac_evacEnd, hlost.evacEnd, hlost.now]
    · rw [hmoved.rd, openEvac_rd, hlost.rd]
    · rw [hmoved.chans, openEvac_chans, hlost.chans]
    · rw [hmoved.mem, openEvac_mem, hlost.mem]
    · rw [hmoved.ports, openEvac_ports, hlost.ports]
  · exact fun e lane s h => congrArg Host.Outcome.next (jobAbort_off h)
  · intro e lane k x s habort htrace hrun htask hlive hnot hdue
    refine gives_next (congrArg Host.Outcome.next (jobAbort_overdue habort htrace hrun htask hlive hnot hdue)) ⟨?_, ?_, fun y hy => ?_, rfl⟩
    · rw [State.bump_me, State.modMe_me_self]
      rfl
    · exact State.rd_bump_self _ _ _ _
    · rw [State.bump_me, State.modMe_me_ne _ _ hy]
  · exact fun s hon => next_whileOn hon rfl
  · exact fun s => rfl
  · exact fun s => gives_next rfl ⟨State.rd_wr_self _ supLoadMeasured _ 0 0, rfl, rfl, rfl, fun d i j hd => State.rd_wr_ne _ _ hd⟩

end Sys2Proof.Machine
end

section
/-! ### A read of a line that stands poisoned -/
namespace Sys2Proof.Machine
open Sys2Proof.Safety

/-- A read of line 0 for engine 0, none of whose checks finds an error. -/
def cleanRead : MemReq := { port := 0, source := 12, line := 0, bank := 0, row := 0, write := false }

/-- Memory channel 0 is in use and its line 0 stands poisoned; engine 0 runs a job of channel 5. -/
def poisonedUnderJob : State :=
  let s := (State.reset.wr memChState 2 0).modChan 5 (fun c => { c with st := .open, jobsRunning := 1 })
  { s with mem := { s.mem with poisoned := [0] } }.modMe 0 (fun m =>
    { m with running := some { num := 1, key := { kernel := 0, mode := 0, period := 0, tb := 0 }, cls := 2, openedAt := 0, mask := 1
                               tasks := [{ ch := 5, kind := .gap, cls := 2, deadline := 0, acceptedAt := 0, tick := 0 }] } })

/-- The read ends the job of channel 5. -/
theorem memoryRequest_poisonedUnderJob : (memoryRequest 0 cleanRead poisonedUnderJob).chans ≠ poisonedUnderJob.chans := by decide +kernel

/-- Refutes O56: the clause on a clean read asks only that this read finds no error. A line that stands poisoned is returned poisoned
whatever the read finds (R343, R344); the engine that reads it takes MEM_UE, and its job's channel is not as it was. -/
theorem not_memoryTrafficRows : ¬ Obligations.MemoryTrafficRows := by
  rintro ⟨-, hserved, -⟩
  obtain ⟨hread, -⟩ := hserved 0 cleanRead poisonedUnderJob (by decide +kernel) (by decide +kernel) (by decide +kernel) (by decide)
  obtain ⟨t, hrun, -, -, -, -, -, -, -, hchans, -⟩ := hread rfl rfl rfl rfl (by decide +kernel)
  obtain rfl : memoryRequest 0 cleanRead poisonedUnderJob = t := by
    have hx : exec (.memoryRequest 0 cleanRead) poisonedUnderJob = .next (memoryRequest 0 cleanRead poisonedUnderJob) :=
      next_whileOn (by decide +kernel) rfl
    exact Host.Outcome.next.inj (hx.symm.trans hrun)
  exact memoryRequest_poisonedUnderJob hchans

end Sys2Proof.Machine
end

section
/-! ### A MEMCH reset of a channel with poisoned lines -/
namespace Sys2Proof.Machine
open Sys2Proof.Safety

/-- Bister serves; memory channel 0 is fenced, and its line 0 is on the poison list. -/
def fencedPoisoned : State :=
  let s := (State.reset.wr mbxBootState 5).wr memChState 5 0
  { s with mem := { s.mem with poisoned := [0] }, sup := { s.sup with poison := [0] } }

/-- The reset takes the line off the list. -/
theorem memChCtlReset_fencedPoisoned : (memChCtlReset 0 64 1 fencedPoisoned).sup.poison ≠ fencedPoisoned.sup.poison := by decide +kernel

/-- Refutes O57: the clause on a reset of a fenced channel says that nothing but memory and registers changes. The channel's contents are
gone with the reset, so its lines also leave the poison list that Bister keeps (R361, R497). -/
theorem not_memoryServiceRows : ¬ Obligations.MemoryServiceRows := by
  rintro ⟨-, -, -, -, -, hreset, -⟩
  obtain ⟨-, -, htaken, -⟩ := hreset 0 64 1 fencedPoisoned
  obtain ⟨t, hrun, -, -, -, -, -, hframe⟩ := htaken (by decide) (by decide) (by decide +kernel) (.inl (by decide +kernel))
  have hx : exec (.memChCtlReset 0 64 1) fencedPoisoned = .next (memChCtlReset 0 64 1 fencedPoisoned) := rfl
  obtain rfl : memChCtlReset 0 64 1 fencedPoisoned = t := Host.Outcome.next.inj (hx.symm.trans hrun)
  exact memChCtlReset_fencedPoisoned (congrArg (·.sup.poison) hframe)

end Sys2Proof.Machine
end

section
/-! ### The ring: what sending leaves -/
namespace Sys2Proof.Machine
open Sys2Proof.Safety

/-- Ports `xs` have sent: only their links and their counts of frames and of stalls have changed. -/
structure Sent (xs : List Nat) (s t : State) : Prop where
  frame : t = { s with ring := { s.ring with links := t.ring.links }, regs := t.regs }
  link : ∀ y, y ∉ xs → t.link y = s.link y
  rd : ∀ (d : RegDesc) (i j : Nat), (∀ x ∈ xs, d.key i j ≠ rngFramesTx.key x 0 ∧ d.key i j ≠ rngCreditStall.key x 0) → t.rd d i j = s.rd d i j

namespace Sent

variable {xs : List Nat} {s t u : State} {x : Nat}

theorem refl (xs : List Nat) (s : State) : Sent xs s s := ⟨rfl, fun _ _ => rfl, fun _ _ _ _ => rfl⟩

theorem modLink (h : Sent xs s t) (hx : x ∈ xs) (f : RingLink → RingLink) : Sent xs s (t.modLink x f) := by
  obtain ⟨hframe, hlink, hrd⟩ := h
  refine ⟨?_, fun y hy => (State.modLink_link_ne t f (ne_of_mem_of_not_mem hx hy).symm).trans (hlink y hy), hrd⟩
  rw [hframe]
  rfl

theorem bump (h : Sent xs s t) (d : RegDesc) (hd : ∀ (e : RegDesc) (i j : Nat),
    (∀ x ∈ xs, e.key i j ≠ rngFramesTx.key x 0 ∧ e.key i j ≠ rngCreditStall.key x 0) → e.key i j ≠ d.key x 0) : Sent xs s (t.bump d x) := by
  obtain ⟨hframe, hlink, hrd⟩ := h
  refine ⟨?_, hlink, fun e i j he => (State.rd_bump_ne t (hd e i j he)).trans (hrd e i j he)⟩
  rw [hframe]
  rfl

theorem bumpTx (h : Sent xs s t) (hx : x ∈ xs) : Sent xs s (t.bump rngFramesTx x) := h.bump _ fun _ _ _ he => (he x hx).1

theorem bumpStall (h : Sent xs s t) (hx : x ∈ xs) : Sent xs s (t.bump rngCreditStall x) := h.bump _ fun _ _ _ he => (he x hx).2

theorem sendFrame (h : Sent xs s t) (hx : x ∈ xs) (dst n : Nat) (data : Bool) (m : Option RingMsg) : Sent xs s (t.sendFrame x dst n data m) :=
  (h.modLink hx _).bumpTx hx

theorem sendNext (h : Sent xs s t) (hx : x ∈ xs) (hu : t.sendNext x = some u) : Sent xs s u := by
  unfold State.sendNext at hu
  dsimp only at hu
  split at hu
  · injection hu with hu
    exact hu ▸ (h.modLink hx _).sendFrame hx _ _ _ _
  · split at hu
    · split at hu
      · cases hu
      · split at hu <;> (injection hu with hu; exact hu ▸ (h.modLink hx _).sendFrame hx _ _ _ _)
    · split at hu
      · cases hu
      · split at hu
        · cases hu
        · injection hu with hu
          exact hu ▸ h.modLink hx _

theorem pump (h : Sent xs s t) (hx : x ∈ xs) (n : Nat) : Sent xs s (State.pump n t x) := by
  induction n generalizing t with
  | zero => exact h
  | succ n ih =>
    unfold State.pump
    split
    · exact h
    · next u hu => exact ih (h.sendNext hx hu)

theorem ringSend (h : Sent xs s t) (hx : x ∈ xs) (dst : Nat) (m : RingMsg) : Sent xs s (t.ringSend x dst m) := by
  unfold State.ringSend
  dsimp only
  split
  · exact h
  · split
    · exact (h.modLink hx _).pump hx _
    · exact ((h.modLink hx _).pump hx _).bumpStall hx

theorem sendTo (h : Sent [0, 1] s t) (dst : Nat) (m : RingMsg) : Sent [0, 1] s (t.sendTo dst m) := by
  have h0 : 0 ∈ [0, 1] := List.mem_cons_self
  have h1 : 1 ∈ [0, 1] := List.mem_cons_of_mem _ List.mem_cons_self
  unfold State.sendTo
  split
  · exact h.ringSend h0 _ _
  · split
    · exact h.ringSend h1 _ _
    · exact (h.ringSend h0 _ _).ringSend h1 _ _

theorem sendBoth (h : Sent [0, 1] s t) (dst : Nat) (m : RingMsg) : Sent [0, 1] s (t.sendBoth dst m) :=
  (h.ringSend List.mem_cons_self _ _).ringSend (List.mem_cons_of_mem _ List.mem_cons_self) _ _

theorem chans (h : Sent xs s t) : t.chans = s.chans := (congrArg State.chans h.frame :)
theorem engines (h : Sent xs s t) : t.engines = s.engines := (congrArg State.engines h.frame :)
theorem mem (h : Sent xs s t) : t.mem = s.mem := (congrArg State.mem h.frame :)
theorem freeCtr (h : Sent xs s t) : t.freeCtr = s.freeCtr := (congrArg State.freeCtr h.frame :)
theorem sup (h : Sent xs s t) : t.sup = s.sup := (congrArg State.sup h.frame :)
theorem now (h : Sent xs s t) : t.now = s.now := (congrArg State.now h.frame :)
theorem ring (h : Sent xs s t) : t.ring = { s.ring with links := t.ring.links } := (congrArg State.ring h.frame :)

end Sent

end Sys2Proof.Machine
end

section
/-! ### Insertion, links, heartbeats and liveness of a ring member -/
namespace Sys2Proof.Machine
open Sys2Proof.Safety

/-! #### Insertion -/

section
variable {s : State} {w v : Nat}

theorem ringInsert_ignored (h : goodAccess 0xC0000 w = false ∨ writtenTo rngInsert 0 0 0xC0000 w v ≠ some 1) :
    ringInsert w v s = s.writeReg 0xC0000 w v := by
  unfold ringInsert
  refine if_pos ?_
  obtain h | h := h <;> simp [h]

theorem insert_guard (hg : goodAccess 0xC0000 w = true) (hw : writtenTo rngInsert 0 0 0xC0000 w v = some 1) :
    ¬ (writtenTo rngInsert 0 0 0xC0000 w v != some 1 || !goodAccess 0xC0000 w) = true := by
  simp [hg, hw]

theorem tryInsert_waits (h : s.rd rngState ≠ 1) : s.tryInsert = s := if_neg (by simp [h])

theorem tryInsert_opens (hs : s.rd rngState = 1) (ht : s.tapsLocked = true) (hl : s.ring.live = true) :
    s.tryInsert = (State.wr { s with ring := { s.ring with insertAt := some s.now } } rngBypass 0).wr rngState 2 :=
  if_pos (by simp [hs, ht, hl])

theorem tryInsert_frame (s : State) : (∀ y, s.tryInsert.link y = s.link y) ∧ s.tryInsert.chans = s.chans ∧ s.tryInsert.engines = s.engines := by
  unfold State.tryInsert
  split
  · exact ⟨fun _ => rfl, rfl, rfl⟩
  · exact ⟨fun _ => rfl, rfl, rfl⟩

end

/-- Both taps hold block lock. -/
def State.tapped (s : State) : State :=
  (s.modLink 0 (fun l => { l with tapLock := true })).modLink 1 (fun l => { l with tapLock := true })

theorem tapped_locks (s : State) : (s.tapped.link 0).tapLock = true ∧ (s.tapped.link 1).tapLock = true := by
  constructor
  · rw [State.tapped, State.modLink_link_ne _ _ (by decide), State.modLink_link_self]
  · rw [State.tapped, State.modLink_link_self]

theorem tapped_tapsLocked (s : State) : s.tapped.tapsLocked = true := by
  obtain ⟨h0, h1⟩ := tapped_locks s
  rw [State.tapsLocked, h0, h1]
  rfl

/-! #### A link trains -/

section
variable (s : State)

theorem invRebuild_link (y : Nat) : s.invRebuild.link y = s.link y :=
  invRebuild_keeps (g := fun u => u.link y) (fun _ _ => rfl) (fun _ _ => State.backInv_link ..) (fun _ _ => rfl) s

theorem invRebuild_ring : s.invRebuild.ring = s.ring :=
  invRebuild_keeps (g := State.ring) (fun _ _ => rfl) (fun _ _ => State.backInv_ring ..) (fun _ _ => rfl) s

end

/-- The fields of a link and the state of the member are none of the counts that sending moves, and no count of back-invalidates. -/
theorem linkFields_apart : ∀ x : RingPort, ∀ y ∈ [0, 1],
    (rngPortLinkUp.key x.val 0 ≠ rngFramesTx.key y 0 ∧ rngPortLinkUp.key x.val 0 ≠ rngCreditStall.key y 0) ∧
    (rngPortLock.key x.val 0 ≠ rngFramesTx.key y 0 ∧ rngPortLock.key x.val 0 ≠ rngCreditStall.key y 0) := by decide

theorem linkFields_bisnp : ∀ x : RingPort, rngPortLinkUp.key x.val 0 ≠ mbxBisnp.key 0 0 ∧ rngPortLock.key x.val 0 ≠ mbxBisnp.key 0 0 := by decide

theorem rngState_sent_apart : ∀ y ∈ [0, 1], rngState.key 0 0 ≠ rngFramesTx.key y 0 ∧ rngState.key 0 0 ≠ rngCreditStall.key y 0 := by decide

theorem port_mem (x : RingPort) : ∀ y ∈ [x.val], y ∈ [0, 1] := by
  revert x
  decide

section
variable (s : State) (x : RingPort)

/-- A link as its training leaves it before the identity goes out. -/
def State.ringUp (s : State) (x : Nat) : State :=
  ((s.wr rngPortLinkUp 1 x).wr rngPortLock 15 x).modLink x (fun l => if (s.link x).retraining then { l with retraining := false, replays := [] } else {})

/-- A link that has trained, its identity sent. -/
def State.ringTrained (s : State) (x : Nat) : State := ((s.ringUp x).ringSend x 15 (.identity s.ownIdentity)).invRebuild

theorem ringUp_sent : Sent [x.val] (s.ringUp x.val) ((s.ringUp x.val).ringSend x.val 15 (.identity s.ownIdentity)) :=
  (Sent.refl _ _).ringSend List.mem_cons_self _ _

theorem ringTrained_up : (s.ringTrained x.val).rd rngPortLinkUp x.val = 1 := by
  rw [State.ringTrained, invRebuild_rd_ne _ (linkFields_bisnp x).1, (ringUp_sent s x).rd _ _ _ fun y hy => (linkFields_apart x y (port_mem x y hy)).1,
    State.ringUp, State.modLink_rd, State.rd_wr_ne _ _ (by revert x; decide)]
  exact State.rd_wr_self ..

theorem ringTrained_lock : (s.ringTrained x.val).rd rngPortLock x.val = 15 := by
  rw [State.ringTrained, invRebuild_rd_ne _ (linkFields_bisnp x).2, (ringUp_sent s x).rd _ _ _ fun y hy => (linkFields_apart x y (port_mem x y hy)).2,
    State.ringUp, State.modLink_rd]
  exact State.rd_wr_self ..

theorem ringTrained_state : (s.ringTrained x.val).rd rngState = s.rd rngState := by
  rw [State.ringTrained, invRebuild_rd_ne _ (by decide), (ringUp_sent s x).rd _ _ _ fun y hy => rngState_sent_apart y (port_mem x y hy), State.ringUp,
    State.modLink_rd, State.rd_wr_ne _ _ (by revert x; decide), State.rd_wr_ne _ _ (by revert x; decide)]

/-- The other port's link is up as it was. -/
theorem ringTrained_other : (s.ringTrained x.val).rd rngPortLinkUp (1 - x.val) = s.rd rngPortLinkUp (1 - x.val) := by
  rw [State.ringTrained, invRebuild_rd_ne _ (by revert x; decide), (ringUp_sent s x).rd _ _ _ (by revert x; decide), State.ringUp,
    State.modLink_rd, State.rd_wr_ne _ _ (by revert x; decide), State.rd_wr_ne _ _ (by revert x; decide)]

theorem ringTrained_link {y : Nat} (h : y ≠ x.val) : (s.ringTrained x.val).link y = s.link y := by
  rw [State.ringTrained, invRebuild_link, (ringUp_sent s x).link y (by simpa using h), State.ringUp, State.modLink_link_ne _ _ h]
  rfl

theorem ringTrained_frame : (s.ringTrained x.val).chans = s.chans ∧ (s.ringTrained x.val).engines = s.engines := by
  rw [State.ringTrained, invRebuild_chans, invRebuild_engines, (ringUp_sent s x).chans, (ringUp_sent s x).engines]
  exact ⟨rfl, rfl⟩

end

/-! #### The member stands inserted -/

/-- The home channels are to be sent whole again. -/
def State.homeStale (s : State) : State :=
  (((liveChans s).filter (fun e => s.mirrored e.1)).map (·.1)).foldl (fun (s : State) ch => s.modHm ch (fun h => { h with syncWant := true, synced := false })) s

/-- The state of a member whose links are both up. -/
def State.stoodIn (s : State) : State := State.wr { s with ring := { s.ring with insertAt := none, hbNextAt := s.now } } rngState 3

theorem stoodIn_chans (s : State) : s.stoodIn.chans = s.chans := rfl
theorem stoodIn_engines (s : State) : s.stoodIn.engines = s.engines := rfl

theorem nowInserted_eq (s : State) : s.nowInserted = if s.stoodIn.homeStale.ring.resumeWait = true
    then s.stoodIn.homeStale.newToken.sendTo (s.stoodIn.homeStale.newToken.rd rngPosDown) (.resumeQuery s.stoodIn.homeStale.newToken.ring.token)
    else s.stoodIn.homeStale := rfl

theorem homeStale_keeps {β : Type} {g : State → β} (h : ∀ u ch f, g (State.modHm u ch f) = g u) (s : State) : g s.homeStale = g s :=
  foldl_keeps g (fun u _ => h u _ _) _ s

/-- What the homes' new state and the query of a returning member leave. -/
theorem nowInserted_keeps {β : Type} {g : State → β} (hhm : ∀ u ch f, g (State.modHm u ch f) = g u) (htoken : ∀ u, g (State.newToken u) = g u)
    (hsent : ∀ u t, Sent [0, 1] u t → g t = g u) (s : State) : g s.nowInserted = g s.stoodIn := by
  rw [nowInserted_eq]
  split
  · exact (hsent _ _ ((Sent.refl _ _).sendTo _ _)).trans ((htoken _).trans (homeStale_keeps hhm _))
  · exact homeStale_keeps hhm _

theorem nowInserted_state (s : State) : s.nowInserted.rd rngState = 3 :=
  (nowInserted_keeps (g := fun u => u.rd rngState) (fun _ _ _ => rfl) (fun _ => rfl) (fun _ _ h => h.rd _ _ _ rngState_sent_apart) s).trans
    (State.rd_wr_self _ rngState _ 0 0)

theorem nowInserted_insertAt (s : State) : s.nowInserted.ring.insertAt = none :=
  nowInserted_keeps (g := fun u => u.ring.insertAt) (fun _ _ _ => rfl) (fun _ => rfl) (fun _ _ h => (congrArg RingSt.insertAt h.ring :)) s

theorem nowInserted_frame (s : State) : s.nowInserted.chans = s.chans ∧ s.nowInserted.engines = s.engines :=
  ⟨(nowInserted_keeps (g := State.chans) (fun _ _ _ => rfl) (fun _ => rfl) (fun _ _ h => h.chans) s).trans (stoodIn_chans s),
    (nowInserted_keeps (g := State.engines) (fun _ _ _ => rfl) (fun _ => rfl) (fun _ _ h => h.engines) s).trans (stoodIn_engines s)⟩

theorem nowInserted_up (s : State) (x : RingPort) : s.nowInserted.rd rngPortLinkUp x.val = s.rd rngPortLinkUp x.val :=
  (nowInserted_keeps (g := fun u => u.rd rngPortLinkUp x.val) (fun _ _ _ => rfl) (fun _ => rfl)
    (fun _ _ h => h.rd _ _ _ fun y hy => (linkFields_apart x y hy).1) s).trans (State.rd_wr_ne _ _ (by revert x; decide))

section
variable {s : State} {x : RingPort}

theorem ringLinkTrained_bypassed (h : s.flag rngBypass = true) : ringLinkTrained x.val s = s := if_pos h

theorem ringLinkTrained_open (h : s.flag rngBypass = false) : ringLinkTrained x.val s =
    if (s.ringTrained x.val).rd rngState = 2 && (s.ringTrained x.val).flag rngPortLinkUp 0 && (s.ringTrained x.val).flag rngPortLinkUp 1
    then (s.ringTrained x.val).nowInserted else s.ringTrained x.val := if_neg (by simp [h])

/-- With the other link up both are. -/
theorem ringTrained_both (h : s.flag rngPortLinkUp (1 - x.val) = true) :
    (s.ringTrained x.val).flag rngPortLinkUp 0 = true ∧ (s.ringTrained x.val).flag rngPortLinkUp 1 = true := by
  have hself : (s.ringTrained x.val).flag rngPortLinkUp x.val = true := by rw [State.flag, ringTrained_up]; rfl
  have hother : (s.ringTrained x.val).flag rngPortLinkUp (1 - x.val) = true := by rw [State.flag, ringTrained_other]; exact h
  generalize s.ringTrained x.val = u at *
  obtain hx | hx : x.val = 0 ∨ x.val = 1 := by omega
  · rw [hx] at hself hother
    exact ⟨hself, hother⟩
  · rw [hx] at hself hother
    exact ⟨hother, hself⟩

end

/-! #### A link goes down -/

theorem dropLink_rd (s : State) (x : RingPort) : (s.dropLink x.val).rd rngPortLinkUp x.val = 0 ∧ (s.dropLink x.val).rd rngPortLock x.val = 0 ∧
    (s.dropLink x.val).rd rngPortAdjPos x.val = 15 := by
  unfold State.dropLink
  rw [State.modLink_rd, State.modLink_rd, State.modLink_rd]
  refine ⟨?_, ?_, State.rd_wr_self ..⟩
  · rw [State.rd_wr_ne _ _ (by revert x; decide), State.rd_wr_ne _ _ (by revert x; decide)]
    exact State.rd_wr_self ..
  · rw [State.rd_wr_ne _ _ (by revert x; decide)]
    exact State.rd_wr_self ..

theorem dropLink_link (s : State) (x : Nat) : (s.dropLink x).link x = {} ∧ ∀ y, y ≠ x → (s.dropLink x).link y = s.link y :=
  ⟨State.modLink_link_self .., fun _ hy => State.modLink_link_ne _ _ hy⟩

theorem ringLinkDown_out {s : State} {x : Nat} (h : s.inserted = false) : ringLinkDown x s = (s.dropLink x).invRebuild := if_neg (by simp [h])

theorem ringLinkDown_in {s : State} {x : Nat} (h : s.inserted = true) : ringLinkDown x s = if s.flag rngPortLinkUp x = true
    then ((s.dropLink x).invRebuild).raise 0x0057 uRNG x 0xFFFF (s.rd rngPosOwn) else (s.dropLink x).invRebuild := by
  unfold ringLinkDown
  dsimp only
  rw [h, Bool.and_true]

/-! #### Frames -/

theorem unitsOf_pos (n : Nat) : unitsOf n ≠ 0 := by
  unfold unitsOf
  omega

theorem sendNext_nothing {s : State} {x : Nat} (hw : (s.link x).waiting = []) (hs : (s.link x).sending = none) : s.sendNext x = none := by
  unfold State.sendNext
  dsimp only
  rw [hw, hs]
  rfl

theorem pump_nothing {s : State} {x : Nat} (hw : (s.link x).waiting = []) (hs : (s.link x).sending = none) (n : Nat) : State.pump (n + 1) s x = s := by
  rw [State.pump, sendNext_nothing hw hs]

theorem takeAck_nothing {s : State} {x : Nat} (h : (s.link x).unacked = []) (ack : Word16) : s.takeAck x ack = s := by
  unfold State.takeAck
  dsimp only
  rw [h]
  rfl

theorem linkFrame_down {s : State} {x : Nat} {f : RingFrame} (h : s.flag rngPortLinkUp x = false) : linkFrame x f s = s := if_pos (by simp [h])

theorem linkFrame_badCrc {s : State} {x : Nat} {f : RingFrame} (h : s.flag rngPortLinkUp x = true) (hc : f.crcOk = false) :
    linkFrame x f s = s.bump rngCrcErr x := (if_neg (by simp [h])).trans (if_pos (by simp [hc]))

section
variable {s : State} {x : Nat} {f : RingFrame}

/-- A frame of a body, its head taken. -/
def State.frameTaken (s : State) (x : Nat) (f : RingFrame) : State := (s.bump rngFramesRx x).modLink x (takeCredits f.crData f.crCtl)

theorem frameTaken_link : (s.frameTaken x f).link x = takeCredits f.crData f.crCtl (s.link x) := by
  rw [State.frameTaken, State.modLink_link_self, State.bump_link]

/-- A body's frame at a port that has nothing to send: it is taken or refused, as `g` says of the link, and a LINK frame answers it. -/
theorem linkFrame_body {g : RingLink → RingLink} (hup : s.flag rngPortLinkUp x = true) (hcrc : f.crcOk = true) (hnak : f.nak = false) (htype : f.type = 3)
    (hun : (s.link x).unacked = []) (hw : (g (takeCredits f.crData f.crCtl (s.link x))).waiting = [])
    (hsend : (g (takeCredits f.crData f.crCtl (s.link x))).sending = none)
    (hseq : (s.frameTaken x f).sequenced x f = (s.frameTaken x f).modLink x g)
    (hg : ∀ l, ((g l).sendNak || (g l).dataDue != 0 || (g l).ctlDue != 0) = true) :
    linkFrame x f s = ((s.frameTaken x f).modLink x g).linkAnswer x := by
  have hack : ((s.bump rngFramesRx x).modLink x (takeCredits f.crData f.crCtl)).takeAck x f.ack = s.frameTaken x f :=
    takeAck_nothing (s := s.frameTaken x f) (by rw [frameTaken_link]; exact hun) _
  have hself : ((s.frameTaken x f).modLink x g).link x = g (takeCredits f.crData f.crCtl (s.link x)) := by rw [State.modLink_link_self, frameTaken_link]
  have hpump : State.pump 1024 ((s.frameTaken x f).modLink x g) x = (s.frameTaken x f).modLink x g :=
    pump_nothing (by rw [hself]; exact hw) (by rw [hself]; exact hsend) 1023
  have hkind : (decide (2 ≤ 3) && decide (3 ≤ 5)) = true := by decide
  unfold linkFrame
  dsimp only
  rw [if_neg (by simp [hup]), if_neg (by simp [hcrc]), hack, hnak, htype, if_neg Bool.false_ne_true, if_pos hkind, hseq, hpump, hself]
  exact if_pos (hg _)

/-- What the next frame in order leaves of a link. -/
def inOrder (f : RingFrame) (l : RingLink) : RingLink := { l with rxAck := f.seq, dataDue := l.dataDue + unitsOf f.length }

theorem sequenced_next (htype : f.type = 3) (hseq : f.seq = (s.link x).rxAck + 1) :
    (s.frameTaken x f).sequenced x f = (s.frameTaken x f).modLink x (inOrder f) := by
  unfold State.sequenced State.relayed
  dsimp only
  rw [frameTaken_link, if_pos (show f.seq = (takeCredits f.crData f.crCtl (s.link x)).rxAck + 1 from hseq), htype]
  rfl

theorem sequenced_other (hseq : f.seq ≠ (s.link x).rxAck + 1) :
    (s.frameTaken x f).sequenced x f = (s.frameTaken x f).modLink x (fun l => { l with sendNak := true }) := by
  unfold State.sequenced
  dsimp only
  rw [frameTaken_link]
  exact if_neg hseq

end

/-- A link whose LINK frame has gone out. -/
def answered (l : RingLink) : RingLink :=
  { l with dataFreed := l.dataFreed + BitVec.ofNat 12 l.dataDue, ctlFreed := l.ctlFreed + BitVec.ofNat 8 l.ctlDue
           dataDue := 0, ctlDue := 0, sendNak := false }

/-- The answer to a frame: its link, the count of received frames, and what it leaves. -/
theorem linkAnswer_frameTaken (s : State) (x : RingPort) (f : RingFrame) (g : RingLink → RingLink) :
    let t := ((s.frameTaken x.val f).modLink x.val g).linkAnswer x.val
    (t.link x.val).rxAck = (g (takeCredits f.crData f.crCtl (s.link x.val))).rxAck ∧ (t.link x.val).dataDue = 0 ∧ (t.link x.val).sendNak = false ∧
    t.rd rngFramesRx x.val = (s.rd rngFramesRx x.val + 1) % 2 ^ 64 ∧ (∀ y, y ≠ x.val → t.link y = s.link y) ∧ t.chans = s.chans := by
  have hlink : (((s.frameTaken x.val f).modLink x.val g).linkAnswer x.val).link x.val =
      answered (g (takeCredits f.crData f.crCtl (s.link x.val))) := by
    rw [State.linkAnswer, State.bump_link, State.modLink_link_self, State.modLink_link_self, frameTaken_link]
    rfl
  refine ⟨?_, ?_, ?_, ?_, fun y hy => ?_, rfl⟩
  · rw [hlink]
    rfl
  · rw [hlink]
    rfl
  · rw [hlink]
    rfl
  · rw [State.linkAnswer, State.rd_bump_ne _ (RegDesc.key_ne_of_step rngFramesRx rngFramesTx x.val), State.modLink_rd, State.modLink_rd, State.frameTaken, State.modLink_rd]
    exact State.rd_bump_self ..
  · rw [State.linkAnswer, State.bump_link, State.modLink_link_ne _ _ hy, State.modLink_link_ne _ _ hy, State.frameTaken, State.modLink_link_ne _ _ hy,
      State.bump_link]

/-! #### Retraining and heartbeats -/

section
variable {s : State} {x : RingPort}

theorem ringRetrain_idle (h : (within s.now (ms 1) (s.link x.val).replays).length < 16) : ringRetrain x.val s = s := if_neg (by omega)

/-- A link that retrains. -/
def State.retrained (s : State) (x : Nat) : State :=
  (((s.wr rngPortLinkUp 0 x).wr rngPortLock 0 x).modLink x (fun l => { l with retraining := true, replays := [] })).bump rngRetrains x

theorem ringRetrain_due (h : 16 ≤ (within s.now (ms 1) (s.link x.val).replays).length) : ringRetrain x.val s = s.retrained x.val := if_pos h

theorem retrained_rd : (s.retrained x.val).rd rngPortLinkUp x.val = 0 ∧ (s.retrained x.val).rd rngPortLock x.val = 0 ∧
    (s.retrained x.val).rd rngRetrains x.val = (s.rd rngRetrains x.val + 1) % 2 ^ 64 := by
  have hup := RegDesc.key_ne_of_step rngRetrains rngPortLinkUp x.val
  have hlock := RegDesc.key_ne_of_step rngRetrains rngPortLock x.val
  have hboth := RegDesc.key_ne_of_step rngPortLinkUp rngPortLock x.val
  unfold State.retrained
  refine ⟨?_, ?_, ?_⟩
  · rw [State.rd_bump_ne _ hup.symm, State.modLink_rd, State.rd_wr_ne _ _ hboth]
    exact State.rd_wr_self ..
  · rw [State.rd_bump_ne _ hlock.symm, State.modLink_rd]
    exact State.rd_wr_self ..
  · rw [State.rd_bump_self, State.modLink_rd, State.rd_wr_ne _ _ hlock, State.rd_wr_ne _ _ hup]
    rfl

theorem retrained_link : (s.retrained x.val).link x.val = { s.link x.val with retraining := true, replays := [] } := by
  rw [State.retrained, State.bump_link, State.modLink_link_self]
  rfl

end

section
variable {s : State} {h : HeartbeatMsg} {x : Nat}

theorem hbOut_up (hup : s.flag rngPortLinkUp x = true) : s.hbOut h x = (s.modLink x (fun l => { l with heartbeat := some h })).bump rngFramesTx x :=
  if_pos hup

theorem hbOut_link_self (hup : s.flag rngPortLinkUp x = true) : ((s.hbOut h x).link x).heartbeat = some h := by
  rw [hbOut_up hup, State.bump_link, State.modLink_link_self]

/-- A heartbeat that goes out leaves what a port's sending leaves. -/
theorem hbOut_sent (s : State) (h : HeartbeatMsg) {xs : List Nat} (hx : x ∈ xs) : Sent xs s (s.hbOut h x) := by
  unfold State.hbOut
  split
  · exact ((Sent.refl xs s).modLink hx _).bumpTx hx
  · exact Sent.refl xs s

theorem heartbeatSend_idle (h : s.inserted = false ∨ s.ring.live = false ∨ s.now < s.ring.hbNextAt) : heartbeatSend s = s := by
  refine if_neg ?_
  obtain h | h | h := h <;> simp [h]

/-- Both ports have sent the member's heartbeat. -/
def State.hbBoth (s : State) : State := (s.hbOut s.ownHeartbeat 0).hbOut s.ownHeartbeat 1

theorem heartbeatSend_due (hin : s.inserted = true) (hl : s.ring.live = true) (hd : s.ring.hbNextAt ≤ s.now) : heartbeatSend s =
    { s.hbBoth with ring := { s.hbBoth.ring with hbCount := s.ring.hbCount + 1, hbNextAt := s.now + us 250 } } :=
  if_pos (by simp [hin, hl, hd])

theorem hbBoth_sent (s : State) : Sent [0, 1] s s.hbBoth := by
  have h0 := hbOut_sent s s.ownHeartbeat (x := 0) (xs := [0, 1]) (by decide)
  have h1 := hbOut_sent (s.hbOut s.ownHeartbeat 0) s.ownHeartbeat (x := 1) (xs := [0, 1]) (by decide)
  refine ⟨?_, fun y hy => (h1.link y hy).trans (h0.link y hy), fun d i j hd => (h1.rd d i j hd).trans (h0.rd d i j hd)⟩
  rw [State.hbBoth, h1.frame, h0.frame]

theorem hbBoth_link (h0 : s.flag rngPortLinkUp 0 = true) (h1 : s.flag rngPortLinkUp 1 = true) :
    (s.hbBoth.link 0).heartbeat = some s.ownHeartbeat ∧ (s.hbBoth.link 1).heartbeat = some s.ownHeartbeat := by
  have hsent := hbOut_sent s s.ownHeartbeat (x := 0) (xs := [0]) (by decide)
  have hup : (s.hbOut s.ownHeartbeat 0).flag rngPortLinkUp 1 = true := by
    rw [State.flag, hsent.rd _ _ _ (by decide)]
    exact h1
  constructor
  · rw [State.hbBoth, (hbOut_sent _ _ (x := 1) (xs := [1]) (by decide)).link 0 (by decide), hbOut_link_self h0]
  · rw [State.hbBoth, hbOut_link_self hup]

end

/-! #### A neighbour's heartbeat and identity -/

/-- The places of a port's neighbour are none of the counts that the other port's sending moves. -/
theorem adjPos_sent_apart : ∀ x : RingPort, ∀ y ∈ [1 - x.val],
    (rngPortAdjPos.key x.val 0 ≠ rngFramesTx.key y 0 ∧ rngPortAdjPos.key x.val 0 ≠ rngCreditStall.key y 0) ∧
    (rngPosDown.key 0 0 ≠ rngFramesTx.key y 0 ∧ rngPosDown.key 0 0 ≠ rngCreditStall.key y 0) ∧
    (rngPosUp.key 0 0 ≠ rngFramesTx.key y 0 ∧ rngPosUp.key 0 0 ≠ rngCreditStall.key y 0) := by decide

theorem linkUp_adjacent_apart : ∀ x : RingPort, rngPortLinkUp.key (1 - x.val) 0 ≠ rngPortAdjPos.key x.val 0 ∧
    rngPortLinkUp.key (1 - x.val) 0 ≠ rngPosDown.key 0 0 ∧ rngPortLinkUp.key (1 - x.val) 0 ≠ rngPosUp.key 0 0 := by decide

theorem adjPos_apart : ∀ x : RingPort, rngPaired.key 0 0 ≠ rngPortAdjPos.key x.val 0 ∧ rngPosOwn.key 0 0 ≠ rngPortAdjPos.key x.val 0 := by decide

section
variable {s : State} {x : RingPort} {pos : Nat}

theorem adjacent_unpaired (h : s.flag rngPaired = false) : s.adjacent x.val pos =
    if x.val = 0 then (s.wr rngPortAdjPos pos x.val).wr rngPosDown pos else (s.wr rngPortAdjPos pos x.val).wr rngPosUp pos := by
  unfold State.adjacent
  dsimp only
  rw [h]
  exact if_neg Bool.false_ne_true

variable (h : s.flag rngPaired = false)
include h

theorem adjacent_onlyRegs : OnlyRegs s (s.adjacent x.val pos) := by
  rw [adjacent_unpaired h]
  split
  · exact ((OnlyRegs.refl s).wr _ _ _ _).wr _ _ _ _
  · exact ((OnlyRegs.refl s).wr _ _ _ _).wr _ _ _ _

theorem adjacent_rd_ne {d : RegDesc} {i j : Nat} (ha : d.key i j ≠ rngPortAdjPos.key x.val 0) (hd : d.key i j ≠ rngPosDown.key 0 0)
    (hu : d.key i j ≠ rngPosUp.key 0 0) : (s.adjacent x.val pos).rd d i j = s.rd d i j := by
  rw [adjacent_unpaired h]
  split
  · exact (State.rd_wr_ne _ _ hd).trans (State.rd_wr_ne _ _ ha)
  · exact (State.rd_wr_ne _ _ hu).trans (State.rd_wr_ne _ _ ha)

theorem adjacent_rd (hpos : pos < 8) : (s.adjacent x.val pos).rd rngPortAdjPos x.val = pos ∧
    (x.val = 0 → (s.adjacent x.val pos).rd rngPosDown = pos) ∧ (x.val = 1 → (s.adjacent x.val pos).rd rngPosUp = pos) := by
  have hmod : pos % 2 ^ 4 = pos := Nat.mod_eq_of_lt (by omega)
  have hadj : (s.wr rngPortAdjPos pos x.val).rd rngPortAdjPos x.val = pos := (State.rd_wr_self ..).trans hmod
  rw [adjacent_unpaired h]
  refine ⟨?_, fun hx => ?_, fun hx => ?_⟩
  · split
    · rw [State.rd_wr_ne _ _ (by clear hadj; revert x; decide), hadj]
    · rw [State.rd_wr_ne _ _ (by clear hadj; revert x; decide), hadj]
  · rw [if_pos hx]
    exact (State.rd_wr_self ..).trans hmod
  · rw [if_neg (by omega)]
    exact (State.rd_wr_self ..).trans hmod

/-- A neighbour's own heartbeat at a member without a pairing: its place is noted, and it goes on at the other port. -/
theorem heartbeat_noted {m : HeartbeatMsg} (hup : s.flag rngPortLinkUp x.val = true) (hhops : m.hops = 0) (hsrc : m.srcPos ≠ s.rd rngPosOwn) :
    heartbeat x.val m s = (s.adjacent x.val m.srcPos).hbOut { m with hops := 1 } (1 - x.val) := by
  have hp : (s.adjacent x.val m.srcPos).flag rngPaired = false := by
    rw [State.flag, adjacent_rd_ne h (adjPos_apart x).1 (by decide) (by decide)]
    exact h
  have hown : (s.adjacent x.val m.srcPos).rd rngPosOwn = s.rd rngPosOwn :=
    adjacent_rd_ne h (adjPos_apart x).2 (by decide) (by decide)
  unfold heartbeat
  dsimp only
  rw [if_neg (by simp [hup]), if_pos hhops, hp, Bool.false_and, Bool.false_and, if_neg Bool.false_ne_true, hown, hhops]
  exact if_pos (by simp [hsrc])

end

theorem identity_paired {s : State} {x : Nat} {i : IdentityMsg} (hup : s.flag rngPortLinkUp x = true) (hp : s.flag rngPaired = true)
    (hpos : i.pos ≠ s.rd rngPosOwn) : identity x i s = (s.modLink x (fun l => { l with ident := some i })).invRebuild := by
  have hp1 : (s.modLink x (fun l => { l with ident := some i })).flag rngPaired = true := hp
  unfold identity
  dsimp only
  rw [if_neg (by simp [hup]), hp1, if_pos rfl]
  exact if_neg (by simp [hpos])

/-! #### Liveness -/

section
variable {s : State}

theorem livenessRefresh_idle (h : s.sup.restarting = true ∨ s.served = false ∨ s.pwr.domainsOff ≠ [] ∨ s.pwr.sysLost = true ∨ s.pwr.ethLost = true) :
    livenessRefresh s = s := by
  refine if_pos ?_
  obtain h | h | h | h | h := h
  · simp [h]
  · simp [h]
  · have hoff : s.pwr.domainsOff.isEmpty = false := by simpa using h
    simp [hoff]
  · simp [h]
  · simp [h]

/-- Liveness stands anew. -/
def State.refreshed (s : State) : State := { s with ring := { s.ring with live := true, liveAt := s.now } }

theorem livenessRefresh_stands (hr : s.sup.restarting = false) (hs : s.served = true) (ho : s.pwr.domainsOff = []) (hsys : s.pwr.sysLost = false)
    (heth : s.pwr.ethLost = false) : livenessRefresh s = if s.ring.fenced && !s.flag rngPaired
    then (if s.refreshed.resumeMedia.rd rngState = 4 then s.refreshed.resumeMedia.wr rngState 0 else s.refreshed.resumeMedia) else s.refreshed :=
  if_neg (by simp [hr, hs, ho, hsys, heth])

theorem livenessFailure_idle (h : s.ring.live = false ∨ s.livenessOver = false) : livenessFailure s = s := by
  refine if_neg ?_
  obtain h | h := h <;> simp [h]

theorem livenessFailure_fences (hl : s.ring.live = true) (ho : s.livenessOver = true) : livenessFailure s = s.selfFence := if_pos (by simp [hl, ho])

theorem selfFence_rest : s.selfFence.engines = s.engines ∧ s.selfFence.mem = s.mem := by
  simp [State.selfFence, State.bypass, State.dropLink]

/-- What the closing of the switches writes. -/
theorem bypass_rd (st : Nat) (hst : st < 8) : (s.bypass st).rd rngState = st ∧ (s.bypass st).rd rngBypass = 1 ∧ (s.bypass st).rd rngPortLinkUp 0 = 0 ∧
    (s.bypass st).rd rngPortLinkUp 1 = 0 := by
  unfold State.bypass
  refine ⟨(State.rd_wr_self ..).trans (Nat.mod_eq_of_lt hst), ?_, ?_, ?_⟩
  · rw [State.rd_wr_ne _ _ (by decide)]
    exact State.rd_wr_self ..
  · rw [State.rd_wr_ne _ _ (by decide), State.rd_wr_ne _ _ (by decide), dropLink_rd_ne _ _ (by decide) (by decide) (by decide)]
    exact (dropLink_rd s 0).1
  · rw [State.rd_wr_ne _ _ (by decide), State.rd_wr_ne _ _ (by decide)]
    exact (dropLink_rd (s.dropLink 0) 1).1

theorem selfFence_rd : s.selfFence.rd rngState = 4 ∧ s.selfFence.rd rngBypass = 1 ∧ s.selfFence.rd rngPortLinkUp 0 = 0 ∧
    s.selfFence.rd rngPortLinkUp 1 = 0 := by
  have hkeep : ∀ (d : RegDesc) (i : Nat), d.key i 0 ≠ rngUpState.key 0 0 → s.selfFence.rd d i = (s.bypass 4).rd d i := fun _ _ h => State.rd_wr_ne _ _ h
  rw [hkeep _ _ (by decide), hkeep _ _ (by decide), hkeep _ _ (by decide), hkeep _ _ (by decide)]
  exact bypass_rd 4 (by decide)

end

/-! #### The rows -/

theorem ringInsertTimeout_idle {s : State} (h : s.rd rngState ≠ 2 ∨ s.ring.insertAt = none) : ringInsertTimeout s = s := by
  refine if_neg ?_
  obtain h | h := h <;> simp [h]

theorem waited_iff (a m now : Nat) : (decide (2 = 2) && (some a).any (fun t => decide (t + m ≤ now))) = true ↔ a + m ≤ now := by simp

/-- The switches close on a member that has not trained in time. -/
theorem ringInsertTimeout_at {s : State} {a : Nat} (hs : s.rd rngState = 2) (ha : s.ring.insertAt = some a) : ringInsertTimeout s =
    if a + ms 10 ≤ s.now then (let s1 := (s.bypass 0).wr rngInsert 0
      State.raise { s1 with ring := { s1.ring with insertAt := none } } 0x0051 uRNG 0 0xFFFF (s.rd rngPosOwn)) else s := by
  unfold ringInsertTimeout
  rw [hs, ha]
  exact if_congr (waited_iff a (ms 10) s.now) rfl rfl

/-- Settles O59: each row by what its function does in the case. What a port sends changes its own link and its counts (`Sent`), so the fields
of a link that has trained stand as the training wrote them. -/
theorem ringLinkRows : Obligations.RingLinkRows := by
  refine ⟨?_, ?_, ?_, ?_, ?_, ?_, ?_, ?_, ?_, ?_, ?_, ?_, ?_, ?_⟩
  · refine fun w v s => ⟨fun h => congrArg Host.Outcome.next (ringInsert_ignored h), fun hg hw => ⟨fun hpos => ?_, fun hpos hst => ?_, fun hpos h0 h4 => ?_⟩⟩
    · exact congrArg Host.Outcome.next ((if_neg (insert_guard hg hw)).trans (if_pos (by simp [hpos])))
    · refine congrArg Host.Outcome.next ((if_neg (insert_guard hg hw)).trans ((if_neg (by simp [hpos])).trans (if_pos ?_)))
      obtain hst | hst := hst <;> simp [hst]
    · exact congrArg Host.Outcome.next ((if_neg (insert_guard hg hw)).trans ((if_neg (by simp [hpos])).trans (if_neg (by simp [h0, h4]))))
  · intro s
    obtain ⟨hlink, hchans, hengines⟩ := tryInsert_frame s.tapped
    obtain ⟨hlock0, hlock1⟩ := tapped_locks s
    refine gives_next (show exec .tapBlockLock s = .next s.tapped.tryInsert from rfl) ⟨?_, ?_, hchans, hengines, fun hs hl => ?_, fun hs => ?_⟩
    · rw [hlink, hlock0]
    · rw [hlink, hlock1]
    · rw [tryInsert_opens (s := s.tapped) hs (tapped_tapsLocked s) hl]
      refine ⟨State.rd_wr_self .., ?_, rfl⟩
      rw [State.rd_wr_ne _ _ (by decide)]
      exact State.rd_wr_self ..
    · rw [tryInsert_waits (s := s.tapped) hs]
      rfl
  · intro s
    refine ⟨fun h => congrArg Host.Outcome.next (ringInsertTimeout_idle h), fun a hs ha => ⟨fun hlt => ?_, fun hle => ?_⟩⟩
    · exact congrArg Host.Outcome.next ((ringInsertTimeout_at hs ha).trans (if_neg (Nat.not_le.mpr hlt)))
    · exact congrArg Host.Outcome.next ((ringInsertTimeout_at hs ha).trans (if_pos hle))
  · intro x s
    obtain ⟨hchans, hengines⟩ := ringTrained_frame s x
    refine ⟨fun h => congrArg Host.Outcome.next (ringLinkTrained_bypassed h), fun h hs => ?_, fun h hs hup => ?_⟩
    · refine gives_next (congrArg Host.Outcome.next ((ringLinkTrained_open h).trans (if_neg ?_)))
        ⟨ringTrained_up s x, ringTrained_lock s x, fun y hy => ringTrained_link s x hy, hchans, hengines, ringTrained_state s x⟩
      simp [ringTrained_state, hs]
    · obtain ⟨h0, h1⟩ := ringTrained_both hup
      obtain ⟨hchans2, hengines2⟩ := nowInserted_frame (s.ringTrained x.val)
      refine gives_next (congrArg Host.Outcome.next ((ringLinkTrained_open h).trans (if_pos ?_)))
        ⟨(nowInserted_up _ x).trans (ringTrained_up s x), nowInserted_state _, nowInserted_insertAt _, hchans2.trans hchans, hengines2.trans hengines⟩
      simp [ringTrained_state, hs, h0, h1]
  · intro x s h
    obtain ⟨hup, hlock, hadj⟩ := dropLink_rd s x
    obtain ⟨hself, hother⟩ := dropLink_link s x.val
    refine gives_next (congrArg Host.Outcome.next (ringLinkDown_out h)) ⟨?_, ?_, ?_, ?_, fun y hy => ?_, invRebuild_chans _, invRebuild_engines _⟩
    · rw [invRebuild_rd_ne _ (by clear hup hlock hadj hself hother; revert x; decide), hup]
    · rw [invRebuild_rd_ne _ (by clear hup hlock hadj hself hother; revert x; decide), hlock]
    · rw [invRebuild_rd_ne _ (by clear hup hlock hadj hself hother; revert x; decide), hadj]
    · rw [invRebuild_link, hself]
    · rw [invRebuild_link, hother y hy]
  · exact fun x s h => congrArg Host.Outcome.next (ringLinkDown_in h)
  · intro x f s
    refine ⟨fun h => congrArg Host.Outcome.next (linkFrame_down h), fun h hc => congrArg Host.Outcome.next (linkFrame_badCrc h hc),
      fun hup hcrc hnak htype hun hw hsend => ⟨fun hseq => ?_, fun hseq => ?_⟩⟩
    · obtain ⟨hack, hdue, hanswer, hcount, hother, hchans⟩ := linkAnswer_frameTaken s x f (inOrder f)
      refine gives_next (congrArg Host.Outcome.next (linkFrame_body hup hcrc hnak htype hun hw hsend (sequenced_next htype hseq) fun l => ?_))
        ⟨hack, hdue, hanswer, hcount, hother, hchans⟩
      have hdata : ((inOrder f l).dataDue != 0) = true := by
        have := unitsOf_pos f.length
        simp [inOrder, this]
      rw [hdata, Bool.or_true, Bool.true_or]
    · obtain ⟨hack, -, -, hcount, hother, hchans⟩ := linkAnswer_frameTaken s x f (fun l => { l with sendNak := true })
      exact gives_next (congrArg Host.Outcome.next (linkFrame_body hup hcrc hnak htype hun hw hsend (sequenced_other hseq) fun _ => rfl))
        ⟨hack, hcount, hother, hchans⟩
  · refine fun x s => ⟨fun h => congrArg Host.Outcome.next (ringRetrain_idle h), fun h => ?_⟩
    obtain ⟨hup, hlock, hcount⟩ := retrained_rd (s := s) (x := x)
    refine gives_next (congrArg Host.Outcome.next (ringRetrain_due h)) ⟨hup, hlock, ?_, ?_, hcount, rfl⟩
    · rw [retrained_link]
    · rw [retrained_link]
  · exact fun s => rfl
  · refine fun s => ⟨fun h => congrArg Host.Outcome.next (heartbeatSend_idle h), fun hin hl hd h0 h1 => ?_⟩
    obtain ⟨hb0, hb1⟩ := hbBoth_link h0 h1
    have hframe := (hbBoth_sent s).frame
    refine gives_next (congrArg Host.Outcome.next (heartbeatSend_due hin hl hd)) ⟨hb0, hb1, rfl, rfl, ?_⟩
    generalize s.hbBoth = u at *
    rw [hframe]
  · refine fun x m s => ⟨fun h => congrArg Host.Outcome.next (if_pos (by simp [h])), fun hup hp hhops hsrc hlt _ => ?_⟩
    have hsent := hbOut_sent (s.adjacent x.val m.srcPos) { m with hops := 1 } (x := 1 - x.val) (xs := [1 - x.val]) List.mem_cons_self
    have hregs := adjacent_onlyRegs (x := x) (pos := m.srcPos) hp
    obtain ⟨hadj, hdown, hupper⟩ := adjacent_rd (x := x) hp hlt
    refine gives_next (congrArg Host.Outcome.next (heartbeat_noted hp hup hhops hsrc)) ⟨?_, fun hx => ?_, fun hx => ?_, fun ho => hbOut_link_self ?_, ?_, ?_⟩
    · rw [hsent.rd _ _ _ fun y hy => (adjPos_sent_apart x y hy).1, hadj]
    · rw [hsent.rd _ _ _ fun y hy => (adjPos_sent_apart x y hy).2.1, hdown hx]
    · rw [hsent.rd _ _ _ fun y hy => (adjPos_sent_apart x y hy).2.2, hupper hx]
    · obtain ⟨ha, hd, hu⟩ := linkUp_adjacent_apart x
      rw [State.flag, adjacent_rd_ne hp ha hd hu]
      exact ho
    · rw [hsent.chans]
      exact (congrArg State.chans hregs :)
    · rw [hsent.mem]
      exact (congrArg State.mem hregs :)
  · refine fun x i s => ⟨fun h => congrArg Host.Outcome.next (if_pos (by simp [h])), fun hup hp hpos => ?_⟩
    refine gives_next (congrArg Host.Outcome.next (identity_paired hup hp hpos)) ⟨?_, fun y hy => ?_, ?_, ?_, invRebuild_chans _⟩
    · rw [invRebuild_link, State.modLink_link_self]
    · rw [invRebuild_link, State.modLink_link_ne _ _ hy]
    · exact invRebuild_rd_ne _ (by decide)
    · exact invRebuild_rd_ne _ (by decide)
  · intro s
    refine ⟨fun h => congrArg Host.Outcome.next (livenessRefresh_idle h), fun hr hs ho hsys heth hf hp => ?_, fun hr hs ho hsys heth h => ?_⟩
    · exact congrArg Host.Outcome.next ((livenessRefresh_stands hr hs ho hsys heth).trans (if_pos (by simp [hf, hp])))
    · refine congrArg Host.Outcome.next ((livenessRefresh_stands hr hs ho hsys heth).trans (if_neg ?_))
      obtain h | h := h <;> simp [h]
  · refine fun s => ⟨fun h => congrArg Host.Outcome.next (livenessFailure_idle h), fun hl ho => ?_⟩
    obtain ⟨hlive, hfenced⟩ := selfFence_ring s
    obtain ⟨hstate, hbypass, hup0, hup1⟩ := selfFence_rd (s := s)
    obtain ⟨-, hchans, hports⟩ := selfFence_frame s
    obtain ⟨hengines, hmem⟩ := selfFence_rest (s := s)
    exact gives_next (congrArg Host.Outcome.next (livenessFailure_fences hl ho)) ⟨hlive, hfenced, hstate, hbypass, hup0, hup1, hchans, hengines, hports, hmem⟩

end Sys2Proof.Machine
end

section
/-! ### Pairing and mirrored bodies -/
namespace Sys2Proof.Machine
open Sys2Proof.Safety

/-! #### MIRROR_PAIR -/

section
variable {c : HostCmd} {s : State} {hf hc uf uc : Nat}

/-- The ranges that a MIRROR_PAIR names. -/
structure PairRanges (c : HostCmd) (hf hc uf uc : Nat) : Prop where
  homeFirst : bits c.w1.toNat 0 16 = hf
  homeCount : bits c.w1.toNat 32 1 * 65536 + bits c.w1.toNat 16 16 = hc
  upFirst : bits c.w3.toNat 0 16 = uf
  upCount : bits c.w3.toNat 32 1 * 65536 + bits c.w3.toNat 16 16 = uc

/-- The live channels lie outside the HOME range. -/
def State.liveOutside (s : State) (hf hc : Nat) : Bool := (liveChans s).any (fun e => !(decide (hf ≤ e.1) && decide (e.1 < hf + hc)))

/-- A neighbour's interface epoch differs. -/
def State.epochsDiffer (s : State) : Bool := [0, 1].any (fun x => (s.link x).ident.any (fun i => i.epoch != s.rd supImgIfInForce))

/-- What MIRROR_PAIR checks, in order. -/
def pairChecks (s : State) (hf hc uf uc : Nat) : List Check :=
  [(decide (hf + hc > 65536), stBAD_PARAM, 10), (decide (uf + uc > 65536), stBAD_PARAM, 26), (decide (hf < uf + uc) && decide (uf < hf + hc), stBAD_PARAM, 24),
    (s.posConflict, stBAD_STATE, 0), (s.liveOutside hf hc && !(decide (hc = 0) && decide (uc = 0)), stBAD_STATE, 0), (s.ring.offerCmd.isSome, stBUSY, 0),
    (s.epochsDiffer && !(decide (hc = 0) && decide (uc = 0)), stINCOMPATIBLE, 0)]

/-- The offer of a pairing under way, before it goes out. -/
def State.offering (s t : State) (c : HostCmd) (hf hc uf uc : Nat) : State :=
  let t1 := (t.draw.newToken).setRanges (hf, hc, uf, uc)
  { t1 with
    ring := { t1.ring with offerAt := some t1.now, offerTok := t1.ring.token, offerCmd := some (c.qid.val, c.tag.toNat)
                           offerOld := (s.rd rngHomeFirst, s.rd rngHomeCount, s.rd rngUpFirst, s.rd rngUpCount) }
    sup := { t1.sup with vault := { t1.sup.vault with ephemeral := some (Config.freeNat t.freeCtr) } } }

variable (hr : PairRanges c hf hc uf uc)
include hr

theorem applyPair_eq : applyPair c s = match firstFail (pairChecks s hf hc uf uc) with
    | some (st, d) => .refuse st d
    | none =>
      if (decide (hc = 0) && decide (uc = 0)) = true then .done s.unpair (s.rd rngPosDown) (s.rd rngPosUp)
      else match s.reserveUp uf uc with
      | none => .refuse stNO_RESOURCE 0
      | some t => .later (((s.offering t c hf hc uf uc).sendTo ((s.offering t c hf hc uf uc).rd rngPosDown)
          (.pairOffer hf hc (s.offering t c hf hc uf uc).ring.offerTok (Config.publicKey (Config.freeNat t.freeCtr)))).answerOffer) := by
  obtain ⟨rfl, rfl, rfl, rfl⟩ := hr
  rfl

theorem applyPair_homeBeyond (h : 65536 < hf + hc) : applyPair c s = .refuse stBAD_PARAM 10 := by
  rw [applyPair_eq hr, pairChecks]
  simp [h]

theorem applyPair_upBeyond (h : hf + hc ≤ 65536) (hu : 65536 < uf + uc) : applyPair c s = .refuse stBAD_PARAM 26 := by
  rw [applyPair_eq hr, pairChecks]
  simp [hu, Nat.not_lt.mpr h]

theorem applyPair_overlap (h : hf + hc ≤ 65536) (hu : uf + uc ≤ 65536) (h1 : hf < uf + uc) (h2 : uf < hf + hc) :
    applyPair c s = .refuse stBAD_PARAM 24 := by
  rw [applyPair_eq hr, pairChecks]
  simp [Nat.not_lt.mpr h, Nat.not_lt.mpr hu, h1, h2]

theorem applyPair_dissolves (hlt : hf < 65536) (hlu : uf < 65536) (hh : hc = 0) (hu : uc = 0) (hpos : s.posConflict = false) (ho : s.ring.offerCmd = none) :
    applyPair c s = .done s.unpair (s.rd rngPosDown) (s.rd rngPosUp) := by
  have hchecks : firstFail (pairChecks s hf hc uf uc) = none := by
    have hbh : decide (hf + hc > 65536) = false := decide_eq_false (by omega)
    have hbu : decide (uf + uc > 65536) = false := decide_eq_false (by omega)
    have hlap : (decide (hf < uf + uc) && decide (uf < hf + hc)) = false := by simp; omega
    have hdis : (decide (hc = 0) && decide (uc = 0)) = true := by simp [hh, hu]
    rw [pairChecks, hbh, hbu, hlap, hdis, hpos, ho]
    simp
  rw [applyPair_eq hr, hchecks]
  exact if_pos (by simp [hh, hu])

theorem applyPair_offers {u : State} (hh : hf + hc ≤ 65536) (hu : uf + uc ≤ 65536) (hapart : uf + uc ≤ hf ∨ hf + hc ≤ uf) (hsome : hc ≠ 0 ∨ uc ≠ 0)
    (hpos : s.posConflict = false) (hlive : ∀ e ∈ liveChans s, hf ≤ e.1 ∧ e.1 < hf + hc) (ho : s.ring.offerCmd = none) (h0 : (s.link 0).ident = none)
    (h1 : (s.link 1).ident = none) (hres : s.reserveUp uf uc = some u) :
    applyPair c s = .later (((s.offering u c hf hc uf uc).sendTo ((s.offering u c hf hc uf uc).rd rngPosDown)
      (.pairOffer hf hc (s.offering u c hf hc uf uc).ring.offerTok (Config.publicKey (Config.freeNat u.freeCtr)))).answerOffer) := by
  have hout : s.liveOutside hf hc = false := List.any_eq_false.mpr fun e he => by simp [hlive e he]
  have hdiffer : s.epochsDiffer = false := by simp [State.epochsDiffer, h0, h1]
  have hchecks : firstFail (pairChecks s hf hc uf uc) = none := by
    have hbh : decide (hf + hc > 65536) = false := decide_eq_false (by omega)
    have hbu : decide (uf + uc > 65536) = false := decide_eq_false (by omega)
    have hlap : (decide (hf < uf + uc) && decide (uf < hf + hc)) = false := by simp; omega
    rw [pairChecks, hbh, hbu, hlap, hpos, ho, hout, hdiffer]
    simp
  rw [applyPair_eq hr, hchecks]
  dsimp only
  rw [if_neg (by simp; omega), hres]

end

/-! #### What reserving, offering and answering leave -/

/-- Reserving frames changes the frame map alone. -/
theorem reserveUp_frame {s u : State} {first count : Nat} (h : s.reserveUp first count = some u) : u = { s with mem := u.mem } := by
  have hstep : ∀ (t : State) (f : Nat) (v : State), t = { s with mem := t.mem } →
      (if (tget t.mem.frameMap f none).isSome then some t else t.allocFrame f 0 0) = some v → v = { s with mem := v.mem } := by
    intro t f v ht hv
    split at hv
    · injection hv with hv
      exact hv ▸ ht
    · obtain ⟨p, -, rfl⟩ := Option.map_eq_some_iff.mp hv
      rw [ht]
  have hfold : ∀ (l : List Nat) (o : Option State), (∀ t, o = some t → t = { s with mem := t.mem }) → ∀ v,
      l.foldl (fun (o : Option State) f => o.bind (fun t => if (tget t.mem.frameMap f none).isSome then some t else t.allocFrame f 0 0)) o = some v →
        v = { s with mem := v.mem } := by
    intro l
    induction l with
    | nil => exact fun o ho v hv => ho v hv
    | cons f r ih =>
      refine fun o ho v hv => ih _ (fun t ht => ?_) v hv
      obtain ⟨t0, ht0, ht⟩ := Option.bind_eq_some_iff.mp ht
      exact hstep t0 f t (ho t0 ht0) ht
  unfold State.reserveUp at h
  split at h
  · injection h with h
    exact h ▸ rfl
  · exact hfold _ _ (fun t ht => Option.some.inj ht ▸ rfl) u h

theorem answerOffer_held {s : State} {first count : Nat} {token : Word32} {pub : List Byte} {since : Nat}
    (h : s.ring.heldOffer = some (first, count, token, pub, since)) : s.answerOffer =
    if (decide (s.now ≤ since + sec 1) && decide (first = s.rd rngUpFirst) && decide (count = s.rd rngUpCount)) = true then
      let s2 := { s.draw with ring := { s.ring with heldOffer := none }
                              sup := { s.sup with vault := { s.sup.vault with upKey := some (Config.pairingSecret (Config.freeNat s.freeCtr) pub) } } }
      s2.sendTo (s2.rd rngPosUp) (.pairConfirm 0 token (Config.publicKey (Config.freeNat s.freeCtr)))
    else s := by
  unfold State.answerOffer
  rw [h]
  rfl

/-- What an answer to an offer leaves. -/
theorem answerOffer_keeps {β : Type} {g : State → β} (hanswer : ∀ (u : State) (k : Option Nat),
      g { u.draw with ring := { u.ring with heldOffer := none }, sup := { u.sup with vault := { u.sup.vault with upKey := k } } } = g u)
    (hsent : ∀ u t, Sent [0, 1] u t → g t = g u) (s : State) : g s.answerOffer = g s := by
  match hheld : s.ring.heldOffer with
  | none =>
    unfold State.answerOffer
    rw [hheld]
  | some (first, count, token, pub, since) =>
    rw [answerOffer_held hheld]
    split
    · exact (hsent _ _ ((Sent.refl _ _).sendTo _ _)).trans (hanswer s _)
    · rfl

/-- The ranges of a pairing are no counts of a port. -/
theorem ranges_sent_apart : ∀ y ∈ [0, 1], (rngHomeFirst.key 0 0 ≠ rngFramesTx.key y 0 ∧ rngHomeFirst.key 0 0 ≠ rngCreditStall.key y 0) ∧
    (rngUpFirst.key 0 0 ≠ rngFramesTx.key y 0 ∧ rngUpFirst.key 0 0 ≠ rngCreditStall.key y 0) := by decide

theorem setRanges_rd (s : State) (r : Nat × Nat × Nat × Nat) : (s.setRanges r).rd rngHomeFirst = r.1 % 2 ^ 16 ∧ (s.setRanges r).rd rngUpFirst = r.2.2.1 % 2 ^ 16 := by
  unfold State.setRanges
  constructor
  · rw [State.rd_wr_ne _ _ (by decide), State.rd_wr_ne _ _ (by decide), State.rd_wr_ne _ _ (by decide)]
    exact State.rd_wr_self ..
  · rw [State.rd_wr_ne _ _ (by decide)]
    exact State.rd_wr_self ..

/-- What sending keeps and an answer keeps, an offer that goes out and is answered in passing keeps. -/
theorem offered_keeps {β : Type} {g : State → β} (hanswer : ∀ (u : State) (k : Option Nat),
      g { u.draw with ring := { u.ring with heldOffer := none }, sup := { u.sup with vault := { u.sup.vault with upKey := k } } } = g u)
    (hsent : ∀ u t, Sent [0, 1] u t → g t = g u) (s : State) (dst : Nat) (m : RingMsg) : g (s.sendTo dst m).answerOffer = g s :=
  (answerOffer_keeps hanswer hsent _).trans (hsent _ _ ((Sent.refl _ _).sendTo _ _))

section
variable {s u : State} {c : HostCmd} {hf hc uf uc : Nat}

theorem offering_rd (hh : hf < 65536) (hu : uf < 65536) : (s.offering u c hf hc uf uc).rd rngHomeFirst = hf ∧ (s.offering u c hf hc uf uc).rd rngUpFirst = uf := by
  obtain ⟨hfirst, hup⟩ := setRanges_rd u.draw.newToken (hf, hc, uf, uc)
  exact ⟨hfirst.trans (Nat.mod_eq_of_lt hh), hup.trans (Nat.mod_eq_of_lt hu)⟩

theorem offering_ring (hu : u = { s with mem := u.mem }) : (s.offering u c hf hc uf uc).ring.offerCmd = some (c.qid.val, c.tag.toNat) ∧
    (s.offering u c hf hc uf uc).ring.offerAt = some s.now ∧ (s.offering u c hf hc uf uc).ring.offerTok = s.ring.token + 1 ∧
    (s.offering u c hf hc uf uc).chans = s.chans := by
  rw [hu]
  exact ⟨rfl, rfl, rfl, rfl⟩

end

/-! #### An offer arrives -/

section
variable {s : State} {first count : Nat} {token : Word32} {pub : List Byte}

theorem pairOffer_out (h : s.inserted = false) : pairOffer first count token pub s = s := if_neg (by simp [h])

theorem pairOffer_in (h : s.inserted = true) :
    pairOffer first count token pub s = State.answerOffer { s with ring := { s.ring with heldOffer := some (first, count, token, pub, s.now) } } :=
  if_pos h

theorem pairOffer_otherRange (h : s.inserted = true) (hf : first ≠ s.rd rngUpFirst) :
    pairOffer first count token pub s = { s with ring := { s.ring with heldOffer := some (first, count, token, pub, s.now) } } := by
  rw [pairOffer_in h, answerOffer_held rfl]
  refine if_neg fun hall => hf ?_
  simp only [Bool.and_eq_true, decide_eq_true_eq] at hall
  exact hall.1.2

/-- The state with an offer answered, before the confirmation goes out. -/
def State.confirmed (s : State) (pub : List Byte) : State :=
  { s.draw with ring := { s.ring with heldOffer := none }
                sup := { s.sup with vault := { s.sup.vault with upKey := some (Config.pairingSecret (Config.freeNat s.freeCtr) pub) } } }

theorem pairOffer_confirmed (h : s.inserted = true) (hf : first = s.rd rngUpFirst) (hc : count = s.rd rngUpCount) :
    pairOffer first count token pub s = (s.confirmed pub).sendTo ((s.confirmed pub).rd rngPosUp)
      (.pairConfirm 0 token (Config.publicKey (Config.freeNat s.freeCtr))) := by
  have hguard : (decide (s.now ≤ s.now + sec 1) && decide (first = s.rd rngUpFirst) && decide (count = s.rd rngUpCount)) = true := by
    rw [decide_eq_true (Nat.le_add_right s.now (sec 1)), decide_eq_true hf, decide_eq_true hc]
    rfl
  rw [pairOffer_in h, answerOffer_held rfl]
  exact (if_pos hguard).trans rfl

end

/-! #### Bodies -/

section
variable {s : State} {b : DeltaBody}

theorem delta_kept (hin : s.inserted = true) (hup : s.inUp b.ch.val = true) : delta b s = s.commitBody b := if_pos (by simp [hin, hup])

theorem delta_ignored (h : s.inserted = false ∨ s.inUp b.ch.val = false) : delta b s = s := by
  refine if_neg ?_
  obtain h | h := h <;> simp [h]

theorem sync_out (h : s.inserted = false) : sync b s = s := if_pos (by simp [h])

theorem sync_kept (hin : s.inserted = true) (hup : s.inUp b.ch.val = true) : sync b s = s.commitBody b :=
  (if_neg (by simp [hin])).trans (if_pos hup)

theorem sync_returned (hin : s.inserted = true) (hup : s.inUp b.ch.val = false) : sync b s =
    if (s.chan b.ch.val).ctx.lost = true ∧ (s.chan b.ch.val).st ≠ .free then s.ctxBack b.ch.val (restoreCtx (s.tbVal (s.chan b.ch.val).tb) b) else s := by
  refine (if_neg (by simp [hin])).trans ((if_neg (by simp [hup])).trans (if_congr ?_ rfl rfl))
  simp

/-- A body is kept as the mirror's, over what is held, where its key is above the one held. -/
theorem commitBody_spec (s : State) (b : DeltaBody) : ((s.mir b.ch.val).delta = none → ((s.commitBody b).mir b.ch.val).delta = some b) ∧
    (∀ old, (s.mir b.ch.val).delta = some old → ((s.commitBody b).mir b.ch.val).delta = some (if bodyKey old < bodyKey b then mergeBody old b else old)) ∧
    (∀ m, m ≠ b.ch.val → (s.commitBody b).mir m = s.mir m) ∧ s.commitBody b = { s with ring := (s.commitBody b).ring } := by
  unfold State.commitBody
  dsimp only
  match hheld : (s.mir b.ch.val).delta with
  | none =>
    refine ⟨fun _ => ?_, fun _ h => (by cases h), fun m hm => ?_, rfl⟩
    · simp [State.mir, State.setMir]
    · simp [State.mir, State.setMir, hm]
  | some old =>
    refine ⟨fun h => (by cases h), fun o ho => ?_, fun m hm => ?_, ?_⟩
    · injection ho with ho
      subst ho
      dsimp only
      split
      · simp [State.mir, State.setMir]
      · exact hheld
    · dsimp only
      split
      · simp [State.mir, State.setMir, hm]
      · rfl
    · dsimp only
      split <;> rfl

end

section
variable {s : State} {b : SettingsBody}

theorem settings_ignored (h : s.inserted = false ∨ s.inUp b.ch.val = false) : settings b s = s := by
  refine if_pos ?_
  obtain h | h := h <;> simp [h]

theorem settings_judged (hin : s.inserted = true) (hup : s.inUp b.ch.val = true) : settings b s =
    match unwrapGroups s.sup.vault.upKey (b.groups.length + 1) b.groups with
    | none => s.raise 0x0052 uRNG 1 b.ch.val (s.rd rngPosUp)
    | some plain =>
      if b.state = 0 then s.dropMirror b.ch.val else
      match s.installMirror b.ch.val { b with groups := plain } with
      | some t => t.setMir b.ch.val { s.mir b.ch.val with settings := some { b with groups := plain }, adoptable := true }
      | none => (s.setMir b.ch.val { s.mir b.ch.val with settings := some { b with groups := plain }, adoptable := false }).raise
          0x0054 uRNG 1 b.ch.val (s.rd rngPosUp) := by
  refine (if_neg (by simp [hin, hup])).trans ?_
  rfl

end

end Sys2Proof.Machine
end

section
/-! ### Mirrors kept in step, failover and the return of a member -/
namespace Sys2Proof.Machine
open Sys2Proof.Safety

/-- A time `m` after `a` has come. -/
theorem any_waited_iff (a m now : Nat) : (some a).any (fun t => decide (t + m ≤ now)) = true ↔ a + m ≤ now := by simp

/-! #### The offer of a pairing ends -/

section
variable {s : State} {status : Nat} {token : Word32} {pub : List Byte}

theorem pairConfirm_stray (h : s.ring.offerAt = none ∨ token ≠ s.ring.offerTok) : pairConfirm status token pub s = s := by
  refine if_pos ?_
  obtain h | h := h <;> simp [h]

theorem pairConfirm_own (ho : s.ring.offerAt ≠ none) (ht : token = s.ring.offerTok) : pairConfirm status token pub s =
    if status = 0 then (s.pairInForce pub).offerEnds stOK (s.rd rngPosDown) (s.rd rngPosUp) else ((s.setRanges s.ring.offerOld).releaseUp).offerEnds status 0 0 :=
  if_neg (by simp [ho, ht])

theorem pairOfferTimeout_idle (h : s.ring.offerAt = none) : pairOfferTimeout s = s := if_neg (by simp [h])

theorem pairOfferTimeout_at {a : Nat} (h : s.ring.offerAt = some a) : pairOfferTimeout s =
    if a + sec 1 ≤ s.now then ((s.setRanges s.ring.offerOld).releaseUp).offerEnds stTIMEOUT 0 0 else s := by
  unfold pairOfferTimeout
  rw [h]
  exact if_congr (any_waited_iff a (sec 1) s.now) rfl rfl

end

/-! #### Bodies sent and late -/

section
variable {s : State} {ch : Nat}

theorem settingsAckTimeout_idle (h : (s.hm ch).settingsAt = none) : settingsAckTimeout ch s = s := by
  unfold settingsAckTimeout
  rw [h]

theorem settingsAckTimeout_at {a : Nat} (h : (s.hm ch).settingsAt = some a) : settingsAckTimeout ch s =
    if a + ms 1 ≤ s.now then ((s.modHm ch (fun h => { h with settingsAt := none })).raise 0x0053 uRNG 0 ch (s.rd rngPosDown)).settingsDone ch else s := by
  unfold settingsAckTimeout
  rw [h]

theorem deltaSend_idle (h : (s.hm ch).queued = none ∨ s.mirrored ch = false) : deltaSend ch s = s := by
  unfold deltaSend
  split
  · rfl
  · next b hb =>
    obtain h | h := h
    · rw [h] at hb
      cases hb
    · exact if_neg (by simp [h])

theorem deltaSend_sends {b : DeltaBody} (hq : (s.hm ch).queued = some b) (hin : s.inserted = true) (hm : s.mirrored ch = true)
    (hroom : s.bodyRoom (deltaLen b) = true) : deltaSend ch s =
    ((s.modHm ch (fun h => { h with queued := none })).ringSend 0 (s.rd rngPosDown) (.delta b (s.hm ch).queuedAt)).bump rngDeltasTx := by
  unfold deltaSend
  rw [hq]
  exact if_pos (by simp [hin, hm, hroom])

theorem syncSend_idle (h : (s.hm ch).syncWant = false ∨ s.now < s.ring.syncNextAt) : syncSend ch s = s := by
  refine if_neg ?_
  obtain h | h := h
  · simp [h]
  · simp [Nat.not_le.mpr h]

/-- A home channel's SETTINGS and its whole body have gone out. -/
def State.synced (s : State) (ch : Nat) : State :=
  let s1 := (s.sendSettings ch).modHm ch (fun h => { h with syncWant := false, settingsAt := (s.hm ch).settingsAt })
  (s1.ringSend 0 (s.rd rngPosDown) (.sync (s.deltaOf ch true) s.now)).bumpBy rngSyncBytes (deltaLen (s.deltaOf ch true))

theorem syncSend_sends (hin : s.inserted = true) (hm : s.mirrored ch = true) (hw : (s.hm ch).syncWant = true) (ht : s.ring.syncNextAt ≤ s.now)
    (hroom : s.bodyRoom (deltaLen (s.deltaOf ch true)) = true) : syncSend ch s =
    { s.synced ch with ring := { (s.synced ch).ring with syncNextAt := s.now + deltaLen (s.deltaOf ch true) / s.rd rngSyncRate } } :=
  if_pos (by simp [hin, hm, hw, ht, hroom])

/-- What sending, the book of home mirrors, the vault's counter and the count of bytes leave, the sending of a home channel leaves. -/
theorem synced_keeps {β : Type} {g : State → β} (hsent : ∀ u t, Sent [0] u t → g t = g u) (hhm : ∀ (u : State) ch f, g (u.modHm ch f) = g u)
    (hwrap : ∀ (u : State) n, g { u with sup := { u.sup with vault := { u.sup.vault with wrapCounter := n } } } = g u)
    (hcount : ∀ (u : State) n, g (u.bumpBy rngSyncBytes n) = g u) (s : State) (ch : Nat) : g (s.synced ch) = g s := by
  have hsend : ∀ (u : State) dst m, g (u.ringSend 0 dst m) = g u := fun u dst m =>
    hsent _ _ ((Sent.refl [0] u).ringSend List.mem_cons_self dst m)
  unfold State.synced State.sendSettings
  dsimp only
  rw [hcount, hsend, hhm, hwrap, hhm, hsend]

theorem mirrorLagCheck_idle (h : s.flag rngPaired = false ∨ s.now < s.ring.lagAt) : mirrorLagCheck s = s := by
  refine if_pos ?_
  obtain h | h := h <;> simp [h]

theorem mirrorLagCheck_due (hp : s.flag rngPaired = true) (ht : s.ring.lagAt ≤ s.now) : mirrorLagCheck s =
    let u : State := { s with ring := { s.ring with lagAt := s.now + sec 1 } }
    if s.stale = 0 then u else u.raise 0x0055 uRNG 0 0xFFFF (s.rd rngPosDown) 0 s.stale :=
  if_neg (by simp [hp, Nat.not_lt.mpr ht])

theorem ctxRequest_idle (h : s.inserted = false ∨ s.inUp ch = false ∨ (s.mir ch).delta = none) : ctxRequest ch s = s := by
  unfold ctxRequest
  split
  · next hin =>
    rw [Bool.and_eq_true] at hin
    obtain ⟨hin, hup⟩ := hin
    have hnone : (s.mir ch).delta = none := by simpa [hin, hup] using h
    rw [hnone]
  · rfl

theorem ctxRequest_answered {b : DeltaBody} (hin : s.inserted = true) (hup : s.inUp ch = true) (hd : (s.mir ch).delta = some b) :
    ctxRequest ch s = s.ringSend 1 (s.rd rngPosUp) (.sync b s.now) := by
  refine (if_pos (by simp [hin, hup])).trans ?_
  rw [hd]

end

/-! #### Suspicion -/

section
variable {s : State}

theorem upstreamSilence_idle (h : s.rd rngUpState ≠ 1 ∨ s.now < s.ring.upSeenAt + ms 3) : upstreamSilence s = s := by
  refine if_neg ?_
  obtain h | h := h
  · simp [h]
  · simp [Nat.not_le.mpr h]

/-- The upstream member is SUSPECT, the query's token drawn. -/
def State.suspecting (s : State) : State :=
  let s1 := ((s.wr rngUpState 2).bump rngSuspects).newToken
  { s1 with ring := { s1.ring with queryTok := s1.ring.token } }

/-- The query has gone out on both ports. -/
def State.queried (s : State) : State := s.suspecting.sendBoth (s.rd rngPosUp) (.fenceQuery s.suspecting.ring.queryTok)

theorem queried_sent (s : State) : Sent [0, 1] s.suspecting s.queried := (Sent.refl _ _).sendBoth _ _

theorem upstreamSilence_queries (hp : s.flag rngPaired = true) (hin : s.inserted = true) (hu : s.rd rngUpState = 1)
    (ht : s.ring.upSeenAt + ms 3 ≤ s.now) (ha : s.flag rngAutoTake = true) (hf : s.firstProof = true) : upstreamSilence s = s.queried := by
  have hdue : (s.flag rngPaired && s.inserted && decide (s.rd rngUpState = 1) && decide (s.ring.upSeenAt + ms 3 ≤ s.now)) = true := by
    rw [hp, hin, decide_eq_true hu, decide_eq_true ht]
    rfl
  exact (if_pos hdue).trans (if_pos (by rw [ha, hf]; rfl))

/-- UP_STATE and the count of suspects are no counts of a port. -/
theorem upState_sent_apart : ∀ y ∈ [0, 1], (rngUpState.key 0 0 ≠ rngFramesTx.key y 0 ∧ rngUpState.key 0 0 ≠ rngCreditStall.key y 0) ∧
    (rngSuspects.key 0 0 ≠ rngFramesTx.key y 0 ∧ rngSuspects.key 0 0 ≠ rngCreditStall.key y 0) := by decide

theorem queried_rd : s.queried.rd rngUpState = 2 ∧ s.queried.rd rngSuspects = (s.rd rngSuspects + 1) % 2 ^ 64 := by
  have hsent := queried_sent s
  rw [hsent.rd _ _ _ fun y hy => (upState_sent_apart y hy).1, hsent.rd _ _ _ fun y hy => (upState_sent_apart y hy).2]
  constructor
  · exact (State.rd_bump_ne (s.wr rngUpState 2) (by decide)).trans (State.rd_wr_self ..)
  · refine (State.rd_bump_self (s.wr rngUpState 2) ..).trans ?_
    rw [State.rd_wr_ne _ _ (by decide)]
    rfl

end

/-! #### Adoption -/

section
variable {s : State}

theorem adoption_idle (h : s.rd rngUpState ≠ 2 ∨ s.flag rngAutoTake = false) : adoption s = s := by
  refine if_neg ?_
  obtain h | h := h <;> simp [h]

theorem adoption_adopts (hp : s.flag rngPaired = true) (hin : s.inserted = true) (hu : s.rd rngUpState = 2) (ha : s.flag rngAutoTake = true)
    (hf : s.firstProof = true) (hd : s.adopt.ring.demandCmd = none) : adoption s = s.adopt := by
  refine (if_pos (by simp [hp, hin, hu, ha, hf])).trans (if_neg ?_)
  rw [hd]
  exact Bool.false_ne_true

theorem announce_nothing (h : s.chans = []) : s.announce = s := by
  unfold State.announce State.adoptedAddrs liveChans
  rw [h]
  rfl

/-- The counts of an adoption that finds no mirror. -/
def State.adoptedNone (s : State) : State :=
  (((s.replan.bump rngAdoptions).bumpBy rngAdoptedChannels 0).bumpBy rngNotAdopted 0).wr rngUpState 5

/-- The adoption of a member without a mirror. -/
theorem adopt_nothing (hm : s.ring.mirror = []) (hc : s.chans = []) (hl : s.ing.lat = []) : s.adopt =
    { s.adoptedNone with ring := { s.ring with mirror := [], adoptedCount := 0, announceAt := [s.now + ms 20, s.now + ms 40] } } := by
  have hlat : s.replan.ing.lat = [] := hl
  unfold State.adopt
  rw [hm]
  dsimp only [List.filter_nil, List.foldl_nil, List.length_nil, Nat.sub_self]
  rw [hlat, List.filter_nil, List.foldl_nil, announce_nothing (s := s.replan) hc]
  rfl

theorem adoptedNone_rd : s.adoptedNone.rd rngUpState = 5 ∧ s.adoptedNone.rd rngAdoptions = (s.rd rngAdoptions + 1) % 2 ^ 64 := by
  unfold State.adoptedNone
  constructor
  · exact State.rd_wr_self ..
  · rw [State.rd_wr_ne _ _ (by decide), rd_bumpBy_ne _ _ (by decide), rd_bumpBy_ne _ _ (by decide), State.rd_bump_self,
      State.replan, State.rd_wr_ne _ _ (by decide)]
    rfl

theorem adoptedNone_chans (s : State) : s.adoptedNone.chans = s.chans := by simp [State.adoptedNone, State.replan]

theorem adopt_nothing_spec (hm : s.ring.mirror = []) (hc : s.chans = []) (hl : s.ing.lat = []) : s.adopt.rd rngUpState = 5 ∧
    s.adopt.rd rngAdoptions = (s.rd rngAdoptions + 1) % 2 ^ 64 ∧ s.adopt.ring.adoptedCount = 0 ∧
    s.adopt.ring.announceAt = [s.now + ms 20, s.now + ms 40] ∧ s.adopt.chans = s.chans ∧ s.adopt.ring.demandCmd = s.ring.demandCmd := by
  obtain ⟨hstate, hcount⟩ := adoptedNone_rd (s := s)
  have hchans := adoptedNone_chans s
  rw [adopt_nothing hm hc hl]
  generalize s.adoptedNone = u at *
  exact ⟨hstate, hcount, rfl, rfl, hchans, rfl⟩

theorem announcementRepeat_none (h : s.ring.announceAt = []) : announcementRepeat s = s := by
  unfold announcementRepeat
  rw [h]

theorem announcementRepeat_at {a : Nat} {r : List Nat} (h : s.ring.announceAt = a :: r) : announcementRepeat s =
    if a ≤ s.now then State.announce { s with ring := { s.ring with announceAt := r } } else s := by
  unfold announcementRepeat
  rw [h]

end

/-! #### Queries, demands and their answers -/

section
variable {s : State} {src : Nat} {token : Word32}

theorem fencing_silent (h : s.inserted = false ∨ s.ring.live = false) : fenceQuery src token s = s ∧ fenceDemand src token s = s ∧ resumeQuery src token s = s := by
  have hout : (s.inserted && s.ring.live) = false := by simpa only [Bool.and_eq_false_iff] using h
  have hguard : (!s.inserted || !s.ring.live) = true := by
    rw [← Bool.not_and, hout]
    rfl
  exact ⟨if_neg (by simp [hout]), if_pos hguard, if_pos hguard⟩

section
variable (hin : s.inserted = true) (hl : s.ring.live = true)
include hin hl

theorem fenceQuery_answered : fenceQuery src token s = s.sendTo src (.fenceAnswer 0 token) := if_pos (by simp [hin, hl])

theorem fenceDemand_answered : fenceDemand src token s =
    if s.flag rngYieldOnDemand = true then (s.sendTo src (.fenceAnswer 1 token)).selfFence else s.sendTo src (.fenceAnswer 2 token) :=
  if_neg (by simp [hin, hl])

theorem resumeQuery_adopted (hs : src = s.rd rngPosUp) (hu : s.rd rngUpState = 5) : resumeQuery src token s = s.sendTo src (.resumeAnswer true token) :=
  (if_neg (by simp [hin, hl])).trans (if_pos (by simp [hs, hu]))

theorem resumeQuery_upstream (hs : src = s.rd rngPosUp) (hu : s.rd rngUpState ≠ 5) : resumeQuery src token s =
    (State.holdOver { s with ring := { s.ring with upSeenAt := s.now } }).sendTo src (.resumeAnswer false token) := by
  refine (if_neg (by simp [hin, hl])).trans ((if_neg (by simp [hu])).trans ?_)
  dsimp only
  rw [if_pos hs]

theorem resumeQuery_other (hs : src ≠ s.rd rngPosUp) : resumeQuery src token s = s.sendTo src (.resumeAnswer false token) := by
  refine (if_neg (by simp [hin, hl])).trans ((if_neg (by simp [hs])).trans ?_)
  dsimp only
  rw [if_neg hs]

end

theorem fenceAnswer_queried {status : FenceStatus} (h : s.ring.demandAt = none) : fenceAnswer status token s =
    if status = .alive ∧ token = s.ring.queryTok then s.upAlive else s := by
  refine (if_neg (by simp [h])).trans (if_congr ?_ rfl rfl)
  simp

theorem fenceAnswer_demanded {status : FenceStatus} (h : s.ring.demandAt ≠ none) (ht : token = s.ring.demandTok) : fenceAnswer status token s =
    match status with
    | .released => s.adopt.demandEnds stOK s.adopt.ring.adoptedCount
    | .alive => s.upAlive.demandEnds stDENIED 0
    | .refused => s.demandEnds stDENIED 0 := by
  refine (if_pos (by simp [ht, Option.isSome_iff_ne_none.mpr h])).trans ?_
  cases status <;> rfl

theorem fenceDemandTimeout_idle (h : s.ring.demandAt = none) : fenceDemandTimeout s = s := if_neg (by simp [h])

theorem fenceDemandTimeout_at {a : Nat} (h : s.ring.demandAt = some a) : fenceDemandTimeout s =
    if a + ms 2 ≤ s.now then (if s.inserted = true then s.adopt.demandEnds stOK s.adopt.ring.adoptedCount else s.demandEnds stBAD_STATE 0) else s := by
  unfold fenceDemandTimeout
  rw [h]
  exact if_congr (any_waited_iff a (ms 2) s.now) rfl rfl

end

/-! #### FAILOVER_TAKE -/

section
variable {c : HostCmd} {s : State}

theorem applyTake_badState (h : s.flag rngPaired = false ∨ bits c.w1.toNat 0 3 ≠ s.rd rngPosUp ∨ s.inserted = false) :
    applyTake c s = .refuse stBAD_STATE 0 := by
  refine if_pos ?_
  obtain h | h | h := h <;> simp [h]

/-- A demand under way, before it goes out. -/
def State.demanding (s : State) (c : HostCmd) : State :=
  let s1 := s.newToken
  { s1 with ring := { s1.ring with demandAt := some s1.now, demandTok := s1.ring.token, demandCmd := some (c.qid.val, c.tag.toNat) } }

theorem applyTake_upstream (hp : s.flag rngPaired = true) (hpos : bits c.w1.toNat 0 3 = s.rd rngPosUp) (hin : s.inserted = true) : applyTake c s =
    if s.rd rngUpState = 5 then .done s s.ring.adoptedCount 0
    else if s.rd rngUpState = 3 then .refuse stDENIED 0
    else if s.ring.demandAt.isSome = true then .refuse stBUSY 0
    else .later ((s.demanding c).sendTo (s.rd rngPosUp) (.fenceDemand (s.demanding c).ring.demandTok)) :=
  if_neg (by simp [hp, hpos, hin])

end

/-! #### HOLD and the return -/

section
variable {s : State} {src maxS : Nat}

theorem hold_ignored (h : src ≠ s.rd rngPosUp ∨ s.inserted = false ∨ s.flag rngPaired = false ∨ s.rd rngUpState = 5) : hold src maxS s = s := by
  refine if_neg ?_
  obtain h | h | h | h := h <;> simp [h]

theorem hold_taken (hs : src = s.rd rngPosUp) (hin : s.inserted = true) (hp : s.flag rngPaired = true) (hu : s.rd rngUpState ≠ 5) : hold src maxS s =
    let u := State.wr { s with ring := { s.ring with holdUntil := some (s.now + sec maxS) } } rngUpState 3
    if s.ring.demandAt.isSome = true then u.demandEnds stDENIED 0 else u :=
  if_pos (by simp [hs, hin, hp, hu])

theorem holdOver_spec (s : State) : s.holdOver.ring.holdUntil = none ∧ (s.rd rngUpState = 3 → s.holdOver.rd rngUpState = 1) ∧
    s.holdOver = { s with ring := s.holdOver.ring, regs := s.holdOver.regs } := by
  unfold State.holdOver
  dsimp only
  split
  · exact ⟨rfl, fun _ => State.rd_wr_self .., rfl⟩
  · next h => exact ⟨rfl, fun h3 => absurd h3 h, rfl⟩

theorem holdExpiry_waits (h : ∀ a, s.ring.holdUntil = some a → s.now < a) : holdExpiry s = s := by
  refine if_neg fun hdue => ?_
  match ha : s.ring.holdUntil with
  | none => simp [ha] at hdue
  | some a =>
    have hle : a ≤ s.now := by simpa [ha] using hdue
    exact absurd (h a ha) (Nat.not_lt.mpr hle)

theorem holdExpiry_due {a : Nat} (ha : s.ring.holdUntil = some a) (hle : a ≤ s.now) : holdExpiry s = s.holdOver := if_pos (by simp [ha, hle])

theorem resumeAnswer_stray {b : Bool} (h : s.ring.resumeWait = false) : resumeAnswer b s = s := if_pos (by simp [h])

theorem resumeAnswer_awaited {b : Bool} (h : s.ring.resumeWait = true) : resumeAnswer b s =
    if b = true then (((s.chans.filter (fun e => e.2.st != .free && s.mirrored e.1)).foldl (fun (s : State) e => s.freeQuietly e.1) s).replan).resumeMedia
    else s.resumeMedia :=
  if_neg (by simp [h])

/-- A restart that held no media back resumes none. -/
theorem resumeMedia_nothing (h : s.img.warmHold = false) : s.resumeMedia =
    { s with ring := { s.ring with fenced := false, resumeWait := false, holdSent := false }, img := { s.img with warmHold := false } } :=
  if_neg (by simp [h])

end

/-! #### The rows -/

/-- Settles O60: each row by what its function does in the case. A message sent changes the links of the ring and their counts alone (`Sent`), so
the fields that a row names stand as the row wrote them; an adoption without a mirror finds nothing to make live. -/
theorem mirrorAndFailoverRows : Obligations.MirrorAndFailoverRows := by
  refine ⟨?_, ?_, ?_, ?_, ?_, ?_, ?_, ?_, ?_, ?_, ?_, ?_, ?_, ?_, ?_, ?_, ?_, ?_, ?_, ?_, ?_⟩
  · intro c s hf hc uf uc hruns
    have hr : PairRanges c hf hc uf uc := ⟨rfl, rfl, rfl, rfl⟩
    have hlh : hf < 65536 := bits_lt ..
    have hlu : uf < 65536 := bits_lt ..
    clear_value hf hc uf uc
    refine ⟨fun h => next_refuse hruns (applyPair_homeBeyond hr h), fun h hu => next_refuse hruns (applyPair_upBeyond hr h hu),
      fun h hu h1 h2 => next_refuse hruns (applyPair_overlap hr h hu h1 h2),
      fun h0 h1 hpos ho => next_done hruns (applyPair_dissolves hr hlh hlu h0 h1 hpos ho), fun u hh hu hapart hsome hpos hlive ho hi0 hi1 hres => ?_⟩
    obtain ⟨hhome, hup⟩ := offering_rd (s := s) (u := u) (c := c) (hc := hc) (uc := uc) hlh hlu
    obtain ⟨hcmd, hat, htok, hchans⟩ := offering_ring (c := c) (hf := hf) (hc := hc) (uf := uf) (uc := uc) (reserveUp_frame hres)
    refine gives_next (next_later hruns (applyPair_offers hr hh hu hapart hsome hpos hlive ho hi0 hi1 hres)) ⟨?_, ?_, ?_, ?_, ?_, ?_⟩
    · exact (offered_keeps (g := fun t => t.rd rngHomeFirst) (fun _ _ => rfl)
        (fun _ _ ht => ht.rd _ _ _ fun y hy => (ranges_sent_apart y hy).1) _ _ _).trans hhome
    · exact (offered_keeps (g := fun t => t.rd rngUpFirst) (fun _ _ => rfl)
        (fun _ _ ht => ht.rd _ _ _ fun y hy => (ranges_sent_apart y hy).2) _ _ _).trans hup
    · exact (offered_keeps (g := fun t => t.ring.offerCmd) (fun _ _ => rfl) (fun _ _ ht => (congrArg RingSt.offerCmd ht.ring :)) _ _ _).trans hcmd
    · exact (offered_keeps (g := fun t => t.ring.offerAt) (fun _ _ => rfl) (fun _ _ ht => (congrArg RingSt.offerAt ht.ring :)) _ _ _).trans hat
    · exact (offered_keeps (g := fun t => t.ring.offerTok) (fun _ _ => rfl) (fun _ _ ht => (congrArg RingSt.offerTok ht.ring :)) _ _ _).trans htok
    · exact (offered_keeps (g := State.chans) (fun _ _ => rfl) (fun _ _ ht => ht.chans) _ _ _).trans hchans
  · intro status token pub s
    refine ⟨fun h => congrArg Host.Outcome.next (pairConfirm_stray h), fun ho ht => ⟨fun h => ?_, fun h => ?_⟩⟩
    · exact congrArg Host.Outcome.next ((pairConfirm_own ho ht).trans (if_pos h))
    · exact congrArg Host.Outcome.next ((pairConfirm_own ho ht).trans (if_neg h))
  · intro s
    refine ⟨fun h => congrArg Host.Outcome.next (pairOfferTimeout_idle h), fun a ha => ⟨fun hlt => ?_, fun hle => ?_⟩⟩
    · exact congrArg Host.Outcome.next ((pairOfferTimeout_at ha).trans (if_neg (Nat.not_le.mpr hlt)))
    · exact congrArg Host.Outcome.next ((pairOfferTimeout_at ha).trans (if_pos hle))
  · intro first count token pub s
    refine ⟨fun h => congrArg Host.Outcome.next (pairOffer_out h), fun h hf => congrArg Host.Outcome.next (pairOffer_otherRange h hf), fun h hf hc => ?_⟩
    have hsent : Sent [0, 1] (s.confirmed pub) ((s.confirmed pub).sendTo ((s.confirmed pub).rd rngPosUp)
      (.pairConfirm 0 token (Config.publicKey (Config.freeNat s.freeCtr)))) := (Sent.refl _ _).sendTo _ _
    refine gives_next (congrArg Host.Outcome.next (pairOffer_confirmed h hf hc)) ⟨?_, hsent.freeCtr, ?_, hsent.chans, hsent.mem⟩
    · exact (congrArg RingSt.heldOffer hsent.ring :)
    · rw [hsent.sup]
      rfl
  · intro b s
    refine ⟨fun h => ⟨congrArg Host.Outcome.next (delta_ignored (.inl h)), congrArg Host.Outcome.next (sync_out h)⟩,
      fun h => congrArg Host.Outcome.next (delta_ignored (.inr h)), fun hin hup => congrArg Host.Outcome.next (sync_returned hin hup), fun hin hup => ?_⟩
    exact gives_next (congrArg Host.Outcome.next (delta_kept hin hup)) ⟨congrArg Host.Outcome.next (sync_kept hin hup), commitBody_spec s b⟩
  · intro b s ch
    refine ⟨fun h => congrArg Host.Outcome.next (settings_ignored h), fun hin hup => ⟨fun hw => ?_, fun plain hw => ⟨fun h0 => ?_, fun h0 t ht => ?_, fun h0 ht => ?_⟩⟩⟩
    · refine congrArg Host.Outcome.next ((settings_judged hin hup).trans ?_)
      rw [hw]
    · refine congrArg Host.Outcome.next ((settings_judged hin hup).trans ?_)
      rw [hw]
      exact if_pos h0
    · refine congrArg Host.Outcome.next ((settings_judged hin hup).trans ?_)
      rw [hw]
      refine (if_neg h0).trans ?_
      rw [ht]
    · refine congrArg Host.Outcome.next ((settings_judged hin hup).trans ?_)
      rw [hw]
      refine (if_neg h0).trans ?_
      rw [ht]
  · intro ch s
    refine ⟨fun h => congrArg Host.Outcome.next (settingsAckTimeout_idle h), fun a ha => ⟨fun hlt => ?_, fun hle => ?_⟩⟩
    · exact congrArg Host.Outcome.next ((settingsAckTimeout_at ha).trans (if_neg (Nat.not_le.mpr hlt)))
    · exact congrArg Host.Outcome.next ((settingsAckTimeout_at ha).trans (if_pos hle))
  · intro ch s
    refine ⟨fun h => congrArg Host.Outcome.next (deltaSend_idle h), fun b hq hin hm hroom => congrArg Host.Outcome.next (deltaSend_sends hq hin hm hroom),
      fun h => congrArg Host.Outcome.next (syncSend_idle h), fun hin hm hw ht hroom => ?_⟩
    refine gives_next (congrArg Host.Outcome.next (syncSend_sends hin hm hw ht hroom)) ⟨rfl, ?_, ?_, ?_⟩
    · exact synced_keeps (g := State.chans) (fun _ _ h => h.chans) (fun _ _ _ => rfl) (fun _ _ => rfl) (fun _ _ => rfl) s ch.val
    · exact synced_keeps (g := State.mem) (fun _ _ h => h.mem) (fun _ _ _ => rfl) (fun _ _ => rfl) (fun _ _ => rfl) s ch.val
    · exact synced_keeps (g := State.engines) (fun _ _ h => h.engines) (fun _ _ _ => rfl) (fun _ _ => rfl) (fun _ _ => rfl) s ch.val
  · exact fun s => ⟨fun h => congrArg Host.Outcome.next (mirrorLagCheck_idle h), fun hp ht => congrArg Host.Outcome.next (mirrorLagCheck_due hp ht)⟩
  · exact fun ch token s => ⟨fun h => congrArg Host.Outcome.next (ctxRequest_idle h),
      fun b hin hup hd => congrArg Host.Outcome.next (ctxRequest_answered hin hup hd)⟩
  · refine fun s => ⟨fun h => congrArg Host.Outcome.next (upstreamSilence_idle h), fun hp hin hu ht ha hf => ?_⟩
    obtain ⟨hstate, hcount⟩ := queried_rd (s := s)
    have hsent := queried_sent s
    exact gives_next (congrArg Host.Outcome.next (upstreamSilence_queries hp hin hu ht ha hf))
      ⟨hstate, hcount, (congrArg RingSt.queryTok hsent.ring :), hsent.chans, hsent.mem⟩
  · refine fun s => ⟨fun h => congrArg Host.Outcome.next (adoption_idle h), fun hp hin hu ha hf hm hd hc hl => ?_⟩
    obtain ⟨hstate, hcount, hadopted, hannounce, hchans, hcmd⟩ := adopt_nothing_spec hm hc hl
    exact gives_next (congrArg Host.Outcome.next (adoption_adopts hp hin hu ha hf (hcmd.trans hd))) ⟨hstate, hcount, hadopted, hannounce, hchans⟩
  · exact fun s h => congrArg Host.Outcome.next (announcementRepeat_none h)
  · intro a r s h
    refine ⟨fun hlt => ?_, fun hle => ?_⟩
    · exact congrArg Host.Outcome.next ((announcementRepeat_at h).trans (if_neg (Nat.not_le.mpr hlt)))
    · exact congrArg Host.Outcome.next ((announcementRepeat_at h).trans (if_pos hle))
  · intro src token s
    refine ⟨fun h => ?_, fun hin hl => ⟨congrArg Host.Outcome.next (fenceQuery_answered hin hl), fun hy => ?_, fun hy => ?_,
      fun hs => congrArg Host.Outcome.next (resumeQuery_other hin hl hs), fun hs hu => congrArg Host.Outcome.next (resumeQuery_upstream hin hl hs hu),
      fun hs hu => congrArg Host.Outcome.next (resumeQuery_adopted hin hl hs hu)⟩⟩
    · obtain ⟨hquery, hdemand, hresume⟩ := fencing_silent (src := src) (token := token) h
      exact ⟨congrArg Host.Outcome.next hquery, congrArg Host.Outcome.next hdemand, congrArg Host.Outcome.next hresume⟩
    · exact congrArg Host.Outcome.next ((fenceDemand_answered hin hl).trans (if_pos hy))
    · exact congrArg Host.Outcome.next ((fenceDemand_answered hin hl).trans (if_neg (by simp [hy])))
  · intro status token s
    refine ⟨fun h hstray => ?_, fun h ht => ?_, fun h ht => ⟨congrArg Host.Outcome.next (fenceAnswer_demanded h ht),
      congrArg Host.Outcome.next (fenceAnswer_demanded h ht), congrArg Host.Outcome.next (fenceAnswer_demanded h ht)⟩⟩
    · refine congrArg Host.Outcome.next ((fenceAnswer_queried h).trans (if_neg fun hboth => ?_))
      obtain ⟨halive, htok⟩ := hboth
      exact hstray.elim (absurd halive) (absurd htok)
    · exact congrArg Host.Outcome.next ((fenceAnswer_queried h).trans (if_pos ⟨rfl, ht⟩))
  · intro s
    refine ⟨fun h => congrArg Host.Outcome.next (fenceDemandTimeout_idle h), fun a ha => ⟨fun hlt => ?_, fun hle => ⟨fun hin => ?_, fun hin => ?_⟩⟩⟩
    · exact congrArg Host.Outcome.next ((fenceDemandTimeout_at ha).trans (if_neg (Nat.not_le.mpr hlt)))
    · exact congrArg Host.Outcome.next ((fenceDemandTimeout_at ha).trans ((if_pos hle).trans (if_pos hin)))
    · exact congrArg Host.Outcome.next ((fenceDemandTimeout_at ha).trans ((if_pos hle).trans (if_neg (by simp [hin]))))
  · intro c s hruns
    refine ⟨fun h => next_refuse hruns (applyTake_badState h), fun hp hpos hin => ⟨fun h5 => ?_, fun h3 => ?_, fun h5 h3 hd => ?_, fun h5 h3 hd => ?_⟩⟩
    · exact next_done hruns ((applyTake_upstream hp hpos hin).trans (if_pos h5))
    · exact next_refuse hruns ((applyTake_upstream hp hpos hin).trans ((if_neg (by simp [h3])).trans (if_pos h3)))
    · exact next_refuse hruns ((applyTake_upstream hp hpos hin).trans ((if_neg h5).trans ((if_neg h3).trans (if_pos (Option.isSome_iff_ne_none.mpr hd)))))
    · have hsent : Sent [0, 1] (s.demanding c) ((s.demanding c).sendTo (s.rd rngPosUp) (.fenceDemand (s.demanding c).ring.demandTok)) :=
        (Sent.refl _ _).sendTo _ _
      refine gives_next (next_later hruns ((applyTake_upstream hp hpos hin).trans ((if_neg h5).trans ((if_neg h3).trans (if_neg (by simp [hd]))))))
        ⟨?_, ?_, ?_, hsent.chans, hsent.mem⟩
      · exact (congrArg RingSt.demandAt hsent.ring :)
      · exact (congrArg RingSt.demandTok hsent.ring :)
      · exact (congrArg RingSt.demandCmd hsent.ring :)
  · exact fun src maxS s => ⟨fun h => congrArg Host.Outcome.next (hold_ignored h), fun hs hin hp hu =>
      ⟨State.rd_wr_self .., congrArg Host.Outcome.next (hold_taken hs hin hp hu)⟩⟩
  · refine fun s => ⟨fun h => congrArg Host.Outcome.next (holdExpiry_waits h), fun a ha hle => ?_⟩
    exact gives_next (congrArg Host.Outcome.next (holdExpiry_due ha hle)) (holdOver_spec s)
  · intro b s
    refine ⟨fun h => congrArg Host.Outcome.next (resumeAnswer_stray h), fun h => ⟨?_, ?_⟩, fun h hwarm => ?_⟩
    · exact congrArg Host.Outcome.next ((resumeAnswer_awaited h).trans (if_neg Bool.false_ne_true))
    · exact congrArg Host.Outcome.next ((resumeAnswer_awaited h).trans (if_pos rfl))
    · exact gives_next (congrArg Host.Outcome.next ((resumeAnswer_awaited h).trans ((if_neg Bool.false_ne_true).trans (resumeMedia_nothing hwarm))))
        ⟨rfl, rfl, rfl, rfl⟩

end Sys2Proof.Machine
end
